-- ==== Sys2Proof/Word.lean ====
section
/-! DEFINITION. The words of the AX8 and the two number carriers the rest of the model computes with. -/

namespace Sys2Proof

/-- A byte of memory (00_scope R9). -/
abbrev Byte := BitVec 8
/-- A 32-bit register, mask or IMM (04 R112). -/
abbrev W32 := BitVec 32
/-- A 64-bit address, register pair or count (04 R113). -/
abbrev W64 := BitVec 64

/-- A sparse table: entries in rising order of their key; a key that is not listed holds the table's default. -/
abbrev SMap (α : Type) := List (Nat × α)

/-- An exact dyadic number `m * 2 ^ e`: what a floating value or a sum of products stands for before it is rounded
(06 R171, 05 R152, R153). -/
structure Dy where
  m : Int
  e : Int
  deriving DecidableEq, Repr

end Sys2Proof
end

