-- ==== Sys2Proof/Machine/StateCore.lean ====
section
/-! DEFINITION. The state of the data plane: cores, groups, arrays, line requests, memory, engines, contexts, queues,
graphs and plots (03, 05, 07, 08, 10, 11). -/

namespace Sys2Proof

/-- The engines that execute descriptors: couriers and gleaners of a compute die (07 R221), relays of an I/O die
(09 R288; `south` selects die 9). -/
inductive EngineId where
  | courier (die i : Nat)
  | gleaner (die i : Nat)
  | relay (south : Bool) (i : Nat)
  deriving DecidableEq, Repr

namespace Machine

/-- The fault classes of 03 Table 5, in code order. -/
inductive FaultClass where
  | align | carveOut | carveOutRemote | benchRange | illegal | operandRange | arrayUnavailable | divOverflow
  | nanTrap | satTrap | nodeGone | fabricLost | dataLost
  deriving DecidableEq, Repr

/-- The replay modes of 03 R97. -/
inductive ReplayMode where
  | none | instr | op | continue | block
  deriving DecidableEq, Repr

/-- One entry of a group's reconvergence stack (03 R78). -/
structure StackEntry where
  rpc : W64
  origMask : W32
  pendPc : W64
  pendMask : W32
  deriving DecidableEq, Repr

/-- What a resident group is doing (03 R76, R94, R101, R103). -/
inductive GroupState where
  /-- issues instructions -/
  | run
  /-- arrived at named barrier `b` and waits for its release (R88) -/
  | barSync (b : Nat)
  /-- waits for a die (`pkg` false) or package counter `k` to reach `v` (R90) -/
  | counter (pkg : Bool) (k : Nat) (v : W32)
  /-- waits in `await` on pigeonhole `h` until its doorbell sequence differs from `e` (R92) -/
  | await (h : Nat) (e : W32)
  /-- parked at a `yield.t` for a pass (R103) -/
  | yieldPark
  /-- has a fault; stopped issuing or parked for it (R95, R96) -/
  | faultPark
  deriving DecidableEq, Repr

/-- Where a line request's line is (07 R211, R215, R218; 08 R235, R241). -/
inductive Target where
  /-- a local line: physical byte address of its first byte -/
  | local (phys : Nat)
  /-- a line of a bench, which an engine reaches by bench DMA: its physical bench address (07 R221) -/
  | bench (a : Nat)
  /-- a line of another package -/
  | remote (node : Nat)
  /-- a host window page: port HB when `hb`, the bus address of the line -/
  | host (hb : Bool) (bus : Nat)
  deriving DecidableEq, Repr

/-- One thread's part of a line request: thread, byte offset in the line, operand (for `cas` the compare value) and
new value of a `cas` (03 R82, R84). -/
structure Lane where
  t : Nat
  off : Nat
  opnd : W64
  cmp : W64
  deriving DecidableEq, Repr

/-- The operation of a line request. -/
inductive LineOp where
  /-- a load: `.ro`, `.vol`, size code of 04 Table 10, first destination register, destination in space u -/
  | load (ro vol : Bool) (size dest : Nat) (du : Bool)
  /-- a store of the masked bytes, by offset in the line (03 R82) -/
  | store (bytes : List (Nat × Byte))
  /-- merged atomics: AOP, TYPE and SCOPE of 04 R124 and Table 11, first destination register -/
  | atom (aop ty scope dest : Nat)
  /-- the read of a 64-byte descriptor by an engine-issue instruction (04 R134): class 0 courier, 1 gleaner, 2 relay;
  engine selector -/
  | desc (cls sel : Nat)
  deriving DecidableEq, Repr

/-- How far a line request has come (03 R87, 07 R214). -/
inductive ReqStage where
  /-- in the core's fabric engine, on its way to its home -/
  | waiting
  /-- a store to a host window that has left as a posted PCIe write, which nothing has confirmed yet (04 R125) -/
  | posted
  /-- such a store whose confirming read of the same host window is due (04 R125, Table 12) -/
  | confirming
  /-- attached to a fill at its home, or sent to another package or the host -/
  | attached
  /-- a load or atomic answered: the line's bytes, or each lane's old value -/
  | returned (data : List Byte) (olds : List W64)
  /-- a store acknowledged by its home -/
  | acked
  /-- ended by a late fault (03 R96) -/
  | failed (cls : FaultClass)
  deriving DecidableEq, Repr

/-- The packet from another package that a line request answers: its node, source agent, REQ_ID, connection class and tag
(09 R271). -/
structure RemoteSrc where
  node : Nat
  agent : Nat
  reqId : Nat
  conn : Nat
  tag : Nat
  deriving DecidableEq, Repr

/-- One line request. Of a group: an entry of its core's fabric engine (03 R87). One that a packet from another package
brought has `rem`, and names no group; nor does one of an engine (07 R214), a Dispatcher or the host. -/
structure LineReq where
  id : Nat
  /-- who asks: core 0 to 671; 672 another package; 4096 + n engine n; 8192 + k Dispatcher k; 16384 + k the host's
  function k -/
  core : Nat
  slot : Nat
  /-- number of the issuing instruction in its group's program order -/
  iseq : Nat
  /-- age of the issuing group, which tells it from a later group of the same slot -/
  age : Nat
  plot : Nat
  pc : W64
  opcode : BitVec 10
  /-- full 64-bit address of the line's first byte -/
  addr : Nat
  tgt : Target
  op : LineOp
  lanes : List Lane
  stage : ReqStage
  /-- of a request attached to a fill of this package's memory: what the home answers when the fill arrives -/
  pre : Option ReqStage
  rem : Option RemoteSrc
  /-- when its die's crossbar accepted it, in the order of request numbers (04 R126) -/
  accepted : Option Nat
  deriving DecidableEq, Repr

/-- A late fault of one instruction, kept until its group parks (03 R96). -/
structure LateFault where
  iseq : Nat
  beat : Nat
  cls : FaultClass
  sub : Nat
  pc : W64
  opcode : BitVec 10
  mask : W32
  addr : W64
  detail : W64
  /-- the failed requests, which a replay in mode OP reissues -/
  ops : List LineReq
  deriving DecidableEq, Repr

/-- A resident group (03 R63, R68, R78; 04 R136). -/
structure Group where
  /-- index within its thread block (u3) -/
  index : Nat
  /-- the block slot of its thread block -/
  block : Nat
  /-- number on the core, which tells it from a later group of the same slot -/
  age : Nat
  pc : W64
  active : W32
  stack : List StackEntry
  /-- vector registers: key 32 * register + lane; unlisted registers are zero -/
  v : SMap W32
  /-- u0 to u63 -/
  u : SMap W32
  /-- p0 to p7 -/
  p : SMap W32
  trapNan : Bool
  trapSat : Bool
  /-- holds one of the core's eight active-set entries (03 R76, R77) -/
  act : Bool
  st : GroupState
  /-- parked by the management plane: a pass, a drain or a cold stop (03 R101) -/
  mgmt : Bool
  /-- stopped issuing for a late fault (03 R96) -/
  stop : Bool
  late : List LateFault
  /-- number of the next instruction in program order -/
  iseq : Nat
  /-- of a group that has left the active set: the requests for whose results its next instruction waits (03 R76) -/
  waitsOn : List Nat := []
  deriving DecidableEq, Repr

/-- The state of one named barrier (03 R88): arrivals so far, and the count asked for (0 = all groups). -/
structure NamedBarrier where
  arrived : Nat
  need : Nat
  deriving DecidableEq, Repr

/-- A resident thread block (03 R63, R70, R72). -/
structure Block where
  launch : Nat
  node : Nat
  /-- linear index within the grid (u2) -/
  index : Nat
  grid : Nat
  groups : Nat
  regsAlloc : Nat
  /-- the 1 KiB bench granules of its region, in offset order (03 R72) -/
  bench : List Nat
  usesArray : Bool
  entry : W64
  slip : W64
  ctx : Nat
  plot : Nat
  traps : BitVec 2
  detached : Bool
  /-- order of placement on the core (03 R77) -/
  age : Nat
  /-- the iteration of its launch that placed it (10 R313) -/
  iter : Nat := 0
  bars : SMap NamedBarrier
  deriving DecidableEq, Repr

/-- One accumulator set (05 R148): C as 32-bit patterns keyed 64 * row + column, TAG, ACC_SAT, and the tally lane's
state (R158, R159, R161): the patterns of T and of V, and Z, keyed by row, by 64 + column, and at 128 and 129 the 65th row
and column terms. -/
structure AccSet where
  int : Bool
  c : SMap W32
  sat : Bool
  tSum : SMap (BitVec 52)
  vSum : SMap (BitVec 52)
  zSum : SMap Dy
  nRound : Nat
  pair : Nat
  deriving DecidableEq, Repr

/-- A matrix instruction's kind. -/
inductive ArrKind where
  | mma | accZero | accSt | accLd | accFlags | accClrf
  deriving DecidableEq, Repr

/-- One entry of an array queue (04 R133): the instruction with the descriptor registers it was issued with. -/
structure ArrOp where
  kind : ArrKind
  set : Nat
  slot : Nat
  age : Nat
  iseq : Nat
  pc : W64
  opcode : BitVec 10
  desc : List W32
  aFmt : Nat
  bFmt : Nat
  zero : Bool
  blk16 : Bool
  /-- destination u register of `acc.flags` -/
  dest : Nat
  trapNan : Bool
  trapSat : Bool
  launch : Nat
  ctx : Nat
  started : Bool
  /-- rows that a running `acc.st` has written (05 R144, 08 R261) -/
  drained : Nat := 0
  deriving DecidableEq, Repr

/-- The array activity states of 05 Table 8. -/
inductive ArrState where
  | idle | rampUp | active | hold | rampDown
  deriving DecidableEq, Repr

/-- A read-only copy of one line, as it stood when it was fetched (07 R218, R220). -/
structure LineCopy where
  data : List Byte
  die : Nat
  slice : Nat
  plot : Nat
  deriving DecidableEq, Repr

/-- A line of HBM that a cellar slice holds (07 R212). -/
structure CellarLine where
  dirty : Bool
  slice : Nat
  /-- brought in by a miss to an object with the STREAM hint, and not used since: next to be evicted -/
  stream : Bool
  deriving DecidableEq, Repr

/-- What a weeding pass is doing on a core (03 R102-R105, 15 R411). -/
inductive CorePass where
  | none
  /-- deferral runs since this beat; `window` is the beat at which a group first parked at a `yield.t` -/
  | deferral (since : Nat) (window : Option Nat)
  /-- the maximum deferral has ended: groups are force-parked -/
  | forced (since : Nat)
  /-- the test runs: start beat, phases ended, failures so far -/
  | running (start : Nat) (phase : Nat) (fails : List Nat)
  deriving DecidableEq, Repr

/-- One physical core (03 R63). -/
structure Core where
  groups : SMap Group
  blocks : SMap Block
  nextAge : Nat
  /-- the kernel (launch, node) that holds the array claim (03 R66) -/
  claim : Option (Nat × Nat)
  acc : SMap AccSet
  arrQ : List ArrOp
  arrSt : ArrState
  /-- groups of 8 rows enabled, 0 to 8 (05 R164) -/
  rows : Nat
  /-- the start that the queued `mma` asks for has been counted as waiting for its window (05 R165) -/
  rampWait : Bool
  /-- the read-only near cache, keyed by line address (07 R220) -/
  near : SMap LineCopy
  /-- the bundles the instruction cache holds, by address div 64, with their bytes; none where the memory they come from
  is not this package's (03 R106) -/
  icache : SMap (List Byte)
  /-- the bundles that each group slot has fetched for its next instruction (03 R106) -/
  fetchBuf : SMap (List (Nat × List Byte))
  /-- cycles counted since die reset, read by `rdclk` (04 R137) -/
  clk : W64
  pass : CorePass
  deriving DecidableEq, Repr

/-- A core with nothing resident. -/
def Core.empty : Core :=
  { groups := [], blocks := [], nextAge := 0, claim := none, acc := [], arrQ := [], arrSt := .idle, rows := 0, rampWait := false,
    near := [], icache := [], fetchBuf := [], clk := 0, pass := .none }

/-- The states of a physical core, 01 Table 4. -/
inductive CoreState where
  | full | arrayOff | off
  deriving DecidableEq, Repr

/-- A fill outstanding at a home (07 R214): the line wanted and the requests attached, in arrival order. -/
structure Fill where
  id : Nat
  line : Nat
  /-- the full address, for a fill of a remote line -/
  addr : Nat
  remote : Option Nat
  reqs : List Nat
  /-- false once an invalidation has overlapped it (R219) -/
  install : Bool
  /-- the plot whose request began it -/
  plot : Nat := 64
  deriving DecidableEq, Repr

/-- The stored postmark of one tile (07 R228, R229). -/
structure Mark where
  sum : W32
  wsum : W32
  valid : Bool
  deriving DecidableEq, Repr

/-- A memory object (07 R199, R201, R229; 08 R238; 11 R336). A frame is named channel * 16384 + frame. -/
structure MemObj where
  base : Nat
  plot : Nat
  size : Nat
  package : Bool
  nearDie : Nat
  postmark : Bool
  stream : Bool
  stripes : List (List Nat)
  side : List Nat
  marks : SMap Mark
  hostCount : Nat
  deriving DecidableEq, Repr

/-- A host-window object (08 R241): consecutive pages of 2 MiB from `base`, each a bus address. -/
structure HwObj where
  base : Nat
  plot : Nat
  hb : Bool
  write : Bool
  pages : List Nat
  hostCount : Nat
  deriving DecidableEq, Repr

/-- Who issued a descriptor. -/
inductive DescOwner where
  | group (core slot : Nat)
  | node (launch node : Nat)
  deriving DecidableEq, Repr

/-- A descriptor in an engine's queue (07 R221, 09 R288). -/
structure EngDesc where
  bytes : List Byte
  addr : W64
  plot : Nat
  ctx : Nat
  owner : DescOwner
  /-- the issuing thread block's core and bench granules, to which own-region addresses refer (08 R243) -/
  own : Option (Nat × List Nat)
  deriving DecidableEq, Repr

/-- What an engine found while executing a descriptor: the fields of 07 Table 6. -/
structure EngRun where
  desc : EngDesc
  status : Nat
  done : Nat
  pmChecked : Nat
  pmUnchecked : Nat
  pmMismatch : Nat
  firstBad : Nat
  /-- names the run -/
  id : Nat
  /-- line requests and packets sent and not yet answered: their number, and the line or row each is for -/
  outs : List (Nat × Nat)
  /-- what has come for the run: a line or a rank, a status or a byte offset, data (07 R222; 09 R290-R294) -/
  got : List (Nat × Nat × List Byte)
  /-- 0: sources are read; 1: all is written; of a RING_PASS, the step under way -/
  phase : Nat
  /-- DOORBELL_SEQ of FREE_PH at the start (09 R294) -/
  ring0 : Nat
  /-- tiles that its rows have written in full, with the row that did: their postmarks are stored once every write has been
  acknowledged (07 R231) -/
  marks : List (Nat × Nat × Nat × Mark) := []
  deriving DecidableEq, Repr

/-- One engine (07 R221, 09 R288): its queue and the descriptors it is executing. -/
structure Engine where
  queue : List EngDesc
  running : List EngRun
  deriving DecidableEq, Repr

/-- A fault record (03 Table 6), kept by field. -/
structure FaultRec where
  cls : FaultClass
  sub : Nat
  beat : Nat
  core : Nat
  slot : Nat
  block : Nat
  plot : Nat
  ctx : Nat
  pc : W64
  resume : W64
  addr : W64
  mask : W32
  opcode : BitVec 10
  mode : ReplayMode
  detail : W64
  /-- age of the group it names, which tells it from a later group of the same slot -/
  age : Nat
  notice : Bool
  ops : List LineReq
  deriving DecidableEq, Repr

/-- A context (11 R331, R332; 10 R318, R319; 16 R441). -/
structure Ctx where
  plot : Nat
  forerunner : Bool
  wdAction : Bool
  wdEpochs : Nat
  ringLog2 : Nat
  ring : Nat
  progress : Nat
  faultEvent : Nat
  hostCount : Nat
  /-- RECORD_SEQ of the next record -/
  writeSeq : Nat
  /-- FREE_SEQ as the device last read it (11 R332) -/
  freeSeq : Nat
  /-- the fault doorbell has rung and its dispositions are not yet processed (03 R99) -/
  rung : Bool
  /-- records waiting for a free ring entry (03 R98) -/
  held : List FaultRec
  /-- records written and not yet resolved, by RECORD_SEQ -/
  posted : SMap FaultRec
  launchSeq : Nat
  /-- the five progress counts at the last epoch sample, epochs without advance, last advance, STALLED -/
  sample : List Nat
  still : Nat
  lastAdvance : Nat
  stalled : Bool
  /-- both counts have reached zero: released, its last records and its number outstanding (11 R337) -/
  released : Bool := false
  deriving DecidableEq, Repr

/-- An event (10 R315, 11 R334): its context, record address, vector (0xFFFF none), host count, and the threshold for
which its interrupt has been sent. -/
structure Event where
  ctx : Nat
  addr : Nat
  vector : Nat
  hostCount : Nat
  fired : Option W64
  deriving DecidableEq, Repr

/-- A queue entry claimed by its Dispatcher (10 Table 3). -/
structure QEntry where
  bytes : List Byte
  ticket : Nat
  /-- the journal configuration in force when it was claimed (16 R441) -/
  jgen : Option Nat
  deriving DecidableEq, Repr

/-- What a queue adds to its pigeonhole (10 R302, R304). -/
structure Queue where
  disp : Nat
  hostCount : Nat
  running : Bool
  entry : Option QEntry
  /-- the launch the entry runs, if it is a LAUNCH under way -/
  launch : Option Nat
  deriving DecidableEq, Repr

/-- A pigeonhole (10 R298): its ring's address and size, and its queue if it is one. -/
structure Pigeon where
  ctx : Nat
  ring : Nat
  log2 : Nat
  hostCount : Nat
  queue : Option Queue
  deriving DecidableEq, Repr

/-- A node record of a stored graph (10 Table 5). -/
structure GNode where
  kind : Nat
  array : Bool
  detached : Bool
  fenceOn : Bool
  traps : BitVec 2
  groups : Nat
  regs : Nat
  copyDie : Nat
  phaseTag : Nat
  bench : Nat
  blocks : Nat
  target : W64
  value : W64
  slip : W64
  fenceEvent : Nat
  fenceValue : W64
  npred : Nat
  succs : List Nat
  deriving DecidableEq, Repr

/-- A stored graph (10 R305, R308). -/
structure Graph where
  ctx : Nat
  nodes : List GNode
  snap : Nat
  hostCount : Nat
  /-- the frames of the Dispatchers' copy (11 R322) -/
  frames : List Nat
  /-- the bank of the last iteration begun, and the banks running iterations hold -/
  lastBank : Nat
  banks : List Nat
  deriving DecidableEq, Repr

/-- The state of one node within an iteration (10 R307, R312, R313). -/
inductive NodeSt where
  | waiting | dispatched | done | failed | cancelled | disabled
  deriving DecidableEq, Repr

/-- One node of an iteration in flight. -/
structure NodeRun where
  st : NodeSt
  grid : Nat
  placed : Nat
  ended : Nat
  slip : W64
  /-- status of the engine's descriptor once it has completed (07 Table 6) -/
  engine : Option Nat
  aborted : Bool
  deriving DecidableEq, Repr

/-- A launch in flight (10 R303, R312-R314). -/
structure Launch where
  queue : Nat
  graph : Nat
  ctx : Nat
  rep : Nat
  iter : Nat
  bank : Nat
  nodes : SMap NodeRun
  /-- an iteration is running -/
  open_ : Bool
  signal : Bool
  stopOnFail : Bool
  event : Nat
  value : W64
  record : Nat
  seq : Nat
  startBeat : Nat
  okIters : Nat
  failedNode : Option Nat
  failCause : Nat
  failDetail : Nat
  aborted : Bool
  nan : Nat
  sat : Nat
  nanFirst : Bool
  satFirst : Bool
  run : Nat
  disabled : Nat
  cancelled : Nat
  faults : Nat
  /-- notice records due for the launch's first NaN and first saturation (05 R157, 06 R194) -/
  nanNotice : Option FaultRec
  satNotice : Option FaultRec
  /-- watched regions digested this iteration (16 R442) -/
  digests : List (Nat × W64)
  /-- the iteration under way: its first beat, and the counts of NaNs, saturations and fault records at its start -/
  itBeat : Nat
  itNan : Nat
  itSat : Nat
  itFaults : Nat
  /-- collectives of the context completed in the iteration (16 Table 5): COLL_ID, set CRC, op bytes, seed, whether it
  was a reduction with DET clear -/
  colls : List (Nat × Nat × Nat × Nat × Bool)
  jgen : Option Nat
  /-- a replay (16 R444), which runs outside its queue -/
  replay : Bool
  deriving DecidableEq, Repr

/-- The states of a plot, 11 Table 3. -/
inductive PlotState where
  | active | draining | drained | destroying
  deriving DecidableEq, Repr

/-- A plot and its carve-out (11 R321, Table 1). -/
structure Plot where
  st : PlotState
  drainedBeat : Nat
  tallyOff : Bool
  /-- the bound VF: host port HB when the flag is set, and its number -/
  vf : Option (Bool × Nat)
  tag : Nat
  /-- the nodes admitted to the plot, and those pruned from it; both empty with tag 0 (09 R286) -/
  mem : List Nat
  pruned : List Nat
  maxCtx : Nat
  events : Nat
  graphs : Nat
  ph : Nat × Nat
  dbar : Nat × Nat
  pbar : Nat × Nat
  cores : List Nat
  /-- slices by die: die * 56 + slice, ascending -/
  cache : List Nat
  scratch : List Nat
  /-- per die: first frame and count -/
  frames : List (Nat × Nat)
  /-- the journal entry of the plot.destroy letter that waits for the teardown (11 R330) -/
  reply : Option Nat
  deriving DecidableEq, Repr

/-- What a slice is doing (07 R217). -/
inductive SliceState where
  | inService
  /-- flush of a cache slice, or copy-out of a scratch slice, since this beat -/
  | flushing (since : Nat)
  /-- under test: its channel homes or save area serve it -/
  | bypassed (since : Nat)
  /-- coming back -/
  | returning (since : Nat)
  | out
  deriving DecidableEq, Repr

/-- Retraining of one HBM channel (07 R205): beats at which retrains began, whether one is under way, and the
requests held meanwhile. -/
structure Channel where
  retrains : List Nat
  training : Option Nat
  held : List Nat
  deriving DecidableEq, Repr

/-- An error record on its way to the error record ring: code, source unit, and payload fields in table order, each a
value and a width in bytes (15 R424, R425). -/
structure Post where
  code : Nat
  unit : Nat
  fields : List (Nat × Nat)
  /-- the beat of the event, once the command that raised it has ended -/
  beat : Option Nat
  deriving DecidableEq, Repr

/-- The state of the data plane. -/
structure Data where
  /-- cores by index 84 * die + 12 * row + column -/
  cores : SMap Core
  /-- 01 Table 4, by core index; a core not listed is FULL -/
  coreSt : SMap CoreState
  /-- HBM at channel * 2^30 + frame * 2^16 + frame_off, cellar scratch at 2^39 + (die * 56 + slice) * 2^22 + offset;
  a byte not listed reads as zero -/
  mem : List Host.Cell
  /-- benches at core * 2^19 + offset; a byte not listed reads as its granule's epoch says -/
  bench : List Host.Cell
  /-- the placement that last took each bench granule (core * 512 + granule); 0 or not listed: cleared -/
  benchEpoch : SMap Nat
  /-- lines marked lost (07 R207, R216), by physical address div 128, rising -/
  lost : List Nat
  /-- lines the cellar holds, by physical address div 128 (07 R212) -/
  cellar : SMap CellarLine
  /-- read-only copies of remote lines (07 R218), by 64 * (address div 128) + plot -/
  copies : SMap LineCopy
  fills : List Fill
  reqs : List LineReq
  nextId : Nat
  channels : SMap Channel
  /-- retired channels (07 R209) -/
  chanOut : List Nat
  /-- corrected codewords of this scrub period by row (channel * 2^20 + frame * 64 + row), R208 -/
  rowErrs : SMap Nat
  /-- frames pending retirement, and retired (07 R208), as channel * 16384 + frame -/
  framePend : List Nat
  frameOut : List Nat
  /-- slices by die * 56 + slice; a slice not listed is in service -/
  slices : SMap SliceState
  /-- dies out of service, North 8 and South 9 included (15 R430, R431) -/
  dieOut : List Nat
  /-- the scratch save area of each die, as frames (11 R322) -/
  saveArea : SMap (List Nat)
  /-- die barrier counters, die * 1024 + k, and package barrier counters (03 R90) -/
  dieBar : SMap W32
  pkgBar : SMap W32
  objs : List MemObj
  hws : List HwObj
  /-- VF BAR2 apertures (12 R349): plot, object base, aperture offset -/
  apertures : List (Nat × Nat × Nat)
  /-- engines by number: courier i of die d 16 * d + i, gleaner 16 * d + 8 + i, relay 128 + i, and 136 + i on South -/
  engines : SMap Engine
  ctxs : SMap Ctx
  events : SMap Event
  pigeons : SMap Pigeon
  graphs : SMap Graph
  launches : SMap Launch
  /-- launches that have ended while thread blocks of their DETACHED nodes stay resident (10 R317), for those blocks'
  reports (05 R157, 06 R194) -/
  ended : SMap Launch := []
  plots : SMap Plot
  /-- the package's node number (08 R236) -/
  node : Nat
  /-- corrected-error counters of the epoch (07 R233), keyed by code * 2^20 + unit: the count, and the beat of the latest
  error once the command that found it has ended -/
  corrected : SMap (Nat × Option Nat)
  /-- records waiting to be posted -/
  posts : List Post
  /-- cores at their seventh failure, not yet retired (15 R420): true when all failures named array or conversion tags -/
  retiring : SMap Bool
  /-- contexts whose thread blocks ran on a core, most recent first (15 R421) -/
  ctxSeen : SMap (List Nat)
  /-- retired engines, by engine number (15 R413) -/
  engOut : List Nat
  /-- contexts to which ABORT_CONTEXT is due within this step (11 R495) -/
  abortPend : List Nat
  /-- interrupts the Dispatchers have asked for: plot and MSI-X vector (10 R316, 11 R332) -/
  irqs : List (Nat × Nat)
  /-- the data plane is halted by a cold stop (14 R399), or not yet brought up -/
  halted : Bool
  /-- the model's own draw counter for free values; no part of the machine -/
  free : Nat
  deriving DecidableEq, Repr

end Machine
end Sys2Proof
end

