-- ==== Sys2Proof/Machine/StateIssue.lean ====
section
/-! DEFINITION. The operand of the Huval instruction commands: which group issues which word (04 R108, R109). -/

namespace Sys2Proof

/-- An instruction issue: the core (84 * die + 12 * row + column), its group slot, and the fetched word, given as
bits [53:0] and the IMMF bit; bits [62:54] are those of the command's own instruction (04 Table 4). A word of no
instruction of Table 4, which is ILLEGAL (R110), is brought by any of the instructions' commands, `code` being its
bits [63:54]. `nearParity`: the near cache's parity is in error in every line that a load finds there (07 R220). -/
structure Issue where
  core : Nat
  slot : Nat
  imm : Bool
  f : BitVec 54
  code : Option (BitVec 10) := none
  nearParity : Bool := false
  deriving DecidableEq, Repr

end Sys2Proof
end

