-- ==== Sys2Proof/Machine/StateInputs.lean ====
section
/-! DEFINITION. The operand types of the commands that are no instructions: who sends, what a cell, packet or frame
holds, and what the module measured or tested (00 R8, R9; chapters 02, 07, 09, 12, 14, 15, 17). -/

namespace Sys2Proof

/-- A Postmaster, or the I/O die it sits on (01 Table 3). -/
inductive Side where
  | north | south
  deriving DecidableEq, Repr

/-- A host port (12 R340). -/
inductive HostPort where
  | ha | hb
  deriving DecidableEq, Repr

/-- A PCIe function: the PF of a port, or VFnn of a port (12 R343). -/
inductive Fn where
  | pf (p : HostPort)
  | vf (p : HostPort) (nn : Nat)
  deriving DecidableEq, Repr

/-- What a host read of the Almanac registers takes (02 R61, Table 3): the low or the high half of ALMANAC_BEAT, all of it, or
the words at 0x08 and 0x10. -/
inductive AlmPart where
  | low | high | whole | status | offset
  deriving DecidableEq, Repr

/-- A host read of the Almanac registers through a function. -/
structure AlmRead where
  fn : Fn
  part : AlmPart
  deriving DecidableEq, Repr

/-- A host read of BAR0: of BAR2_UNMAPPED, or of `len` bytes at `off` that no command of their own reads (12 Tables 2 to 4). -/
structure Bar0Read where
  fn : Fn
  part : Option (Nat × Nat)
  deriving DecidableEq, Repr

/-- What a host register write reaches: an offset of BAR0, or, in the configuration space of a PF, the size field of its
Resizable BAR control for BAR2 (12 Table 1). -/
inductive RegTarget where
  | bar0 (off : Nat)
  | bar2Size
  deriving DecidableEq, Repr

/-- What goes wrong at a home while it serves a line request (07 R205, R216): nothing; a command parity error repeated
`n` times; a single-bit or a double-bit error of the cellar line. -/
inductive HomeEvent where
  | plain
  | parity (n : Nat)
  | eccSingle
  | eccDouble
  deriving DecidableEq, Repr

/-- What HBM ECC makes of a codeword (07 R206). -/
inductive CodewordResult where
  | ok | corrected | uncorrectable
  deriving DecidableEq, Repr

/-- How a host answers a read of a host window (12 R341). -/
inductive CplStatus where
  | ok | timeout | error | poisoned
  deriving DecidableEq, Repr

/-- What COMMIT finds in a test pack (15 R422, R423): digest and signature, version, member mask admits the AX8, and
the sweep's unit kinds and beats. -/
structure PackVerdict where
  signed : Bool
  version : Nat
  member : Bool
  sweepKinds : List Nat
  sweepBeats : Nat
  deriving DecidableEq, Repr

/-- What COMMIT finds in a firmware image (13 R380, R381). -/
structure ImageVerdict where
  signed : Bool
  version : Nat
  sameJournal : Bool
  deriving DecidableEq, Repr

/-- Measurements of the last beat (14 R389): milliwatts of each compute die and of HBM. -/
structure PowerMeas where
  dieMw : List Nat
  hbmMw : Nat
  deriving DecidableEq, Repr

/-- Measurements of the last epoch (14 R387, R404): millijoules of the module, of each die's rail, of HBM and of the
I/O dies, regulator loss in watts, and what each context is charged of them; input power and voltage, and
temperatures (dies 0-7, North, South, stacks 0-15) (12 R353). -/
structure EpochMeas where
  moduleMj : Nat
  dieMj : List Nat
  hbmMj : Nat
  ioMj : Nat
  lossW : Nat
  charges : List (Nat × Nat)
  inputW : Nat
  inputMv : Nat
  temps : List Nat
  deriving DecidableEq, Repr

/-- The content of a sync cell (02 Table 2); `zero` says whether its reserved fields, and on a global link the header
fields that R272 requires to be zero, are zero. -/
structure SyncCell where
  beat : Nat
  rootSerial : Nat
  priority : Nat
  hops : Nat
  state : Nat
  errBound : Nat
  zero : Bool
  deriving DecidableEq, Repr

/-- A unit that a weeding pass tests (15 Table 1). -/
inductive PassUnit where
  | core (c : Nat)
  | slice (die s : Nat)
  | runner (k : Nat)
  | engine (e : EngineId)
  deriving DecidableEq, Repr

/-- A TALLY_MISMATCH that a pack program raises (15 R412): the program's tags, and the fields of 05 Table 7 from SET on. -/
structure PackTally where
  tags : BitVec 8
  set : Nat
  check : Nat
  pair : Nat
  pc : Nat
  rows : Nat
  cols : Nat
  skipped : Nat
  worst : Nat
  nRound : Nat
  out : Nat
  deriving DecidableEq, Repr

/-- What one phase of a core pass finds on its core (15 R411, R412): tags of fixed-seed programs that differ from the
expected digests; tags of fresh-seed programs that differ between the cores and, on rerun, from this core's own rerun;
both reruns still differ; largest fraction of cycles lost to droop stretch in 1/1024;
mismatches of the tally lane. -/
structure PhaseResult where
  fixedTags : BitVec 8
  freshTags : BitVec 8
  unresolved : Bool
  stretch : Nat
  tally : List PackTally
  deriving DecidableEq, Repr

/-- A survey identity record (09 Table 3). -/
structure SurveyRec where
  serial : Nat
  node : Nat
  nodeValid : Bool
  position : Nat
  port : Nat
  lanes : Nat
  /-- when it left, in ns since beat 0 -/
  t1 : Nat
  t2 : Nat
  t3mt2 : Nat
  zero : Bool
  deriving DecidableEq, Repr

/-- A fabric packet (09 Table 6). -/
structure Packet where
  type : Nat
  epoch : Bool
  flag : Bool
  masked : Bool
  ro : Bool
  fwd : Bool
  pm : Bool
  dst : Nat
  src : Nat
  tag : Nat
  offset : Nat
  /-- LENGTH; of a BULK_READ, the bytes asked for -/
  len : Nat
  seq : BitVec 32
  agent : Nat
  reqId : Nat
  hops : Nat
  aop : Nat
  ty : Nat
  status : Nat
  conn : Nat
  mask : List Bool
  data : List (BitVec 8)
  deriving DecidableEq, Repr

/-- What a link carries in one cell or parcel: the sync content, a survey identity record, or a packet (09 R264, R272). -/
inductive LinkItem where
  | sync (c : SyncCell)
  | survey (r : SurveyRec)
  | packet (p : Packet)
  deriving DecidableEq, Repr

/-- What a cell or a parcel says to the link layer of its receiver: up to which cell the peer has received (the number of the next),
whether it asks for a replay from there, and the credits that it returns for REQ, RSP, FWD_REQ, FWD_RSP, MSG and CTRL
(09 R263, R264, R266). -/
structure LinkWord where
  ack : BitVec 12
  replay : Bool
  credits : List Nat
  deriving DecidableEq, Repr

/-- A cell that a runner receives: whether its CRC is right, and what it says to the link layer. -/
structure Cell where
  crcOk : Bool
  word : LinkWord
  deriving DecidableEq, Repr

/-- A frame received on a global link (09 R266): its addresses, EtherType, length, link sequence number, and what it says and
carries. -/
structure GlFrame where
  dst : Nat
  src : Nat
  etherType : Nat
  vlan : Bool
  length : Nat
  fcsOk : Bool
  seq : BitVec 12
  word : LinkWord
  body : LinkItem
  deriving DecidableEq, Repr

/-- A rail of 14 Table 3. -/
inductive Rail where
  | vcore (d : Nat)
  | vsram | vhbm | vioN | vioS
  deriving DecidableEq, Repr

/-- What a bring-up step found (17 R448-R457): new failures by unit, links trained (port, lanes), and the image that
each component booted. -/
structure BringResult where
  coresOff : List Nat
  coresArrayOff : List Nat
  slices : List Nat
  channels : List Nat
  frames : List Nat
  engines : List Nat
  dispatchers : List Nat
  diesOut : List Nat
  ioOut : List Side
  bridgeFail : Bool
  /-- active slot verifies; the other slot verifies -/
  activeOk : Bool
  otherOk : Bool
  /-- the full test passed -/
  testPassed : Bool
  links : List (Nat × BitVec 8)
  deriving DecidableEq, Repr

end Sys2Proof
end

