-- ==== Sys2Proof/Syntax.lean ====
section
/-! DEFINITION. The commands of the block: one constructor per row of spec/opcode_table.json. -/

namespace Sys2Proof

/-- A command. A constructor with an `Issue` is a Huval instruction issued by one group (04); the others are letters,
bus operations and events. -/
inductive Instr where
  | nop (x : Issue)
  | bra (x : Issue)
  | brx (x : Issue)
  | call (x : Issue)
  | ret (x : Issue)
  | exit (x : Issue)
  | yieldT (x : Issue)
  | isync (x : Issue)
  | trap (x : Issue)
  | iadd (x : Issue)
  | isub (x : Issue)
  | imulLo (x : Issue)
  | imulHi (x : Issue)
  | imad (x : Issue)
  | iand (x : Issue)
  | ior (x : Issue)
  | ixor (x : Issue)
  | shl (x : Issue)
  | shr (x : Issue)
  | sar (x : Issue)
  | imin (x : Issue)
  | imax (x : Issue)
  | popc (x : Issue)
  | clz (x : Issue)
  | brev (x : Issue)
  | fadd (x : Issue)
  | fmul (x : Issue)
  | fma (x : Issue)
  | fmin (x : Issue)
  | fmax (x : Issue)
  | pkAdd (x : Issue)
  | pkMul (x : Issue)
  | pkFma (x : Issue)
  | pkMin (x : Issue)
  | pkMax (x : Issue)
  | cvt (x : Issue)
  | cvtMx (x : Issue)
  | icmp (x : Issue)
  | fcmp (x : Issue)
  | pbool (x : Issue)
  | vote (x : Issue)
  | ballot (x : Issue)
  | rcp (x : Issue)
  | rsq (x : Issue)
  | sqrt (x : Issue)
  | ex2 (x : Issue)
  | lg2 (x : Issue)
  | sin (x : Issue)
  | cos (x : Issue)
  | tanh (x : Issue)
  | mov (x : Issue)
  | movHi (x : Issue)
  | sel (x : Issue)
  | xlane (x : Issue)
  | rdlane (x : Issue)
  | rdsr (x : Issue)
  | bsel (x : Issue)
  | ld (x : Issue)
  | st (x : Issue)
  | atom (x : Issue)
  | fence (x : Issue)
  | barSync (x : Issue)
  | barArrive (x : Issue)
  | barDieArrive (x : Issue)
  | barDieWait (x : Issue)
  | barPkgArrive (x : Issue)
  | barPkgWait (x : Issue)
  | invRemote (x : Issue)
  | mma (x : Issue)
  | accZero (x : Issue)
  | accSt (x : Issue)
  | accLd (x : Issue)
  | accFlags (x : Issue)
  | accClrf (x : Issue)
  | courIssue (x : Issue)
  | gleanIssue (x : Issue)
  | rlyIssue (x : Issue)
  | await (x : Issue)
  | ring (x : Issue)
  | rdbeat (x : Issue)
  | rdclk (x : Issue)
  | activeEntryTimeout (core : Nat) (slot : Nat)
  | memResponse (req : Nat)
  | lateFaultPark (core : Nat) (slot : Nat)
  | faultRecordWrite (ctx : Nat)
  | counterBarrierMet (pkg : Bool) (die : Nat) (k : Nat)
  | awaitWake (core : Nat) (ph : Nat)
  | mgmtParkRequest (core : Nat)
  | mgmtParkRelease (core : Nat)
  | faultDispositionProcess (ctx : Nat)
  | threadBlockPlace (launch : Nat) (node : Nat)
  | arrayInstrStart (core : Nat) (pos : Nat)
  | arrayMmaComplete (core : Nat) (upsets : List (Nat × BitVec 32))
  | arrayDrainComplete (core : Nat)
  | satNotice (launch : Nat)
  | nanNotice (launch : Nat)
  | arrayLeaveIdle (core : Nat)
  | arrayRampStep (core : Nat)
  | arrayHoldExpiry (core : Nat)
  | homeLineRequest (req : Nat) (ev : HomeEvent)
  | hbmFillReturn (fill : Nat) (res : CodewordResult)
  | hbmRetrainDone (channel : Nat) (trained : Bool)
  | hbmScrubRead (channel : Nat) (frame : Nat) (off : Nat) (res : CodewordResult)
  | sliceFlushDone (die : Nat) (slice : Nat)
  | engineDescStart (eng : EngineId)
  | engineDescComplete (eng : EngineId)
  | hostBar2Read (fn : Fn) (off : Nat) (len : Nat)
  | hostBar2Write (fn : Fn) (off : Nat) (data : List (BitVec 8)) (poisoned : Bool)
  | hostWindowReadCompletion (req : Nat) (res : CplStatus) (data : List (BitVec 8))
  | phRing (fn : Fn) (value : BitVec 32)
  | ctxFault (fn : Fn) (value : BitVec 32)
  | phWindowWrite (fn : Fn) (n : Nat)
  | phWindowRead (fn : Fn) (n : Nat)
  | almanacBeatLowRead (rd : AlmRead)
  | almStatusW1c (fn : Fn) (value : BitVec 64)
  | bar2UnmappedRead (rd : Bar0Read)
  | linkEventsRead (fn : Fn)
  | doorbellRefusedRead (fn : Fn)
  | registerWrite (fn : Fn) (target : RegTarget) (data : List (BitVec 8))
  | letterRing (fn : Fn) (slot : Nat)
  | deviceIdentify
  | deviceFloorplan
  | deviceGrade
  | deviceLeaseQuery
  | deviceLeaseHandover
  | plotCreate
  | plotDestroy
  | plotDrain
  | plotDrainRelease
  | plotDrainQuery
  | plotDrainComplete (plot : Nat)
  | plotTeardownFinish (plot : Nat)
  | ctxCreate
  | ctxRelease
  | memCreate
  | memCreateHostWindow
  | memRelease
  | queueCreate
  | eventCreate
  | graphStore
  | graphLaunch
  | pigeonholeCreate
  | memInvalidate
  | objRetain
  | objRelease
  | powerBudget
  | powerCap
  | powerReasonsCurrent
  | powerReasonsHistory
  | powerEnergyContexts
  | powerEnergySample
  | powerEnergyReadSample
  | healthCalendarSet
  | healthCalendarQuery
  | healthCalendarTestNow
  | testpackBegin
  | testpackData
  | testpackCommit (verdict : PackVerdict)
  | testpackAbort
  | testpackQuery
  | healthSuspectList
  | logRead
  | logClear
  | fwUpdateBegin
  | fwUpdateData
  | fwUpdateCommit (verdict : ImageVerdict)
  | fwUpdateAbort
  | fwActivateLive (booted : Bool)
  | fwActivateAtReset
  | coldResume
  | fabricSurveyQuery
  | fabricSurveySetBlock
  | fabricSurveyResurvey
  | routesStageWrite
  | routesStageDefaultBlock
  | fabricRoutesSwitch
  | fabricGraft
  | fabricPrune
  | almanacRootFollow
  | almanacRootInternal
  | almanacRootPps
  | almanacStatus
  | almanacScheduleAdd
  | almanacScheduleCancel
  | journalConfigure
  | journalRead
  | journalDisable
  | replayStep
  | debugChallenge
  | debugPresent (signatureValid : Bool)
  | debugLock
  | beatEdge (meas : PowerMeas)
  | epochBoundary (meas : EpochMeas)
  | scheduleEntryFire (ticket : Nat) (meas : List Nat)
  | budgetTakesEffect (ticket : Nat)
  | routesSwitchAtBeat (ticket : Nat)
  | graftAtBeat (ticket : Nat)
  | pruneAtBeat (ticket : Nat)
  | telemetrySample (ticket : Nat) (meas : List Nat)
  | wrappedLetterAtBeat (ticket : Nat)
  | budgetExpiry
  | budgetFallback
  | syncCellRx (port : Nat) (cell : SyncCell) (subNs : Nat) (consistent : Bool)
  | almHoldoverTimeout
  | ppsEdge (subNs : Nat)
  | ppsTimeout
  | leaseClaim (north : Bool) (south : Bool)
  | leaseRenew (side : Side)
  | leaseRelease (side : Side)
  | leaseExpiry
  | latchCopyMismatch
  | takeover
  | standbyResyncDone (side : Side)
  | standbyMirrorTimeout
  | queueEntryClaim (queue : Nat)
  | queueLaunch (queue : Nat)
  | queueWait (queue : Nat)
  | queueSignal (queue : Nat)
  | queueResume (queue : Nat)
  | nodeDispatch (launch : Nat) (node : Nat)
  | nodeComplete (launch : Nat) (node : Nat)
  | journalWatchDigest (launch : Nat) (node : Nat)
  | eventWaiterPoll (dispatcher : Nat)
  | passDeferralBegin (unit : PassUnit)
  | yieldWindowExpiry (core : Nat)
  | maxDeferralExpiry (unit : PassUnit)
  | corePassStart (core : Nat) (tempC : Nat)
  | corePassPhaseEnd (core : Nat) (res : PhaseResult)
  | corePassEnd (core : Nat)
  | slicePassStart (die : Nat) (slice : Nat)
  | slicePassEnd (die : Nat) (slice : Nat) (passed : Bool)
  | runnerPassStart (port : Nat)
  | runnerPassEnd (port : Nat) (badLanes : BitVec 8)
  | enginePassStart (eng : EngineId)
  | enginePassEnd (eng : EngineId) (passed : Bool)
  | runnerCellRx (port : Nat) (seq : BitVec 12) (cell : Cell)
  | runnerRetrainDone (port : Nat) (lanes : BitVec 8)
  | glFrameRx (port : Nat) (frame : GlFrame)
  | linkTrainingComplete (port : Nat) (lanes : BitVec 8)
  | surveyRecordRx (port : Nat) (rec : SurveyRec) (t1 : Nat) (t4 : Nat)
  | fabricPacketRx (port : Nat) (pkt : Packet)
  | fabricResponseRx (port : Nat) (pkt : Packet)
  | tackRx (node : Nat) (cls : Nat) (seq : Nat)
  | transportResendTimeout (node : Nat) (cls : Nat)
  | transportAbandon (node : Nat) (cls : Nat)
  | relayDescStart (relay : EngineId)
  | relayDescComplete (relay : EngineId)
  | phaseFailOpen (rail : Rail) (phase : Nat)
  | phaseSenseFail (rail : Rail) (phase : Nat) (reading : Nat)
  | dieFabricUe (die : Nat)
  | droopDetect (die : Nat)
  | droopRelease (die : Nat)
  | thermalThreshold (sensor : Nat) (tempC : Nat)
  | thermtrip (sensor : Nat) (tempC : Nat)
  | coolantOkFall
  | coolantOkRise
  | coldStopStart
  | coldStopHalted
  | uvWarning (mv : Nat)
  | uvRecovery (mv : Nat)
  | inputRegStop
  | inputGood
  | inputOvervoltage (mv : Nat)
  | p3v3SbApply
  | p3v3SbLoss
  | modPwrEnRise
  | modPwrEnFall
  | bringupStepEnd (res : BringResult)
  | refclkLoss (ppm : Nat)
  | refclkRestore
  | perstAssert (port : HostPort)
  | perstDeassert (port : HostPort)
  | pcieHotReset (port : HostPort)
  | pcieLinkDown (port : HostPort)
  | pcieLinkUp (port : HostPort) (rate : Nat) (width : Nat)
  | pfFlr (port : HostPort)
  | vfFlr (port : HostPort) (vf : Nat)
  | vfEnableClear (port : HostPort)
  | vfEnableSet (port : HostPort)
  | mgLetterMessage (eid : Nat) (body : List (BitVec 8))
  | mctpSetEndpointId (eid : Nat)
  | mctpGetEndpointId
  | mctpGetVersionSupport
  | mctpGetMessageTypeSupport
  | mctpGetVendorMsgSupport
  | pldmGetTid
  | pldmGetPldmVersion (ty : Nat)
  | pldmGetPldmTypes
  | pldmGetPldmCommands (ty : Nat)
  | pldmGetPdrRepositoryInfo
  | pldmGetPdr (handle : Nat)
  | pldmGetSensorReading (sensor : Nat)
  | pldmGetStateSensorReadings (sensor : Nat)
  | i3cSetdasa (static : Nat) (addr : Nat)
  | i3cEntdaa (addr : Nat)
  | jtagBypass
  | jtagIdcode
  | jtagSamplePreload
  | jtagExtest
  | dbTrstAssert
  | dbUartRx (byte : BitVec 8)
  | cblPrsntChange (port : Nat) (present : Bool)
  | cablePowerFault (port : Nat) (mA : Nat)
  | recordWindowExpiry (code : Nat) (kind : Nat) (unit : Nat)
  | recordBurstEnd
  | flashLogCopy
  | fecLockLoss (port : Nat)
  | ioDieFabricUe (side : Side)
  | oscillatorStartupDone
  | vfFlrComplete (port : HostPort) (vf : Nat)
  | postmasterRestart (side : Side)
  | railOutOfRegulation (rail : Rail)
  | scratchCopyDone (die : Nat) (slice : Nat)
  | haltingDebug (side : Side)
  | scanAccess (die : Nat)
  deriving DecidableEq, Repr

end Sys2Proof
end

