-- ==== Sys2Proof/Config.lean ====
section
/-! DEFINITION. What one module fixes and the spec leaves open: uninterpreted constants, no body, so that a claim
holds whatever they are. Each is applied to the free-value counter `free` of the state (a fresh value every time) or
to the operands it depends on. -/

namespace Sys2Proof.Config

/-- A byte of a bench region that nothing has written since its thread block was placed (03 R65): by placement and
physical bench address. -/
opaque benchByte : Nat → Nat → BitVec 8
/-- A 32-bit value the spec leaves open, by draw. -/
opaque freeWord : Nat → BitVec 32
/-- A byte the spec leaves open, by draw. -/
opaque freeByte : Nat → BitVec 8
/-- A count the spec leaves to time (elapsed cycles, elapsed transport), by draw. -/
opaque freeNat : Nat → Nat
/-- A choice between two outcomes both of which the spec allows, by draw. -/
opaque freeBool : Nat → Bool
/-- The device's choice among allowed candidates (07 R201, R229: a frame): an index, by draw. -/
opaque choice : Nat → Nat
/-- The payload bytes of an error record whose table gives no offsets (15 R424): by record code and field values. -/
opaque recordLayout : Nat → List Nat → List (BitVec 8)
/-- The power, in milliwatts, at which a VCORE rail carries a current limit in amperes: the spec gives the limit in amperes
and no voltage (14 R394). -/
opaque railMw : Nat → Nat
/-- ERR_BOUND of a root that slews (02 R492 gives none): by the offset still to be removed, in nanoseconds. -/
opaque rootSlewBound : Int → Nat
/-- The correction, in parts per billion, with which the oscillator is disciplined (02 R40): what it needs, by draw. -/
opaque freqTrim : Nat → Int
/-- The fixed latencies of both ends of a link, in nanoseconds (02 R51 gives no figure): by port. -/
opaque linkLatency : Nat → Nat
/-- Bytes 32 to 63 of a parcel's header (09 R266 gives no offsets): by link sequence number, acknowledgement and credits. -/
opaque parcelLink : Nat → Nat → List Nat → List (BitVec 8)
/-- The address that a frame of a global link names before the peer is known (09 R266 names none): by port. -/
opaque unknownPeer : Nat → Nat
/-- The credits that the own receiver returns with the acknowledgement of a cell (09 R264 gives no buffer sizes): by port and
sequence number. -/
opaque creditGrant : Nat → Nat → List Nat
/-- Which record code a gap record has (02 R57 names none). -/
opaque gapCode : Nat
/-- Which line or bundle a full cache gives up (03 R106; 07 R212, R220): an index, by draw and the address that comes in. -/
opaque victim : Nat → Nat → Nat
/-- Whether a fetch of a bundle that the instruction cache holds reads it anew (03 R106 allows the old or the new
content): by draw and bundle. -/
opaque refetch : Nat → Nat → Bool
/-- The set of a near cache that a line falls in (07 R220 gives 64 sets and no rule): by line address. -/
opaque nearSet : Nat → Nat
/-- The set of a cellar slice that a line falls in (07 R212 gives 2,048 sets and no rule): by line address. -/
opaque cellarSet : Nat → Nat
/-- The seed of the fresh programs of a core pass (15 R411: derived from the module serial and the beat; the spec gives no rule). -/
opaque freshSeed : Nat → Nat → Nat
/-- The module's JTAG identification word, which the spec does not give (12 R354). -/
opaque idcode : BitVec 32
/-- What the boundary cells capture (12 R354): their number, order and values are open, by draw. -/
opaque boundary : Nat → List Bool
/-- What scan access to a compute die gives (12 R355): its chains and their contents are open, by die and draw. -/
opaque scanned : Nat → Nat → List Bool

end Sys2Proof.Config
end

