-- ==== Sys2Proof/Machine/Ops.lean ====
section
/-! DEFINITION. The named operations on tables, bytes, memory, addresses and homes (07, 08). -/

namespace Sys2Proof.Machine

/-- A store to a host window that has left, and that nothing asks to confirm (04 R125). -/
def LineReq.isPosted (r : LineReq) : Bool := r.stage == .posted

/-! ### Tables -/

/-- The entry of key `k`. -/
def mget {α : Type} : SMap α → Nat → Option α
  | [], _ => none
  | (a, x) :: m, k => if a = k then some x else mget m k

/-- The entry of key `k`, or the table's default `d`. -/
def mgetD {α : Type} (m : SMap α) (k : Nat) (d : α) : α := (mget m k).getD d

/-- The table with entry `x` at `k`, kept in rising order of the keys. -/
def mput {α : Type} : SMap α → Nat → α → SMap α
  | [], k, x => [(k, x)]
  | (a, y) :: m, k, x =>
    if k < a then (k, x) :: (a, y) :: m else if a = k then (k, x) :: m else (a, y) :: mput m k x

/-- The table without key `k`. -/
def mdel {α : Type} : SMap α → Nat → SMap α
  | [], _ => []
  | (a, y) :: m, k => if a = k then mdel m k else (a, y) :: mdel m k

/-- Write in canonical form: the default is never listed. -/
def cput {α : Type} [DecidableEq α] (d : α) (m : SMap α) (k : Nat) (x : α) : SMap α :=
  if x = d then mdel m k else mput m k x

/-- Change the entry of `k` where there is one. -/
def mmod {α : Type} (m : SMap α) (k : Nat) (f : α → α) : SMap α := m.map fun e => if e.1 = k then (k, f e.2) else e

/-- Change every entry. -/
def mmap {α : Type} (m : SMap α) (f : Nat → α → α) : SMap α := m.map fun e => (e.1, f e.1 e.2)

/-- Keep the entries that `p` accepts. -/
def mfilter {α : Type} (m : SMap α) (p : Nat → α → Bool) : SMap α := m.filter fun e => p e.1 e.2

/-- How many entries `p` accepts. -/
def mcount {α : Type} (m : SMap α) (p : Nat → α → Bool) : Nat := (mfilter m p).length

/-- The lowest number of `0 .. n - 1` that is no key. -/
def freeKey {α : Type} (m : SMap α) (n : Nat) : Option Nat := (List.range n).find? fun k => (mget m k).isNone

/-- A rising list with `k` put in. -/
def sadd : List Nat → Nat → List Nat
  | [], k => [k]
  | a :: l, k => if k < a then k :: a :: l else if a = k then a :: l else a :: sadd l k

/-- The list without `k`. -/
def srem (l : List Nat) (k : Nat) : List Nat := l.filter fun a => a != k

/-- Insert into an ascending list. -/
def insertAsc (k : Nat) : List Nat → List Nat
  | [] => [k]
  | a :: l => if k ≤ a then k :: a :: l else a :: insertAsc k l

/-! ### Bytes (00_scope R9: little-endian) -/

/-- The value of bytes, the lowest address first. -/
def leNat : List Byte → Nat
  | [] => 0
  | b :: r => b.toNat + 256 * leNat r

/-- The low `n` bytes of `x`, the lowest address first. -/
def natLe : Nat → Nat → List Byte
  | 0, _ => []
  | n + 1, x => BitVec.ofNat 8 x :: natLe n (x / 256)

/-- The `n`-byte field at offset `off`. -/
def field (l : List Byte) (off n : Nat) : Nat := leNat ((l.drop off).take n)

/-- Bits `hi` to `lo` of `x`. -/
def bits (x hi lo : Nat) : Nat := x / 2 ^ lo % 2 ^ (hi + 1 - lo)

/-- Bit `i` of a 32-bit mask. -/
def bit (m : W32) (i : Nat) : Bool := m.getLsbD i

/-- The mask of the threads `t` with `f t`. -/
def maskOf (f : Nat → Bool) : W32 :=
  BitVec.ofNat 32 ((List.range 32).foldl (fun a t => if f t then a + 2 ^ t else a) 0)

/-- The threads of a mask, ascending. -/
def threads (m : W32) : List Nat := (List.range 32).filter fun t => bit m t

/-- One byte's worth of steps of the IEEE 802.3 CRC-32. -/
def crcBits : Nat → W32 → W32
  | 0, c => c
  | n + 1, c => crcBits n (if c.getLsbD 0 then (c >>> 1) ^^^ 0xEDB88320 else c >>> 1)

/-- CRC-32 with the IEEE 802.3 polynomial. -/
def crc32 (l : List Byte) : Nat := (~~~(l.foldl (fun (c : W32) b => crcBits 8 (c ^^^ b.zeroExtend 32)) 0xFFFFFFFF)).toNat

/-- `x` read as an `n`-bit two's complement number. -/
def sext (n x : Nat) : Int := if x % 2 ^ n < 2 ^ (n - 1) then (x % 2 ^ n : Int) else (x % 2 ^ n : Int) - 2 ^ n

/-! ### Cores, groups, blocks -/

/-- The core with index `c`. -/
def Data.core (d : Data) (c : Nat) : Core := mgetD d.cores c Core.empty

/-- Replace a core. -/
def Data.setCore (d : Data) (c : Nat) (x : Core) : Data := { d with cores := mput d.cores c x }

/-- The resident group in a group slot. -/
def Data.group (d : Data) (c s : Nat) : Option Group := mget (d.core c).groups s

/-- Replace a resident group. -/
def Data.setGroup (d : Data) (c s : Nat) (g : Group) : Data :=
  d.setCore c { d.core c with groups := mput (d.core c).groups s g }

/-- 01 Table 4: the state of a physical core; a core of a die out of service is OFF (R24). -/
def Data.coreState (d : Data) (c : Nat) : CoreState :=
  if 672 ≤ c ∨ d.dieOut.contains (c / 84) then .off else mgetD d.coreSt c .full

/-! ### Memory contents -/

/-- Keys strictly rising, and no entry equal to what an unlisted address reads as. -/
def Mem.wf (dflt : Nat → Byte) (m : List Host.Cell) : Bool :=
  decide ((m.map Prod.fst).Pairwise (· < ·)) && m.all fun c => c.2 != dflt c.1

/-- One byte of HBM or cellar scratch by physical address. -/
def Data.rd (d : Data) (p : Nat) : Byte := mgetD d.mem p 0

/-- Write one byte of HBM or cellar scratch. -/
def Data.wr (d : Data) (p : Nat) (b : Byte) : Data := { d with mem := cput 0 d.mem p b }

/-- What a bench byte that is not listed reads as: zero after a clear, a free value since a placement (03 R65). -/
def benchDflt (epoch : SMap Nat) (a : Nat) : Byte :=
  match mgetD epoch (a / 1024) 0 with
  | 0 => 0
  | e + 1 => Config.benchByte e a

/-- One bench byte by physical bench address. -/
def Data.rdB (d : Data) (a : Nat) : Byte := mgetD d.bench a (benchDflt d.benchEpoch a)

/-- Write one bench byte. -/
def Data.wrB (d : Data) (a : Nat) (b : Byte) : Data :=
  { d with bench := cput (benchDflt d.benchEpoch a) d.bench a b }

/-- `n` bytes of physical memory. -/
def Data.rdN (d : Data) (p n : Nat) : List Byte := (List.range n).map fun i => d.rd (p + i)

/-- Write consecutive bytes of physical memory. -/
def Data.wrN (d : Data) (p : Nat) : List Byte → Data
  | [] => d
  | b :: r => (d.wr p b).wrN (p + 1) r

/-- Write the masked bytes of a line (03 R82). -/
def Data.wrMask (d : Data) (p : Nat) : List (Nat × Byte) → Data
  | [] => d
  | (o, b) :: r => (d.wr (p + o) b).wrMask p r

/-- Clear `n` cells from `p` on to zero, listing nothing. -/
def clearRange (m : List Host.Cell) (p n : Nat) : List Host.Cell :=
  m.filter fun c => !(decide (p ≤ c.1) && decide (c.1 < p + n))

/-! ### Homes (07) -/

/-- Physical address of a byte of frame `f` (channel * 16384 + frame). -/
def framePhys (f : Nat) : Nat := f / 16384 * 2 ^ 30 + f % 16384 * 2 ^ 16

/-- 07 R200: the physical address of offset `o` of a memory object. -/
def objPhys (ob : MemObj) (o : Nat) : Option Nat :=
  let sh := if ob.package then 25 else 22
  let n := if ob.package then 512 else 64
  let w := o % 2 ^ sh
  let g := w / 256
  let slot := (g % n) ^^^ (g / n % n)
  let off := g / n * 256 + w % 256
  ((ob.stripes[o / 2 ^ sh]?).bind fun st => st[slot]?).map fun f => framePhys f + off

/-- The memory object of `plot` that holds local offset `a` (08 R238). -/
def Data.objAt (d : Data) (plot a : Nat) : Option MemObj :=
  d.objs.find? fun o => o.plot == plot && decide (o.base ≤ a) && decide (a < o.base + o.size)

/-- Physical address of a byte of `plot` in the memory-object region. -/
def Data.physAt (d : Data) (plot a : Nat) : Option Nat :=
  (d.objAt plot a).bind fun o => objPhys o (a - o.base)

/-- 07 R215: the physical address of `.cs` offset `o` of a plot's scratch. -/
def Data.scratchPhys (d : Data) (plot o : Nat) : Option Nat :=
  ((mget d.plots plot).bind fun p => p.scratch[o / 2 ^ 22]?).map fun s => 2 ^ 39 + s * 2 ^ 22 + o % 2 ^ 22

/-- 07 R217, 15 R413: where a scratch byte lives while its slice is under test, or once it has failed: the die's save
area. -/
def Data.scratchHome (d : Data) (p : Nat) : Nat :=
  if p < 2 ^ 39 then p
  else
    let s := (p - 2 ^ 39) / 2 ^ 22
    let o := (p - 2 ^ 39) % 2 ^ 22
    match mgetD d.slices s .inService with
    | .bypassed _ | .returning _ | .out =>
      (((mget d.saveArea (s / 56)).bind fun fs => fs[o / 65536]?).map fun f => framePhys f + o % 65536).getD p
    | _ => p

/-- Channel of an HBM byte. -/
def physChan (p : Nat) : Nat := p / 2 ^ 30

/-- Die that owns a physical byte. -/
def physDie (p : Nat) : Nat := if p < 2 ^ 39 then physChan p / 64 else (p - 2 ^ 39) / 2 ^ 22 / 56

/-- 07 R211: the home slice (die * 56 + slice) of an HBM line of `plot`; none when it has a channel home. -/
def Data.homeSlice (d : Data) (plot p : Nat) : Option Nat :=
  let s := ((mget d.plots plot).map fun q => q.cache.filter fun k => k / 56 == physDie p).getD []
  let l := p % 2 ^ 30 / 128
  let h := (l % 65536) ^^^ (l / 65536)
  s[h * s.length / 65536]?

/-- The slice that serves a physical line now: its home slice, unless that slice is under test (07 R217). -/
def Data.sliceOf (d : Data) (plot p : Nat) : Option Nat :=
  if p < 2 ^ 39 then d.homeSlice plot p else some ((p - 2 ^ 39) / 2 ^ 22)

/-- A line is lost, or lies on a die or channel that is gone (01 R34; 07 R207, R209). -/
def Data.isLost (d : Data) (p : Nat) : Bool :=
  d.lost.contains (p / 128) || d.dieOut.contains (physDie p) || (decide (p < 2 ^ 39) && d.chanOut.contains (physChan p))

/-! ### Addresses (08 R235-R244) -/

/-- The agents of 08 Table 2. -/
inductive AgentKind where
  | group | engine | dispatcher | remote
  deriving DecidableEq, Repr

/-- Who makes an access: its plot, mode, and for a group or its descriptors the core and bench granules of its
thread block. -/
structure Agent where
  kind : AgentKind
  plot : Nat
  forerunner : Bool
  own : Option (Nat × List Nat)
  deriving DecidableEq, Repr

/-- Where a byte lives. -/
inductive Place where
  /-- physical bench address -/
  | bench (a : Nat)
  /-- HBM or scratch, by physical address -/
  | phys (p : Nat)
  /-- another package -/
  | remote (node : Nat)
  /-- a host window: leaves through HB when `hb`; bus address; the page may be written -/
  | host (hb : Bool) (bus : Nat) (write : Bool)
  deriving DecidableEq, Repr

/-- The bench byte at offset `x` of the agent's own region (03 R65, 08 R239). -/
def ownBench (ag : Agent) (x : Nat) : Except FaultClass Place :=
  match ag.own with
  | none => .error .carveOut
  | some (c, gr) =>
    match gr[x / 1024]? with
    | some k => .ok (.bench (c * 2 ^ 19 + k * 1024 + x % 1024))
    | none => .error (if ag.kind = .group then .benchRange else .carveOut)

/-- Byte `x` of the plot's cellar scratch (07 R215). -/
def scratchPlace (d : Data) (ag : Agent) (x : Nat) : Except FaultClass Place :=
  match d.scratchPhys ag.plot x with
  | some p => .ok (.phys p)
  | none => .error .carveOut

/-- Byte `x` of the physical bench window (08 R239, Table 2). -/
def benchWindow (d : Data) (ag : Agent) (x : Nat) : Except FaultClass Place :=
  let die := x / 2 ^ 26
  let r := x / 2 ^ 23 % 8
  let c := x / 2 ^ 19 % 16
  let k := 84 * die + 12 * r + c
  if 6 < r ∨ 11 < c ∨ d.coreState k = .off then .error .carveOut
  else if ag.kind = .group then
    match ag.own with
    | none => .error .carveOut
    | some (own, gr) =>
      if own = k ∧ gr.contains (x % 2 ^ 19 / 1024) then .ok (.bench (k * 2 ^ 19 + x % 2 ^ 19))
      else .error .carveOut
  else if ag.kind = .engine ∧ ((mget d.plots ag.plot).map fun p => p.cores.contains k) = some true then
    .ok (.bench (k * 2 ^ 19 + x % 2 ^ 19))
  else .error .carveOut

/-- Byte `a` of the host-window region (08 R241). -/
def hostPlace (d : Data) (ag : Agent) (a : Nat) : Except FaultClass Place :=
  match d.hws.find? fun h => h.plot == ag.plot && decide (h.base ≤ a) && decide (a < h.base + h.pages.length * 2 ^ 21) with
  | none => .error .carveOut
  | some h =>
    match h.pages[(a - h.base) / 2 ^ 21]? with
    | none => .error .carveOut
    | some b => .ok (.host h.hb (b + (a - h.base) % 2 ^ 21) h.write)

/-- 09 R275: a node that the plot has admitted, pruned since or not. -/
def Data.admitted (d : Data) (plot node : Nat) : Bool :=
  match mget d.plots plot with
  | some p => p.mem.contains node || p.pruned.contains node
  | none => false

/-- 08 Tables 1 to 3: where the byte at generic address `a` lives for an agent, or why it cannot be reached. -/
def place (d : Data) (ag : Agent) (a : Nat) : Except FaultClass Place :=
  if 2 ^ 52 ≤ a then .error .carveOut
  else if a / 2 ^ 40 ≠ d.node then
    (if d.admitted ag.plot (a / 2 ^ 40) then .ok (.remote (a / 2 ^ 40)) else .error .carveOut)
  else
    let o := a % 2 ^ 40
    if o < 0x8000000000 then
      match d.physAt ag.plot o with
      | some p => .ok (.phys p)
      | none => .error .carveOut
    else if 0xC000000000 ≤ o then
      if ag.kind = .remote then .error .carveOut else hostPlace d ag o
    else if ag.kind = .remote ∨ ag.forerunner then .error .carveOut
    else if o < 0x8020000000 then benchWindow d ag (o - 0x8000000000)
    else if o < 0x8020080000 then
      if ag.kind = .dispatcher then .error .carveOut else ownBench ag (o - 0x8020000000)
    else if 0x8040000000 ≤ o ∧ o < 0x80C0000000 then scratchPlace d ag (o - 0x8040000000)
    else .error .carveOut

/-- 04 Table 10: the same for an access with a SPACE code. -/
def placeIn (d : Data) (ag : Agent) (space a : Nat) : Except FaultClass Place :=
  if space = 1 then ownBench ag a
  else if space = 2 then scratchPlace d ag a
  else place d ag a

/-- A draw from the free-value counter. -/
def Data.draw (d : Data) : Nat × Data := (d.free, { d with free := d.free + 1 })

/-- Hand a record to the log. -/
def Data.post (d : Data) (code unit : Nat) (fields : List (Nat × Nat)) : Data :=
  { d with posts := d.posts ++ [{ code := code, unit := unit, fields := fields, beat := none }] }

/-- Count a corrected error of the epoch (07 R233). -/
def Data.count (d : Data) (code unit : Nat) : Data :=
  { d with corrected := mput d.corrected (code * 2 ^ 20 + unit) ((mgetD d.corrected (code * 2 ^ 20 + unit) (0, none)).1 + 1, none) }

/-! ### Stores and postmarks (07 R228-R230) -/

/-- Clear VALID of the postmark of the tile that holds physical byte `p`'s object offset, after a write that is no
engine's regeneration (07 R230). -/
def Data.unmark (d : Data) (plot a : Nat) : Data :=
  { d with objs := d.objs.map fun o =>
      if o.plot == plot && decide (o.base ≤ a) && decide (a < o.base + o.size) && o.postmark then
        { o with marks := mmod o.marks ((a - o.base) / 4096) fun k => { k with valid := false } }
      else o }

/-- Read bytes of a plot's memory object on the device's own behalf (11 R495): none when outside or lost. -/
def Data.devRead (d : Data) (plot a n : Nat) : Option (List Byte) :=
  (List.range n).mapM fun i =>
    (d.physAt plot ((a + i) % 2 ^ 40)).bind fun p => if d.isLost p then none else some (d.rd p)

/-- Write bytes of a plot's memory object one after another: none when one lies outside or is lost. -/
def Data.putBytes (d : Data) (plot a : Nat) : List Byte → Option Data
  | [] => some d
  | b :: r =>
    match d.physAt plot (a % 2 ^ 40) with
    | none => none
    | some p => if d.isLost p then none else ((d.wr p b).unmark plot (a % 2 ^ 40)).putBytes plot (a + 1) r

/-- Lines that a write of `n` bytes at `a` covers whole end their lost state (07 R207). -/
def Data.heal (d : Data) (plot a n : Nat) : Data :=
  ((List.range (n / 128 + 1)).map fun i => (a + 127) / 128 * 128 + 128 * i).foldl (fun (d : Data) k =>
    if a + n < k + 128 then d
    else match d.physAt plot (k % 2 ^ 40) with
      | some p => { d with lost := srem d.lost (p / 128) }
      | none => d) d

/-! ### What the cellar holds (07 R212) -/

/-- Room for one line more in its set of a slice: of sixteen ways that are all taken one is given up, a line that is next to
be evicted if there is one. -/
def Data.makeRoom (d : Data) (k line : Nat) : Data :=
  let mine := d.cellar.filter fun e => e.2.slice == k
  let cps := d.copies.filter fun e => 56 * e.2.die + e.2.slice == k
  if mine.length + cps.length < 16 then d
  else
    let same (l : Nat) : Bool := Config.cellarSet l % 2048 == Config.cellarSet line % 2048
    let ws := mine.filter fun e => same e.1
    let cs := cps.filter fun e => same (e.1 / 64)
    if ws.length + cs.length < 16 then d
    else match ws.find? fun e => e.2.stream with
      | some e => { d with cellar := mdel d.cellar e.1 }
      | none =>
        let i := Config.victim d.free line % (ws.length + cs.length)
        match ws[i]?, cs[i - ws.length]? with
        | some e, _ => { d with cellar := mdel d.cellar e.1 }
        | none, some e => { d with copies := mdel d.copies e.1 }
        | none, none => d

/-- The object that holds an address has the STREAM hint. -/
def Data.streamAt (d : Data) (plot a : Nat) : Bool := ((d.objAt plot (a % 2 ^ 40)).map fun o => o.stream).getD false

/-- After serving a line: its home slice holds it, dirty once anything wrote it; a line that comes in for an object with the
STREAM hint is next to be evicted until it is used again. -/
def Data.touch (d : Data) (plot p : Nat) (dirty stream : Bool) : Data :=
  if p < 2 ^ 39 then
    match d.homeSlice plot p with
    | some k =>
      if mgetD d.slices k .inService = .inService then
        match mget d.cellar (p / 128) with
        | some x => { d with cellar := mput d.cellar (p / 128) { x with dirty := x.dirty || dirty, stream := false } }
        | none =>
          let d := d.makeRoom k (p / 128)
          { d with cellar := mput d.cellar (p / 128) { dirty := dirty, slice := k, stream := stream } }
      else d
    | none => d
  else d

/-- The lines of a range of a plot's memory, as the device or the host writes them: each is held, and dirty. -/
def Data.touchRange (d : Data) (plot a n : Nat) : Data :=
  ((List.range ((a % 128 + n + 127) / 128)).map fun i => (a / 128 + i) * 128).foldl (fun (d : Data) x =>
    match d.physAt plot (x % 2 ^ 40) with
    | some p => d.touch plot p true (d.streamAt plot x)
    | none => d) d

/-- Write bytes of a plot's memory object on the device's own behalf: none when outside or lost. The home slices hold what is
written, dirty. -/
def Data.devWrite (d : Data) (plot a : Nat) (l : List Byte) : Option Data :=
  ((d.heal plot a l.length).putBytes plot a l).map fun d => d.touchRange plot a l.length

end Sys2Proof.Machine
end

