-- ==== Sys2Proof/Machine/Float.lean ====
section
/-! DEFINITION. Number formats (06): values, rounding, conversion, arithmetic, block scales, stochastic rounding. -/

namespace Sys2Proof.Machine

/-! ### Exact numbers -/

/-- The exact sum of two dyadic numbers. -/
def dyAdd (x y : Dy) : Dy :=
  if x.e ≤ y.e then ⟨x.m + y.m * 2 ^ (y.e - x.e).toNat, x.e⟩ else ⟨x.m * 2 ^ (x.e - y.e).toNat + y.m, y.e⟩

/-- The exact product. -/
def dyMul (x y : Dy) : Dy := ⟨x.m * y.m, x.e + y.e⟩

def dyNeg (x : Dy) : Dy := ⟨-x.m, x.e⟩

def dyAbs (x : Dy) : Dy := ⟨x.m.natAbs, x.e⟩

def dyZero : Dy := ⟨0, 0⟩

/-- x < y. -/
def dyLt (x y : Dy) : Bool := decide ((dyAdd x (dyNeg y)).m < 0)

def dySum (l : List Dy) : Dy := l.foldl dyAdd dyZero

/-! ### Values and formats -/

/-- What an operand stands for (06 R171, R173, R174): negative zero is zero. -/
inductive FVal where
  | nan
  | inf (neg : Bool)
  | fin (x : Dy)
  deriving DecidableEq, Repr

/-- A floating format (06 Table 2): width, mantissa bits, bias, largest finite code, code of infinity if it has one,
code of its NaN if it has one. -/
structure FFmt where
  width : Nat
  mant : Nat
  bias : Nat
  max : Nat
  inf : Option Nat
  nan : Option Nat
  deriving DecidableEq, Repr

/-- The format of a code of 06 Table 1 that is a floating format; element formats 6 to 10 and 13 included. -/
def ffmt (code : Nat) : Option FFmt :=
  match code with
  | 1 => some ⟨32, 23, 127, 0x7F7FFFFF, some 0x7F800000, some 0x7FC00000⟩
  | 2 => some ⟨16, 7, 127, 0x7F7F, some 0x7F80, some 0x7FC0⟩
  | 3 => some ⟨16, 10, 15, 0x7BFF, some 0x7C00, some 0x7E00⟩
  | 4 | 6 => some ⟨8, 3, 7, 0x7E, none, some 0x7F⟩
  | 5 | 7 => some ⟨8, 2, 15, 0x7B, some 0x7C, some 0x7E⟩
  | 8 => some ⟨6, 2, 3, 0x1F, none, none⟩
  | 9 => some ⟨6, 3, 1, 0x1F, none, none⟩
  | 10 | 13 => some ⟨4, 1, 1, 0x7, none, none⟩
  | _ => none

/-- FP32. -/
def fp32 : FFmt := ⟨32, 23, 127, 0x7F7FFFFF, some 0x7F800000, some 0x7FC00000⟩
def bf16 : FFmt := ⟨16, 7, 127, 0x7F7F, some 0x7F80, some 0x7FC0⟩
def fp16 : FFmt := ⟨16, 10, 15, 0x7BFF, some 0x7C00, some 0x7E00⟩

/-- 06 R171: the value of a code. -/
def decodeF (f : FFmt) (c : Nat) : FVal :=
  let a := c % 2 ^ (f.width - 1)
  let neg := c / 2 ^ (f.width - 1) % 2 = 1
  if a > f.max then (if f.inf = some a then .inf neg else .nan)
  else
    let e := a / 2 ^ f.mant
    let m := a % 2 ^ f.mant
    let mag : Int := if e = 0 then m else m + 2 ^ f.mant
    .fin ⟨if neg then -mag else mag, (if e = 0 then 1 else (e : Int)) - f.bias - f.mant⟩

/-- Rounding: 04 R117 directions, and stochastic with its 32-bit draw (06 R187). -/
inductive RMode where
  | rne | rz | down | up
  | sr (r : Nat)
  deriving DecidableEq, Repr

/-- Whether the magnitude `q` plus `rem / 2 ^ k` is rounded up. -/
def roundsUp (md : RMode) (neg : Bool) (q rem k : Nat) : Bool :=
  match md with
  | .rne => decide (2 ^ k < 2 * rem) || (decide (2 ^ k = 2 * rem) && decide (q % 2 = 1))
  | .rz => false
  | .down => neg && decide (rem ≠ 0)
  | .up => !neg && decide (rem ≠ 0)
  | .sr r => decide (2 ^ 32 ≤ rem * 2 ^ 32 / 2 ^ k + r)

/-- An exact number rounded to a format's precision, exponent unbounded above: the code it would have without a
sign, as if the exponent field had no end (06 R181, R187). -/
def roundCode (f : FFmt) (md : RMode) (x : Dy) : Nat :=
  let m := x.m.natAbs
  if m = 0 then 0
  else
    let emin : Int := 1 - f.bias
    let E : Int := max (Nat.log2 m + x.e) emin
    let ue := E - f.mant
    let q := if ue ≤ x.e then m * 2 ^ (x.e - ue).toNat else m / 2 ^ (ue - x.e).toNat
    let rem := if ue ≤ x.e then 0 else m % 2 ^ (ue - x.e).toNat
    let q' := if roundsUp md (x.m < 0) q rem (ue - x.e).toNat then q + 1 else q
    (E - emin).toNat * 2 ^ f.mant + q'

/-- 06 R181 "On overflow": the magnitude's code and whether it is the format's NaN. -/
def overflowCode (f : FFmt) (md : RMode) (neg : Bool) : Nat :=
  match md, neg with
  | .rz, _ => f.max
  | .down, false => f.max
  | .up, true => f.max
  | _, _ => match f.inf with
    | some i => i
    | none => f.nan.getD f.max

/-- 06 R178, R181: the code of an exact number in a format. -/
def encodeDy (f : FFmt) (md : RMode) (x : Dy) : Nat :=
  let a := roundCode f md x
  let neg := decide (x.m < 0)
  let c := if f.max < a then overflowCode f md neg else a
  if c = 0 ∨ ¬ neg ∨ some c = f.nan then c else c + 2 ^ (f.width - 1)

/-- 06 R179, R181: the code of a value in a format that has a NaN. -/
def encodeF (f : FFmt) (md : RMode) (v : FVal) : Nat :=
  match v with
  | .nan => f.nan.getD 0
  | .inf neg => match f.inf with
    | some i => if neg then i + 2 ^ (f.width - 1) else i
    | none => f.nan.getD f.max
  | .fin x => encodeDy f md x

/-- The code is the format's NaN. -/
def isNanCode (f : FFmt) (c : Nat) : Bool := decodeF f c == .nan

/-! ### Arithmetic (06 R180, R182, R191) -/

/-- Exact sum; the flag says that a NaN is created (06 Table 5, cause 1). -/
def fAdd (x y : FVal) : FVal × Bool :=
  match x, y with
  | .nan, _ => (.nan, false)
  | _, .nan => (.nan, false)
  | .inf a, .inf b => if a = b then (.inf a, false) else (.nan, true)
  | .inf a, .fin _ => (.inf a, false)
  | .fin _, .inf b => (.inf b, false)
  | .fin a, .fin b => (.fin (dyAdd a b), false)

def fNeg : FVal → FVal
  | .nan => .nan
  | .inf a => .inf !a
  | .fin x => .fin (dyNeg x)

def fAbs : FVal → FVal
  | .nan => .nan
  | .inf _ => .inf false
  | .fin x => .fin (dyAbs x)

/-- Exact product. -/
def fMul (x y : FVal) : FVal × Bool :=
  match x, y with
  | .nan, _ => (.nan, false)
  | _, .nan => (.nan, false)
  | .inf a, .inf b => (.inf (a != b), false)
  | .inf a, .fin b => if b.m = 0 then (.nan, true) else (.inf (a != decide (b.m < 0)), false)
  | .fin a, .inf b => if a.m = 0 then (.nan, true) else (.inf (b != decide (a.m < 0)), false)
  | .fin a, .fin b => (.fin (dyMul a b), false)

/-- Exact product and sum: NaN operands propagate, otherwise either invalid case creates (06 R191). -/
def fFma (x y z : FVal) : FVal × Bool :=
  if x = .nan ∨ y = .nan ∨ z = .nan then (.nan, false)
  else
    let p := fMul x y
    if p.2 then p else fAdd p.1 z

/-- Order of values that are no NaN. -/
def fLt (x y : FVal) : Bool :=
  match x, y with
  | .inf a, .inf b => a && !b
  | .inf a, .fin _ => a
  | .fin _, .inf b => !b
  | .fin a, .fin b => dyLt a b
  | _, _ => false

def fEq (x y : FVal) : Bool :=
  match x, y with
  | .inf a, .inf b => a == b
  | .fin a, .fin b => decide ((dyAdd a (dyNeg b)).m = 0)
  | _, _ => false

/-- minimumNumber (06 R180, R182). -/
def fMin (x y : FVal) : FVal := if x = .nan then y else if y = .nan then x else if fLt y x then y else x

/-- maximumNumber. -/
def fMax (x y : FVal) : FVal := if x = .nan then y else if y = .nan then x else if fLt x y then y else x

/-- The eight compares of 04 R118. -/
def fCmp (cond : Nat) (x y : FVal) : Bool :=
  let nan := decide (x = .nan ∨ y = .nan)
  match cond with
  | 0 => !nan && fEq x y
  | 1 => nan || !fEq x y
  | 2 => !nan && fLt x y
  | 3 => !nan && (fLt x y || fEq x y)
  | 4 => !nan && fLt y x
  | 5 => !nan && (fLt y x || fEq x y)
  | 6 => !nan
  | _ => nan

/-! ### Integers (06 R183) -/

/-- An exact number rounded to an integer. -/
def roundInt (md : RMode) (x : Dy) : Int :=
  if 0 ≤ x.e then x.m * 2 ^ x.e.toNat
  else
    let k := (-x.e).toNat
    let q := x.m.natAbs / 2 ^ k
    let a := if roundsUp md (decide (x.m < 0)) q (x.m.natAbs % 2 ^ k) k then q + 1 else q
    if x.m < 0 then -(a : Int) else a

/-- The limits of an integer output. -/
def intLimits (code : Nat) : Int × Int :=
  match code with
  | 12 => (-128, 127)
  | 14 => (-2147483648, 2147483647)
  | _ => (0, 4294967295)

def clampI (lo hi x : Int) : Int := if x < lo then lo else if hi < x then hi else x

/-- 06 R183: a value in integer format 12, 14 or 15, as bits of the format's width. -/
def encodeI (code : Nat) (md : RMode) (v : FVal) : Nat :=
  let l := intLimits code
  let i : Int := match v with
    | .nan => 0
    | .inf neg => if neg then l.1 else l.2
    | .fin x => clampI l.1 l.2 (roundInt md x)
  (i % (if code = 12 then 256 else 4294967296)).toNat

/-- The value of a register's low bits read in format `code`. -/
def decodeCode (code : Nat) (w : W32) : FVal :=
  match ffmt code with
  | some f => decodeF f (w.toNat % 2 ^ f.width)
  | none => .fin ⟨if code = 12 then sext 8 w.toNat else if code = 11 then sext 8 w.toNat
      else if code = 14 then w.toInt else w.toNat, if code = 11 then -6 else 0⟩

/-- 06 R183, R184: a value written in format `code`, and the cause of a created NaN (06 Table 5), 0 for none. -/
def encodeCode (code : Nat) (md : RMode) (v : FVal) : Nat × Nat :=
  match ffmt code with
  | none => (encodeI code md v, 0)
  | some f =>
    let c := encodeF f md v
    (c, match v with
      | .nan => 0
      | .inf _ => if isNanCode f c then 4 else 0
      | .fin _ => if isNanCode f c then 3 else 0)

/-! ### Stochastic rounding (06 R188) -/

/-- 06 R188. -/
def srBits (seed tensor idx : W32) : Nat :=
  let x : BitVec 64 := (BitVec.ofNat 64 tensor.toNat) <<< 32 ||| BitVec.ofNat 64 idx.toNat
  let x := x + BitVec.ofNat 64 seed.toNat * 0x9E3779B97F4A7C15
  let x := (x ^^^ (x >>> 30)) * 0xBF58476D1CE4E5B9
  let x := (x ^^^ (x >>> 27)) * 0x94D049BB133111EB
  let x := x ^^^ (x >>> 31)
  (x >>> 32).toNat

/-! ### Block scales (06 R174, R185, R186) -/

/-- Exponent of the element format's largest normal (06 R185). -/
def emaxOf (code : Nat) : Int :=
  match code with
  | 6 => 8
  | 7 => 15
  | 8 => 4
  | 11 => 0
  | _ => 2

/-- 06 R185: the scale code of a block, and the cause of a created NaN. -/
def blockScale (code : Nat) (vs : List FVal) : Nat × Nat :=
  if vs.any (· == .nan) then (0xFF, 0)
  else if vs.any (fun v => match v with | .inf _ => true | _ => false) then (0xFF, 4)
  else
    let m : Dy := vs.foldl (fun a v => match v with
      | .fin x => if dyLt a (dyAbs x) then dyAbs x else a
      | _ => a) dyZero
    if m.m = 0 then (0x7F, 0)
    else ((clampI 0 0xFE ((Nat.log2 m.m.natAbs : Int) + m.e - emaxOf code + 127)).toNat, 0)

/-- 06 R186: the element code of an input under a block's scale. -/
def blockElem (code : Nat) (md : RMode) (scale : Nat) (v : FVal) : Nat :=
  if scale = 0xFF then 0
  else match v with
    | .fin x =>
      let q : Dy := ⟨x.m, x.e - (scale - 127 : Int)⟩
      match ffmt code with
      | none => ((clampI (-128) 127 (roundInt md ⟨q.m, q.e + 6⟩)) % 256).toNat
      | some f =>
        let a := min (roundCode f md q) f.max
        if a = 0 ∨ 0 ≤ q.m then a else a + 2 ^ (f.width - 1)
    | _ => 0

end Sys2Proof.Machine
end

