-- ==== Sys2Proof/Machine/Requests.lean ====
section
/-! DEFINITION. A line request at its home: loads, masked stores and merged atomics, each one indivisible event
(03 R82-R84; 07 R206, R207, R212, R214; 08 R245). -/

namespace Sys2Proof.Machine

/-- 32-bit FP32 addition at a home: nearest even, never trapping (04 R124, 06 R192). -/
def addF32 (a b : W32) : W32 :=
  BitVec.ofNat 32 (encodeF fp32 .rne (fAdd (decodeF fp32 a.toNat) (decodeF fp32 b.toNat)).1)

/-- BF16 addition. -/
def addBf (a b : Nat) : Nat := encodeF bf16 .rne (fAdd (decodeF bf16 a) (decodeF bf16 b)).1

/-- 04 Table 11: the value an atomic leaves, from the old one, the operand and, for `cas`, the new value. -/
def atomNew (aop ty : Nat) (old opnd new : W64) : W64 :=
  let o32 : W32 := old.truncate 32
  let p32 : W32 := opnd.truncate 32
  let up (x : W32) : W64 := x.zeroExtend 64
  match aop, ty with
  | 0, 0 | 0, 1 => up (o32 + p32)
  | 0, 2 | 0, 3 => old + opnd
  | 0, 4 => up (addF32 o32 p32)
  | 0, _ => BitVec.ofNat 64 (addBf (o32.toNat % 65536) (p32.toNat % 65536) +
      65536 * addBf (o32.toNat / 65536) (p32.toNat / 65536))
  | 1, 0 => up (if p32 < o32 then p32 else o32)
  | 1, 1 => up (if p32.slt o32 then p32 else o32)
  | 1, 2 => if opnd < old then opnd else old
  | 1, 3 => if opnd.slt old then opnd else old
  | 1, _ => BitVec.ofNat 64 (encodeF fp32 .rne (fMin (decodeF fp32 o32.toNat) (decodeF fp32 p32.toNat)))
  | 2, 0 => up (if o32 < p32 then p32 else o32)
  | 2, 1 => up (if o32.slt p32 then p32 else o32)
  | 2, 2 => if old < opnd then opnd else old
  | 2, 3 => if old.slt opnd then opnd else old
  | 2, _ => BitVec.ofNat 64 (encodeF fp32 .rne (fMax (decodeF fp32 o32.toNat) (decodeF fp32 p32.toNat)))
  | _, 6 => if o32 = p32 then up (new.truncate 32) else old
  | _, _ => if old = opnd then new else old

/-- Bytes an atomic type occupies (04 R124). -/
def atomSize (ty : Nat) : Nat := if ty = 2 ∨ ty = 3 ∨ ty = 7 then 8 else 4

/-- Apply one thread's atomic to bytes read and written by `rd` and `wr`, giving the old value. -/
def atomOne (d : Data) (p : Nat) (aop ty : Nat) (l : Lane) : Data × W64 :=
  let n := atomSize ty
  let old := BitVec.ofNat 64 (leNat (d.rdN (p + l.off) n))
  (d.wrN (p + l.off) (natLe n (atomNew aop ty old l.opnd l.cmp).toNat), old)

/-- The operations of one request in ascending thread index (03 R84). -/
def atomAll (d : Data) (p aop ty : Nat) : List Lane → Data × List W64
  | [] => (d, [])
  | l :: ls =>
    let (d, o) := atomOne d p aop ty l
    let (d, os) := atomAll d p aop ty ls
    (d, o :: os)

/-- A store's mask covers the whole line (07 R207, R212). -/
def fullMask (op : LineOp) : Bool :=
  match op with
  | .store bs => (List.range 128).all fun i => bs.any fun b => b.1 == i
  | _ => false

/-- The request writes. -/
def writes (op : LineOp) : Bool :=
  match op with
  | .load .. | .desc .. => false
  | _ => true

/-- Drop a line's lost mark. -/
def Data.unlose (d : Data) (p : Nat) : Data := { d with lost := srem d.lost (p / 128) }

/-- Mark a line lost (01 R34). -/
def Data.lose (d : Data) (p : Nat) : Data := { d with lost := sadd d.lost (p / 128) }

/-- Change one request. -/
def Data.setReq (d : Data) (r : LineReq) : Data :=
  { d with reqs := d.reqs.map fun q => if q.id = r.id then r else q }

def Data.req (d : Data) (id : Nat) : Option LineReq := d.reqs.find? fun r => r.id == id

/-! ### Who asks -/

def engCore (n : Nat) : Nat := 4096 + n
def dispCore (k : Nat) : Nat := 8192 + k
def fnCore (k : Nat) : Nat := 16384 + k

/-- The home of a line. -/
def tgtOf (p : Place) : Target :=
  match p with
  | .bench a => .bench (a / 128 * 128)
  | .phys p => .local (p / 128 * 128)
  | .remote n => .remote n
  | .host hb bus _ => .host hb (bus / 128 * 128)

/-- The request of an engine. -/
def LineReq.ofEngine (r : LineReq) : Bool := r.rem.isNone && decide (4096 ≤ r.core) && decide (r.core < 8192)

/-- The request of a Dispatcher. -/
def LineReq.ofDisp (r : LineReq) : Bool := r.rem.isNone && decide (8192 ≤ r.core) && decide (r.core < 16384)

/-- The request of a host function. -/
def LineReq.ofHost (r : LineReq) : Bool := r.rem.isNone && decide (16384 ≤ r.core)

/-- The die whose crossbar takes a request: 8 and 9 are the I/O dies. -/
def LineReq.die (r : LineReq) : Nat :=
  if r.core < 4096 then r.core / 84
  else if r.core < 4224 then (r.core - 4096) / 16
  else if r.core < 8192 then 8 + (r.core - 4224) / 8
  else if r.core < 16384 then 8 + (r.core - 8192) / 4 % 2
  else if r.core = 16384 ∨ (16384 + 64 ≤ r.core ∧ r.core < 16384 + 128) then 8 else 9

/-- The request has been answered, acknowledged or refused. -/
def LineReq.over (r : LineReq) : Bool :=
  match r.stage with
  | .waiting | .attached | .posted | .confirming => false
  | _ => true

/-- Discard every copy of a remote line, which a store or atomic of this package passes, and let no fill on its way leave one
(07 R219; 01 R31). -/
def Data.dropCopies (d : Data) (line : Nat) : Data :=
  { d with
    copies := mfilter d.copies fun k _ => k / 64 != line
    fills := d.fills.map fun f => if f.remote.isSome && f.addr / 128 == line then { f with install := false } else f }

/-- Apply a request to a line at its home (08 R245): a lost line fails everything but a store of all its bytes
(07 R207). -/
def applyReq (d : Data) (p : Nat) (r : LineReq) : Data :=
  if d.isLost p && !(fullMask r.op && d.lost.contains (p / 128) && !d.dieOut.contains (physDie p)
      && !(decide (p < 2 ^ 39) && d.chanOut.contains (physChan p))) then
    d.setReq { r with stage := .failed .dataLost }
  else
    match r.op with
    | .load .. | .desc .. => d.setReq { r with stage := .returned (d.rdN p 128) [] }
    | .store bs =>
      let d := if fullMask r.op then d.unlose p else d
      ((d.wrMask p bs).unmark r.plot (r.addr % 2 ^ 40)).setReq { r with stage := .acked }
    | .atom aop ty _ _ =>
      let (d, olds) := atomAll d p aop ty r.lanes
      (d.unmark r.plot (r.addr % 2 ^ 40)).setReq { r with stage := .returned [] olds }

/-! ### A line that must wait -/

/-- A line cannot be read or written at its home now: a fill of it is outstanding, its slice moves, or HBM must serve it over a
channel that is being retrained (07 R205, R214, R217). -/
def lineBusy (d : Data) (plot p0 : Nat) : Bool :=
  let p := d.scratchHome p0
  d.fills.any (fun f => f.remote.isNone && f.line == p / 128) ||
  (match (d.sliceOf plot p0).map fun k => mgetD d.slices k .inService with
    | some (.flushing _) | some (.returning _) => true
    | _ => false) ||
  (decide (p < 2 ^ 39) && (mget d.cellar (p / 128)).isNone && ((mget d.channels (physChan p)).bind fun c => c.training).isSome)

/-- One of the lines of `n` bytes from address `a` on of a plot's memory objects must wait. -/
def Data.busyAt (d : Data) (plot a n : Nat) : Bool :=
  ((List.range ((a % 128 + n + 127) / 128)).map fun i => (a / 128 + i) * 128).any fun x =>
    match d.physAt plot (x % 2 ^ 40) with
    | some p => lineBusy d plot p
    | none => false

/-- Apply an engine's request to a line of a bench (07 R221). A core that is OFF has none (08 R239). -/
def applyBench (d : Data) (a : Nat) (r : LineReq) : Data :=
  if d.coreState (a / 2 ^ 19) = .off then d.setReq { r with stage := .failed .carveOut }
  else match r.op with
    | .store bs => (bs.foldl (fun (d : Data) x => d.wrB (a + x.1) x.2) d).setReq { r with stage := .acked }
    | _ => d.setReq { r with stage := .returned ((List.range 128).map fun i => d.rdB (a + i)) [] }

/-- Requests with a line in the given frames are applied before the frames are cleared (11 R336). -/
def Data.flushFrames (d : Data) (fs : List Nat) : Data :=
  let ids := d.reqs.filterMap fun r => match r.tgt, r.stage with
    | .local p, .waiting | .local p, .attached => if p < 2 ^ 39 && fs.contains (p / 2 ^ 16) then some r.id else none
    | _, _ => none
  let d := ids.foldl (fun d i => match d.req i with
    | some r => match r.tgt, r.pre with
      | .local p, none => applyReq d p r
      | _, some st => d.setReq { r with stage := st }
      | _, none => d
    | none => d) d
  { d with fills := d.fills.filter fun f => !(f.remote.isNone && fs.contains (f.line * 128 / 2 ^ 16)) }

/-- 11 R337: the frames of a released holder are written with zeros; pending ones are retired (07 R208). -/
def Data.clearFrames (d : Data) (fs : List Nat) : Data :=
  let d := d.flushFrames fs
  { d with
    mem := d.mem.filter fun c => !(decide (c.1 < 2 ^ 39) && fs.contains (c.1 / 2 ^ 16))
    cellar := d.cellar.filter fun c => !fs.contains (c.1 * 128 / 2 ^ 16)
    lost := d.lost.filter fun l => !(decide (l * 128 < 2 ^ 39) && fs.contains (l * 128 / 2 ^ 16))
    framePend := d.framePend.filter fun f => !fs.contains f
    frameOut := (d.framePend.filter fun f => fs.contains f).foldl sadd d.frameOut }

end Sys2Proof.Machine
end

