-- ==== Sys2Proof/Machine/Context.lean ====
section
/-! DEFINITION. Contexts, events, queues, launches, thread-block ends and reference counts (10 R300, R304, R312-R318;
11 R330-R338, R495). -/

namespace Sys2Proof.Machine

/-! ### Structures of a context in device memory (11 R495) -/

/-- 11 R495: a structure of a context met a lost line: CTX_STRUCT_LOST, and ABORT_CONTEXT at once. -/
def Data.structLost (d : Data) (ctx st addr : Nat) : Data :=
  let d := d.post 0x0808 0 [(ctx, 2), (st, 1), (0, 5), (addr / 128 * 128, 8)]
  { d with abortPend := sadd d.abortPend ctx }

def Data.ctxPlot (d : Data) (ctx : Nat) : Nat := ((mget d.ctxs ctx).map fun c => c.plot).getD 64

/-- The first of `n` bytes from `addr` on that cannot be reached. -/
def Data.lostAt (d : Data) (ctx addr n : Nat) : Nat :=
  addr + ((List.range n).find? fun i => (d.devRead (d.ctxPlot ctx) ((addr + i) % 2 ^ 40) 1).isNone).getD 0

/-- Read `n` bytes of a context's structure `st`; none where a line is lost. -/
def Data.sBytes (d : Data) (ctx st addr n : Nat) : Data × Option (List Byte) :=
  match d.devRead (d.ctxPlot ctx) (addr % 2 ^ 40) n with
  | some l => (d, some l)
  | none => (d.structLost ctx st (d.lostAt ctx addr n), none)

/-- Read a field of a context's structure `st`; none where the access failed. -/
def Data.sRead (d : Data) (ctx st addr n : Nat) : Data × Option Nat :=
  ((d.sBytes ctx st addr n).1, (d.sBytes ctx st addr n).2.map leNat)

/-- Write a field of a context's structure `st`. -/
def Data.sWrite (d : Data) (ctx st addr : Nat) (l : List Byte) : Data :=
  match d.devWrite (d.ctxPlot ctx) (addr % 2 ^ 40) l with
  | some d' => d'
  | none => d.structLost ctx st ((d.heal (d.ctxPlot ctx) (addr % 2 ^ 40) l.length).lostAt ctx addr l.length)

/-- Add to an 8-byte counter of a context's structure, giving the value before and after. -/
def Data.sAdd (d : Data) (ctx st addr v : Nat) : Data × Option (Nat × Nat) :=
  match d.sRead ctx st addr 8 with
  | (d, some x) => (d.sWrite ctx st addr (natLe 8 ((x + v) % 2 ^ 64)), some (x, (x + v) % 2 ^ 64))
  | (d, none) => (d, none)

/-- 10 R318: advance a count of the context's progress block by `n`. -/
def Data.progressN (d : Data) (ctx off n : Nat) : Data :=
  match mget d.ctxs ctx with
  | some c => if n = 0 then d else (d.sAdd ctx 3 (c.progress + off) n).1
  | none => d

/-- 10 R318: advance a count of the context's progress block. -/
def Data.progress (d : Data) (ctx off : Nat) : Data := d.progressN ctx off 1

/-- The structure an event's record is (15 Table 15): the context's fault event record, or an event record. -/
def Data.eventStruct (d : Data) (ev ctx : Nat) : Nat := if ((mget d.ctxs ctx).map fun c => c.faultEvent) = some ev then 2 else 5

/-- 10 R316: Tordy evaluates an event's interrupt, `old` being its value before the advance that is evaluated: VALUE is at
IRQ_AT or above, and this advance took it there or no interrupt has been sent for that threshold. -/
def Data.evalIrq (d : Data) (ev old : Nat) : Data :=
  match mget d.events ev with
  | none => d
  | some e =>
    let st := d.eventStruct ev e.ctx
    match d.sRead e.ctx st e.addr 8 with
    | (d, none) => d
    | (d, some v) =>
      match d.sRead e.ctx st (e.addr + 8) 8 with
      | (d, none) => d
      | (d, some irq) =>
        if irq ≤ v ∧ e.vector ≠ 0xFFFF ∧ (old < irq ∨ e.fired ≠ some (BitVec.ofNat 64 irq)) then
          { d with irqs := d.irqs ++ [(d.ctxPlot e.ctx, e.vector)], events := mput d.events ev { e with fired := some (BitVec.ofNat 64 irq) } }
        else d

/-- 10 R315, R316: a Dispatcher advances an event at its home, and its interrupt is evaluated at once. -/
def Data.eventAdd (d : Data) (ev v : Nat) : Data :=
  match mget d.events ev with
  | none => d
  | some e =>
    match d.sAdd e.ctx (d.eventStruct ev e.ctx) e.addr v with
    | (d, none) => d
    | (d, some (old, _)) => d.evalIrq ev old

/-- The value of an event. -/
def Data.eventVal (d : Data) (ev : Nat) : Option Nat :=
  (mget d.events ev).bind fun e => (d.devRead (d.ctxPlot e.ctx) (e.addr % 2 ^ 40) 8).map leNat

/-- 10 R300: a ring increments DOORBELL_SEQ at the home of the header. -/
def Data.ringPh (d : Data) (h : Nat) : Data :=
  match mget d.pigeons h with
  | none => d
  | some p =>
    match d.sRead p.ctx 4 (p.ring + 16) 4 with
    | (d, some x) => d.sWrite p.ctx 4 (p.ring + 16) (natLe 4 ((x + 1) % 2 ^ 32))
    | (d, none) => d

/-- A Dispatcher evaluates an event that it waits for: a line of its record that cannot be reached is told (11 R495). -/
def Data.eventLost (d : Data) (ev : Nat) : Data :=
  match mget d.events ev with
  | some e => (d.sRead e.ctx (d.eventStruct ev e.ctx) e.addr 8).1
  | none => d

/-- DOORBELL_SEQ of a pigeonhole (03 R92). -/
def Data.doorbellSeq (d : Data) (h : Nat) : Option W32 :=
  (mget d.pigeons h).bind fun p =>
    (d.devRead (d.ctxPlot p.ctx) ((p.ring + 16) % 2 ^ 40) 4).map fun l => BitVec.ofNat 32 (leNat l)

/-- A read of DOORBELL_SEQ met a lost or unreachable line (11 R495). -/
def Data.doorbellLost (d : Data) (h : Nat) : Data :=
  match mget d.pigeons h with
  | some p => d.structLost p.ctx 4 (p.ring + 16)
  | none => d

/-! ### Reference counts (11 R336, Table 12) -/

/-- What a LAUNCH entry references from its claim to its end: queue, graph, context, and the event it signals. -/
structure LaunchRefs where
  queue : Nat
  graph : Nat
  ctx : Nat
  event : Option Nat
  deriving DecidableEq, Repr

/-- The references of a claimed LAUNCH entry of queue `h` that has not begun. -/
def claimRefs (h : Nat) (p : Pigeon) : Option LaunchRefs :=
  p.queue.bind fun q => q.entry.bind fun e =>
    if field e.bytes 8 1 = 1 ∧ q.launch = none then
      some ⟨h, field e.bytes 12 2, p.ctx, if field e.bytes 9 1 / 2 % 2 = 1 then some (field e.bytes 14 2) else none⟩
    else none

/-- The LAUNCH entries, claimed or running, and the replays. -/
def Data.launchRefs (d : Data) : List LaunchRefs :=
  (d.launches.map fun l => ⟨l.2.queue, l.2.graph, l.2.ctx, if l.2.signal then some l.2.event else none⟩) ++
    d.pigeons.filterMap fun p => claimRefs p.1 p.2

/-- How many of them `p` accepts. -/
def Data.launchesOf (d : Data) (p : LaunchRefs → Bool) : Nat := (d.launchRefs.filter p).length

/-- Events named by a graph's nodes and fences. -/
def graphEvents (g : Graph) : List Nat :=
  g.nodes.flatMap fun n => (if n.kind = 4 ∨ n.kind = 5 then [n.target.toNat % 65536] else []) ++
    (if n.fenceOn then [n.fenceEvent] else [])

def graphPhs (g : Graph) : List Nat := g.nodes.flatMap fun n => if n.kind = 6 then [n.target.toNat % 4096] else []

/-- The executing queue entries, WAIT or SIGNAL, that name an event. -/
def Data.entryRefs (d : Data) (ev : Nat) : Nat :=
  (d.pigeons.filter fun p => match p.2.queue with
    | some q => match q.entry with
      | some e => (field e.bytes 8 1 == 2 || field e.bytes 8 1 == 3) && field e.bytes 14 2 == ev
      | none => false
    | none => false).length

/-- Resident thread blocks of DETACHED nodes of a context. -/
def Data.detachedOf (d : Data) (ctx : Nat) : Nat :=
  (d.cores.map fun c => (c.2.blocks.filter fun b => b.2.detached && b.2.ctx == ctx).length).sum

/-- The memory object of a plot at an address holds it. -/
def holdsAt (o : MemObj) (plot a : Nat) : Bool :=
  o.plot == plot && decide (o.base ≤ a % 2 ^ 40) && decide (a % 2 ^ 40 < o.base + o.size)

/-- Device count of a memory object. -/
def Data.objRefs (d : Data) (o : MemObj) : Nat :=
  (d.pigeons.filter fun p => holdsAt o (d.ctxPlot p.2.ctx) p.2.ring).length +
    (d.events.filter fun e => holdsAt o (d.ctxPlot e.2.ctx) e.2.addr).length +
    (d.ctxs.filter fun c => !(c.2.released && c.2.held.isEmpty) && (holdsAt o c.2.plot c.2.ring || holdsAt o c.2.plot c.2.progress)).length +
    (d.graphs.filter fun g => holdsAt o (d.ctxPlot g.2.ctx) g.2.snap).length

def Data.eventRefs (d : Data) (ev : Nat) : Nat :=
  d.entryRefs ev + (d.ctxs.filter fun c => c.2.faultEvent == ev && !(c.2.released && c.2.held.isEmpty)).length +
    d.launchesOf fun l => l.event == some ev ||
      ((mget d.graphs l.graph).map fun g => (graphEvents g).contains ev).getD false

def Data.graphRefs (d : Data) (g : Nat) : Nat := d.launchesOf fun l => l.graph == g

def Data.queueRefs (d : Data) (q : Nat) : Nat := d.launchesOf fun l => l.queue == q

def Data.phRefs (d : Data) (h : Nat) : Nat :=
  (match mget d.pigeons h with
    | some p => if p.queue.isSome then 1 else 0
    | none => 0) +
    d.launchesOf fun l => ((mget d.graphs l.graph).map fun g => (graphPhs g).contains h).getD false

def Data.ctxRefs (d : Data) (ctx : Nat) : Nat := (d.launchesOf fun l => l.ctx == ctx) + d.detachedOf ctx

/-- Objects of a context, its fault event among them. -/
def Data.ctxObjects (d : Data) (ctx : Nat) : Nat :=
  (d.pigeons.filter fun p => p.2.ctx == ctx).length + (d.graphs.filter fun g => g.2.ctx == ctx).length +
    (d.events.filter fun e => e.2.ctx == ctx).length

def Data.released (d : Data) (kind plot id base : Nat) : Data :=
  d.post 0x0807 0 [(kind, 1), (plot, 1), (0, 2), (id, 4), (base, 8)]

/-- 11 R337: release one object both of whose counts are zero, if there is one. A released context's number comes back when
its last records are posted and no object of it is left. -/
def Data.releaseOne (d : Data) : Option Data :=
  match d.graphs.find? fun g => g.2.hostCount == 0 && d.graphRefs g.1 == 0 with
  | some (n, g) => some (({ d with graphs := mdel d.graphs n }.clearFrames g.frames).released 6 (d.ctxPlot g.ctx) n 0)
  | none =>
  match d.pigeons.find? fun p => (p.2.queue.map fun q => q.hostCount == 0 && d.queueRefs p.1 == 0) == some true with
  | some (n, p) => some ({ d with pigeons := mput d.pigeons n { p with queue := none } }.released 4 (d.ctxPlot p.ctx) n 0)
  | none =>
  match d.pigeons.find? fun p => p.2.hostCount == 0 && d.phRefs p.1 == 0 with
  | some (n, p) => some ({ d with pigeons := mdel d.pigeons n }.released 3 (d.ctxPlot p.ctx) n 0)
  | none =>
  match d.ctxs.find? fun c => c.2.hostCount == 0 && !c.2.released && d.ctxRefs c.1 == 0 with
  | some (n, c) => some ({ d with ctxs := mput d.ctxs n { c with released := true } }.released 1 c.plot n 0)
  | none =>
  match d.ctxs.find? fun c => c.2.released && c.2.held.isEmpty && d.ctxObjects c.1 == 0 with
  | some (n, _) => some { d with ctxs := mdel d.ctxs n }
  | none =>
  match d.events.find? fun e => e.2.hostCount == 0 && d.eventRefs e.1 == 0 with
  | some (n, e) => some ({ d with events := mdel d.events n }.released 5 (d.ctxPlot e.ctx) n 0)
  | none =>
  match d.objs.find? fun o => o.hostCount == 0 && d.objRefs o == 0 with
  | some o =>
    some (({ d with objs := d.objs.filter fun q => q.base != o.base, apertures := d.apertures.filter fun x => x.2.1 != o.base }.clearFrames (o.stripes.flatten ++ o.side)).released
      2 o.plot 0 o.base)
  | none =>
  match d.hws.find? fun o => o.hostCount == 0 with
  | some o => some ({ d with hws := d.hws.filter fun q => q.base != o.base }.released 2 o.plot 0 o.base)
  | none => none

/-- Release until nothing more is releasable. -/
def reapN : Nat → Data → Data
  | 0, d => d
  | n + 1, d => match d.releaseOne with
    | some d' => reapN n d'
    | none => d

/-- 11 R337: release every object both of whose counts are zero. -/
def Data.reap (d : Data) : Data :=
  reapN (2 * d.graphs.length + 3 * d.pigeons.length + 2 * d.ctxs.length + d.events.length + d.objs.length + d.hws.length + 1) d

/-! ### Thread blocks -/

/-- A core with no resident thread block that is RETIRING is retired (15 R420): ARRAY_OFF when all its failures named
array or conversion tags, else OFF, which takes it out of its plot. Its array is fused off: no activity and no set remains
(05 R168). -/
def Data.retireIfEmpty (d : Data) (c : Nat) : Data :=
  match mget d.retiring c with
  | none => d
  | some arr =>
    if (d.core c).blocks = [] then
      let d := d.setCore c { d.core c with acc := [], arrQ := [], arrSt := .idle, rows := 0, rampWait := false }
      let d := { d with
        retiring := mdel d.retiring c
        coreSt := mput d.coreSt c (if arr then .arrayOff else .off)
        plots := if arr then d.plots else mmap d.plots fun _ p => { p with cores := srem p.cores c } }
      let unit := c / 84 + 16 * (c % 84 / 12) + 256 * (c % 12)
      d.post 0x0704 (1 + 256 * unit) [(unit, 0), (1, 0), (if arr then 1 else 2, 0), (420, 0)]
    else d

/-- A record joins its context's records; the launch counts it (10 Table 8). -/
def Data.holdRec (d : Data) (ctx launch : Nat) (r : FaultRec) : Data :=
  { d with
    ctxs := mmod d.ctxs ctx fun c => { c with held := c.held ++ [r] }
    launches := mmod d.launches launch fun l => { l with faults := l.faults + 1 } }

/-- Change a launch, in flight or ended with thread blocks still resident. -/
def Data.modLaunch (d : Data) (id : Nat) (f : Launch → Launch) : Data :=
  { d with launches := mmod d.launches id f, ended := mmod d.ended id f }

/-- A launch, in flight or ended with thread blocks still resident. -/
def Data.anyLaunch (d : Data) (id : Nat) : Option Launch :=
  match mget d.launches id with
  | some l => some l
  | none => mget d.ended id

/-- The notices due for a launch join its context's records (05 R157, 06 R194). -/
def Data.handNotices (d : Data) (id : Nat) : Data :=
  match d.anyLaunch id with
  | none => d
  | some l =>
    ((l.nanNotice.toList ++ l.satNotice.toList).foldl (fun (d : Data) r => d.holdRec l.ctx id r) d).modLaunch id
      fun l => { l with nanNotice := none, satNotice := none }

/-- A thread block of a launch is resident. -/
def Data.blocksLeft (d : Data) (id : Nat) : Bool := d.cores.any fun c => c.2.blocks.any fun b => b.2.launch == id

/-- 10 R317: nothing is kept of an ended launch once its last thread block has ended. -/
def Data.dropTail (d : Data) (id : Nat) : Data :=
  if (mget d.ended id).isNone || d.blocksLeft id then d else { d.handNotices id with ended := mdel d.ended id }

/-- 03 R70: a thread block's groups, slot, registers, bench region, barriers and array claim are returned; the
node that placed it and the progress block count its end (10 R317, R318). -/
def Data.endBlock (d : Data) (c bs : Nat) : Data :=
  let k := d.core c
  match mget k.blocks bs with
  | none => d
  | some b =>
    let blocks := mdel k.blocks bs
    let kept := blocks.any fun e => e.2.usesArray && e.2.launch == b.launch && e.2.node == b.node
    let groups := mfilter k.groups fun _ g => g.block != bs
    let arrQ := k.arrQ.filter fun o => groups.any fun g => g.1 == o.slot && g.2.age == o.age
    let d := d.setCore c { k with
      blocks := blocks
      groups := groups
      arrQ := arrQ
      arrSt := if k.arrSt = .active ∧ (arrQ.all fun o => o.kind != .mma) then .hold else k.arrSt
      rampWait := k.rampWait && arrQ.any fun o => o.kind == .mma
      claim := if b.usesArray && !kept then none else k.claim }
    let d := { d with launches := mmod d.launches b.launch fun l => if l.iter = b.iter then
      { l with nodes := mmod l.nodes b.node fun n => { n with ended := n.ended + 1 } } else l }
    (((d.dropTail b.launch).progress b.ctx 16).retireIfEmpty c).reap

/-! ### Launches -/

/-- 10 R314, Table 8: the launch record. -/
def launchRecord (l : Launch) (status beat : Nat) : List Byte :=
  natLe 2 status ++ natLe 2 l.okIters ++ natLe 4 (l.failedNode.getD 0xFFFFFFFF) ++ natLe 8 l.startBeat ++ natLe 8 beat ++
    natLe 4 l.nan ++ natLe 4 l.sat ++ natLe 4 l.run ++ natLe 4 l.disabled ++ natLe 4 l.cancelled ++
    natLe 2 l.failCause ++ natLe 2 l.failDetail ++ natLe 8 l.seq ++ natLe 4 l.faults ++ natLe 4 0

/-- 10 R304: a queue stops. -/
def Data.stopQueue (d : Data) (h cause seq : Nat) : Data :=
  match mget d.pigeons h with
  | some p => match p.queue with
    | some q => if q.running then
        ({ d with pigeons := mput d.pigeons h { p with queue := some { q with running := false } } }).post 0x0801 0
          [(h, 2), (p.ctx, 2), (cause, 1), (0, 3), (seq, 8)]
      else d
    | none => d
  | none => d

/-- A node is final: completed, failed, disabled or cancelled. -/
def nodeFinal (n : NodeRun) : Bool :=
  match n.st with
  | .waiting | .dispatched => false
  | _ => true

/-- A Dispatcher's view of addresses (08 Table 2). -/
def dispAgent (plot : Nat) : Agent := { kind := .dispatcher, plot := plot, forerunner := false, own := none }

/-- The Dispatcher that a queue is bound to. -/
def Data.queueDisp (d : Data) (h : Nat) : Nat := (((mget d.pigeons h).bind fun p => p.queue).map fun (q : Queue) => q.disp).getD 0

/-- A Dispatcher's line request: `slot` and `iseq` say what for. -/
def Data.dispAsk (d : Data) (disp slot iseq plot a : Nat) (p : Place) (op : LineOp) : Data :=
  let r : LineReq :=
    { id := d.nextId, core := dispCore disp, slot := slot, iseq := iseq, age := 0, plot := plot, pc := 0, opcode := 0, addr := a / 128 * 128,
      tgt := tgtOf p, op := op, lanes := [], stage := .waiting, pre := none, rem := none, accepted := none }
  { d with nextId := d.nextId + 1, reqs := d.reqs ++ [r] }

/-- A Dispatcher writes a launch record: in the plot's memory at once; by a store to scratch, a host window or another package
(08 Table 2; 09 R277). One that it cannot reach is told (11 R495). -/
def Data.putRecord (d : Data) (disp ctx a : Nat) (l : List Byte) : Data :=
  match place d (dispAgent (d.ctxPlot ctx)) a with
  | .ok p =>
    if a / 2 ^ 40 = d.node ∧ a % 2 ^ 40 < 0x8000000000 then d.sWrite ctx 6 a l
    else d.dispAsk disp ctx 0 (d.ctxPlot ctx) a p (.store (l.zipIdx.map fun x => (a % 128 + x.2, x.1)))
  | .error _ => d.structLost ctx 6 a

/-- 10 R314: a launch ends: its record, its entry's completion, the final SIGNAL_DONE addition, and the drop of its
references. Notices that are due go before the record, which counts them. -/
def Data.endLaunch (d : Data) (id beat : Nat) : Data :=
  match mget (d.handNotices id).launches id with
  | none => d
  | some l =>
    let status := if l.aborted then 3 else if l.failedNode.isSome then 1 else 0
    let d := d.handNotices id
    let d := if l.record = 0 then d else d.putRecord (d.queueDisp l.queue) l.ctx l.record (launchRecord l status beat)
    let d := { d with
      pigeons := if l.replay then d.pigeons else mmod d.pigeons l.queue fun p => { p with queue := p.queue.map fun (q : Queue) => { q with entry := none, launch := none } }
      launches := mdel d.launches id
      reqs := d.reqs.filter fun r => !(r.ofDisp && !writes r.op && r.slot == id)
      ended := if d.blocksLeft id then mput d.ended id l else d.ended
      graphs := if l.open_ then mmod d.graphs l.graph fun g => { g with banks := srem g.banks l.bank } else d.graphs }
    let d := if l.replay then d else d.progress l.ctx 0
    let d := if status = 1 ∧ l.stopOnFail then d.stopQueue l.queue 1 l.seq else d
    let d := if status = 0 ∧ l.signal then d.eventAdd l.event l.value.toNat else d
    d.reap

/-- 10 R313: the iteration ends when every node has completed, failed or been cancelled. -/
def Data.settle (d : Data) (id beat : Nat) : Data :=
  match mget d.launches id with
  | none => d
  | some l =>
    if l.open_ && l.nodes.all fun n => nodeFinal n.2 then
      let ok := !l.aborted && l.failedNode.isNone
      let l' := { l with open_ := false, okIters := if ok then l.okIters + 1 else l.okIters }
      let d := { d with launches := mput d.launches id l'
                        graphs := mmod d.graphs l.graph fun g => { g with banks := srem g.banks l.bank } }
      if ok && decide (l'.okIters < l.rep) then (if l.signal then d.eventAdd l.event l.value.toNat else d)
      else d.endLaunch id beat
    else if !l.open_ && l.aborted then d.endLaunch id beat
    else d

/-- The kind of a node of a launch. -/
def Data.nodeKind (d : Data) (l : Launch) (n : Nat) : Nat :=
  (((mget d.graphs l.graph).bind fun g => g.nodes[n]?).map fun g => g.kind).getD 0

/-- A node of an aborted launch: not dispatched, or waiting for an event, it is cancelled; a kernel's thread blocks have
been ended, so it fails; an engine's descriptor runs on. -/
def abortNode (kind : Nat) (n : NodeRun) : NodeRun :=
  match n.st with
  | .waiting => { n with st := .cancelled }
  | .dispatched => if kind = 4 then { n with st := .cancelled } else if kind = 1 then { n with st := .failed } else n
  | _ => n

/-- 10 R313, 03 R99: ABORT_CONTEXT: every launch of the context ends ABORTED, its queues stop, its thread blocks end.
The launches' records are written as their last nodes are final. -/
def Data.abortCtx (d : Data) (ctx : Nat) : Data :=
  let mine := mfilter d.launches fun _ l => l.ctx == ctx && !l.aborted
  let n := (mine.map fun e => mcount e.2.nodes fun k x => !nodeFinal x && nodeFinal (abortNode (d.nodeKind e.2 k) x)).sum
  let d := { d with launches := mmap d.launches fun _ l =>
    if l.ctx = ctx ∧ !l.aborted then
      { l with
        aborted := true
        failCause := 5
        failDetail := 0
        cancelled := l.cancelled + mcount l.nodes fun k x => !nodeFinal x && (abortNode (d.nodeKind l k) x).st == NodeSt.cancelled
        nodes := mmap l.nodes fun k x => abortNode (d.nodeKind l k) x }
    else l }
  let d := d.progressN ctx 8 n
  let d := (mfilter d.pigeons fun _ p => p.ctx == ctx).foldl (fun (d : Data) p =>
    d.stopQueue p.1 2 (((p.2.queue.bind fun q => q.launch).bind fun i => (mget d.launches i).map fun l => l.seq).getD 0)) d
  d.cores.foldl (fun d c =>
    (mfilter c.2.blocks fun _ b => b.ctx == ctx).foldl (fun (d : Data) b => d.endBlock c.1 b.1) d) d

/-- The aborts that fell due within a step (11 R495). -/
def Data.runAborts (d : Data) : Data :=
  if d.abortPend = [] then d
  else { d.abortPend.foldl (fun d c => d.abortCtx c) d with abortPend := [] }

/-! ### Fault records (03 R98; 11 R332) -/

/-- Code of a fault class (03 Table 5). -/
def FaultClass.code : FaultClass → Nat
  | .align => 1 | .carveOut => 2 | .carveOutRemote => 3 | .benchRange => 4 | .illegal => 5 | .operandRange => 6
  | .arrayUnavailable => 7 | .divOverflow => 8 | .nanTrap => 9 | .satTrap => 10 | .nodeGone => 11 | .fabricLost => 12
  | .dataLost => 13

/-- The replay mode of an issue-time class (03 Table 5). -/
def FaultClass.issueMode : FaultClass → ReplayMode
  | .align | .carveOut | .benchRange => .instr
  | _ => .none

def ReplayMode.code : ReplayMode → Nat
  | .none => 0 | .instr => 1 | .op => 2 | .continue => 3 | .block => 4

/-- 03 Table 6: the 64 bytes of a record with its sequence number. -/
def faultBytes (seq : Nat) (r : FaultRec) : List Byte :=
  natLe 4 seq ++ natLe 2 r.cls.code ++ natLe 2 r.sub ++ natLe 8 r.beat ++
    natLe 1 (r.core / 84) ++ natLe 1 (r.core % 84 / 12) ++ natLe 1 (r.core % 12) ++ natLe 1 r.slot ++ natLe 1 r.block ++
    natLe 1 r.plot ++ natLe 2 r.ctx ++ natLe 8 r.pc.toNat ++ natLe 8 r.resume.toNat ++ natLe 8 r.addr.toNat ++
    natLe 4 r.mask.toNat ++ natLe 2 r.opcode.toNat ++ natLe 1 r.mode.code ++ natLe 1 0 ++ natLe 8 r.detail.toNat

/-! ### Ends of groups and named barriers (03 R78, R88, R89) -/

/-- 03 R78, steps 3 to 5, before each instruction: switch to the pending path or rejoin, as often as it applies. -/
def reconv : Nat → Group → Group
  | 0, g => g
  | n + 1, g =>
    match g.stack with
    | [] => g
    | e :: rest =>
      if g.pc = e.rpc ∨ g.active = 0 then
        if e.pendMask ≠ 0 then
          reconv n { g with pc := e.pendPc, active := e.pendMask, stack := { e with pendMask := 0 } :: rest }
        else reconv n { g with pc := e.rpc, active := e.origMask, stack := rest }
      else g

/-- The group after an instruction, at `pc`. -/
def Group.advance (g : Group) (pc : W64) : Group := reconv 66 { g with pc := pc, iseq := g.iseq + 1 }

/-- 03 R88, R89: groups of a thread block that have not ended. -/
def Data.liveGroups (d : Data) (c bs : Nat) : Nat := mcount (d.core c).groups fun _ g => g.block == bs

/-- Release barrier `b` of a thread block if its count is reached: every waiting group passes its `bar.sync`, and the
barrier is reset. -/
def Data.releaseBar (d : Data) (c bs b : Nat) : Data :=
  match (mget (d.core c).blocks bs).bind fun k => mget k.bars b with
  | none => d
  | some n =>
    if 0 < n.arrived ∧ (if n.need = 0 then d.liveGroups c bs else n.need) ≤ n.arrived then
      let k := d.core c
      d.setCore c { k with
        blocks := mmod k.blocks bs fun q => { q with bars := mdel q.bars b }
        groups := mmap k.groups fun _ g =>
          if g.block = bs ∧ g.st = .barSync b then { g with st := .run }.advance (g.pc + 8) else g }
    else d

/-- 03 R70: a group ends; its slot is free; barriers whose count 0 it held back may release; the last group ends the
thread block. -/
def Data.endGroup (d : Data) (c s : Nat) : Data :=
  match d.group c s with
  | none => d
  | some g =>
    let k := d.core c
    let d := d.setCore c { k with groups := mdel k.groups s }
    if d.liveGroups c g.block = 0 then d.endBlock c g.block
    else (List.range 4).foldl (fun d b => d.releaseBar c g.block b) d

end Sys2Proof.Machine
end

