-- ==== Sys2Proof/Machine/StateMgmt.lean ====
section
/-! DEFINITION. The state of the management plane: the Almanac, the lease latch, letters and journal, host ports, the
fabric, power and cooling, tests, records, bring-up and pins (02, 09, 12-18). -/

namespace Sys2Proof.Machine

/-! ### The Almanac (02) -/

/-- The Almanac states of 02 Table 1, in code order. -/
inductive AlmState where
  | free | acquiring | locked | holdover | slewing
  deriving DecidableEq, Repr

/-- The modes of 02 R45. -/
inductive RootMode where
  | follow | internal | pps
  deriving DecidableEq, Repr

/-- A candidate source (02 R48, R52): its last cell, the local beat at which it came, how many consistent cells in a
row, and the offset measured last. -/
structure SyncSrc where
  cell : SyncCell
  at_ : Nat
  run : Nat
  offset : Int
  deriving DecidableEq, Repr

/-- The Almanac counter and what follows it (02 R38-R52, R61). -/
structure Almanac where
  /-- the beat in progress -/
  beat : Nat
  st : AlmState
  since : Nat
  mode : RootMode
  rootLost : Bool
  priority : Nat
  /-- value of the next PPS edge, before and after the first -/
  ppsNext : Nat
  ppsSeen : Bool
  /-- beat of the last edge of any kind, and of the last edge that was no outlier (02 R46, R61) -/
  ppsLast : Nat
  ppsGood : Option Nat
  outliers : Nat
  rootSerial : Nat
  hops : Nat
  /-- 0-15 runners, 16, 17 global links, 254 PPS, 255 none -/
  source : Nat
  /-- last measured offset from the source, ns -/
  offset : Int
  /-- offset still to be removed by the slew, in tenths of a nanosecond; and the one it began with, in nanoseconds -/
  slew : Int
  slewFrom : Int
  /-- a forward step due at the next beat edge: beats, and the offset it removes -/
  step : Option (Nat × Int)
  lateSeen : Bool
  conflict : Bool
  /-- bound in force at the entry into HOLDOVER -/
  holdBound : Nat
  /-- error bound of the source's last cell -/
  srcBound : Nat
  /-- beats spent disciplined (02 Table 4) -/
  disciplined : Nat
  /-- the correction with which the oscillator is disciplined, in parts per billion (02 R40) -/
  freqPpb : Int
  srcs : SMap SyncSrc
  /-- beat from which 64 beats without a cell count (02 R52) -/
  listenFrom : Nat
  deriving DecidableEq, Repr

/-- ALM_PPS_PRESENT: a qualified PPS edge within the last 1.5 s (02 Table 3). -/
def Almanac.ppsPresent (a : Almanac) : Bool :=
  match a.ppsGood with
  | some t => decide (a.beat < t + 1500000)
  | none => false

/-! ### The lease latch (13 R368-R370) -/

/-- The latch and its gate. -/
structure Latch where
  holder : Option Side
  last : Option Side
  gen : BitVec 32
  remaining : Nat
  fault : Bool
  nDropped : Nat
  sDropped : Nat
  deriving DecidableEq, Repr

/-! ### Letters (13 R360-R374; 02 R58) -/

/-- A letter as stamped (13 Table 2, R362): the slot's 256 bytes, the stamp, and where its reply goes: the function and
slot, or the MG endpoint; `gen` counts the resets of the function when it was rung. -/
structure Letter where
  bytes : List Byte
  stamp : Nat
  fn : Option Fn
  slot : Nat
  gen : Nat
  ringBeat : Nat
  deriving DecidableEq, Repr

/-- A reply as the archive keeps it (13 R364, R371). -/
structure Reply where
  stamp : Nat
  seq : BitVec 32
  status : Nat
  fieldOff : Nat
  data : List Byte
  acceptBeat : Nat
  reexec : Bool
  deriving DecidableEq, Repr

/-- A journal entry (13 R371): a letter accepted and, until its reply is written, the duplicates that wait for it. -/
structure JEntry where
  jid : Nat
  letter : Letter
  acceptBeat : Nat
  reply : Option Reply
  ticket : Nat
  reexec : Bool
  waiters : List Letter
  deriving DecidableEq, Repr

/-- What a schedule entry does at its beat (02 Table 5). -/
inductive SKind where
  | budget (watts dur : Nat)
  | prune (tag : Nat) (nodes : List Nat)
  | routes (crc : Nat)
  | graft (tag : Nat) (nodes : List Nat)
  | wrapped
  | sample (slot : Nat)
  deriving DecidableEq, Repr

/-- An entry of the schedule (02 R58); `beat` of an ADD with BEAT 0 is the next beat edge, and it holds no entry (R60). -/
structure SEntry where
  ticket : Nat
  beat : Nat
  kind : SKind
  letter : Letter
  /-- acceptance order -/
  order : Nat
  counts : Bool
  late : Bool
  deriving DecidableEq, Repr

/-- Postmaster states of 13 Table 10, in code order. -/
inductive PmState where
  | off | booting | holder | syncing | standbyReady | fault
  deriving DecidableEq, Repr

/-- An open firmware update or test-pack installation: the port, TOTAL, and the bytes received. -/
structure Upload where
  stamp : Nat
  total : Nat
  data : SMap Byte
  deriving DecidableEq, Repr

/-- Postmasters, journal, schedule and letters. -/
structure Mgmt where
  nSt : PmState
  sSt : PmState
  /-- Postmasters halted by a debugger (12 R355) -/
  halted : List Side
  takeovers : Nat
  retries : Nat
  lastTakeover : Nat
  lastRenewal : Nat
  /-- a takeover is due: the lease changed hands without a handover -/
  takeDue : Bool
  /-- a handover is under way: 1 letter, 2 activation -/
  handover : Nat
  nextJid : Nat
  journal : List JEntry
  /-- the reply archive, by port: the last 256 replies, latest first -/
  archive : SMap (List Reply)
  /-- the acceptance queue, first in, first out -/
  accept : List Letter
  /-- NEXT_SEQ by stamp; not listed: UNSET -/
  nextSeq : SMap (BitVec 32)
  /-- JOURNAL_ID of the first letter accepted since NEXT_SEQ was last UNSET, by stamp -/
  seqFrom : SMap Nat
  schedule : List SEntry
  nextTicket : Nat
  nextOrder : Nat
  /-- ticket and stamp of every ADD accepted with BEAT 0 (02 R60) -/
  instant : List (Nat × Nat)
  upPolmen : Option Upload
  upTordy : Option Upload
  upPack : Option Upload
  deriving DecidableEq, Repr

/-! ### Host ports (12, 13 R360) -/

/-- One function's registers, letterbox and reply box (12 Table 3, Table 4; 13 Table 1). -/
structure FnRegs where
  letters : SMap Byte
  replies : SMap Byte
  unmapped : Nat
  refused : Nat
  replyVector : Nat
  /-- the latched high half of ALMANAC_BEAT (02 R61) -/
  beatHigh : Option Nat
  /-- MSI-X table bytes as written, and pending vectors -/
  msix : SMap Byte
  pba : List Nat
  /-- rings ignored because the reply slot was BUSY -/
  dropped : Nat
  /-- resets of the letterbox and reply box -/
  gen : Nat
  inFlr : Bool
  deriving DecidableEq, Repr

/-- One host port (12 R340, R343-R345, R350). -/
structure HostPortSt where
  up : Bool
  perst : Bool
  rate : Nat
  width : Nat
  linkEvents : Nat
  vfEnable : Bool
  vfBar2Log2 : Nat
  pfBar2Log2 : Nat
  deriving DecidableEq, Repr

/-- A read of a host window under way (12 R341), by the number of the line request it is for. -/
structure HostReq where
  id : Nat
  hb : Bool
  bus : Nat
  len : Nat
  /-- whose requester ID and tag it carries -/
  fn : Fn
  deriving DecidableEq, Repr

/-- What the host has asked for through BAR0 and BAR2 and has not yet taken effect (08 R245, R250; 12 R342, R346). -/
inductive HostOpKind where
  /-- a write of BAR2 whose parts are on their way to their homes: their request numbers -/
  | write (ids : List Nat)
  /-- a read of BAR2, and of a pigeonhole window -/
  | read
  | window (ph : Nat)
  /-- a ring of a pigeonhole, and of a context's fault doorbell -/
  | ring (ph : Nat)
  | fault (ctx : Nat)
  /-- a ring of a letter slot, with the letter as the slot then held it -/
  | letter (l : Letter)
  deriving DecidableEq, Repr

/-- One such request: the function, and the BAR2 offset and length. -/
structure HostOp where
  fn : Fn
  off : Nat
  len : Nat
  kind : HostOpKind
  deriving DecidableEq, Repr

/-- What the block sends out of its ports, in order. -/
inductive Output where
  /-- data of a read completion; `poisoned` (12 R342) -/
  | readData (fn : Fn) (data : List Byte) (poisoned : Bool)
  /-- Unsupported Request -/
  | unsupported (fn : Fn)
  /-- an MSI-X message -/
  | msix (fn : Fn) (vector : Nat)
  /-- an error message of AER: a poisoned TLP was received (12 R340, R342) -/
  | aer (fn : Fn)
  /-- a host-window read or write request, with the function whose requester ID it carries (08 R241; 12 R341) -/
  | hostRead (fn : Fn) (hb : Bool) (bus : Nat) (len : Nat)
  | hostWrite (fn : Fn) (hb : Bool) (bus : Nat) (bytes : List (Nat × Byte))
  /-- an MCTP message of MG to an endpoint -/
  | mctp (eid ty : Nat) (body : List Byte)
  /-- an In-Band Interrupt of MG -/
  | ibi
  /-- a packet, a sync cell or a survey record on a port: under its link sequence number, and as bytes: of a runner the
  content of the cell, of a global link the frame -/
  | link (port : Nat) (seq : BitVec 12) (item : LinkItem) (bytes : List Byte)
  /-- a link-level acknowledgement up to the sequence number before this one, with credits -/
  | ack (port : Nat) (seq : BitVec 12) (credits : List Nat)
  /-- a link-level replay request, from the sequence number wanted -/
  | replay (port : Nat) (seq : BitVec 12)
  /-- bits that DB's TAP shifts out for an instruction -/
  | tap (bits : List Bool)
  /-- what scan access to a compute die gives the debugger -/
  | scan (die : Nat) (bits : List Bool)
  deriving DecidableEq, Repr

/-- The host ports and their functions. A function is numbered 0, 1 for the PFs of HA and HB, 64 + n and 128 + n for
their VFs; one not listed has its reset values. -/
structure HostSt where
  ha : HostPortSt
  hb : HostPortSt
  fns : SMap FnRegs
  reqs : List HostReq
  /-- requests of the host that wait, oldest first -/
  ops : List HostOp
  out : List Output
  deriving DecidableEq, Repr

/-- MG and DB (12 R351-R355). -/
structure MgDb where
  /-- in I3C mode once it has one; without, in I2C mode -/
  dynAddr : Option Nat
  eid : Option Nat
  /-- endpoints of the letters in MG's 16 slots, by slot -/
  slots : SMap Nat
  /-- a reply waits to be read in I2C mode (18 R475) -/
  unread : Bool
  nonce : Option Nat
  grants : Nat
  /-- TAP instruction: 0 IDCODE (also after a reset of the TAP), 1 BYPASS, 2 SAMPLE/PRELOAD, 3 EXTEST -/
  tap : Nat
  consoleIn : List Byte
  deriving DecidableEq, Repr

/-! ### The fabric (09) -/

/-- The verdicts of 09 Table 4, in code order. -/
inductive Verdict where
  | noPeer | ok | degraded | miscabled | duplicate
  deriving DecidableEq, Repr

/-- One port, 0-15 runners, 16, 17 global links (09 R263, R269, R270). -/
structure LinkSt where
  verdict : Verdict
  trained : Bool
  lanes : BitVec 8
  lost : BitVec 8
  training : Option Nat
  /-- under a weeding pass since -/
  passSince : Option Nat
  /-- number of the next cell expected -/
  rxSeq : BitVec 12
  /-- number of the next cell sent -/
  txSeq : BitVec 12
  /-- replay buffer: what was sent and is not acknowledged, oldest first -/
  txBuf : List (BitVec 12 × LinkItem)
  /-- credits in hand for REQ, RSP, FWD_REQ, FWD_RSP, MSG and CTRL -/
  credits : List Nat
  /-- packets that wait for credits, oldest first -/
  waiting : List Packet
  /-- the identity record has not been acknowledged -/
  surveyDue : Bool
  replays : Nat
  peerNode : Nat
  peerPos : Nat
  peerPort : Nat
  peerSerial : Nat
  delayNs : Nat
  events : Nat
  discards : Nat
  cable : Bool
  cablePower : Bool
  deriving DecidableEq, Repr

/-- A packet sent and not yet acknowledged (09 R273). -/
structure SentPkt where
  pkt : Packet
  /-- the port on which it was last sent -/
  port : Option Nat
  first : Nat
  last : Nat
  deriving DecidableEq, Repr

/-- One connection, by 2 * node + class (09 R273, R283, R284). -/
structure Conn where
  txSeq : BitVec 32
  rxSeq : BitVec 32
  /-- beat at which SEQ 0 was last accepted -/
  rxZero : Nat
  unacked : List SentPkt
  /-- requests acknowledged and not yet answered -/
  answers : List SentPkt
  /-- packets held until every old-parity packet has been acknowledged -/
  held : List Packet
  hold : Bool
  /-- the port it has failed over to -/
  moved : Option Nat
  deriving DecidableEq, Repr

/-- Counts that post a record once per epoch in which they advanced (09 R296, 12 R359, 13 R362, R369). -/
structure Tally where
  code : Nat
  source : Nat
  /-- whom it counts for, where SOURCE does not say -/
  key : Nat
  n : Nat
  beat : Nat
  fields : List (Nat × Nat)
  deriving DecidableEq, Repr

/-- The fabric's state. -/
structure Fabric where
  block : Option Nat
  links : SMap LinkSt
  /-- route banks: node number to the entry of Table 9; a node not listed is NONE -/
  bank0 : SMap (BitVec 64)
  bank1 : SMap (BitVec 64)
  /-- the active bank, which is also the active parity -/
  active : Bool
  lastSwitch : Option Nat
  conns : SMap Conn
  /-- packets of a cold-stopped package, held unacknowledged (14 R400) -/
  heldRx : List (Nat × Packet)
  deriving DecidableEq, Repr

/-! ### Power and cooling (14) -/

/-- A reason interval (14 Table 8). -/
structure Reason where
  reason : Nat
  kind : Nat
  unit : Nat
  events : Nat
  start : Nat
  stop : Nat
  maxDepth : Nat
  meanDepth : Nat
  seq : Nat
  deriving DecidableEq, Repr

/-- An accepted budget (14 R384). -/
structure Budget where
  watts : Nat
  start : Nat
  dur : Nat
  order : Nat
  deriving DecidableEq, Repr

/-- The settings of `power.cap` (14 Table 2), kept in module flash. -/
structure CapCfg where
  capW : Nat
  safeW : Nat
  freqMhz : Nat
  fallback : Nat
  stagger : Nat
  windowMask : Nat
  deriving DecidableEq, Repr

/-- The phases of a cold stop (14 R399, R401). -/
inductive ColdSt where
  | running
  | stopping (since : Nat)
  | halted (since haltBeat : Nat)
  deriving DecidableEq, Repr

/-- A telemetry sample (14 R405): its beat and its values. -/
structure Sample where
  beat : Nat
  vals : List Nat
  deriving DecidableEq, Repr

/-- Power state. -/
structure Power where
  budgets : List Budget
  lastAccept : Option Nat
  fallbackOn : Bool
  /-- cap in force, watts, and whether the rack input sets it -/
  cap : Nat
  capRack : Bool
  /-- watts of each die's share, and HBM's -/
  shares : List Nat
  hbmShare : Nat
  /-- clock steps of each die, 16-64 of 64; array duty in quarters; HBM slots open in 1/64 -/
  steps : List Nat
  duty : List Nat
  hbmSlots : Nat
  /-- request slots that the heat of each stack leaves open on its channels, of 64 (14 R397) -/
  stackSlots : List Nat
  /-- dies whose clock droop stretches, and stretches of the epoch -/
  droop : List Nat
  droopN : SMap Nat
  rampN : SMap Nat
  /-- failed phases: rail number * 64 + phase; true when its sense failed -/
  phases : SMap Bool
  /-- thermal limits in force: die 0-7, or 16 + stack -/
  hot : List Nat
  openR : List Reason
  closedR : List Reason
  nextR : Nat
  moduleMj : Nat
  unattrMj : Nat
  asOf : Nat
  /-- energy of each context, by number: the plot it was created in, and millijoules -/
  ctxMj : SMap (Nat × Nat)
  dieMj : List Nat
  hbmMj : Nat
  ioMj : Nat
  /-- PLDM sensors 1-14, 20 and 21 as last refreshed (12 R353) -/
  sensors : List Nat
  /-- temperatures last measured, by sensor: 0-7 dies, 8, 9 North and South, 10-25 stacks -/
  temps : List Nat
  samples : SMap Sample
  cold : ColdSt
  coolantOk : Bool
  coolantSince : Nat
  longestLow : Nat
  failed : Bool
  remoteAwaited : Nat
  /-- slots open for arrays leaving IDLE (14 R392) -/
  mask : Nat
  /-- PHASE_TAGs that the phase controller has learned, at most 256 (14 R388) -/
  learned : List Nat
  deriving DecidableEq, Repr

/-! ### Tests and suspects (15) -/

/-- The calendar of one kind of unit (15 Table 4), kept in module flash. -/
structure Calendar where
  enable : Bool
  concurrent : Nat
  interval : Nat
  maxDefer : Nat
  urgentDefer : Nat
  passes : Nat
  fails : Nat
  inconclusive : Nat
  deriving DecidableEq, Repr

/-- A suspect core (15 Table 7); STEP is kept in module flash. -/
structure Suspect where
  state : Nat
  step : Nat
  units : BitVec 8
  fails : Nat
  passesSince : Nat
  start : Nat
  stop : Nat
  lastPass : Nat
  ctxs : List Nat
  more : Bool
  /-- every failure so far named only array or conversion tags -/
  arrOnly : Bool
  /-- the interval of a mark (15 R419) is open -/
  isOpen : Bool
  deriving DecidableEq, Repr

/-- A pass deferred or under way (15 R410-R416): unit, when deferral began, whether urgent, when the unit left service,
tags of failures, whether a fresh digest stayed unresolved, largest stretch, temperature, beats waited. -/
structure Pass where
  due : Nat
  urgent : Bool
  start : Option Nat
  tags : BitVec 8
  unresolved : Bool
  stretch : Nat
  temp : Nat
  /-- beats for which operations of the core were outstanding after the force-park (03 R105) -/
  extra : Nat
  seed : Nat
  phase : Nat
  startKind : Nat
  /-- the other core of a pair -/
  partner : Option Nat
  /-- PACK_VERSION when the deferral began -/
  pack : Nat
  /-- the maximum deferral has ended, at this beat -/
  forced : Option Nat
  deriving DecidableEq, Repr

/-- Tests: calendars by KIND, due beats and passes by unit number, last PASS by core, suspects by core, packs. A unit is
numbered KIND * 2^16 + its UNIT code of 15 Table 3. -/
structure Health where
  cals : SMap Calendar
  dues : SMap Nat
  urgent : List Nat
  passes : SMap Pass
  lastPass : SMap Nat
  suspects : SMap Suspect
  packVersion : Nat
  packSince : Nat
  sweepUntil : Nat
  sweep : List (Nat × Nat)
  /-- postmark mismatches of an engine, and their beats (15 R419) -/
  engMis : SMap Nat
  /-- postmark mismatches of each channel (15 R419) -/
  chanMis : SMap Nat
  /-- partner of each core that is tested (15 R410); none: tested alone -/
  pairs : SMap (Option Nat)
  deriving DecidableEq, Repr

/-! ### Error records (15 R425-R428) -/

/-- A written record. -/
structure Rec where
  code : Nat
  flags : Nat
  source : Nat
  seq : Nat
  beat : Nat
  suppressed : Nat
  payload : List Byte
  deriving DecidableEq, Repr

/-- A source's window (R426): when it last wrote, how many records it has counted, and the latest of them. -/
structure Window where
  last : Nat
  n : Nat
  latest : Option Rec
  deriving DecidableEq, Repr

/-- A source's drops of a burst (R427). -/
structure Held where
  first : Rec
  latest : Rec
  n : Nat
  pend : Nat
  deriving DecidableEq, Repr

/-- A burst. -/
structure Burst where
  first : Nat
  last : Nat
  total : Nat
  held : SMap Held
  overflow : Nat
  deriving DecidableEq, Repr

/-- The error record ring and the flash log. -/
structure Log where
  ring : List Rec
  /-- records of SEQ below this have been copied to flash -/
  copied : Nat
  nextSeq : Nat
  windows : SMap Window
  burst : Option Burst
  flash : List Rec
  lastCopy : Nat
  tallies : List Tally
  deriving DecidableEq, Repr

/-! ### The step journal (16) -/

/-- A context's journal settings (16 R441): log2 of the entries, DET_FORCE, area, watches (node, base, bytes), next
JOURNAL_SEQ, and entries overwritten (lapped) this epoch. -/
structure StepJournal where
  k : Nat
  det : Bool
  area : Nat
  watches : List (Nat × Nat × Nat)
  seq : Nat
  lapped : Nat
  /-- beat of the latest of those -/
  lapBeat : Nat
  /-- number of this configuration -/
  gen : Nat
  deriving DecidableEq, Repr

/-- A replay under way (16 R444): launch, original launch and iteration, slot of the original entry, event, result. -/
structure Replay where
  launch : Nat
  ctx : Nat
  origSeq : Nat
  origIter : Nat
  orig : List Byte
  exclude : Bool
  event : Nat
  result : Nat
  deriving DecidableEq, Repr

/-! ### Bring-up, flash and pins (17, 18) -/

/-- An image slot pair: validity and version of A and B, the active slot (true: B), the slot running, and a slot to
activate at reset. -/
structure Slots where
  aValid : Bool
  aVersion : Nat
  bValid : Bool
  bVersion : Nat
  active : Bool
  running : Bool
  /-- the inactive slot declares the running image's journal format (13 R381) -/
  sameJournal : Bool
  deriving DecidableEq, Repr

/-- Module flash (17 Table 2): images, settings, suspect steps, retirement list. -/
structure Flash where
  polmen : Slots
  tordy : Slots
  cap : CapCfg
  cals : SMap Calendar
  steps : SMap Suspect
  coresOff : List Nat
  coresArrayOff : List Nat
  slices : List Nat
  channels : List Nat
  frames : List Nat
  lanes : SMap (BitVec 8)
  engines : List Nat
  phases : SMap Bool
  /-- version of the active test pack, 0 for none -/
  pack : Nat
  /-- STANDBY_BEATS at the last passing full test -/
  lastFull : Nat
  deriving DecidableEq, Repr

/-- Bring-up and the pins of J12. -/
structure Module where
  serial : Nat
  /-- ordering grade: 0 AX8-640, 1 AX8-600, 2 AX8-560 -/
  grade : Nat
  /-- 1 BRINGING_UP, 2 READY, 3 COLD_STOPPED (derived), 4 FAILED -/
  state : Nat
  step : Nat
  recovery : Bool
  readyBeat : Nat
  generation : Nat
  builtBeat : Nat
  memtest : Nat
  lastFullAge : Nat
  stepEnds : List Nat
  /-- STANDBY_BEATS, FULL_TEST_VALID, and whether one of the records of 17 R455 has been posted since the full test -/
  standbyBeats : Nat
  fullValid : Bool
  spoiled : Bool
  /-- beats of CK_AON since step 1 -/
  aonBeats : Nat
  p3v3 : Bool
  /-- the oscillator has started (18 R484) -/
  oscOk : Bool
  pwrEn : Bool
  modPg : Bool
  thermtrip : Bool
  inputGood : Bool
  uv : Bool
  refclk : Bool
  refLost : Nat
  slotPins : Nat
  slotId : Nat
  dispOut : List Nat
  /-- causes latched in the always-on domain for the next bring-up -/
  latchTherm : Option (Nat × Nat × Nat)
  /-- the THERMTRIP record of that cause is written -/
  thermTold : Bool
  latchOver : Option (Nat × Nat)
  latchPower : Option Nat
  /-- step 4 of bring-up waits for 10,000,000 beats of good flow (17 R459) -/
  coolWait : Bool
  /-- what the floor-plan report was last built from (17 R462), and its FULL count -/
  plan : List (List Nat)
  fullSeen : Nat
  deriving DecidableEq, Repr

end Sys2Proof.Machine
end

