-- ==== Sys2Proof/Machine/State.lean ====
section
/-! DEFINITION. The state of one AX8 module, the stops, and the state in which a module reset has just begun
(00 R9; 01 R29; 17 R447). -/

namespace Sys2Proof.Machine

/-- Everything but the queue, the Almanac and the lease latch. -/
structure Body where
  data : Data
  mg : Mgmt
  host : HostSt
  mgdb : MgDb
  fab : Fabric
  pw : Power
  hl : Health
  log : Log
  /-- step journals by context (16 R441) -/
  sj : SMap StepJournal
  replay : Option Replay
  flash : Flash
  md : Module
  deriving DecidableEq, Repr

/-- The machine's state. -/
structure State where
  /-- the commands that wait, first in, first out -/
  pending : List Instr
  alm : Almanac
  latch : Latch
  body : Body
  deriving DecidableEq, Repr

/-- Faults that stop the block. There is none: what the spec calls a fault parks a group, ends a descriptor or is
posted as a record, and the block goes on. -/
inductive Fault where
  deriving DecidableEq, Repr

/-- Refusals. Safe: the block does not go on. -/
inductive Refusal where
  /-- the arm of a command without a meaning; every command has one, so that no arm answers it -/
  | notModelled (mnemonic : String)
  deriving DecidableEq, Repr

/-- The Almanac at module reset: 0 in FREE (02 R43, Table 3). -/
def Almanac.reset : Almanac :=
  { beat := 0, st := .free, since := 0, mode := .follow, rootLost := false, priority := 0, ppsNext := 0,
    ppsSeen := false, ppsLast := 0, ppsGood := none, outliers := 0, rootSerial := 0, hops := 0, source := 255,
    offset := 0, slew := 0, slewFrom := 0, step := none, lateSeen := false, conflict := false, holdBound := 65535,
    srcBound := 65535, disciplined := 0, freqPpb := 0, srcs := [],
    listenFrom := 0 }

/-- The lease latch at step 2 of bring-up (17 Table 1). -/
def Latch.reset : Latch :=
  { holder := none, last := none, gen := 0, remaining := 0, fault := false, nDropped := 0, sDropped := 0 }

/-- The data plane with nothing created; halted until bring-up is done. -/
def Data.reset : Data :=
  { cores := [], coreSt := [], mem := [], bench := [], benchEpoch := [], lost := [], cellar := [], copies := [],
    fills := [], reqs := [], nextId := 1, channels := [], chanOut := [], rowErrs := [], framePend := [], frameOut := [],
    slices := [], dieOut := [], saveArea := [], dieBar := [], pkgBar := [], objs := [], hws := [], apertures := [], engines := [],
    ctxs := [], events := [], pigeons := [], graphs := [], launches := [], plots := [], node := 0, corrected := [],
    posts := [], retiring := [], ctxSeen := [], engOut := [], abortPend := [], irqs := [], halted := true, free := 0 }

/-- Postmasters off, journal empty, NEXT_SEQ UNSET, tickets from 1 (13 R364, R371; 02 R58). -/
def Mgmt.reset : Mgmt :=
  { nSt := .off, sSt := .off, halted := [], takeovers := 0, retries := 0, lastTakeover := 0, lastRenewal := 0,
    takeDue := false, handover := 0, nextJid := 0, journal := [], archive := [], accept := [], nextSeq := [], seqFrom := [],
    schedule := [], nextTicket := 1, nextOrder := 0, instant := [], upPolmen := none, upTordy := none, upPack := none }

/-- A function's registers at reset (12 Table 3): replies EMPTY, REPLY_VECTOR 0xFFF. -/
def FnRegs.reset : FnRegs :=
  { letters := [], replies := [], unmapped := 0, refused := 0, replyVector := 0xFFF, beatHigh := none, msix := [],
    pba := [], dropped := 0, gen := 0, inFlr := false }

/-- A host port in reset: PERST# asserted, VF_BAR2_LOG2 33, PF BAR2 1 GiB (12 Tables 1 and 3). -/
def HostPortSt.reset : HostPortSt :=
  { up := false, perst := true, rate := 0, width := 0, linkEvents := 0, vfEnable := false, vfBar2Log2 := 33,
    pfBar2Log2 := 30 }

def HostSt.reset : HostSt :=
  { ha := HostPortSt.reset, hb := HostPortSt.reset, fns := [], reqs := [], ops := [], out := [] }

def MgDb.reset : MgDb :=
  { dynAddr := none, eid := none, slots := [], unread := false, nonce := none, grants := 0, tap := 0, consoleIn := [] }

/-- A port that has not trained. -/
def LinkSt.reset : LinkSt :=
  { verdict := .noPeer, trained := false, lanes := 0, lost := 0, training := none, passSince := none, rxSeq := 0, txSeq := 0, txBuf := [],
    credits := [0, 0, 0, 0, 0, 0], waiting := [], surveyDue := false, replays := 0, peerNode := 0, peerPos := 0, peerPort := 0, peerSerial := 0, delayNs := 0, events := 0, discards := 0,
    cable := true, cablePower := false }

def Fabric.reset : Fabric :=
  { block := none, links := [], bank0 := [], bank1 := [], active := false, lastSwitch := none, conns := [], heldRx := [] }

/-- The settings of a module that has never received `power.cap` (14 Table 2). -/
def CapCfg.default : CapCfg :=
  { capW := 2000, safeW := 1400, freqMhz := 0, fallback := 5000000, stagger := 1, windowMask := 0 }

/-- Power at module reset: the safe cap (14 R384); shares of the starting division scaled to it (R387, R389). -/
def Power.reset : Power :=
  { budgets := [], lastAccept := none, fallbackOn := false, cap := 1400, capRack := true,
    shares := [105, 105, 105, 105, 105, 105, 105, 105], hbmShare := 245, steps := [64, 64, 64, 64, 64, 64, 64, 64],
    duty := [4, 4, 4, 4, 4, 4, 4, 4], hbmSlots := 64, stackSlots := [64, 64, 64, 64, 64, 64, 64, 64, 64, 64, 64, 64, 64, 64, 64, 64], droop := [], droopN := [], rampN := [], phases := [], hot := [],
    openR := [], closedR := [], nextR := 0, moduleMj := 0, unattrMj := 0, asOf := 0, ctxMj := [],
    dieMj := [0, 0, 0, 0, 0, 0, 0, 0], hbmMj := 0, ioMj := 0, sensors := [0, 48, 0, 0, 0, 0, 0, 0, 0, 0, 0, 0, 0, 1400, 0, 0], temps := [],
    samples := [], cold := .running, coolantOk := true, coolantSince := 0, longestLow := 0,
    failed := false, remoteAwaited := 0, mask := 0x3FF, learned := [] }

/-- The calendar of a module that has never received SET (15 Tables 1 and 4). -/
def Calendar.default (kind : Nat) : Calendar :=
  { enable := true, concurrent := if kind = 1 then 1 else 0,
    interval := if kind = 3 then 86400000000 else 14400000000, maxDefer := 1800000000, urgentDefer := 60000000,
    passes := 0, fails := 0, inconclusive := 0 }

def Calendar.all : SMap Calendar :=
  [(1, Calendar.default 1), (2, Calendar.default 2), (3, Calendar.default 3), (4, Calendar.default 4)]

def Health.reset : Health :=
  { cals := Calendar.all, dues := [], urgent := [], passes := [], lastPass := [], suspects := [], packVersion := 0,
    packSince := 0, sweepUntil := 0, sweep := [], engMis := [], chanMis := [], pairs := [] }

def Log.reset : Log :=
  { ring := [], copied := 0, nextSeq := 0, windows := [], burst := none, flash := [], lastCopy := 0, tallies := [] }

/-- Module flash as the model takes a new module to hold it: slot A of each component valid and active, slot B empty. -/
def Slots.factory : Slots :=
  { aValid := true, aVersion := 1, bValid := false, bVersion := 0, active := false, running := false,
    sameJournal := true }

def Flash.factory : Flash :=
  { polmen := Slots.factory, tordy := Slots.factory, cap := CapCfg.default, cals := Calendar.all, steps := [],
    coresOff := [], coresArrayOff := [], slices := [], channels := [], frames := [], lanes := [], engines := [],
    phases := [], pack := 0, lastFull := 0 }

/-- The module at the rising edge of MOD_PWR_EN: step 1 of bring-up, supplies, reference and coolant present. -/
def Module.reset : Module :=
  { serial := 0x80001, grade := 0, state := 1, step := 1, recovery := false, readyBeat := 0, generation := 0,
    builtBeat := 0, memtest := 0, lastFullAge := 0, stepEnds := [], standbyBeats := 0, fullValid := false,
    spoiled := false, aonBeats := 0, p3v3 := true, oscOk := true, pwrEn := true, modPg := false, thermtrip := false,
    inputGood := true, uv := false, refclk := true, refLost := 0, slotPins := 0, slotId := 0,
    dispOut := [], latchTherm := none, thermTold := false, latchOver := none, latchPower := none, coolWait := false, plan := [], fullSeen := 672 }

def Body.reset : Body :=
  { data := Data.reset, mg := Mgmt.reset, host := HostSt.reset, mgdb := MgDb.reset, fab := Fabric.reset,
    pw := Power.reset, hl := Health.reset, log := Log.reset, sj := [], replay := none, flash := Flash.factory,
    md := Module.reset }

/-- A module reset has just begun, with no command waiting (17 R447, R448). -/
def State.reset : State := { pending := [], alm := Almanac.reset, latch := Latch.reset, body := Body.reset }

end Sys2Proof.Machine
end

