-- ==== Sys2Proof/Machine/Journal.lean ====
section
/-! DEFINITION. The end of an iteration and of a launch: the step journal's entry and digests, replays, and the launch
record (10 R313, R314; 16 R441-R446). -/

namespace Sys2Proof.Machine

/-! ### Digests (07 R228; 16 R443) -/

/-- SUM and WSUM over words, counted from word number `k`. -/
def sumWords : Nat → List Byte → W32 × W32
  | k, a :: b :: c :: e :: r =>
    let w := BitVec.ofNat 32 (leNat [a, b, c, e])
    let (s, t) := sumWords (k + 1) r
    (w + s, BitVec.ofNat 32 (k + 1) * w + t)
  | _, _ => (0, 0)

/-- The postmark of a tile's bytes. -/
def markOf (l : List Byte) : W32 × W32 := sumWords 0 l

/-- Digest of `n` tiles from offset `a` of a plot, the first being number `t`: none where a line is lost. -/
def digestTiles (d : Data) (plot a t : Nat) : Nat → Option (W32 × W32)
  | 0 => some (0, 0)
  | n + 1 =>
    (d.devRead plot ((a + 4096 * t) % 2 ^ 40) 4096).bind fun l =>
      (digestTiles d plot a (t + 1) n).map fun r =>
        ((markOf l).1 + r.1, BitVec.ofNat 32 (t + 1) * (markOf l).2 + r.2)

/-- Digest of a watched range, as it is stored. A lost line leaves it open. -/
def digestOf (d : Data) (plot base bytes : Nat) : W64 :=
  match digestTiles d plot base 0 (bytes / 4096) with
  | some (s, w) => BitVec.ofNat 64 (s.toNat + 2 ^ 32 * w.toNat)
  | none => BitVec.ofNat 64 ((Config.freeWord d.free).toNat + 2 ^ 32 * (Config.freeWord (d.free + 1)).toNat)

/-- The journal settings that a launch runs under. -/
def Body.journalOf (b : Body) (l : Launch) : Option StepJournal :=
  (mget b.sj l.ctx).bind fun j => if l.jgen = some j.gen then some j else none

/-- Watches of a launch whose node has completed or been disabled and whose digest is not yet taken. -/
def Body.digestsDue (b : Body) (l : Launch) : List (Nat × Nat) :=
  match b.journalOf l with
  | none => []
  | some j => (j.watches.zipIdx).filterMap fun w =>
    match mget l.nodes w.1.1 with
    | some n => if (n.st = .done ∨ n.st = .disabled) ∧ (l.digests.all fun x => x.1 != w.2) then some (w.1.1, w.2) else none
    | none => none

/-! ### Entries (Table 5) -/

/-- 10 R308: where the snapshot of node `n` lies. -/
def snapAddr (g : Graph) (bank n : Nat) : Nat := g.snap + 256 * (g.nodes.length * bank + n)

/-- Tuples of COLL_HASH in ascending COLL_ID, then set CRC. -/
def insColl (x : Nat × Nat × Nat × Nat × Bool) : List (Nat × Nat × Nat × Nat × Bool) → List (Nat × Nat × Nat × Nat × Bool)
  | [] => [x]
  | y :: l => if x.1 < y.1 ∨ (x.1 = y.1 ∧ x.2.1 < y.2.1) then x :: y :: l else y :: insColl x l

/-- The 128-byte header of an entry. -/
def entryHead (l : Launch) (status seq beat : Nat) (det : Bool) (sum wsum : Nat) : List Byte :=
  let colls := l.colls.foldl (fun a x => insColl x a) []
  let hash := crc32 (colls.flatMap fun x => natLe 4 x.1 ++ natLe 4 x.2.1 ++ natLe 4 x.2.2.1 ++ natLe 4 x.2.2.2.1)
  natLe 8 l.seq ++ natLe 2 l.iter ++ natLe 2 l.graph ++ natLe 1 status ++
    natLe 1 ((if det then 1 else 0) + if l.replay then 2 else 0) ++ natLe 2 0 ++ natLe 8 seq ++ natLe 8 l.itBeat ++ natLe 8 beat ++
    natLe 8 ((l.digests.map fun x => 2 ^ x.1).sum) ++ natLe 4 sum ++ natLe 4 wsum ++ natLe 4 colls.length ++ natLe 4 hash ++
    natLe 4 (colls.filter fun x => x.2.2.2.2).length ++ natLe 4 (l.nan - l.itNan) ++ natLe 4 (l.sat - l.itSat) ++
    natLe 4 (l.faults - l.itFaults) ++ List.replicate 48 0

/-- All 640 bytes. -/
def entryBytes (l : Launch) (status seq beat : Nat) (det : Bool) (sum wsum : Nat) : List Byte :=
  entryHead l status seq beat det sum wsum ++
    (List.range 64).flatMap fun w => natLe 8 (((l.digests.find? fun x => x.1 == w).map fun x => x.2.toNat).getD 0)

/-- Status of a launch as its last iteration leaves it. -/
def Launch.status (l : Launch) : Nat := if l.aborted then 3 else if l.failedNode.isSome then 1 else 0

/-- SUM and WSUM over the snapshots of every node. -/
def slipSums (d : Data) (l : Launch) : Data × W32 × W32 :=
  match mget d.graphs l.graph with
  | none => (d, 0, 0)
  | some g =>
    let a := snapAddr g l.bank 0
    match d.sBytes l.ctx 7 a (256 * g.nodes.length) with
    | (d, some bytes) => (d, (sumWords 0 bytes).1, (sumWords 0 bytes).2)
    | (d, none) =>
      ({ d with free := d.free + 2 }, Config.freeWord d.free, Config.freeWord (d.free + 1))

/-- 16 R443: the journal entry of an iteration that has ended; the entry is given back. -/
def Body.journalEntry (b : Body) (l : Launch) (beat : Nat) : Body × Option (List Byte) :=
  match b.journalOf l with
  | none => (b, none)
  | some j =>
    let (d, s, w) := slipSums b.data l
    let e := entryBytes l l.status j.seq beat (j.det || l.replay) s.toNat w.toNat
    let d := d.sWrite l.ctx 8 (j.area + 640 * (j.seq % 2 ^ j.k)) e
    ({ b with
      data := d
      sj := mput b.sj l.ctx { j with seq := j.seq + 1, lapped := if 2 ^ j.k ≤ j.seq then j.lapped + 1 else j.lapped, lapBeat := if 2 ^ j.k ≤ j.seq then beat else j.lapBeat } }, some e)

/-! ### Replays (R444, R445) -/

/-- Watches with a digest in both entries whose digests differ. -/
def divergedMask (o r : List Byte) : List Nat :=
  (List.range 64).filter fun w =>
    field o 40 8 / 2 ^ w % 2 == 1 && field r 40 8 / 2 ^ w % 2 == 1 && field o (128 + 8 * w) 8 != field r (128 + 8 * w) 8

/-- The watch of the lowest node. -/
def firstWatch (watches : List (Nat × Nat × Nat)) (ws : List Nat) : Option (Nat × Nat) :=
  ws.foldl (fun (b : Option (Nat × Nat)) w =>
    let n := ((watches[w]?).map fun x => x.1).getD 0
    match b with
    | none => some (w, n)
    | some (_, m) => if n < m then some (w, n) else b) none

/-- FLAGS of Table 7. -/
def replayFlags (o r : List Byte) (ws : List Nat) : Nat :=
  (if ws = [] then 0 else 1) + (if field o 48 8 = field r 48 8 then 0 else 2) + (if field o 56 8 = field r 56 8 then 0 else 4) +
    if field o 64 4 = 0 then 0 else 8

/-- Table 7. -/
def replayRecord (l : Launch) (beat : Nat) (o r : List Byte) (watches : List (Nat × Nat × Nat)) : List Byte :=
  let ws := divergedMask o r
  let fw := firstWatch watches ws
  natLe 2 l.status ++ natLe 1 (replayFlags o r ws) ++ natLe 1 ((fw.map fun x => x.1).getD 255) ++
    natLe 4 ((fw.map fun x => x.2).getD 0xFFFFFFFF) ++ natLe 8 ((ws.map fun w => 2 ^ w).sum) ++ natLe 8 l.seq ++
    natLe 8 ((fw.map fun x => field o (128 + 8 * x.1) 8).getD 0) ++ natLe 8 ((fw.map fun x => field r (128 + 8 * x.1) 8).getD 0) ++
    natLe 8 l.itBeat ++ natLe 8 beat ++ natLe 8 0

/-- The entry that a replay compares where its settings have gone since it began: no watch has a digest, and nothing is
written to the journal. -/
def Body.bareEntry (b : Body) (l : Launch) (beat : Nat) : Body × List Byte :=
  let (d, s, w) := slipSums b.data l
  ({ b with data := d }, entryBytes { l with digests := [] } l.status 0 beat true s.toNat w.toNat)

/-- The result record of a replay, its event, and REPLAY_DONE. -/
def Body.replayEnd (b : Body) (l : Launch) (beat : Nat) (e : Option (List Byte)) : Body :=
  match b.replay with
  | none => b
  | some x =>
    if l.replay then
      let (b, e) := match e with
        | some e => (b, e)
        | none => b.bareEntry l beat
      let watches := ((mget b.sj l.ctx).map fun j => j.watches).getD []
      let ws := divergedMask x.orig e
      let fw := firstWatch watches ws
      let d := b.data.sWrite l.ctx 6 x.result (replayRecord l beat x.orig e watches)
      let d := d.eventAdd x.event 1
      let d := d.post 0x0901 0 [(l.ctx, 0), (x.origSeq, 0), (l.seq, 0), (replayFlags x.orig e ws, 0), ((fw.map fun y => y.2).getD 0xFFFFFFFF, 0)]
      { b with data := d, replay := none }
    else b

/-! ### Settling -/

/-- 10 R313: the iteration of a launch has ended. -/
def Body.iterOver (b : Body) (l : Launch) : Bool :=
  l.open_ && (l.nodes.all fun n => nodeFinal n.2) && (l.aborted || (b.digestsDue l).isEmpty)

/-- What follows when a launch's iteration has ended or the launch was aborted between iterations. While `hold`, the mark of
a journaled launch waits for actions due at the same beat (02 R55). -/
def Body.settle (b : Body) (hold : Bool) (id beat : Nat) : Body :=
  match mget b.data.launches id with
  | none => b
  | some l =>
    if hold && (b.journalOf l).isSome then b
    else if b.iterOver l then
      let (b, e) := b.journalEntry l beat
      let b := { b with data := b.data.settle id beat }
      b.replayEnd l beat e
    else if !l.open_ && l.aborted then ({ b with data := b.data.settle id beat }).replayEnd l beat none
    else b

/-- Aborts that fell due, and the ends they bring, three times over: an access of an end may itself meet a lost
line. The journal of a context that is gone goes with it. -/
def Body.settleAll (b : Body) (hold : Bool) (beat : Nat) : Body :=
  let go (b : Body) : Body :=
    let b := { b with data := b.data.runAborts }
    b.data.launches.foldl (fun b e => b.settle hold e.1 beat) b
  let b := go (go (go b))
  { b with sj := mfilter b.sj fun c _ => (mget b.data.ctxs c).isSome }

end Sys2Proof.Machine
end

