-- ==== Sys2Proof/Machine/Records.lean ====
section
/-! DEFINITION. The error record ring, its windows and bursts, the flash log, and interrupts to the host
(15 R425-R428, R494; 10 R316; 12). -/

namespace Sys2Proof.Machine

/-- The payload of a record: its fields in order, or, where its table gives no offsets, a layout the spec leaves open;
at most 64 bytes. -/
def payloadOf (p : Post) : List Byte :=
  (if p.fields.any fun f => f.2 == 0 then Config.recordLayout p.code (p.fields.map fun f => f.1)
  else p.fields.flatMap fun f => natLe f.2 f.1).take 64

/-- A source: one CODE with one SOURCE. -/
def srcKey (code source : Nat) : Nat := code * 2 ^ 32 + source

/-- Records of the ring not yet copied to flash. -/
def Log.uncopied (l : Log) : Nat := (l.ring.filter fun r => decide (l.copied ≤ r.seq)).length

/-- Write a record: it takes the next SEQ and opens its source's window (R425, R426). -/
def Log.write (l : Log) (now : Nat) (r : Rec) : Log :=
  let ring := l.ring ++ [{ r with seq := l.nextSeq }]
  { l with
    ring := ring.drop (ring.length - 4096)
    nextSeq := l.nextSeq + 1
    windows := mput l.windows (srcKey r.code r.source) { last := now, n := 0, latest := none } }

/-- A record dropped by a burst (R427). -/
def Log.drop (l : Log) (r : Rec) : Log :=
  let k := srcKey r.code r.source
  let b : Burst := l.burst.getD { first := r.beat, last := r.beat, total := 0, held := [], overflow := 0 }
  let pend := ((mget l.windows k).map fun w => w.n).getD 0
  let b := { b with last := r.beat, total := b.total + 1 }
  match mget b.held k with
  | some h => { l with burst := some { b with held := mput b.held k { h with latest := r, n := h.n + 1 } } }
  | none =>
    if b.held.length < 128 then
      { l with
        burst := some { b with held := mput b.held k { first := r, latest := r, n := 1, pend := pend } }
        windows := mmod l.windows k fun w => { w with n := 0, latest := none } }
    else { l with burst := some { b with overflow := b.overflow + 1 } }

/-- A record arrives (R426, R427). -/
def Log.arrive (l : Log) (now : Nat) (r : Rec) : Log :=
  if l.burst.isSome ∨ 4096 ≤ l.uncopied then l.drop r
  else
    match mget l.windows (srcKey r.code r.source) with
    | some w =>
      if now < w.last + 1000 ∨ 0 < w.n then
        { l with windows := mput l.windows (srcKey r.code r.source) { w with n := w.n + 1, latest := some r } }
      else l.write now r
    | none => l.write now r

/-- The record of a post; UV marks one posted after an undervoltage warning (R433). -/
def recOfPost (beat : Nat) (uv : Bool) (p : Post) : Rec :=
  { code := p.code, flags := if uv then 2 else 0, source := p.unit, seq := 0, beat := beat, suppressed := 0,
    payload := payloadOf p }

/-- Codes that keep step 7 of the next bring-up from running the short test (17 R455). -/
def spoils (code : Nat) : Bool := code == 0x0202 || code == 0x0204 || code == 0x0604

/-! ### Functions and interrupts -/

/-- Number of a function. -/
def fnKey (f : Fn) : Nat :=
  match f with
  | .pf .ha => 0
  | .pf .hb => 1
  | .vf .ha n => 64 + n
  | .vf .hb n => 128 + n

def fnPort (f : Fn) : HostPort :=
  match f with
  | .pf p | .vf p _ => p

def fnStamp (f : Fn) : Nat :=
  match f with
  | .pf .ha => 1
  | .pf .hb => 2
  | .vf _ n => 0x40 + n

def HostSt.port (h : HostSt) (p : HostPort) : HostPortSt :=
  match p with
  | .ha => h.ha
  | .hb => h.hb

def HostSt.setPort (h : HostSt) (p : HostPort) (x : HostPortSt) : HostSt :=
  match p with
  | .ha => { h with ha := x }
  | .hb => { h with hb := x }

def HostSt.fn (h : HostSt) (f : Fn) : FnRegs := mgetD h.fns (fnKey f) FnRegs.reset

def HostSt.setFn (h : HostSt) (f : Fn) (r : FnRegs) : HostSt := { h with fns := mput h.fns (fnKey f) r }

def HostSt.emit (h : HostSt) (o : Output) : HostSt := { h with out := h.out ++ [o] }

/-- The function is reachable: its link is up, and for a VF, VF Enable is set (12 R343, Table 5). -/
def HostSt.live (h : HostSt) (f : Fn) : Bool :=
  (h.port (fnPort f)).up && match f with
    | .pf _ => true
    | .vf p _ => (h.port p).vfEnable && !(h.fn f).inFlr

/-- Send an MSI-X message: not while the function is unreachable (12 Table 5); a masked vector sets its pending bit. -/
def HostSt.msix (h : HostSt) (f : Fn) (v : Nat) : HostSt :=
  if h.live f then
    let r := h.fn f
    if (mgetD r.msix (16 * v + 12) 1).getLsbD 0 then h.setFn f { r with pba := sadd r.pba v }
    else h.emit (.msix f v)
  else h

/-- The function that carries a plot's interrupts: its VF, or the PF of HA for a plot without one (11 R333, R334). -/
def plotFn (d : Data) (plot : Nat) : Fn :=
  match (mget d.plots plot).bind fun p => p.vf with
  | some (hb, n) => .vf (if hb then .hb else .ha) n
  | none => .pf .ha

def HostOpKind.isRead (k : HostOpKind) : Bool :=
  match k with
  | .read | .window _ => true
  | _ => false

def HostOpKind.isLetter (k : HostOpKind) : Bool :=
  match k with
  | .letter _ => true
  | _ => false

/-- A request waits behind what its function asked for before: reads and rings do not pass writes or rings (08 R250, R255; 13 R362),
rings of letters keep their order, and a write waits for nothing but its own parts. -/
def HostOp.waits (o : HostOp) (before : List HostOp) : Bool :=
  match o.kind with
  | .write _ => false
  | .letter _ => before.any fun x => x.fn == o.fn && !x.kind.isRead
  | _ => before.any fun x => x.fn == o.fn && !x.kind.isRead && !x.kind.isLetter

/-- Requests of functions that go are void; the parts of a write go on to their homes. -/
def HostSt.dropOps (h : HostSt) (gone : Fn → Bool) : HostSt :=
  { h with ops := h.ops.filter fun o => !gone o.fn || match o.kind with
      | .write _ => true
      | _ => false }

def Body.post (b : Body) (code unit : Nat) (fields : List (Nat × Nat)) : Body :=
  { b with data := b.data.post code unit fields }

/-! ### Flush -/

/-- Count `n` events of a counter that posts one record per epoch (15 R425): one counter for each code, source and key. A width of
100 + k stands for the count, in k bytes. -/
def Log.tallyFor (l : Log) (now code source key n : Nat) (fields : List (Nat × Nat)) : Log :=
  let same (t : Tally) : Bool := t.code == code && t.source == source && t.key == key
  let old := l.tallies.find? same
  { l with tallies := (l.tallies.filter fun t => !same t) ++
      [{ code := code, source := source, key := key, n := ((old.map fun t => t.n).getD 0) + n, beat := now, fields := fields }] }

/-- Count one event of a source's counter. -/
def Log.tally (l : Log) (now code source : Nat) (fields : List (Nat × Nat)) : Log := l.tallyFor now code source 0 1 fields

/-- Hand every record and interrupt of the data plane on. Records wait while no Postmaster holds the lease. -/
def State.flush (s : State) : State :=
  let b := s.body
  let h := b.data.irqs.foldl (fun (h : HostSt) i => h.msix (plotFn b.data i.1) i.2) b.host
  if s.latch.holder.isNone && !s.latch.fault then
    { s with body := { b with data := { b.data with irqs := [] }, host := h } }
  else
    { s with body := { b with
      data := { b.data with irqs := [], posts := [] }
      host := h
      log := b.data.posts.foldl (fun (l : Log) p => l.arrive s.alm.beat (recOfPost (p.beat.getD s.alm.beat) b.md.uv p)) b.log
      md := if (b.data.posts.any fun p => spoils p.code) && !(b.md.state == 1 && b.md.step == 8 && b.md.memtest == 1) then
          { b.md with spoiled := true }
        else b.md } }

/-! ### The floor plan's parts (17 R461, R462; 15 R432) -/

def coreCount (d : Data) (st : CoreState) : Nat := ((List.range 672).filter fun c => d.coreState c == st).length

/-- Guaranteed FULL cores of a grade, which is also its grade code (00 R3, Table 1). -/
def gradeFull (g : Nat) : Nat := if g = 0 then 640 else if g = 1 then 600 else 560

/-- A slice is in service: neither out nor on a die out of service. -/
def sliceUp (d : Data) (k : Nat) : Bool := !d.dieOut.contains (k / 56) && mgetD d.slices k .inService != .out

def chanUp (d : Data) (n : Nat) : Bool := !d.dieOut.contains (n / 64) && !d.chanOut.contains n

def engUp (d : Data) (n : Nat) : Bool :=
  !d.engOut.contains n && !d.dieOut.contains (if n < 128 then n / 16 else if n < 136 then 8 else 9)

/-- Retired or pending frames in channels in service, as channel * 16384 + frame, ascending by their FRAMES entry. -/
def planFrames (d : Data) : List Nat :=
  ((d.framePend.foldl sadd d.frameOut).filter fun f => chanUp d (f / 16384)).foldr insertAsc []

/-- What the floor-plan report is built from. -/
def Body.planParts (b : Body) : List (List Nat) :=
  let d := b.data
  [d.coreSt.map (fun e => 4 * e.1 + match e.2 with
      | .full => 2
      | .arrayOff => 1
      | .off => 0),
    d.dieOut, (d.slices.filter fun e => e.2 == SliceState.out).map (fun e => e.1), d.chanOut, d.framePend, d.frameOut, d.engOut,
    b.fab.links.map (fun l => 256 * l.1 + l.2.lost.toNat), b.md.dispOut]

/-- The retirement list only grows (17 R458). -/
def Flash.retire (f : Flash) (d : Data) (fab : Fabric) : Flash :=
  let st (x : CoreState) := (d.coreSt.filter fun e => e.2 == x).map fun e => e.1
  let outs := (d.slices.filter fun e => e.2 == SliceState.out).map fun e => e.1
  { f with
    coresOff := (st .off).foldl sadd f.coresOff
    coresArrayOff := (st .arrayOff).foldl sadd f.coresArrayOff
    slices := outs.foldl sadd f.slices
    channels := d.chanOut.foldl sadd f.channels
    frames := d.frameOut.foldl sadd f.frames
    engines := d.engOut.foldl sadd f.engines
    lanes := fab.links.foldl (fun (m : SMap (BitVec 8)) l => cput 0 m l.1 (mgetD m l.1 0 ||| l.2.lost)) f.lanes }

/-! ### Units (15 Table 3) -/

/-- The number of a unit from its KIND and UNIT (15 Table 3). -/
def unitNo (kind code : Nat) : Nat := kind * 2 ^ 16 + code

def unitCode (u : PassUnit) : Nat :=
  match u with
  | .core c => c / 84 + 16 * (c % 84 / 12) + 256 * (c % 12)
  | .slice d s => d + 256 * s
  | .runner k => k
  | .engine (.courier d i) => d + 256 * i
  | .engine (.gleaner d i) => d + 16 + 256 * i
  | .engine (.relay so i) => (if so then 9 else 8) + 32 + 256 * i

def unitKind (u : PassUnit) : Nat :=
  match u with
  | .core _ => 1
  | .slice _ _ => 2
  | .runner _ => 3
  | .engine _ => 4

def unitKey (u : PassUnit) : Nat := unitNo (unitKind u) (unitCode u)

/-- A core index from a UNIT code. -/
def coreOfUnit (u : Nat) : Nat := 84 * (u % 16) + 12 * (u / 16 % 16) + u / 256 % 16

/-- The unit of a key. -/
def unitOfKey (k : Nat) : PassUnit :=
  let u := k % 2 ^ 16
  match k / 2 ^ 16 with
  | 1 => .core (coreOfUnit u)
  | 2 => .slice (u % 256) (u / 256)
  | 3 => .runner u
  | _ => .engine (match u / 16 % 16 with
    | 0 => .courier (u % 16) (u / 256)
    | 1 => .gleaner (u % 16) (u / 256)
    | _ => .relay (u % 16 == 9) (u / 256))

/-! ### Pairs (15 R410) -/

/-- Pair a list's elements two by two; what is left over. -/
def pairUp : List Nat → List (Nat × Option Nat) × Option Nat
  | a :: b :: l =>
    let (m, r) := pairUp l
    ((a, some b) :: (b, some a) :: m, r)
  | [a] => ([], some a)
  | [] => ([], none)

/-- The cores of a die in a state that are tested, ascending. -/
def testable (d : Data) (die : Nat) (st : CoreState) : List Nat :=
  ((List.range 84).map fun i => 84 * die + i).filter fun c => d.coreState c == st && (mget d.retiring c).isNone

/-- The pairs of a die's cores in one state. -/
def diePairs (d : Data) (die : Nat) (st : CoreState) : List (Nat × Option Nat) :=
  let cs := testable d die st
  let firsts := (cs.filter fun c => cs.contains (c ^^^ 1)).map fun c => (c, some (c ^^^ 1))
  let (more, left) := pairUp (cs.filter fun c => !cs.contains (c ^^^ 1))
  firsts ++ more ++ match left with
    | none => []
    | some x => match cs.find? fun c => c != x with
      | some y => [(x, some y)]
      | none => [(x, (List.range 8).findSome? fun e => if e = die then none else (testable d e st).head?)]

/-- STATE of a suspect core once it has been retired (15 Table 7). -/
def Suspect.retired (x : Suspect) (d : Data) (c : Nat) : Suspect :=
  if x.state = 3 ∧ (mget d.retiring c).isNone then { x with state := if d.coreState c = .arrayOff then 4 else 5 } else x

def pairsOf (d : Data) : SMap (Option Nat) :=
  ((List.range 8).flatMap fun i => diePairs d i .full ++ diePairs d i .arrayOff).foldl (fun (m : SMap (Option Nat)) p => mput m p.1 p.2) []

/-- A change of the report increments GENERATION; GRADE_SHORTFALL when the FULL count falls below the grade's. -/
def Body.replan (b : Body) (beat : Nat) : Body :=
  let parts := b.planParts
  if parts = b.md.plan then b
  else
    let full := coreCount b.data .full
    let md : Module := { b.md with plan := parts, fullSeen := full }
    let md : Module := if md.state = 2 then { md with generation := md.generation + 1, builtBeat := beat } else md
    let short := decide (gradeFull md.grade ≤ b.md.fullSeen) && decide (full < gradeFull md.grade)
    let flash := b.flash.retire b.data b.fab
    let hl := { b.hl with pairs := pairsOf b.data, suspects := mmap b.hl.suspects fun c x => x.retired b.data c }
    let b := { b with md := md, flash := flash, hl := hl }
    if short then b.post 0x070A 0 [(gradeFull md.grade, 0), (full, 0)] else b

/-- Some Postmaster holds the lease and the gate lets its writes pass (13 R369, R370). -/
def State.gate (s : State) : Bool := s.latch.holder.isSome && !s.latch.fault

/-- The lease holder acts: not in a takeover or handover, its Postmaster running (13 R371-R374). In recovery the boot ROM
answers in its place (17 R452). -/
def State.acting (s : State) : Bool :=
  s.body.md.recovery || s.gate && !s.body.mg.takeDue && s.body.mg.handover == 0 &&
    ((s.latch.holder == some .north && s.body.mg.nSt == .holder) || (s.latch.holder == some .south && s.body.mg.sSt == .holder))
    && !(s.body.mg.halted.any fun x => s.latch.holder == some x)

/-- An action due at this beat or before goes before step journal marks (02 R55): hardware-armed ones but in LATCH_FAULT, the
others when the lease holder acts. -/
def State.marksWait (s : State) : Bool :=
  s.body.mg.schedule.any fun e => decide (e.beat ≤ s.alm.beat) && match e.kind with
    | .sample _ => false
    | .budget .. | .routes _ => !s.latch.fault
    | _ => s.acting

/-- The end of a command: aborts that fell due (11 R495) and iterations that have ended (10 R313), records stamped with
the beat, all handed on. -/
def State.finish (s : State) : State :=
  let b := (s.body.settleAll s.marksWait s.alm.beat).replan s.alm.beat
  let d := { b.data with
    posts := b.data.posts.map fun p => { p with beat := some (p.beat.getD s.alm.beat) }
    corrected := mmap b.data.corrected fun _ c => (c.1, some (c.2.getD s.alm.beat)) }
  { s with body := { b with data := d } }.flush

/-- A command that changes the state by `f`. -/
def State.run (s : State) (f : State → State) : Host.Outcome State Fault Refusal := .next (f s.finish).finish

/-- A command that changes the body by `f`, given the beat. -/
def State.runB (s : State) (f : Nat → Body → Body) : Host.Outcome State Fault Refusal :=
  s.run fun s => { s with body := f s.alm.beat s.body }

/-- A command that changes the data plane by `f`, given the beat. -/
def State.runD (s : State) (f : Nat → Data → Data) : Host.Outcome State Fault Refusal :=
  s.runB fun n b => { b with data := f n b.data }

def State.post (s : State) (code unit : Nat) (fields : List (Nat × Nat)) : State :=
  { s with body := { s.body with data := s.body.data.post code unit fields } }

/-! ### Commands -/

/-- RECORD_WINDOW_EXPIRY (15 R426): the latest record counted is written, SUPPRESSED the number of the others. -/
def execRecordWindowExpiry (code kind unit : Nat) (s : State) : Host.Outcome State Fault Refusal :=
  s.run fun s =>
    let l := s.body.log
    let k := srcKey code (kind + 256 * unit)
    match mget l.windows k with
    | some w =>
      match w.latest with
      | some r =>
        if w.last + 1000 ≤ s.alm.beat ∧ l.burst.isNone then
          let r := { r with suppressed := w.n - 1 }
          let rest := { l with windows := mput l.windows k { w with n := w.n - 1 } }
          let l' := if 4096 ≤ l.uncopied then rest.drop r else l.write s.alm.beat r
          { s with body := { s.body with log := l' } }
        else s
      | none => s
    | none => s

/-- A record put into a list in order of beats. -/
def insertRec (r : Rec) : List Rec → List Rec
  | [] => [r]
  | q :: qs => if r.beat < q.beat then r :: q :: qs else q :: insertRec r qs

/-- The held records of a source, HELD set (R427). -/
def heldRecs (h : Held) : List Rec :=
  let flag (r : Rec) (n : Nat) : Rec := { r with flags := r.flags ||| 1, suppressed := n }
  if h.n = 1 then [flag h.first h.pend] else [flag h.first h.pend, flag h.latest (h.n - 2)]

/-- RECORD_BURST_END (15 R427): once 64 slots are free, DROP_SUMMARY and then the held records in order of beats. -/
def execRecordBurstEnd (s : State) : Host.Outcome State Fault Refusal :=
  s.run fun s =>
    let l := s.body.log
    match l.burst with
    | some b =>
      if l.uncopied + 64 ≤ 4096 then
        let sum : Rec := recOfPost s.alm.beat s.body.md.uv
          { code := 0x0707, unit := 0, fields := [(b.first, 8), (b.last, 8), (b.total, 4), (b.held.length, 2), (0, 2), (b.overflow, 4), (0, 4)], beat := none }
        let recs := (b.held.flatMap fun h => heldRecs h.2).foldl (fun a r => insertRec r a) []
        let l := ({ l with burst := none }).write s.alm.beat sum
        { s with body := { s.body with log := recs.foldl (fun (l : Log) r => l.write s.alm.beat r) l } }
      else s
    | none => s

/-- FLASH_LOG_COPY (15 R428): every 100,000 beats, the records written since the last copy. -/
def execFlashLogCopy (s : State) : Host.Outcome State Fault Refusal :=
  s.run fun s =>
    let l := s.body.log
    if s.gate && decide (l.lastCopy + 100000 ≤ s.alm.beat) then
      let f := l.flash ++ l.ring.filter fun r => decide (l.copied ≤ r.seq)
      { s with body := { s.body with log := { l with
          flash := f.drop (f.length - 262144), copied := l.nextSeq, lastCopy := s.alm.beat } } }
    else s

end Sys2Proof.Machine
end

