-- ==== Sys2Proof/Machine/Letters.lean ====
section
/-! DEFINITION. Letters: slots and rings, sequence numbers, the order of checks, the journal and replies
(12 R356-R358; 13 R360-R367, R371; 02 R56, R58, R60). -/

namespace Sys2Proof.Machine

/-! ### Fields of a letter (13 Table 2) -/

def Letter.op (l : Letter) : Nat := field l.bytes 0 2
def Letter.flags (l : Letter) : Nat := field l.bytes 2 2
def Letter.len (l : Letter) : Nat := field l.bytes 4 2
def Letter.seq (l : Letter) : BitVec 32 := BitVec.ofNat 32 (field l.bytes 8 4)
/-- The argument bytes; beyond LENGTH they read as zero. -/
def Letter.args (l : Letter) : List Byte := (l.bytes.drop 32).take (min l.len 224)
/-- The `n`-byte argument at offset `o`. -/
def Letter.arg (l : Letter) (o n : Nat) : Nat := field l.args o n

/-- Outcome of a letter: status, FIELD, reply data, and the ticket of a schedule entry it took. `later` says that the
reply is sent by another command. -/
structure Res where
  status : Nat
  fieldOff : Nat
  data : List Byte
  ticket : Nat
  later : Bool
  deriving DecidableEq, Repr

/-- The letter executed. -/
def Res.ok (data : List Byte) : Res := { status := 0, fieldOff := 0xFFFF, data := data, ticket := 0, later := false }
/-- The letter is refused, no field named. -/
def Res.no (status : Nat) : Res := { status := status, fieldOff := 0xFFFF, data := [], ticket := 0, later := false }
/-- The letter is refused for the field at `o`. -/
def Res.at_ (status o : Nat) : Res := { status := status, fieldOff := o, data := [], ticket := 0, later := false }
/-- The letter executed and holds a ticket. -/
def Res.tick (t : Nat) : Res := { status := 0, fieldOff := 0xFFFF, data := natLe 4 t, ticket := t, later := false }
/-- The reply is sent later. -/
def Res.wait : Res := { status := 0, fieldOff := 0xFFFF, data := [], ticket := 0, later := true }

/-! ### Catalogue (13 Table 6) -/

/-- Argument bytes of a letter's table; none for an opcode that is not in the catalogue. -/
def argBytes (op : Nat) : Option Nat :=
  match op with
  | 0x0101 | 0x0103 | 0x0A02 => some 0
  | 0x0102 | 0x0104 | 0x0202 | 0x0203 | 0x0305 | 0x0403 | 0x0503 | 0x0702 | 0x0801 | 0x0901 => some 8
  | 0x0302 | 0x0304 | 0x0306 | 0x0309 | 0x030B | 0x030C | 0x0401 | 0x0402 | 0x0404 | 0x0601 | 0x0602 | 0x0903 => some 16
  | 0x030A | 0x0A01 => some 24
  | 0x0303 | 0x0307 | 0x0501 | 0x0B02 => some 32
  | 0x0301 | 0x0B01 => some 40
  | 0x0308 => some 64
  | 0x0E01 => some 136
  | 0x0201 => some 176
  | 0x0902 => some 200
  | 0x0904 | 0x0905 | 0x0A03 => some 208
  | 0x0502 | 0x0701 => some 224
  | _ => none

def isPf (stamp : Nat) : Bool := stamp == 1 || stamp == 2
def isMg (stamp : Nat) : Bool := stamp == 3
def isVf (stamp : Nat) : Bool := decide (0x40 ≤ stamp) && decide (stamp < 0x80)

/-- The port classes that may send a letter; `fabric.survey` of MG is QUERY only. -/
def mayVf (op : Nat) : Bool := (op / 256 == 3) || op == 0x0A02 || op == 0x0A03 || op / 256 == 0x0B
def mayPf (op : Nat) : Bool := op != 0x0E01
def mayMg (op : Nat) : Bool :=
  [1, 4, 5, 6, 7, 8, 9, 0x0A, 0x0E].contains (op / 256) && !([0x0902, 0x0903, 0x0904, 0x0905, 0x0A01].contains op)

/-- 12 R357: the port class is in the letter's line. -/
def portOk (stamp op : Nat) (a : List Byte) : Bool :=
  if isVf stamp then mayVf op
  else if isMg stamp then mayMg op && (op != 0x0901 || field a 0 1 == 1)
  else mayPf op

/-- The plot a VF stamp is bound to. -/
def boundPlot (d : Data) (stamp : Nat) : Option Nat :=
  (d.plots.find? fun p => match p.2.vf with
    | some (_, n) => 0x40 + n == stamp
    | none => false).map fun p => p.1

/-- Plots that a letter names: by PLOT, by CTX, by queue, by object, by base address. -/
def namedPlots (d : Data) (op : Nat) (a : List Byte) : List Nat :=
  let ctxP (c : Nat) : List Nat := ((mget d.ctxs c).map fun x => [x.plot]).getD []
  let phP (h : Nat) : List Nat := ((mget d.pigeons h).map fun x => ctxP x.ctx).getD []
  let evP (e : Nat) : List Nat := ((mget d.events e).map fun x => ctxP x.ctx).getD []
  let grP (g : Nat) : List Nat := ((mget d.graphs g).map fun x => ctxP x.ctx).getD []
  let adP (x : Nat) : List Nat := if x = 0 then [] else
    (d.objs.filter fun o => decide (o.base ≤ x % 2 ^ 40) && decide (x % 2 ^ 40 < o.base + o.size)).map (fun o => o.plot) ++
    (d.hws.filter fun o => o.base == x % 2 ^ 40).map fun o => o.plot
  match op with
  | 0x0301 => field a 0 1 :: (adP (field a 8 8) ++ adP (field a 16 8) ++ adP (field a 24 8))
  | 0x0303 => field a 0 1 :: adP (field a 16 8)
  | 0x030A => [field a 0 1]
  | 0x0302 | 0x0304 | 0x030B | 0x030C =>
    match field a 0 1 with
    | 1 => ctxP (field a 4 4)
    | 2 => adP (field a 8 8)
    | 3 | 4 => phP (field a 4 4)
    | 5 => evP (field a 4 4)
    | _ => grP (field a 4 4)
  | 0x0305 => ctxP (field a 0 2) ++ phP (field a 2 2)
  | 0x0306 => ctxP (field a 0 2) ++ adP (field a 8 8)
  | 0x0307 => ctxP (field a 0 2) ++ adP (field a 8 8) ++ adP (field a 24 8)
  | 0x0308 => phP (field a 0 2)
  | 0x0309 => ctxP (field a 0 2) ++ adP (field a 8 8)
  | 0x0B01 => ctxP (field a 2 2) ++ adP (field a 8 8) ++ adP (field a 16 8)
  | 0x0B02 => ctxP (field a 0 2) ++ phP (field a 2 2) ++ evP (field a 16 2) ++ adP (field a 24 8)
  | _ => []

/-- 12 R358: a VF's letter names nothing outside its bound plot. -/
def ownerOk (d : Data) (stamp op : Nat) (a : List Byte) : Bool :=
  !isVf stamp || match boundPlot d stamp with
    | some p => (namedPlots d op a).all fun q => q == p
    | none => false

/-! ### Fields (13 R366 step 5): offset, whether reserved, whether it passes, in offset order -/

/-- A field check. -/
structure Chk where
  off : Nat
  rsv : Bool
  ok : Bool

/-- A reserved field of `n` bytes is zero. -/
def rz (a : List Byte) (o n : Nat) : Chk := ⟨o, true, field a o n == 0⟩
/-- A field's value is in range. -/
def rg (o : Nat) (ok : Bool) : Chk := ⟨o, false, ok⟩
/-- The `n`-byte field is zero unless `c`, and then in range. -/
def zu (a : List Byte) (o n : Nat) (c : Bool) (ok : Bool) : Chk := ⟨o, false, if c then ok else field a o n == 0⟩

def between (lo hi x : Nat) : Bool := decide (lo ≤ x) && decide (x ≤ hi)

/-- Bytes from `o` to `e` are zero. -/
def zeroTail (a : List Byte) (o e : Nat) : Bool := (List.range (e - o)).all fun i => field a (o + i) 1 == 0

/-- The fields of a queue entry (10 Table 3), at their entry offsets: RESERVED_NONZERO for reserved ones. Table 3 states no
zero for the FLAGS bits and RECORD of a kind other than LAUNCH, nor for the VALUE of a RESUME: they may hold anything. -/
def entryChecks (e : List Byte) : List Chk :=
  let k := field e 8 1
  let f := field e 9 1
  let ev := k == 2 || k == 3 || (k == 1 && f / 2 % 2 == 1)
  [rg 8 (between 1 4 k), ⟨9, true, decide (f < 4)⟩,
   rg 10 (if k = 1 then decide (1 ≤ field e 10 2) else field e 10 2 == 0),
   rg 12 (if k = 1 then decide (field e 12 2 < 16384) else field e 12 2 == 0),
   rg 14 (ev || field e 14 2 == 0),
   rg 24 (k != 1 || field e 24 8 % 64 == 0),
   ⟨32, true, zeroTail e 32 64⟩]

/-- A vector of the function bound to a plot: 0-31 for a VF, 0-2047 for the PF, 0xFFFF none (11 R334). -/
def vectorOk (d : Data) (plot v : Nat) : Bool :=
  v == 0xFFFF || decide (v < if ((mget d.plots plot).bind fun p => p.vf).isSome then 32 else 2048)

def ctxPlotOf (d : Data) (c : Nat) : Nat := ((mget d.ctxs c).map fun x => x.plot).getD 64

/-- Every argument field of a letter. -/
def argChecks (d : Data) (op : Nat) (a : List Byte) : List Chk :=
  let b (o : Nat) := field a o 1
  let h (o : Nat) := field a o 2
  let w (o : Nat) := field a o 4
  let q (o : Nat) := field a o 8
  match op with
  | 0x0102 => [rg 0 (decide (w 0 ≤ 416 + 4 * (planFrames d).length)), rz a 4 4]
  | 0x0104 => [rg 0 (between 1 2 (b 0)), rz a 1 7]
  | 0x0201 =>
    [rg 0 (decide (b 0 < 64)), ⟨1, true, decide (b 1 < 2)⟩, rg 2 (decide (b 2 < 64) || b 2 == 255),
     rg 3 (if b 2 = 255 then b 3 == 0 else decide (b 3 < 2)), rg 6 (between 1 256 (h 6)), rg 8 (decide (w 8 ≤ 65536)),
     rg 12 (decide (h 12 ≤ 16384)), rz a 14 2, rg 18 (decide (h 18 ≤ 4096)), rg 22 (decide (h 22 ≤ 1024)),
     rg 26 (decide (h 26 ≤ 256)), rz a 28 4] ++
    (List.range 8).map fun i => (⟨80 + 12 * i, true, decide (field a (80 + 12 * i) 12 < 2 ^ 84)⟩ : Chk)
  | 0x0202 => [rg 0 (decide (b 0 < 64)), ⟨1, true, decide (b 1 < 2)⟩, rz a 2 6]
  | 0x0203 => [rg 0 (decide (b 0 < 64)), rg 1 (between 1 3 (b 1)), rz a 2 6]
  | 0x0301 =>
    [rg 0 (decide (b 0 < 64)), rg 1 (decide (b 1 < 2)), rg 2 (decide (b 2 < 2)), rg 3 (between 4 16 (b 3)),
     rg 4 (w 4 == 0 || decide (100 ≤ w 4)), rg 8 (q 8 % 4096 == 0), rg 16 (q 16 % 64 == 0), rg 24 (q 24 % 16 == 0),
     rg 32 (vectorOk d (b 0) (h 32)), rz a 34 6]
  | 0x0302 => [rg 0 (b 0 == 1), ⟨1, true, decide (b 1 < 2)⟩, rz a 2 2, rg 4 (decide (w 4 < 4096)), rg 8 (q 8 == 0)]
  | 0x0304 => [rg 0 (b 0 == 2), ⟨1, true, decide (b 1 < 2)⟩, rg 1 (b 1 == 0), rz a 2 2, rg 4 (w 4 == 0)]
  | 0x030B | 0x030C =>
    [rg 0 (between 1 6 (b 0)), ⟨1, true, decide (b 1 < 2)⟩, rg 1 (b 1 == 0), rz a 2 2,
     rg 4 (if b 0 = 2 then w 4 == 0 else decide (w 4 < if b 0 = 5 then 65536 else if b 0 = 6 then 16384 else 4096)),
     zu a 8 8 (b 0 == 2) true]
  | 0x0303 =>
    let k1 := b 1 == 1
    [rg 0 (decide (b 0 < 64)), rg 1 (between 1 2 (b 1)), zu a 2 1 k1 (decide (b 2 < 2)),
     zu a 3 1 (k1 && b 2 == 0) (decide (b 3 < 8)), zu a 4 1 k1 (decide (b 4 < 2)), zu a 5 1 k1 (decide (b 5 < 2)),
     rz a 6 2,
     rg 8 (if k1 then between 1 (2 ^ 39) (q 8) else decide (1 ≤ q 8) && q 8 % 2 ^ 21 == 0 && decide (q 8 ≤ 2 ^ 37)),
     zu a 16 8 (!k1) true, zu a 24 1 (!k1) (decide (b 24 < 2)), rz a 25 7]
  | 0x0305 => [rg 0 (decide (h 0 < 4096)), rg 2 (decide (h 2 < 4096)), rg 4 (decide (b 4 < 8) || b 4 == 255), rz a 5 3]
  | 0x0306 => [rg 0 (decide (h 0 < 4096)), rg 2 (vectorOk d (ctxPlotOf d (h 0)) (h 2)), rz a 4 4, rg 8 (q 8 % 16 == 0)]
  | 0x0307 => [rg 0 (decide (h 0 < 4096)), rz a 2 2, rg 4 (between 1 65536 (w 4)), rg 16 (decide (64 * w 4 ≤ w 16) && w 16 % 4 == 0),
     rz a 20 4, rg 24 (q 24 % 4096 == 0)]
  | 0x0308 => [rg 0 (decide (h 0 < 4096)), rz a 2 6] ++ entryChecks a
  | 0x0309 => [rg 0 (decide (h 0 < 4096)), rg 2 (between 4 16 (b 2)), rz a 3 5]
  | 0x030A => [rg 0 (decide (b 0 < 64)), rz a 1 7]
  | 0x0401 => [rg 0 (between 900 2200 (h 0)), rz a 2 2, rg 4 (w 4 == 0 || between 1000 4000000000 (w 4))]
  | 0x0402 =>
    let v (i : Nat) := b 0 / 2 ^ i % 2 == 1
    [⟨0, true, decide (b 0 < 32)⟩, rg 1 (!v 4 || decide (b 1 < 3)), rg 2 (!v 0 || between 900 2200 (h 2)),
     rg 4 (!v 1 || between 900 2200 (h 4)), rg 6 (!v 3 || h 6 == 0 || (between 400 1600 (h 6) && h 6 % 25 == 0)),
     rg 8 (!v 2 || between 1000000 60000000 (w 8)),
     ⟨12, true, decide (h 12 < 1024)⟩, rg 12 (!v 4 || b 1 == 2 || h 12 == 0), rz a 14 2]
  | 0x0403 => [rg 0 (between 1 2 (b 0)), rz a 1 3, zu a 4 4 (b 0 == 2) true]
  | 0x0404 => [rg 0 (between 1 3 (b 0)), zu a 1 1 (b 0 != 1) (decide (b 1 < 16)), zu a 2 2 (b 0 == 1) (decide (h 2 < 4096)),
     rz a 4 4, zu a 8 8 (b 0 == 2) true]
  | 0x0501 =>
    let set := b 0 == 1
    [rg 0 (between 1 3 (b 0)), rg 1 (between 1 4 (b 1)), zu a 2 1 set (decide (b 2 < 2)),
     zu a 3 1 (set && b 1 == 1) (between 1 3 (b 3)), zu a 4 4 (b 0 == 3) true,
     zu a 8 8 set (between 3600000000 2592000000000 (q 8)), zu a 16 8 set (decide (q 16 ≤ 86400000000)),
     zu a 24 8 set (decide (q 24 ≤ q 16))]
  | 0x0502 =>
    let dat := b 0 == 2
    [rg 0 (between 1 5 (b 0)), rz a 1 3, zu a 4 4 (b 0 == 1) (between 1 4194304 (w 4)), zu a 8 4 dat true,
     zu a 12 2 dat (between 1 208 (h 12)), rz a 14 2,
     rg 16 (if dat then zeroTail a (16 + h 12) 224 else zeroTail a 16 224)]
  | 0x0503 => [rz a 2 6]
  | 0x0601 => [rg 8 (between 1 2 (b 8)), rz a 9 7]
  | 0x0602 => [rg 8 (b 8 == 0), rz a 9 7]
  | 0x0701 =>
    let dat := b 0 == 2
    [rg 0 (between 1 4 (b 0)), rg 1 (between 1 2 (b 1)), rz a 2 2, zu a 4 4 (b 0 == 1) (between 1 16777216 (w 4)),
     zu a 8 4 dat true, zu a 12 2 dat (between 1 208 (h 12)), rz a 14 2,
     rg 16 (if dat then zeroTail a (16 + h 12) 224 else zeroTail a 16 224)]
  | 0x0702 => [rg 0 (between 1 2 (b 0)), rg 1 (between 1 2 (b 1)), rz a 2 6]
  | 0x0801 => [rz a 0 8]
  | 0x0901 => [rg 0 (between 1 3 (b 0)), zu a 1 1 (b 0 == 1) (decide (b 1 < 18)), zu a 2 1 (b 0 == 2) true,
     zu a 3 1 (b 0 == 3) (decide (b 3 < 18) || b 3 == 255), rz a 4 4]
  | 0x0902 =>
    let wr := b 0 == 1
    [rg 0 (between 1 2 (b 0)), zu a 1 1 wr (between 1 24 (b 1)), zu a 2 2 wr (decide (h 2 + b 1 ≤ 4096)), rz a 4 4,
     rg 8 (if wr then zeroTail a (8 + 8 * b 1) 200 else zeroTail a 8 200)]
  | 0x0903 => [rg 0 (q 0 != 0), rz a 12 4]
  | 0x0904 | 0x0905 =>
    [rg 0 (q 0 != 0), rg 10 (between 1 96 (b 10)), rz a 11 5,
     ⟨16, true, (List.range (b 10)).all fun i => decide (field a (16 + 2 * i) 2 < 4096)⟩,
     rg 16 (zeroTail a (16 + 2 * b 10) 208)]
  | 0x0A01 => [rg 0 (decide (b 0 < 3)), zu a 1 1 (b 0 != 0) true, rz a 2 6, zu a 8 8 (b 0 == 2) true, zu a 16 8 (b 0 == 1) true]
  | 0x0A03 =>
    let add := b 0 == 1
    [rg 0 (between 1 2 (b 0)), rz a 1 3, zu a 4 4 (!add) true, zu a 8 8 add true, rg 18 (!add || decide (h 18 ≤ 176)),
     rz a 20 12, rg 32 (!add || zeroTail a (32 + h 18) 208)]
  | 0x0B01 =>
    let c := b 0 == 1
    [rg 0 (between 1 3 (b 0)), zu a 1 1 c (between 4 16 (b 1)), rg 2 (decide (h 2 < 4096)), ⟨4, true, decide (b 4 < 2)⟩,
     zu a 5 1 c (decide (b 5 ≤ 64)), rz a 6 2, zu a 8 8 c (q 8 % 4096 == 0), zu a 16 8 c true, zu a 24 8 (b 0 == 2) true,
     zu a 32 2 (b 0 == 2) true, rz a 34 6]
  | 0x0B02 => [rg 0 (decide (h 0 < 4096)), rg 2 (decide (h 2 < 4096)), ⟨6, true, decide (b 6 < 2)⟩, rz a 7 1, rz a 18 6,
     rg 24 (q 24 % 64 == 0)]
  | 0x0E01 => [rg 0 (between 1 3 (b 0)), rz a 1 7] ++
      (if b 0 = 2 then [⟨32, true, decide (w 32 < 8)⟩, rz a 36 4] else [rg 8 (zeroTail a 8 136)])
  | _ => []

/-- The first field that fails: its status and offset. -/
def firstBad (l : List Chk) : Option (Nat × Nat) :=
  (l.find? fun c => !c.ok).map fun c => (if c.rsv then 8 else 9, c.off)

/-- The header's fields (13 R366): FLAGS, and the reserved bytes. -/
def headChecks (l : Letter) : List Chk :=
  [⟨0xFF02, true, decide (l.flags < 2)⟩, ⟨0xFF06, true, field l.bytes 6 2 == 0⟩,
   ⟨0xFF10, true, zeroTail l.bytes 16 32⟩]

/-- Steps 1 to 5 of R366 for a letter or a wrapped letter. -/
def stepChecks (d : Data) (stamp op len : Nat) (a : List Byte) (head : List Chk) : Option (Nat × Nat) :=
  match argBytes op with
  | none => some (2, 0xFFFF)
  | some m =>
    if m < len then some (3, 0xFFFF)
    else if !portOk stamp op a then some (6, 0xFFFF)
    else if !ownerOk d stamp op a then some (7, 0xFFFF)
    else firstBad (head ++ argChecks d op a)

/-! ### Device state (13 Table 4, 17 R452) -/

def coldStopped (p : Power) : Bool :=
  match p.cold with
  | .running => false
  | _ => true

/-- Before ready, the letters admitted. -/
def early (op : Nat) (a : List Byte) : Bool :=
  [1, 0x0A, 4, 6, 7].contains (op / 256) || (op == 0x0901 && field a 0 1 == 1) || op == 0x0E01

/-- Step 6: the status with which the device's state refuses a letter. -/
def stateRefuses (s : State) (op : Nat) (a : List Byte) : Option Nat :=
  let m := s.body.md
  if s.latch.fault then some 0x0D
  else if m.recovery then
    if op = 0x0101 ∨ op = 0x0701 ∨ (op = 0x0702 ∧ field a 1 1 = 2) then none else some 0x0A
  else if m.state = 4 then
    if [0x0101, 0x0102, 0x0601, 0x0602, 0x0701].contains op ∨ (op = 0x0702 ∧ field a 1 1 = 2) then none else some 0x0A
  else if m.state = 1 ∧ !early op a then some 0x0A
  else if coldStopped s.body.pw && [2, 3, 0x0B].contains (op / 256) then some 0x0B
  else none

/-! ### Replies (13 R363, Table 3) -/

/-- A letter's box and slot are as they were when it was rung, and its function exists (12 R350). -/
def canReply (s : State) (l : Letter) : Bool :=
  match l.fn with
  | none => true
  | some f => s.body.host.live f && (s.body.host.fn f).gen == l.gen

/-- The 256 bytes of a reply slot. -/
def replyBytes (l : Letter) (r : Reply) (dup : Bool) (state holder done : Nat) : List Byte :=
  natLe 2 l.op ++ natLe 2 r.status ++ natLe 2 r.data.length ++ natLe 2 r.fieldOff ++ natLe 4 l.seq.toNat ++ natLe 1 l.stamp ++
    natLe 1 state ++ natLe 1 ((if dup then 1 else 0) + if r.reexec then 2 else 0) ++ natLe 1 holder ++
    natLe 8 r.acceptBeat ++ natLe 8 done ++ r.data ++ List.replicate (224 - r.data.length) 0

/-- Store the bytes of a reply slot; a zero byte is not listed. -/
def FnRegs.setReply (r : FnRegs) (slot : Nat) (l : List Byte) : FnRegs :=
  { r with replies := (l.zipIdx).foldl (fun (m : SMap Byte) p => cput 0 m (256 * slot + p.2) p.1) r.replies }

def holderCode (s : State) : Nat := if s.latch.holder = some .south then 1 else 0

/-- Write a reply to where its letter came from, and signal it. -/
def deliver (s : State) (l : Letter) (r : Reply) (dup : Bool) : State :=
  let bytes := replyBytes l r dup 2 (holderCode s) s.alm.beat
  match l.fn with
  | some f =>
    if canReply s l then
      let h := s.body.host
      let regs := (h.fn f).setReply l.slot bytes
      let h := h.setFn f regs
      let h := if l.flags % 2 = 1 ∨ regs.replyVector = 0xFFF then h else h.msix f regs.replyVector
      { s with body := { s.body with host := h } }
    else s
  | none =>
    let m := s.body.mgdb
    let eid := (mget m.slots l.slot).getD 0
    let h := s.body.host.emit (.mctp eid 0x7E (bytes.take (32 + r.data.length)))
    let h := if m.dynAddr.isSome && l.flags % 2 = 0 then h.emit .ibi else h
    { s with body := { s.body with host := h, mgdb := { m with slots := mdel m.slots l.slot, unread := m.unread || m.dynAddr.isNone } } }

/-- A reply that names no journal entry. -/
def plain (l : Letter) (status fieldOff : Nat) : Reply :=
  { stamp := l.stamp, seq := l.seq, status := status, fieldOff := fieldOff, data := [], acceptBeat := 0, reexec := false }

def State.mg (s : State) (f : Mgmt → Mgmt) : State := { s with body := { s.body with mg := f s.body.mg } }

/-- Retire an entry that has a reply and holds no pending schedule entry (13 R371). -/
def Mgmt.retire (m : Mgmt) : Mgmt :=
  let live (e : JEntry) : Bool := e.reply.isNone || (e.ticket != 0 && m.schedule.any fun x => x.ticket == e.ticket)
  let done := m.journal.filter fun e => !live e
  { m with
    journal := m.journal.filter live
    archive := done.foldl (fun (a : SMap (List Reply)) e => match e.reply with
      | some r => if (mget m.nextSeq r.stamp).isSome && decide (mgetD m.seqFrom r.stamp 0 ≤ e.jid) then mput a r.stamp ((r :: mgetD a r.stamp []).take 256) else a
      | none => a) m.archive }

/-- The final reply of a journaled letter: to its slot, to the duplicates that wait for it, and to the archive. -/
def reply (s : State) (jid : Nat) (res : Res) : State :=
  match s.body.mg.journal.find? fun e => e.jid == jid with
  | none => s
  | some e =>
    let r : Reply :=
      { stamp := e.letter.stamp, seq := e.letter.seq, status := res.status, fieldOff := res.fieldOff,
        data := res.data.take 224, acceptBeat := e.acceptBeat, reexec := e.reexec }
    let s := deliver s e.letter r false
    let s := e.waiters.foldl (fun (s : State) l => deliver s l r true) s
    let put (x : JEntry) : JEntry :=
      if x.jid = jid then { x with reply := some r, ticket := res.ticket, waiters := [] } else x
    s.mg fun m => Mgmt.retire { m with journal := m.journal.map put }

/-! ### Acceptance (13 R364-R366) -/

/-- The entry's letter was accepted since its port's NEXT_SEQ was last UNSET (13 R364). -/
def Mgmt.current (m : Mgmt) (e : JEntry) : Bool := decide (mgetD m.seqFrom e.letter.stamp 0 ≤ e.jid)

/-- A journaled reply of a port by SEQ. -/
def Mgmt.kept (m : Mgmt) (stamp : Nat) (seq : BitVec 32) : Option Reply :=
  match m.journal.find? fun e => m.current e && e.letter.stamp == stamp && e.letter.seq == seq && e.reply.isSome with
  | some e => e.reply
  | none => (mgetD m.archive stamp []).find? fun r => r.seq == seq

/-- The letter becomes a journal entry; NEXT_SEQ advances; replies more than 256 letters old leave the archive. -/
def Mgmt.journalIt (m : Mgmt) (l : Letter) (beat : Nat) : Mgmt :=
  let nxt := l.seq + 1
  let e : JEntry :=
    { jid := m.nextJid, letter := l, acceptBeat := beat, reply := none, ticket := 0, reexec := false, waiters := [] }
  { m with
    nextJid := m.nextJid + 1
    nextSeq := mput m.nextSeq l.stamp nxt
    seqFrom := if (mget m.nextSeq l.stamp).isNone then mput m.seqFrom l.stamp m.nextJid else m.seqFrom
    journal := m.journal ++ [e]
    archive := mmod m.archive l.stamp fun rs => rs.filter fun r => decide ((nxt - r.seq).toNat ≤ 257) }

/-- Log a refusal by port or owner (13 R382, 12 Table 10). -/
def logDenied (s : State) (l : Letter) (status : Nat) : State :=
  let fields := [(l.stamp, 1), (0, 1), (l.op, 2), (status, 2), (0, 2), (0, 104), (0, 4)]
  if status = 6 ∨ status = 7 then
    { s with body := { s.body with log := s.body.log.tally s.alm.beat 0x0406 (7 + 256 * l.stamp) fields } }
  else s

/-- Every check of R366 up to step 6. -/
def refusal (s : State) (l : Letter) : Option (Nat × Nat) :=
  match stepChecks s.body.data l.stamp l.op (if 224 < field l.bytes 4 2 then 225 else l.len) l.args (headChecks l) with
  | some x => some x
  | none => (stateRefuses s l.op l.args).map fun st => (st, 0xFFFF)

/-- A letter of the `plot.*` area waits while an earlier one of that area is under way (R365; 11 R324, R330). -/
def Mgmt.plotBusy (m : Mgmt) (l : Letter) : Bool :=
  l.op / 256 == 2 && m.journal.any fun e => e.reply.isNone && e.letter.op / 256 == 2

/-- Handle one letter taken from the acceptance queue: R364, then the checks, then `eff`, at once or when its area is free. -/
def handle (s : State) (l : Letter) (eff : State → Letter → Nat → State × Res) : State :=
  let m := s.body.mg
  let d : Int := match mget m.nextSeq l.stamp with
    | none => 0
    | some n => (l.seq - n).toInt
  if d = 0 then
    let jid := m.nextJid
    let s := s.mg fun m => m.journalIt l s.alm.beat
    match refusal s l with
    | some (st, f) => reply (logDenied s l st) jid (Res.at_ st f)
    | none =>
      if m.plotBusy l then s
      else
        let (s, r) := eff s l jid
        if r.later then s else reply s jid r
  else if -256 ≤ d ∧ d ≤ -1 then
    match m.journal.find? fun e => m.current e && e.letter.stamp == l.stamp && e.letter.seq == l.seq && e.reply.isNone with
    | some e => s.mg fun m => { m with journal := m.journal.map fun x =>
        if x.jid = e.jid then { x with waiters := x.waiters ++ [l] } else x }
    | none => match m.kept l.stamp l.seq with
      | some r => deliver s l r true
      | none => deliver s l (plain l 4 0xFFFF) false
  else deliver s l (plain l 4 0xFFFF) false

/-- The commands of the table that carry a letter, by opcode and, where several share it, by OP (the first byte). -/
def hasRow (l : Letter) : Bool :=
  match argBytes l.op with
  | none => false
  | some _ =>
    let o := l.arg 0 1
    match l.op with
    | 0x0104 | 0x0403 | 0x0902 | 0x0A03 => between 1 2 o
    | 0x0203 => between 1 3 (l.arg 1 1)
    | 0x0404 | 0x0501 | 0x0901 | 0x0B01 | 0x0E01 => between 1 3 o
    | 0x0502 => between 1 5 o
    | 0x0701 => between 1 4 o
    | 0x0702 => between 1 2 (l.arg 1 1)
    | 0x0303 => between 1 2 (l.arg 1 1)
    | 0x0A01 => decide (o < 3)
    | _ => true

/-- Letters at the front of the acceptance queue that no command of the table names are refused in their turn. -/
def drainBad : Nat → State → State
  | 0, s => s
  | n + 1, s => match s.body.mg.accept with
    | l :: rest =>
      if hasRow l then s
      else drainBad n (handle (s.mg fun m => { m with accept := rest }) l fun s _ _ => (s, Res.at_ 9 0))
    | [] => s

/-! ### Rings (13 R362) -/

/-- The bytes of a letter slot as the function last wrote them. -/
def FnRegs.slotBytes (r : FnRegs) (slot : Nat) : List Byte := (List.range 256).map fun i => mgetD r.letters (256 * slot + i) 0

/-- A PF, or a VF whose plot exists and names the VF's port (12 R343). -/
def State.bound (s : State) (f : Fn) : Bool :=
  match f with
  | .pf _ => true
  | .vf p n => s.body.data.plots.any fun q => q.2.vf == some (p == .hb, n)

/-- The ring of a slot takes effect, the copy being `l`. A BUSY slot ignores it; an unbound VF, and every function in
LATCH_FAULT, is answered in hardware; else the copy, stamped, joins the acceptance queue. -/
def ringSlot (s : State) (fn : Fn) (l : Letter) : State :=
  let h := s.body.host
  let r := h.fn fn
  let slot := l.slot
  if mgetD r.replies (256 * slot + 13) 0 = 1 then
    { s with body := { s.body with
      host := h.setFn fn { r with dropped := r.dropped + 1 }
      log := s.body.log.tally s.alm.beat 0x0509 (7 + 256 * fnStamp fn) [(fnStamp fn, 1), (slot, 1), (0, 2), (0, 104)] } }
  else if !s.bound fn then deliver s l (plain l 5 0xFFFF) false
  else if s.latch.fault then deliver s l (plain l 0x0D 0xFFFF) false
  else
    let busy := replyBytes l { (plain l 0 0) with fieldOff := 0 } false 1 0 0
    let s := { s with body := { s.body with host := h.setFn fn (r.setReply slot (busy.take 32)) } }
    let s := s.mg fun m => { m with accept := m.accept ++ [l] }
    if s.acting then drainBad s.body.mg.accept.length s else s

/-- Rings that waited for earlier posted writes of their function and need wait no longer take effect, in order (R362); one whose
letterbox has been reset since is void. -/
def takeRings (s : State) : State :=
  s.body.host.ops.foldl (fun (s : State) o =>
    let ops := s.body.host.ops
    let at_ := ops.idxOf o
    match o.kind with
    | .letter l =>
      if o.waits (ops.take at_) then s
      else
        let t := { s with body := { s.body with host := { s.body.host with ops := ops.eraseIdx at_ } } }
        if canReply t l then ringSlot t o.fn l else t
    | _ => s) s

/-- A letter command: it takes the letter at the front of the acceptance queue if that letter is its own. Before, an empty queue
takes the rings that are due. -/
def letterRow (s : State) (is : Letter → Bool) (eff : State → Letter → Nat → State × Res) :
    Host.Outcome State Fault Refusal :=
  s.run fun s =>
    if s.acting then
      let s := if s.body.mg.accept = [] then takeRings s else s
      match s.body.mg.accept with
      | l :: rest =>
        if hasRow l && is l then drainBad s.body.mg.accept.length (handle (s.mg fun m => { m with accept := rest }) l eff)
        else s
      | [] => s
    else s

/-! ### Effective beats and the schedule (02 R44, R56, R58) -/

/-- The checks of a non-zero effective beat at offset `o`. -/
def beatRefuses (s : State) (beat o : Nat) : Option Res :=
  if beat = 0 then none
  else if s.alm.st = .free ∨ s.alm.st = .acquiring then some (Res.at_ 0x20 o)
  else if beat < s.alm.beat + 2 then some (Res.at_ 0x22 o)
  else if s.alm.beat + 2 ^ 40 < beat then some (Res.at_ 0x23 o)
  else none

/-- The port's share of the schedule is used up. -/
def shareFull (m : Mgmt) (stamp : Nat) : Bool :=
  let n (p : Nat → Bool) := (m.schedule.filter fun e => e.counts && p e.letter.stamp).length
  if isVf stamp then decide (8 ≤ n fun x => x == stamp)
  else if isMg stamp then decide (64 ≤ n isMg)
  else decide (448 ≤ n isPf)

/-- The next ticket from a count: not 0, and none that a live entry holds. -/
def ticketFrom : Nat → Mgmt → Nat → Nat
  | 0, _, t => t
  | n + 1, m, t =>
    let t := if t % 2 ^ 32 = 0 then 1 else t % 2 ^ 32
    if m.schedule.any fun e => e.ticket == t then ticketFrom n m (t + 1) else t

/-- Add an entry; the entry's ticket. -/
def addEntry (s : State) (l : Letter) (beat : Nat) (kind : SKind) (counts : Bool) : State × Nat :=
  let m := s.body.mg
  let t := ticketFrom (m.schedule.length + 2) m m.nextTicket
  let e : SEntry :=
    { ticket := t, beat := beat, kind := kind, letter := l, order := m.nextOrder, counts := counts, late := false }
  (s.mg fun m =>
    { m with nextTicket := t + 1, nextOrder := m.nextOrder + 1, schedule := m.schedule ++ [e] }, t)

/-- Schedule an action at a checked, non-zero beat. -/
def schedule (s : State) (l : Letter) (beat o : Nat) (kind : SKind) : State × Res :=
  match beatRefuses s beat o with
  | some r => (s, r)
  | none =>
    if shareFull s.body.mg l.stamp then (s, Res.no 0x26)
    else
      let (s, t) := addEntry s l beat kind true
      (s, Res.tick t)

/-- Take an entry off the schedule; its journal entry may retire. -/
def dropEntry (s : State) (ticket : Nat) : State :=
  s.mg fun m => Mgmt.retire { m with schedule := m.schedule.filter fun e => e.ticket != ticket }

/-- LETTER_EXECUTED (15 Table 15). -/
def letterExecuted (s : State) (e : SEntry) (status : Nat) : State :=
  let alm := match s.alm.st with
    | .free => 0
    | .acquiring => 1
    | .locked => 2
    | .holdover => 3
    | .slewing => 4
  s.post 0x0501 0 [(e.ticket, 4), (match e.kind with
    | .wrapped => e.letter.arg 16 2
    | _ => e.letter.op, 2), (status, 2), (e.letter.stamp, 1), (if e.late then 1 else 0, 1), (alm, 1), (0, 5), (e.beat, 8), (s.alm.beat, 8)]

/-- LETTER_RING: a write to STAMP of slot `slot`, by a reachable function. -/
def execLetterRing (fn : Fn) (slot : Nat) (s : State) : Host.Outcome State Fault Refusal :=
  s.run fun s =>
    let s := takeRings s
    let h := s.body.host
    if 16 ≤ slot || !h.live fn then s
    else
      let r := h.fn fn
      let l : Letter := { bytes := r.slotBytes slot, stamp := fnStamp fn, fn := some fn, slot := slot, gen := r.gen, ringBeat := s.alm.beat }
      let o : HostOp := { fn := fn, off := 0, len := 0, kind := .letter l }
      if o.waits h.ops then { s with body := { s.body with host := { h with ops := h.ops ++ [o] } } }
      else ringSlot s fn l

end Sys2Proof.Machine
end

