-- ==== Sys2Proof/Machine/Almanac.lean ====
section
/-! DEFINITION. The Almanac: sources, corrections, sync cells, PPS, its registers and its letters (02). -/

namespace Sys2Proof.Machine

def State.setAlm (s : State) (a : Almanac) : State := { s with alm := a }

def AlmState.code : AlmState → Nat
  | .free => 0 | .acquiring => 1 | .locked => 2 | .holdover => 3 | .slewing => 4

/-- The count has been set once: FREE and ACQUIRING are left (02 R43). -/
def Almanac.started (a : Almanac) : Bool :=
  match a.st with
  | .free | .acquiring => false
  | _ => true

/-- Acting as root: configured so and not yielded (02 R49). -/
def Almanac.isRoot (a : Almanac) : Bool := a.mode != .follow && !a.rootLost

/-- The bound within which an offset counts as removed (02 Table 4): 20 ns from PPS, or where the source is the root one
runner hop away; 250 ns else. -/
def Almanac.bound (a : Almanac) : Nat := if a.source = 254 ∨ (a.source < 16 ∧ a.hops ≤ 1) then 20 else 250

/-- ERR_BOUND (02 R492). -/
def Almanac.errBound (a : Almanac) : Nat :=
  min 65535 <| match a.st with
    | .free | .acquiring => 65535
    | .holdover => a.holdBound + ((a.beat - a.since) * (if 600000000 ≤ a.disciplined then 2 else 10) + 999) / 1000
    | .locked => if a.isRoot then 0 else a.srcBound + a.offset.natAbs + 2
    | .slewing => if a.isRoot then Config.rootSlewBound a.offset else a.srcBound + a.offset.natAbs + 2

/-- ALM_CORRECTED: the beat, and the correction made in ns (02 R47; the layout is open). -/
def corrected (s : State) (removed : Int) : State :=
  s.post 0x0102 0 [(s.alm.beat, 0), ((BitVec.ofInt 64 (-removed)).toNat, 0)]

/-- Enter HOLDOVER (02 R46, R52): every source must send four consistent cells anew. -/
def Almanac.holdoverNow (a : Almanac) : Almanac :=
  { a with
    st := .holdover
    since := a.beat
    holdBound := a.errBound
    slew := 0
    slewFrom := 0
    step := none
    srcs := mmap a.srcs fun _ (x : SyncSrc) => { x with run := 0 } }

/-- FREQ_PPB: the correction in force, with the 100 ppm of a slew, which lengthens beats while the count is ahead
(02 R47, Table 7). -/
def Almanac.freqNow (a : Almanac) : Int :=
  a.freqPpb + if a.st = .slewing then (if 0 < a.slew then -100000 else 100000) else 0

/-- A locked package disciplines its oscillator to its source at each measurement (02 R40). -/
def discipline (s : State) : State :=
  { s with
    alm := { s.alm with freqPpb := Config.freqTrim s.body.data.free }
    body := { s.body with data := s.body.data.draw.2 } }

/-- 02 R47: remove an offset (positive: the local count is ahead). -/
def correct (s : State) (off : Int) : State :=
  let a := { s.alm with offset := off }
  if off.natAbs ≤ a.bound then
    let s := discipline s
    let a := { a with freqPpb := s.alm.freqPpb }
    if a.st = .slewing then corrected (s.setAlm { a with st := .locked, since := a.beat, slew := 0, slewFrom := 0 }) a.slewFrom
    else s.setAlm (if a.st = .locked then a else { a with st := .locked, since := a.beat, step := none })
  else if -1000000 ≤ off then
    s.setAlm { a with
      st := .slewing
      since := if a.st = .slewing then a.since else a.beat
      slew := off * 10
      slewFrom := if a.st = .slewing then a.slewFrom else off
      step := none }
  else s.setAlm { a with step := some (((-off) / 1000).toNat, off) }

/-- The local times that go with the count move with it when it is set or steps. -/
def Almanac.rebase (a : Almanac) (beat : Nat) : Almanac :=
  let go (x : Nat) : Nat := x + beat - a.beat
  { a with
    beat := beat
    srcs := mmap a.srcs fun _ (x : SyncSrc) => { x with at_ := go x.at_, offset := x.offset + ((beat : Int) - a.beat) * 1000 }
    ppsLast := go a.ppsLast
    ppsGood := a.ppsGood.map go
    listenFrom := go a.listenFrom }

/-- The beats that waits and intervals of the body run from keep their distance from the count when it is set (02 R43):
budgets in force, BUDGET_FALLBACK, flow, a cold stop, the epoch in progress, record windows, the flash copy, links,
connections, channels, slices, passes and the calendar. -/
def Body.rebase (b : Body) (old new : Nat) : Body :=
  let go (x : Nat) : Nat := x + new - old
  { b with
    data := { b.data with
      channels := mmap b.data.channels fun _ (c : Channel) => { c with retrains := c.retrains.map go, training := c.training.map go }
      slices := mmap b.data.slices fun _ (x : SliceState) => match x with
        | .flushing t => .flushing (go t)
        | .bypassed t => .bypassed (go t)
        | .returning t => .returning (go t)
        | .inService => .inService
        | .out => .out
      cores := mmap b.data.cores fun _ (c : Core) => { c with pass := match c.pass with
        | .none => .none
        | .deferral t w => .deferral (go t) (w.map go)
        | .forced t => .forced (go t)
        | .running t k f => .running (go t) k f }
      ctxs := mmap b.data.ctxs fun _ (c : Ctx) => { c with lastAdvance := go c.lastAdvance } }
    fab := { b.fab with
      links := mmap b.fab.links fun _ (l : LinkSt) => { l with training := l.training.map go, passSince := l.passSince.map go }
      lastSwitch := b.fab.lastSwitch.map go
      conns := mmap b.fab.conns fun _ (c : Conn) =>
        let pk (x : SentPkt) : SentPkt := { x with first := go x.first, last := go x.last }
        { c with rxZero := go c.rxZero, unacked := c.unacked.map pk, answers := c.answers.map pk } }
    pw := { b.pw with
      budgets := b.pw.budgets.map fun (q : Budget) => { q with start := go q.start }
      lastAccept := b.pw.lastAccept.map go
      asOf := new / 1000 * 1000
      openR := b.pw.openR.map fun (r : Reason) => { r with start := go r.start }
      coolantSince := go b.pw.coolantSince
      cold := match b.pw.cold with
        | .running => .running
        | .stopping t => .stopping (go t)
        | .halted t h => .halted (go t) (go h) }
    hl := { b.hl with
      dues := mmap b.hl.dues fun _ t => go t
      sweep := b.hl.sweep.map fun x => (x.1, go x.2)
      sweepUntil := go b.hl.sweepUntil
      engMis := mmap b.hl.engMis fun _ t => go t
      passes := mmap b.hl.passes fun _ (p : Pass) => { p with due := go p.due, start := p.start.map go, forced := p.forced.map go } }
    log := { b.log with
      windows := mmap b.log.windows fun _ (w : Window) => { w with last := go w.last }
      lastCopy := go b.log.lastCopy }
    md := { b.md with refLost := go b.md.refLost } }

/-- Set the count once, leaving FREE or ACQUIRING (02 R43); an action due at the next beat edge stays due there. -/
def setCount (s : State) (beat : Nat) : State :=
  let s := { s with body := s.body.rebase s.alm.beat beat }
  (s.setAlm { s.alm.rebase beat with st := .locked, since := beat, offset := 0, slew := 0, slewFrom := 0, step := none }).mg
    fun m => { m with schedule := m.schedule.map fun (e : SEntry) => { e with beat := beat + 1 } }

/-! ### Following (02 R48-R52) -/

/-- 02 R48: the rank of a candidate, best first. -/
def rankKey (port : Nat) (c : SyncCell) : List Nat := [c.priority, c.rootSerial, c.hops, if port < 16 then 0 else 1, port]

/-- Lexicographic order. -/
def lexLt : List Nat → List Nat → Bool
  | a :: as, b :: bs => decide (a < b) || (a == b && lexLt as bs)
  | _, _ => false

/-- The best candidate that has sent a cell within 64 beats, on a port that still carries cells (`ok`). -/
def Almanac.best (a : Almanac) (ok : Nat → Bool) : Option (Nat × SyncSrc) :=
  a.srcs.foldl (fun b p =>
    if p.2.at_ + 64 ≤ a.beat || !ok p.1 then b
    else match b with
      | none => some p
      | some q => if lexLt (rankKey p.1 p.2.cell) (rankKey q.1 q.2.cell) then some p else some q) none

/-- Follow a source: hop count, root and bound come from its last cell. -/
def Almanac.adopt (a : Almanac) (port : Nat) (c : SyncCell) : Almanac :=
  { a with source := port, hops := c.hops + 1, rootSerial := c.rootSerial, srcBound := c.errBound }

/-- A port that carries sync cells (09 R270, R295). -/
def Fabric.link (f : Fabric) (k : Nat) : LinkSt := mgetD f.links k LinkSt.reset

def LinkSt.carries (l : LinkSt) : Bool := l.verdict == .ok || l.verdict == .degraded

/-- A follower after a cell from `port`, `subNs` ns into the beat. -/
def followCell (s : State) (port subNs : Nat) : State :=
  match s.alm.best fun k => (s.body.fab.link k).carries with
  | none => s
  | some (p, src) =>
    match s.alm.st with
    | .free | .acquiring =>
      if 4 ≤ src.run then
        let t := ((s.alm.beat * 1000 + subNs : Nat) : Int) - src.offset
        setCount (s.setAlm (s.alm.adopt p src.cell)) (t / 1000).toNat
      else s.setAlm { s.alm with st := .acquiring, since := if s.alm.st = .free then s.alm.beat else s.alm.since }
    | .holdover => if 4 ≤ src.run then correct (s.setAlm (s.alm.adopt p src.cell)) src.offset else s
    | .locked | .slewing =>
      let a := s.alm.adopt p src.cell
      let path := decide (s.alm.source ≠ p ∧ s.alm.source ≠ 255 ∧ s.alm.rootSerial = src.cell.rootSerial)
      if p = port ∧ !path then correct (s.setAlm a) src.offset else s.setAlm a

/-- A frame or cell of a global link is discarded and counted (09 R266, R272). -/
def discard (s : State) (port reason : Nat) : State :=
  let f := s.body.fab
  let l := f.link port
  { s with body := { s.body with
    fab := { f with links := mput f.links port { l with discards := l.discards + 1 } }
    log := s.body.log.tally s.alm.beat 0x030D (7 + 256 * (0x80 + port)) [(port, 0), (reason, 0), (0, 100)] } }

/-- SYNC_CELL_RX. -/
def execSyncCellRx (port : Nat) (cell : SyncCell) (subNs : Nat) (consistent : Bool) (s : State) : Host.Outcome State Fault Refusal :=
  s.run fun s =>
    if !cell.zero && decide (16 ≤ port) then discard s port 4
    else if !(s.body.fab.link port).carries then s
    else
      let a := s.alm
      let off : Int := ((a.beat * 1000 + subNs : Nat) : Int) - ((cell.beat * 1000 + (s.body.fab.link port).delayNs : Nat) : Int)
      let old := mget a.srcs port
      let run := match old with
        | some o => if consistent && decide (a.beat < o.at_ + 64) then o.run + 1 else 1
        | none => 1
      let s := s.setAlm { a with srcs := mput a.srcs port { cell := cell, at_ := a.beat, run := run, offset := off } }
      if a.isRoot then
        if cell.rootSerial ≠ s.body.md.serial ∧ lexLt [cell.priority, cell.rootSerial] [a.priority, s.body.md.serial] then
          followCell ((s.setAlm { s.alm with rootLost := true, conflict := true, listenFrom := s.alm.beat }).post 0x0103 0
            [(cell.rootSerial, 0), (cell.priority, 0)]) port subNs
        else s
      else followCell s port subNs

/-- ALM_HOLDOVER_TIMEOUT (02 R52): 64 beats without a valid cell from any candidate. -/
def execAlmHoldoverTimeout (s : State) : Host.Outcome State Fault Refusal :=
  s.run fun s =>
    let a := s.alm
    if !a.isRoot && (a.st == .locked || a.st == .slewing) && decide (a.listenFrom + 64 ≤ a.beat)
        && a.srcs.all fun p => decide (p.2.at_ + 64 ≤ a.beat) then
      (s.setAlm a.holdoverNow).post 0x0101 0 [(a.beat, 0)]
    else s

/-! ### PPS (02 R45, R46; 18 R479) -/

/-- The beat value of the edge nearest to the local count. -/
def ppsNearest (base beat : Nat) : Nat :=
  if beat ≤ base then base else base + ((beat - base + 500000) / 1000000) * 1000000

/-- Where the local count is expected to stand against PPS: what a slew has still to remove, else the offset last
measured. -/
def Almanac.expected (a : Almanac) : Int := if a.st = .slewing then a.slew / 10 else a.offset

/-- PPS_EDGE, at `subNs` ns within the local beat. -/
def execPpsEdge (subNs : Nat) (s : State) : Host.Outcome State Fault Refusal :=
  s.run fun s =>
    let a := s.alm
    if !(a.mode == .pps && !a.rootLost) then s
    else if !a.ppsSeen then
      let s := s.setAlm { a with ppsSeen := true, outliers := 0, source := 254, hops := 0, rootSerial := s.body.md.serial }
      let off : Int := ((a.beat * 1000 + subNs : Nat) : Int) - (a.ppsNext * 1000 : Nat)
      let s := if a.started then correct s off else setCount s a.ppsNext
      s.setAlm { s.alm with ppsLast := s.alm.beat, ppsGood := some s.alm.beat }
    else
      let off : Int := ((a.beat * 1000 + subNs : Nat) : Int) - (ppsNearest a.ppsNext a.beat * 1000 : Nat)
      if 1000 < (off - a.expected).natAbs ∧ a.st ≠ .holdover then
        let a := { a with ppsLast := a.beat }
        if a.outliers = 2 then s.setAlm { a.holdoverNow with outliers := 3 } else s.setAlm { a with outliers := a.outliers + 1 }
      else correct (s.setAlm { a with outliers := 0, ppsLast := a.beat, ppsGood := some a.beat }) off

/-- PPS_TIMEOUT: 1.5 s without an edge. -/
def execPpsTimeout (s : State) : Host.Outcome State Fault Refusal :=
  s.run fun s =>
    let a := s.alm
    if a.mode == .pps && !a.rootLost && decide (a.ppsLast + 1500000 ≤ a.beat) then
      s.setAlm { (if a.st == .locked || a.st == .slewing then a.holdoverNow else a) with ppsGood := none }
    else s

/-! ### Registers (02 R61, Table 3) -/

/-- The status word at 0x08. -/
def Almanac.statusWord (a : Almanac) : Nat :=
  a.st.code + (if a.mode = .follow then 0 else 2 ^ 3) + (if a.rootLost then 2 ^ 4 else 0) + (if a.ppsPresent then 2 ^ 5 else 0) +
    (if a.lateSeen then 2 ^ 6 else 0) + (if a.conflict then 2 ^ 7 else 0) + 2 ^ 8 * (a.source % 256) + 2 ^ 16 * (a.hops % 256)

/-- The bytes that a read of the Almanac registers returns, `latch` being the high half latched before, and the latch after
it. -/
def Almanac.readReg (a : Almanac) (latch : Option Nat) (part : AlmPart) : List Byte × Option Nat :=
  match part with
  | .low => (natLe 4 a.beat, some (a.beat / 2 ^ 32))
  | .high => (natLe 4 (latch.getD (a.beat / 2 ^ 32)), none)
  | .whole => (natLe 8 a.beat, latch)
  | .status => (natLe 8 a.statusWord, latch)
  | .offset => (natLe 4 (BitVec.ofInt 32 a.offset).toNat ++ natLe 2 a.errBound ++ natLe 2 0, latch)

/-- ALMANAC_BEAT_LOW_READ, and the other reads of the registers: the low half latches the high half, which the next read of
the high half returns. An unbound VF reads zeros (12 R343). -/
def execAlmanacBeatLowRead (rd : AlmRead) (s : State) : Host.Outcome State Fault Refusal :=
  s.run fun s =>
    let h := s.body.host
    if h.live rd.fn then
      let r := s.alm.readReg (h.fn rd.fn).beatHigh rd.part
      if !s.bound rd.fn then { s with body := { s.body with host := h.emit (.readData rd.fn (r.1.map fun _ => 0) false) } }
      else { s with body := { s.body with host := (h.setFn rd.fn { h.fn rd.fn with beatHigh := r.2 }).emit (.readData rd.fn r.1 false) } }
    else s

/-- ALM_STATUS_W1C: LATE_SEEN and ROOT_CONFLICT, from a PF only. -/
def execAlmStatusW1c (fn : Fn) (value : BitVec 64) (s : State) : Host.Outcome State Fault Refusal :=
  s.run fun s =>
    match fn with
    | .pf _ =>
      if s.body.host.live fn then
        s.setAlm { s.alm with
          lateSeen := s.alm.lateSeen && !value.getLsbD 6
          conflict := s.alm.conflict && !value.getLsbD 7 }
      else s
    | .vf _ _ => s

/-! ### Letters (02 Tables 6 to 8) -/

/-- `almanac.root` FOLLOW: the package ceases to be root. -/
def effRootFollow (s : State) (_l : Letter) (_ : Nat) : State × Res :=
  (s.setAlm { s.alm with mode := .follow, rootLost := false, priority := 0, source := 255, listenFrom := s.alm.beat }, Res.ok [])

/-- `almanac.root` ROOT_INTERNAL: LOCKED at once; from FREE or ACQUIRING the count becomes START_BEAT. -/
def effRootInternal (s : State) (l : Letter) (_ : Nat) : State × Res :=
  if s.alm.started ∧ l.arg 16 8 ≠ 0 then (s, Res.at_ 9 16)
  else
    let a := { s.alm with mode := .internal, rootLost := false, srcBound := 0, priority := l.arg 1 1, rootSerial := s.body.md.serial, hops := 0, source := 255, offset := 0 }
    if s.alm.started then (s.setAlm { a with st := .locked, since := if a.st = .locked then a.since else a.beat, slew := 0, slewFrom := 0, step := none }, Res.ok [])
    else (setCount (s.setAlm a) (l.arg 16 8), Res.ok [])

/-- `almanac.root` ROOT_PPS: the next rising edge is beat PPS_BEAT. Until that edge a started package keeps its state, slew
and step, and reports source 254 and 0 hops (DESIGN CHOICE, log entry 173: the spec does not say what it reports). -/
def effRootPps (s : State) (l : Letter) (_ : Nat) : State × Res :=
  if s.alm.started ∧ l.arg 8 8 < s.alm.beat then (s, Res.at_ 0x21 8)
  else
    (s.setAlm { s.alm with mode := .pps, rootLost := false, srcBound := 0, priority := l.arg 1 1, ppsNext := l.arg 8 8, ppsSeen := false, outliers := 0, rootSerial := s.body.md.serial, hops := 0, source := 254, ppsLast := s.alm.beat }, Res.ok [])

def Mgmt.used (m : Mgmt) : Nat := (m.schedule.filter fun e => e.counts).length

/-- `almanac.status`. -/
def effStatus (s : State) (_l : Letter) (_ : Nat) : State × Res :=
  let a := s.alm
  (s, Res.ok (natLe 8 a.beat ++ natLe 1 a.st.code ++ natLe 1 a.hops ++ natLe 1 a.source ++
    natLe 1 ((if a.mode = .follow then 0 else 1) + (if a.rootLost then 2 else 0) + (if a.ppsPresent then 4 else 0) + (if a.lateSeen then 8 else 0)) ++
    natLe 4 (BitVec.ofInt 32 a.offset).toNat ++ natLe 8 a.rootSerial ++ natLe 4 (BitVec.ofInt 32 a.freqNow).toNat ++
    natLe 2 a.errBound ++ natLe 2 s.body.mg.used ++ natLe 8 a.since))

/-- Offset of the effective-beat field of a letter that has one. -/
def beatField (op : Nat) (a : List Byte) : Option Nat :=
  if op = 0x0401 then some 8
  else if op = 0x0903 ∨ op = 0x0904 ∨ op = 0x0905 then some 0
  else if op = 0x0404 ∧ field a 0 1 = 2 then some 8
  else none

/-- 02 R60: the checks of a wrapped letter. -/
def innerRefuses (s : State) (l : Letter) : Option (Nat × Nat) :=
  let op := l.arg 16 2
  let len := l.arg 18 2
  let a := (l.args.drop 32).take len
  match argBytes op with
  | none => some (9, 16)
  | some m =>
    if m < len then some (9, 18)
    else if !portOk l.stamp op a then some (6, 0xFFFF)
    else if !ownerOk s.body.data l.stamp op a then some (7, 0xFFFF)
    else
      let bf := beatField op a
      let skip (c : Chk) : Bool := bf == some c.off && !c.rsv
      match firstBad ((argChecks s.body.data op a).filter fun c => !skip c) with
      | some (st, o) => some (st, 32 + o)
      | none =>
        if op = 0x0A03 then some (0x24, 0xFFFF)
        else match bf with
          | some o => if field a o 8 = 0 then none else some (0x24, 32 + o)
          | none => none

/-- `almanac.schedule` ADD. -/
def effScheduleAdd (s : State) (l : Letter) (_ : Nat) : State × Res :=
  match innerRefuses s l with
  | some (st, f) => (logDenied s l st, Res.at_ st f)
  | none =>
    if l.arg 8 8 = 0 then
      let (s, t) := addEntry s l (s.alm.beat + 1) .wrapped false
      (s.mg fun m => { m with instant := (t, l.stamp) :: m.instant }, Res.tick t)
    else schedule s l (l.arg 8 8) 8 .wrapped

/-- `almanac.schedule` CANCEL (02 R60). -/
def effScheduleCancel (s : State) (l : Letter) (_ : Nat) : State × Res :=
  match s.body.mg.schedule.find? fun e => e.ticket == l.arg 4 4 && l.arg 4 4 != 0 with
  | none =>
    if s.body.mg.instant.any fun x => x.1 == l.arg 4 4 && (x.2 == l.stamp || isPf l.stamp) then (s, Res.at_ 0x25 4)
    else (s, Res.at_ 0x27 4)
  | some e =>
    if !(e.letter.stamp == l.stamp || isPf l.stamp) then (s, Res.at_ 0x27 4)
    else if !e.counts || decide (e.beat ≤ s.alm.beat + 1) then (s, Res.at_ 0x25 4)
    else (dropEntry s e.ticket, Res.ok (natLe 4 e.ticket))

def execAlmanacRootFollow (s : State) := letterRow s (fun l => l.op == 0x0A01 && l.arg 0 1 == 0) effRootFollow
def execAlmanacRootInternal (s : State) := letterRow s (fun l => l.op == 0x0A01 && l.arg 0 1 == 1) effRootInternal
def execAlmanacRootPps (s : State) := letterRow s (fun l => l.op == 0x0A01 && l.arg 0 1 == 2) effRootPps
def execAlmanacStatus (s : State) := letterRow s (fun l => l.op == 0x0A02) effStatus
def execAlmanacScheduleAdd (s : State) := letterRow s (fun l => l.op == 0x0A03 && l.arg 0 1 == 1) effScheduleAdd
def execAlmanacScheduleCancel (s : State) := letterRow s (fun l => l.op == 0x0A03 && l.arg 0 1 == 2) effScheduleCancel

end Sys2Proof.Machine
end

