-- ==== Sys2Proof/Machine/FloatFns.lean ====
section
/-! DEFINITION. The special functions (04 R119): each function's exact value to far more than single precision, and
the value taken, which is any FP32 value within the stated error of it. -/

namespace Sys2Proof.Machine

/-- ln 2 and pi in units of 2^-256. -/
def ln2Fix : Nat := 80260960185991308862233904206310070533990667611589946606122867505419956976171
def piFix : Nat := 363771576891766324280234942777729862653393377328392429958772151117938894466185

/-- Sum of the first `n` terms of exp of `t` (units of 2^-256), from term number `k` of value `a` on. -/
def expTerms : Nat → Nat → Nat → Nat → Nat
  | 0, _, _, _ => 0
  | n + 1, k, a, t => a + expTerms n (k + 1) (a * t / 2 ^ 256 / k) t

/-- 2 to an exact power between -200 and 200. -/
def ex2Dy (x : Dy) : Dy :=
  let s : Int := x.m * 2 ^ (256 + x.e).toNat / 2 ^ (-(256 + x.e)).toNat
  let n := s / 2 ^ 256
  let f := (s - n * 2 ^ 256).toNat
  ⟨expTerms 60 1 (2 ^ 256) (f * ln2Fix / 2 ^ 256), n - 256⟩

/-- Bits of log2 of `y` in [1, 2), in units of 2^-256, most significant first. -/
def lg2Bits : Nat → Nat → Nat → Nat
  | 0, _, a => a
  | n + 1, y, a =>
    let z := y * y / 2 ^ 256
    if 2 ^ 257 ≤ z then lg2Bits n (z / 2) (2 * a + 1) else lg2Bits n z (2 * a)

/-- log2 of a positive number. -/
def lg2Dy (x : Dy) : Dy :=
  let l := Nat.log2 x.m.natAbs
  let y := x.m.natAbs * 2 ^ 256 / 2 ^ l
  dyAdd ⟨l + x.e, 0⟩ ⟨lg2Bits 120 y 0, -120⟩

/-- The quotient a / b to 128 bits and more, for a, b positive. -/
def quotDy (a b : Dy) : Dy :=
  let k := Nat.log2 b.m.natAbs + 192
  ⟨a.m * 2 ^ k / b.m, a.e - b.e - k⟩

/-- The square root of a positive number. -/
def sqrtDy (x : Dy) : Dy :=
  let e := if x.e % 2 = 0 then x.e - 256 else x.e - 255
  ⟨Nat.sqrt (x.m.natAbs * 2 ^ (x.e - e).toNat), e / 2⟩

/-- Alternating Taylor sum of sine (from `a = t, k = 2`) or cosine (from `a = 1, k = 1`), units of 2^-256. -/
def trigTerms : Nat → Nat → Int → Int → Int
  | 0, _, _, _ => 0
  | n + 1, k, a, t => a + trigTerms n (k + 2) (-(a * t / 2 ^ 256 * t / 2 ^ 256 / (k * (k + 1)))) t

/-- Sine or cosine of an exact angle. -/
def trigDy (cos : Bool) (x : Dy) : Dy :=
  let s : Int := x.m * 2 ^ (256 + x.e).toNat / 2 ^ (-(256 + x.e)).toNat
  let t := s % (2 * piFix)
  let t := if (piFix : Int) < t then t - 2 * piFix else t
  ⟨if cos then trigTerms 60 1 (2 ^ 256) t else trigTerms 60 2 t t, -256⟩

/-- Hyperbolic tangent of an exact number: the cubic below 2^-20, saturated beyond 40. -/
def tanhDy (x : Dy) : Dy :=
  let a := dyAbs x
  let r : Dy :=
    if dyLt a ⟨1, -20⟩ then dyAdd a (dyNeg (quotDy (dyMul a (dyMul a a)) ⟨3, 0⟩))
    else if dyLt ⟨40, 0⟩ a then ⟨1, 0⟩
    else
      let e := ex2Dy (quotDy (dyMul ⟨2, 0⟩ a) ⟨ln2Fix, -256⟩)
      quotDy (dyAdd e ⟨-1, 0⟩) (dyAdd e ⟨1, 0⟩)
  if x.m < 0 then dyNeg r else r

/-- `k` units in the last place of FP32 at the magnitude of `x`. -/
def ulps (k : Int) (x : Dy) : Dy :=
  ⟨k, if x.m = 0 then -149 else max (Nat.log2 x.m.natAbs + x.e) (-126) - 23⟩

/-- The FP32 value taken for exact value `x` under an error bound: the drawn one if it lies within the bound, else the
nearest. -/
def pickNear (draw : W32) (x tol : Dy) : Nat :=
  match decodeF fp32 draw.toNat with
  | .fin y => if dyLt tol (dyAbs (dyAdd y (dyNeg x))) then encodeDy fp32 .rne x else encodeDy fp32 .rne y
  | _ => encodeDy fp32 .rne x

/-- A value the spec does not state: the drawn one, written as a result is (06 R178, R179). -/
def pickAny (draw : W32) : Nat := encodeF fp32 .rne (decodeF fp32 draw.toNat)

/-- Code of an infinity. -/
def infCode (neg : Bool) : Nat := encodeF fp32 .rne (.inf neg)

/-- The eight functions of 04 R119 by number from `rcp` 0 to `tanh` 7: the result's code and the cause of a created
NaN (06 Table 5), 0 for none. -/
def sfu (fn : Nat) (draw : W32) (v : FVal) : Nat × Nat :=
  let nan := 0x7FC00000
  match v with
  | .nan => (nan, 0)
  | .inf neg =>
    match fn with
    | 0 => (0, 0)
    | 1 => if neg then (nan, 2) else (0, 0)
    | 2 => if neg then (nan, 2) else (infCode false, 0)
    | 3 => if neg then (0, 0) else (infCode false, 0)
    | 4 => if neg then (nan, 2) else (infCode false, 0)
    | 5 | 6 => (nan, 2)
    | _ => let one : Dy := ⟨if neg then -1 else 1, 0⟩
      (pickNear draw one (ulps 2 one), 0)
  | .fin x =>
    match fn with
    | 0 => if x.m = 0 then (infCode false, 0)
      else
        let q := quotDy ⟨1, 0⟩ (dyAbs x)
        let y := if x.m < 0 then dyNeg q else q
        (pickNear draw y (ulps 1 y), 0)
    | 1 => if x.m < 0 then (nan, 2) else if x.m = 0 then (infCode false, 0)
      else
        let y := quotDy ⟨1, 0⟩ (sqrtDy x)
        (pickNear draw y (ulps 1 y), 0)
    | 2 => if x.m < 0 then (nan, 2) else if x.m = 0 then (0, 0)
      else
        let y := sqrtDy x
        (pickNear draw y (ulps 1 y), 0)
    | 3 => if dyLt ⟨129, 0⟩ x then (infCode false, 0)
      else
        let y := if dyLt x ⟨-180, 0⟩ then ⟨1, -180⟩ else ex2Dy x
        (pickNear draw y (ulps 2 y), 0)
    | 4 => if x.m < 0 then (nan, 2)
      else if x.m = 0 then (pickAny draw, if pickAny draw = nan then 2 else 0)
      else
        let y := lg2Dy x
        (pickNear draw y (ulps 2 y), 0)
    | 5 | 6 =>
      if dyLt ⟨64 * piFix, -256⟩ (dyAbs x) then (pickAny draw, if pickAny draw = nan then 2 else 0)
      else (pickNear draw (trigDy (fn == 6) x) ⟨1, -21⟩, 0)
    | _ => let y := tanhDy x
      (pickNear draw y (ulps 2 y), 0)

end Sys2Proof.Machine
end

