-- ==== Sys2Proof/Machine/Flags.lean ====
section
/-! DEFINITION. The sticky reports of execution: created NaNs and ACC_SAT, their traps, notices and counts
(05 R157; 06 R191-R196). The block has no arithmetic flags of another kind. -/

namespace Sys2Proof.Machine

/-- 06 Table 6: DETAIL of a NAN_TRAP record. -/
def nanDetail (kpos e0 e1 set : Nat) (notice first multi : Bool) (unit cause : Nat) : W64 :=
  BitVec.ofNat 64 (kpos + 2 ^ 16 * e0 + 2 ^ 22 * e1 + 2 ^ 28 * set + (if notice then 2 ^ 29 else 0) +
    (if first then 2 ^ 30 else 0) + (if multi then 2 ^ 31 else 0) + 2 ^ 32 * unit + 2 ^ 36 * cause)

/-- 05 Table 6: DETAIL of a SAT_TRAP record. -/
def satDetail (kpos row col set : Nat) (notice : Bool) : W64 :=
  BitVec.ofNat 64 (kpos + 2 ^ 16 * row + 2 ^ 22 * col + 2 ^ 28 * set + if notice then 2 ^ 29 else 0)

/-- What an instruction that created a NaN reports: creating threads, unit and cause of 06 Tables 5 and 6, K position,
element and set. -/
structure NanInfo where
  mask : W32
  multi : Bool
  unit : Nat
  cause : Nat
  kpos : Nat
  e0 : Nat
  e1 : Nat
  set : Nat
  deriving DecidableEq, Repr

/-- The first NaN record of its launch (06 R194, R195). -/
def Data.nanFirst (d : Data) (launch : Nat) : Bool := ((d.anyLaunch launch).map fun l => !l.nanFirst).getD false

/-- 06 R194: a creating instruction is counted, trapped or not. -/
def Data.countNan (d : Data) (launch : Nat) (notice : Option FaultRec) : Data :=
  d.modLaunch launch fun l =>
    { l with nan := l.nan + 1, nanFirst := true, nanNotice := if l.nanFirst then l.nanNotice else notice }

/-- 05 R157: a clear-to-set transition of ACC_SAT is counted. -/
def Data.countSat (d : Data) (launch : Nat) (notice : Option FaultRec) : Data :=
  d.modLaunch launch fun l =>
    { l with sat := l.sat + 1, satFirst := true, satNotice := if l.satFirst then l.satNotice else notice }

/-- 06 R193, R196; 05 R157: a trapped creation is a late fault in mode CONTINUE, and a group traps once for NaNs. How many
instructions the group still issues until it stops, is time: it stops at LATE_FAULT_PARK. -/
def Group.trapLate (g : Group) (f : LateFault) : Group :=
  { g with trapNan := if f.cls = .nanTrap then false else g.trapNan, late := g.late ++ [f] }

/-- A late fault without memory operations. -/
def lateOf (cls : FaultClass) (beat iseq sub : Nat) (pc : W64) (op : BitVec 10) (mask : W32) (detail : W64) : LateFault :=
  { iseq := iseq, beat := beat, cls := cls, sub := sub, pc := pc, opcode := op, mask := mask, addr := 0, detail := detail, ops := [] }

/-- The record of a group: place, plot, context and age filled in. -/
def recOf (c s : Nat) (g : Group) (b : Block) (beat : Nat) (cls : FaultClass) (sub : Nat) (pc resume addr : W64)
    (mask : W32) (op : BitVec 10) (mode : ReplayMode) (detail : W64) (notice : Bool) (ops : List LineReq) : FaultRec :=
  { cls := cls, sub := sub, beat := beat, core := c, slot := s, block := g.block, plot := b.plot, ctx := b.ctx, pc := pc,
    resume := resume, addr := addr, mask := mask, opcode := op, mode := mode, detail := detail, age := g.age,
    notice := notice, ops := ops }

end Sys2Proof.Machine
end

