-- ==== Sys2Proof/Machine/Operands.lean ====
section
/-! DEFINITION. The fields of an instruction word, the operand forms and the registers (04 R109-R115). -/

namespace Sys2Proof.Machine

/-! ### Fields (04 Table 1) -/

/-- Bits `hi` to `lo` of the word. -/
def Issue.b (x : Issue) (hi lo : Nat) : Nat := bits x.f.toNat hi lo

def Issue.guard (x : Issue) : Nat := Issue.b x 53 50
def Issue.dest (x : Issue) : Nat := Issue.b x 49 42
def Issue.src1 (x : Issue) : Nat := Issue.b x 41 34
def Issue.src2 (x : Issue) : Nat := Issue.b x 33 26
def Issue.src3 (x : Issue) : Nat := Issue.b x 25 18
/-- MOD of the REG and MTX formats, MOD4 of the IMM format (04 R117). -/
def Issue.md (x : Issue) : Nat := if x.imm then Issue.b x 29 26 else Issue.b x 17 8
def Issue.dsp (x : Issue) : Nat := if x.imm then Issue.b x 33 32 else Issue.b x 7 6
def Issue.sp1 (x : Issue) : Nat := if x.imm then Issue.b x 31 30 else Issue.b x 5 4
def Issue.sp2 (x : Issue) : Nat := Issue.b x 3 2
def Issue.sp3 (x : Issue) : Nat := Issue.b x 1 0
def Issue.imm26 (x : Issue) : Nat := Issue.b x 25 0

/-! ### Operands (04 R112-R114) -/

/-- A register operand: space code, specifier, number of registers. -/
structure Ref where
  sp : Nat
  n : Nat
  cnt : Nat
  deriving DecidableEq, Repr

/-- 04 R112, R113: a legal specifier; 255 is the zero operand. -/
def refLegal (r : Ref) : Bool :=
  r.n == 255 ||
    (r.n % (if r.cnt = 4 then 4 else if r.cnt = 2 then 2 else 1) == 0 &&
      match r.sp with
      | 0 => true
      | 1 => decide (r.n + r.cnt ≤ 64)
      | 2 => decide (r.n ≤ 7)
      | _ => decide (r.n ≤ 1))

/-- 03 R69: the operand names a vector register at or beyond regs_alloc. Register 255 of a pair or quad with regs_alloc 256
is below it and is no register: it reads as zero and discards (DEDUCED, log entry 169). -/
def refBeyond (alloc : Nat) (r : Ref) : Bool := r.sp == 0 && r.n != 255 && decide (alloc < r.n + r.cnt)

/-- Two operands share a register. -/
def refMeets (a b : Ref) : Bool :=
  a.sp == b.sp && a.n != 255 && b.n != 255 && decide (a.n < b.n + b.cnt) && decide (b.n < a.n + a.cnt)

/-! ### Registers -/

/-- Register `n` of space v or u as thread `t` reads it; the zero operand reads zero. -/
def Group.rd (g : Group) (sp n t : Nat) : W32 :=
  if n = 255 then 0 else if sp = 0 then mgetD g.v (32 * n + t) 0 else if sp = 1 then mgetD g.u n 0 else mgetD g.p n 0

/-- Write thread `t`'s v register; the zero operand discards. -/
def Group.wrV (g : Group) (n t : Nat) (x : W32) : Group :=
  if n = 255 then g else { g with v := cput 0 g.v (32 * n + t) x }

/-- Write a u register. -/
def Group.wrU (g : Group) (n : Nat) (x : W32) : Group := if n = 255 then g else { g with u := cput 0 g.u n x }

/-- Write a predicate. -/
def Group.wrP (g : Group) (n : Nat) (x : W32) : Group := if n = 255 then g else { g with p := cput 0 g.p n x }

/-- A register pair as thread `t` reads it: the low register holds the low half (04 R113). -/
def Group.rdPair (g : Group) (sp n t : Nat) : W64 :=
  if n = 255 then 0 else BitVec.ofNat 64 ((g.rd sp n t).toNat + 2 ^ 32 * (g.rd sp (n + 1) t).toNat)

/-- Write a u pair. -/
def Group.wrUPair (g : Group) (n : Nat) (x : W64) : Group :=
  if n = 255 then g else (g.wrU n (x.truncate 32)).wrU (n + 1) ((x >>> 32).truncate 32)

/-- Write `f t` to v register `n` of every thread of `m`. -/
def Group.wrVs (g : Group) (n : Nat) (m : W32) (f : Nat → W32) : Group :=
  (threads m).foldl (fun g t => g.wrV n t (f t)) g

/-- 04 R111: the threads that are active and guarded on. -/
def Group.on (g : Group) (guard : Nat) : W32 :=
  if guard = 0 then g.active
  else
    let p := g.rd 2 (guard % 8) 0
    g.active &&& (if 8 ≤ guard then ~~~p else p)

/-- 04 R114: a predicate source read by a uniform instruction: any active thread set. -/
def Group.anySet (g : Group) (n : Nat) : Bool := g.rd 2 n 0 &&& g.active != 0

/-! ### The immediate (04 R115) -/

/-- IMM26 as an integer: sign-extended to 32 bits. -/
def immInt (x : Issue) : W32 := BitVec.ofInt 32 (sext 26 (Issue.imm26 x))

/-- IMM26 as bits [31:6] of an FP32 value or of `mov.hi`. -/
def immHigh (x : Issue) : W32 := BitVec.ofNat 32 (Issue.imm26 x * 64)

/-- IMM26[15:0] in both halves. -/
def immPacked (x : Issue) : W32 := BitVec.ofNat 32 (Issue.imm26 x % 65536 * 65537)

/-! ### Shapes of the arithmetic instructions -/

/-- The operands of an arithmetic instruction: destination space allowed, and register sources with the spaces
allowed for each (04 R114, R115, R117, R122). -/
structure Shape where
  /-- number of value sources, the immediate among them -/
  srcs : Nat
  /-- MOD values allowed in either format -/
  modOk : Nat → Bool
  /-- allowed destination spaces -/
  dsps : List Nat
  /-- may be uniform when DSP is 1 -/
  uni : Bool

/-- Sources in register fields: in the IMM format source 2 is the immediate and source 3 the destination. -/
def srcRefs (n : Nat) (x : Issue) : List Ref :=
  if x.imm then
    (if 2 ≤ n then [⟨Issue.sp1 x, Issue.src1 x, 1⟩] else []) ++
      (if 3 ≤ n then [⟨Issue.dsp x, Issue.dest x, 1⟩] else [])
  else
    [⟨Issue.sp1 x, Issue.src1 x, 1⟩] ++ (if 2 ≤ n then [⟨Issue.sp2 x, Issue.src2 x, 1⟩] else []) ++
      (if 3 ≤ n then [⟨Issue.sp3 x, Issue.src3 x, 1⟩] else [])

/-- Value of source `i` (1, 2 or 3) for thread `t`; `im` is the immediate as the class reads it. -/
def srcVal (g : Group) (x : Issue) (im : W32) (i t : Nat) : W32 :=
  match i with
  | 1 => g.rd (Issue.sp1 x) (Issue.src1 x) t
  | 2 => if x.imm then im else g.rd (Issue.sp2 x) (Issue.src2 x) t
  | _ => if x.imm then g.rd (Issue.dsp x) (Issue.dest x) t else g.rd (Issue.sp3 x) (Issue.src3 x) t

/-- Spaces of value sources are v or u, and u only in a uniform instruction (04 R114). -/
def srcSpaces (uni : Bool) (l : List Ref) : Bool :=
  l.all fun r => (r.sp == 1 || (r.sp == 0 && !uni)) && refLegal r

end Sys2Proof.Machine
end

