-- ==== Sys2Proof/Machine/Issue.lean ====
section
/-! DEFINITION. The issue of one Huval instruction by one group: readiness, guards, issue-time faults and what follows
an instruction (03 R69, R73-R78, R95; 04 R110-R114). -/

namespace Sys2Proof.Machine

/-- What an instruction does once it may issue. -/
inductive Exec where
  /-- not ready: the group does not issue (03 R75) -/
  | hold
  /-- an issue-time fault: class, threads, address of the lowest of them (03 R95) -/
  | fault (cls : FaultClass) (mask : W32) (addr : W64)
  /-- done; the PC advances by 8 -/
  | next (d : Data) (g : Group) (nan : Option NanInfo)
  /-- done; the PC is the one given -/
  | jump (d : Data) (g : Group) (pc : W64)
  /-- the group waits or parks at this instruction -/
  | wait (d : Data) (g : Group)
  /-- done, the group's new state included -/
  | raw (d : Data)

/-- What an instruction's meaning is given: its group, thread block, core, place, beat, and the threads that are
active and guarded on. -/
structure GCtx where
  c : Nat
  s : Nat
  beat : Nat
  k : Core
  g : Group
  b : Block
  on : W32
  x : Issue

/-- An instruction (04 Table 4): its opcode with IMMF clear, whether the IMM and the REG format are defined, its encoding
rules, whether it is group-wide, its operands, its SUBCODE (03 Table 6), whether an acquire holds it (04 R127), and
its effect. -/
structure OpSpec where
  code : Nat
  immOk : Bool
  regOk : Bool
  legal : Issue → Bool
  wide : Issue → Bool
  refs : Issue → List Ref
  sub : Option Nat
  mem : Bool
  exec : Data → GCtx → Exec

/-- Bits [63:54] of the word. -/
def opcodeOf (sp : OpSpec) (x : Issue) : BitVec 10 := x.code.getD (BitVec.ofNat 10 (sp.code + if x.imm then 0x200 else 0))

/-- The 64-bit word (04 R108, R109). -/
def wordOf (sp : OpSpec) (x : Issue) : Nat := (opcodeOf sp x).toNat * 2 ^ 54 + x.f.toNat

/-- 04 R110, R111: ILLEGAL encodings; the guard 0b1000 is reserved. -/
def illegal (sp : OpSpec) (x : Issue) : Bool :=
  x.code.isSome || (if x.imm then !sp.immOk else !sp.regOk) || Issue.guard x == 8 || !sp.legal x

/-- Destinations of a request. -/
def reqDest (r : LineReq) : List Ref :=
  match r.op with
  | .load _ _ size dest du => [⟨if du then 1 else 0, dest, if size = 6 then 4 else if size = 5 then 2 else 1⟩]
  | .store _ => []
  | .atom _ ty _ dest => [⟨0, dest, atomSize ty / 4⟩]
  | .desc .. => []

/-- The group's outstanding requests. -/
def Data.reqsOf (d : Data) (c s : Nat) (g : Group) : List LineReq :=
  d.reqs.filter fun r => r.core == c && r.slot == s && r.age == g.age

/-- The group's requests for whose end it can wait: all but posted stores. -/
def Data.openReqs (d : Data) (c s : Nat) (g : Group) : List LineReq := (d.reqsOf c s g).filter fun r => !r.isPosted

/-- The group's matrix instructions not yet completed. -/
def arrOf (k : Core) (s : Nat) (g : Group) : List ArrOp := k.arrQ.filter fun o => o.slot == s && o.age == g.age

/-- Registers with a pending write (03 R75). -/
def Data.pending (d : Data) (c s : Nat) (k : Core) (g : Group) : List Ref :=
  (d.reqsOf c s g).flatMap reqDest ++
    ((arrOf k s g).filter fun o => o.kind == .accFlags).map fun o => ⟨1, o.dest, 1⟩

/-- 04 R127: an atomic that acquires has not returned. -/
def Data.acquiring (d : Data) (c s : Nat) (g : Group) : Bool :=
  (d.reqsOf c s g).any fun r => match r.op with
    | .atom _ _ sc _ => decide (0 < sc)
    | _ => false

/-- The SUBCODE of an instruction: open where 03 Table 6 names none for it. -/
def subOf (sp : OpSpec) (d : Data) : Nat :=
  match sp.sub with
  | some n => n
  | none => Config.freeNat d.free % 65536

/-- 03 R95: the faulting instruction has no effect; one record; the group parks at it. -/
def postIssueFault (sp : OpSpec) (d : Data) (q : GCtx) (cls : FaultClass) (mask : W32) (addr : W64) : Data :=
  let r := recOf q.c q.s q.g q.b q.beat cls (subOf sp d) q.g.pc q.g.pc addr mask (opcodeOf sp q.x) cls.issueMode 0 false []
  let d := (d.setGroup q.c q.s { q.g with st := .faultPark, act := false }).holdRec q.b.ctx q.b.launch r
  { d with free := d.free + 1 }

/-! ### Fetch (03 R106, R107) -/

/-- The plot of a group's thread block. -/
def groupPlot (k : Core) (g : Group) : Nat := ((mget k.blocks g.block).map fun b => b.plot).getD 64

/-- A bundle's bytes as memory has them; none where it lies in no memory of this package that the plot reaches. -/
def Data.bundle (d : Data) (plot a : Nat) : List Byte :=
  match place d { kind := .group, plot := plot, forerunner := false, own := none } (64 * a) with
  | .ok (.phys p) => if d.isLost p then [] else d.rdN (d.scratchHome p) 64
  | _ => []

/-- An instruction cache of 64 KiB with one bundle more (03 R63): a full one gives up another. -/
def icachePut (m : SMap (List Byte)) (free a : Nat) (l : List Byte) : SMap (List Byte) :=
  if m.length < 1024 ∨ (mget m a).isSome then mput m a l
  else mput (m.eraseIdx (Config.victim free a % m.length)) a l

/-- Fetch bundle `a` for a group slot that has not fetched it: from the instruction cache, or from memory. -/
def Data.fetch1 (d : Data) (c s plot a : Nat) : Data :=
  let k := d.core c
  let buf := mgetD k.fetchBuf s []
  if (mget buf a).isSome then d
  else
    let l := match mget k.icache a with
      | some l => if Config.refetch d.free a then d.bundle plot a else l
      | none => d.bundle plot a
    d.setCore c { k with icache := icachePut k.icache d.free a l, fetchBuf := mput k.fetchBuf s ((a, l) :: buf) }

/-- The bundle of a group's next instruction is fetched, and no other is kept for it. -/
def Data.fetchNext (d : Data) (c s : Nat) (g : Group) : Data :=
  let a := g.pc.toNat / 64
  let d := d.fetch1 c s (groupPlot (d.core c) g) a
  let k := d.core c
  d.setCore c { k with fetchBuf := mmod k.fetchBuf s fun b => b.filter fun e => e.1 == a }

/-- What comes before an issue: the bundles of the instruction and of the one at PC + 8 have been fetched, which is the next
one of a group that comes to wait. -/
def Data.fetched (d : Data) (c s plot : Nat) (pc : W64) : Data :=
  (d.fetch1 c s plot (pc.toNat / 64)).fetch1 c s plot ((pc + 8).toNat / 64)

/-- The word is the one that the group has fetched. A bundle from elsewhere than this package's memory holds what the
command says. -/
def fetchOk (sp : OpSpec) (d : Data) (q : GCtx) : Bool :=
  match mget (mgetD (d.core q.c).fetchBuf q.s []) (q.g.pc.toNat / 64) with
  | some [] => true
  | some l => leNat ((l.drop (q.g.pc.toNat % 64)).take 8) == wordOf sp q.x
  | none => false

/-- The group after an instruction, its next one fetched; one none of whose threads remains has ended (03 R70). -/
def putGroup (d : Data) (c s : Nat) (g : Group) : Data :=
  if g.active = 0 then (d.setGroup c s g).endGroup c s else (d.setGroup c s g).fetchNext c s g

/-- A group that waits in place (03 R76): it has left the active set until its outstanding requests have come. -/
def Data.stall (d : Data) (c s : Nat) (g : Group) : Data :=
  d.setGroup c s { g with act := false, waitsOn := (d.openReqs c s g).map fun r => r.id }

/-- 06 R193, R194: the report of a NaN that the instruction created. -/
def reportNan (sp : OpSpec) (d : Data) (q : GCtx) (g : Group) (i : NanInfo) : Data × Group :=
  let first := d.nanFirst q.b.launch
  let detail (n : Bool) := nanDetail i.kpos i.e0 i.e1 i.set n first i.multi i.unit i.cause
  if q.g.trapNan then
    (d.countNan q.b.launch none,
      g.trapLate (lateOf .nanTrap q.beat q.g.iseq 5 q.g.pc (opcodeOf sp q.x) i.mask (detail false)))
  else
    (d.countNan q.b.launch (some (recOf q.c q.s q.g q.b q.beat .nanTrap 5 q.g.pc q.g.pc 0 i.mask (opcodeOf sp q.x)
      .continue (detail true) true [])), g)

/-- Take the result of an instruction's effect. -/
def finishExec (sp : OpSpec) (d0 : Data) (q : GCtx) : Exec → Data
  | .hold => d0
  | .fault cls mask addr => postIssueFault sp d0 q cls mask addr
  | .next d g none => putGroup d q.c q.s (g.advance (q.g.pc + 8))
  | .next d g (some i) =>
    let (d, g) := reportNan sp d q g i
    putGroup d q.c q.s (g.advance (q.g.pc + 8))
  | .jump d g pc => putGroup d q.c q.s (g.advance pc)
  | .wait d g => d.stall q.c q.s g
  | .raw d => d

/-! ### The active set (03 R76, R77) -/

/-- 03 R77: the order of age: placement of the thread block, then group index. -/
def Core.rank (k : Core) (g : Group) : Nat := 32 * ((mget k.blocks g.block).map fun b => b.age).getD 0 + g.index

/-- A group that could issue but for an active entry: running, not parked, and no result is outstanding for which its next
instruction is known to wait. -/
def readyPending (d : Data) (g : Group) : Bool :=
  !g.act && g.st == .run && !g.mgmt && !g.stop && g.waitsOn.all fun i => !d.reqs.any fun r => r.id == i

/-- An active entry is free, and no older group is ready for it (03 R77). -/
def entryFree (d : Data) (k : Core) (g : Group) : Bool :=
  decide (mcount k.groups (fun _ h => h.act) < 8) && !k.groups.any fun e => readyPending d e.2 && decide (k.rank e.2 < k.rank g)

/-- The group may issue at all: resident and running, not parked, its core not under a pass, an active-set entry held
or its to take (03 R76, R77, R94, R103; 14 R399). -/
def canIssue (d : Data) (k : Core) (g : Group) : Bool :=
  !d.halted && g.st == .run && !g.mgmt && !g.stop &&
    (match k.pass with
      | .running .. => false
      | _ => true) &&
    (g.act || entryFree d k g)

/-- The instruction's place in the machine, if its group may issue. -/
def issueCtx (d : Data) (beat : Nat) (x : Issue) : Option GCtx :=
  let k := d.core x.core
  (mget k.groups x.slot).bind fun g =>
    (mget k.blocks g.block).bind fun b =>
      if canIssue d k g then
        some { c := x.core, s := x.slot, beat := beat, k := k, g := { g with act := true, waitsOn := [] }, b := b, on := g.on (Issue.guard x), x := x }
      else none

/-- The instruction waits for a request of its group: a register of it has a pending write, or an acquire is on its way. -/
def waitsReq (sp : OpSpec) (d : Data) (q : GCtx) : Bool :=
  ((sp.refs q.x).any fun r => ((d.reqsOf q.c q.s q.g).flatMap reqDest).any (refMeets r)) || (sp.mem && d.acquiring q.c q.s q.g)

/-- Checks of the word, then readiness, then the effect (03 R75, R76, R95; 04 R110, R111). A group leaves the active set when
its next instruction waits for a request; one that waits for the array's flags stays there. -/
def issueWord (sp : OpSpec) (d : Data) (q : GCtx) : Data :=
  if illegal sp q.x then postIssueFault sp d q .illegal q.g.active 0
  else if sp.wide q.x && q.on == 0 && Issue.guard q.x != 0 then putGroup d q.c q.s (q.g.advance (q.g.pc + 8))
  else if (sp.refs q.x).any (refBeyond q.b.regsAlloc) then postIssueFault sp d q .operandRange q.on 0
  else if (sp.refs q.x).any (fun r => (d.pending q.c q.s q.k q.g).any (refMeets r)) || (sp.mem && d.acquiring q.c q.s q.g) then
    if waitsReq sp d q then d.stall q.c q.s q.g else d.setGroup q.c q.s q.g
  else finishExec sp d q (sp.exec d q)

/-- One group issues one instruction, if the command's word is the one it has fetched. -/
def runIssue (sp : OpSpec) (d : Data) (beat : Nat) (x : Issue) : Data :=
  match issueCtx d beat x with
  | none => d
  | some q =>
    let d' := d.fetched q.c q.s q.b.plot q.g.pc
    if fetchOk sp d' q then issueWord sp d' q else d

end Sys2Proof.Machine
end

