-- ==== Sys2Proof/Machine/IntOps.lean ====
section
/-! DEFINITION. The integer, compare, predicate and move instructions (04 R114-R117, R122). -/

namespace Sys2Proof.Machine

/-- Destination register of an arithmetic instruction. -/
def destRef (x : Issue) : Ref := ⟨Issue.dsp x, Issue.dest x, 1⟩

/-- Write an arithmetic result: once when uniform, else in the threads guarded on. -/
def writeRes (q : GCtx) (f : Nat → W32) : Group :=
  if Issue.dsp q.x = 1 then q.g.wrU (Issue.dest q.x) (f 0) else q.g.wrVs (Issue.dest q.x) q.on f

/-- A one- to three-source instruction that may be uniform (04 R114): MOD rule, immediate rule, immediate value and
function of modifier and sources. -/
def uniSpec (code n : Nat) (immOk : Bool) (modOk : Nat → Bool) (immLegal : Nat → Bool) (im : Issue → W32)
    (f : Nat → W32 → W32 → W32 → W32) : OpSpec where
  code := code
  immOk := immOk
  regOk := true
  legal x := (Issue.dsp x == 0 || Issue.dsp x == 1) && srcSpaces (Issue.dsp x == 1) (srcRefs n x) &&
    refLegal (destRef x) && modOk (Issue.md x) && (!x.imm || immLegal (Issue.imm26 x))
  wide x := Issue.dsp x == 1
  refs x := destRef x :: srcRefs n x
  sub := some 5
  mem := false
  exec d q := .next d (writeRes q fun t =>
    f (Issue.md q.x) (srcVal q.g q.x (im q.x) 1 t) (srcVal q.g q.x (im q.x) 2 t) (srcVal q.g q.x (im q.x) 3 t)) none

/-- A two-source integer instruction without SGN. -/
def intSpec (code : Nat) (f : W32 → W32 → W32) : OpSpec :=
  uniSpec code 2 true (· == 0) (fun _ => true) immInt fun _ a b _ => f a b

/-- A two-source integer instruction with SGN (04 Table 5). -/
def sgnSpec (code : Nat) (f : Bool → W32 → W32 → W32) : OpSpec :=
  uniSpec code 2 true (· ≤ 1) (fun _ => true) immInt fun m a b _ => f (m == 1) a b

/-- A shift: IMM26[25:5] zero, low five bits of source 2 (04 R115, R117). -/
def shiftSpec (code : Nat) (f : W32 → Nat → W32) : OpSpec :=
  uniSpec code 2 true (· == 0) (· < 32) immInt fun _ a b _ => f a (b.toNat % 32)

/-- A one-source integer instruction of the REG format. -/
def unSpec (code : Nat) (f : W32 → W32) : OpSpec :=
  uniSpec code 1 false (· == 0) (fun _ => true) immInt fun _ a _ _ => f a

/-- The number of set bits. -/
def popcount (a : W32) : W32 := BitVec.ofNat 32 (threads a).length

/-- Leading zeros, 32 for zero. -/
def clz (a : W32) : W32 := if a = 0 then 32 else BitVec.ofNat 32 (31 - Nat.log2 a.toNat)

/-- High 32 bits of the 64-bit product. -/
def mulHi (sgn : Bool) (a b : W32) : W32 :=
  if sgn then BitVec.ofInt 32 (a.toInt * b.toInt / 2 ^ 32) else BitVec.ofNat 32 (a.toNat * b.toNat / 2 ^ 32)

def specIadd := intSpec 0x020 (· + ·)
def specIsub := intSpec 0x021 (· - ·)
def specImulLo := intSpec 0x022 (· * ·)
def specImulHi := sgnSpec 0x023 mulHi
/-- `imad`: the low 32 bits of a * b + c. -/
def specImad := uniSpec 0x024 3 true (· == 0) (fun _ => true) immInt fun _ a b c => a * b + c
def specIand := intSpec 0x025 (· &&& ·)
def specIor := intSpec 0x026 (· ||| ·)
def specIxor := intSpec 0x027 (· ^^^ ·)
def specShl := shiftSpec 0x028 (· <<< ·)
def specShr := shiftSpec 0x029 (· >>> ·)
def specSar := shiftSpec 0x02A fun a n => a.sshiftRight n
def specImin := sgnSpec 0x02B fun s a b => if (if s then b.slt a else decide (b < a)) then b else a
def specImax := sgnSpec 0x02C fun s a b => if (if s then a.slt b else decide (a < b)) then b else a
def specPopc := unSpec 0x02D popcount
def specClz := unSpec 0x02E clz
def specBrev := unSpec 0x02F BitVec.reverse

/-! ### Compares and predicates -/

/-- 04 Table 5: the ten integer conditions. -/
def icmpCond (c : Nat) (a b : W32) : Bool :=
  match c with
  | 0 => a == b
  | 1 => a != b
  | 2 => a.slt b
  | 3 => a.sle b
  | 4 => b.slt a
  | 5 => b.sle a
  | 6 => decide (a < b)
  | 7 => decide (a ≤ b)
  | 8 => decide (b < a)
  | _ => decide (b ≤ a)

/-- Write a predicate in the positions of `m`; the others keep their bits. -/
def writePred (g : Group) (n : Nat) (m : W32) (f : Nat → Bool) : Group :=
  g.wrP n ((g.rd 2 n 0 &&& ~~~m) ||| (maskOf f &&& m))

/-- A uniform predicate result: the same bit in all 32 positions (04 R114). -/
def writePredAll (g : Group) (n : Nat) (b : Bool) : Group := g.wrP n (if b then -1 else 0)

/-- 04 R114: an `icmp` all of whose register sources are in space u is uniform. -/
def icmpUni (x : Issue) : Bool := (srcRefs 2 x).all fun r => r.sp == 1

def specIcmp : OpSpec where
  code := 0x0A0
  immOk := true
  regOk := true
  legal x := Issue.dsp x == 2 && srcSpaces false (srcRefs 2 x) && refLegal (destRef x) && decide (Issue.md x ≤ 9)
  wide := icmpUni
  refs x := destRef x :: srcRefs 2 x
  sub := some 5
  mem := false
  exec d q :=
    let f t := icmpCond (Issue.md q.x) (srcVal q.g q.x (immInt q.x) 1 t) (srcVal q.g q.x (immInt q.x) 2 t)
    .next d (if icmpUni q.x then writePredAll q.g (Issue.dest q.x) (f 0)
      else writePred q.g (Issue.dest q.x) q.on f) none

/-- A predicate source in space p. -/
def predRef (sp n : Nat) : Ref := ⟨sp, n, 1⟩

def specPbool : OpSpec where
  code := 0x0A2
  immOk := false
  regOk := true
  legal x := Issue.dsp x == 2 && Issue.sp1 x == 2 && Issue.sp2 x == 2 && refLegal (predRef 2 (Issue.src1 x)) &&
    refLegal (predRef 2 (Issue.src2 x)) && refLegal (destRef x) && decide (Issue.md x < 32)
  wide x := decide (16 ≤ Issue.md x)
  refs x := [destRef x, predRef 2 (Issue.src1 x), predRef 2 (Issue.src2 x)]
  sub := some 5
  mem := false
  exec d q :=
    let tt (a b : Bool) : Bool := Issue.md q.x / 2 ^ ((if a then 2 else 0) + if b then 1 else 0) % 2 == 1
    .next d (if 16 ≤ Issue.md q.x then
        writePredAll q.g (Issue.dest q.x) (tt (q.g.anySet (Issue.src1 q.x)) (q.g.anySet (Issue.src2 q.x)))
      else writePred q.g (Issue.dest q.x) q.on fun t =>
        tt (bit (q.g.rd 2 (Issue.src1 q.x) 0) t) (bit (q.g.rd 2 (Issue.src2 q.x) 0) t)) none

/-- `vote` (04 R122): any, all, or all equal, over the active guarded-on threads. -/
def specVote : OpSpec where
  code := 0x0A3
  immOk := false
  regOk := true
  legal x := Issue.dsp x == 2 && Issue.sp1 x == 2 && refLegal (predRef 2 (Issue.src1 x)) && refLegal (destRef x) &&
    decide (Issue.md x ≤ 2)
  wide _ := false
  refs x := [destRef x, predRef 2 (Issue.src1 x)]
  sub := some 5
  mem := false
  exec d q :=
    let p := q.g.rd 2 (Issue.src1 q.x) 0 &&& q.on
    let r := match Issue.md q.x with
      | 0 => p != 0
      | 1 => p == q.on
      | _ => p == 0 || p == q.on
    .next d (writePred q.g (Issue.dest q.x) q.on fun _ => r) none

/-- `ballot` (04 R122): the source predicate ANDed with the active mask. The space codes that it, `rdlane` and `vote` must
carry, 1 for a u destination and 2 for a predicate, are the model's reading (DEDUCED, log entry 170). -/
def specBallot : OpSpec where
  code := 0x0A4
  immOk := false
  regOk := true
  legal x := Issue.dsp x == 1 && Issue.sp1 x == 2 && refLegal (predRef 2 (Issue.src1 x)) && refLegal (destRef x) &&
    Issue.md x == 0
  wide _ := true
  refs x := [destRef x, predRef 2 (Issue.src1 x)]
  sub := some 5
  mem := false
  exec d q := .next d (q.g.wrU (Issue.dest q.x) (q.g.rd 2 (Issue.src1 q.x) 0 &&& q.g.active)) none

/-! ### Moves and lanes -/

/-- `mov`: source 1, or IMM26 sign-extended. -/
def specMov : OpSpec :=
  { uniSpec 0x0E0 1 true (· == 0) (fun _ => true) immInt fun _ a _ _ => a with
    exec := fun d q => .next d (writeRes q fun t =>
      if q.x.imm then immInt q.x else srcVal q.g q.x 0 1 t) none }

/-- `mov.hi`: IMM26 shifted left by 6. -/
def specMovHi : OpSpec :=
  { uniSpec 0x0E1 1 true (· == 0) (fun _ => true) immHigh fun _ a _ _ => a with
    regOk := false
    exec := fun d q => .next d (writeRes q fun _ => immHigh q.x) none }

/-- The predicate register `sel` takes (04 R115). -/
def selPred (x : Issue) : Nat := if x.imm then Issue.md x % 8 else Issue.src3 x

/-- `sel d, a, b, p`: a where p's bit is set and b otherwise; a uniform `sel` reads "any active thread set". -/
def specSel : OpSpec where
  code := 0x0E2
  immOk := true
  regOk := true
  legal x := (Issue.dsp x == 0 || Issue.dsp x == 1) && srcSpaces (Issue.dsp x == 1) (srcRefs 2 x) &&
    refLegal (destRef x) && refLegal (predRef 2 (selPred x)) &&
    (if x.imm then decide (Issue.md x ≤ 7) else Issue.md x == 0 && Issue.sp3 x == 2)
  wide x := Issue.dsp x == 1
  refs x := predRef 2 (selPred x) :: destRef x :: srcRefs 2 x
  sub := some 5
  mem := false
  exec d q :=
    let p := q.g.rd 2 (selPred q.x) 0
    .next d (writeRes q fun t =>
      if (if Issue.dsp q.x = 1 then q.g.anySet (selPred q.x) else bit p t)
        then srcVal q.g q.x (immInt q.x) 1 t else srcVal q.g q.x (immInt q.x) 2 t) none

/-- 04 R122: the source lane of `xlane`, none when it is outside 0-31 or inactive. -/
def xlaneSrc (g : Group) (mode t : Nat) (b : W32) : Option Nat :=
  let l : Int := match mode with
    | 0 => b.toNat
    | 1 => (t : Int) - b.toNat
    | 2 => t + b.toNat
    | _ => (t ^^^ b.toNat : Nat)
  if 0 ≤ l ∧ l < 32 ∧ bit g.active l.toNat then some l.toNat else none

def specXlane : OpSpec where
  code := 0x0E3
  immOk := true
  regOk := true
  legal x := Issue.dsp x == 0 && srcSpaces false (srcRefs 2 x) && refLegal (destRef x) && decide (Issue.md x ≤ 3)
  wide _ := false
  refs x := destRef x :: srcRefs 2 x
  sub := some 5
  mem := false
  exec d q := .next d (writeRes q fun t =>
    srcVal q.g q.x 0 1 ((xlaneSrc q.g (Issue.md q.x) t (srcVal q.g q.x (immInt q.x) 2 t)).getD t)) none

/-- `rdlane u, v, n` (04 R122): 0 when thread n is inactive. -/
def specRdlane : OpSpec where
  code := 0x0E4
  immOk := false
  regOk := true
  legal x := Issue.dsp x == 1 && Issue.sp1 x == 0 && Issue.sp2 x == 0 && refLegal (destRef x) && Issue.md x == 0 &&
    decide (Issue.src2 x ≤ 31)
  wide _ := true
  refs x := [destRef x, ⟨0, Issue.src1 x, 1⟩]
  sub := some 5
  mem := false
  exec d q := .next d (q.g.wrU (Issue.dest q.x)
    (if bit q.g.active (Issue.src2 q.x) then q.g.rd 0 (Issue.src1 q.x) (Issue.src2 q.x) else 0)) none

/-- 04 Table 9: the special registers. -/
def specialReg (d : Data) (q : GCtx) (n t : Nat) : W32 :=
  match n with
  | 0 => BitVec.ofNat 32 t
  | 1 => q.g.active
  | 2 => BitVec.ofNat 32 (q.c / 84 + 16 * (q.c % 84 / 12) + 256 * (q.c % 12) + 4096 * d.node)
  | 3 => BitVec.ofNat 32 (q.s + 256 * q.g.block)
  | _ => BitVec.ofNat 32 ((if q.g.trapNan then 1 else 0) + if q.g.trapSat then 2 else 0)

/-- `rdsr` (04 R122). Any register may go to a v destination, one that is the same in all threads to each (DEDUCED, log entry 171). -/
def specRdsr : OpSpec where
  code := 0x0E5
  immOk := false
  regOk := true
  legal x := (Issue.dsp x == 0 || (Issue.dsp x == 1 && Issue.md x != 0)) && refLegal (destRef x) && decide (Issue.md x ≤ 4)
  wide x := Issue.dsp x == 1
  refs x := [destRef x]
  sub := some 5
  mem := false
  exec d q := .next d (writeRes q fun t => specialReg d q (Issue.md q.x) t) none

/-- 04 R117: byte of a selector of `bsel`. -/
def bselByte (a b : W32) (s : Nat) : Nat :=
  let x := a.toNat + 2 ^ 32 * b.toNat
  let y := x / 256 ^ (s % 8) % 256
  if s < 8 then y else if 128 ≤ y then 255 else 0

def specBsel : OpSpec where
  code := 0x0E6
  immOk := false
  regOk := true
  legal x := Issue.dsp x == 0 && srcSpaces false (srcRefs 3 x) && refLegal (destRef x) && Issue.md x == 0
  wide _ := false
  refs x := destRef x :: srcRefs 3 x
  sub := some 5
  mem := false
  exec d q := .next d (writeRes q fun t =>
    let a := srcVal q.g q.x 0 1 t
    let b := srcVal q.g q.x 0 2 t
    let s := (srcVal q.g q.x 0 3 t).toNat
    BitVec.ofNat 32 (bselByte a b (s % 16) + 256 * bselByte a b (s / 16 % 16) + 65536 * bselByte a b (s / 256 % 16) +
      16777216 * bselByte a b (s / 4096 % 16))) none

end Sys2Proof.Machine
end

