-- ==== Sys2Proof/Machine/FloatOps.lean ====
section
/-! DEFINITION. The FP32, packed 16-bit, special-function, conversion and floating-compare instructions
(04 R117-R121; 06). -/

namespace Sys2Proof.Machine

/-- The report of the threads of `m` for which `cause` is not zero. -/
def nanOf (m : W32) (unit : Nat) (cause : Nat → Nat) : Option NanInfo :=
  match (threads m).filter fun t => cause t != 0 with
  | [] => none
  | t :: ts => some { mask := maskOf (fun i => bit m i && cause i != 0), multi := ts != [], unit := unit, cause := cause t,
                      kpos := 0, e0 := t, e1 := 0, set := 0 }

/-- A per-thread instruction whose threads may create NaNs: the result and cause of each thread. -/
def nanExec (d : Data) (q : GCtx) (unit : Nat) (f : Nat → W32 × Nat) : Exec :=
  .next d (q.g.wrVs (Issue.dest q.x) q.on fun t => (f t).1) (nanOf q.on unit fun t => (f t).2)

def vecLegal (n : Nat) (x : Issue) : Bool := Issue.dsp x == 0 && srcSpaces false (srcRefs n x) && refLegal (destRef x)

/-- Rounding directions by MOD[1:0]. -/
def rmOf (m : Nat) : RMode :=
  match m % 4 with
  | 0 => .rne
  | 1 => .rz
  | 2 => .down
  | _ => .up

/-- A source with its absolute value and negation modifiers applied (04 Table 5). -/
def modSrc (abs neg : Bool) (v : FVal) : FVal :=
  let v := if abs then fAbs v else v
  if neg then fNeg v else v

/-- Bit `i` of a modifier. -/
def mbit (m i : Nat) : Bool := m / 2 ^ i % 2 == 1

/-- An FP32 instruction of `n` sources. Negate and absolute bits of sources that it does not have are accepted and have no
effect (DEDUCED, log entry 172: 04 Table 5 does not say). -/
def fpSpec (code n : Nat) (f : FVal → FVal → FVal → FVal × Bool) : OpSpec where
  code := code
  immOk := true
  regOk := true
  legal x := vecLegal n x && decide (Issue.md x < 128)
  wide _ := false
  refs x := destRef x :: srcRefs n x
  sub := some 5
  mem := false
  exec d q :=
    let m := Issue.md q.x
    nanExec d q 1 fun t =>
      let v i := decodeF fp32 (srcVal q.g q.x (immHigh q.x) i t).toNat
      let r := f (modSrc (mbit m 5) (mbit m 2) (v 1)) (modSrc (mbit m 6) (mbit m 3) (v 2)) (modSrc false (mbit m 4) (v 3))
      (BitVec.ofNat 32 (encodeF fp32 (rmOf m) r.1), if r.2 then 1 else 0)

def specFadd := fpSpec 0x040 2 fun a b _ => fAdd a b
def specFmul := fpSpec 0x041 2 fun a b _ => fMul a b
def specFma := fpSpec 0x042 3 fFma
def specFmin := fpSpec 0x043 2 fun a b _ => (fMin a b, false)
def specFmax := fpSpec 0x044 2 fun a b _ => (fMax a b, false)

/-- A packed 16-bit instruction (04 Table 5): FMT BF16 or FP16, each half rounded once to its own format. -/
def pkSpec (code n : Nat) (f : FVal → FVal → FVal → FVal × Bool) : OpSpec where
  code := code
  immOk := true
  regOk := true
  legal x := vecLegal n x && decide (Issue.md x < 128) && !mbit (Issue.md x) 5 &&
    (!x.imm || decide (Issue.imm26 x < 65536))
  wide _ := false
  refs x := destRef x :: srcRefs n x
  sub := some 5
  mem := false
  exec d q :=
    let m := Issue.md q.x
    let fm := if mbit m 6 then fp16 else bf16
    nanExec d q 1 fun t =>
      let half (h : Nat) : Nat × Bool :=
        let v i := decodeF fm ((srcVal q.g q.x (immPacked q.x) i t).toNat / 65536 ^ h % 65536)
        let r := f (modSrc false (mbit m 2) (v 1)) (modSrc false (mbit m 3) (v 2)) (modSrc false (mbit m 4) (v 3))
        (encodeF fm (rmOf m) r.1, r.2)
      (BitVec.ofNat 32 ((half 0).1 + 65536 * (half 1).1), if (half 0).2 || (half 1).2 then 1 else 0)

def specPkAdd := pkSpec 0x060 2 fun a b _ => fAdd a b
def specPkMul := pkSpec 0x061 2 fun a b _ => fMul a b
def specPkFma := pkSpec 0x062 3 fFma
def specPkMin := pkSpec 0x063 2 fun a b _ => (fMin a b, false)
def specPkMax := pkSpec 0x064 2 fun a b _ => (fMax a b, false)

def specFcmp : OpSpec where
  code := 0x0A1
  immOk := true
  regOk := true
  legal x := Issue.dsp x == 2 && srcSpaces false (srcRefs 2 x) && refLegal (destRef x) && decide (Issue.md x ≤ 7)
  wide _ := false
  refs x := destRef x :: srcRefs 2 x
  sub := some 5
  mem := false
  exec d q :=
    let v i t := decodeF fp32 (srcVal q.g q.x (immHigh q.x) i t).toNat
    .next d (writePred q.g (Issue.dest q.x) q.on fun t => fCmp (Issue.md q.x) (v 1 t) (v 2 t)) none

/-- A special function (04 R119): within its stated error, by a fresh draw per thread. -/
def sfuSpec (code fn : Nat) : OpSpec where
  code := code
  immOk := false
  regOk := true
  legal x := vecLegal 1 x && decide (Issue.md x < 128)
  wide _ := false
  refs x := destRef x :: srcRefs 1 x
  sub := some 5
  mem := false
  exec d q :=
    let m := Issue.md q.x
    nanExec { d with free := d.free + 32 } q 1 fun t =>
      let r := sfu fn (Config.freeWord (d.free + t))
        (modSrc (mbit m 5) (mbit m 2) (decodeF fp32 (srcVal q.g q.x 0 1 t).toNat))
      (BitVec.ofNat 32 r.1, r.2)

def specRcp := sfuSpec 0x0C0 0
def specRsq := sfuSpec 0x0C1 1
def specSqrt := sfuSpec 0x0C2 2
def specEx2 := sfuSpec 0x0C3 3
def specLg2 := sfuSpec 0x0C4 4
def specSin := sfuSpec 0x0C5 5
def specCos := sfuSpec 0x0C6 6
def specTanh := sfuSpec 0x0C7 7

/-! ### Conversion -/

/-- Format codes of `cvt`: not 0 and not block-scaled (04 R120). -/
def cvtFmt (c : Nat) : Bool := (decide (1 ≤ c) && decide (c ≤ 5)) || c == 12 || c == 14 || c == 15

def cvtSr (x : Issue) : Bool := Issue.md x % 4 == 2

/-- The seed and tensor-id registers of `cvt` under SR are u(SRC3) and u(SRC3 + 1). -/
def specCvt : OpSpec where
  code := 0x080
  immOk := false
  regOk := true
  legal x :=
    let src := Issue.md x / 64
    let dst := Issue.md x / 4 % 16
    vecLegal 1 x && cvtFmt src && cvtFmt dst && Issue.md x % 4 != 3 &&
      (if cvtSr x then decide (2 ≤ dst) && decide (dst ≤ 5) && Issue.sp2 x == 0 && Issue.sp3 x == 1 &&
          (Issue.src3 x == 255 || decide (Issue.src3 x ≤ 62))
        else Issue.src2 x == 0 && Issue.src3 x == 0 && Issue.sp2 x == 0 && Issue.sp3 x == 0)
  wide _ := false
  refs x := destRef x :: srcRefs 1 x ++
    if cvtSr x then [⟨0, Issue.src2 x, 1⟩, ⟨1, Issue.src3 x, 1⟩, ⟨1, if Issue.src3 x = 255 then 255 else Issue.src3 x + 1, 1⟩] else []
  sub := some 5
  mem := false
  exec d q :=
    let m := Issue.md q.x
    let n := Issue.src3 q.x
    nanExec d q 2 fun t =>
      let md : RMode := match m % 4 with
        | 0 => .rne
        | 1 => .rz
        | _ => .sr (srBits (q.g.rd 1 n t) (q.g.rd 1 (if n = 255 then 255 else n + 1) t) (q.g.rd 0 (Issue.src2 q.x) t))
      let r := encodeCode (m / 4 % 16) md (decodeCode (m / 64) (srcVal q.g q.x 0 1 t))
      (BitVec.ofNat 32 r.1, r.2)

/-- Block formats (04 R120). -/
def blockFmt (c : Nat) : Bool := (decide (6 ≤ c) && decide (c ≤ 11)) || c == 13

/-- `cvt.mx` makes two blocks with BLK16 and for format 13. -/
def mxHalves (m : Nat) : Bool := mbit m 6 || m / 4 % 16 == 13

/-- `cvt.mx` (04 R121): threads that are off count as +0 in the choice of scale. With no thread on it still writes the scale
of all-zero blocks to u(SRC3) (DEDUCED, log entry 168: R111 could be read to skip it). -/
def specCvtMx : OpSpec where
  code := 0x081
  immOk := false
  regOk := true
  legal x := vecLegal 1 x && decide (Issue.md x < 128) && blockFmt (Issue.md x / 4 % 16) &&
    (Issue.md x % 4 == 0 || Issue.md x % 4 == 2) && Issue.sp3 x == 1 && Issue.sp2 x == 0 &&
    (Issue.src3 x == 255 || decide (Issue.src3 x + (if cvtSr x then 3 else 1) ≤ 64))
  wide _ := false
  refs x := destRef x :: srcRefs 1 x ++ [⟨1, Issue.src3 x, if Issue.src3 x = 255 ∨ !cvtSr x then 1 else 3⟩] ++
    if cvtSr x then [⟨0, Issue.src2 x, 1⟩] else []
  sub := some 5
  mem := false
  exec d q :=
    let m := Issue.md q.x
    let code := m / 4 % 16
    let n := Issue.src3 q.x
    let un k := if n = 255 then 255 else n + k
    let v t : FVal := if bit q.on t then decodeF fp32 (srcVal q.g q.x 0 1 t).toNat else .fin dyZero
    let blk t : List Nat := if mxHalves m then (List.range 16).map fun i => t / 16 * 16 + i else List.range 32
    let sc t := blockScale code ((blk t).map v)
    let isInf t : Bool := match v t with
      | .inf _ => true
      | _ => false
    let g := q.g.wrVs (Issue.dest q.x) q.on fun t =>
      let md : RMode := if cvtSr q.x then
          .sr (srBits (q.g.rd 1 (un 1) t) (q.g.rd 1 (un 2) t) (q.g.rd 0 (Issue.src2 q.x) t)) else .rne
      BitVec.ofNat 32 (blockElem code md (sc t).1 (v t))
    .next d (g.wrU n (BitVec.ofNat 32 ((sc 0).1 + if mxHalves m then 256 * (sc 16).1 else 0)))
      (nanOf q.on 2 fun t => if isInf t then (sc t).2 else 0)

end Sys2Proof.Machine
end

