-- ==== Sys2Proof/Machine/MemOps.lean ====
section
/-! DEFINITION. Loads, stores and atomics: participating threads, addresses, issue-time checks, bench accesses and line
requests (03 R81-R87; 04 R123, R124, R127). -/

namespace Sys2Proof.Machine

/-- Fields of the MEM format (04 Table 10). -/
def memSize (x : Issue) : Nat := Issue.b x 33 31
def memBsp (x : Issue) : Nat := Issue.b x 30 30
def memCache (x : Issue) : Nat := Issue.b x 29 28
def memSpace (x : Issue) : Nat := Issue.b x 27 26
def memDu (x : Issue) : Bool := Issue.b x 25 25 == 1
def memOff (x : Issue) : Int := sext 25 (Issue.b x 24 0)

/-- Bytes of a SIZE code. -/
def sizeBytes (z : Nat) : Nat :=
  match z with
  | 0 | 1 => 1
  | 2 | 3 => 2
  | 4 => 4
  | 5 => 8
  | _ => 16

/-- Registers of a SIZE code. -/
def sizeRegs (z : Nat) : Nat := if z = 6 then 4 else if z = 5 then 2 else 1

/-- The registers a load writes from the bytes it read: 8 and 16 bits are extended. -/
def loadWords (z : Nat) (l : List Byte) : List W32 :=
  let v := leNat l
  match z with
  | 1 => [BitVec.ofInt 32 (sext 8 v)]
  | 3 => [BitVec.ofInt 32 (sext 16 v)]
  | _ => (List.range (sizeRegs z)).map fun i => BitVec.ofNat 32 (v / 2 ^ (32 * i))

/-- Write a thread's loaded words from register `n` on. -/
def writeWords (g : Group) (du : Bool) (n t : Nat) : List W32 → Group
  | [] => g
  | w :: ws =>
    let g := if du then g.wrU n w else g.wrV n t w
    writeWords g du (if n = 255 then 255 else n + 1) t ws

/-- The agent a group is. -/
def groupAgent (d : Data) (q : GCtx) : Agent :=
  { kind := .group, plot := q.b.plot, forerunner := ((mget d.ctxs q.b.ctx).map fun c => c.forerunner).getD false,
    own := some (q.c, q.b.bench) }

/-- One thread's access: thread, generic address, and where it lives. -/
structure Acc where
  t : Nat
  a : Nat
  at_ : Except FaultClass Place

/-- The address a SPACE code's offset stands for in the local map (08 Table 1). -/
def generic (d : Data) (space a : Nat) : Nat :=
  if space = 2 then d.node * 2 ^ 40 + 0x8040000000 + a else a

/-- The threads that take part (03 R81): with DU the lowest one alone (04 R123). -/
def partThreads (m : W32) (one : Bool) : List Nat := if one then (threads m).take 1 else threads m

/-- The accesses of an instruction, checked for alignment and place. -/
def accesses (d : Data) (q : GCtx) (space n : Nat) (one : Bool) (addr : Nat → Nat) : List Acc :=
  (partThreads q.on one).map fun t =>
    { t := t, a := addr t,
      at_ := if addr t % n ≠ 0 then .error .align else placeIn d (groupAgent d q) space (addr t) }

/-- 03 R95: the highest class among the threads, the threads in it, and the address of the lowest. -/
def accFault (l : List Acc) : Option (FaultClass × W32 × W64) :=
  let inCls (c : FaultClass) := l.filter fun a => match a.at_ with
    | .error e => e == c
    | .ok _ => false
  match [FaultClass.align, .benchRange, .carveOut].find? fun c => !(inCls c).isEmpty with
  | none => none
  | some c =>
    let ts := inCls c
    some (c, maskOf fun t => ts.any fun a => a.t == t, BitVec.ofNat 64 ((ts.head?.map fun a => a.a).getD 0))

/-- Bench accesses: thread and physical bench address. -/
def benchAcc (l : List Acc) : List (Nat × Nat) :=
  l.filterMap fun a => match a.at_ with
    | .ok (.bench p) => some (a.t, p)
    | _ => none

/-- Where a line request goes, and the address of its line. -/
def lineOf (a : Acc) : Option (Nat × Target) :=
  match a.at_ with
  | .ok (.phys p) => some (a.a / 128 * 128, .local (p / 128 * 128))
  | .ok (.remote n) => some (a.a / 128 * 128, .remote n)
  | .ok (.host hb bus _) => some (a.a / 128 * 128, .host hb (bus / 128 * 128))
  | _ => none

/-- The distinct lines, in order of the lowest thread that touches each (03 R82). -/
def linesOf (l : List Acc) : List (Nat × Target) := (l.filterMap lineOf).eraseDups

/-- The accesses that fall in a line. -/
def inLine (l : List Acc) (line : Nat) : List Acc :=
  l.filter fun a => match lineOf a with
    | some (k, _) => k == line
    | none => false

/-- Free fabric-engine entries of a core (03 R63, R87). A posted store to a host window has left its entry. -/
def Data.freeEntries (d : Data) (c : Nat) : Nat := 256 - (d.reqs.filter fun r => r.core == c && !r.isPosted).length

/-- Enter a request into the core's fabric engine. -/
def Data.addReq (d : Data) (sp : BitVec 10) (q : GCtx) (line : Nat) (tgt : Target) (op : LineOp) (lanes : List Lane) : Data :=
  { d with
    nextId := d.nextId + 1
    reqs := d.reqs ++ [
      { id := d.nextId, core := q.c, slot := q.s, iseq := q.g.iseq, age := q.g.age, plot := q.b.plot,
        pc := q.g.pc, opcode := sp, addr := line, tgt := tgt, op := op, lanes := lanes, stage := .waiting,
        pre := none, rem := none, accepted := none }] }

/-- Base address of thread `t`. -/
def baseOf (g : Group) (bsp n t : Nat) : Nat := (g.rdPair bsp n t).toNat

/-- A read-only load that has been served already leaves no line in the near cache. -/
def LineReq.uninstall (r : LineReq) : LineReq :=
  match r.op, r.stage with
  | .load _ _ _ _ _, .waiting => r
  | .load _ vol z n du, _ => { r with op := .load false vol z n du }
  | _, _ => r

/-- The near cache is discarded (07 R220); what its outstanding loads were served before that is not put into it
(08 R253). -/
def Data.dropNear (d : Data) (c : Nat) : Data :=
  { d.setCore c { d.core c with near := [] } with reqs := d.reqs.map fun r => if r.core = c then r.uninstall else r }

/-- A near cache of 64 sets of 8 ways with one line more (07 R220): a full set gives up another line. -/
def nearPut (m : SMap LineCopy) (free line : Nat) (x : LineCopy) : SMap LineCopy :=
  if m.length < 8 ∨ (mget m line).isSome then mput m line x
  else
    let ws := (m.filter fun e => Config.nearSet e.1 % 64 == Config.nearSet line % 64).map fun e => e.1
    if ws.length < 8 then mput m line x else mput (mdel m (ws.getD (Config.victim free line % ws.length) 0)) line x

/-! ### Loads -/

/-- A near-cache hit: the line is held, and its eviction is not chosen (07 R220). -/
def nearHit (d : Data) (c line i : Nat) : Option LineCopy :=
  if Config.freeBool (d.free + i) then none else mget (d.core c).near (line / 128)

/-- A read-only load of memory outside the bench and the scratch windows, which alone the near cache serves (07 R220). -/
def roLine (x : Issue) (tgt : Target) : Bool :=
  memCache x == 1 && match tgt with
    | .local p => decide (p < 2 ^ 39)
    | _ => true

/-- 07 R220: a parity error in the held lines that a load asks for: each is given up and counted. -/
def nearLost (d : Data) (c : Nat) (x : Issue) (lines : List (Nat × Target)) : Data :=
  if x.nearParity then
    (lines.filter fun e => roLine x e.2 && (mget (d.core c).near (e.1 / 128)).isSome).foldl (fun (d : Data) e =>
      (d.setCore c { d.core c with near := mdel (d.core c).near (e.1 / 128) }).count 0x0209 c) d
  else d

/-- Issue a load: bench parts and near-cache hits complete at once, the rest become line requests. -/
def execLoad (d : Data) (q : GCtx) : Exec :=
  let x := q.x
  let z := memSize x
  let n := sizeBytes z
  let l := accesses d q (memSpace x) n (memDu x) fun t =>
    (((baseOf q.g (memBsp x) (Issue.src1 x) t : Int) + memOff x) % 2 ^ 64).toNat
  match accFault l with
  | some (c, m, a) => .fault c m a
  | none =>
    let l := l.map fun a => { a with a := generic d (memSpace x) a.a }
    let lines := (linesOf l).zipIdx
    let hit (e : (Nat × Target) × Nat) : Option LineCopy :=
      if roLine x e.1.2 && !x.nearParity then nearHit d q.c e.1.1 e.2 else none
    let misses := lines.filter fun e => (hit e).isNone
    if d.freeEntries q.c < misses.length then .hold
    else
      let g := (benchAcc l).foldl (fun g e => writeWords g (memDu x) (Issue.dest x) e.1
        (loadWords z ((List.range n).map fun i => d.rdB (e.2 + i)))) q.g
      let g := lines.foldl (fun g e => match hit e with
        | some cp => (inLine l e.1.1).foldl (fun g a => writeWords g (memDu x) (Issue.dest x) a.t
            (loadWords z ((cp.data.drop (a.a % 128)).take n))) g
        | none => g) g
      let d := misses.foldl (fun d e => d.addReq 0x120 q e.1.1 e.1.2
        (.load (roLine x e.1.2) (memCache x == 2) z (Issue.dest x) (memDu x))
        ((inLine l e.1.1).map fun a => { t := a.t, off := a.a % 128, opnd := 0, cmp := 0 })) (nearLost d q.c x (linesOf l))
      .next { d with free := d.free + lines.length } g none

def memLegal (x : Issue) (ro : Bool) : Bool :=
  memSize x != 7 && memCache x != 3 && memSpace x != 3 && (memCache x != 1 || (ro && memSpace x == 0)) &&
    (!memDu x || memBsp x == 1) && refLegal ⟨if memDu x then 1 else 0, Issue.dest x, sizeRegs (memSize x)⟩ &&
    refLegal ⟨memBsp x, Issue.src1 x, 2⟩

def memRefs (x : Issue) : List Ref :=
  [⟨if memDu x then 1 else 0, Issue.dest x, sizeRegs (memSize x)⟩, ⟨memBsp x, Issue.src1 x, 2⟩]

def specLd : OpSpec where
  code := 0x120
  immOk := false
  regOk := true
  legal x := memLegal x true
  wide := memDu
  refs := memRefs
  sub := some 1
  mem := true
  exec := execLoad

/-! ### Stores -/

/-- The bytes thread `t` stores. -/
def storeBytes (g : Group) (du : Bool) (n z t : Nat) : List Byte :=
  let w i := (g.rd (if du then 1 else 0) (if n = 255 then 255 else n + i) t).toNat
  natLe (sizeBytes z) (w 0 + 2 ^ 32 * (if 2 ≤ sizeRegs z then w 1 else 0) +
    (if sizeRegs z = 4 then 2 ^ 64 * w 2 + 2 ^ 96 * w 3 else 0))

/-- Put bytes into a line's masked bytes; a later thread's byte replaces an earlier one's (03 R82). -/
def putBytes (m : SMap Byte) (off : Nat) : List Byte → SMap Byte
  | [] => m
  | b :: bs => putBytes (mput m off b) (off + 1) bs

/-- Write consecutive bench bytes. -/
def Data.wrBs (d : Data) (a : Nat) : List Byte → Data
  | [] => d
  | b :: bs => (d.wrB a b).wrBs (a + 1) bs

/-- Issue a store. -/
def execStore (d : Data) (q : GCtx) : Exec :=
  let x := q.x
  let z := memSize x
  let l := accesses d q (memSpace x) (sizeBytes z) (memDu x) fun t =>
    (((baseOf q.g (memBsp x) (Issue.src1 x) t : Int) + memOff x) % 2 ^ 64).toNat
  let l := l.map fun a => match a.at_ with
    | .ok (.host _ _ false) => { a with at_ := .error .carveOut }
    | _ => a
  match accFault l with
  | some (c, m, a) => .fault c m a
  | none =>
    let l := l.map fun a => { a with a := generic d (memSpace x) a.a }
    let lines := linesOf l
    if d.freeEntries q.c < lines.length then .hold
    else
      let val t := storeBytes q.g (memDu x) (Issue.dest x) z t
      let d := (benchAcc l).foldl (fun (d : Data) e => d.wrBs e.2 (val e.1)) d
      let d := lines.foldl (fun d e => d.addReq 0x140 q e.1 e.2
        (.store ((inLine l e.1).foldl (fun m a => putBytes m (a.a % 128) (val a.t)) []))
        ((inLine l e.1).map fun a => { t := a.t, off := a.a % 128, opnd := 0, cmp := 0 })) d
      .next d q.g none

def specSt : OpSpec where
  code := 0x140
  immOk := false
  regOk := true
  legal x := memLegal x false
  wide := memDu
  refs := memRefs
  sub := some 2
  mem := true
  exec := execStore

/-! ### Fence conditions (04 R125, Table 12) -/

/-- A request is to another package or a host window. -/
def outside (r : LineReq) : Bool :=
  match r.tgt with
  | .local _ => false
  | _ => true

/-- A request has been acknowledged or answered. -/
def answered (r : LineReq) : Bool :=
  match r.stage with
  | .returned .. | .acked => true
  | _ => false

/-- Conditions at scope core: loads and atomics returned, matrix instructions complete; a store is accepted by the
fabric engine when it issues, and a bench store is written then. The read of a descriptor is neither load nor atomic. -/
def fenceCore (rs : List LineReq) (k : Core) (s : Nat) (g : Group) : Bool :=
  (rs.all fun r => match r.op with
    | .store _ | .desc .. => true
    | _ => false) && (arrOf k s g).isEmpty

/-- Stores and atomics that the die crossbar has not accepted for certain: still on their way to their home. -/
def notAccepted (rs : List LineReq) : List LineReq :=
  rs.filter fun r => writes r.op && r.stage == .waiting && r.accepted.isNone

/-- Conditions at scope package. -/
def fencePkg (rs : List LineReq) : Bool :=
  rs.all fun r => if outside r then r.stage != .waiting else !writes r.op || answered r

/-- Conditions at scope system: a posted write to a host window has been confirmed. -/
def fenceSys (rs : List LineReq) : Bool := rs.all fun r => !outside r || answered r

/-- The group's posted writes to host windows are to be confirmed by a read of the same window (04 R125, Table 12). -/
def Data.confirm (d : Data) (c s : Nat) (g : Group) : Data :=
  { d with reqs := d.reqs.map fun r =>
      if r.core == c && r.slot == s && r.age == g.age && r.isPosted then { r with stage := .confirming } else r }

/-- Whether the conditions of `fence.S` and every narrower scope hold; at die scope the crossbar may have accepted the
stores still on their way, by a draw, which marks them accepted. Scopes: 1 core, 2 die, 3 package, 4 system. -/
def fenceTry (d : Data) (q : GCtx) (scope : Nat) : Data × Bool :=
  let rs := d.reqsOf q.c q.s q.g
  if scope = 0 then (d, true)
  else if !fenceCore rs (d.core q.c) q.s q.g then (d, false)
  else if scope = 1 then (d, true)
  else if scope = 2 then
    if (notAccepted rs).isEmpty then (d, true)
    else if Config.freeBool d.free then
      ({ d with free := d.free + 1
                reqs := d.reqs.map fun r =>
                  if (notAccepted rs).any fun p => p.id == r.id then { r with accepted := some d.nextId } else r
                nextId := d.nextId + 1 }, true)
    else ({ d with free := d.free + 1 }, false)
  else if scope = 3 then (d, fencePkg rs)
  else if fencePkg rs && fenceSys rs then (d, true)
  else (d.confirm q.c q.s q.g, false)

/-! ### Atomics -/

def atomAop (x : Issue) : Nat := Issue.b x 17 14
def atomScope (x : Issue) : Nat := Issue.b x 13 11
def atomType (x : Issue) : Nat := Issue.b x 10 8
def atomBsp (x : Issue) : Nat := Issue.b x 7 7
def atomSpace (x : Issue) : Nat := Issue.b x 6 5

/-- 04 Table 11. -/
def atomValid (aop ty : Nat) : Bool :=
  match aop with
  | 0 => decide (ty ≤ 5)
  | 1 | 2 => decide (ty ≤ 4)
  | 3 => ty == 6 || ty == 7
  | _ => false

/-- An operand of an atomic, one register or a pair. -/
def atomOpnd (g : Group) (ty n t : Nat) : W64 :=
  if atomSize ty = 8 then g.rdPair 0 n t else (g.rd 0 n t).zeroExtend 64

/-- A bench atomic of one thread: the old value and the memory after it. -/
def benchAtom (d : Data) (a aop ty : Nat) (opnd new : W64) : Data × W64 :=
  let n := atomSize ty
  let old := BitVec.ofNat 64 (leNat ((List.range n).map fun i => d.rdB (a + i)))
  (d.wrBs a (natLe n (atomNew aop ty old opnd new).toNat), old)

/-- Words of an old value. -/
def atomWords (ty : Nat) (v : W64) : List W32 :=
  if atomSize ty = 8 then [v.truncate 32, (v >>> 32).truncate 32] else [v.truncate 32]

/-- The effect of an atomic once its release conditions hold. -/
def doAtomBody (d : Data) (q : GCtx) (l : List Acc) : Exec :=
  let x := q.x
  let ty := atomType x
  let lines := linesOf l
  if d.freeEntries q.c < lines.length then .hold
  else
    let opnd t := atomOpnd q.g ty (Issue.src2 x) t
    let new t := if atomAop x = 3 then atomOpnd q.g ty (Issue.src3 x) t else 0
    let r := (benchAcc l).foldl (fun (r : Data × Group) e =>
      let (d, old) := benchAtom r.1 e.2 (atomAop x) ty (opnd e.1) (new e.1)
      (d, writeWords r.2 false (Issue.dest x) e.1 (atomWords ty old))) (d, q.g)
    let d := lines.foldl (fun d e => d.addReq 0x160 q e.1 e.2 (.atom (atomAop x) ty (atomScope x) (Issue.dest x))
      ((inLine l e.1).map fun a => { t := a.t, off := a.a % 128, opnd := opnd a.t, cmp := new a.t })) r.1
    .next (if 2 ≤ atomScope x ∧ lines.isEmpty then d.dropNear q.c else d) r.2 none

/-- Issue an atomic: no atomics on host windows (08 R242); release at its scope first (04 R127). -/
def doAtom (d : Data) (q : GCtx) : Exec :=
  let x := q.x
  let l := accesses d q (atomSpace x) (atomSize (atomType x)) false fun t => baseOf q.g (atomBsp x) (Issue.src1 x) t
  let l := l.map fun a => match a.at_ with
    | .ok (.host ..) => { a with at_ := .error .carveOut }
    | _ => a
  match accFault l with
  | some (c, m, a) => .fault c m a
  | none =>
    let (d', ok) := fenceTry d q (atomScope x)
    if ok then doAtomBody d' q (l.map fun a => { a with a := generic d (atomSpace x) a.a })
    else .wait d' q.g

def specAtom : OpSpec where
  code := 0x160
  immOk := false
  regOk := true
  legal x :=
    let n := atomSize (atomType x) / 4
    atomValid (atomAop x) (atomType x) && decide (atomScope x ≤ 4) && atomSpace x != 3 && Issue.b x 4 0 == 0 &&
      (atomAop x == 3 || Issue.src3 x == 0) && refLegal ⟨0, Issue.dest x, n⟩ && refLegal ⟨0, Issue.src2 x, n⟩ &&
      (atomAop x != 3 || refLegal ⟨0, Issue.src3 x, n⟩) && refLegal ⟨atomBsp x, Issue.src1 x, 2⟩
  wide _ := false
  refs x :=
    let n := atomSize (atomType x) / 4
    [⟨0, Issue.dest x, n⟩, ⟨0, Issue.src2 x, n⟩, ⟨atomBsp x, Issue.src1 x, 2⟩] ++
      if atomAop x = 3 then [⟨0, Issue.src3 x, n⟩] else []
  sub := some 3
  mem := true
  exec := doAtom

end Sys2Proof.Machine
end

