-- ==== Sys2Proof/Machine/Control.lean ====
section
/-! DEFINITION. Control instructions, traps and time reads (03 R70, R78-R80, R103, R107; 04 R135-R137, R493). -/

namespace Sys2Proof.Machine

/-- 04 R493: space fields zero, MOD within `mod`, and every register field not used zero. -/
def fixedLegal (x : Issue) (mod dest s1 s2 s3 : Bool) : Bool :=
  Issue.b x 7 0 == 0 && (mod || Issue.b x 17 8 == 0) && (dest || Issue.dest x == 0) && (s1 || Issue.src1 x == 0) &&
    (s2 || Issue.src2 x == 0) && (s3 || Issue.src3 x == 0)

/-- A REG instruction of the control class with fixed operand spaces. -/
def ctlSpec (code : Nat) (wide : Bool) (legal : Issue → Bool) (refs : Issue → List Ref) (sub : Option Nat)
    (exec : Data → GCtx → Exec) : OpSpec where
  code := code
  immOk := false
  regOk := true
  legal x := legal x && (refs x).all refLegal
  wide _ := wide
  refs := refs
  sub := sub
  mem := false
  exec := exec

/-- `nop` issues and does nothing. -/
def specNop := ctlSpec 0x000 false (fun x => fixedLegal x false false false false false) (fun _ => []) (some 6)
  fun d q => .next d q.g none

/-- `isync` discards the instruction cache and fetch buffers of its core (03 R107). -/
def specIsync := ctlSpec 0x007 true (fun x => fixedLegal x false false false false false) (fun _ => []) (some 6)
  fun d q => .next (d.setCore q.c { d.core q.c with icache := [], fetchBuf := [] }) q.g none

/-- A target of PC plus 8 times a signed offset of `n` bits. -/
def relTarget (pc : W64) (n off : Nat) : W64 := pc + BitVec.ofInt 64 (8 * sext n off)

/-- A divergent branch (03 R78, R80). -/
def diverge (q : GCtx) (d : Data) (rpc pendPc : W64) (pend : W32) (pc : W64) (act : W32) : Exec :=
  if 32 ≤ q.g.stack.length then .fault .divOverflow q.g.active 0
  else .jump d { q.g with
    active := act
    stack := { rpc := rpc, origMask := q.g.active, pendPc := pendPc, pendMask := pend } :: q.g.stack } pc

/-- `bra`: the threads whose COND is true go to the target; a divergent branch runs the fall-through path first. -/
def execBraBody (d : Data) (q : GCtx) : Exec :=
  let tgt := relTarget q.g.pc 26 (Issue.b q.x 25 0)
  let rest := q.g.active &&& ~~~q.on
  if q.on = 0 then .jump d q.g (q.g.pc + 8)
  else if rest = 0 then .jump d q.g tgt
  else diverge q d (relTarget q.g.pc 24 (Issue.b q.x 49 26)) tgt q.on (q.g.pc + 8) rest

def specBra : OpSpec where
  code := 0x001
  immOk := false
  regOk := true
  legal _ := true
  wide _ := false
  refs _ := []
  sub := some 6
  mem := false
  exec := execBraBody

/-- Target of thread `t` at a `brx`: a thread guarded off goes on (04 R111). -/
def brxTarget (q : GCtx) (t : Nat) : W64 := if bit q.on t then q.g.rdPair 0 (Issue.src1 q.x) t else q.g.pc + 8

/-- `brx` (03 R79): the threads that share the lowest active thread's target run; the others stay pending at the
branch, replacing the top entry's pending fields when it is this branch that resumes. -/
def execBrxBody (d : Data) (q : GCtx) : Exec :=
  let bad := maskOf fun t => bit q.g.active t && (brxTarget q t).toNat % 8 != 0
  if bad ≠ 0 then .fault .align bad (brxTarget q (((threads bad).head?).getD 0))
  else
    let rpc := relTarget q.g.pc 26 (Issue.b q.x 25 0)
    match threads q.g.active with
    | [] => .jump d q.g (q.g.pc + 8)
    | t0 :: _ =>
      let tgt := brxTarget q t0
      let same := maskOf fun t => bit q.g.active t && brxTarget q t == tgt
      let rest := q.g.active &&& ~~~same
      if rest = 0 then .jump d q.g tgt
      else match q.g.stack with
        | e :: es =>
          if e.pendMask = 0 ∧ e.pendPc = q.g.pc ∧ e.rpc = rpc then
            .jump d { q.g with active := same, stack := { e with pendMask := rest } :: es } tgt
          else diverge q d rpc q.g.pc rest tgt same
        | [] => diverge q d rpc q.g.pc rest tgt same

def specBrx : OpSpec where
  code := 0x002
  immOk := false
  regOk := true
  legal x := Issue.dest x == 0 && Issue.src2 x == 0 && refLegal ⟨0, Issue.src1 x, 2⟩
  wide _ := false
  refs x := [⟨0, Issue.src1 x, 2⟩]
  sub := some 6
  mem := false
  exec := execBrxBody

/-- `call`: PC + 8 into a u pair, jump to PC + 8 * TGT_OFF; its guard is 0b0000. -/
def specCall : OpSpec where
  code := 0x003
  immOk := false
  regOk := true
  legal x := Issue.guard x == 0 && Issue.b x 41 26 == 0 && refLegal ⟨1, Issue.dest x, 2⟩
  wide _ := true
  refs x := [⟨1, Issue.dest x, 2⟩]
  sub := some 6
  mem := false
  exec d q := .jump d (q.g.wrUPair (Issue.dest q.x) (q.g.pc + 8)) (relTarget q.g.pc 26 (Issue.b q.x 25 0))

/-- `ret`: jump to a u pair, a multiple of 8 (04 R108). -/
def specRet := ctlSpec 0x004 true (fun x => Issue.guard x == 0 && fixedLegal x false false true false false)
  (fun x => [⟨1, Issue.src1 x, 2⟩]) (some 6)
  fun d q =>
    let t := q.g.rdPair 1 (Issue.src1 q.x) 0
    if t.toNat % 8 ≠ 0 then .fault .align q.g.active t else .jump d q.g t

/-- The group after some of its threads have left (03 R70). -/
def leave (g : Group) (m : W32) : Group :=
  { g with
    active := g.active &&& ~~~m
    stack := g.stack.map fun e => { e with origMask := e.origMask &&& ~~~m, pendMask := e.pendMask &&& ~~~m } }

/-- No thread of the group remains. -/
def allLeft (g : Group) : Bool := g.active == 0 && g.stack.all fun e => e.origMask == 0 && e.pendMask == 0

/-- `exit`: the guarded active threads end; the group's end waits for what it has issued, its posted writes to host windows
confirmed among it, since it is reported only then (08 R251), and a group that is to park for a late fault does not
end. -/
def execExitBody (d : Data) (q : GCtx) : Exec :=
  let g := leave q.g q.on
  if allLeft g && !(q.g.late.isEmpty && (d.reqsOf q.c q.s q.g).isEmpty && (arrOf (d.core q.c) q.s q.g).isEmpty) then .wait (d.confirm q.c q.s q.g) q.g
  else .jump d g (q.g.pc + 8)

def specExit := ctlSpec 0x005 false (fun x => fixedLegal x false false false false false) (fun _ => []) (some 6) execExitBody

/-- `yield.t` (03 R103): parks after itself while a pass is pending on the core. -/
def execYieldBody (d : Data) (q : GCtx) : Exec :=
  match (d.core q.c).pass with
  | .deferral since w =>
    let d := d.setCore q.c { d.core q.c with pass := .deferral since (some (w.getD q.beat)) }
    .raw (d.setGroup q.c q.s { (q.g.advance (q.g.pc + 8)) with st := .yieldPark, act := false })
  | .forced _ => .raw (d.setGroup q.c q.s { (q.g.advance (q.g.pc + 8)) with st := .yieldPark, act := false })
  | _ => .next d q.g none

def specYieldT := ctlSpec 0x006 true (fun x => fixedLegal x false false false false false) (fun _ => []) (some 6) execYieldBody

/-- `trap` (04 R136): IMM26[0] selects NAN, [1] SAT, [2] enables. -/
def specTrap : OpSpec where
  code := 0x008
  immOk := true
  regOk := false
  legal x := decide (Issue.imm26 x < 8) && Issue.b x 49 26 == 0
  wide _ := true
  refs _ := []
  sub := some 6
  mem := false
  exec d q :=
    let i := Issue.imm26 q.x
    .next d { q.g with
      trapNan := if mbit i 0 then mbit i 2 else q.g.trapNan
      trapSat := if mbit i 1 then mbit i 2 else q.g.trapSat } none

/-- `rdbeat`: the beat in progress (04 R137, 02 R41). -/
def specRdbeat := ctlSpec 0x1E2 true (fun x => fixedLegal x false true false false false)
  (fun x => [⟨1, Issue.dest x, 2⟩]) (some 6)
  fun d q => .next d (q.g.wrUPair (Issue.dest q.x) (BitVec.ofNat 64 q.beat)) none

/-- `rdclk`: the core's cycle count, which has advanced by an open number of cycles since it was last read. -/
def specRdclk := ctlSpec 0x1E3 true (fun x => fixedLegal x false true false false false)
  (fun x => [⟨1, Issue.dest x, 2⟩]) (some 6)
  fun d q =>
    let clk := (d.core q.c).clk + BitVec.ofNat 64 (1 + Config.freeNat d.free)
    .next { d.setCore q.c { d.core q.c with clk := clk } with free := d.free + 1 } (q.g.wrUPair (Issue.dest q.x) clk) none

end Sys2Proof.Machine
end

