-- ==== Sys2Proof/Machine/SyncOps.lean ====
section
/-! DEFINITION. Fences, barriers, doorbells and invalidation (03 R88-R92; 04 R125-R129). -/

namespace Sys2Proof.Machine

/-- Discard the near cache for an acquire at die scope or wider (04 R127). -/
def acquire (d : Data) (c scope : Nat) : Data := if 2 ≤ scope then d.dropNear c else d

/-- `fence.S`: done when the conditions of Table 12 hold; die and wider discard the near cache. -/
def specFence := ctlSpec 0x180 true
  (fun x => fixedLegal x true false false false false && decide (1 ≤ Issue.b x 17 8) && decide (Issue.b x 17 8 ≤ 4))
  (fun _ => []) none
  fun d q =>
    let (d', ok) := fenceTry d q (Issue.b q.x 17 8)
    if ok then .next (acquire d' q.c (Issue.b q.x 17 8)) q.g none else .wait d' q.g

/-- One more arrival at a named barrier, with the count asked for. -/
def Data.arrive (d : Data) (c bs b n : Nat) : Data :=
  d.setCore c { d.core c with blocks := mmod (d.core c).blocks bs fun k =>
    let o := mgetD k.bars b { arrived := 0, need := 0 }
    { k with bars := mput k.bars b { arrived := o.arrived + 1, need := n } } }

def barLegal (x : Issue) : Bool := fixedLegal x false false true false true && decide (Issue.src3 x ≤ 32)

/-- `bar.sync b, n`: release at core scope, arrive, wait (03 R88). -/
def specBarSync := ctlSpec 0x181 true barLegal (fun _ => []) (some 7)
  fun d q =>
    if 3 < Issue.src1 q.x then .fault .operandRange q.on 0
    else
      let (d', ok) := fenceTry d q 1
      if ok then .raw (((d'.setGroup q.c q.s { q.g with st := .barSync (Issue.src1 q.x), act := false }).arrive q.c q.g.block
          (Issue.src1 q.x) (Issue.src3 q.x)).releaseBar q.c q.g.block (Issue.src1 q.x))
      else .wait d' q.g

/-- `bar.arrive b, n`: arrives without waiting. -/
def specBarArrive := ctlSpec 0x182 true barLegal (fun _ => []) (some 7)
  fun d q =>
    if 3 < Issue.src1 q.x then .fault .operandRange q.on 0
    else
      let (d', ok) := fenceTry d q 1
      if ok then .raw (((putGroup d' q.c q.s (q.g.advance (q.g.pc + 8))).arrive q.c q.g.block
          (Issue.src1 q.x) (Issue.src3 q.x)).releaseBar q.c q.g.block (Issue.src1 q.x))
      else .wait d' q.g

/-- A number lies in a granted range. -/
def inRange (r : Nat × Nat) (k : Nat) : Bool := decide (r.1 ≤ k) && decide (k < r.1 + r.2)

/-- 03 R90, 04 R128: the counter is in the plot's grant. -/
def Data.barGranted (d : Data) (plot : Nat) (pkg : Bool) (k : Nat) : Bool :=
  match mget d.plots plot with
  | none => false
  | some p => if pkg then decide (k < 256) && inRange p.pbar k else decide (k < 1024) && inRange p.dbar k

/-- The value of a counter. -/
def Data.counterVal (d : Data) (pkg : Bool) (die k : Nat) : W32 :=
  if pkg then mgetD d.pkgBar k 0 else mgetD d.dieBar (1024 * die + k) 0

/-- Add to a counter; it wraps (03 R90). -/
def Data.counterAdd (d : Data) (pkg : Bool) (die k : Nat) (n : W32) : Data :=
  if pkg then { d with pkgBar := cput 0 d.pkgBar k (d.counterVal pkg die k + n) }
  else { d with dieBar := cput 0 d.dieBar (1024 * die + k) (d.counterVal pkg die k + n) }

def barcRefs (x : Issue) : List Ref := [⟨1, Issue.src1 x, 1⟩, ⟨1, Issue.src2 x, 1⟩]

/-- `bar.die.arrive` and `bar.pkg.arrive`: release at their scope, then add. -/
def arriveSpec (code : Nat) (pkg : Bool) := ctlSpec code true (fun x => fixedLegal x false false true true false) barcRefs
  (some 7)
  fun d q =>
    let k := (q.g.rd 1 (Issue.src1 q.x) 0).toNat
    if !d.barGranted q.b.plot pkg k then .fault .carveOut q.on 0
    else
      let (d', ok) := fenceTry d q (if pkg then 3 else 2)
      if ok then .next (d'.counterAdd pkg (q.c / 84) k (q.g.rd 1 (Issue.src2 q.x) 0)) q.g none else .wait d' q.g

/-- The counter has reached the value: (int32)(counter - v) is not negative. -/
def counterMet (cur v : W32) : Bool := decide (0 ≤ (cur - v).toInt)

/-- `bar.die.wait` and `bar.pkg.wait`: acquire at their scope when met, else wait. -/
def waitSpec (code : Nat) (pkg : Bool) := ctlSpec code true (fun x => fixedLegal x false false true true false) barcRefs
  (some 7)
  fun d q =>
    let k := (q.g.rd 1 (Issue.src1 q.x) 0).toNat
    let v := q.g.rd 1 (Issue.src2 q.x) 0
    if !d.barGranted q.b.plot pkg k then .fault .carveOut q.on 0
    else if counterMet (d.counterVal pkg (q.c / 84) k) v then .next (d.dropNear q.c) q.g none
    else .wait d { q.g with st := .counter pkg k v, act := false }

def specBarDieArrive := arriveSpec 0x183 false
def specBarDieWait := waitSpec 0x184 false
def specBarPkgArrive := arriveSpec 0x185 true
def specBarPkgWait := waitSpec 0x186 true

/-- A pigeonhole number in the plot's grant. -/
def Data.phGranted (d : Data) (plot h : Nat) : Bool :=
  match mget d.plots plot with
  | none => false
  | some p => decide (h < 4096) && inRange p.ph h

/-- `await h, e` (03 R92): completes at once if DOORBELL_SEQ differs from e, else waits; acquires at package scope. -/
def specAwait := ctlSpec 0x1E0 true (fun x => fixedLegal x false false true true false) barcRefs (some 7)
  fun d q =>
    let h := (q.g.rd 1 (Issue.src1 q.x) 0).toNat
    let e := q.g.rd 1 (Issue.src2 q.x) 0
    if !d.phGranted q.b.plot h then .fault .carveOut q.on 0
    else match d.doorbellSeq h with
      | some s => if s = e then .wait d { q.g with st := .await h e, act := false } else .next (d.dropNear q.c) q.g none
      | none => .raw ((putGroup (d.doorbellLost h) q.c q.s { q.g with st := .await h e, act := false }).runAborts)

/-- `ring h`: release at package scope, then the ring (10 R300). -/
def specRing : OpSpec :=
  { ctlSpec 0x1E1 true (fun x => fixedLegal x false false true false false) (fun x => [⟨1, Issue.src1 x, 1⟩]) none
      fun d q =>
        let h := (q.g.rd 1 (Issue.src1 q.x) 0).toNat
        if !d.phGranted q.b.plot h then .fault .carveOut q.on 0
        else
          let (d', ok) := fenceTry d q 3
          if ok then .raw ((putGroup (d'.ringPh h) q.c q.s (q.g.advance (q.g.pc + 8))).runAborts)
          else .wait d' q.g with
    mem := true }

/-- Discard the read-only copies that overlap `len` bytes from `a` on, of `plot` only where one is given; a fill that
overlaps is not installed (07 R219). -/
def Data.invalidate (d : Data) (a len : Nat) (plot : Option Nat) : Data :=
  let hit (line : Nat) : Bool := decide (0 < len) && decide (line * 128 < a + len) && decide (a < line * 128 + 128)
  { d with
    copies := mfilter d.copies fun l c => !(hit (l / 64) && (plot.isNone || plot == some c.plot))
    fills := d.fills.map fun f => if f.remote.isSome && hit (f.addr / 128) && (plot.isNone || plot == some f.plot) then { f with install := false } else f }

/-- `inv.remote base, len` (04 R129). -/
def specInvRemote : OpSpec :=
  { ctlSpec 0x187 true (fun x => fixedLegal x false false true true false)
      (fun x => [⟨1, Issue.src1 x, 2⟩, ⟨1, Issue.src2 x, 1⟩]) none
      fun d q => .next (d.invalidate (q.g.rdPair 1 (Issue.src1 q.x) 0).toNat (q.g.rd 1 (Issue.src2 q.x) 0).toNat none) q.g none with
    mem := true }

/-! ### Engine issue (04 R134; 07 R221; 09 R288) -/

/-- Number of an engine. -/
def engNo (e : EngineId) : Nat :=
  match e with
  | .courier d i => 16 * d + i
  | .gleaner d i => 16 * d + 8 + i
  | .relay s i => 128 + (if s then 8 else 0) + i

def Engine.empty : Engine := { queue := [], running := [] }

def Data.engine (d : Data) (n : Nat) : Engine := mgetD d.engines n Engine.empty

/-- Of the engines from number `b` on, the one in service with the fewest queued descriptors, the lowest among equals
(07 R221, 15 R413). -/
def Data.fewest (d : Data) (b : Nat) : Option Nat :=
  ((List.range 8).map fun i => b + i).foldl (fun r n =>
    if d.engOut.contains n then r
    else match r with
      | none => some n
      | some m => if (d.engine n).queue.length < (d.engine m).queue.length then some n else r) none

/-- 09 R288, 15 R413, R431: the relay of a core: a retired one gives way to the next in service of its I/O die; the
other I/O die's relay of that number when the die is out. -/
def Data.relayOf (d : Data) (c : Nat) : Option Nat :=
  let south := 4 ≤ c / 84
  let south := if d.dieOut.contains (if south then 9 else 8) then !south else south
  let b := 128 + if south then 8 else 0
  ((List.range 8).map fun k => b + (c % 84 + k) % 8).find? fun n => !d.engOut.contains n

/-- The engine a descriptor goes to. -/
def Data.pickEngine (d : Data) (c cls sel : Nat) : Option Nat :=
  if cls = 2 then d.relayOf c
  else
    let b := 16 * (c / 84) + 8 * cls
    if sel = 0 ∨ d.engOut.contains (b + (sel - 1)) then d.fewest b else some (b + (sel - 1))

/-- Put a descriptor into an engine's queue of 16. -/
def Data.enqueue (d : Data) (n : Nat) (e : EngDesc) : Data :=
  { d with engines := mput d.engines n { d.engine n with queue := (d.engine n).queue ++ [e] } }

/-- A descriptor of a group. -/
def groupDesc (c s : Nat) (b : Block) (bytes : List Byte) (addr : Nat) : EngDesc :=
  { bytes := bytes, addr := BitVec.ofNat 64 addr, plot := b.plot, ctx := b.ctx, owner := .group c s, own := some (c, b.bench) }

/-- The engine class has a queue entry free (04 R134). -/
def Data.engReady (d : Data) (c cls sel : Nat) : Bool :=
  match d.pickEngine c cls sel with
  | some n => decide ((d.engine n).queue.length < 16)
  | none => false

/-- Issue a descriptor: a bench descriptor is copied at once, one in memory is read from its home first. -/
def execEngIssue (cls : Nat) (d : Data) (q : GCtx) : Exec :=
  let a := (q.g.rdPair 1 (Issue.src1 q.x) 0).toNat
  let sel := Issue.src3 q.x
  if a % 64 ≠ 0 then .fault .align q.on (BitVec.ofNat 64 a)
  else match placeIn d (groupAgent d q) 0 a with
    | .error c => .fault c q.on (BitVec.ofNat 64 a)
    | .ok pl =>
      let (d', ok) := fenceTry d q (if cls = 2 then 3 else 2)
      if !ok then .wait d' q.g
      else match d'.pickEngine q.c cls sel with
        | none => .hold
        | some n =>
          if 16 ≤ (d'.engine n).queue.length then .hold
          else match lineOf { t := 0, a := a, at_ := .ok pl } with
            | some (line, tgt) =>
              if d'.freeEntries q.c = 0 then .hold
              else .next (d'.addReq (BitVec.ofNat 10 (0x1C0 + cls)) q line tgt (.desc cls sel)
                [{ t := ((threads q.on).head?).getD 0, off := a % 128, opnd := 0, cmp := 0 }]) q.g none
            | none => match pl with
              | .bench p => .next (d'.enqueue n (groupDesc q.c q.s q.b ((List.range 64).map fun i => d'.rdB (p + i)) a)) q.g none
              | _ => .hold

def engSpec (cls : Nat) : OpSpec :=
  { ctlSpec (0x1C0 + cls) true
      (fun x => fixedLegal x false false true false true && decide (Issue.src3 x ≤ if cls = 2 then 0 else 8))
      (fun x => [⟨1, Issue.src1 x, 2⟩]) none (execEngIssue cls) with
    mem := true }

def specCourIssue := engSpec 0
def specGleanIssue := engSpec 1
def specRlyIssue := engSpec 2

end Sys2Proof.Machine
end

