-- ==== Sys2Proof/Machine/Cores.lean ====
section
/-! DEFINITION. What happens to resident groups between their instructions: responses, late faults, fault records and
their dispositions, waits that end, and management parks (03 R76, R77, R90-R105). -/

namespace Sys2Proof.Machine

/-! ### Start state (03 R68) -/

/-- Nonzero entries of a table. -/
def nz (l : List (Nat × W32)) : SMap W32 := l.filter fun e => e.2 != 0

/-- The start state of group `i` of a thread block. -/
def startGroup (b : Block) (bs i age : Nat) : Group :=
  { index := i, block := bs, age := age, pc := b.entry, active := BitVec.allOnes 32, stack := [],
    v := nz ((List.range 32).map fun t => (t, BitVec.ofNat 32 (32 * i + t))),
    u := nz [(0, b.slip.truncate 32), (1, (b.slip >>> 32).truncate 32), (2, BitVec.ofNat 32 b.index), (3, BitVec.ofNat 32 i),
      (4, BitVec.ofNat 32 b.groups), (5, BitVec.ofNat 32 b.grid), (6, BitVec.ofNat 32 b.ctx), (7, BitVec.ofNat 32 b.plot)],
    p := [], trapNan := b.traps.getLsbD 0, trapSat := b.traps.getLsbD 1, act := false, st := .run, mgmt := false, stop := false,
    late := [], iseq := 0 }

/-- Group slots of a core that are free. -/
def freeSlots (k : Core) : List Nat := (List.range 96).filter fun s => (mget k.groups s).isNone

/-- Put the groups of a thread block into the lowest free slots, numbered from the core's next number on, parked when the
management plane has a reason for it (03 R101). -/
def startGroups (k : Core) (b : Block) (bs : Nat) (mgmt : Bool) : Core :=
  let slots := (freeSlots k).take b.groups
  { k with
    nextAge := k.nextAge + b.groups
    fetchBuf := mfilter k.fetchBuf fun s _ => !slots.contains s
    groups := slots.zipIdx.foldl (fun m e => mput m e.1 { startGroup b bs e.2 (k.nextAge + e.2) with mgmt := mgmt }) k.groups }

/-! ### Responses (03 R87, R96; 07 R220) -/

/-- The group that issued a request, if it is still there. -/
def Data.reqGroup (d : Data) (r : LineReq) : Option Group :=
  (d.group r.core r.slot).bind fun g => if g.age = r.age then some g else none

def Data.dropReq (d : Data) (id : Nat) : Data := { d with reqs := d.reqs.filter fun r => r.id != id }

/-- The order in which late classes of one instruction are taken (03 Table 5). -/
def lateRank (c : FaultClass) : Nat :=
  match c with
  | .dataLost => 0
  | .nodeGone => 1
  | .fabricLost => 2
  | _ => 3

/-- The lowest-numbered thread of some requests and its address. -/
def lowestLane (rs : List LineReq) : Nat × Nat :=
  (rs.flatMap fun r => r.lanes.map fun l => (l.t, r.addr + l.off)).foldl (fun b x => if x.1 < b.1 then x else b) (32, 0)

/-- DETAIL of a remote class: the target node. -/
def remoteDetail (r : LineReq) (cls : FaultClass) : W64 :=
  match r.tgt with
  | .remote n => if cls = .dataLost then 0 else BitVec.ofNat 64 (n % 4096)
  | _ => 0

def lanesMask (rs : List LineReq) : W32 := maskOf fun t => rs.any fun r => r.lanes.any fun l => l.t == t

/-- SUBCODE of a memory instruction; of a descriptor read 03 Table 6 names none. -/
def reqSub (op : LineOp) (free : Nat) : Nat :=
  match op with
  | .load .. => 1
  | .store _ => 2
  | .atom .. => 3
  | .desc .. => Config.freeNat free % 65536

/-- A failed request joins the late fault of its instruction; the group stops issuing (03 R96). -/
def addLate (g : Group) (r : LineReq) (cls : FaultClass) (beat free : Nat) : Group :=
  let put (f : LateFault) : LateFault :=
    let ops := f.ops ++ [r]
    let hi := lateRank cls < lateRank f.cls
    { f with
      ops := ops
      mask := lanesMask ops
      addr := BitVec.ofNat 64 (lowestLane ops).2
      cls := if hi then cls else f.cls
      detail := if hi then remoteDetail r cls else f.detail }
  let late := if g.late.any fun f => f.iseq == r.iseq && f.ops != [] then
      g.late.map fun f => if f.iseq = r.iseq ∧ f.ops ≠ [] then put f else f
    else g.late ++ [{
      iseq := r.iseq, beat := beat, cls := cls, sub := reqSub r.op free, pc := r.pc, opcode := r.opcode
      mask := lanesMask [r], addr := BitVec.ofNat 64 (lowestLane [r]).2, detail := remoteDetail r cls, ops := [r] }]
  { g with stop := true, late := late }

/-- A load's destination registers after its line has come. -/
def landLoad (g : Group) (r : LineReq) (size dest : Nat) (du : Bool) (data : List Byte) : Group :=
  r.lanes.foldl (fun g l => writeWords g du dest l.t (loadWords size ((data.drop l.off).take (sizeBytes size)))) g

/-- An atomic's destination registers. -/
def landAtom (g : Group) (r : LineReq) (ty dest : Nat) (olds : List W64) : Group :=
  (r.lanes.zip olds).foldl (fun g e => writeWords g false dest e.1.t (atomWords ty e.2)) g

/-- A request's answer at its core. -/
def land (d : Data) (beat : Nat) (r : LineReq) : Data :=
  match d.reqGroup r with
  | none => match r.stage with
    | .waiting | .attached | .confirming => d
    | _ => d.dropReq r.id
  | some g =>
    match r.stage with
    | .waiting | .attached | .posted | .confirming => d
    | .acked => d.dropReq r.id
    | .failed cls =>
      { (d.setGroup r.core r.slot (addLate g r cls beat d.free)).dropReq r.id with free := d.free + 1 }
    | .returned data olds =>
      match r.op with
      | .load ro _ size dest du =>
        let d := (d.setGroup r.core r.slot (landLoad g r size dest du data)).dropReq r.id
        if ro then
          let k := d.core r.core
          d.setCore r.core { k with near := nearPut k.near d.free (r.addr / 128) { data := data, die := r.core / 84, slice := 0, plot := r.plot } }
        else d
      | .atom _ ty sc dest =>
        let d := (d.setGroup r.core r.slot (landAtom g r ty dest olds)).dropReq r.id
        if 2 ≤ sc then d.dropNear r.core else d
      | .store _ => d.dropReq r.id
      | .desc cls sel =>
        match mget (d.core r.core).blocks g.block, d.pickEngine r.core cls sel with
        | some b, some n =>
          if (d.engine n).queue.length < 16 then
            let off := ((r.lanes.head?).map fun l => l.off).getD 0
            (d.enqueue n (groupDesc r.core r.slot b ((data.drop off).take 64) (r.addr + off))).dropReq r.id
          else d
        | _, _ => d

/-- MEM_RESPONSE: data, an acknowledgement, an atomic's results or a late fault reaches the core. -/
def execMemResponse (req : Nat) (s : State) : Host.Outcome State Fault Refusal :=
  s.runD fun beat d => match d.req req with
    | some r => if r.core < 672 then land d beat r else d
    | none => d

/-! ### The active set (03 R76, R77) -/

/-- The oldest of some groups of a core. -/
def oldestOf (k : Core) (l : List (Nat × Group)) : Option (Nat × Group) :=
  l.foldl (fun (b : Option (Nat × Group)) x => match b with
    | none => some x
    | some y => if k.rank x.2 < k.rank y.2 then some x else some y) none

/-- ACTIVE_ENTRY_TIMEOUT: a group that has held its entry for 1,024 cycles gives it to the oldest waiting group. -/
def execActiveEntryTimeout (core slot : Nat) (s : State) : Host.Outcome State Fault Refusal :=
  s.runD fun _ d =>
    let k := d.core core
    match mget k.groups slot with
    | some g =>
      if g.act ∧ 8 ≤ mcount k.groups (fun _ h => h.act) then
        match oldestOf k (k.groups.filter fun e => readyPending d e.2) with
        | some (s', h) => d.setCore core { k with groups := mput (mput k.groups slot { g with act := false }) s' { h with act := true } }
        | none => d
      else d
    | none => d

/-! ### Fault parks and records (03 R96-R98; 11 R332) -/

def insLate (f : LateFault) : List LateFault → List LateFault
  | [] => [f]
  | x :: l => if f.iseq < x.iseq then f :: x :: l else x :: insLate f l

/-- 03 R96: OP for a load, BLOCK for a store or an atomic, CONTINUE for a trap. A descriptor read is a load. -/
def lateMode (f : LateFault) : ReplayMode :=
  match f.ops.head? with
  | none => .continue
  | some r => match r.op with
    | .load .. | .desc .. => .op
    | .store _ | .atom .. => .block

/-- A group that waits at a named barrier and parks for a fault has not arrived: the wait is executed again. -/
def Data.unarrive (d : Data) (c : Nat) (g : Group) : Data :=
  match g.st with
  | .barSync b => d.setCore c { d.core c with blocks := mmod (d.core c).blocks g.block fun k =>
      { k with bars := mmod k.bars b fun (n : NamedBarrier) => { n with arrived := n.arrived - 1 } } }
  | _ => d

/-- RESUME_PC: the boundary at which the group parked, of SAT_TRAP the PC of the `mma` (05 R157). -/
def lateResume (f : LateFault) (pc : W64) : W64 := if f.cls = .satTrap then f.pc else pc

/-- LATE_FAULT_PARK: nothing of the group is outstanding; one record for each faulted instruction, in program order. -/
def execLateFaultPark (core slot : Nat) (s : State) : Host.Outcome State Fault Refusal :=
  s.runD fun _ d =>
    match d.group core slot with
    | none => d
    | some g =>
      if g.late ≠ [] ∧ d.openReqs core slot g = [] ∧ arrOf (d.core core) slot g = [] then
        match mget (d.core core).blocks g.block with
        | none => d
        | some b =>
          let fs := g.late.foldl (fun l f => insLate f l) []
          let d := (d.unarrive core g).setGroup core slot { g with st := .faultPark, act := false, stop := false, late := [] }
          fs.foldl (fun (d : Data) f => d.holdRec b.ctx b.launch
            (recOf core slot g b f.beat f.cls f.sub f.pc (lateResume f g.pc) f.addr f.mask f.opcode (lateMode f) f.detail false f.ops)) d
      else d

/-- Address of the record with sequence number `seq`. -/
def recAddr (c : Ctx) (seq : Nat) : Nat := c.ring + 64 * (1 + seq % 2 ^ c.ringLog2)

/-- FAULT_RECORD_WRITE: the next held record goes into its ring entry, if that is free; then WRITE_SEQ, then the fault
event. -/
def execFaultRecordWrite (ctx : Nat) (s : State) : Host.Outcome State Fault Refusal :=
  s.runD fun _ d =>
    match mget d.ctxs ctx with
    | none => d
    | some c =>
      match c.held with
      | [] => d
      | r :: rest =>
        let q := c.writeSeq
        if (q % 2 ^ 32 + 2 ^ 32 - c.freeSeq % 2 ^ 32) % 2 ^ 32 < 2 ^ c.ringLog2 then
          let d := { d with ctxs := mput d.ctxs ctx { c with
            held := rest, writeSeq := q + 1, posted := mput c.posted q r } }
          let d := d.sWrite ctx 1 (recAddr c q) (faultBytes q r)
          let d := d.sWrite ctx 1 c.ring (natLe 4 (q + 1))
          d.eventAdd c.faultEvent 1
        else d

/-! ### Dispositions (03 R99, R100) -/

/-- The group a record names is still there. -/
def Data.recGroup (d : Data) (r : FaultRec) : Option Group :=
  (d.group r.core r.slot).bind fun g => if g.age = r.age then some g else none

/-- A posted record with the disposition that software has written into its entry. -/
structure Disposed where
  seq : Nat
  rec_ : FaultRec
  disp : Nat

/-- Read the dispositions of a context's posted records, as long as their entries have not been used again. -/
def readDisps (d : Data) (ctx : Nat) (c : Ctx) : List (Nat × FaultRec) → Data × List Disposed
  | [] => (d, [])
  | (q, r) :: l =>
    if c.writeSeq ≤ q + 2 ^ c.ringLog2 then
      let (d, x) := d.sRead ctx 1 (recAddr c q + 55) 1
      let (d, l) := readDisps d ctx c l
      (d, { seq := q, rec_ := r, disp := x.getD 0 } :: l)
    else
      let (d, l) := readDisps d ctx c l
      (d, { seq := q, rec_ := r, disp := 0 } :: l)

/-- A replay that is refused, or a code that is no disposition. -/
def refusedDisp (x : Disposed) : Bool :=
  (x.disp == 1 && (x.rec_.mode == .none || x.rec_.mode == .block)) || decide (5 ≤ x.disp)

/-- A pass or a drain keeps the groups of a plot on a core parked (03 R101). -/
def Data.parkReason (d : Data) (c plot : Nat) : Bool :=
  (match (d.core c).pass with
    | .forced _ | .running .. => true
    | _ => false) ||
  match mget d.plots plot with
    | some p => p.st == .draining || p.st == .drained
    | none => false

/-- Every request and matrix instruction of a thread block's groups has ended. -/
def blockQuiet (d : Data) (c bs : Nat) : Bool :=
  (d.core c).groups.all fun g => g.2.block != bs || ((d.openReqs c g.1 g.2).isEmpty && (arrOf (d.core c) g.1 g.2).isEmpty)

/-- 03 R100: restart a thread block once its groups have come to rest and its group slots are free; until then they issue
no more. -/
def restartBlock (d : Data) (c bs : Nat) : Data × Bool :=
  let k := d.core c
  match mget k.blocks bs with
  | none => (d, true)
  | some b =>
    let k' := { k with groups := mfilter k.groups fun _ g => g.block != bs }
    if blockQuiet d c bs && decide (b.groups ≤ (freeSlots k').length) then
      let k' := { k' with blocks := mput k'.blocks bs { b with bars := [] } }
      (d.setCore c (startGroups k' b bs (d.parkReason c b.plot)), true)
    else
      (d.setCore c { k with groups := mmap k.groups fun _ g => if g.block = bs then { g with stop := true, act := false } else g }, false)

/-- 03 R99: ABORT_BLOCK. The node of the iteration that placed the block fails (10 R313). -/
def abortBlock (d : Data) (c bs : Nat) : Data :=
  match mget (d.core c).blocks bs with
  | none => d
  | some b =>
    ({ d with launches := mmod d.launches b.launch fun l => if l.iter = b.iter then
        { l with nodes := mmod l.nodes b.node fun n => { n with aborted := true } } else l }).endBlock c bs

/-- Reissue the failed parts of an instruction. -/
def reissue (d : Data) (r : LineReq) : Data :=
  { d with nextId := d.nextId + 1, reqs := d.reqs ++ [{ r with id := d.nextId, stage := .waiting, pre := none, accepted := none }] }

/-- 03 R87: the loads that a replay of some records reissues fit in the free entries. -/
def replayFits (d : Data) (c : Nat) (rs : List FaultRec) : Bool :=
  decide (((rs.filter fun r => r.mode == .op).flatMap fun r => r.ops).length ≤ d.freeEntries c)

/-- 03 R97: replay a group: its failed loads are reissued in program order, and it issues again. -/
def replayGroup (d : Data) (c s : Nat) (rs : List FaultRec) : Data :=
  match d.group c s with
  | none => d
  | some g =>
    let d := d.setGroup c s { g with st := .run }
    rs.foldl (fun (d : Data) r => if r.mode = .op then r.ops.foldl reissue d else d) d

/-- The thread blocks that the records with disposition `k` name. -/
def blocksOf (d : Data) (l : List Disposed) (k : Nat) : List (Nat × Nat) :=
  ((l.filter fun x => x.disp == k).filterMap fun x => (d.recGroup x.rec_).map fun g => (x.rec_.core, g.block)).eraseDups

/-- Groups all of whose records carry REPLAY in a mode that allows it. -/
def replayable (c : Ctx) (l : List Disposed) : List (Nat × Nat × Nat) :=
  let key (r : FaultRec) := (r.core, r.slot, r.age)
  ((l.map fun x => key x.rec_).eraseDups).filter fun k =>
    (l.all fun x => key x.rec_ != k || (x.disp == 1 && !refusedDisp x)) && c.held.all fun r => r.notice || key r != k

/-- Refuse a disposition: it is reset, and the record is posted again. -/
def refuseDisp (d : Data) (ctx : Nat) (c : Ctx) (x : Disposed) : Data :=
  let d := d.sWrite ctx 1 (recAddr c x.seq + 55) [0]
  let d := { d with ctxs := mmod d.ctxs ctx fun y => { y with posted := mdel y.posted x.seq } }
  match (d.recGroup x.rec_).bind fun g => mget (d.core x.rec_.core).blocks g.block with
  | some b => d.holdRec ctx b.launch x.rec_
  | none => { d with ctxs := mmod d.ctxs ctx fun y => { y with held := y.held ++ [x.rec_] } }

/-- 06 R194: a disposition written to a notice is reset, and nothing else. -/
def resetNotices (d : Data) (ctx : Nat) (c : Ctx) (l : List Disposed) : Data :=
  (l.filter fun x => x.rec_.notice && x.disp != 0).foldl (fun (d : Data) x => d.sWrite ctx 1 (recAddr c x.seq + 55) [0]) d

/-- The Dispatcher acts on a context's dispositions. -/
def disposeAll (d : Data) (ctx : Nat) (c : Ctx) : Data :=
  let (d, l) := readDisps d ctx c c.posted
  let d := resetNotices d ctx c l
  let l := l.filter fun x => !x.rec_.notice
  if l.any fun x => x.disp == 4 then
    let d := d.abortCtx ctx
    { d with ctxs := mmod d.ctxs ctx fun y => { y with rung := false, posted := [] } }
  else
    let d := (blocksOf d l 3).foldl (fun (d : Data) b => abortBlock d b.1 b.2) d
    let (d, wait) := (blocksOf d l 2).foldl (fun (a : Data × Bool) b =>
      let (d, ok) := restartBlock a.1 b.1 b.2
      (d, a.2 || !ok)) (d, false)
    let l := l.filter fun x => (d.recGroup x.rec_).isSome
    let (d, wait) := (replayable c (l.filter fun x => x.disp != 2)).foldl (fun (a : Data × Bool) k =>
      let rs := (l.filter fun x => (x.rec_.core, x.rec_.slot, x.rec_.age) == k).map fun x => x.rec_
      if l.any fun x => x.disp == 2 && (x.rec_.core, x.rec_.slot, x.rec_.age) == k then a
      else if !replayFits a.1 k.1 rs then (a.1, true)
      else
        let d := replayGroup a.1 k.1 k.2.1 rs
        ({ d with ctxs := mmod d.ctxs ctx fun y => { y with posted := mfilter y.posted fun _ r => r.notice || (r.core, r.slot, r.age) != k } }, a.2)) (d, wait)
    let d := (l.filter refusedDisp).foldl (fun d x => refuseDisp d ctx c x) d
    { d with ctxs := mmod d.ctxs ctx fun y =>
      { y with rung := wait, posted := mfilter y.posted fun q r => if r.notice then decide (y.writeSeq ≤ q + 2 ^ y.ringLog2) else (d.recGroup r).isSome } }

/-- FAULT_DISPOSITION_PROCESS: after the context's fault doorbell. -/
def execFaultDispositionProcess (ctx : Nat) (s : State) : Host.Outcome State Fault Refusal :=
  s.runD fun _ d =>
    match mget d.ctxs ctx with
    | some c => if c.rung && !d.halted then disposeAll d ctx c else d
    | none => d

/-! ### Waits that end (03 R90-R93) -/

/-- The core is in the hands of a pass, its groups' state saved. -/
def inPass (k : Core) : Bool :=
  match k.pass with
  | .running .. => true
  | _ => false

/-- Groups of a core whose wait has ended go on; the wait acquires, which discards the near cache. -/
def wake (d : Data) (c : Nat) (p : Group → Bool) : Data :=
  let k := d.core c
  let hit (g : Group) : Bool := p g && !g.mgmt && !g.stop
  if inPass k || !(k.groups.any fun e => hit e.2) then d
  else (d.setCore c { k with
    groups := mmap k.groups fun _ g => if hit g then { g with st := .run }.advance (g.pc + 8) else g }).dropNear c

/-- COUNTER_BARRIER_MET: the waiters of a die or package counter whose target is reached. -/
def execCounterBarrierMet (pkg : Bool) (die k : Nat) (s : State) : Host.Outcome State Fault Refusal :=
  s.runD fun _ d =>
    let met (g : Group) : Bool := match g.st with
      | .counter p n v => p == pkg && n == k && counterMet (d.counterVal pkg die k) v
      | _ => false
    ((d.cores.map fun e => e.1).filter fun c => pkg || c / 84 == die).foldl (fun d c => wake d c met) d

/-- AWAIT_WAKE: the groups of a core that await pigeonhole `ph` and find another doorbell sequence. -/
def execAwaitWake (core ph : Nat) (s : State) : Host.Outcome State Fault Refusal :=
  s.runD fun _ d =>
    match d.doorbellSeq ph with
    | some q => wake d core fun g => match g.st with
      | .await h e => h == ph && q != e
      | _ => false
    | none =>
      if (d.core core).groups.any fun g => match g.2.st with
        | .await h _ => h == ph
        | _ => false
      then d.doorbellLost ph
      else d

/-! ### Management parks (03 R94, R101, R104; 11 R327, R328; 14 R399) -/

/-- The management plane has a reason to park the groups of a plot on a core. -/
def parkReason (b : Body) (c plot : Nat) : Bool :=
  b.data.parkReason c plot ||
  match b.pw.cold with
    | .running => false
    | _ => true

/-- Set or clear the parks of a core's groups as the reasons stand. -/
def parkCore (b : Body) (c : Nat) (on : Bool) : Body :=
  let k := b.data.core c
  let why (g : Group) : Bool := parkReason b c (((mget k.blocks g.block).map fun x => x.plot).getD 64)
  if k.groups = [] then b
  else { b with data := b.data.setCore c { k with groups := mmap k.groups fun _ g =>
    if on then (if why g then { g with mgmt := true, act := false } else g)
    else (if why g then g else { g with mgmt := false }) } }

/-- MGMT_PARK_REQUEST: groups park at their next instruction boundary, without a record. -/
def execMgmtParkRequest (core : Nat) (s : State) : Host.Outcome State Fault Refusal :=
  s.runB fun _ b => parkCore b core true

/-- MGMT_PARK_RELEASE: groups that no reason keeps parked resume in mode CONTINUE. -/
def execMgmtParkRelease (core : Nat) (s : State) : Host.Outcome State Fault Refusal :=
  s.runB fun _ b => parkCore b core false

end Sys2Proof.Machine
end

