-- ==== Sys2Proof/Machine/MatrixOps.lean ====
section
/-! DEFINITION. Issue of the matrix instructions into the array queue (04 R130-R133; 05 R141, R142, R164). -/

namespace Sys2Proof.Machine

/-- Bytes per K step of a panel, 05 Table 2. -/
def panelW (f : Nat) : Nat :=
  match f with
  | 1 => 256
  | 2 | 3 => 128
  | 8 | 9 => 48
  | 10 | 13 => 32
  | _ => 64

/-- Scale block length of an operand format (05 R142), 0 when it has no block scales. -/
def scaleLen (f : Nat) (blk16 : Bool) : Nat :=
  if f = 13 then 16 else if 6 ≤ f ∧ f ≤ 11 then (if blk16 then 16 else 32) else 0

/-- 04 R131: valid format pairs. -/
def pairOk (a b : Nat) : Bool :=
  (a == b && decide (1 ≤ a) && decide (a ≤ 3)) || (decide (4 ≤ a) && decide (a ≤ 13) && decide (4 ≤ b) && decide (b ≤ 13))

/-- The eight descriptor registers from u(n) on. -/
def descRegs (g : Group) (n : Nat) : List W32 := (List.range 8).map fun i => g.rd 1 (n + i) 0

/-- Word `i` of a descriptor. -/
def dw (l : List W32) (i : Nat) : Nat := ((l[i]?).getD 0).toNat

/-- K must be a multiple of this (04 R131). -/
def kUnit (f : Nat) (blk16 : Bool) : Nat := if scaleLen f blk16 ≠ 0 then scaleLen f blk16 else 1

/-- 04 R130, R131: an `mma` descriptor whose zero bits are zero and whose K fits the formats. -/
def mmaDescOk (l : List W32) (fa fb : Nat) (blk16 : Bool) : Bool :=
  let k := dw l 2
  decide (dw l 0 < 2 ^ 19) && decide (dw l 1 < 2 ^ 19) && decide (0 < k) && decide (k < 65536) && decide (dw l 3 < 2 ^ 28) &&
    (scaleLen fa blk16 != 0 || dw l 3 % 16384 == 0) && (scaleLen fb blk16 != 0 || dw l 3 / 16384 == 0) &&
    k % kUnit fa blk16 == 0 && k % kUnit fb blk16 == 0

/-- 05 R142: the bench extents an `mma` reads, as offset and length. -/
def mmaExtents (l : List W32) (fa fb : Nat) (blk16 : Bool) : List (Nat × Nat) :=
  let k := dw l 2
  [(dw l 0, k * panelW fa), (dw l 1, k * panelW fb)] ++
    (if scaleLen fa blk16 ≠ 0 then [(dw l 3 % 16384 * 32, 64 * (k / scaleLen fa blk16))] else []) ++
    (if scaleLen fb blk16 ≠ 0 then [(dw l 3 / 16384 * 32, 64 * (k / scaleLen fb blk16))] else [])

/-- Bytes of an output element (05 R150). -/
def outW (f : Nat) : Nat := if f = 1 ∨ f = 14 then 4 else if f = 2 ∨ f = 3 then 2 else 1

/-- 04 Table 15: a drain or load descriptor; `ld` needs OUT_FMT 1. -/
def drainDescOk (l : List W32) (ld : Bool) : Bool :=
  let w := dw l 1
  let fmt := w % 16
  let rnd := w / 16 % 4
  decide (dw l 0 < 2 ^ 19) && dw l 0 % 128 == 0 && decide (w < 128) &&
    (if ld then fmt == 1 else [1, 2, 3, 4, 5, 12, 14].contains fmt) &&
    (rnd == 0 || (rnd == 2 && decide (2 ≤ fmt) && decide (fmt ≤ 5))) &&
    (rnd == 2 || (dw l 3 == 0 && dw l 4 == 0)) && dw l 5 % 2 ^ 19 % 128 == 0 &&
    decide (1 ≤ dw l 6 % 128) && decide (dw l 6 % 128 ≤ 64) && decide (1 ≤ dw l 6 / 256 % 128) &&
    decide (dw l 6 / 256 % 128 ≤ 64) && dw l 7 == 0

/-- The bench extent of a drain or load: offset of row 0 and length up to the last element. -/
def drainExtents (l : List W32) : List (Nat × Nat) :=
  [(dw l 0, (dw l 6 % 128 - 1) * (dw l 5 % 2 ^ 19) + dw l 6 / 256 % 128 * outW (dw l 1 % 16))]

/-- 03 R66: the group's kernel holds the array claim of a FULL core. -/
def claimed (d : Data) (q : GCtx) : Bool :=
  d.coreState q.c == .full && q.b.usesArray && (d.core q.c).claim == some (q.b.launch, q.b.node)

/-- Every extent lies in the thread block's bench region. -/
def extentsOk (q : GCtx) (l : List (Nat × Nat)) : Bool := l.all fun e => decide (e.1 + e.2 ≤ 1024 * q.b.bench.length)

/-- 05 Table 8: an `mma` arriving in RAMP_DOWN starts RAMP_UP, in HOLD it makes the array ACTIVE at once. -/
def mmaArrives (a : ArrState) : ArrState :=
  match a with
  | .rampDown => .rampUp
  | .hold => .active
  | s => s

/-- Take a matrix instruction into the queue of 4 (04 R133). -/
def arrIssue (d : Data) (q : GCtx) (o : ArrOp) : Exec :=
  let k := d.core q.c
  if 4 ≤ k.arrQ.length then .hold
  else .next (d.setCore q.c { k with
    arrQ := k.arrQ ++ [o]
    arrSt := if o.kind = .mma then mmaArrives k.arrSt else k.arrSt
    rows := if o.kind = .mma ∧ k.arrSt = .rampDown then min 8 (k.rows + 1) else k.rows }) q.g none

/-- The queue entry of an instruction. -/
def arrOp (q : GCtx) (kind : ArrKind) (code set : Nat) (desc : List W32) (fa fb : Nat) (zero blk16 : Bool) (dest : Nat) : ArrOp :=
  { kind := kind, set := set, slot := q.s, age := q.g.age, iseq := q.g.iseq, pc := q.g.pc, opcode := BitVec.ofNat 10 code,
    desc := desc, aFmt := fa, bFmt := fb, zero := zero, blk16 := blk16, dest := dest, trapNan := q.g.trapNan,
    trapSat := q.g.trapSat, launch := q.b.launch, ctx := q.b.ctx, started := false }

/-- An accumulator set number (04 R112). -/
def setOk (n : Nat) : Bool := decide (n ≤ 1)

/-- A descriptor base: a multiple of 8 no greater than 56 (04 R130). -/
def baseOk (n : Nat) : Bool := n % 8 == 0 && decide (n ≤ 56)

/-- A matrix instruction in the MTX format. -/
def mtxSpec (code : Nat) (legal : Issue → Bool) (refs : Issue → List Ref) (exec : Data → GCtx → Exec) : OpSpec where
  code := code
  immOk := false
  regOk := true
  legal x := Issue.src3 x == 0 && Issue.b x 7 0 == 0 && legal x
  wide _ := true
  refs := refs
  sub := some 4
  mem := true
  exec := exec

/-- Issue-time checks of 03 R95 in order: descriptor ILLEGAL, ARRAY_UNAVAILABLE, BENCH_RANGE. -/
def mtxChecked (d : Data) (q : GCtx) (descOk : Bool) (ext : List (Nat × Nat)) (o : ArrOp) : Exec :=
  if !descOk then .fault .illegal q.on 0
  else if !claimed d q then .fault .arrayUnavailable q.on 0
  else if !extentsOk q ext then .fault .benchRange q.on 0
  else arrIssue d q o

def specMma := mtxSpec 0x1A0
  (fun x => setOk (Issue.dest x) && baseOk (Issue.src1 x) && decide (Issue.b x 17 8 < 4) &&
    pairOk (Issue.src2 x / 16) (Issue.src2 x % 16))
  (fun x => [⟨1, Issue.src1 x, 8⟩])
  fun d q =>
    let fa := Issue.src2 q.x / 16
    let fb := Issue.src2 q.x % 16
    let blk16 := mbit (Issue.b q.x 17 8) 1
    let l := descRegs q.g (Issue.src1 q.x)
    mtxChecked d q (mmaDescOk l fa fb blk16) (mmaExtents l fa fb blk16)
      (arrOp q .mma 0x1A0 (Issue.dest q.x) l fa fb (mbit (Issue.b q.x 17 8) 0) blk16 255)

def specAccZero := mtxSpec 0x1A1
  (fun x => setOk (Issue.dest x) && Issue.src1 x == 0 && Issue.src2 x == 0 && Issue.b x 17 8 == 0) (fun _ => [])
  fun d q => mtxChecked d q true [] (arrOp q .accZero 0x1A1 (Issue.dest q.x) [] 0 0 false false 255)

def specAccSt := mtxSpec 0x1A2
  (fun x => Issue.dest x == 0 && setOk (Issue.src1 x) && baseOk (Issue.src2 x) && Issue.b x 17 8 == 0)
  (fun x => [⟨1, Issue.src2 x, 8⟩])
  fun d q =>
    let l := descRegs q.g (Issue.src2 q.x)
    mtxChecked d q (drainDescOk l false) (drainExtents l) (arrOp q .accSt 0x1A2 (Issue.src1 q.x) l 0 0 false false 255)

def specAccLd := mtxSpec 0x1A3
  (fun x => setOk (Issue.dest x) && baseOk (Issue.src1 x) && Issue.src2 x == 0 && Issue.b x 17 8 == 0)
  (fun x => [⟨1, Issue.src1 x, 8⟩])
  fun d q =>
    let l := descRegs q.g (Issue.src1 q.x)
    mtxChecked d q (drainDescOk l true) (drainExtents l) (arrOp q .accLd 0x1A3 (Issue.dest q.x) l 0 0 false false 255)

def specAccFlags := mtxSpec 0x1A4
  (fun x => refLegal ⟨1, Issue.dest x, 1⟩ && setOk (Issue.src1 x) && Issue.src2 x == 0 && Issue.b x 17 8 == 0)
  (fun x => [⟨1, Issue.dest x, 1⟩])
  fun d q => mtxChecked d q true [] (arrOp q .accFlags 0x1A4 (Issue.src1 q.x) [] 0 0 false false (Issue.dest q.x))

def specAccClrf := mtxSpec 0x1A5
  (fun x => Issue.dest x == 0 && setOk (Issue.src1 x) && Issue.src2 x == 0 && Issue.b x 17 8 == 0) (fun _ => [])
  fun d q => mtxChecked d q true [] (arrOp q .accClrf 0x1A5 (Issue.src1 q.x) [] 0 0 false false 255)

end Sys2Proof.Machine
end

