-- ==== Sys2Proof/Machine/Links.lean ====
section
/-! DEFINITION. The link layer of runners and global links: virtual channels and credits, link sequence numbers and the replay
buffer, and the bytes of packets, sync cells, survey records and frames (02 R50; 09 R263-R266, R269, R271, R272). -/

namespace Sys2Proof.Machine

def Body.emit (b : Body) (o : Output) : Body := { b with host := b.host.emit o }

def Body.setLink (b : Body) (k : Nat) (l : LinkSt) : Body := { b with fab := { b.fab with links := mput b.fab.links k l } }

/-! ### Bytes -/

def flagBit (x : Bool) (k : Nat) : Nat := if x then 2 ^ k else 0

/-- The packet header (Table 6). -/
def headBytes (p : Packet) : List Byte :=
  natLe 1 p.type ++ natLe 1 (flagBit p.epoch 0 + flagBit p.flag 1 + flagBit p.masked 2 + flagBit p.ro 3 + flagBit p.fwd 4 + flagBit p.pm 5) ++ natLe 2 p.dst ++
    natLe 2 p.src ++ natLe 2 p.tag ++ natLe 8 p.offset ++ natLe 4 p.seq.toNat ++ natLe 2 p.agent ++ natLe 2 p.len ++ natLe 4 p.reqId ++
    natLe 1 p.hops ++ natLe 1 (p.aop % 16 + 16 * (p.ty % 8)) ++ natLe 1 p.status ++ natLe 1 p.conn

/-- The 16-byte byte mask of a masked write: bit i for byte i. -/
def maskBytes (m : List Bool) : List Byte :=
  (List.range 16).map fun i => BitVec.ofNat 8 ((List.range 8).map fun j => flagBit (m.getD (8 * i + j) false) j).sum

/-- The sync content (02 Table 2). -/
def syncBytes (c : SyncCell) : List Byte :=
  natLe 8 c.beat ++ natLe 8 c.rootSerial ++ natLe 1 c.priority ++ natLe 1 c.hops ++ natLe 1 c.state ++ natLe 1 0 ++
    natLe 2 (min c.errBound 65535) ++ natLe 2 0

/-- The survey identity record (09 Table 3). -/
def surveyBytes (r : SurveyRec) : List Byte :=
  natLe 8 r.serial ++ natLe 2 (r.node % 4096 + flagBit r.nodeValid 15) ++ natLe 1 (r.position % 16) ++ natLe 1 r.port ++ natLe 1 r.lanes ++
    natLe 3 0 ++ natLe 8 r.t1 ++ natLe 4 r.t2 ++ natLe 4 r.t3mt2

/-- The header of what is addressed to a link (R272): TYPE, LENGTH and SRC_NODE, and zeros. -/
def linkHead (type len node : Nat) : List Byte :=
  natLe 1 type ++ natLe 3 0 ++ natLe 2 node ++ List.replicate 16 0 ++ natLe 2 len ++ List.replicate 8 0

/-- The header of an item on a global link. -/
def itemHead (node : Nat) (i : LinkItem) : List Byte :=
  match i with
  | .sync _ => linkHead 0x0E 24 node
  | .survey _ => linkHead 0x0F 32 node
  | .packet p => headBytes p

/-- What follows the header: a byte mask where there is one, and the data. -/
def itemData (i : LinkItem) : List Byte :=
  match i with
  | .sync c => syncBytes c
  | .survey r => surveyBytes r
  | .packet p => (if p.masked then maskBytes p.mask else []) ++ p.data

/-- Address of a global link (R265): 0x02, the low 39 bits of the module serial, and the link bit. -/
def glAddr (serial port : Nat) : Nat := 2 * 2 ^ 40 + serial % 2 ^ 39 * 2 + port % 2

/-- An address in the order in which it is sent, its first byte first. -/
def addrBytes (a : Nat) : List Byte := (natLe 6 a).reverse

/-- The address of a global link's peer, from its last identity record. -/
def LinkSt.peerAddr (l : LinkSt) (k : Nat) : Nat := if l.peerSerial = 0 then Config.unknownPeer k else glAddr l.peerSerial l.peerPort

/-- A frame of a global link (R266): addresses, EtherType, the 64-byte parcel header, the data and the FCS. -/
def frameBytes (b : Body) (k : Nat) (seq : BitVec 12) (i : LinkItem) : List Byte :=
  let l := b.fab.link k
  let f := addrBytes (l.peerAddr k) ++ addrBytes (glAddr b.md.serial k) ++ [0x88, 0xB5] ++ itemHead b.data.node i ++
    ((Config.parcelLink seq.toNat l.rxSeq.toNat (Config.creditGrant k l.rxSeq.toNat)) ++ List.replicate 32 0).take 32 ++ itemData i
  f ++ natLe 4 (crc32 f)

/-- What a port sends for an item: on a runner a packet's header and data, or the content of a control cell; on a global link a
frame. -/
def linkBytes (b : Body) (k : Nat) (seq : BitVec 12) (i : LinkItem) : List Byte :=
  if 16 ≤ k then frameBytes b k seq i
  else match i with
    | .packet p => headBytes p ++ itemData i
    | _ => itemData i

/-! ### Sending (R263, R264) -/

/-- An item leaves under a link sequence number. -/
def Body.linkOut (b : Body) (k : Nat) (x : BitVec 12 × LinkItem) : Body := b.emit (.link k x.1 x.2 (linkBytes b k x.1 x.2))

/-- An item leaves on a port, and stays in the replay buffer until it is acknowledged. -/
def Body.linkPut (b : Body) (k : Nat) (i : LinkItem) : Body :=
  let l := b.fab.link k
  (b.setLink k { l with txSeq := l.txSeq + 1, txBuf := l.txBuf ++ [(l.txSeq, i)] }).linkOut k (l.txSeq, i)

/-- The virtual channel of a packet (Table 7; R264): 0 REQ, 1 RSP, 2 FWD_REQ, 3 FWD_RSP, 4 MSG, 5 CTRL. -/
def vcOf (p : Packet) : Nat :=
  if p.type ≤ 8 then (if p.type % 2 = 1 then 0 else 1) + (if p.fwd then 2 else 0) else if p.type ≤ 12 then 4 else 5

/-- A packet of a channel may leave: a credit is in hand, and none of its channel waits before it. -/
def LinkSt.mayLeave (l : LinkSt) (p : Packet) : Bool := l.credits.getD (vcOf p) 0 != 0 && l.waiting.all fun q => vcOf q != vcOf p

/-- A packet leaves on a port, or waits there for a credit of its channel. -/
def Body.linkPacket (b : Body) (k : Nat) (p : Packet) : Body :=
  let l := b.fab.link k
  if l.mayLeave p then (b.setLink k { l with credits := l.credits.modify (vcOf p) fun n => n - 1 }).linkPut k (.packet p)
  else b.setLink k { l with waiting := l.waiting ++ [p] }

/-- The packets that wait leave as far as credits reach. -/
def Body.pumpLink (b : Body) (k : Nat) : Body :=
  let l := b.fab.link k
  l.waiting.foldl (fun (b : Body) p => b.linkPacket k p) (b.setLink k { l with waiting := [] })

/-! ### What the peer says (R263, R264, R266) -/

/-- The replay buffer once the peer expects cell `ack` next. -/
def ackBuf (l : List (BitVec 12 × LinkItem)) (ack : BitVec 12) : List (BitVec 12 × LinkItem) :=
  if l.any fun x => x.1 + 1 == ack then (l.dropWhile fun x => x.1 + 1 != ack).drop 1 else l

/-- Credits that have come are added to those in hand. -/
def addCredits (a c : List Nat) : List Nat := (List.range 6).map fun i => a.getD i 0 + c.getD i 0

/-- Everything in the replay buffer is sent again, from the first cell that is not acknowledged. -/
def Body.replayLink (b : Body) (k : Nat) : Body :=
  let l := b.fab.link k
  l.txBuf.foldl (fun (b : Body) x => b.linkOut k x) (b.setLink k { l with replays := l.replays + l.txBuf.length })

/-- A cell or parcel has come in order: it is acknowledged; what it acknowledges leaves the replay buffer, its credits let packets
go, and a replay that it asks for is made. -/
def Body.linkIn (b : Body) (k : Nat) (w : LinkWord) : Body :=
  let l := b.fab.link k
  let b := b.setLink k { l with rxSeq := l.rxSeq + 1, txBuf := ackBuf l.txBuf w.ack, credits := addCredits l.credits w.credits }
  let b := b.emit (.ack k (l.rxSeq + 1) (Config.creditGrant k (l.rxSeq + 1).toNat))
  (if w.replay then b.replayLink k else b).pumpLink k

/-- A cell or parcel is not taken: a replay is asked for from the one that is expected. -/
def Body.linkRefuse (b : Body) (k : Nat) : Body :=
  let l := b.fab.link k
  (b.setLink k { l with replays := l.replays + 1 }).emit (.replay k l.rxSeq)

end Sys2Proof.Machine
end

