-- ==== Sys2Proof/Machine/Power.lean ====
section
/-! DEFINITION. Power: the cap in force, shares, enforcement each beat, droop, start windows, reason intervals, energy,
and the power letters (14 R383-R392, R402-R405). -/

namespace Sys2Proof.Machine

def State.setPw (s : State) (p : Power) : State := { s with body := { s.body with pw := p } }

/-! ### The cap in force (R383-R385) -/

/-- The budget accepted last among those whose interval covers a beat. -/
def budgetAt (p : Power) (beat : Nat) : Option Budget :=
  p.budgets.foldl (fun b q =>
    if q.start ≤ beat ∧ (q.dur = 0 ∨ beat < q.start + q.dur) then
      match b with
      | some r => if r.order ≤ q.order then some q else b
      | none => some q
    else b) none

/-- The rack input: the budget in force, or the safe cap when there is none. -/
def rackInput (p : Power) (c : CapCfg) (beat : Nat) : Nat := ((budgetAt p beat).map fun b => b.watts).getD c.safeW

/-- Evaluate the cap at a beat edge; a change multiplies every share by the ratio of the new cap to the old (R389). -/
def applyCap (p : Power) (c : CapCfg) (beat : Nat) : Power :=
  let rack := rackInput p c beat
  let cap := min rack c.capW
  let p := { p with capRack := decide (rack ≤ c.capW) }
  if cap = p.cap then p
  else { p with cap := cap, shares := p.shares.map fun w => w * cap / p.cap, hbmShare := p.hbmShare * cap / p.cap }

/-! ### Rails (R393-R396) -/

def railNo (r : Rail) : Nat :=
  match r with
  | .vcore d => d
  | .vsram => 8
  | .vhbm => 9
  | .vioN => 10
  | .vioS => 11

def railPhases (n : Nat) : Nat := if n < 8 then 6 else if n = 8 then 16 else if n = 9 then 8 else 4

/-- Phases of a rail that still deliver. -/
def Power.live (p : Power) (n : Nat) : Nat := railPhases n - (p.phases.filter fun e => e.1 / 64 == n).length

/-- A rail has a failed phase, with the sense failed or not. -/
def Power.phaseFail (p : Power) (n : Nat) (sense : Bool) : Bool := p.phases.any fun e => e.1 / 64 == n && e.2 == sense

/-! ### Enforcement each beat (R389, R397, R433) -/

/-- The share of die `d` in milliwatts, with the limits of its rails. -/
def dieLimit (p : Power) (d : Nat) : Nat :=
  let share := p.shares.getD d 0 * 1000
  let sram := if p.live 8 < 14 then share * p.live 8 / 14 else share
  match p.live d with
  | 5 => min sram (Config.railMw 300)
  | 4 => min sram (Config.railMw 240)
  | _ => sram

/-- Clock steps of a die under the manual limit. -/
def stepCeil (c : CapCfg) : Nat := if c.freqMhz = 0 then 64 else c.freqMhz / 25

/-- Steps lost for a power `P` above a limit `L`. -/
def stepsLost (P L : Nat) : Nat := min 16 ((64 * (P - L) + P - 1) / P)

/-- Clock steps and array duty of a die after a beat in which it drew `P` milliwatts. -/
def dieStep (p : Power) (c : CapCfg) (uv : Bool) (d P : Nat) : Nat × Nat :=
  let st := p.steps.getD d 64
  let du := p.duty.getD d 4
  let L := dieLimit p d
  let top := stepCeil c
  if uv then (16, 1)
  else if L < P then (if st = 16 then (16, max 1 (du - 1)) else (min top (max 16 (st - stepsLost P L)), du))
  else if p.hot.contains d then (min top (max 16 (st - 1)), du)
  else if 100 * P < 97 * L then (if du < 4 then (min st top, du + 1) else (min (st + 1) top, du))
  else (min st top, du)

/-- HBM request slots that the phases of VHBM allow, of 64 (R396). -/
def hbmTop (p : Power) : Nat := if p.live 9 < 7 then 64 * p.live 9 / 7 else 64

/-- HBM request slots open on every channel, of 64. -/
def hbmStep (p : Power) (P : Nat) : Nat :=
  let L := p.hbmShare * 1000
  let top := hbmTop p
  if L < P then max 1 (min top (p.hbmSlots - stepsLost P L))
  else if 100 * P < 97 * L then min top (p.hbmSlots + 1)
  else min top p.hbmSlots

/-- Request slots that the heat of each stack leaves open on its channels, of 64 (R397): one fewer each beat that the stack is
hot, and one more each beat that it is not. -/
def stackStep (p : Power) : List Nat :=
  (List.range 16).map fun i => let n := p.stackSlots.getD i 64
    if p.hot.contains (16 + i) then max 1 (n - 1) else min 64 (n + 1)

def enforce (p : Power) (c : CapCfg) (uv : Bool) (m : PowerMeas) : Power :=
  let r := (List.range 8).map fun d => dieStep p c uv d (m.dieMw.getD d 0)
  { p with steps := r.map fun x => x.1, duty := r.map fun x => x.2, hbmSlots := hbmStep p m.hbmMw, stackSlots := stackStep p }

/-! ### Start windows (R392) -/

def windowMask (c : CapCfg) (block : Option Nat) (pos : Nat) : Nat :=
  match c.stagger with
  | 1 => if block.isNone then 0x3FF else 2 ^ (pos % 5) + 2 ^ (pos % 5 + 5)
  | 2 => if c.windowMask = 0 then 0x3FF else c.windowMask
  | _ => 0x3FF

/-! ### Reason intervals (R402, R403) -/

/-- Reasons in force: reason, unit kind, unit, fraction withheld in 1/1024. -/
def reasonsNow (b : Body) : List (Nat × Nat × Nat × Nat) :=
  let p := b.pw
  let c := b.flash.cap
  let capR := if p.capRack then 2 else 1
  let depth (d : Nat) := 1024 - p.steps.getD d 64 * 16 * p.duty.getD d 4 / 4
  let stack := p.stackSlots.foldl min 64
  ((List.range 8).flatMap fun d =>
    let low := p.steps.getD d 64 < stepCeil c ∨ p.duty.getD d 4 < 4
    (if low ∧ !p.hot.contains d ∧ !b.md.uv ∧ dieLimit p d = p.shares.getD d 0 * 1000 then [(capR, 1, d, depth d)] else []) ++
    (if p.hot.contains d then [(3, 1, d, depth d)] else []) ++
    (if p.phaseFail d false ∨ (p.live 8 < 14 ∧ p.phaseFail 8 false) then [(5, 1, d, depth d)] else []) ++
    (if p.phaseFail d true ∨ (p.live 8 < 14 ∧ p.phaseFail 8 true) then [(6, 1, d, depth d)] else []) ++
    (if c.freqMhz ≠ 0 ∧ p.steps.getD d 64 = stepCeil c ∧ stepCeil c < 64 then [(11, 1, d, 1024 - stepCeil c * 16)] else [])) ++
  (([8, 9].filter fun d => p.hot.contains d).map fun d => (3, 1, d, 0)) ++
  (if p.hbmSlots < hbmTop p then [(capR, 2, 0, 1024 - p.hbmSlots * 16)] else []) ++
  (if stack < 64 ∨ p.hot.any (fun h => decide (16 ≤ h)) then [(4, 2, 0, 1024 - stack * 16)] else []) ++
  (if p.phaseFail 9 false then [(5, 2, 0, 1024 - p.hbmSlots * 16)] else []) ++
  (if p.phaseFail 9 true then [(6, 2, 0, 1024 - p.hbmSlots * 16)] else []) ++
  (if p.phaseFail 8 false ∨ p.phaseFail 10 false ∨ p.phaseFail 11 false then [(5, 0, 0, 0)] else []) ++
  (if p.phaseFail 8 true ∨ p.phaseFail 10 true ∨ p.phaseFail 11 true then [(6, 0, 0, 0)] else []) ++
  (if p.cold = .running then [] else [(9, 0, 0, 1024)]) ++
  ((b.hl.suspects.filter fun e => decide (1 ≤ e.2.step) && decide (e.2.state ≤ 4)).map fun e =>
    (10, 3, e.1 / 84 + 16 * (e.1 % 84 / 12) + 256 * (e.1 % 12), (if e.2.step < 3 then 0 else (e.2.step - 2) * 64)))

/-- Close an interval: it takes the next SEQ and joins the ring of the last 4,096. While it is open, `meanDepth` holds
the sum of its depths. -/
def closeReason (p : Power) (beat : Nat) (r : Reason) : Power :=
  let n := max 1 (beat - r.start)
  let ring := p.closedR ++ [{ r with stop := beat, meanDepth := r.meanDepth / n, seq := p.nextR }]
  { p with closedR := ring.drop (ring.length - 4096), nextR := p.nextR + 1 }

/-- Open, extend and close intervals at a beat. -/
def updateReasons (b : Body) (beat : Nat) : Power :=
  let now := reasonsNow b
  let same (r : Reason) (x : Nat × Nat × Nat × Nat) : Bool := x.1 == r.reason && x.2.1 == r.kind && x.2.2.1 == r.unit
  let gone := b.pw.openR.filter fun r => !(now.any fun x => same r x)
  let kept := b.pw.openR.filterMap fun r => (now.find? fun x => same r x).map fun x =>
    { r with maxDepth := max r.maxDepth x.2.2.2, meanDepth := r.meanDepth + x.2.2.2 }
  let new : List Reason := (now.filter fun x => !(b.pw.openR.any fun r => same r x)).map fun x =>
    { reason := x.1, kind := x.2.1, unit := x.2.2.1, events := 0, start := beat, stop := 0, maxDepth := x.2.2.2, meanDepth := x.2.2.2, seq := 0 }
  gone.foldl (fun p r => closeReason p beat r) { b.pw with openR := kept ++ new }

/-! ### BEAT_EDGE -/

/-- The count after an edge: the next beat, or a forward step (02 R47); entries passed over are late, samples among them
are not taken (02 R57). What falls due at the first edge after its acceptance (02 R44) falls due at the step. The code of the
gap record is a constant that the spec leaves open, but for those of 02's other records (DESIGN CHOICE, log entry 175). -/
def almEdge (s : State) : State :=
  let a := s.alm
  let b := a.beat + 1 + ((a.step.map fun x => x.1).getD 0)
  let dis := if a.st = .locked ∨ a.st = .slewing then a.disciplined + 1 else a.disciplined
  let skip (e : SEntry) : Bool := a.step.isSome && e.counts && decide (a.beat < e.beat) && decide (e.beat < b)
  let taken (e : SEntry) : Bool := skip e && match e.kind with
    | .sample _ => true
    | _ => false
  let a' := if a.step.isSome then a.rebase b else { a with beat := b }
  let s' := (s.setAlm { a' with disciplined := dis, step := none }).mg fun m =>
    { m with schedule := (m.schedule.filter fun e => !taken e).map fun e =>
        if skip e then { e with late := true } else if !e.counts && e.beat == a.beat + 1 then { e with beat := b } else e }
  let s' := if s.body.mg.schedule.any taken then s'.post (0x0104 + Config.gapCode % 252) 0 [(a.beat + 1, 0), (b, 0)] else s'
  match a.step with
  | some (n, off) =>
    let left := off + 1000 * n
    corrected (s'.setAlm { s'.alm with
      st := if left.natAbs ≤ a.bound then .locked else .slewing
      since := b
      offset := left
      slew := 10 * left
      slewFrom := left }) (off - left)
  | none =>
    if a.st = .slewing then
      let k : Int := if 0 ≤ a.slew then a.slew - 1 else a.slew + 1
      if k.natAbs ≤ 10 * a.bound then
        corrected (s'.setAlm { s'.alm with st := .locked, since := b, slew := 0, slewFrom := 0 }) a.slewFrom
      else s'.setAlm { s'.alm with slew := k }
    else s'

/-- Sync cells leave on every trained port at beats that are multiples of 16 (02 R50). A package that is locked or in HOLDOVER
without a source (after FOLLOW, before a first cell) names the root it last had, with the worst priority, 255
(DESIGN CHOICE, log entry 174: 02 R50 names no source for it). -/
def sendSync (s : State) : State :=
  let a := s.alm
  if a.beat % 16 = 0 ∧ (a.started || a.isRoot) then
    let c : SyncCell :=
      { beat := a.beat, rootSerial := a.rootSerial, hops := if a.isRoot then 0 else a.hops, state := a.st.code, zero := true,
        priority := if a.isRoot then a.priority else ((mget a.srcs a.source).map fun x => x.cell.priority).getD 255,
        errBound := a.errBound }
    let ports := s.body.fab.links.filter fun l => l.2.trained && l.2.carries && l.2.training.isNone
    { s with body := ports.foldl (fun (b : Body) p => b.linkPut p.1 (.sync c)) s.body }
  else s

/-- A budget joins the budgets, with its place in the order of acceptance; once only. -/
def addBudget (s : State) (watts start dur order : Nat) : State :=
  let p := s.body.pw
  if p.budgets.any fun q => q.order == order then s
  else s.setPw { p with budgets := p.budgets ++ [{ watts := watts, start := start, dur := dur, order := order }] }

/-- Budgets are armed in hardware: from the edge of its beat on a budget is the cap input, before its execution is posted
(02 R53, R54, Table 5; 14 R384). Nothing is armed in LATCH_FAULT (13 R370). -/
def armBudgets (s : State) : State :=
  if s.latch.fault then s
  else s.body.mg.schedule.foldl (fun (s : State) e => match e.kind with
    | .budget w dur => if e.beat ≤ s.alm.beat then addBudget s w e.beat dur e.order else s
    | _ => s) s

/-- The operations of a core's groups that are outstanding: requests and matrix instructions. -/
def coreBusy (d : Data) (c : Nat) : Bool := !(d.core c).arrQ.isEmpty || d.reqs.any fun r => r.core == c && !r.isPosted

/-- 03 R105: a force-parked core whose operations are still outstanding at a beat waits one beat more. -/
def extraWaits (b : Body) (beat : Nat) : Body :=
  { b with hl := { b.hl with passes := mmap b.hl.passes fun k p => match unitOfKey k, p.forced with
    | .core c, some t => if p.start.isNone && coreBusy b.data c then { p with extra := beat - t } else p
    | _, _ => p } }

/-- BEAT_EDGE: the count advances; the latch's REMAINING falls; cap, enforcement, start windows and reason intervals are
evaluated (02 R38, R39, R47, R50; 13 R368; 14 R383, R389, R392, R402). -/
def execBeatEdge (meas : PowerMeas) (s : State) : Host.Outcome State Fault Refusal :=
  s.run fun s =>
    if !s.body.md.p3v3 || !s.body.md.oscOk then s
    else
      let s := armBudgets (sendSync (almEdge s))
      let beat := s.alm.beat
      let b := s.body
      let b := { b with md := { b.md with standbyBeats := b.md.standbyBeats + 1, aonBeats := b.md.aonBeats + 1 } }
      let p := applyCap b.pw b.flash.cap beat
      let p := enforce p b.flash.cap b.md.uv meas
      let p := { p with mask := windowMask b.flash.cap b.fab.block (b.md.slotId % 16) }
      let b := { b with pw := p }
      let b := extraWaits { b with pw := updateReasons b beat } beat
      { s with body := b, latch := if s.latch.fault then s.latch else { s.latch with remaining := s.latch.remaining - 1 } }

/-- BUDGET_EXPIRY: a budget whose duration has run out leaves the set of budgets (R384). The cap in force follows at the next
beat edge. -/
def execBudgetExpiry (s : State) : Host.Outcome State Fault Refusal :=
  s.run fun s =>
    let p := s.body.pw
    s.setPw { p with budgets := p.budgets.filter fun q => q.dur == 0 || decide (s.alm.beat < q.start + q.dur) }

/-- BUDGET_FALLBACK (R385): no budget accepted for FALLBACK_BEATS. -/
def execBudgetFallback (s : State) : Host.Outcome State Fault Refusal :=
  s.run fun s =>
    let p := s.body.pw
    let c := s.body.flash.cap
    if !p.fallbackOn && decide (p.lastAccept.getD 0 + c.fallback ≤ s.alm.beat) then
      let p := { p with budgets := [], fallbackOn := true }
      let s := (s.setPw p).mg fun m => Mgmt.retire { m with schedule := m.schedule.filter fun e => match e.kind with
        | .budget _ _ => false
        | _ => true }
      s.post 0x0607 0 [(s.alm.beat, 0), (p.lastAccept.getD 0, 0), (c.safeW, 0)]
    else s

/-! ### Droop (R391) and temperature (R397) -/

/-- DROOP_DETECT: the die's clock is stretched. -/
def execDroopDetect (die : Nat) (s : State) : Host.Outcome State Fault Refusal :=
  s.run fun s =>
    let p := s.body.pw
    if die < 8 ∧ !p.droop.contains die then
      s.setPw { p with droop := sadd p.droop die, droopN := mput p.droopN die (mgetD p.droopN die 0 + 1) }
    else s

/-- DROOP_RELEASE: 16 cycles after every detector has returned above the threshold. -/
def execDroopRelease (die : Nat) (s : State) : Host.Outcome State Fault Refusal :=
  s.run fun s => s.setPw { s.body.pw with droop := srem s.body.pw.droop die }

/-- The throttle value of a sensor: dies 0-9 100 degrees, stacks (10 on) 93 (Table 4). -/
def throttleAt (sensor : Nat) : Nat := if sensor < 10 then 100 else 93

/-- THERMAL_THRESHOLD: a sensor's reading reaches its throttle value, or has returned below it. -/
def execThermalThreshold (sensor tempC : Nat) (s : State) : Host.Outcome State Fault Refusal :=
  s.run fun s =>
    let p := s.body.pw
    let unit := if sensor < 10 then sensor else sensor + 6
    let temps := if p.temps.length ≤ sensor then p.temps ++ List.replicate (sensor + 1 - p.temps.length) 0 else p.temps
    let p := { p with temps := temps.set sensor tempC, hot := if throttleAt sensor ≤ tempC then sadd p.hot unit else srem p.hot unit }
    s.setPw { p with hot := p.hot }

/-! ### Letters (R384-R386, R403, R405) -/

/-- A budget that takes effect at a beat, accepted now. -/
def newBudget (s : State) (watts start dur : Nat) : State :=
  let s := addBudget s watts start dur s.body.mg.nextOrder
  s.mg fun m => { m with nextOrder := m.nextOrder + 1 }

def accepted (s : State) : State := s.setPw { s.body.pw with lastAccept := some s.alm.beat, fallbackOn := false }

/-- `power.budget`. -/
def effBudget (s : State) (l : Letter) (_ : Nat) : State × Res :=
  let beat := l.arg 8 8
  if beat = 0 then (accepted (newBudget s (l.arg 0 2) (s.alm.beat + 1) (l.arg 4 4)), Res.ok (natLe 4 0))
  else
    let (s', r) := schedule s l beat 8 (.budget (l.arg 0 2) (l.arg 4 4))
    if r.status = 0 then (accepted s', r) else (s, r)

/-- The settings of `power.cap` as its reply gives them. -/
def capBytes (c : CapCfg) : List Byte :=
  natLe 1 0 ++ natLe 1 c.stagger ++ natLe 2 c.capW ++ natLe 2 c.safeW ++ natLe 2 c.freqMhz ++ natLe 4 c.fallback ++
    natLe 2 c.windowMask ++ natLe 2 0

/-- `power.cap`: the fields of VALID change; the others stay. -/
def effCap (s : State) (l : Letter) (_ : Nat) : State × Res :=
  let v (i : Nat) := l.arg 0 1 / 2 ^ i % 2 == 1
  let c := s.body.flash.cap
  let c : CapCfg :=
    { capW := if v 0 then l.arg 2 2 else c.capW
      safeW := if v 1 then l.arg 4 2 else c.safeW
      fallback := if v 2 then l.arg 8 4 else c.fallback
      freqMhz := if v 3 then l.arg 6 2 else c.freqMhz
      stagger := if v 4 then l.arg 1 1 else c.stagger
      windowMask := if v 4 then l.arg 12 2 else c.windowMask }
  ({ s with body := { s.body with flash := { s.body.flash with cap := c } } }, Res.ok (capBytes c))

/-- 14 Table 8. -/
def reasonBytes (r : Reason) (isOpen : Bool) (beat : Nat) : List Byte :=
  natLe 1 r.reason ++ natLe 1 r.kind ++ natLe 2 r.unit ++ natLe 4 r.events ++ natLe 8 r.start ++
    natLe 8 (if isOpen then 0 else r.stop) ++ natLe 2 r.maxDepth ++
    natLe 2 (if isOpen then r.meanDepth / max 1 (beat - r.start + 1) else r.meanDepth) ++ natLe 4 r.seq

def activeBits (p : Power) : Nat := (List.range 11).foldl (fun a k => if p.openR.any (fun r => r.reason == k + 1) then a + 2 ^ k else a) 0

/-- `power.reasons` CURRENT: the open intervals, at most 6. -/
def effReasonsCurrent (s : State) (_l : Letter) (_ : Nat) : State × Res :=
  let p := s.body.pw
  (s, Res.ok (natLe 2 (activeBits p) ++ List.replicate 14 0 ++ ((p.openR.take 6).flatMap fun r => reasonBytes r true s.alm.beat) ++
    natLe 4 (min 6 p.openR.length)))

/-- `power.reasons` HISTORY: the closed records from SEQ_FIRST onward, at most 6. -/
def effReasonsHistory (s : State) (l : Letter) (_ : Nat) : State × Res :=
  let p := s.body.pw
  let first := l.arg 4 4
  let old := match p.closedR.head? with
    | some r => decide (first < r.seq)
    | none => false
  let recs := (p.closedR.filter fun r => decide (first ≤ r.seq)).take 6
  let nxt := match recs.getLast? with
    | some r => r.seq + 1
    | none => first
  (s, Res.ok (natLe 2 (activeBits p + if old then 2 ^ 15 else 0) ++ List.replicate 14 0 ++
    (recs.flatMap fun r => reasonBytes r false s.alm.beat) ++ natLe 4 nxt))

/-- `power.energy` CONTEXTS. -/
def effEnergyContexts (s : State) (l : Letter) (_ : Nat) : State × Res :=
  let p := s.body.pw
  let es := (p.ctxMj.filter fun e => decide (l.arg 2 2 ≤ e.1)).take 16
  (s, Res.ok (natLe 8 p.moduleMj ++ natLe 8 p.unattrMj ++ natLe 8 p.asOf ++ natLe 2 es.length ++ List.replicate 6 0 ++
    es.flatMap fun e => natLe 2 e.1 ++ natLe 1 e.2.1 ++ natLe 1 0 ++ natLe 8 e.2.2))

/-- `power.energy` SAMPLE: a telemetry sample at BEAT. -/
def effEnergySample (s : State) (l : Letter) (_ : Nat) : State × Res :=
  let beat := l.arg 8 8
  if beat = 0 then
    let e : SEntry :=
      { ticket := 0, beat := s.alm.beat + 1, kind := .sample (l.arg 1 1), letter := l, order := s.body.mg.nextOrder, counts := false, late := false }
    (s.mg fun m => { m with schedule := m.schedule ++ [e], nextOrder := m.nextOrder + 1 }, Res.ok (natLe 4 0))
  else schedule s l beat 8 (.sample (l.arg 1 1))

/-- `power.energy` READ_SAMPLE. -/
def effEnergyRead (s : State) (l : Letter) (_ : Nat) : State × Res :=
  match mget s.body.pw.samples (l.arg 1 1) with
  | none => (s, Res.at_ 0x83 1)
  | some x => (s, Res.ok (natLe 8 x.beat ++ x.vals.flatMap fun v => natLe 8 v))

def execPowerBudget (s : State) := letterRow s (fun l => l.op == 0x0401) effBudget
def execPowerCap (s : State) := letterRow s (fun l => l.op == 0x0402) effCap
def execPowerReasonsCurrent (s : State) := letterRow s (fun l => l.op == 0x0403 && l.arg 0 1 == 1) effReasonsCurrent
def execPowerReasonsHistory (s : State) := letterRow s (fun l => l.op == 0x0403 && l.arg 0 1 == 2) effReasonsHistory
def execPowerEnergyContexts (s : State) := letterRow s (fun l => l.op == 0x0404 && l.arg 0 1 == 1) effEnergyContexts
def execPowerEnergySample (s : State) := letterRow s (fun l => l.op == 0x0404 && l.arg 0 1 == 2) effEnergySample
def execPowerEnergyReadSample (s : State) := letterRow s (fun l => l.op == 0x0404 && l.arg 0 1 == 3) effEnergyRead

/-- A telemetry sample at the edge of its beat (R405): MODULE_MJ, DIE_MJ 0-7, HBM_MJ, IO_MJ, the cap, the hottest die and
stack. -/
def takeSample (s : State) (slot : Nat) (meas : List Nat) : State :=
  let p := s.body.pw
  let vals := p.moduleMj :: p.dieMj ++ [p.hbmMj, p.ioMj, p.cap, meas.getD 0 ((p.temps.take 10).foldl max 0), meas.getD 1 ((p.temps.drop 10).foldl max 0)]
  s.setPw { p with samples := mput p.samples slot { beat := s.alm.beat, vals := vals } }

end Sys2Proof.Machine
end

