-- ==== Sys2Proof/Machine/Device.lean ====
section
/-! DEFINITION. The floor plan, and the letters on the device, its logs, firmware, tests and debug port (12 R355; 13 Tables
7 to 15; 15 Tables 4 to 8; 17 R461-R463). -/

namespace Sys2Proof.Machine

/-! ### Floor plan (17 R461) -/

/-- HBM in service, in bytes (17 R462). -/
def hbmBytes (d : Data) : Nat :=
  65536 * (16368 * ((List.range 512).filter fun n => chanUp d n).length -
    ((planFrames d).filter fun f => decide (f % 16384 < 16368)).length)

def bitsNat (n : Nat) (f : Nat → Bool) : Nat := (List.range n).foldl (fun a i => if f i then a + 2 ^ i else a) 0

/-- Runner lanes in service. -/
def runnerLanes (b : Body) (k : Nat) : Nat :=
  if b.data.dieOut.contains (if k < 8 then 8 else 9) then 0 else 255 - (b.fab.link k).lost.toNat

/-- The report of 17 Table 4. -/
def floorplan (b : Body) : List Byte :=
  let d := b.data
  let fr := planFrames d
  let st (c : Nat) : Nat := match d.coreState c with
    | .full => 2
    | .arrayOff => 1
    | .off => 0
  natLe 2 1 ++ natLe 2 0 ++ natLe 4 b.md.generation ++ natLe 4 (416 + 4 * fr.length) ++ natLe 2 (coreCount d .full) ++
    natLe 2 (coreCount d .arrayOff) ++ natLe 2 (coreCount d .off) ++ natLe 1 (bitsNat 8 fun i => !d.dieOut.contains i) ++
    natLe 1 (bitsNat 2 fun i => !d.dieOut.contains (8 + i)) ++ natLe 2 (gradeFull b.md.grade) ++ natLe 1 b.md.memtest ++ natLe 1 0 ++
    natLe 8 b.md.builtBeat ++ natLe 8 b.md.lastFullAge ++ natLe 4 fr.length ++ List.replicate 20 0 ++
    ((List.range 168).map fun k => BitVec.ofNat 8 (st (4 * k) + 4 * st (4 * k + 1) + 16 * st (4 * k + 2) + 64 * st (4 * k + 3))) ++
    natLe 8 0 ++ ((List.range 8).flatMap fun i => natLe 8 (bitsNat 56 fun n => sliceUp d (56 * i + n))) ++
    natLe 64 (bitsNat 512 fun n => chanUp d n) ++ ((List.range 16).flatMap fun k => natLe 1 (runnerLanes b k)) ++
    ((List.range 8).flatMap fun i => natLe 1 (bitsNat 8 fun n => engUp d (16 * i + n))) ++
    ((List.range 8).flatMap fun i => natLe 1 (bitsNat 8 fun n => engUp d (16 * i + 8 + n))) ++
    natLe 1 (bitsNat 8 fun n => engUp d (128 + n)) ++ natLe 1 (bitsNat 8 fun n => engUp d (136 + n)) ++
    natLe 1 (bitsNat 8 fun n => !b.md.dispOut.contains n && !d.dieOut.contains (8 + n / 4)) ++ List.replicate 13 0 ++
    fr.flatMap fun f => natLe 4 (f % 16384 + f / 16384 * 2 ^ 14 + if d.framePend.contains f then 2 ^ 31 else 0)

/-! ### device.* -/

def boolNat (b : Bool) : Nat := if b then 1 else 0

/-- STATE of `device.identify`. -/
def deviceState (b : Body) : Nat := if b.md.state = 2 ∧ coldStopped b.pw then 3 else b.md.state

def slotVersion (s : Slots) : Nat := if s.running then s.bVersion else s.aVersion

/-- `device.identify`. -/
def effIdentify (s : State) (_l : Letter) (_ : Nat) : State × Res :=
  let b := s.body
  (s, Res.ok (natLe 8 b.md.serial ++ natLe 1 8 ++ natLe 1 8 ++ natLe 1 2 ++ natLe 1 16 ++ natLe 2 (gradeFull b.md.grade) ++
    natLe 2 (b.data.node + if b.fab.block.isSome then 2 ^ 15 else 0) ++ natLe 1 (deviceState b) ++ natLe 1 b.md.step ++
    natLe 1 (holderCode s) ++ natLe 1 (boolNat b.flash.polmen.running + 2 * boolNat b.flash.tordy.running) ++
    natLe 2 (coreCount b.data .full) ++ natLe 2 (coreCount b.data .arrayOff) ++ natLe 4 (slotVersion b.flash.polmen) ++
    natLe 4 (slotVersion b.flash.tordy) ++ natLe 8 b.md.readyBeat ++ natLe 8 (hbmBytes b.data)))

/-- `device.floorplan`: up to 208 bytes of the report from OFFSET. -/
def effFloorplan (s : State) (l : Letter) (_ : Nat) : State × Res :=
  let r := floorplan s.body
  let o := l.arg 0 4
  let p := (r.drop o).take 208
  (s, Res.ok (natLe 4 s.body.md.generation ++ natLe 4 r.length ++ natLe 4 o ++ natLe 2 p.length ++ natLe 2 0 ++ p))

/-- `device.grade`: ORDERING is "7120-", the grade's number, and "-01". -/
def effGrade (s : State) (_l : Letter) (_ : Nat) : State × Res :=
  let g := s.body.md.grade
  let ord := (("7120-0" ++ toString (gradeFull g) ++ "-01").toList.map fun c => BitVec.ofNat 8 c.toNat)
  (s, Res.ok (natLe 2 (gradeFull g) ++ natLe 2 (coreCount s.body.data .full) ++ natLe 1 (boolNat (g == 0)) ++ natLe 3 0 ++
    ord ++ List.replicate (16 - ord.length) 0))

def PmState.code : PmState → Nat
  | .off => 0 | .booting => 1 | .holder => 2 | .syncing => 3 | .standbyReady => 4 | .fault => 5

def sideCode (h : Option Side) : Nat :=
  match h with
  | none => 0
  | some .north => 1
  | some .south => 2

def setPm (m : Mgmt) (x : Side) (st : PmState) : Mgmt :=
  match x with
  | .north => { m with nSt := st }
  | .south => { m with sSt := st }

def pmOf (m : Mgmt) (x : Side) : PmState :=
  match x with
  | .north => m.nSt
  | .south => m.sSt

def otherSide (x : Side) : Side :=
  match x with
  | .north => .south
  | .south => .north

/-- SOURCE of a Postmaster's records: its side, 0 North, 1 South. -/
def sideNo (x : Side) : Nat := sideCode (some x) - 1

def sideSource (x : Side) : Nat := 9 + 256 * sideNo x

/-- The holder drops its standby from mirroring. -/
def standbyLost (s : State) (x : Side) (st : PmState) : State :=
  (s.mg fun m => setPm m x st).post 0x0506 (sideSource x) [(sideNo x, 0)]

/-- The standby is STANDBY_READY. -/
def standbyReady (s : State) : Bool :=
  (s.latch.holder == some .north && s.body.mg.sSt == .standbyReady) || (s.latch.holder == some .south && s.body.mg.nSt == .standbyReady)

def leaseBytes (s : State) : List Byte :=
  let m := s.body.mg
  natLe 1 (sideCode s.latch.holder) ++ natLe 1 (sideCode s.latch.last) ++ natLe 1 m.nSt.code ++ natLe 1 m.sSt.code ++
    natLe 4 s.latch.gen.toNat ++ natLe 4 s.latch.remaining ++ natLe 1 (boolNat s.latch.fault + 2 * boolNat (!standbyReady s)) ++
    natLe 3 0 ++ natLe 4 m.takeovers ++ natLe 4 m.retries ++ natLe 8 m.lastTakeover ++ natLe 4 s.latch.nDropped ++
    natLe 4 s.latch.sDropped ++ natLe 2 m.journal.length ++ natLe 6 0

/-- `device.lease` QUERY. -/
def effLeaseQuery (s : State) (_l : Letter) (_ : Nat) : State × Res := (s, Res.ok (leaseBytes s))

/-- `device.lease` HANDOVER (13 R374): the holder stops journaling; the reply is sent once the standby holds the lease. -/
def effHandover (s : State) (_l : Letter) (_ : Nat) : State × Res :=
  if standbyReady s then (s.mg fun m => { m with handover := 1 }, Res.wait) else (s, Res.no 0x0E)

/-! ### Logs (13 R379, Table 13; 15 Table 11) -/

def recBytes (r : Rec) : List Byte :=
  natLe 2 r.code ++ natLe 1 r.payload.length ++ natLe 1 r.flags ++ natLe 4 r.source ++ natLe 8 r.seq ++ natLe 8 r.beat ++
    natLe 4 r.suppressed ++ natLe 4 0 ++ r.payload

/-- Whole records that fit in `n` bytes. -/
def fitRecs : Nat → List Rec → List Rec
  | _, [] => []
  | n, r :: rs => if (recBytes r).length ≤ n then r :: fitRecs (n - (recBytes r).length) rs else []

/-- `log.read`. -/
def effLogRead (s : State) (l : Letter) (_ : Nat) : State × Res :=
  let src := if l.arg 8 1 = 1 then s.body.log.ring else s.body.log.flash
  let first := l.arg 0 8
  let recs := fitRecs 208 (src.filter fun r => decide (first ≤ r.seq))
  let nxt := match recs.getLast? with
    | some r => r.seq + 1
    | none => first
  (s, Res.ok (natLe 8 nxt ++ natLe 2 recs.length ++ natLe 6 0 ++ recs.flatMap recBytes))

/-- `log.clear`: flash records below UP_TO are erased. -/
def effLogClear (s : State) (l : Letter) (_ : Nat) : State × Res :=
  ({ s with body := { s.body with log := { s.body.log with flash := s.body.log.flash.filter fun r => decide (l.arg 0 8 ≤ r.seq) } } }, Res.ok [])

/-! ### Firmware (13 R380, R381) -/

def upload (m : Mgmt) (comp : Nat) : Option Upload := if comp = 1 then m.upPolmen else if comp = 2 then m.upTordy else m.upPack

def setUpload (s : State) (comp : Nat) (u : Option Upload) : State :=
  s.mg fun m => if comp = 1 then { m with upPolmen := u } else if comp = 2 then { m with upTordy := u } else { m with upPack := u }

/-- BEGIN: refused while another port's update is open. -/
def beginUp (s : State) (l : Letter) (comp : Nat) : State × Res :=
  match upload s.body.mg comp with
  | some u => if u.stamp = l.stamp then (setUpload s comp (some { stamp := l.stamp, total := l.arg 4 4, data := [] }), Res.ok [])
    else (s, Res.at_ 0x0F (if comp = 3 then 0 else 1))
  | none => (setUpload s comp (some { stamp := l.stamp, total := l.arg 4 4, data := [] }), Res.ok [])

/-- DATA: a chunk inside the open update. -/
def dataUp (s : State) (l : Letter) (comp bad : Nat) : State × Res :=
  match upload s.body.mg comp with
  | some u =>
    if l.arg 8 4 + l.arg 12 2 ≤ u.total then
      let bytes := (List.range (l.arg 12 2)).map fun i => BitVec.ofNat 8 (l.arg (16 + i) 1)
      (setUpload s comp (some { u with data := (bytes.zipIdx).foldl (fun (m : SMap Byte) p => mput m (l.arg 8 4 + p.2) p.1) u.data }), Res.ok [])
    else (s, Res.no bad)
  | none => (s, Res.no bad)

def Flash.slots (f : Flash) (comp : Nat) : Slots := if comp = 1 then f.polmen else f.tordy

def setSlots (s : State) (comp : Nat) (x : Slots) : State :=
  let f := s.body.flash
  { s with body := { s.body with flash := if comp = 1 then { f with polmen := x } else { f with tordy := x } } }

/-- The slot that is not active gets validity and version. -/
def Slots.fill (x : Slots) (ok : Bool) (v : Nat) : Slots :=
  if x.active then { x with aValid := ok, aVersion := v } else { x with bValid := ok, bVersion := v }

/-- Validity and version of the inactive slot. -/
def Slots.spare (x : Slots) : Bool × Nat := if x.active then (x.aValid, x.aVersion) else (x.bValid, x.bVersion)

def effFwBegin (s : State) (l : Letter) (_ : Nat) : State × Res := beginUp s l (l.arg 1 1)
def effFwData (s : State) (l : Letter) (_ : Nat) : State × Res := dataUp s l (l.arg 1 1) 0x63
/-- COMMIT: the slot is valid only when every check passes. -/
def effFwCommit (v : ImageVerdict) (s : State) (l : Letter) (_ : Nat) : State × Res :=
  let c := l.arg 1 1
  match upload s.body.mg c with
  | none => (s, Res.no 0x63)
  | some u =>
    let ok := v.signed && decide (u.data.length = u.total)
    let s := setUpload (setSlots s c { (s.body.flash.slots c).fill ok (v.version % 2 ^ 32) with sameJournal := v.sameJournal }) c none
    if ok then (s, Res.ok (natLe 4 v.version)) else (s, Res.no 0x61)
def effFwAbort (s : State) (l : Letter) (_ : Nat) : State × Res := (setUpload s (l.arg 1 1) none, Res.ok [])

/-- FW_ACTIVATED: component, slot, version, mode. -/
def fwActivated (s : State) (c : Nat) (x : Slots) (mode : Nat) : State :=
  s.post 0x050A 0 [(c, 0), (boolNat x.active, 0), (if x.active then x.bVersion else x.aVersion, 0), (mode, 0)]

/-- AT_RESET: the valid inactive slot becomes the active one. -/
def effActivateReset (s : State) (l : Letter) (_ : Nat) : State × Res :=
  let c := l.arg 0 1
  let x := s.body.flash.slots c
  if x.spare.1 then
    let x := { x with active := !x.active }
    (fwActivated (setSlots s c x) c x 2, Res.ok (natLe 1 (boolNat x.active)))
  else (s, Res.no 0x61)

/-- LIVE: Polmen only; the standby restarts into the new image and copies the journal anew, then a handover. `booted` says that it
became STANDBY_READY in time; if not, it restarts from its old slot. -/
def effActivateLive (booted : Bool) (s : State) (l : Letter) (_ : Nat) : State × Res :=
  let c := l.arg 0 1
  let x := s.body.flash.slots c
  if c = 2 || !x.sameJournal then (s, Res.no 0x62)
  else if !standbyReady s then (s, Res.no 0x0E)
  else if !x.spare.1 then (s, Res.no 0x61)
  else
    let y := if s.latch.holder = some .north then .south else .north
    let s := standbyLost s y (if booted then .standbyReady else .syncing)
    if !booted then (s, Res.no 0x61)
    else
    let s := s.post 0x0507 (sideSource y) [(sideNo y, 0), (s.body.mg.nextJid, 0)]
    let x := { x with active := !x.active, running := !x.active }
    ((fwActivated (setSlots s c x) c x 1).mg fun m => { m with handover := 2 }, Res.wait)

/-! ### Debug (12 R355) -/

/-- CHALLENGE: a new nonce, which voids the older one. -/
def effChallenge (s : State) (_l : Letter) (_ : Nat) : State × Res :=
  let d := s.body.data
  let n := (List.range 16).foldl (fun a i => a * 256 + (Config.freeByte (16 * d.free + i)).toNat) 0
  ({ s with body := { s.body with data := { d with free := d.free + 1 }, mgdb := { s.body.mgdb with nonce := some n } } }, Res.ok (natLe 16 n))

/-- PRESENT: a token for this module and nonce, validly signed. -/
def effPresent (valid : Bool) (s : State) (l : Letter) (_ : Nat) : State × Res :=
  let m := s.body.mgdb
  let g := l.arg 32 4
  if 4 ≤ g ∧ s.body.data.plots ≠ [] then (s, Res.no 0x30)
  else if valid && l.arg 8 8 == s.body.md.serial && m.nonce == some (l.arg 16 16) then
    ({ s with body := { s.body with mgdb := { m with nonce := none, grants := g } } }.post 0x0405 0 [(g, 0)], Res.ok [])
  else ({ s with body := { s.body with mgdb := { m with nonce := none } } }, Res.no 0x60)

/-- LOCK. -/
def effDbLock (s : State) (_l : Letter) (_ : Nat) : State × Res :=
  let m := s.body.mgdb
  let s' := { s with body := { s.body with mgdb := { m with grants := 0 }, mg := { s.body.mg with halted := [] } } }
  (if m.grants = 0 then s' else s'.post 0x0405 0 [(0, 0)], Res.ok [])

/-! ### Calendar, suspects, packs (15 R416, R421-R423) -/

/-- The unit exists and is not retired. -/
def unitExists (b : Body) (kind u : Nat) : Bool :=
  match kind with
  | 1 => decide (u % 16 < 8) && decide (u / 16 % 16 < 7) && decide (u / 256 < 12) && b.data.coreState (coreOfUnit u) != .off
  | 2 => decide (u % 256 < 8) && decide (u / 256 < 56) && sliceUp b.data (56 * (u % 16) + u / 256)
  | 3 => decide (u < 16) && !b.data.dieOut.contains (if u < 8 then 8 else 9)
  | _ =>
    let die := u % 16
    let c := u / 16 % 16
    decide (u / 256 < 8) && (if c = 2 then die == 8 || die == 9 else decide (c < 2) && decide (die < 8)) &&
      engUp b.data (if c = 2 then 128 + 8 * (die - 8) + u / 256 else 16 * die + 8 * c + u / 256)

/-- SET: every field of the kind; kept in flash. -/
def effCalSet (s : State) (l : Letter) (_ : Nat) : State × Res :=
  let k := l.arg 1 1
  let c : Calendar := { mgetD s.body.hl.cals k (Calendar.default k) with
    enable := l.arg 2 1 == 1, concurrent := l.arg 3 1, interval := l.arg 8 8, maxDefer := l.arg 16 8, urgentDefer := l.arg 24 8 }
  ({ s with body := { s.body with
      hl := { s.body.hl with cals := mput s.body.hl.cals k c }
      flash := { s.body.flash with cals := mput s.body.flash.cals k c } } }, Res.ok [])

/-- QUERY. -/
def effCalQuery (s : State) (l : Letter) (_ : Nat) : State × Res :=
  let k := l.arg 1 1
  let c := mgetD s.body.hl.cals k (Calendar.default k)
  let due := (s.body.hl.dues.filter fun e => e.1 / 2 ^ 16 == k).foldl (fun (a : Option Nat) e => match a with
    | none => some e.2
    | some x => some (min x e.2)) none
  (s, Res.ok (natLe 1 2 ++ natLe 1 k ++ natLe 1 (boolNat c.enable) ++ natLe 1 c.concurrent ++ natLe 4 0 ++ natLe 8 c.interval ++
    natLe 8 c.maxDefer ++ natLe 8 c.urgentDefer ++ natLe 8 (due.getD 0) ++ natLe 4 c.passes ++ natLe 4 c.fails ++ natLe 4 c.inconclusive))

/-- TEST_NOW: an urgent pass of the unit is due. -/
def effTestNow (s : State) (l : Letter) (_ : Nat) : State × Res :=
  let k := l.arg 1 1
  let u := l.arg 4 4
  if !unitExists s.body k u then (s, Res.no 0xA3)
  else if (mget s.body.hl.passes (unitNo k u)).isSome then (s, Res.no 0xA4)
  else ({ s with body := { s.body with hl := { s.body.hl with
      dues := mput s.body.hl.dues (unitNo k u) s.alm.beat
      urgent := sadd s.body.hl.urgent (unitNo k u) } } }, Res.ok [])

/-- 15 Table 7. -/
def suspectBytes (c : Nat) (x : Suspect) : List Byte :=
  natLe 1 (c / 84) ++ natLe 1 (c % 84 / 12) ++ natLe 1 (c % 12) ++ natLe 1 x.state ++ natLe 1 x.step ++ [x.units] ++ natLe 2 x.fails ++
    natLe 1 (if x.step = 0 then 0 else if x.step = 1 then 10 else 20) ++ natLe 1 (if x.step < 3 then 16 else 18 - x.step) ++
    natLe 2 x.passesSince ++ natLe 8 x.start ++ natLe 8 x.stop ++ natLe 8 x.lastPass ++
    ((List.range 4).flatMap fun i => natLe 2 (x.ctxs.getD i 0xFFFF)) ++ natLe 1 (boolNat x.more) ++ natLe 3 0

/-- Contexts that ran on a core since its last PASS: the four most recent, and whether there were more. -/
def ctxsOf (b : Body) (c : Nat) : List Nat × Bool :=
  let l := mgetD b.data.ctxSeen c []
  (l.take 4, decide (4 < l.length))

/-- The contexts of an interval: while it is open, those seen so far (R421). -/
def Suspect.seen (x : Suspect) (b : Body) (c : Nat) : Suspect :=
  if x.isOpen then { x with ctxs := (ctxsOf b c).1, more := (ctxsOf b c).2 } else x

/-- `health.suspect.list`: up to four entries from FIRST. -/
def effSuspects (s : State) (l : Letter) (_ : Nat) : State × Res :=
  let all := s.body.hl.suspects
  let es := (all.drop (l.arg 0 2)).take 4
  (s, Res.ok (natLe 2 es.length ++ natLe 2 all.length ++ natLe 2 (l.arg 0 2 + es.length) ++ List.replicate 10 0 ++
    es.flatMap fun e => suspectBytes e.1 (e.2.seen s.body e.1)))

def packBytes (h : Health) : List Byte := natLe 4 h.packVersion ++ natLe 4 0 ++ natLe 8 h.packSince ++ natLe 8 h.sweepUntil
def effPackBegin (s : State) (l : Letter) (_ : Nat) : State × Res := beginUp s l 3
def effPackData (s : State) (l : Letter) (_ : Nat) : State × Res := dataUp s l 3 0xA1
def effPackAbort (s : State) (_l : Letter) (_ : Nat) : State × Res := (setUpload s 3 none, Res.ok [])
def effPackQuery (s : State) (_l : Letter) (_ : Nat) : State × Res := (s, Res.ok (packBytes s.body.hl))

/-- Every unit in service of a kind, as unit codes. -/
def unitsOf (b : Body) (kind : Nat) : List Nat :=
  let all := match kind with
    | 1 => (List.range 672).map fun c => unitCode (.core c)
    | 2 => (List.range 448).map fun k => k / 56 + 256 * (k % 56)
    | 3 => List.range 16
    | _ => (List.range 128).map (fun n => n / 16 + 16 * (n / 8 % 2) + 256 * (n % 8)) ++
        (List.range 16).map fun n => 8 + n / 8 + 32 + 256 * (n % 8)
  all.filter fun u => unitExists b kind u

/-- COMMIT: the pack becomes active; its sweep gives every unit of its kinds one urgent pass, spread evenly. -/
def effPackCommit (v : PackVerdict) (s : State) (_l : Letter) (_ : Nat) : State × Res :=
  match s.body.mg.upPack with
  | none => (s, Res.no 0xA1)
  | some u =>
    let s := setUpload s 3 none
    if !v.signed || !(u.data.length == u.total) then (s, Res.no 0xA2)
    else if !v.member then (s, Res.no 0xA5)
    else if v.version ≤ s.body.hl.packVersion then (s, Res.no 0xA0)
    else
      let h := s.body.hl
      let units := v.sweepKinds.flatMap fun k => (unitsOf s.body k).map fun c => unitNo k c
      let n := max 1 units.length
      let sweep := (units.zipIdx).map fun p => (p.1, s.alm.beat + v.sweepBeats * p.2 / n)
      let until_ := if units = [] then 0 else s.alm.beat + v.sweepBeats
      let h := { h with
        packVersion := v.version % 2 ^ 32
        packSince := s.alm.beat
        sweepUntil := until_
        sweep := sweep
        dues := sweep.foldl (fun (m : SMap Nat) p => mput m p.1 p.2) h.dues
        urgent := units.foldl sadd h.urgent }
      ({ s with body := { s.body with hl := h, flash := { s.body.flash with pack := h.packVersion } } }.post 0x0708 0 [(h.packVersion, 0), (until_, 0)], Res.ok (packBytes h))

def execDeviceIdentify (s : State) := letterRow s (fun l => l.op == 0x0101) effIdentify
def execDeviceFloorplan (s : State) := letterRow s (fun l => l.op == 0x0102) effFloorplan
def execDeviceGrade (s : State) := letterRow s (fun l => l.op == 0x0103) effGrade
def execDeviceLeaseQuery (s : State) := letterRow s (fun l => l.op == 0x0104 && l.arg 0 1 == 1) effLeaseQuery
def execDeviceLeaseHandover (s : State) := letterRow s (fun l => l.op == 0x0104 && l.arg 0 1 == 2) effHandover
def execHealthCalendarSet (s : State) := letterRow s (fun l => l.op == 0x0501 && l.arg 0 1 == 1) effCalSet
def execHealthCalendarQuery (s : State) := letterRow s (fun l => l.op == 0x0501 && l.arg 0 1 == 2) effCalQuery
def execHealthCalendarTestNow (s : State) := letterRow s (fun l => l.op == 0x0501 && l.arg 0 1 == 3) effTestNow
def execTestpackBegin (s : State) := letterRow s (fun l => l.op == 0x0502 && l.arg 0 1 == 1) effPackBegin
def execTestpackData (s : State) := letterRow s (fun l => l.op == 0x0502 && l.arg 0 1 == 2) effPackData
def execTestpackCommit (verdict : PackVerdict) (s : State) := letterRow s (fun l => l.op == 0x0502 && l.arg 0 1 == 3) (effPackCommit verdict)
def execTestpackAbort (s : State) := letterRow s (fun l => l.op == 0x0502 && l.arg 0 1 == 4) effPackAbort
def execTestpackQuery (s : State) := letterRow s (fun l => l.op == 0x0502 && l.arg 0 1 == 5) effPackQuery
def execHealthSuspectList (s : State) := letterRow s (fun l => l.op == 0x0503) effSuspects
def execLogRead (s : State) := letterRow s (fun l => l.op == 0x0601) effLogRead
def execLogClear (s : State) := letterRow s (fun l => l.op == 0x0602) effLogClear
def execFwUpdateBegin (s : State) := letterRow s (fun l => l.op == 0x0701 && l.arg 0 1 == 1) effFwBegin
def execFwUpdateData (s : State) := letterRow s (fun l => l.op == 0x0701 && l.arg 0 1 == 2) effFwData
def execFwUpdateCommit (verdict : ImageVerdict) (s : State) := letterRow s (fun l => l.op == 0x0701 && l.arg 0 1 == 3) (effFwCommit verdict)
def execFwUpdateAbort (s : State) := letterRow s (fun l => l.op == 0x0701 && l.arg 0 1 == 4) effFwAbort
def execFwActivateLive (booted : Bool) (s : State) := letterRow s (fun l => l.op == 0x0702 && l.arg 1 1 == 1) (effActivateLive booted)
def execFwActivateAtReset (s : State) := letterRow s (fun l => l.op == 0x0702 && l.arg 1 1 == 2) effActivateReset
def execDebugChallenge (s : State) := letterRow s (fun l => l.op == 0x0E01 && l.arg 0 1 == 1) effChallenge
def execDebugPresent (signatureValid : Bool) (s : State) := letterRow s (fun l => l.op == 0x0E01 && l.arg 0 1 == 2) (effPresent signatureValid)
def execDebugLock (s : State) := letterRow s (fun l => l.op == 0x0E01 && l.arg 0 1 == 3) effDbLock

end Sys2Proof.Machine
end

