-- ==== Sys2Proof/Machine/Suspects.lean ====
section
/-! DEFINITION. Suspect cores and urgent passes (15 R416-R421). -/

namespace Sys2Proof.Machine

/-- The UNIT code of a core (15 Table 3). -/
def coreUnit (c : Nat) : Nat := unitCode (.core c)

/-- An urgent pass of a unit is due (R416). -/
def Health.urge (h : Health) (key beat : Nat) : Health := { h with dues := mput h.dues key beat, urgent := sadd h.urgent key }

/-- Start of a suspect interval: the end of the core's last PASS, or READY_BEAT (R421). -/
def suspectStart (b : Body) (c : Nat) : Nat := (mget b.hl.lastPass c).getD b.md.readyBeat

/-- A suspect entry of a core that has none yet. -/
def Suspect.fresh : Suspect :=
  { state := 1, step := 0, units := 0, fails := 0, passesSince := 0, start := 0, stop := 0, lastPass := 0, ctxs := [], more := false,
    arrOnly := true, isOpen := false }

/-- SUSPECT: core, STATE, STEP, START, END, FAILED_UNITS. -/
def postSuspect (b : Body) (c : Nat) (x : Suspect) (stop : Nat) : Body :=
  let d := b.data.post 0x0703 (1 + 256 * coreUnit c)
    [(coreUnit c, 0), (x.state, 0), (x.step, 0), (x.start, 0), (stop, 0), (x.units.toNat, 0)]
  { b with data := d }

/-- R419: a TALLY_MISMATCH marks the core suspect at its current step, and an urgent pass is due. -/
def markSuspect (b : Body) (beat c : Nat) : Body :=
  let x := mgetD b.hl.suspects c Suspect.fresh
  let cs := ctxsOf b c
  let x := { x with
    state := if x.state = 2 then 1 else x.state
    start := suspectStart b c
    stop := 0
    lastPass := (mget b.hl.lastPass c).getD 0
    ctxs := cs.1
    more := cs.2
    isOpen := true }
  let hl := ({ b.hl with suspects := mput b.hl.suspects c x }).urge (unitKey (.core c)) beat
  postSuspect { b with hl := hl } c x beat

/-- R419: a POSTMARK_MISMATCH of an engine and a channel; two of one engine within 86,400,000,000 beats make an urgent
pass of the engine due. -/
def countPostmark (b : Body) (beat : Nat) (e : EngineId) (chan : Nat) : Body :=
  let k := unitKey (.engine e)
  let near := match mget b.hl.engMis k with
    | some t => decide (beat ≤ t + 86400000000)
    | none => false
  let hl := { b.hl with engMis := mput b.hl.engMis k beat, chanMis := mput b.hl.chanMis chan (mgetD b.hl.chanMis chan 0 + 1) }
  { b with hl := if near then hl.urge k beat else hl }

end Sys2Proof.Machine
end

