-- ==== Sys2Proof/Machine/Array.lean ====
section
/-! DEFINITION. The matrix array: panels, accumulation, drains, the tally lane and the activity ramp (05). -/

namespace Sys2Proof.Machine

/-! ### Panels (R141, R142) -/

/-- The code of element `e` of K position `k` of a panel at bench offset `base`; `rd` reads the bench region. -/
def elemCode (rd : Nat → Byte) (f base k e : Nat) : Nat :=
  let a := base + k * panelW f
  let by_ (o n : Nat) : Nat := leNat ((List.range n).map fun i => rd (a + o + i))
  match panelW f with
  | 256 => by_ (4 * e) 4
  | 128 => by_ (2 * e) 2
  | 48 => by_ (3 * (e / 4)) 3 / 2 ^ (6 * (e % 4)) % 64
  | 32 => by_ (e / 2) 1 / 2 ^ (4 * (e % 2)) % 16
  | _ => by_ e 1

/-- The element's value without its block scale. -/
def elemVal (f c : Nat) : FVal := decodeCode f (BitVec.ofNat 32 c)

/-- The E8M0 code of an element's block, 127 for a format without block scales. -/
def scaleCode (rd : Nat → Byte) (f : Nat) (blk16 : Bool) (sc k e : Nat) : Nat :=
  if scaleLen f blk16 = 0 then 127 else (rd (sc * 32 + 64 * (k / scaleLen f blk16) + e)).toNat

/-! ### Accumulation of one cell (R147, R152-R156) -/

/-- What one cell does in an `mma`: its C afterwards, the K position of a created NaN, that of a saturation, and the
tally's bound Z of its folds. -/
structure CellOut where
  c : W32
  nanK : Option Nat
  satK : Option Nat
  z : Dy

/-- Add an addend into C with one rounding; `cr` says that the addend is a NaN that the product created. -/
def CellOut.fold (o : CellOut) (k : Nat) (x : FVal) (cr : Bool) : CellOut :=
  let c := decodeF fp32 o.c.toNat
  let r := fAdd c x
  { o with
    c := BitVec.ofNat 32 (encodeF fp32 .rne r.1)
    nanK := if o.nanK.isNone && c != .nan && (cr || r.2) then some k else o.nanK }

/-- The smallest FP32 unit: the bound of a fold that truncates nothing (R161). -/
def zUnit : Dy := ⟨1, -149⟩

/-- R147: the two BF16 halves of an FP32 element. -/
def split32 (c : Nat) : FVal × FVal :=
  match decodeF fp32 c with
  | .fin x =>
    let hi := c / 65536 * 65536
    match decodeF fp32 hi with
    | .fin h => (.fin h, decodeF bf16 (encodeDy bf16 .rne (dyAdd x (dyNeg h))))
    | v => (v, .fin dyZero)
  | v => (v, .fin dyZero)

/-- The exact sum of products, and whether it creates a NaN. -/
def sumProducts (l : List (FVal × FVal)) : FVal × Bool :=
  if l.any fun p => p.1 == .nan || p.2 == .nan then (.nan, false)
  else l.foldl (fun a p =>
    let m := fMul p.1 p.2
    let s := fAdd a.1 m.1
    (s.1, a.2 || m.2 || s.2)) (.fin dyZero, false)

/-- One K step of a pair of formats 1 to 3. -/
def stepFloat (f k : Nat) (ca cb : Nat) (o : CellOut) : CellOut :=
  let ps := if f = 1 then
      let a := split32 ca
      let b := split32 cb
      [(a.2, b.1), (a.1, b.2), (a.1, b.1)]
    else [(elemVal f ca, elemVal f cb)]
  let s := sumProducts ps
  let o := o.fold k s.1 s.2
  { o with z := dyAdd o.z zUnit }

/-- One K step of INT8 by INT8, with saturation (R156). -/
def stepInt (k : Nat) (ca cb : Nat) (o : CellOut) : CellOut :=
  let p := sext 8 ca * sext 8 cb
  let s := o.c.toInt + p
  let ov := s < -2147483648 ∨ 2147483647 < s
  { o with
    c := BitVec.ofInt 32 (clampI (-2147483648) 2147483647 s)
    satK := if o.satK.isNone ∧ ov then some k else o.satK }

/-- Floor of a dyadic number in units of 2^lsb, and whether bits were dropped. -/
def floorAt (lsb : Int) (x : Dy) : Int × Bool :=
  if lsb ≤ x.e then (x.m * 2 ^ (x.e - lsb).toNat, false)
  else (x.m / 2 ^ (lsb - x.e).toNat, decide (x.m % 2 ^ (lsb - x.e).toNat ≠ 0))

/-- A block's special value (R155), and whether it is a created NaN. -/
def blockMark (scaleNan : Bool) (l : List (FVal × FVal)) : Option (FVal × Bool) :=
  let inf (neg : Bool) : Bool := l.any fun p => (fMul p.1 p.2).1 == .inf neg
  if scaleNan || l.any fun p => p.1 == .nan || p.2 == .nan then some (.nan, false)
  else if l.any fun p => (fMul p.1 p.2).2 then some (.nan, true)
  else if inf false && inf true then some (.nan, true)
  else if inf false then some (.inf false, false)
  else if inf true then some (.inf true, false)
  else none

def finProduct (p : FVal × FVal) : Dy :=
  match p.1, p.2 with
  | .fin x, .fin y => dyMul x y
  | _, _ => dyZero

/-- One block of formats 4 to 13 from K position `k`; `lsb` is the window's lowest weight where it truncates (R154). -/
def stepBlock (k : Nat) (lsb : Option Int) (sA sB : Nat) (l : List (FVal × FVal)) (o : CellOut) : CellOut :=
  let sh : Int := (sA : Int) + sB - 254
  let exact := dySum (l.map finProduct)
  match blockMark (sA == 255 || sB == 255) l with
  | some (x, cr) => { o.fold k x cr with z := dyAdd o.z zUnit }
  | none =>
    match lsb with
    | none => { o.fold k (.fin ⟨exact.m, exact.e + sh⟩) false with z := dyAdd o.z zUnit }
    | some w =>
      let q := (l.map fun p => (floorAt w (finProduct p)).1).sum
      let s := l.any fun p => (floorAt w (finProduct p)).2
      { o.fold k (.fin ⟨2 * q + (if s then 1 else 0), w - 1 + sh⟩) false with
        z := dyAdd o.z (if s then ⟨1, w + sh + 6⟩ else zUnit) }

/-- Block length along K (R153). -/
def blockLen (fa fb : Nat) (blk16 : Bool) : Nat := if fa = 13 ∨ fb = 13 ∨ blk16 then 16 else 32

/-- R154: the window's lowest weight of the E5M2 by E5M2 pair. -/
def truncLsb (fa fb len : Nat) : Option Int :=
  if (fa = 5 ∨ fa = 7) ∧ (fb = 5 ∨ fb = 7) then some (if len = 32 then -26 else -27) else none

/-- All of an `mma` for cell (i, j) that holds `c`. -/
def cellMma (rd : Nat → Byte) (o : ArrOp) (i j : Nat) (c : W32) : CellOut :=
  let K := dw o.desc 2
  let fa := o.aFmt
  let fb := o.bFmt
  let ca k := elemCode rd fa (dw o.desc 0) k i
  let cb k := elemCode rd fb (dw o.desc 1) k j
  let o0 : CellOut := { c := c, nanK := none, satK := none, z := dyZero }
  if fa = 12 ∧ fb = 12 then (List.range K).foldl (fun x k => stepInt k (ca k) (cb k) x) o0
  else if fa ≤ 3 then (List.range K).foldl (fun x k => stepFloat fa k (ca k) (cb k) x) o0
  else
    let len := blockLen fa fb o.blk16
    (List.range ((K + len - 1) / len)).foldl (fun x n =>
      let k := n * len
      let ks := (List.range (min len (K - k))).map fun q => k + q
      stepBlock k (truncLsb fa fb len) (scaleCode rd fa o.blk16 (dw o.desc 3 % 16384) k i)
        (scaleCode rd fb o.blk16 (dw o.desc 3 / 16384) k j) (ks.map fun q => (elemVal fa (ca q), elemVal fb (cb q))) x) o0

/-- Roundings of an `mma` into each C element. -/
def roundings (o : ArrOp) : Nat :=
  if o.aFmt = 12 ∧ o.bFmt = 12 then 0
  else if o.aFmt ≤ 3 then dw o.desc 2
  else (dw o.desc 2 + blockLen o.aFmt o.bFmt o.blk16 - 1) / blockLen o.aFmt o.bFmt o.blk16

/-! ### Accumulator sets (R148, R151, R159) -/

def AccSet.empty : AccSet := { int := false, c := [], sat := false, tSum := [], vSum := [], zSum := [], nRound := 0, pair := 0 }

def Core.set (k : Core) (n : Nat) : AccSet := mgetD k.acc n AccSet.empty

def Core.setAcc (k : Core) (n : Nat) (a : AccSet) : Core := { k with acc := mput k.acc n a }

def accVal (int : Bool) (w : W32) : FVal := if int then .fin ⟨w.toInt, 0⟩ else decodeF fp32 w.toNat

def addDy (m : SMap Dy) (k : Nat) (x : Dy) : SMap Dy := if x.m = 0 then m else mput m k (dyAdd (mgetD m k dyZero) x)

/-- The binary format of the tally cells (R158): a 40-bit significand, an exponent range 16 times that of FP32. -/
def tallyFmt : FFmt := ⟨52, 39, 2047, 4095 * 2 ^ 39 - 1, some (4095 * 2 ^ 39), some (4095 * 2 ^ 39 + 2 ^ 38)⟩

/-- The value of a tally cell: in that format, or of an integer set a 48-bit integer. -/
def tallyVal (int : Bool) (c : BitVec 52) : FVal := if int then .fin ⟨sext 48 c.toNat, 0⟩ else decodeF tallyFmt c.toNat

/-- The pattern a tally cell takes for a value. -/
def tallyCode (int : Bool) (v : FVal) : BitVec 52 :=
  match int, v with
  | true, .fin x => BitVec.ofInt 52 ((if 0 ≤ x.e then x.m * 2 ^ x.e.toNat else x.m / 2 ^ (-x.e).toNat) % 2 ^ 48)
  | _, v => BitVec.ofNat 52 (encodeF tallyFmt .rne v)

/-- Add a term to one of the tally's sums. -/
def tallyAdd (int : Bool) (m : SMap (BitVec 52)) (k : Nat) (x : FVal) : SMap (BitVec 52) :=
  cput 0 m k (tallyCode int (fAdd (tallyVal int (mgetD m k 0)) x).1)

/-- The exact sum of values. -/
def fSum (l : List FVal) : FVal := l.foldl (fun a x => (fAdd a x).1) (.fin dyZero)

/-- Add an element's value to the sums of its row and column, and to the 65th terms. -/
def addLine (m : SMap FVal) (i j : Nat) (x : FVal) : SMap FVal :=
  [i, 64 + j, 128, 129].foldl (fun m k => mput m k (fAdd (mgetD m k (.fin dyZero)) x).1) m

/-- The sums of C over its rows and columns, or those of its absolute values (R159). -/
def sumsOf (a : AccSet) (abs : Bool) : SMap (BitVec 52) :=
  let m := a.c.foldl (fun m e => addLine m (e.1 / 64) (e.1 % 64) (if abs then fAbs (accVal a.int e.2) else accVal a.int e.2)) []
  m.foldl (fun m e => cput 0 m e.1 (tallyCode a.int e.2)) []

/-- The tally state taken anew from C. -/
def AccSet.reinit (a : AccSet) : AccSet := { a with tSum := sumsOf a false, vSum := sumsOf a true, zSum := [], nRound := 0, pair := 0 }

/-- Cleared to +0, ACC_SAT and the tally state with it; TAG stays. -/
def AccSet.clear (a : AccSet) : AccSet := { AccSet.empty with int := a.int }

/-! ### The end of an `mma` (R138) -/

/-- Bits of a 64-bit mask held in two descriptor words. -/
def maskBits (lo hi : Nat) : List Nat := (List.range 64).filter fun i => (lo + 2 ^ 32 * hi) / 2 ^ i % 2 == 1

/-- What an `mma` leaves: the set, the cells that created a NaN with their K position, and those that saturated. -/
structure MmaOut where
  acc : AccSet
  nans : List (Nat × Nat × Nat)
  sats : List (Nat × Nat × Nat)

/-- R158: the factors of an element in the products of a K step: the element with its block scale, of FP32 the halves of
R147 in the order of the three products. -/
def tallyParts (f code scale : Nat) (isA : Bool) : List FVal :=
  if f = 1 then
    let s := split32 code
    if isA then [s.2, s.1, s.1] else [s.1, s.2, s.1]
  else if scale = 255 then [.nan]
  else [match elemVal f code with
    | .fin x => .fin ⟨x.m, x.e + scale - 127⟩
    | v => v]

/-- Part by part, the sum over some elements. -/
def sumParts (n : Nat) (l : List (Nat × List FVal)) : List FVal :=
  (List.range n).map fun p => fSum (l.map fun e => e.2.getD p (.fin dyZero))

/-- The sum of the products of parts. -/
def dotParts (a b : List FVal) : FVal := fSum ((a.zip b).map fun e => (fMul e.1 e.2).1)

/-- R158: one K step's terms: for each row its element by the sum of B, for each column its element by the sum of A. -/
def tallyTerms (int : Bool) (n : Nat) (as bs : List (Nat × List FVal)) (m : SMap (BitVec 52)) : SMap (BitVec 52) :=
  let sA := sumParts n as
  let sB := sumParts n bs
  let m := as.foldl (fun m e => tallyAdd int m e.1 (dotParts e.2 sB)) m
  let m := bs.foldl (fun m e => tallyAdd int m (64 + e.1) (dotParts sA e.2)) m
  [128, 129].foldl (fun m k => tallyAdd int m k (dotParts sA sB)) m

/-- R158: the tally's sums, and their bounds in absolute values, over an `mma`. -/
def mmaTally (rd : Nat → Byte) (o : ArrOp) (rows cols : List Nat) (a : AccSet) : AccSet :=
  let n := if o.aFmt = 1 then 3 else 1
  (List.range (dw o.desc 2)).foldl (fun a k =>
    let as := rows.map fun i => (i, tallyParts o.aFmt (elemCode rd o.aFmt (dw o.desc 0) k i)
      (scaleCode rd o.aFmt o.blk16 (dw o.desc 3 % 16384) k i) true)
    let bs := cols.map fun j => (j, tallyParts o.bFmt (elemCode rd o.bFmt (dw o.desc 1) k j)
      (scaleCode rd o.bFmt o.blk16 (dw o.desc 3 / 16384) k j) false)
    let abs (l : List (Nat × List FVal)) := l.map fun e => (e.1, e.2.map fAbs)
    { a with tSum := tallyTerms a.int n as bs a.tSum, vSum := tallyTerms a.int n (abs as) (abs bs) a.vSum }) a

/-- One cell of the set. -/
def mmaCell (rd : Nat → Byte) (o : ArrOp) (tally : Bool) (m : MmaOut) (i j : Nat) : MmaOut :=
  let r := cellMma rd o i j (mgetD m.acc.c (64 * i + j) 0)
  let a := { m.acc with c := cput 0 m.acc.c (64 * i + j) r.c }
  let a := if tally then
      { a with zSum := addDy (addDy a.zSum i r.z) (64 + j) r.z }
    else a
  { acc := a
    nans := match r.nanK with
      | some k => m.nans ++ [(k, i, j)]
      | none => m.nans
    sats := match r.satK with
      | some k => m.sats ++ [(k, i, j)]
      | none => m.sats }

/-- The set as the instruction finds it: ZERO first, then the TAG of the pair, which if it changes begins the tally anew. A
lane that is disabled keeps no state (R163). -/
def mmaBegin (o : ArrOp) (tally : Bool) (a : AccSet) : AccSet :=
  let int := decide (o.aFmt = 12) && decide (o.bFmt = 12)
  let a := if o.zero then a.clear else a
  if a.int = int then a else if tally then ({ a with int := int }).reinit else { a with int := int }

def mmaRun (rd : Nat → Byte) (o : ArrOp) (tally : Bool) (a : AccSet) : MmaOut :=
  let rows := maskBits (dw o.desc 4) (dw o.desc 5)
  let cols := maskBits (dw o.desc 6) (dw o.desc 7)
  let a := mmaBegin o tally a
  let a := if tally then { mmaTally rd o rows cols a with
      pair := 16 * o.aFmt + o.bFmt
      nRound := if rows ≠ [] ∧ cols ≠ [] then a.nRound + roundings o else a.nRound }
    else a
  rows.foldl (fun m i => cols.foldl (fun m j => mmaCell rd o tally m i j) m) { acc := a, nans := [], sats := [] }

/-- Reads of the bench region of a thread block. -/
def Data.benchRd (d : Data) (c : Nat) (bench : List Nat) (x : Nat) : Byte :=
  match bench[x / 1024]? with
  | some g => d.rdB (c * 2 ^ 19 + g * 1024 + x % 1024)
  | none => 0

/-- A write to it. -/
def Data.benchWr (d : Data) (c : Nat) (bench : List Nat) (x : Nat) (l : List Byte) : Data :=
  (l.zipIdx).foldl (fun (d : Data) e => match bench[(x + e.2) / 1024]? with
    | some g => d.wrB (c * 2 ^ 19 + g * 1024 + (x + e.2) % 1024) e.1
    | none => d) d

/-- The group and thread block of a queued matrix instruction. -/
def Data.arrOwner (d : Data) (c : Nat) (o : ArrOp) : Option (Group × Block) :=
  (d.group c o.slot).bind fun g => if g.age = o.age then (mget (d.core c).blocks g.block).map fun b => (g, b) else none

/-- Take a completed instruction off the queue; the array falls from ACTIVE to HOLD when no `mma` is left. -/
def Core.dequeue (k : Core) (pos : Nat) : Core :=
  let q := k.arrQ.eraseIdx pos
  { k with arrQ := q, arrSt := if k.arrSt = .active ∧ (q.all fun o => o.kind != .mma) then .hold else k.arrSt }

/-- The report of a NaN that a matrix instruction created (06 R193, R194). -/
def arrNan (d : Data) (c : Nat) (beat : Nat) (o : ArrOp) (g : Group) (b : Block) (i : NanInfo) : Data :=
  let first := d.nanFirst o.launch
  let detail (n : Bool) := nanDetail i.kpos i.e0 i.e1 i.set n first i.multi i.unit i.cause
  if o.trapNan then
    (d.countNan o.launch none).setGroup c o.slot (g.trapLate (lateOf .nanTrap beat o.iseq 4 o.pc o.opcode 0 (detail false)))
  else d.countNan o.launch (some (recOf c o.slot g b beat .nanTrap 4 o.pc o.pc 0 0 o.opcode .continue (detail true) true []))

/-- The report of a set that saturated (05 R157). -/
def arrSat (d : Data) (c : Nat) (beat : Nat) (o : ArrOp) (g : Group) (b : Block) (k i j : Nat) : Data :=
  if o.trapSat then
    (d.countSat o.launch none).setGroup c o.slot
      (g.trapLate (lateOf .satTrap beat o.iseq 4 o.pc o.opcode 0 (satDetail k i j o.set false)))
  else d.countSat o.launch (some (recOf c o.slot g b beat .satTrap 4 o.pc o.pc 0 0 o.opcode .continue (satDetail k i j o.set true) true []))

/-- The first of some cells in row-major order. -/
def firstCell (l : List (Nat × Nat × Nat)) : Option (Nat × Nat × Nat) := l.head?

/-- The earliest saturating step, and the lowest cell that saturated in it. -/
def firstSat (l : List (Nat × Nat × Nat)) : Option (Nat × Nat × Nat) :=
  l.foldl (fun (b : Option (Nat × Nat × Nat)) x => match b with
    | none => some x
    | some y => if x.1 < y.1 then some x else b) none

/-- Faults of the cells: bits of C turned ov, which nothing but a check can see. -/
def upset (a : AccSet) (l : List (Nat × W32)) : AccSet :=
  { a with c := l.foldl (fun (m : SMap W32) e => if e.1 < 4096 then cput 0 m e.1 (mgetD m e.1 0 ^^^ e.2) else m) a.c }

/-- The tally lane is enabled for a plot (R163). -/
def Data.tallyOn (d : Data) (plot : Nat) : Bool := ((mget d.plots plot).map fun p => !p.tallyOff).getD true

/-- Position of the started instruction that `p` accepts. -/
def startedAt (k : Core) (p : ArrOp → Bool) : Option (Nat × ArrOp) :=
  ((k.arrQ.zipIdx).find? fun e => e.1.started && p e.1).map fun e => (e.2, e.1)

/-- The last accumulation of an `mma`. -/
def mmaDone (d : Data) (beat core : Nat) (upsets : List (Nat × W32)) : Data :=
  let k := d.core core
  match startedAt k fun o => o.kind == .mma with
  | none => d
  | some (pos, o) =>
    match d.arrOwner core o with
    | none => d.setCore core (k.dequeue pos)
    | some (_, b) =>
      let r := mmaRun (d.benchRd core b.bench) o (d.tallyOn b.plot) (k.set o.set)
      let clean := !(mmaBegin o (d.tallyOn b.plot) (k.set o.set)).sat
      let acc := upset { r.acc with sat := r.acc.sat || !r.sats.isEmpty } upsets
      let d := d.setCore core ((k.dequeue pos).setAcc o.set acc)
      let d := match firstCell r.nans, d.arrOwner core o with
        | some (kp, i, j), some (g, b) => arrNan d core beat o g b
            { mask := 0, multi := decide (1 < r.nans.length), unit := 3, cause := 1, kpos := kp, e0 := i, e1 := j, set := o.set }
        | _, _ => d
      match firstSat r.sats, d.arrOwner core o with
      | some (kp, i, j), some (g, b) => if clean then arrSat d core beat o g b kp i j else d
      | _, _ => d

/-- ARRAY_MMA_COMPLETE. -/
def execArrayMmaComplete (core : Nat) (upsets : List (Nat × BitVec 32)) (s : State) : Host.Outcome State Fault Refusal :=
  s.runD fun beat d => if inPass (d.core core) then d else mmaDone d beat core upsets

/-! ### The tally check (R160-R162) -/

/-- Rows or columns of a check: mismatches, skipped, and the largest ratio as dyadic number (none: infinite). -/
structure TallyOut where
  rows : Nat
  cols : Nat
  skipped : Nat
  worst : Option Dy
  bad : Bool

/-- Elements of row `r` (r < 64) or column `r - 64`. -/
def lineElems (a : AccSet) (r : Nat) : List FVal :=
  (List.range 64).map fun x => accVal a.int (mgetD a.c (if r < 64 then 64 * r + x else 64 * x + (r - 64)) 0)

/-- The threshold of a floating set; none where V is no finite number: nothing lies beyond it. -/
def tau (a : AccSet) (r : Nat) : Option Dy :=
  match tallyVal false (mgetD a.vSum r 0) with
  | .fin v => some (dyAdd ⟨v.m * (a.nRound + 2), v.e - 22⟩ ⟨(mgetD a.zSum r dyZero).m * 64, (mgetD a.zSum r dyZero).e⟩)
  | _ => none

/-- A finite value's number. -/
def finOf (v : FVal) : Option Dy :=
  match v with
  | .fin x => some x
  | _ => none

/-- Check one row or column (R160, R161): not one in which an element of C or the tally value is infinite or NaN. -/
def tallyLine (a : AccSet) (t : TallyOut) (r : Nat) : TallyOut :=
  let es := lineElems a r
  match if a.int && a.sat then none else finOf (tallyVal a.int (mgetD a.tSum r 0)), es.mapM finOf with
  | some T, some xs =>
    let diff := dyAbs (dyAdd T (dyNeg (dySum xs)))
    let unbounded := !a.int && (tau a r).isNone
    let bound := if a.int then dyZero else (tau a r).getD dyZero
    let bad := !unbounded && dyLt bound diff
    { rows := if bad ∧ r < 64 then t.rows + 2 ^ r else t.rows
      cols := if bad ∧ 64 ≤ r then t.cols + 2 ^ (r - 64) else t.cols
      skipped := t.skipped
      worst := if a.int then none else if unbounded then t.worst else if bound.m = 0 then (if diff.m = 0 then t.worst else none)
        else match t.worst with
          | none => none
          | some w => if dyLt w (quotDy diff bound) then some (quotDy diff bound) else some w
      bad := t.bad || bad }
  | _, _ => { t with skipped := t.skipped + 1 }

def tallyCheck (a : AccSet) : TallyOut :=
  (List.range 128).foldl (fun t r => tallyLine a t r) { rows := 0, cols := 0, skipped := 0, worst := some dyZero, bad := false }

/-- FP32 of the largest ratio, +infinity for an integer set. -/
def worstCode (t : TallyOut) : Nat :=
  match t.worst with
  | some w => encodeDy fp32 .rne w
  | none => 0x7F800000

/-- TALLY_MISMATCH (Table 7). -/
def postTally (d : Data) (core set check pair ctx pc out nRound : Nat) (t : TallyOut) : Data :=
  d.post 0x0701 (1 + 256 * coreUnit core)
    [(core / 84, 1), (core % 84 / 12, 1), (core % 12, 1), (set, 1), (check, 1), (pair, 1), (ctx, 2), (pc, 8), (t.rows, 8), (t.cols, 8),
     (t.skipped, 2), (0, 2), (worstCode t, 4), (nRound, 4), (out, 4)]

/-! ### Drains and loads (R150, R151) -/

/-- The written value of element (i, j) in OUT_FMT, and the cause of a created NaN. -/
def drainElem (a : AccSet) (l : List W32) (i j : Nat) : Nat × Nat :=
  let w := mgetD a.c (64 * i + j) 0
  let fmt := dw l 1 % 16
  if a.int ∧ fmt = 14 then (w.toNat, 0)
  else
    let c := accVal a.int w
    let m := fMul c (decodeF fp32 (dw l 2))
    let v := encodeF fp32 .rne m.1
    if fmt = 1 then (v, if m.2 then 1 else 0)
    else
      let md : RMode := if dw l 1 / 16 % 4 = 2 then
          .sr (srBits (BitVec.ofNat 32 (dw l 3)) (BitVec.ofNat 32 (dw l 4)) (BitVec.ofNat 32 (64 * i + j)))
        else .rne
      let r := encodeCode fmt md (decodeF fp32 v)
      (r.1, if m.2 then 1 else r.2)

/-- The elements a drain or load covers. -/
def drainCells (l : List W32) : List (Nat × Nat) :=
  (List.range (dw l 6 % 128)).flatMap fun i => (List.range (dw l 6 / 256 % 128)).map fun j => (i, j)

def drainAddr (l : List W32) (i j w : Nat) : Nat := dw l 0 + i * (dw l 5 % 2 ^ 19) + j * w

/-- Rows `lo` to `hi - 1` of a drain are written. -/
def drainRowsSt (d : Data) (core : Nat) (bench : List Nat) (a : AccSet) (l : List W32) (lo hi : Nat) : Data :=
  ((drainCells l).filter fun e => decide (lo ≤ e.1) && decide (e.1 < hi)).foldl (fun (d : Data) e =>
    d.benchWr core bench (drainAddr l e.1 e.2 (outW (dw l 1 % 16))) (natLe (outW (dw l 1 % 16)) (drainElem a l e.1 e.2).1)) d

/-- `acc.st`: the set is checked, the rows that are left are drained, and the set is cleared if CLEAR says so. -/
def drainSt (b : Body) (beat core pos : Nat) (o : ArrOp) (g : Group) (k : Core) (blk : Block) : Body :=
  let a := k.set o.set
  let l := o.desc
  let d := drainRowsSt b.data core blk.bench a l o.drained 64
  let nans := (drainCells l).filter fun e => (drainElem a l e.1 e.2).2 != 0
  let on := d.tallyOn blk.plot
  let t := tallyCheck a
  let a' := if on then a.reinit else a
  let a' := if dw l 1 / 64 % 2 = 1 then a'.clear else a'
  let d := d.setCore core ((k.dequeue pos).setAcc o.set a')
  let d := match nans.head? with
    | some (i, j) => arrNan d core beat o g blk
        { mask := 0, multi := decide (1 < nans.length), unit := 4, cause := (drainElem a l i j).2, kpos := 0, e0 := i, e1 := j, set := o.set }
    | none => d
  if on && t.bad then
    markSuspect { b with data := postTally d core o.set 1 a.pair o.ctx o.pc.toNat (dw l 0) a.nRound t } beat core
  else { b with data := d }

/-- `acc.ld`. -/
def drainLd (d : Data) (core pos : Nat) (o : ArrOp) (k : Core) (blk : Block) : Data :=
  let l := o.desc
  let c := (drainCells l).foldl (fun (m : SMap W32) e =>
    cput 0 m (64 * e.1 + e.2) (BitVec.ofNat 32 (leNat ((List.range 4).map fun i => d.benchRd core blk.bench (drainAddr l e.1 e.2 4 + i))))) []
  let a : AccSet := { AccSet.empty with c := c }
  d.setCore core ((k.dequeue pos).setAcc o.set (if d.tallyOn blk.plot then a.reinit else a))

/-- ARRAY_DRAIN_COMPLETE. -/
def execArrayDrainComplete (core : Nat) (s : State) : Host.Outcome State Fault Refusal :=
  s.runB fun beat b =>
    let k := b.data.core core
    if inPass k then b
    else match startedAt k fun o => o.kind == .accSt || o.kind == .accLd with
    | none => b
    | some (pos, o) => match b.data.arrOwner core o with
      | none => { b with data := b.data.setCore core (k.dequeue pos) }
      | some (g, blk) =>
        if o.kind = .accSt then drainSt b beat core pos o g k blk else { b with data := drainLd b.data core pos o k blk }

/-! ### Starts (R133, R145, R149) -/

/-- The rows of a drain or load, as bench offset and length. -/
def drainRows (l : List W32) : List (Nat × Nat) :=
  (List.range (dw l 6 % 128)).map fun i => (drainAddr l i 0 0, dw l 6 / 256 % 128 * outW (dw l 1 % 16))

/-- Bench bytes an instruction reads, and those it writes, as offset and length in its thread block's region. -/
def arrReads (o : ArrOp) : List (Nat × Nat) :=
  match o.kind with
  | .mma => mmaExtents o.desc o.aFmt o.bFmt o.blk16
  | .accLd => drainRows o.desc
  | _ => []

def arrWrites (o : ArrOp) : List (Nat × Nat) := if o.kind = .accSt then drainRows o.desc else []

/-- Ranges of a bench region by their places in the bench: cut at the region's granules of 1 KiB. -/
def benchRanges (bench : List Nat) (l : List (Nat × Nat)) : List (Nat × Nat) :=
  l.flatMap fun e => (List.range ((e.1 % 1024 + e.2 + 1023) / 1024)).filterMap fun i =>
    let lo := max e.1 ((e.1 / 1024 + i) * 1024)
    let hi := min (e.1 + e.2) ((e.1 / 1024 + i + 1) * 1024)
    (bench[lo / 1024]?).map fun g => (g * 1024 + lo % 1024, hi - lo)

/-- The bench region of a queued instruction's thread block. -/
def Data.arrBench (d : Data) (core : Nat) (o : ArrOp) : List Nat := ((d.arrOwner core o).map fun e => e.2.bench).getD []

def meets (a b : List (Nat × Nat)) : Bool :=
  a.any fun x => b.any fun y => decide (x.1 < y.1 + y.2) && decide (y.1 < x.1 + x.2)

/-- An instruction must wait for an earlier one: the same set, or overlapping bytes of the core's bench, at least one of them
written. -/
def arrWaits (d : Data) (core : Nat) (e o : ArrOp) : Bool :=
  let be := d.arrBench core e
  let bo := d.arrBench core o
  e.set == o.set || meets (benchRanges be (arrWrites e)) (benchRanges bo (arrReads o ++ arrWrites o)) ||
    meets (benchRanges be (arrReads e)) (benchRanges bo (arrWrites o))

/-- Its resource is free. -/
def arrFree (k : Core) (o : ArrOp) : Bool :=
  match o.kind with
  | .mma => k.arrSt == .active && (startedAt k fun e => e.kind == .mma).isNone
  | .accSt | .accLd => (startedAt k fun e => e.kind == .accSt || e.kind == .accLd).isNone
  | _ => true

/-- What the instructions that use no resource do at once; the others start. How many rows an `acc.st` has written when
others look, is time: some are written when it starts, the rest when it completes. -/
def arrAtOnce (d : Data) (core pos : Nat) (o : ArrOp) (g : Group) (b : Block) : Data :=
  let k := d.core core
  let a := k.set o.set
  let k' := k.dequeue pos
  match o.kind with
  | .accZero => d.setCore core (k'.setAcc o.set AccSet.empty)
  | .accClrf => d.setCore core (k'.setAcc o.set { a with sat := false })
  | .accFlags => (d.setCore core k').setGroup core o.slot (g.wrU o.dest (if a.sat then 1 else 0))
  | .accSt =>
    let n := Config.freeNat d.free % 65
    drainRowsSt { d.setCore core { k with arrQ := k.arrQ.set pos { o with started := true, drained := n } } with free := d.free + 1 }
      core b.bench a o.desc 0 n
  | _ => d.setCore core { k with arrQ := k.arrQ.set pos { o with started := true } }

/-- ARRAY_INSTR_START: the queued instruction at position `pos` starts. -/
def execArrayInstrStart (core pos : Nat) (s : State) : Host.Outcome State Fault Refusal :=
  s.runB fun _ b =>
    let d := b.data
    let k := d.core core
    match k.arrQ[pos]? with
    | none => b
    | some o =>
      if d.halted || inPass k || o.started || ((k.arrQ.take pos).any fun e => arrWaits d core e o) || !arrFree k o || (b.md.uv && o.kind == .mma) then b
      else match d.arrOwner core o with
        | none => { b with data := d.setCore core (k.dequeue pos) }
        | some (g, blk) => { b with data := arrAtOnce d core pos o g blk }

/-! ### Notices (R157; 06 R194) -/

/-- SAT_NOTICE: the launch's first saturation, recorded. -/
def execSatNotice (launch : Nat) (s : State) : Host.Outcome State Fault Refusal :=
  s.runD fun _ d =>
    match d.anyLaunch launch with
    | some l => match l.satNotice with
      | some r => (d.modLaunch launch fun l => { l with satNotice := none }).holdRec l.ctx launch r
      | none => d
    | none => d

/-- NAN_NOTICE: the launch's first created NaN, recorded. -/
def execNanNotice (launch : Nat) (s : State) : Host.Outcome State Fault Refusal :=
  s.runD fun _ d =>
    match d.anyLaunch launch with
    | some l => match l.nanNotice with
      | some r => (d.modLaunch launch fun l => { l with nanNotice := none }).holdRec l.ctx launch r
      | none => d
    | none => d

/-! ### The activity ramp (R164, R165; 14 R392) -/

/-- An `mma` is the first instruction of the queue that has not started. -/
def mmaNext (k : Core) : Bool :=
  match k.arrQ.find? fun o => !o.started with
  | some o => o.kind == .mma
  | none => false

/-- ARRAY_LEAVE_IDLE: in an open slot of the beat RAMP_UP begins with the first 8 rows; in a closed one the start waits, which
counts once. Which slot of the beat it is, is time: a draw where not every slot is open. -/
def execArrayLeaveIdle (core : Nat) (s : State) : Host.Outcome State Fault Refusal :=
  s.runB fun _ b =>
    let d := b.data
    let k := d.core core
    if k.arrSt == .idle && mmaNext k && !d.halted && !inPass k && !b.md.uv then
      let open_ := b.pw.mask == 0x3FF || (b.pw.mask != 0 && Config.freeBool d.free)
      let d := if b.pw.mask = 0x3FF then d else { d with free := d.free + 1 }
      if open_ then { b with data := d.setCore core { k with arrSt := .rampUp, rows := 1, rampWait := false } }
      else if k.rampWait then { b with data := d }
      else { b with data := d.setCore core { k with rampWait := true }, pw := { b.pw with rampN := mput b.pw.rampN (core / 84) (mgetD b.pw.rampN (core / 84) 0 + 1) } }
    else b

/-- ARRAY_RAMP_STEP: 8 rows more or fewer; all enabled makes ACTIVE, which is HOLD at once where the queue has come to hold
no `mma`; none makes IDLE. -/
def execArrayRampStep (core : Nat) (s : State) : Host.Outcome State Fault Refusal :=
  s.runD fun _ d =>
    let k := d.core core
    match k.arrSt with
    | .rampUp => d.setCore core (if 8 ≤ k.rows then { k with arrSt := if k.arrQ.any fun o => o.kind == .mma then .active else .hold } else { k with rows := k.rows + 1 })
    | .rampDown => d.setCore core (if k.rows = 0 then { k with arrSt := .idle } else { k with rows := k.rows - 1 })
    | _ => d

/-- ARRAY_HOLD_EXPIRY: RAMP_DOWN begins with the first 8 rows disabled. -/
def execArrayHoldExpiry (core : Nat) (s : State) : Host.Outcome State Fault Refusal :=
  s.runD fun _ d =>
    let k := d.core core
    if k.arrSt = .hold then d.setCore core { k with arrSt := .rampDown, rows := 7 } else d

end Sys2Proof.Machine
end

