-- ==== Sys2Proof/Machine/Plots.lean ====
section
/-! DEFINITION. Plots, contexts, memory objects, queues, events, pigeonholes and reference counts: their letters
(10 R298; 11; 12 R349; 13 R377, R378, R496). -/

namespace Sys2Proof.Machine

def State.setData (s : State) (d : Data) : State := { s with body := { s.body with data := d } }

/-! ### plot.create (11 R322-R324) -/

/-- Slices of a die that can be granted: in service, outside the spill area (its two highest in service). -/
def grantable (d : Data) (die : Nat) : List Nat :=
  let up := (List.range 56).filter fun n => sliceUp d (56 * die + n)
  up.take (up.length - 2)

/-- Slices of a die that plots hold. -/
def heldSlices (d : Data) (die : Nat) : List Nat :=
  d.plots.flatMap fun p => ((p.2.cache ++ p.2.scratch).filter fun k => k / 56 == die).map fun k => k % 56

def overlaps (a b : Nat × Nat) : Bool := decide (0 < a.2) && decide (0 < b.2) && decide (a.1 < b.1 + b.2) && decide (b.1 < a.1 + a.2)

/-- Cores named by CORES. -/
def coresNamed (l : Letter) : List Nat :=
  (List.range 8).flatMap fun i => ((List.range 84).filter fun k => l.arg (80 + 12 * i) 12 / 2 ^ k % 2 == 1).map fun k => 84 * i + k

/-- First pass: what this module could not grant even if no other plot existed. -/
def plotBad (s : State) (l : Letter) : List Chk :=
  let d := s.body.data
  let dies := List.range 8
  [rg 1 (l.arg 1 1 == 0 || s.body.md.grade != 0), rg 16 (decide (l.arg 16 2 + l.arg 18 2 ≤ 4096)),
   rg 20 (decide (l.arg 20 2 + l.arg 22 2 ≤ 1024)), rg 24 (decide (l.arg 24 2 + l.arg 26 2 ≤ 256))] ++
  dies.map (fun i => rg 32 (let n := l.arg (32 + i) 1 + l.arg (40 + i) 1
    if d.dieOut.contains i then n == 0 else decide (n ≤ (grantable d i).length))) ++
  dies.map (fun i => rg (48 + 4 * i) (l.arg (50 + 4 * i) 2 == 0 ||
    (decide (l.arg (48 + 4 * i) 2 + l.arg (50 + 4 * i) 2 ≤ 16368) && !d.dieOut.contains i))) ++
  dies.map fun i => rg (80 + 12 * i) ((coresNamed l).all fun c => c / 84 != i || d.coreState c != .off)

/-- Second pass: conflicts with other plots. -/
def plotUsed (s : State) (l : Letter) : List Chk :=
  let d := s.body.data
  let ps := d.plots.map fun p => p.2
  let dies := List.range 8
  let vf := l.arg 2 1
  let rangeFree (f n : Nat) (g : Plot → Nat × Nat) := ps.all fun p => !overlaps (l.arg f 2, l.arg n 2) (g p)
  [rg 2 (vf == 255 || ps.all fun p => (p.vf.map fun v => v.2) != some vf),
   rg 4 (l.arg 4 2 == 0 || ps.all fun p => p.tag != l.arg 4 2),
   rg 6 (decide (l.arg 6 2 + (ps.map fun p => p.maxCtx).sum ≤ 4096)),
   rg 8 (decide (l.arg 8 4 + (ps.map fun p => p.events).sum ≤ 65536)),
   rg 12 (decide (l.arg 12 2 + (ps.map fun p => p.graphs).sum ≤ 16384)),
   rg 16 (rangeFree 16 18 fun p => p.ph), rg 20 (rangeFree 20 22 fun p => p.dbar), rg 24 (rangeFree 24 26 fun p => p.pbar)] ++
  dies.map (fun i => rg 32 (decide (l.arg (32 + i) 1 + l.arg (40 + i) 1 ≤
    ((grantable d i).filter fun n => !(heldSlices d i).contains n).length))) ++
  dies.map (fun i => rg (48 + 4 * i) (ps.all fun p => !overlaps (l.arg (48 + 4 * i) 2, l.arg (50 + 4 * i) 2) (p.frames.getD i (0, 0)))) ++
  dies.map fun i => rg (80 + 12 * i) ((coresNamed l).all fun c => c / 84 != i || ps.all fun p => !p.cores.contains c)

/-- Slices granted on a die: the lowest free ones, cache first. -/
def grantSlices (d : Data) (l : Letter) (die : Nat) : List Nat × List Nat :=
  let free := ((grantable d die).filter fun n => !(heldSlices d die).contains n).map fun n => 56 * die + n
  (free.take (l.arg (32 + die) 1), (free.drop (l.arg (32 + die) 1)).take (l.arg (40 + die) 1))

/-- `plot.create`. -/
def effPlotCreate (s : State) (l : Letter) (_ : Nat) : State × Res :=
  let d := s.body.data
  let n := l.arg 0 1
  if 4 ≤ s.body.mgdb.grants then (s, Res.no 0x51)
  else if (mget d.plots n).isSome then (s, Res.at_ 0x40 0)
  else match firstBad (plotBad s l) with
  | some (_, o) => (s, Res.at_ 9 o)
  | none => match firstBad (plotUsed s l) with
    | some (_, o) => (s, Res.at_ 0x0F o)
    | none =>
      let gs := (List.range 8).map fun i => grantSlices d l i
      let cache := gs.flatMap fun g => g.1
      let scratch := gs.flatMap fun g => g.2
      let cores := coresNamed l
      let p : Plot :=
        { st := .active, drainedBeat := 0, tallyOff := l.arg 1 1 == 1, tag := l.arg 4 2,
          vf := if l.arg 2 1 = 255 then none else some (l.arg 3 1 == 1, l.arg 2 1),
          mem := if l.arg 4 2 = 0 then [] else [d.node], pruned := [],
          maxCtx := l.arg 6 2, events := l.arg 8 4, graphs := l.arg 12 2, ph := (l.arg 16 2, l.arg 18 2),
          dbar := (l.arg 20 2, l.arg 22 2), pbar := (l.arg 24 2, l.arg 26 2), cores := cores, cache := cache, scratch := scratch,
          frames := (List.range 8).map fun i => (l.arg (48 + 4 * i) 2, l.arg (50 + 4 * i) 2), reply := none }
      let mem := scratch.foldl (fun m k => clearRange m (2 ^ 39 + k * 2 ^ 22) (2 ^ 22)) d.mem
      let lost := d.lost.filter fun x => !(decide (2 ^ 39 ≤ x * 128) && scratch.contains ((x * 128 - 2 ^ 39) / 2 ^ 22))
      let s := s.setData { d with plots := mput d.plots n p, mem := mem, lost := lost }
      let s := match p.vf with
        | some (_, v) => s.mg fun m => { m with nextSeq := mdel m.nextSeq (0x40 + v), archive := mdel m.archive (0x40 + v) }
        | none => s
      let map (ks : List Nat) (i : Nat) := natLe 8 (bitsNat 56 fun b => ks.contains (56 * i + b))
      (s, Res.ok (natLe 2 (cores.filter fun c => d.coreState c == .full).length ++
        natLe 2 (cores.filter fun c => d.coreState c == .arrayOff).length ++ natLe 4 0 ++
        (List.range 8).flatMap fun i => map cache i ++ map scratch i))

/-! ### plot.drain (11 R327-R329) -/

/-- Resident groups of a plot. -/
def plotGroups (d : Data) (plot : Nat) : List Group :=
  d.cores.flatMap fun c => (c.2.groups.filter fun g => ((mget c.2.blocks g.2.block).map fun b => b.plot) == some plot).map fun g => g.2

/-- Descriptors of a plot outstanding in engines `lo` to `hi`. -/
def plotDescs (d : Data) (plot lo hi : Nat) : Nat :=
  ((d.engines.filter fun e => decide (lo ≤ e.1) && decide (e.1 < hi)).map fun e =>
    (e.2.queue.filter fun q => q.plot == plot).length + (e.2.running.filter fun r => r.desc.plot == plot).length).sum

/-- Park, or release, every group of a plot at its next instruction boundary (03 R101); waiting groups stay as they are, and a
pass keeps what it has parked. -/
def parkPlot (d : Data) (plot : Nat) (on : Bool) : Data :=
  let held (c : Core) : Bool := match c.pass with
    | .forced _ | .running .. => true
    | _ => false
  { d with cores := mmap d.cores fun _ c =>
    if !on && held c then c
    else { c with groups := mmap c.groups fun _ (g : Group) =>
      if ((mget c.blocks g.block).map fun b => b.plot) = some plot then { g with mgmt := on, act := g.act && !on } else g } }

def PlotState.code : PlotState → Nat
  | .active => 1 | .draining => 2 | .drained => 3 | .destroying => 4

/-- Collectives that wait for a member (09 R290): those that have not got what every member sends. -/
def relayWaiting (d : Data) (plot : Nat) : Nat :=
  (d.engines.map fun e => (e.2.running.filter fun r => r.desc.plot == plot && decide (128 ≤ e.1) &&
    decide (4 ≤ field r.desc.bytes 0 1) && r.phase == 0).length).sum

/-- Groups of a plot that its drain has parked; those parked for a fault stay as they are (03 R101). -/
def drainParked (d : Data) (plot : Nat) : Nat := ((plotGroups d plot).filter fun g => g.mgmt && g.st != .faultPark).length

/-- Every group of the plot is parked with nothing outstanding, and every descriptor has completed, those that an issuing
instruction has yet to read among them (R327; 03 R94). -/
def plotAtRest (d : Data) (n : Nat) (p : Plot) : Bool :=
  plotDescs d n 0 144 == 0 && ((plotGroups d n).all fun g => g.mgmt || g.st == .faultPark) &&
    (d.reqs.all fun r => r.plot != n || r.rem.isSome || r.isPosted || r.ofHost) && p.cores.all fun c => (d.core c).arrQ.isEmpty

def drainBytes (s : State) (n : Nat) (p : Plot) : List Byte :=
  let d := s.body.data
  natLe 1 p.st.code ++ natLe 3 0 ++ natLe 4 (drainParked d n) ++
    natLe 4 (plotDescs d n 0 144) ++ natLe 4 (relayWaiting d n) ++ natLe 8 (if p.st = .drained then p.drainedBeat else 0)

/-- A letter on an existing plot that is not being destroyed. -/
def onPlot (s : State) (n : Nat) (f : Plot → State × Res) : State × Res :=
  match mget s.body.data.plots n with
  | none => (s, Res.at_ 0x41 0)
  | some p => if p.st = .destroying then (s, Res.at_ 0x42 0) else f p

def effDrain (s : State) (l : Letter) (_ : Nat) : State × Res :=
  let n := l.arg 0 1
  onPlot s n fun p =>
    if p.st = .active then
      let d := parkPlot { s.body.data with plots := mput s.body.data.plots n { p with st := .draining } } n true
      let s := s.setData d
      (s, Res.ok (drainBytes s n { p with st := .draining }))
    else (s, Res.ok (drainBytes s n p))

def effDrainRelease (s : State) (l : Letter) (_ : Nat) : State × Res :=
  let n := l.arg 0 1
  onPlot s n fun p =>
    if p.st = .active then (s, Res.ok (drainBytes s n p))
    else
      let d := parkPlot { s.body.data with plots := mput s.body.data.plots n { p with st := .active, drainedBeat := 0 } } n false
      let s := s.setData d
      (s, Res.ok (drainBytes s n { p with st := .active }))

def effDrainQuery (s : State) (l : Letter) (_ : Nat) : State × Res :=
  onPlot s (l.arg 0 1) fun p => (s, Res.ok (drainBytes s (l.arg 0 1) p))

/-- PLOT_DRAIN_COMPLETE: the plot is DRAINED once it is at rest. -/
def execPlotDrainComplete (plot : Nat) (s : State) : Host.Outcome State Fault Refusal :=
  s.run fun s =>
    match mget s.body.data.plots plot with
    | some p =>
      if p.st = .draining ∧ plotAtRest s.body.data plot p then
        let parked := drainParked s.body.data plot
        (s.setData { s.body.data with plots := mput s.body.data.plots plot { p with st := .drained, drainedBeat := s.alm.beat } }).post
          0x0805 0 [(plot, 1), (0, 3), (parked, 4), (s.alm.beat, 8)]
      else s
    | none => s

/-! ### plot.destroy (11 R330) -/

/-- `plot.destroy`: DESTROYING from acceptance, with step 1 of 11 Table 5: the queues stop, the groups end without records,
and of the descriptors only those that run go on. The reply is sent at the end of the teardown. -/
def effPlotDestroy (s : State) (l : Letter) (jid : Nat) : State × Res :=
  let n := l.arg 0 1
  let d := s.body.data
  match mget d.plots n with
  | none => (s, Res.at_ 0x41 0)
  | some p =>
    let ctxs := (d.ctxs.filter fun c => c.2.plot == n).map fun c => c.1
    if p.st = .destroying then (s, Res.at_ 0x42 0)
    else if l.arg 1 1 = 0 ∧ ctxs ≠ [] then (s, Res.no 0x43)
    else
      let d := { d with plots := mput d.plots n { p with st := .destroying, reply := some jid } }
      let d := ctxs.foldl (fun (d : Data) c => d.abortCtx c) d
      let d := d.cores.foldl (fun (d : Data) c => (c.2.blocks.filter fun b => b.2.plot == n).foldl (fun (d : Data) b => d.endBlock c.1 b.1) d) d
      let d := { d with
        engines := mmap d.engines fun _ e => { e with queue := e.queue.filter fun q => q.plot != n }
        ctxs := mmap d.ctxs fun _ x => if x.plot = n then { x with held := [] } else x }
      (s.setData d, Res.wait)

/-- Step 2 of 11 Table 5: the tag is withdrawn with its members, and what was scheduled through the plot's VF is cancelled. -/
def withdraw (s : State) (n : Nat) (p : Plot) : State :=
  let vfSt (e : SEntry) : Bool := match p.vf with
    | some (_, v) => e.letter.stamp == 0x40 + v
    | none => false
  let s := (s.body.mg.schedule.filter vfSt).foldl (fun s e => dropEntry (letterExecuted s e 5) e.ticket) s
  s.setData { s.body.data with plots := mmod s.body.data.plots n fun p => { p with tag := 0, mem := [], pruned := [] } }

/-- Step 3: a remote operation of the plot is outstanding, or a pass runs on one of its cores. -/
def teardownBusy (d : Data) (n : Nat) (p : Plot) : Bool :=
  (d.reqs.any fun r => r.plot == n && match r.tgt, r.stage with
    | .remote _, .attached => true
    | _, _ => false) ||
  p.cores.any fun c => match (d.core c).pass with
    | .running .. => true
    | _ => false

/-- Steps 4 to 7: everything of the plot is cleared and returned. -/
def clearPlot (s : State) (n : Nat) (p : Plot) : Data :=
  let d := s.body.data
  let mine (c : Nat) : Bool := d.ctxPlot c == n
  let d := (d.launches.filter fun l => mine l.2.ctx).foldl (fun (d : Data) l => d.endLaunch l.1 s.alm.beat) d
  let d := d.clearFrames ((d.graphs.filter fun g => mine g.2.ctx).flatMap fun g => g.2.frames)
  let d := { d with
    graphs := mfilter d.graphs fun _ g => !mine g.ctx
    pigeons := mfilter d.pigeons fun _ p => !mine p.ctx
    events := mfilter d.events fun _ e => !mine e.ctx
    ended := mfilter d.ended fun _ l => !mine l.ctx
    ctxs := mfilter d.ctxs fun _ c => c.plot != n }
  let d := d.clearFrames ((d.objs.filter fun o => o.plot == n).flatMap fun o => o.stripes.flatten ++ o.side)
  let inPlot (a : Nat) : Bool := p.cores.contains (a / 2 ^ 19)
  let sc (x : Nat) : Bool := decide (2 ^ 39 ≤ x) && p.scratch.contains ((x - 2 ^ 39) / 2 ^ 22)
  { d with
    objs := d.objs.filter fun o => o.plot != n
    hws := d.hws.filter fun o => o.plot != n
    apertures := d.apertures.filter fun x => x.1 != n
    reqs := d.reqs.filter fun r => r.plot != n
    copies := mfilter d.copies fun _ c => c.plot != n
    fills := d.fills.filter fun f => f.plot != n
    cores := mmap d.cores fun k c => if p.cores.contains k then { c with acc := [], near := [], icache := [], fetchBuf := [], claim := none, arrQ := [] } else c
    bench := d.bench.filter fun c => !inPlot c.1
    benchEpoch := mfilter d.benchEpoch fun g _ => !p.cores.contains (g / 512)
    mem := d.mem.filter fun c => !sc c.1
    lost := d.lost.filter fun a => !sc (a * 128)
    plots := mdel d.plots n }

/-- The effect of a letter of the `plot.*` area. -/
def effPlot (s : State) (l : Letter) (jid : Nat) : State × Res :=
  match l.op, l.arg 1 1 with
  | 0x0201, _ => effPlotCreate s l jid
  | 0x0202, _ => effPlotDestroy s l jid
  | _, 1 => effDrain s l jid
  | _, 2 => effDrainRelease s l jid
  | _, _ => effDrainQuery s l jid

/-- The `plot.*` letters that waited for the one before them, in acceptance order. -/
def plotWaiters : Nat → State → State
  | 0, s => s
  | n + 1, s => match s.body.mg.journal.find? fun e => e.reply.isNone && e.letter.op / 256 == 2 with
    | none => s
    | some e => match stateRefuses s e.letter.op e.letter.args with
      | some st => plotWaiters n (reply s e.jid (Res.no st))
      | none =>
        let (s, r) := effPlot s e.letter e.jid
        if r.later then s else plotWaiters n (reply s e.jid r)

/-! ### Frames pending retirement (07 R208; 11 R322) -/

/-- Frames that objects and graphs hold. -/
def usedFrames (d : Data) : List Nat := (d.objs.flatMap fun o => o.stripes.flatten ++ o.side) ++ d.graphs.flatMap fun g => g.2.frames

/-- A plot has slice `k` as scratch. -/
def isScratch (d : Data) (k : Nat) : Bool := d.plots.any fun p => p.2.scratch.contains k

/-- 11 R322: the save area of a die: 64 passing reserved frames, one on each channel in service in turn. -/
def placeSave (d : Data) (die : Nat) : List Nat :=
  let chans := ((List.range 64).map fun i => 64 * die + i).filter fun c => chanUp d c
  let good (c : Nat) : List Nat := ((List.range 16).map fun i => c * 16384 + 16368 + i).filter fun f =>
    !d.frameOut.contains f && !d.framePend.contains f
  (((List.range 16).flatMap fun i => chans.filterMap fun c => (good c)[i]?)).take 64

/-- Nothing holds a frame: no object, side table or graph, nor the bytes of a scratch slice during its pass. -/
def frameFree (d : Data) (f : Nat) : Bool :=
  !(usedFrames d).contains f && !(d.saveArea.any fun a => a.2.contains f && d.slices.any fun s =>
    s.1 / 56 == a.1 && isScratch d s.1 && s.2 != SliceState.inService)

/-- Retire pending frames that nothing holds. Where one was part of a save area, the area is placed again, and a frame that it gains
takes the contents (R208). -/
def settleFrames (d : Data) : Data :=
  (d.framePend.filter fun f => frameFree d f).foldl (fun (d : Data) f =>
    let d := { d with framePend := srem d.framePend f, frameOut := sadd d.frameOut f }
    match d.saveArea.find? fun a => a.2.contains f with
    | none => d
    | some (die, fs) =>
      let new := placeSave d die
      let d := match new.find? fun g => !fs.contains g with
        | some g => d.wrN (framePhys g) (d.rdN (framePhys f) 65536)
        | none => d
      { d with saveArea := mput d.saveArea die new }) d

/-- The end of a teardown: PLOT_DESTROYED, the VF unbound, the reply, and the letters that waited. -/
def toreDown (s : State) (n : Nat) (p : Plot) : State :=
  let force := match s.body.mg.journal.find? fun e => some e.jid == p.reply with
    | some e => e.letter.arg 1 1
    | none => 0
  let s := (s.setData (settleFrames (clearPlot s n p))).post 0x0806 0 [(n, 1), (force, 1), (0, 2)]
  let s := match p.vf with
    | some (_, v) => s.mg fun m => { m with nextSeq := mdel m.nextSeq (0x40 + v), archive := mdel m.archive (0x40 + v) }
    | none => s
  match p.reply with
  | some j => let s := reply s j (Res.ok [])
    plotWaiters s.body.mg.journal.length s
  | none => s

/-- PLOT_TEARDOWN_FINISH: once the plot's running descriptors have ended, step 2 of 11 Table 5; once its remote operations
have too and no pass runs on its cores, steps 4 to 7. -/
def execPlotTeardownFinish (plot : Nat) (s : State) : Host.Outcome State Fault Refusal :=
  s.run fun s =>
    match mget s.body.data.plots plot with
    | some p =>
      if p.st = .destroying ∧ (s.body.data.engines.any fun e => e.2.running.any fun r => r.desc.plot == plot) = false then
        let s := withdraw s plot p
        if teardownBusy s.body.data plot p then s else toreDown s plot p
      else s
    | none => s

/-! ### Contexts, events, pigeonholes, queues (10 R298; 11 R331-R334; 13 R496) -/

/-- All of `n` bytes from `a` on lie in memory objects of the plot that are not being released. -/
def coversObj (d : Data) (plot a n : Nat) : Bool :=
  a / 2 ^ 40 == d.node && match d.objAt plot (a % 2 ^ 40) with
    | some o => decide (a % 2 ^ 40 + n ≤ o.base + o.size) && decide (0 < o.hostCount)
    | none => false

/-- The status of a letter that names bytes outside its plot's memory objects, or in one that is being released (R336). -/
def objStatus (d : Data) (plot a n : Nat) : Nat :=
  match d.objAt plot (a % 2 ^ 40) with
  | some o => if a / 2 ^ 40 = d.node ∧ a % 2 ^ 40 + n ≤ o.base + o.size ∧ o.hostCount = 0 then 0x11 else 0x44
  | none => 0x44

/-- 13 R496: no line that the letter writes in part is lost, and none of those it writes is out of reach. -/
def writable (d : Data) (plot a n : Nat) : Bool :=
  (List.range ((a % 128 + n + 127) / 128)).all fun i =>
    match d.physAt plot ((a / 128 + i) * 128 % 2 ^ 40) with
    | none => false
    | some p =>
      let whole := decide (a ≤ (a / 128 + i) * 128) && decide ((a / 128 + i) * 128 + 128 ≤ a + n)
      !d.isLost p || (whole && d.lost.contains (p / 128) && !d.dieOut.contains (physDie p) && !d.chanOut.contains (physChan p))

/-- No byte of the range is lost. -/
def readable (d : Data) (plot a n : Nat) : Bool :=
  (List.range ((a % 128 + n + 127) / 128)).all fun i => match d.physAt plot ((a / 128 + i) * 128 % 2 ^ 40) with
    | none => false
    | some p => !d.isLost p

/-- Write bytes a letter initialises; whole lost lines are found again. -/
def initBytes (d : Data) (plot a : Nat) (l : List Byte) : Data :=
  (d.devWrite plot (a % 2 ^ 40) l).getD d

/-- A context that exists and is not RELEASING. -/
def onCtx (s : State) (c o : Nat) (f : Ctx → State × Res) : State × Res :=
  match mget s.body.data.ctxs c with
  | none => (s, Res.at_ 0x10 o)
  | some x =>
    if x.hostCount = 0 then (s, Res.at_ (if x.released then 0x10 else 0x11) o)
    else match mget s.body.data.plots x.plot with
      | some p => if p.st = .destroying then (s, Res.at_ 0x42 o) else f x
      | none => (s, Res.at_ 0x41 o)

/-- Events of a plot. -/
def plotEvents (d : Data) (plot : Nat) : Nat := mcount d.events fun _ e => d.ctxPlot e.ctx == plot

/-- The first record of an event: VALUE 0, IRQ_AT all ones. -/
def eventInit : List Byte := natLe 8 0 ++ List.replicate 8 255

/-- `ctx.create`. -/
def effCtxCreate (s : State) (l : Letter) (_ : Nat) : State × Res :=
  let d := s.body.data
  let n := l.arg 0 1
  let k := l.arg 3 1
  let ring := l.arg 8 8
  let prog := l.arg 16 8
  let rec_ := l.arg 24 8
  onPlot s n fun p =>
    if p.maxCtx ≤ (d.ctxs.filter fun c => c.2.plot == n).length then (s, Res.no 0x45)
    else if p.events ≤ plotEvents d n then (s, Res.no 0x50)
    else if !coversObj d n ring (64 * (2 ^ k + 1)) then (s, Res.at_ (objStatus d n ring (64 * (2 ^ k + 1))) 8)
    else if !coversObj d n prog 64 then (s, Res.at_ (objStatus d n prog 64) 16)
    else if !coversObj d n rec_ 16 then (s, Res.at_ (objStatus d n rec_ 16) 24)
    else if !writable d n ring 64 then (s, Res.at_ 0x12 8)
    else if !writable d n prog 64 then (s, Res.at_ 0x12 16)
    else if !writable d n rec_ 16 then (s, Res.at_ 0x12 24)
    else match freeKey d.ctxs 4096, freeKey d.events 65536 with
      | some c, some e =>
        let d := initBytes d n ring (natLe 4 0 ++ natLe 4 0 ++ natLe 8 k ++ List.replicate 48 0)
        let d := initBytes (initBytes d n prog (List.replicate 64 0)) n rec_ eventInit
        let x : Ctx :=
          { plot := n, forerunner := l.arg 1 1 == 1, wdAction := l.arg 2 1 == 1, wdEpochs := l.arg 4 4, ringLog2 := k, ring := ring,
            progress := prog, faultEvent := e, hostCount := 1, writeSeq := 0, freeSeq := 0, rung := false, held := [], posted := [],
            launchSeq := 0, sample := [0, 0, 0, 0, 0], still := 0, lastAdvance := s.alm.beat, stalled := false }
        let d := { d with ctxs := mput d.ctxs c x, events := mput d.events e { ctx := c, addr := rec_, vector := l.arg 32 2, hostCount := 1, fired := none } }
        let s := s.setData d
        ({ s with body := { s.body with pw := { s.body.pw with ctxMj := mput s.body.pw.ctxMj c (l.arg 0 1, 0) } } }, Res.ok (natLe 2 c ++ natLe 2 e))
      | _, _ => (s, Res.no 0x45)

/-- `event.create`. -/
def effEventCreate (s : State) (l : Letter) (_ : Nat) : State × Res :=
  let d := s.body.data
  onCtx s (l.arg 0 2) 0 fun c =>
    if ((mget d.plots c.plot).map fun p => p.events).getD 0 ≤ plotEvents d c.plot then (s, Res.no 0x50)
    else if !coversObj d c.plot (l.arg 8 8) 16 then (s, Res.at_ (objStatus d c.plot (l.arg 8 8) 16) 8)
    else if !writable d c.plot (l.arg 8 8) 16 then (s, Res.at_ 0x12 8)
    else match freeKey d.events 65536 with
      | some e =>
        let d := initBytes d c.plot (l.arg 8 8) eventInit
        (s.setData { d with events := mput d.events e { ctx := l.arg 0 2, addr := l.arg 8 8, vector := l.arg 2 2, hostCount := 1, fired := none } },
          Res.ok (natLe 2 e))
      | none => (s, Res.no 0x50)

/-- The ring of a new pigeonhole (10 Table 1). -/
def ringInit (k : Nat) : List Byte :=
  natLe 8 0 ++ natLe 8 0 ++ natLe 4 0 ++ natLe 4 0 ++ natLe 8 (2 ^ k - 1) ++ List.replicate 32 0 ++
    (List.range (2 ^ k)).flatMap fun i => natLe 8 i ++ List.replicate 56 0

/-- `pigeonhole.create`. -/
def effPigeonholeCreate (s : State) (l : Letter) (_ : Nat) : State × Res :=
  let d := s.body.data
  let k := l.arg 2 1
  onCtx s (l.arg 0 2) 0 fun c =>
    if l.arg 8 8 % 4096 ≠ 0 then (s, Res.at_ 0x44 8)
    else if !coversObj d c.plot (l.arg 8 8) (64 * (2 ^ k + 1)) then (s, Res.at_ (objStatus d c.plot (l.arg 8 8) (64 * (2 ^ k + 1))) 8)
    else if !writable d c.plot (l.arg 8 8) (64 * (2 ^ k + 1)) then (s, Res.at_ 0x12 8)
    else
      let r := ((mget d.plots c.plot).map fun p => p.ph).getD (0, 0)
      match (List.range r.2).find? fun i => (mget d.pigeons (r.1 + i)).isNone with
      | some i =>
        let d := initBytes d c.plot (l.arg 8 8) (ringInit k)
        (s.setData { d with pigeons := mput d.pigeons (r.1 + i) { ctx := l.arg 0 2, ring := l.arg 8 8, log2 := k, hostCount := 1, queue := none } },
          Res.ok (natLe 2 (r.1 + i)))
      | none => (s, Res.no 0x46)

/-- Of the Dispatchers of an I/O die, the one with the fewest queues, the lowest among equals. -/
def fewestQueues (b : Body) (south : Bool) : Nat :=
  let base := if south then 4 else 0
  let n (i : Nat) := mcount b.data.pigeons fun _ p => (p.queue.map fun (q : Queue) => q.disp) == some i
  let cs := ((List.range 4).map fun i => base + i).filter fun i => !b.md.dispOut.contains i
  (cs.foldl (fun (a : Option Nat) i => match a with
    | none => some i
    | some j => if n i < n j then some i else a) none).getD base

/-- `queue.create`. -/
def effQueueCreate (s : State) (l : Letter) (_ : Nat) : State × Res :=
  let d := s.body.data
  onCtx s (l.arg 0 2) 0 fun c =>
    match mget d.pigeons (l.arg 2 2) with
    | none => (s, Res.at_ 0x10 2)
    | some p =>
      if p.hostCount = 0 then (s, Res.at_ 0x11 2)
      else if p.ctx ≠ l.arg 0 2 ∨ p.queue.isSome then (s, Res.at_ 0x47 2)
      else
        let south := match (mget d.plots c.plot).bind fun q => q.vf with
          | some (hb, _) => hb
          | none => false
        let disp := if l.arg 4 1 = 255 then fewestQueues s.body south else l.arg 4 1
        (s.setData { d with pigeons := mput d.pigeons (l.arg 2 2) { p with queue := some { disp := disp, hostCount := 1, running := true, entry := none, launch := none } } },
          Res.ok (natLe 1 disp))

/-! ### Memory objects (07 R199-R201, R229; 08 R238, R241; 12 R349; 13 R377) -/

/-- Frames of a plot that an object may take on a channel: in its range, not used, not retired or pending. -/
def freeFrames (d : Data) (p : Plot) (used : List Nat) (ch : Nat) : List Nat :=
  let r := p.frames.getD (ch / 64) (0, 0)
  ((List.range r.2).map fun i => ch * 16384 + r.1 + i).filter fun f =>
    !used.contains f && !d.frameOut.contains f && !d.framePend.contains f

/-- Which free frame of a channel is taken is the device's choice (07 R201): draw `k`. -/
def pickFrame (d : Data) (p : Plot) (used : List Nat) (k ch : Nat) : Option Nat :=
  let l := freeFrames d p used ch
  l[Config.choice k % l.length]?

/-- What a search for frames has used: frames, the substitutes of the stripe by channel, draws. -/
structure Taking where
  used : List Nat
  subs : List Nat
  k : Nat

/-- The channel that substitutes a retired one in a stripe (07 R201): in service, with a free frame, the fewest
substitutes of the stripe, the lowest number. -/
def substitute (d : Data) (p : Plot) (t : Taking) (die : Nat) : Option Nat :=
  let n (c : Nat) : Nat := (t.subs.filter fun x => x == c).length
  (((List.range 64).map fun i => 64 * die + i).filter fun c => chanUp d c && !(freeFrames d p t.used c).isEmpty).foldl
    (fun (b : Option Nat) c => match b with
      | none => some c
      | some x => if n c < n x then some c else b) none

/-- One frame for each slot of a stripe. -/
def takeStripe (d : Data) (p : Plot) : Taking → List Nat → Option (List Nat × Taking)
  | t, [] => some ([], t)
  | t, ch :: chs =>
    let c := if chanUp d ch then some ch else substitute d p t (ch / 64)
    match c with
    | none => none
    | some c => match pickFrame d p t.used t.k c with
      | none => none
      | some f =>
        let t := { used := f :: t.used, subs := if c = ch then t.subs else c :: t.subs, k := t.k + 1 }
        (takeStripe d p t chs).map fun r => (f :: r.1, r.2)

/-- The channels of one stripe: 64 of a die, or all 512. -/
def stripeChans (package : Bool) (die : Nat) : List Nat := if package then List.range 512 else (List.range 64).map fun i => 64 * die + i

/-- Take `n` stripes; the substituted slots are counted. -/
def takeStripes (d : Data) (p : Plot) (package : Bool) (die : Nat) : Nat → Taking → Option (List (List Nat) × Taking × Nat)
  | 0, t => some ([], t, 0)
  | n + 1, t => match takeStripe d p { t with subs := [] } (stripeChans package die) with
    | none => none
    | some (st, t) => (takeStripes d p package die n t).map fun r => (st :: r.1, r.2.1, r.2.2 + t.subs.length)

/-- Frames of the side table (07 R229): each from the channel in service with the most free frames, the lowest number
among equals. -/
def takeSide (d : Data) (p : Plot) (package : Bool) (die : Nat) : Nat → Taking → Option (List Nat × Taking)
  | 0, t => some ([], t)
  | n + 1, t =>
    let count (c : Nat) : Nat := (freeFrames d p t.used c).length
    let c := ((stripeChans package die).filter fun c => chanUp d c && decide (0 < count c)).foldl
      (fun (b : Option Nat) c => match b with
        | none => some c
        | some x => if count x < count c then some c else b) none
    match c.bind fun c => pickFrame d p t.used t.k c with
    | none => none
    | some f => (takeSide d p package die n { t with used := f :: t.used, k := t.k + 1 }).map fun r => (f :: r.1, r.2)

/-- The lowest base, a multiple of the stripe, at which `n` bytes fit clear of the ranges `rs` below `top`. -/
def lowestFit (rs : List (Nat × Nat)) (n step start top : Nat) : Option Nat :=
  let up (x : Nat) := start + (x - start + step - 1) / step * step
  let cands := start :: rs.map fun r => up (r.1 + r.2)
  let ok (b : Nat) : Bool := decide (b + n ≤ top) && decide (start ≤ b) && rs.all fun r => !overlaps (b, n) r
  (cands.filter ok).foldl (fun (a : Option Nat) b => match a with
    | none => some b
    | some x => some (min x b)) none

/-- `mem.create` KIND 1. -/
def effMemCreate (s : State) (l : Letter) (_ : Nat) : State × Res :=
  let d := s.body.data
  let n := l.arg 0 1
  onPlot s n fun p =>
    let pkg := l.arg 2 1 == 1
    let step := if pkg then 2 ^ 25 else 2 ^ 22
    let size := (l.arg 8 8 + step - 1) / step * step
    if !pkg && d.dieOut.contains (l.arg 3 1) then (s, Res.at_ 0x4F 3)
    else
      match takeStripes d p pkg (l.arg 3 1) (size / step) { used := usedFrames d, subs := [], k := d.free } with
      | none => (s, Res.no 0x4D)
      | some (st, t, sub) =>
        let tiles := size / 4096
        let sideN := if l.arg 4 1 = 1 then (8 * tiles + (tiles + 7) / 8 + 65535) / 65536 else 0
        match takeSide d p pkg (l.arg 3 1) sideN t, lowestFit (d.objs.map fun o => (o.base, o.size)) size step 0 (2 ^ 39) with
        | some (side, t), some base =>
          let o : MemObj :=
            { base := base, plot := n, size := size, package := pkg, nearDie := l.arg 3 1, postmark := l.arg 4 1 == 1, stream := l.arg 5 1 == 1,
              stripes := st, side := side, marks := [], hostCount := 1 }
          let bar := match p.vf with
            | some (hb, _) => some (2 ^ (s.body.host.port (if hb then .hb else .ha)).vfBar2Log2)
            | none => none
          let ap := bar.bind fun top => lowestFit ((d.apertures.filter fun x => x.1 == n).map fun x => (x.2.2, ((d.objs.find? fun o => o.base == x.2.1).map fun o => o.size).getD 0)) size step 0 top
          let d := { d with objs := d.objs ++ [o], free := t.k }
          let d := match ap with
            | some a => { d with apertures := d.apertures ++ [(n, base, a)] }
            | none => d
          (s.setData d, Res.ok (natLe 8 (d.node * 2 ^ 40 + base) ++ natLe 8 size ++ natLe 8 (ap.getD (2 ^ 64 - 1)) ++ natLe 4 sub ++ natLe 4 0))
        | _, _ => (s, Res.no 0x4D)

/-- `mem.create` KIND 2: a host-window object. -/
def effMemCreateHw (s : State) (l : Letter) (_ : Nat) : State × Res :=
  let d := s.body.data
  let n := l.arg 0 1
  onPlot s n fun p =>
    let size := l.arg 8 8
    let k := size / 2 ^ 21
    let hb := l.arg 24 1 == 1
    let list := l.arg 16 8
    if (match p.vf with
      | some (v, _) => v != hb
      | none => false) then (s, Res.at_ 9 24)
    else if !coversObj d n list (8 * k) then (s, Res.at_ (objStatus d n list (8 * k)) 16)
    else if !readable d n list (8 * k) then (s, Res.at_ 0x12 16)
    else
      let pages := (List.range k).map fun i => leNat ((d.devRead n ((list + 8 * i) % 2 ^ 40) 8).getD [])
      if pages.any fun b => b % 4096 != 0 then (s, Res.at_ 9 16)
      else
        let lo := if hb then 0xE000000000 else 0xC000000000
        match lowestFit (d.hws.map fun o => (o.base, o.pages.length * 2 ^ 21)) size (2 ^ 21) lo (lo + 2 ^ 37) with
        | none => (s, Res.no 0x4E)
        | some base =>
          let o : HwObj := { base := base, plot := n, hb := hb, write := true, pages := pages, hostCount := 1 }
          (s.setData { d with hws := d.hws ++ [o] },
            Res.ok (natLe 8 (d.node * 2 ^ 40 + base) ++ natLe 8 size ++ List.replicate 8 255 ++ natLe 4 0 ++ natLe 4 0))

/-- `mem.invalidate`. -/
def effMemInvalidate (s : State) (l : Letter) (_ : Nat) : State × Res :=
  onPlot s (l.arg 0 1) fun _ => (s.setData (s.body.data.invalidate (l.arg 8 8) (l.arg 16 8) (some (l.arg 0 1))), Res.ok [])

/-! ### Reference letters (11 R336-R338) -/

/-- Host and device counts of an object, and how to set the host count. -/
def objCounts (d : Data) (kind id base : Nat) : Option (Nat × Nat × (Nat → Data)) :=
  match kind with
  | 1 => ((mget d.ctxs id).filter fun c => !(c.released && c.hostCount == 0)).map fun c => (c.hostCount, d.ctxRefs id, fun n => { d with ctxs := mput d.ctxs id { c with hostCount := n } })
  | 2 => match d.objs.find? fun o => o.base == base % 2 ^ 40 && base / 2 ^ 40 == d.node with
    | some o => some (o.hostCount, d.objRefs o, fun n => { d with objs := d.objs.map fun q => if q.base = o.base then { q with hostCount := n } else q })
    | none => (d.hws.find? fun o => o.base == base % 2 ^ 40 && base / 2 ^ 40 == d.node).map fun o =>
        (o.hostCount, 0, fun n => { d with hws := d.hws.map fun q => if q.base = o.base then { q with hostCount := n } else q })
  | 3 => (mget d.pigeons id).map fun p => (p.hostCount, d.phRefs id, fun n => { d with pigeons := mput d.pigeons id { p with hostCount := n } })
  | 4 => (mget d.pigeons id).bind fun p => p.queue.map fun q =>
      (q.hostCount, d.queueRefs id, fun n => { d with pigeons := mput d.pigeons id { p with queue := some { q with hostCount := n } } })
  | 5 => (mget d.events id).map fun e => (e.hostCount, d.eventRefs id, fun n => { d with events := mput d.events id { e with hostCount := n } })
  | _ => (mget d.graphs id).map fun g => (g.hostCount, d.graphRefs id, fun n => { d with graphs := mput d.graphs id { g with hostCount := n } })

/-- The reply of 11 R338 after the change. -/
def countReply (s : State) (kind id base : Nat) : State × Res :=
  match objCounts s.body.data kind id base with
  | none => (s, Res.ok (natLe 1 1 ++ natLe 3 0 ++ natLe 4 0 ++ natLe 4 0))
  | some (h, dv, _) => (s, Res.ok (natLe 1 (if h ≠ 0 then 0 else if dv = 0 then 1 else 2) ++ natLe 3 0 ++ natLe 4 h ++ natLe 4 dv))

/-- The plot of an object that a reference letter names. -/
def objPlot (d : Data) (kind id base : Nat) : Option Nat :=
  match kind with
  | 1 => (mget d.ctxs id).map fun c => c.plot
  | 2 => match d.objs.find? fun o => o.base == base % 2 ^ 40 with
    | some o => some o.plot
    | none => (d.hws.find? fun o => o.base == base % 2 ^ 40).map fun o => o.plot
  | 3 | 4 => (mget d.pigeons id).map fun p => d.ctxPlot p.ctx
  | 5 => (mget d.events id).map fun e => d.ctxPlot e.ctx
  | _ => (mget d.graphs id).map fun g => d.ctxPlot g.ctx

/-- Its plot is being destroyed: object letters get PLOT_GONE (11 Table 3). -/
def objGone (d : Data) (kind id base : Nat) : Bool :=
  match (objPlot d kind id base).bind fun n => mget d.plots n with
  | some p => p.st == .destroying
  | none => false

/-- Drop one host reference. -/
def dropRef (s : State) (kind id base o : Nat) : State × Res :=
  match objCounts s.body.data kind id base with
  | none => (s, Res.at_ 0x10 o)
  | some (h, _, set) =>
    if objGone s.body.data kind id base then (s, Res.at_ 0x42 o)
    else if h = 0 then (s, Res.at_ 0x4C o)
    else countReply (s.setData (set (h - 1)).reap) kind id base

def effMemRelease (s : State) (l : Letter) (_ : Nat) : State × Res := dropRef s 2 0 (l.arg 8 8) 8
def effObjRelease (s : State) (l : Letter) (_ : Nat) : State × Res :=
  dropRef s (l.arg 0 1) (l.arg 4 4) (l.arg 8 8) (if l.arg 0 1 = 2 then 8 else 4)

/-- `obj.retain`. -/
def effObjRetain (s : State) (l : Letter) (_ : Nat) : State × Res :=
  let o := if l.arg 0 1 = 2 then 8 else 4
  match objCounts s.body.data (l.arg 0 1) (l.arg 4 4) (l.arg 8 8) with
  | none => (s, Res.at_ 0x10 o)
  | some (h, _, set) =>
    if objGone s.body.data (l.arg 0 1) (l.arg 4 4) (l.arg 8 8) then (s, Res.at_ 0x42 o)
    else if h = 0 then (s, Res.at_ 0x11 o)
    else if 65535 ≤ h then (s, Res.at_ 9 4)
    else countReply (s.setData (set (h + 1))) (l.arg 0 1) (l.arg 4 4) (l.arg 8 8)

/-- `ctx.release`: the host counts of the context and of all its objects drop to zero; with ABORT, after ABORT_CONTEXT and
the ends that it brings at once. -/
def effCtxRelease (s : State) (l : Letter) (_ : Nat) : State × Res :=
  let c := l.arg 4 4
  let d := s.body.data
  match mget d.ctxs c with
  | none => (s, Res.at_ 0x10 4)
  | some x =>
    if objGone d 1 c 0 then (s, Res.at_ 0x42 4)
    else if x.hostCount = 0 then (s, Res.at_ (if x.released then 0x10 else 0x4C) 4)
    else
      let s := if l.arg 1 1 = 1 then { s with body := (s.setData (d.abortCtx c)).body.settleAll s.marksWait s.alm.beat } else s
      let d := s.body.data
      let zero (k : Nat) : Bool := k == c
      let d := { d with
        ctxs := mmod d.ctxs c fun y => { y with hostCount := 0 }
        pigeons := mmap d.pigeons fun _ y => if zero y.ctx then { y with hostCount := 0, queue := y.queue.map fun (q : Queue) => { q with hostCount := 0 } } else y
        events := mmap d.events fun _ y => if zero y.ctx then { y with hostCount := 0 } else y
        graphs := mmap d.graphs fun _ y => if zero y.ctx then { y with hostCount := 0 } else y }
      countReply (s.setData d.reap) 1 c 0

def execPlotCreate (s : State) := letterRow s (fun l => l.op == 0x0201) effPlotCreate
def execPlotDestroy (s : State) := letterRow s (fun l => l.op == 0x0202) effPlotDestroy
def execPlotDrain (s : State) := letterRow s (fun l => l.op == 0x0203 && l.arg 1 1 == 1) effDrain
def execPlotDrainRelease (s : State) := letterRow s (fun l => l.op == 0x0203 && l.arg 1 1 == 2) effDrainRelease
def execPlotDrainQuery (s : State) := letterRow s (fun l => l.op == 0x0203 && l.arg 1 1 == 3) effDrainQuery
def execCtxCreate (s : State) := letterRow s (fun l => l.op == 0x0301) effCtxCreate
def execCtxRelease (s : State) := letterRow s (fun l => l.op == 0x0302) effCtxRelease
def execMemCreate (s : State) := letterRow s (fun l => l.op == 0x0303 && l.arg 1 1 == 1) effMemCreate
def execMemCreateHostWindow (s : State) := letterRow s (fun l => l.op == 0x0303 && l.arg 1 1 == 2) effMemCreateHw
def execMemRelease (s : State) := letterRow s (fun l => l.op == 0x0304) effMemRelease
def execQueueCreate (s : State) := letterRow s (fun l => l.op == 0x0305) effQueueCreate
def execEventCreate (s : State) := letterRow s (fun l => l.op == 0x0306) effEventCreate
def execPigeonholeCreate (s : State) := letterRow s (fun l => l.op == 0x0309) effPigeonholeCreate
def execMemInvalidate (s : State) := letterRow s (fun l => l.op == 0x030A) effMemInvalidate
def execObjRetain (s : State) := letterRow s (fun l => l.op == 0x030B) effObjRetain
def execObjRelease (s : State) := letterRow s (fun l => l.op == 0x030C) effObjRelease

end Sys2Proof.Machine
end

