-- ==== Sys2Proof/Machine/Fabric.lean ====
section
/-! DEFINITION. The fabric's operations: routes, connections, packets sent, acknowledged and lost, failover, and what a lost
packet ends (09 R263, R271-R287). -/

namespace Sys2Proof.Machine

/-! ### Routes (R282, Table 9) -/

def rtClass (e : BitVec 64) : Nat := e.toNat % 4
def rtPort0 (e : BitVec 64) : Nat := e.toNat / 2 ^ 2 % 32
def rtPort1 (e : BitVec 64) : Nat := e.toNat / 2 ^ 7 % 32
def rtAlt0 (e : BitVec 64) : Nat := e.toNat / 2 ^ 12 % 32
def rtAlt1 (e : BitVec 64) : Nat := e.toNat / 2 ^ 17 % 32

/-- The bank that routes packets of a parity. -/
def Fabric.bank (f : Fabric) (parity : Bool) : SMap (BitVec 64) := if parity then f.bank1 else f.bank0

def Fabric.route (f : Fabric) (parity : Bool) (node : Nat) : BitVec 64 := mgetD (f.bank parity) node 0

/-- A port that carries packets now: trained, its verdict OK or DEGRADED, and neither retraining nor under a pass. -/
def Fabric.portUp (f : Fabric) (k : Nat) : Bool :=
  let l := f.link k
  l.trained && l.carries && l.training.isNone && l.passSince.isNone

/-- R274: the connection class of a packet. -/
def connClass (e : BitVec 64) (agent : Nat) : Nat := if rtPort1 e ≠ 31 ∧ agent % 2 = 1 then 1 else 0

/-- A class's own port. -/
def ownPort (e : BitVec 64) (cls : Nat) : Nat := if cls = 1 ∧ rtPort1 e ≠ 31 then rtPort1 e else rtPort0 e

/-- R283: the port of a connection: its own, or the first that is up of its other class's, ALT0, ALT1. An entry of class NONE or SELF
leads nowhere. -/
def Fabric.choosePort (f : Fabric) (e : BitVec 64) (cls : Nat) : Option Nat :=
  let other := if cls = 1 then rtPort0 e else rtPort1 e
  if rtClass e = 1 ∨ rtClass e = 2 then ((ownPort e cls :: [other, rtAlt0 e, rtAlt1 e]).filter fun k => k != 31).find? f.portUp else none

/-! ### Connections (R273, R283, R284) -/

def Conn.empty : Conn :=
  { txSeq := 0, rxSeq := 0, rxZero := 0, unacked := [], answers := [], held := [], hold := false, moved := none }

/-- Number of a connection. -/
def connKey (node cls : Nat) : Nat := 2 * node + cls

def Fabric.conn (f : Fabric) (k : Nat) : Conn := mgetD f.conns k Conn.empty

def Fabric.setConn (f : Fabric) (k : Nat) (c : Conn) : Fabric := { f with conns := mput f.conns k c }

/-- The other connection of the same node. -/
def sibling (k : Nat) : Nat := if k % 2 = 0 then k + 1 else k - 1

/-- The port that the bank of a parity gives a connection. -/
def Fabric.portFor (f : Fabric) (parity : Bool) (k : Nat) : Option Nat := f.choosePort (f.route parity (k / 2)) (k % 2)

/-- A connection's own port in the active bank. -/
def Fabric.ownOf (f : Fabric) (k : Nat) : Nat := ownPort (f.route f.active (k / 2)) (k % 2)

/-- The port over which a connection's packets leave now. -/
def Fabric.portOf (f : Fabric) (k : Nat) : Option Nat :=
  match (f.conn k).moved with
  | some p => if f.portUp p then some p else f.portFor f.active k
  | none => f.portFor f.active k

/-- Where a connection stands that leaves by port `q`: at its own port, or failed over to `q`. -/
def Fabric.movedTo (f : Fabric) (k : Nat) (q : Option Nat) : Option Nat := if q = some (f.ownOf k) then none else q

/-- A packet leaves on a port; none leaves before the package has a block number (R268). -/
def Body.emitOn (b : Body) (port : Option Nat) (p : Packet) : Body :=
  match port with
  | some k => if b.fab.block.isSome then b.linkPacket k p else b
  | none => b

/-- Inject a packet on its connection now: it takes the next SEQ and the active parity. -/
def Body.inject (b : Body) (beat k : Nat) (p : Packet) : Body :=
  let f := b.fab
  let c := f.conn k
  let q := f.portOf k
  let p := { p with seq := c.txSeq, conn := k % 2, epoch := f.active, src := b.data.node }
  let c := { c with
    txSeq := c.txSeq + 1
    unacked := c.unacked ++ [{ pkt := p, port := q, first := beat, last := beat }]
    moved := f.movedTo k q }
  ({ b with fab := f.setConn k c }).emitOn q p

/-- Send a packet to its node: on its connection, or behind the hold of R284. -/
def Body.send (b : Body) (beat : Nat) (p : Packet) : Body :=
  let k := connKey p.dst (connClass (b.fab.route b.fab.active p.dst) p.agent)
  let c := b.fab.conn k
  if c.hold then { b with fab := b.fab.setConn k { c with held := c.held ++ [p] } } else b.inject beat k p

/-- A hold ends once every packet sent under the old path has been acknowledged, and every packet of the old parity that the node's
other connection sent: a switch may have moved an agent between the two (R279, R284). -/
def Body.unhold (b : Body) (beat k : Nat) : Body :=
  let c := b.fab.conn k
  if c.hold && c.unacked.isEmpty && (b.fab.conn (sibling k)).unacked.all fun s => s.pkt.epoch == b.fab.active then
    c.held.foldl (fun (b : Body) p => b.inject beat k p)
      { b with fab := b.fab.setConn k { c with hold := false, held := [], moved := none } }
  else b

/-- The connection leaves by port `port` now: for new packets, or for some that are not acknowledged. -/
def Fabric.leavesBy (f : Fabric) (port k : Nat) : Bool :=
  let c := f.conn k
  c.moved.getD (f.ownOf k) == port || c.unacked.any fun s => s.port == some port

/-- The ports to which a connection moves away from `port`: for each of its packets by the bank of the packet's parity (R282, R284),
and for those to come. -/
def Fabric.movesTo (f : Fabric) (port k : Nat) : List Nat :=
  let c := f.conn k
  (((c.unacked.filter fun s => s.port == some port).filterMap fun s => f.portFor s.pkt.epoch k) ++
    (if c.moved.getD (f.ownOf k) = port then (f.portFor f.active k).toList else [])).eraseDups

/-- R283: one connection leaves a port. -/
def Body.leavePort (b : Body) (beat port k : Nat) : Body :=
  let f := b.fab
  let c := f.conn k
  let off (s : SentPkt) : Bool := s.port == some port && (f.portFor s.pkt.epoch k).isSome
  let c' := { c with
    moved := if c.moved.getD (f.ownOf k) = port ∧ (f.portFor f.active k).isSome then f.movedTo k (f.portFor f.active k) else c.moved
    unacked := c.unacked.map fun (s : SentPkt) => if off s then { s with last := beat, port := f.portFor s.pkt.epoch k } else s }
  (c.unacked.filter off).foldl (fun (b : Body) s => b.emitOn (f.portFor s.pkt.epoch k) s.pkt) { b with fab := f.setConn k c' }

/-- R283: the connections that use a port that no longer carries packets move, and re-send what is unacknowledged; what waited there
for credits goes with them. The record gives the port, the connections moved and their new ports. -/
def Body.failover (b : Body) (beat port : Nat) : Body :=
  let b := b.setLink port { b.fab.link port with waiting := [] }
  let ks := (b.fab.conns.map fun e => e.1).filter fun k => b.fab.leavesBy port k
  let moved := ks.filter fun k => b.fab.movesTo port k != []
  let new := (moved.flatMap fun k => b.fab.movesTo port k).eraseDups
  let b := ks.foldl (fun (b : Body) k => b.leavePort beat port k) b
  if moved = [] then b
  else b.post 0x0307 (7 + 256 * (0x80 + port)) ([(port, 0), (moved.length, 0)] ++ new.map fun q => (q, 0))

/-- R283: a port carries packets again: connections return to it under the hold rule. -/
def Body.comeBack (b : Body) (beat port : Nat) : Body :=
  let back (e : Nat × Conn) : Bool := e.2.moved.isSome && b.fab.ownOf e.1 == port
  ((b.fab.conns.filter back).map fun e => e.1).foldl (fun (b : Body) k =>
    ({ b with fab := b.fab.setConn k { b.fab.conn k with hold := true } }).unhold beat k) b

/-! ### Packets -/

/-- A header with everything zero but these (Table 6). -/
def mkPkt (type dst tag offset agent reqId : Nat) (data : List Byte) : Packet :=
  { type := type, epoch := false, flag := false, masked := false, ro := false, fwd := false, pm := false, dst := dst, src := 0,
    tag := tag, offset := offset % 2 ^ 40, len := data.length, seq := 0, agent := agent, reqId := reqId % 2 ^ 32,
    hops := if type ≤ 8 then 2 else 15, aop := 0, ty := 0, status := 0, conn := 0, mask := [], data := data }

/-- SRC_AGENT. -/
def coreAgent (c : Nat) : Nat := 4096 + c
def engAgent (n : Nat) : Nat := (if n < 128 then (if n / 8 % 2 = 0 then 2 else 3) else 4) * 4096 + n

def Data.tagOf (d : Data) (plot : Nat) : Nat := ((mget d.plots plot).map fun p => p.tag).getD 0

/-- Kinds of a packet. -/
def isReqType (t : Nat) : Bool := t == 1 || t == 3 || t == 5 || t == 7
def isRspType (t : Nat) : Bool := t == 2 || t == 4 || t == 6 || t == 8
def isMsgType (t : Nat) : Bool := decide (9 ≤ t) && decide (t ≤ 12)

/-- R275: why a memory operation of a plot towards a node ends without being sent. -/
def Body.sendFault (b : Body) (plot node : Nat) (mem : Bool) : Option FaultClass :=
  match mget b.data.plots plot with
  | none => some .carveOut
  | some p =>
    if p.pruned.contains node then some .nodeGone
    else if !p.mem.contains node then some .carveOut
    else
      let c := rtClass (b.fab.route b.fab.active node)
      if c = 1 ∨ (c = 2 ∧ !mem) then none else some .fabricLost

/-! ### Operations that end (R273, R287) -/

/-- Status code of an engine for a late class (07 Table 6). -/
def engStatus (c : FaultClass) : Nat :=
  match c with
  | .dataLost => 2
  | .nodeGone => 3
  | .fabricLost => 4
  | .align => 6
  | _ => 1

/-- What comes for an engine's run: an entry of `outs` is answered. What a collective sent (keys from 2^66 on) leaves nothing
but its failure. -/
def EngRun.answer (r : EngRun) (reqId status : Nat) (data : List Byte) : EngRun :=
  match r.outs.find? fun o => o.1 % 2 ^ 32 == reqId with
  | some o =>
    let r := { r with outs := r.outs.filter fun x => x.1 != o.1 }
    if o.2 < 2 ^ 66 then { r with got := r.got ++ [(o.2, status, data)] }
    else if status ≠ 0 ∧ r.phase = 0 ∧ r.status = 0 then { r with status := status, firstBad := r.done, phase := 1 }
    else r
  | none => r

/-- The same, over every engine. -/
def Data.engAnswer (d : Data) (reqId status : Nat) (data : List Byte) : Data :=
  { d with engines := mmap d.engines fun _ (e : Engine) => { e with running := e.running.map fun r => r.answer reqId status data } }

/-- A line request ends. -/
def Data.endReq (d : Data) (reqId : Nat) (st : ReqStage) : Data :=
  { d with reqs := d.reqs.map fun r => if r.id % 2 ^ 32 = reqId ∧ r.stage = .attached then { r with stage := st } else r }

/-- A fill of a remote line ends: every request attached to it does. -/
def Data.endFill (d : Data) (reqId : Nat) (st : ReqStage) : Data :=
  match d.fills.find? fun f => f.remote.isSome && f.id % 2 ^ 32 == reqId with
  | some f =>
    { d with
      fills := d.fills.filter fun g => g.id != f.id
      reqs := d.reqs.map fun r => if f.reqs.contains r.id ∧ r.stage = .attached then { r with stage := st } else r }
  | none => d

/-- The operation that sent a packet ends with a class. -/
def Data.lost_ (d : Data) (cls : FaultClass) (p : Packet) : Data :=
  if isRspType p.type then d
  else ((d.endReq p.reqId (.failed cls)).endFill p.reqId (.failed cls)).engAnswer p.reqId (engStatus cls) []

/-- A request acknowledged 10,000 beats ago to which no route leads any more. -/
def answerDead (f : Fabric) (k beat : Nat) (x : SentPkt) : Bool := decide (x.first + 10000 ≤ beat) && (f.portOf k).isNone

/-- R273: what is abandoned with a connection: the first request that will never be answered and all later ones, and every packet not
acknowledged or not yet sent. -/
def Fabric.lostPkts (f : Fabric) (k beat : Nat) : List Packet :=
  let c := f.conn k
  ((c.answers.dropWhile fun x => !answerDead f k beat x) ++ c.unacked).map (fun s => s.pkt) ++ c.held

/-- R273: abandon a connection: the operations of these packets end with FABRIC_LOST, it starts anew, and they are counted for the
node. -/
def Body.abandon (b : Body) (beat k : Nat) : Body :=
  let c := b.fab.conn k
  let ps := b.fab.lostPkts k beat
  let d := ps.foldl (fun (d : Data) p => d.lost_ .fabricLost p) b.data
  let keep := c.answers.takeWhile fun x => !answerDead b.fab k beat x
  ({ b with
    data := d
    fab := b.fab.setConn k { c with answers := keep, unacked := [], held := [], hold := false, txSeq := 0, moved := none }
    log := if ps = [] then b.log else b.log.tallyFor beat 0x030A 0 (k / 2) ps.length [(k / 2, 0), (k % 2, 0), (0, 102)] }).unhold beat (sibling k)

/-! ### Acknowledgements -/

/-- A packet's SEQ is covered by an acknowledgement. -/
def seqCovered (seq ack : BitVec 32) : Bool := decide (0 ≤ (ack - seq).toInt)

/-- A TACK up to and including SEQ `ack`: messages are done, requests await their answers. -/
def Body.tack (b : Body) (beat k : Nat) (ack : BitVec 32) : Body :=
  let c := b.fab.conn k
  let done := c.unacked.filter fun s => seqCovered s.pkt.seq ack
  let c := { c with
    unacked := c.unacked.filter fun s => !seqCovered s.pkt.seq ack
    answers := c.answers ++ done.filter fun s => isReqType s.pkt.type }
  let d := (done.filter fun s => isMsgType s.pkt.type).foldl (fun (d : Data) s => d.engAnswer s.pkt.reqId 0 []) b.data
  (({ b with data := d, fab := b.fab.setConn k c }).unhold beat k).unhold beat (sibling k)

/-- The acknowledgement of what a connection has accepted, sent to its peer. -/
def Body.sendTack (b : Body) (p : Packet) : Body :=
  let c := b.fab.conn (connKey p.src p.conn)
  let t := { mkPkt 13 p.src 0 0 0 0 [] with seq := c.rxSeq - 1, conn := p.conn, epoch := p.epoch, src := b.data.node }
  b.emitOn (b.fab.choosePort (b.fab.route p.epoch p.src) p.conn) t

end Sys2Proof.Machine
end

