-- ==== Sys2Proof/Machine/Engines.lean ====
section
/-! DEFINITION. Couriers, gleaners and the copies of relays: descriptor checks, the line requests by which they read and write,
rows, postmarks, and completion (07 R221-R232; 08 R241-R243, R261; 09 R289). -/

namespace Sys2Proof.Machine

/-! ### Descriptors (07 Tables 4 and 5) -/

def EngDesc.f (e : EngDesc) (o n : Nat) : Nat := field e.bytes o n

/-- The engine's view of addresses (08 Table 2, R243). -/
def EngDesc.agent (e : EngDesc) : Agent := { kind := .engine, plot := e.plot, forerunner := false, own := e.own }

/-- COMP_KIND, COMP_ID and COMP_N of a courier or gleaner. -/
def compOk (e : EngDesc) : Bool :=
  match e.f 3 1 with
  | 0 => e.f 4 2 == 0 && e.f 6 2 == 0
  | 1 => decide (e.f 4 2 < 4096) && e.f 6 2 == 0
  | 2 => decide (e.f 4 2 < 1024)
  | 3 => decide (e.f 4 2 < 256)
  | _ => false

/-- COMP_KIND, COMP_ID and COMP_N of a relay (09 Table 15). A RING_PASS rings COMP_ID whatever its COMP_KIND. -/
def relayComp (e : EngDesc) : Bool :=
  let op := e.f 0 1
  match e.f 3 1 with
  | 0 => (if op = 8 then decide (e.f 4 2 < 4096) else e.f 4 2 == 0) && e.f 6 2 == 0
  | 1 => decide (e.f 4 2 < 4096) && e.f 6 2 == 0
  | 3 => decide (e.f 4 2 < 256)
  | 4 => op == 1 && decide (e.f 4 2 < 4096) && e.f 6 2 == 0
  | _ => false

def fmt13 (k : Nat) : Bool := decide (1 ≤ k) && decide (k ≤ 3)

/-- A courier's fields (Table 4). -/
def courierOk (e : EngDesc) : Bool :=
  let op := e.f 0 1
  decide (1 ≤ op) && decide (op ≤ 3) && decide (e.f 1 1 < 2) &&
    (if op = 3 then fmt13 (e.f 2 1 % 16) && fmt13 (e.f 2 1 / 16) else e.f 2 1 == 0) && compOk e &&
    (op != 2 || decide (e.f 8 8 < 2 ^ 32)) && decide (4 ≤ e.f 24 4) && decide (e.f 24 4 ≤ 16777216) && e.f 24 4 % 4 == 0 &&
    decide (1 ≤ e.f 28 4) && decide (e.f 28 4 ≤ 1048576) && e.f 48 8 % 32 == 0 && e.f 56 8 == 0

/-- A gleaner's fields (Table 5). -/
def gleanerOk (e : EngDesc) : Bool :=
  let op := e.f 0 1
  decide (1 ≤ op) && decide (op ≤ 2) && decide (e.f 1 1 < 8) && e.f 2 1 == 0 && compOk e && decide (1 ≤ e.f 32 4) &&
    decide (e.f 32 4 ≤ 16777216) && decide (4 ≤ e.f 36 4) && decide (e.f 36 4 ≤ 65536) && e.f 36 4 % 4 == 0 &&
    (op != 2 || (e.f 16 8 == 0 && e.f 40 8 == 0)) && e.f 48 8 % 32 == 0 && decide (e.f 36 4 ≤ e.f 56 4) && e.f 60 4 == 0

/-- 64-bit list entries. -/
def wideList (e : EngDesc) : Bool := e.f 0 1 == 2 || e.f 1 1 / 2 % 2 == 1

/-- Alignment (R224). -/
def courierAligned (e : EngDesc) : Bool :=
  (e.f 0 1 == 2 || (e.f 8 8 % 4 == 0 && e.f 32 8 % 4 == 0)) && e.f 16 8 % 4 == 0 && e.f 40 8 % 4 == 0

def gleanerAligned (e : EngDesc) : Bool :=
  e.f 8 8 % (if wideList e then 8 else 4) == 0 && e.f 16 8 % 4 == 0 && e.f 24 8 % 4 == 0 && e.f 40 8 % 4 == 0 && e.f 56 4 % 4 == 0

/-- Class of an engine number: 0 courier, 1 gleaner, 2 relay. -/
def engClass (n : Nat) : Nat := if 128 ≤ n then 2 else n / 8 % 2

/-! ### Where an engine's addresses lead (08 R243) -/

/-- An address in the own-region window. One that a descriptor names was translated before the descriptor entered its queue; no
other is. -/
def ownNamed (d : Data) (a : Nat) : Bool :=
  a / 2 ^ 40 == d.node && decide (0x8020000000 ≤ a % 2 ^ 40) && decide (a % 2 ^ 40 < 0x8020080000)

/-- Where byte `a` lives that an engine reaches from an address of its descriptor; `own`: that address named the own-region
window, so that `a` is a byte of the issuer's bench region or lies beyond it. -/
def EngDesc.at_ (e : EngDesc) (d : Data) (own : Bool) (a : Nat) : Except FaultClass Place :=
  if own then ownBench e.agent ((a + 2 ^ 65 - (d.node * 2 ^ 40 + 0x8020000000)) % 2 ^ 64)
  else place d { e.agent with own := none } a

/-- Cut `k` bytes from `a` on at multiples of `u`: address and length of each part. -/
def parts (u a k : Nat) : List (Nat × Nat) :=
  if k = 0 then []
  else (List.range ((a % u + k + u - 1) / u)).map fun i =>
    let lo := if i = 0 then a else (a / u + i) * u
    (lo, min ((a / u + i + 1) * u) (a + k) - lo)

/-! ### Reads (R221, R224) -/

/-- Key of the line of address `a` among what a run reads. -/
def lineKey (a : Nat) : Nat := 2 ^ 58 + a / 128

/-- Key of the answer to a write of row `i`. -/
def rowKey (i : Nat) : Nat := 2 ^ 64 + i

/-- Key and size of the unit in which engine `n` reads byte `a`, which lives at `p`: a line; a relay's 4 KiB of another
package. -/
def readUnit (n : Nat) (p : Place) (a : Nat) : Nat × Nat :=
  match p with
  | .remote _ => if 128 ≤ n then (a / 4096, 4096) else (lineKey a, 128)
  | _ => (lineKey a, 128)

/-- Where a unit begins: a relay asks another package for exactly what its GET copies of each 4 KiB. -/
def unitFrom (n : Nat) (run : EngRun) (p : Place) (a : Nat) : Nat :=
  let u := (readUnit n p a).2
  if u = 4096 then max (a / 4096 * 4096) (run.desc.f 16 8) else a / u * u

/-- What a run has read of the unit of byte `a`, from that byte on; or the status with which it ends there. -/
def engPart (d : Data) (n : Nat) (run : EngRun) (own : Bool) (a : Nat) : Except Nat (List Byte) :=
  match run.desc.at_ d own a with
  | .error c => .error (engStatus c)
  | .ok p =>
    match run.got.find? fun g => g.1 == (readUnit n p a).1 with
    | some (_, 0, l) => .ok (l.drop (a - unitFrom n run p a))
    | some (_, st, _) => .error st
    | none => .error 4

/-- `k` bytes from address `a` as the run has read them: the bytes, or the ones before the first line that fails, and the
status. -/
def engBytes (d : Data) (n : Nat) (run : EngRun) (own : Bool) (a k : Nat) : List Byte × Nat :=
  (parts 128 a k).foldl (fun (r : List Byte × Nat) x =>
    if r.2 ≠ 0 then r
    else match engPart d n run own x.1 with
      | .ok l => (r.1 ++ (List.range x.2).map fun i => l.getD i 0, 0)
      | .error st => (r.1, st)) ([], 0)

/-- The run has read a range, as far as it can be read. -/
def haveIn (d : Data) (n : Nat) (run : EngRun) (own : Bool) (a k : Nat) : Bool :=
  (parts 128 a k).all fun x => match run.desc.at_ d own x.1 with
    | .ok p => run.got.any fun g => g.1 == (readUnit n p x.1).1
    | .error _ => true

/-- The units of a range that the run has neither read nor asked for: key and address. -/
def needIn (d : Data) (n : Nat) (run : EngRun) (own : Bool) (a k : Nat) : List (Nat × Nat × Bool) :=
  ((parts 128 a k).filterMap fun x => match run.desc.at_ d own x.1 with
    | .ok p =>
      let u := readUnit n p x.1
      if run.got.any (fun g => g.1 == u.1) || run.outs.any (fun o => o.2 == u.1) then none else some (u.1, unitFrom n run p x.1, own)
    | .error _ => none).eraseDups

/-- A run's packet: it waits for the answer under `key`. -/
def sendFor (b : Body) (beat : Nat) (run : EngRun) (key : Nat) (p : Packet) : Body × EngRun :=
  let id := b.data.nextId
  let b := { b with data := { b.data with nextId := id + 1 } }
  (b.send beat { p with reqId := id % 2 ^ 32 }, { run with outs := run.outs ++ [(id, key)] })

/-- A run's line request: it waits for the answer under `key`. -/
def askLine (b : Body) (n : Nat) (run : EngRun) (key a : Nat) (p : Place) (op : LineOp) : Body × EngRun :=
  let d := b.data
  let r : LineReq :=
    { id := d.nextId, core := engCore n, slot := 0, iseq := 0, age := 0, plot := run.desc.plot, pc := 0, opcode := 0, addr := a / 128 * 128,
      tgt := tgtOf p, op := op, lanes := [], stage := .waiting, pre := none, rem := none, accepted := none }
  ({ b with data := { d with nextId := d.nextId + 1, reqs := d.reqs ++ [r] } }, { run with outs := run.outs ++ [(r.id, key)] })

/-- Ask for one unit: a line request, or a relay's BULK_READ of another package. -/
def askUnit (beat n : Nat) (r : Body × EngRun) (x : Nat × Nat × Bool) : Body × EngRun :=
  let (b, run) := r
  match run.desc.at_ b.data x.2.2 x.2.1 with
  | .error _ => r
  | .ok (.remote node) =>
    if n < 128 then askLine b n run x.1 x.2.1 (.remote node) (.load (run.desc.f 1 1 % 2 == 1) false 0 0 false)
    else match b.sendFault run.desc.plot node true with
      | some c => (b, { run with got := run.got ++ [(x.1, engStatus c, [])] })
      | none =>
        sendFor b beat run x.1 { mkPkt 7 node (b.data.tagOf run.desc.plot) x.2.1 (engAgent n) 0 [] with
          ro := run.desc.f 1 1 % 2 == 1, len := min (x.2.1 / 4096 * 4096 + 4096) (run.desc.f 16 8 + run.desc.f 24 4) - x.2.1 }
  | .ok p => askLine b n run x.1 x.2.1 p (.load false false 0 0 false)

/-- Reads that the run has outstanding. -/
def EngRun.readsOut (run : EngRun) : Nat := (run.outs.filter fun o => decide (o.2 < 2 ^ 64)).length

/-- Ask for units while fewer than 512 reads are outstanding (R221). -/
def askAll (b : Body) (beat n : Nat) (run : EngRun) (l : List (Nat × Nat × Bool)) : Body × EngRun :=
  (l.take (512 - run.readsOut)).foldl (askUnit beat n) (b, run)

/-- Hand an engine's requests that are over to the runs that made them. -/
def Data.absorb (d : Data) : Data :=
  (d.reqs.filter fun r => r.ofEngine && r.over).foldl (fun (d : Data) r => match r.stage with
    | .returned l _ => d.engAnswer (r.id % 2 ^ 32) 0 l
    | .failed c => d.engAnswer (r.id % 2 ^ 32) (engStatus c) []
    | _ => d.engAnswer (r.id % 2 ^ 32) 0 []) { d with reqs := d.reqs.filter fun r => !(r.ofEngine && r.over) }

/-! ### Rows -/

/-- One row: where its bytes come from (none: a fill), how many, where they go, whether it is skipped, and whether either
address was reached from one in the own-region window. -/
structure Row where
  src : Option Nat
  srcOwn : Bool
  dst : Nat
  dstOwn : Bool
  n : Nat
  bad : Nat
  skip : Bool

def wrap64 (x : Nat) : Nat := x % 2 ^ 64

/-- The rows of a courier. -/
def courierRows (d : Data) (e : EngDesc) : List Row :=
  (List.range (e.f 28 4)).map fun i =>
    { src := if e.f 0 1 = 2 then none else some (wrap64 (e.f 8 8 + i * e.f 32 8)), srcOwn := ownNamed d (e.f 8 8),
      dst := wrap64 (e.f 16 8 + i * e.f 40 8), dstOwn := ownNamed d (e.f 16 8), n := e.f 24 4, bad := 0, skip := false }

/-- Bytes of a list entry, and of a gleaner's list. -/
def entrySize (e : EngDesc) : Nat := if wideList e then 8 else 4
def listSize (e : EngDesc) : Nat := entrySize e * e.f 32 4

/-- The rows of a gleaner, from its list as read. An entry of all ones is skipped before anything else is made of it; an address
of the list is not translated, one reached from BASE is when BASE was. -/
def gleanerRows (d : Data) (n : Nat) (run : EngRun) : List Row :=
  let e := run.desc
  let w := entrySize e
  (List.range (e.f 32 4)).map fun i =>
    let (l, st) := engBytes d n run (ownNamed d (e.f 8 8)) (e.f 8 8 + w * i) w
    let x := leNat l
    let src := if e.f 0 1 = 1 then wrap64 (e.f 16 8 + x * e.f 40 8) else x
    { src := some src, srcOwn := e.f 0 1 == 1 && ownNamed d (e.f 16 8), dst := wrap64 (e.f 24 8 + i * e.f 56 4),
      dstOwn := ownNamed d (e.f 24 8), n := e.f 36 4, bad := if st ≠ 0 then st else if src % 4 ≠ 0 then 6 else 0,
      skip := st == 0 && e.f 1 1 / 4 % 2 == 1 && x == 2 ^ (8 * w) - 1 }

/-- The rows of a relay's PUT or GET: the 4 KiB units of its output (09 R289), cut where the source crosses a multiple of 4,096, so
that a whole tile of it goes as one. -/
def relayRows (d : Data) (e : EngDesc) : List Row :=
  let s := if e.f 0 1 = 1 then e.f 8 8 else e.f 16 8
  let t := if e.f 0 1 = 1 then e.f 16 8 else e.f 8 8
  (parts 4096 s (e.f 24 4)).map fun x =>
    { src := some x.1, srcOwn := ownNamed d s, dst := wrap64 (t + (x.1 - s)), dstOwn := ownNamed d t, n := x.2, bad := 0, skip := false }

def rowsOf (d : Data) (n : Nat) (run : EngRun) : List Row :=
  match engClass n with
  | 0 => courierRows d run.desc
  | 1 => gleanerRows d n run
  | _ => relayRows d run.desc

/-- A gleaner's list has been read. -/
def listRead (d : Data) (n : Nat) (run : EngRun) : Bool :=
  engClass n != 1 || haveIn d n run (ownNamed d (run.desc.f 8 8)) (run.desc.f 8 8) (listSize run.desc)

/-- The units that a descriptor has still to ask for: those of its list first, then those of its sources. -/
def needsOf (d : Data) (n : Nat) (run : EngRun) : List (Nat × Nat × Bool) :=
  if listRead d n run then
    ((rowsOf d n run).flatMap fun r => match r.src with
      | some a => if r.bad = 0 ∧ !r.skip then needIn d n run r.srcOwn a r.n else []
      | none => []).eraseDups
  else needIn d n run (ownNamed d (run.desc.f 8 8)) (run.desc.f 8 8) (listSize run.desc)

/-- Everything that the descriptor reads has been read. -/
def allRead (d : Data) (n : Nat) (run : EngRun) : Bool :=
  listRead d n run && (rowsOf d n run).all fun r => match r.src with
    | some a => r.bad != 0 || r.skip || haveIn d n run r.srcOwn a r.n
    | none => true

/-- CONVERT's bytes (06 R184): each element rounded to nearest even. -/
def convertRow (src dst : FFmt) : List Byte → List Byte
  | [] => []
  | a :: b :: r =>
    if src.width = 16 then natLe (dst.width / 8) (encodeF dst .rne (decodeF src (leNat [a, b]))) ++ convertRow src dst r
    else match r with
      | c :: e :: r => natLe (dst.width / 8) (encodeF dst .rne (decodeF src (leNat [a, b, c, e]))) ++ convertRow src dst r
      | _ => []
  | _ => []

/-- The bytes a row writes. -/
def rowOut (n : Nat) (e : EngDesc) (r : Row) (l : List Byte) : List Byte :=
  if engClass n = 0 then
    match e.f 0 1 with
    | 2 => (List.range r.n).map fun i => BitVec.ofNat 8 (e.f 8 8 / 2 ^ (8 * (i % 4)))
    | 3 => match ffmt (e.f 2 1 % 16), ffmt (e.f 2 1 / 16) with
      | some a, some b => convertRow a b l
      | _, _ => l
    | _ => l
  else l

/-! ### Postmarks (R231, R232) -/

/-- Tiles of postmarked objects of a plot that a range of `n` bytes from `a` on touches: object, tile number, whether the
range covers the tile. -/
def tilesOf (d : Data) (plot a n : Nat) : List (MemObj × Nat × Bool) :=
  if a / 2 ^ 40 ≠ d.node then []
  else
    let o := a % 2 ^ 40
    (d.objs.filter fun m => m.plot == plot && m.postmark && decide (m.base < o + n) && decide (o < m.base + m.size)).flatMap fun m =>
      let lo := (max o m.base - m.base) / 4096
      let hi := (min (o + n) (m.base + m.size) - m.base + 4095) / 4096
      (List.range (hi - lo)).map fun i =>
        let t := lo + i
        (m, t, decide (o ≤ m.base + 4096 * t) && decide (m.base + 4096 * t + 4096 ≤ o + n))

/-- Bytes of tile `t` within what a range read. -/
def tileBytes (a : Nat) (m : MemObj) (t : Nat) (l : List Byte) : List Byte := (l.drop (m.base + 4096 * t - a % 2 ^ 40)).take 4096

/-- A tile read in full with VALID set is verified. -/
def tileVerdict (a : Nat) (x : MemObj × Nat × Bool) (l : List Byte) : Option (Bool × Mark × (W32 × W32)) :=
  match mget x.1.marks x.2.1 with
  | some k =>
    if x.2.2 && k.valid then
      let r := markOf (tileBytes a x.1 x.2.1 l)
      some (decide (r = (k.sum, k.wsum)), k, r)
    else none
  | none => none

/-- Where an engine is: UNIT, DIE and ENGINE of Table 7. -/
def engPlace (n : Nat) : Nat × Nat × Nat := if 128 ≤ n then (3, 8 + (n - 128) / 8, n % 8) else (1 + n / 8 % 2, n / 16, n % 8)

def engIdOf (n : Nat) : EngineId :=
  if 128 ≤ n then .relay (decide (136 ≤ n)) (n % 8) else if n / 8 % 2 = 0 then .courier (n / 16) (n % 8) else .gleaner (n / 16) (n % 8)

/-- POSTMARK_MISMATCH (Table 7), counted for the engine and the tile's first channel (15 R419). -/
def postMismatch (b : Body) (beat n plot ctx tileAddr : Nat) (k : Mark) (r : W32 × W32) (desc : Nat) : Body :=
  let p := engPlace n
  let b := b.post 0x0208 (6 + 256 * unitCode (.engine (engIdOf n)))
    [(p.1, 1), (p.2.1, 1), (p.2.2, 1), (plot, 1), (ctx, 2), (0, 2), (tileAddr, 8), (k.sum.toNat, 4), (k.wsum.toNat, 4),
     (r.1.toNat, 4), (r.2.toNat, 4), (desc, 8)]
  countPostmark b beat (engIdOf n) (((b.data.physAt plot (tileAddr % 2 ^ 40)).map physChan).getD 512)

/-- Count what a row read, and report its mismatches. -/
def readMarks (b : Body) (beat n : Nat) (run : EngRun) (a : Nat) (l : List Byte) : Body × EngRun :=
  (tilesOf b.data run.desc.plot a l.length).foldl (fun (acc : Body × EngRun) x =>
    let (b, run) := acc
    match tileVerdict a x l with
    | some (true, _, _) => (b, { run with pmChecked := run.pmChecked + 1 })
    | some (false, k, r) =>
      (postMismatch b beat n run.desc.plot run.desc.ctx (b.data.node * 2 ^ 40 + x.1.base + 4096 * x.2.1) k r run.desc.addr.toNat,
        { run with pmMismatch := run.pmMismatch + 1 })
    | none => (b, { run with pmUnchecked := run.pmUnchecked + 1 })) (b, run)

/-- The postmarks that a row's bytes give the tiles that it writes in full; every write has cleared VALID at its home. -/
def rowMarks (d : Data) (plot row a : Nat) (l : List Byte) : List (Nat × Nat × Nat × Mark) :=
  ((tilesOf d plot a l.length).filter fun x => x.2.2).map fun x =>
    let r := markOf (tileBytes a x.1 x.2.1 l)
    (row, x.1.base, x.2.1, { sum := r.1, wsum := r.2, valid := true })

/-- Rows that a write failed in. -/
def EngRun.badRows (r : EngRun) : List (Nat × Nat) :=
  r.got.filterMap fun g => if rowKey 0 ≤ g.1 ∧ g.1 < rowKey (2 ^ 63) ∧ g.2.1 ≠ 0 then some (g.1 - rowKey 0, g.2.1) else none

/-- Store the postmarks of the rows written in full. -/
def storeMarks (d : Data) (r : EngRun) : Data :=
  (r.marks.filter fun m => !r.badRows.any fun x => x.1 == m.1).foldl (fun (d : Data) m =>
    { d with objs := d.objs.map fun (o : MemObj) => if o.base = m.2.1 ∧ o.plot = r.desc.plot then { o with marks := mput o.marks m.2.2.1 m.2.2.2 } else o }) d

/-! ### Writes -/

/-- The host path of a plot's window is usable: its port is up, and its VF, if it has one, is enabled and not in reset. -/
def hostPath (b : Body) (plot : Nat) (hb : Bool) : Bool :=
  let p : HostPort := if hb then .hb else .ha
  (b.host.port p).up && match (mget b.data.plots plot).bind fun q => q.vf with
    | some (_, n) => (b.host.port p).vfEnable && !(b.host.fn (.vf p n)).inFlr
    | none => true

/-- Why an engine starts no write to a line: 0 for none. What its home finds comes with the answer. -/
def wrStatus (b : Body) (n : Nat) (e : EngDesc) (own : Bool) (a : Nat) : Nat :=
  match e.at_ b.data own a with
  | .error c => engStatus c
  | .ok (.host _ _ false) => 1
  | .ok (.remote node) => if n < 128 then 0 else ((b.sendFault e.plot node false).map engStatus).getD 0
  | .ok _ => 0

/-- The bytes of a write of `k` bytes at `a` that come before the first line it cannot write, and the status there. -/
def wrCheck (b : Body) (n : Nat) (e : EngDesc) (own : Bool) (a k : Nat) : Nat × Nat :=
  (parts 128 a k).foldl (fun (r : Nat × Nat) x =>
    if r.2 ≠ 0 then r
    else match wrStatus b n e own x.1 with
      | 0 => (r.1 + x.2, 0)
      | st => (r.1, st)) (0, 0)

/-- A BULK_WRITE of a relay; with PM set and its postmark behind the data when it carries a whole tile that was verified at
the source `src` (09 R289). -/
def bulkPkt (d : Data) (n : Nat) (e : EngDesc) (node tag a : Nat) (src : Option Nat) (l : List Byte) : Packet :=
  let p := mkPkt 9 node tag a (engAgent n) 0 l
  let tile := src.bind fun s => if l.length = 4096 then
      (tilesOf d e.plot s 4096).findSome? fun x => match tileVerdict s x l with
        | some (true, k, _) => some k
        | _ => none
    else none
  match tile with
  | some k => { p with pm := true, data := l ++ natLe 4 k.sum.toNat ++ natLe 4 k.wsum.toNat }
  | none => p

/-- Write bytes at `a` for row `i`: a masked store to each line (08 R261), or a relay's BULK_WRITE to another package, which
passes the copies of its lines (R219). -/
def writeRange (b : Body) (beat n : Nat) (run : EngRun) (i : Nat) (own : Bool) (a : Nat) (src : Option Nat) (l : List Byte) :
    Body × EngRun :=
  let far := match run.desc.at_ b.data own a with
    | .ok (.remote node) => if 128 ≤ n ∧ l ≠ [] then some node else none
    | _ => none
  match far with
  | some node =>
    let d := (parts 128 a l.length).foldl (fun (d : Data) x => d.dropCopies (x.1 / 128)) b.data
    sendFor { b with data := d } beat run (rowKey i) (bulkPkt d n run.desc node (d.tagOf run.desc.plot) a src l)
  | none =>
    (parts 128 a l.length).foldl (fun (r : Body × EngRun) x => match run.desc.at_ b.data own x.1 with
      | .ok p => askLine r.1 n r.2 (rowKey i) x.1 p (.store ((List.range x.2).map fun k => (x.1 % 128 + k, l.getD (x.1 - a + k) 0)))
      | .error _ => r) (b, run)

/-- Byte `x`, which lives at `p`, is one of the `m` bytes from byte `y` on, which live from `q` on. -/
def within (p q : Place) (x y m : Nat) : Bool :=
  match p, q with
  | .bench a, .bench c | .phys a, .phys c => decide (c ≤ a) && decide (a < c + m)
  | .host h a _, .host k c _ => h == k && decide (c ≤ a) && decide (a < c + m)
  | .remote a, .remote c => a == c && decide (y ≤ x) && decide (x < y + m)
  | _, _ => false

/-- R222: bytes of the destination that the descriptor also reads are undefined afterwards: what a row writes there is open. -/
def blur (d : Data) (e : EngDesc) (srcs : List (Place × Nat × Nat)) (own : Bool) (a : Nat) (l : List Byte) : Data × List Byte :=
  let hit (i : Nat) : Bool := match e.at_ d own (a + i) with
    | .ok p => srcs.any fun s => within p s.1 (a + i) s.2.1 s.2.2
    | .error _ => false
  if (List.range l.length).any hit then
    ({ d with free := d.free + l.length }, (l.zipIdx).map fun x => if hit x.2 then Config.freeByte (d.free + x.2) else x.1)
  else (d, l)

/-- Where the bytes live that a descriptor's rows read: place, address and length of each part of a line. -/
def srcParts (d : Data) (e : EngDesc) (rows : List Row) : List (Place × Nat × Nat) :=
  rows.flatMap fun r => match r.src with
    | some a => if r.bad ≠ 0 ∨ r.skip then [] else (parts 128 a r.n).filterMap fun x => match e.at_ d r.srcOwn x.1 with
      | .ok p => some (p, x)
      | .error _ => none
    | none => []

/-- Execute one row: its status, the body and the run after it. -/
def runRow (b : Body) (beat n : Nat) (srcs : List (Place × Nat × Nat)) (run : EngRun) (i : Nat) (r : Row) : Body × EngRun × Nat :=
  if r.skip then (b, run, 0)
  else if r.bad ≠ 0 then (b, run, r.bad)
  else
    let (l, st) := match r.src with
      | some a => engBytes b.data n run r.srcOwn a r.n
      | none => ([], 0)
    let out := rowOut n run.desc r l
    let (k, ws) := wrCheck b n run.desc r.dstOwn r.dst out.length
    let (b, run) := match r.src with
      | some a => readMarks b beat n run a l
      | none => (b, run)
    if st = 0 ∧ ws = 0 then
      let (d, out) := blur b.data run.desc srcs r.dstOwn r.dst out
      let run := { run with done := run.done + 1, marks := run.marks ++ rowMarks d run.desc.plot i r.dst out }
      let (b, run) := writeRange { b with data := d } beat n run i r.dstOwn r.dst r.src out
      (b, run, 0)
    else
      -- the row in error may be partly written (R225): how many of its bytes is open
      let part := out.take (Config.choice b.data.free % (min k out.length + 1))
      let (d, part) := blur { b.data with free := b.data.free + 1 } run.desc srcs r.dstOwn r.dst part
      let (b, run) := writeRange { b with data := d } beat n run i r.dstOwn r.dst none part
      (b, run, if st ≠ 0 then st else ws)

/-- Execute rows in order until one fails. -/
def runRows (b : Body) (beat n : Nat) (srcs : List (Place × Nat × Nat)) : EngRun → List (Row × Nat) → Body × EngRun
  | run, [] => (b, run)
  | run, (r, i) :: rs =>
    let (b', run', st) := runRow b beat n srcs run i r
    if st = 0 then runRows b' beat n srcs run' rs else (b', { run' with status := st, firstBad := i })

/-! ### Running (R221, R225, R226) -/

/-- Replace a run. -/
def Data.setRun (d : Data) (n : Nat) (run : EngRun) : Data :=
  { d with engines := mput d.engines n { d.engine n with running := (d.engine n).running.map fun r => if r.id = run.id then run else r } }

/-- Postmarked tiles that a list touches are read but not verified (R231). -/
def listMarks (d : Data) (n : Nat) (run : EngRun) : EngRun :=
  if engClass n = 1 then
    let k := (engBytes d n run (ownNamed d (run.desc.f 8 8)) (run.desc.f 8 8) (listSize run.desc)).1.length
    { run with pmUnchecked := run.pmUnchecked + (tilesOf d run.desc.plot (run.desc.f 8 8) k).length }
  else run

/-- A copy proceeds: it asks for what it still needs, or, when it has everything, moves its rows. -/
def copyGo (b : Body) (beat n : Nat) (run : EngRun) : Body × EngRun :=
  let (b, run) := askAll b beat n run (needsOf b.data n run)
  if allRead b.data n run then
    let rows := rowsOf b.data n run
    let (b, run) := runRows b beat n (srcParts b.data run.desc rows) (listMarks b.data n run) rows.zipIdx
    (b, { run with phase := 1, got := [] })
  else (b, run)

/-- A run that copies: a courier's or gleaner's, or a relay's PUT or GET. -/
def isCopy (n : Nat) (r : EngRun) : Bool := decide (n < 128) || decide (r.desc.f 0 1 < 3)

/-- Drive the copies of every engine. -/
def pumpCopies (b : Body) (beat : Nat) : Body :=
  if b.data.halted then b
  else b.data.engines.foldl (fun (b : Body) e => e.2.running.foldl (fun (b : Body) r =>
    if r.phase = 0 ∧ r.status = 0 ∧ isCopy e.1 r then
      let (b, r) := copyGo b beat e.1 r
      { b with data := b.data.setRun e.1 r }
    else b) b) b

/-- The 4 KiB units of a relay's PUT or GET that have been written in full: every row that has a byte of one is written
(09 R289). -/
def unitsDone (r : EngRun) : Nat :=
  let e := r.desc
  let s := if e.f 0 1 = 1 then e.f 8 8 else e.f 16 8
  let rows := (parts 4096 s (e.f 24 4)).zipIdx
  let bad := r.badRows.map fun x => x.1
  ((List.range ((e.f 24 4 + 4095) / 4096)).filter fun j => rows.all fun x =>
    !(decide (x.1.1 - s < 4096 * j + 4096) && decide (4096 * j < x.1.1 - s + x.1.2)) ||
      (decide (x.2 < r.done) && !bad.contains x.2)).length

/-- The unit of a relay's PUT or GET in which row `i` begins. -/
def unitOf (r : EngRun) (i : Nat) : Nat :=
  let e := r.desc
  let s := if e.f 0 1 = 1 then e.f 8 8 else e.f 16 8
  (((parts 4096 s (e.f 24 4))[i]?).map fun x => (x.1 - s) / 4096).getD 0

/-- Rows that failed at their homes: they are not written in full, and STATUS is that of the first bad one (R225). -/
def settleRows (r : EngRun) : EngRun :=
  let bad := r.badRows ++ if r.status ≠ 0 then [(r.firstBad, r.status)] else []
  let failed := (r.badRows.map fun x => x.1).eraseDups.filter fun i => r.status == 0 || decide (i < r.firstBad)
  match bad.foldl (fun (m : Option (Nat × Nat)) x => match m with
    | some y => if x.1 < y.1 then some x else m
    | none => some x) none with
  | some x => { r with status := x.2, firstBad := x.1, done := r.done - failed.length }
  | none => r

/-- What the status record says of a run's rows: a relay's PUT or GET counts 4 KiB units of output. -/
def settleWrites (n : Nat) (r : EngRun) : EngRun :=
  let x := settleRows r
  if engClass n = 2 ∧ (r.desc.f 0 1 = 1 ∨ r.desc.f 0 1 = 2) then
    { x with done := unitsDone r, firstBad := if x.status = 0 then x.firstBad else unitOf r x.firstBad }
  else x

/-- The status record (Table 6). -/
def statusBytes (n : Nat) (r : EngRun) (beat : Nat) : List Byte :=
  let p := engPlace n
  natLe 2 r.status ++ natLe 2 (p.2.2 + 8 * (if p.1 = 2 then 1 else 0) + 16 * p.2.1) ++ natLe 4 r.done ++ natLe 4 r.pmChecked ++
    natLe 4 r.pmUnchecked ++ natLe 4 r.pmMismatch ++ natLe 4 r.firstBad ++ natLe 8 beat

/-- Address of the status record: none, if zero or not aligned. -/
def statusAddr (n : Nat) (e : EngDesc) : Nat :=
  let a := if engClass n = 2 then e.f 40 8 else e.f 48 8
  if a % 32 = 0 then a else 0

/-- The plot may use the COMP_ID that a descriptor names. -/
def compGranted (d : Data) (n : Nat) (e : EngDesc) : Bool :=
  (match e.f 3 1 with
    | 1 => d.phGranted e.plot (e.f 4 2)
    | 2 => d.barGranted e.plot false (e.f 4 2)
    | 3 => d.barGranted e.plot true (e.f 4 2)
    | 4 => e.f 16 8 / 2 ^ 40 != d.node || d.phGranted e.plot (e.f 4 2)
    | _ => true) && (engClass n != 2 || e.f 0 1 != 8 || d.phGranted e.plot (e.f 4 2))

/-- COMP_KIND of a courier or gleaner on die `n / 16` (Table 4), or of a relay (09 Table 15). Nothing is signalled where the
completion fields are out of range, or name what the plot has no grant of; a ring for a node that the plot may not
reach is not sent (09 R275). The last ring of a RING_PASS comes with its completion (09 R294). -/
def signal (b : Body) (beat n : Nat) (run : EngRun) : Body :=
  let e := run.desc
  let id := e.f 4 2
  if !(if engClass n = 2 then relayComp e else compOk e) || !compGranted b.data n e then b
  else
    let b := if engClass n = 2 ∧ e.f 0 1 = 8 ∧ e.f 3 1 ≠ 1 ∧ run.status = 0 then { b with data := b.data.ringPh id } else b
    match e.f 3 1 with
    | 1 => { b with data := b.data.ringPh id }
    | 2 => { b with data := b.data.counterAdd false (n / 16) id (BitVec.ofNat 32 (e.f 6 2)) }
    | 3 => { b with data := b.data.counterAdd true 0 id (BitVec.ofNat 32 (e.f 6 2)) }
    | 4 =>
      let node := e.f 16 8 / 2 ^ 40 % 4096
      if node = b.data.node then { b with data := b.data.ringPh id }
      else if (b.sendFault e.plot node false).isSome then b
      else b.send beat { mkPkt 11 node (b.data.tagOf e.plot) id (engAgent n) 0 [] with flag := true }
    | _ => b

/-- Hand an engine's completion to the node that issued it. -/
def tellNode (d : Data) (e : EngDesc) (status : Nat) : Data :=
  match e.owner with
  | .node l k => { d with launches := mmod d.launches l fun x => { x with nodes := mmod x.nodes k fun y => { y with engine := some status } } }
  | .group _ _ => d

/-- Take a run off its engine. -/
def Data.dropRun (d : Data) (n id : Nat) : Data :=
  { d with engines := mput d.engines n { d.engine n with running := (d.engine n).running.filter fun r => r.id != id } }

/-- Write the status record, where the plot reaches its address. -/
def putStatus (b : Body) (beat n : Nat) (run : EngRun) : Body × EngRun :=
  let a := statusAddr n run.desc
  if a = 0 ∨ (wrCheck b n run.desc (ownNamed b.data a) a 32).2 ≠ 0 then (b, run)
  else writeRange b beat n run (2 ^ 63) (ownNamed b.data a) a none (statusBytes n run beat)

/-- R226: the run is over: its completion is signalled, counted (10 R318) and told to its node. -/
def closeRun (b : Body) (beat n : Nat) (run : EngRun) : Body :=
  let b := { b with data := b.data.dropRun n run.id }
  let b := signal b beat n run
  { b with data := tellNode (b.data.progress run.desc.ctx 24) run.desc run.status }

/-- End a run that has nothing more to wait for: its postmarks and its status record, then, once that is acknowledged, the
rest. -/
def endRun (b : Body) (beat n : Nat) (run : EngRun) : Body :=
  if run.phase = 2 then closeRun b beat n run
  else
    let b := { b with data := storeMarks b.data run }
    let (b, run) := putStatus b beat n (settleWrites n run)
    let run := { run with phase := 2 }
    if run.outs = [] then closeRun b beat n run else { b with data := b.data.setRun n run }

/-- End a descriptor with a status at once, whatever it waits for: what it has written and no home has acknowledged does not
count. -/
def killRun (b : Body) (beat n : Nat) (run : EngRun) (status : Nat) : Body :=
  let open_ := run.outs.filterMap fun o => if rowKey 0 ≤ o.2 ∧ o.2 < rowKey (2 ^ 63) then some (o.2, status, []) else none
  let run := settleWrites n { run with status := status, firstBad := run.done, got := run.got ++ open_, outs := [] }
  let (b, run) := putStatus b beat n run
  closeRun b beat n { run with outs := [] }

def EngRun.fresh (e : EngDesc) (id : Nat) : EngRun :=
  { desc := e, status := 0, done := 0, pmChecked := 0, pmUnchecked := 0, pmMismatch := 0, firstBad := 0, id := id, outs := [], got := [],
    phase := 0, ring0 := 0 }

/-- The addresses of a courier's or gleaner's descriptor. -/
def descAddrs (n : Nat) (e : EngDesc) : List Nat :=
  if engClass n = 0 then (if e.f 0 1 = 2 then [] else [e.f 8 8]) ++ [e.f 16 8, e.f 48 8]
  else [e.f 8 8, e.f 24 8, e.f 48 8] ++ if e.f 0 1 = 1 then [e.f 16 8] else []

/-- 08 R243: a graph's own descriptor that names the own-region window. -/
def nodeNamesOwn (d : Data) (n : Nat) (e : EngDesc) : Bool :=
  e.own.isNone && (descAddrs n e).any fun a => ownNamed d a

/-- R224: the descriptor check of a courier or gleaner: 0, or the status with which it ends. -/
def descStatus (d : Data) (n : Nat) (e : EngDesc) : Nat :=
  let ok := if engClass n = 0 then courierOk e else gleanerOk e
  let al := if engClass n = 0 then courierAligned e else gleanerAligned e
  if !ok then 5 else if !al then 6 else if nodeNamesOwn d n e || !compGranted d n e then 1 else 0

/-- An engine under a weeding pass takes no descriptor (15 R413). -/
def engineInPass (b : Body) (n : Nat) : Bool :=
  match mget b.hl.passes (unitKey (.engine (engIdOf n))) with
  | some p => p.start.isSome || p.forced.isSome
  | none => false

/-- ENGINE_DESC_START: a courier or gleaner takes the descriptor at the head of its queue, checks it, and begins. -/
def execEngineDescStart (eng : EngineId) (s : State) : Host.Outcome State Fault Refusal :=
  s.runB fun beat b =>
    let n := engNo eng
    let e := b.data.engine n
    match e.queue with
    | q :: rest =>
      if 128 ≤ n || e.running != [] || b.data.halted || engineInPass b n then b
      else
        let id := b.data.nextId
        let run := EngRun.fresh q id
        let st := descStatus b.data n q
        let d := { b.data with nextId := id + 1, engines := mput b.data.engines n { queue := rest, running := [run] } }
        let b := { b with data := d }
        if st = 0 then
          let (b, run) := copyGo b beat n run
          { b with data := b.data.setRun n run }
        else { b with data := b.data.setRun n { run with status := st, phase := 1 } }
    | [] => b

/-- ENGINE_DESC_COMPLETE: every write is acknowledged; the status record, then the completion. A descriptor that still reads
goes on. -/
def execEngineDescComplete (eng : EngineId) (s : State) : Host.Outcome State Fault Refusal :=
  s.runB fun beat b =>
    let n := engNo eng
    match (b.data.engine n).running with
    | run :: _ =>
      if 128 ≤ n ∨ b.data.halted then b
      else if 1 ≤ run.phase then (if run.outs = [] then endRun b beat n run else b)
      else
        let (b, run) := copyGo b beat n run
        { b with data := b.data.setRun n run }
    | [] => b

end Sys2Proof.Machine
end

