-- ==== Sys2Proof/Machine/Relays.lean ====
section
/-! DEFINITION. Relays: their descriptors, PUT, GET and FLAG, and the collectives (09 R280, R288-R294). -/

namespace Sys2Proof.Machine

/-! ### Descriptors (Table 15, R289) -/

/-- A format of a reduction. -/
def redFmt (k : Nat) : Bool := k == 1 || k == 2 || k == 3 || k == 14

/-- A relay's fields. -/
def relayOk (e : EngDesc) : Bool :=
  let op := e.f 0 1
  let red := op == 4 || op == 5
  let coll := decide (4 ≤ op)
  let fl := e.f 1 1
  let fmt := e.f 2 1
  decide (1 ≤ op) && decide (op ≤ 8) && decide (fl < 8) &&
    (if red then redFmt (fmt % 16) && redFmt (fmt / 16) else fmt == 0) &&
    (fl / 4 % 2 == 0 || (red && fmt / 16 == 1)) && relayComp e &&
    (if op = 3 then e.f 24 4 == 0 else decide (4 ≤ e.f 24 4) && decide (e.f 24 4 ≤ 2 ^ 31) && e.f 24 4 % 4 == 0) &&
    (if red then decide (e.f 28 1 ≤ 2) else e.f 28 1 == 0) && e.f 29 1 == 0 &&
    (if op = 8 then decide (2 ≤ e.f 30 2) && decide (e.f 30 2 ≤ 4096) else op == 7 || e.f 30 2 == 0) &&
    (coll || e.f 32 8 == 0) && e.f 40 8 % 32 == 0 && (fl / 4 % 2 == 1 || (e.f 48 4 == 0 && e.f 52 4 == 0)) &&
    (coll || e.f 56 4 == 0) && (if op = 8 then decide (e.f 60 2 < 4096) else e.f 60 2 == 0) && e.f 62 2 == 0

/-- Alignment of its addresses. -/
def relayAligned (e : EngDesc) : Bool :=
  if e.f 0 1 = 3 then e.f 16 8 % 8 == 0 else e.f 8 8 % 4 == 0 && e.f 16 8 % 4 == 0

/-- An address of this package. -/
def isOwn (d : Data) (a : Nat) : Bool := a / 2 ^ 40 == d.node

/-- The check of a relay's descriptor when it is taken: 0, or the status with which it ends. -/
def relayStatus (d : Data) (n : Nat) (e : EngDesc) : Nat :=
  let op := e.f 0 1
  if !relayOk e then 5
  else if op ≤ 2 ∧ !isOwn d (e.f 8 8) ∧ !isOwn d (e.f 16 8) then 5
  else if 4 ≤ op ∧ (!isOwn d (e.f 8 8) ∨ !isOwn d (e.f 16 8) ∨ !isOwn d (e.f 32 8)) then 5
  else if !relayAligned e then 6
  else if !compGranted d n e || (op == 8 && !d.phGranted e.plot (e.f 60 2)) then 1
  else 0

/-! ### The set (R290) -/

/-- `k` bytes of the set from offset `o` on. -/
def setBytes (d : Data) (n : Nat) (run : EngRun) (o k : Nat) : List Byte × Nat :=
  engBytes d n run (ownNamed d (run.desc.f 32 8)) (wrap64 (run.desc.f 32 8 + o)) k

/-- How many bytes the set has: 0 while COUNT says no number of members, or cannot be read. -/
def setLen (d : Data) (n : Nat) (run : EngRun) : Nat :=
  let (h, st) := setBytes d n run 0 2
  if st ≠ 0 ∨ leNat h < 2 ∨ 4096 < leNat h then 0 else 8 + 2 * leNat h

/-- Units of the set still to be asked for: its first bytes, then all of it. -/
def setNeeds (d : Data) (n : Nat) (run : EngRun) : List (Nat × Nat × Bool) :=
  let a := run.desc.f 32 8
  if haveIn d n run (ownNamed d a) a 2 then needIn d n run (ownNamed d a) a (setLen d n run) else needIn d n run (ownNamed d a) a 2

def setRead (d : Data) (n : Nat) (run : EngRun) : Bool :=
  let a := run.desc.f 32 8
  haveIn d n run (ownNamed d a) a 2 && haveIn d n run (ownNamed d a) a (setLen d n run)

/-- The members of a collective's set, by rank, and the CRC-32 of the set; or the status with which its descriptor ends: that of
an access that fails, BAD_DESC where it is no set of this node or does not fit the descriptor. -/
def readSet (d : Data) (n : Nat) (run : EngRun) : Except Nat (List Nat × Nat) :=
  let e := run.desc
  let h := setBytes d n run 0 2
  if h.2 ≠ 0 then .error h.2
  else if setLen d n run = 0 then .error 5
  else
    let l := setBytes d n run 0 (setLen d n run)
    let ns := (List.range (leNat h.1)).map fun i => field l.1 (8 + 2 * i) 2
    if l.2 ≠ 0 then .error l.2
    else if (ns.filter fun x => x == d.node).length ≠ 1 then .error 5
    else if e.f 0 1 = 5 ∧ e.f 24 4 % (256 * ns.length) ≠ 0 then .error 5
    else if e.f 0 1 = 7 ∧ ns.length ≤ e.f 30 2 then .error 5
    else .ok (ns, crc32 l.1)

/-! ### What comes and what has been done

An entry of `got` is a key, a byte offset and data. Keys of collectives are a kind and a number: kinds 0 hello and 1 its
answer, 2 contribution or ring partial, 3 result, 7 credit, 8 block of a RING_PASS, as in the packets; from 32 on, the
relay's own marks. -/

def collKey (kind k : Nat) : Nat := 2 ^ 66 + kind * 2 ^ 24 + k

def EngRun.has (r : EngRun) (kind k : Nat) : Bool := r.got.any fun g => g.1 == collKey kind k

def EngRun.mark (r : EngRun) (kind k : Nat) : EngRun :=
  if r.has kind k then r else { r with got := r.got ++ [(collKey kind k, 0, [])] }

/-- The bytes that have come under a key. -/
def EngRun.bytesOf (r : EngRun) (kind k n : Nat) : Option (List Byte) :=
  let ps := r.got.filter fun g => g.1 == collKey kind k
  if (ps.map fun g => g.2.2.length).sum < n then none
  else some ((List.range n).map fun i => ((ps.findSome? fun g => if g.2.1 ≤ i then g.2.2[i - g.2.1]? else none)).getD 0)

/-! ### Reductions (R292, R293) -/

/-- Binary64, in which SUM adds. -/
def fp64 : FFmt := ⟨64, 52, 1023, 0x7FEFFFFFFFFFFFFF, some 0x7FF0000000000000, some 0x7FF8000000000000⟩

def fmtSize (k : Nat) : Nat := if k = 2 ∨ k = 3 then 2 else 4

/-- Elements of `w` bytes. -/
def elems (w : Nat) (l : List Byte) : List Nat := (List.range (l.length / w)).map fun i => leNat ((l.drop (w * i)).take w)

/-- One step of a reduction: REDOP, IN_FMT. -/
def redStep (op fmt : Nat) (x y : FVal) : FVal :=
  match op with
  | 1 => fMin x y
  | 2 => fMax x y
  | _ => if fmt = 14 then (fAdd x y).1 else decodeF fp64 (encodeF fp64 .rne (fAdd x y).1)

/-- Input elements as values. -/
def inVals (fmt : Nat) (l : List Byte) : List FVal := (elems (fmtSize fmt) l).map fun x => decodeCode fmt (BitVec.ofNat 32 x)

/-- A ring's partial between relays: FP32 for a floating SUM, 64 bits for one of S32, IN_FMT for MIN and MAX. -/
def partSize (op fmt : Nat) : Nat := if op = 0 then (if fmt = 14 then 8 else 4) else fmtSize fmt

def partOut (op fmt : Nat) (v : FVal) : List Byte :=
  if op = 0 then
    if fmt = 14 then natLe 8 (match v with
      | .fin x => (BitVec.ofInt 64 (roundInt .rne x)).toNat
      | _ => 0)
    else natLe 4 (encodeF fp32 .rne v)
  else natLe (fmtSize fmt) (encodeCode fmt .rne v).1

def partIn (op fmt : Nat) (l : List Byte) : List FVal :=
  (elems (partSize op fmt) l).map fun x =>
    if op = 0 then (if fmt = 14 then .fin ⟨sext 64 x, 0⟩ else decodeF fp32 x) else decodeCode fmt (BitVec.ofNat 32 x)

/-- Saturate an exact S32 sum once. -/
def satS32 (fmt : Nat) (v : FVal) : FVal :=
  match v with
  | .fin x => if fmt = 14 then .fin ⟨clampI (-2147483648) 2147483647 (roundInt .rne x), 0⟩ else v
  | _ => v

/-- The result's bytes; `i0` is the index of the first element within the descriptor's output. -/
def redOut (e : EngDesc) (i0 : Nat) (vs : List FVal) : List Byte :=
  let out := e.f 2 1 / 16
  (vs.zipIdx).flatMap fun v =>
    let md : RMode := if e.f 1 1 / 4 % 2 = 1 then .sr (srBits (BitVec.ofNat 32 (e.f 48 4)) (BitVec.ofNat 32 (e.f 52 4)) (BitVec.ofNat 32 (i0 + v.2))) else .rne
    natLe (fmtSize out) (encodeCode out md (satS32 (e.f 2 1 % 16) v.1)).1

/-- Reduce lists of values element by element, in the order of the list. -/
def redAll (op fmt : Nat) : List (List FVal) → List FVal
  | [] => []
  | l :: ls => ls.foldl (fun a b => List.zipWith (redStep op fmt) a b) l

/-! ### Collectives (R290, R291) -/

/-- A collective as its run sees it: members, own rank, CRC of the set, all in one block. -/
structure Coll where
  ns : List Nat
  crc : Nat
  me : Nat
  n : Nat
  direct : Bool

def collOf (d : Data) (n : Nat) (run : EngRun) : Option Coll :=
  match readSet d n run with
  | .ok s =>
    some { ns := s.1, crc := s.2, me := s.1.findIdx fun x => x == d.node, n := s.1.length, direct := s.1.all fun x => x / 16 == d.node / 16 }
  | .error _ => none

/-- Where chunk `c` starts and how long it is, in input bytes (R291). -/
def chunkOf (e : EngDesc) (n c : Nat) : Nat × Nat :=
  let bytes := e.f 24 4
  let s := if e.f 0 1 = 5 then bytes / n else 256 * ((bytes + 256 * n - 1) / (256 * n))
  (c * s, min ((c + 1) * s) bytes - c * s)

/-- Size of a result that a chunk of `x` input bytes has. -/
def outLen (e : EngDesc) (x : Nat) : Nat := x / fmtSize (e.f 2 1 % 16) * fmtSize (e.f 2 1 / 16)

/-- Results that ranks own and the others receive: owner, offset from DST, bytes. -/
def results (e : EngDesc) (k : Coll) : List (Nat × Nat × Nat) :=
  match e.f 0 1 with
  | 4 => (List.range k.n).filterMap fun c =>
      let (o, l) := chunkOf e k.n c
      if l = 0 then none else some (c, outLen e o, outLen e l)
  | 5 => [(k.me, 0, outLen e (chunkOf e k.n k.me).2)]
  | 6 => (List.range k.n).map fun c => (c, c * e.f 24 4, e.f 24 4)
  | _ => [(e.f 30 2, 0, e.f 24 4)]

/-- Source bytes, as the run has read them. -/
def srcBytes (d : Data) (n : Nat) (run : EngRun) (o k : Nat) : List Byte × Nat :=
  engBytes d n run (ownNamed d (run.desc.f 8 8)) (wrap64 (run.desc.f 8 8 + o)) k

/-- How many bytes the rank reads before it begins: all of SRC; none of it where another rank is the root; a RING_PASS reads each
block as it sends it. -/
def srcLen (run : EngRun) (k : Coll) : Nat :=
  if run.desc.f 0 1 = 8 ∨ (run.desc.f 0 1 = 7 ∧ run.desc.f 30 2 ≠ k.me) then 0 else run.desc.f 24 4

/-- A COLL packet's data: CRC of the set, the sender's rank, kind, COLL_ID, number of the chunk or step, payload. The layout is the
model's own. -/
def collData (k : Coll) (kind num id : Nat) (l : List Byte) : List Byte :=
  natLe 4 k.crc ++ natLe 2 k.me ++ natLe 1 kind ++ natLe 1 0 ++ natLe 4 id ++ natLe 2 num ++ natLe 2 0 ++ l

/-- Send bytes to a rank; answers are awaited under `key`. A plot's access to the node that R275 stops gives its status. -/
def sendColl (b : Body) (beat n : Nat) (run : EngRun) (k : Coll) (rank kind num key : Nat) (l : List Byte) : Body × EngRun :=
  let node := k.ns.getD rank 0
  match b.sendFault run.desc.plot node false with
  | some c => (b, if run.status = 0 then { run with status := engStatus c, phase := 1 } else run)
  | none =>
    let ps := if l = [] then [(0, 0)] else parts 4080 0 l.length
    ps.foldl (fun (a : Body × EngRun) p =>
      sendFor a.1 beat a.2 key (mkPkt 12 node (a.1.data.tagOf run.desc.plot) p.1 (engAgent n) 0
        (collData k kind num (run.desc.f 56 4) ((l.drop p.1).take p.2)))) (b, run)

/-- Write output bytes at address `a`, unit by unit from unit `u` on: 4 KiB units of output, of which `o` is the offset of the first
byte. -/
def putUnits (b : Body) (beat n : Nat) (run : EngRun) (u : Nat) (own : Bool) (a o : Nat) (l : List Byte) : Body × EngRun :=
  (parts 4096 o l.length).foldl (fun (r : Body × EngRun) x =>
    let (b, run) := r
    if run.status ≠ 0 then r
    else
      let at_ := wrap64 (a + (x.1 - o))
      let (_, st) := wrCheck b n run.desc own at_ x.2
      if st ≠ 0 then (b, { run with status := st, firstBad := u + x.1 / 4096, phase := 1 })
      else
        let y := (l.drop (x.1 - o)).take x.2
        writeRange b beat n { run with marks := run.marks ++ rowMarks b.data run.desc.plot (u + x.1 / 4096) at_ y } (u + x.1 / 4096) own at_ none y) (b, run)

/-- The units of a collective's output that all of its parts `ps` (offset, length, written) cover. -/
def unitsOver (ps : List (Nat × Nat × Bool)) : Nat :=
  ((List.range (((ps.map fun p => p.1 + p.2.1).foldl max 0 + 4095) / 4096)).filter fun j => ps.all fun p =>
    p.2.2 || !(decide (p.1 < 4096 * j + 4096) && decide (4096 * j < p.1 + p.2.1))).length

/-- Do `f` for each of a list while the run is well. -/
def eachWell {α : Type} (l : List α) (f : Body → EngRun → α → Body × EngRun) (b : Body) (run : EngRun) : Body × EngRun :=
  l.foldl (fun (a : Body × EngRun) x => if a.2.status = 0 then f a.1 a.2 x else a) (b, run)

/-- The ranks other than its own. -/
def Coll.others (k : Coll) : List Nat := (List.range k.n).filter fun r => r != k.me

def Coll.next (k : Coll) (r : Nat) : Nat := (r + 1) % k.n

/-- The running member `r` has shown itself. -/
def EngRun.ready (run : EngRun) (r : Nat) : Bool := run.has 0 r || run.has 1 r

/-- The contributions or the partials that this rank owes, as far as they can be sent now. -/
def reduceGo (b : Body) (beat n : Nat) (run : EngRun) (k : Coll) : Body × EngRun :=
  let e := run.desc
  let op := e.f 28 1
  let fmt := e.f 2 1 % 16
  if k.direct then
    eachWell k.others (fun b run r =>
      let (o, l) := chunkOf e k.n r
      if l = 0 ∨ !run.ready r ∨ run.has 32 r then (b, run)
      else sendColl b beat n (run.mark 32 r) k r 2 r (collKey 32 r) (srcBytes b.data n run o l).1) b run
  else
    eachWell ((List.range k.n).filter fun c => c != k.me) (fun b run c =>
      let (o, l) := chunkOf e k.n c
      let nx := k.next k.me
      if l = 0 ∨ !run.ready nx ∨ run.has 32 c then (b, run)
      else
        let own := inVals fmt (srcBytes b.data n run o l).1
        if k.next c = k.me then sendColl b beat n (run.mark 32 c) k nx 2 c (collKey 32 c) (own.flatMap (partOut op fmt))
        else match run.bytesOf 2 c (own.length * partSize op fmt) with
          | some p => sendColl b beat n (run.mark 32 c) k nx 2 c (collKey 32 c) ((redAll op fmt [partIn op fmt p, own]).flatMap (partOut op fmt))
          | none => (b, run)) b run

/-- The contributions to the elements of `w` bytes at offset `o` of the own chunk, in the order in which they came: a packet carries
whole elements. -/
def arrivals (run : EngRun) (o w : Nat) : List (List Byte) :=
  run.got.filterMap fun g =>
    if collKey 2 0 ≤ g.1 ∧ g.1 < collKey 2 4096 ∧ g.2.1 ≤ o ∧ o + w ≤ g.2.1 + g.2.2.length then some ((g.2.2.drop (o - g.2.1)).take w) else none

/-- The reduction of the own chunk on the direct schedule, once every contribution has come (R293): in rank order with DET; else,
element by element, in the order of arrival, in which the place of the own contribution is open. -/
def directSum (free : Nat) (run : EngRun) (k : Coll) (det : Bool) (own : List Byte) : Option (List FVal) :=
  let op := run.desc.f 28 1
  let fmt := run.desc.f 2 1 % 16
  let w := fmtSize fmt
  if k.others.any fun r => (run.bytesOf 2 r own.length).isNone then none
  else if det then
    some (redAll op fmt ((List.range k.n).map fun r => inVals fmt (if r = k.me then own else (run.bytesOf 2 r own.length).getD [])))
  else
    some ((List.range (own.length / w)).flatMap fun i =>
      let came := arrivals run (w * i) w
      let at_ := Config.choice (free + i) % (came.length + 1)
      redAll op fmt ((came.take at_ ++ [(own.drop (w * i)).take w] ++ came.drop at_).map (inVals fmt)))

/-- A journal or a replay orders DET for every collective of the context (16 R441, R444). -/
def detOn (b : Body) (e : EngDesc) : Bool :=
  e.f 1 1 / 2 % 2 == 1 || ((mget b.sj e.ctx).map fun j => j.det).getD false || ((b.replay.map fun r => r.ctx) == some e.ctx)

/-- The result that this rank owns, once it is known: kept under kind 33. -/
def ownResult (b : Body) (n : Nat) (run : EngRun) (k : Coll) : Body × EngRun :=
  let e := run.desc
  let op := e.f 28 1
  let fmt := e.f 2 1 % 16
  let keep (l : List Byte) : EngRun := { run with got := run.got ++ [(collKey 33 0, 0, l)] }
  if run.has 33 0 then (b, run)
  else if 6 ≤ e.f 0 1 then
    (b, if e.f 0 1 = 7 ∧ e.f 30 2 ≠ k.me then run else keep (srcBytes b.data n run 0 (e.f 24 4)).1)
  else
    let (o, l) := chunkOf e k.n k.me
    let i0 := if e.f 0 1 = 5 then 0 else o / fmtSize fmt
    let x := (srcBytes b.data n run o l).1
    if l = 0 then (b, keep [])
    else if k.direct then match directSum b.data.free run k (detOn b e) x with
      | some vs => ({ b with data := { b.data with free := b.data.free + vs.length } }, keep (redOut e i0 vs))
      | none => (b, run)
    else match run.bytesOf 2 k.me (l / fmtSize fmt * partSize op fmt) with
      | some p => (b, keep (redOut e i0 (redAll op fmt [partIn op fmt p, inVals fmt x])))
      | none => (b, run)

/-- DONE of a collective: its units of output that are written in full. -/
def collDone (run : EngRun) (k : Coll) : EngRun :=
  { run with done := unitsOver ((results run.desc k).map fun c => (c.2.1, c.2.2, c.2.2 == 0 || run.has 40 c.1)) }

/-- A result is written at DST. -/
def putResult (b : Body) (beat n : Nat) (run : EngRun) (k : Coll) (o : Nat) (l : List Byte) : Body × EngRun :=
  let dst := run.desc.f 16 8
  let (b, run) := putUnits b beat n run 0 (ownNamed b.data dst) (wrap64 (dst + o)) o l
  (b, if run.status = 0 then collDone run k else run)

/-- Results: each is written at DST once, and sent on as the schedule gives. -/
def resultsGo (b : Body) (beat n : Nat) (run : EngRun) (k : Coll) : Body × EngRun :=
  eachWell (results run.desc k) (fun b run c =>
    let l := if c.1 = k.me then (if run.has 33 0 then (run.bytesOf 33 0 c.2.2) else none) else run.bytesOf 3 c.1 c.2.2
    match l with
    | none => (b, run)
    | some l =>
      let (b, run) := if run.has 40 c.1 then (b, run) else putResult b beat n (run.mark 40 c.1) k c.2.1 l
      if run.desc.f 0 1 = 5 then (b, run)
      else
        let dests := if k.direct then (if c.1 = k.me then k.others else []) else if k.next k.me = c.1 then [] else [k.next k.me]
        eachWell dests (fun b run r =>
          if run.ready r ∧ !run.has 41 (4096 * c.1 + r) then
            sendColl b beat n (run.mark 41 (4096 * c.1 + r)) k r 3 c.1 (collKey 41 (4096 * c.1 + r)) l
          else (b, run)) b run) b run

/-- Nothing is left to do but to wait for acknowledgements. -/
def collOver (run : EngRun) (k : Coll) : Bool :=
  let e := run.desc
  let red := e.f 0 1 == 4 || e.f 0 1 == 5
  ((results e k).all fun c => c.2.2 == 0 || run.has 40 c.1) &&
    (!red || ((List.range k.n).filter fun c => c != k.me).all fun c => (chunkOf e k.n c).2 == 0 || run.has 32 c) &&
    (e.f 0 1 == 5 || (results e k).all fun c =>
      (if k.direct then (if c.1 = k.me then k.others else []) else if k.next k.me = c.1 then [] else [k.next k.me]).all fun r =>
        run.has 41 (4096 * c.1 + r))

/-! ### RING_PASS (R294) -/

/-- Doorbells of FREE_PH since the start. -/
def freed (d : Data) (run : EngRun) : Nat :=
  (((d.doorbellSeq (run.desc.f 60 2)).map fun x => x.toNat).getD run.ring0 + 2 ^ 32 - run.ring0) % 2 ^ 32

/-- A DOORBELL_SEQ of FREE_PH that cannot be read is told (11 R495). -/
def freeLost (d : Data) (run : EngRun) : Data :=
  let h := run.desc.f 60 2
  if (d.doorbellSeq h).isNone && (mget d.pigeons h).isSome then d.doorbellLost h else d

/-- Address of block `s`. -/
def bufOf (e : EngDesc) (s : Nat) : Nat := if s % 2 = 0 then e.f 8 8 else e.f 16 8

/-- 4 KiB units of a block. -/
def blockUnits (e : EngDesc) : Nat := (e.f 24 4 + 4095) / 4096

/-- Forget what has been read of a buffer that is written now. -/
def EngRun.forget (run : EngRun) (a k : Nat) : EngRun :=
  { run with got := run.got.filter fun g => !(decide (lineKey a ≤ g.1) && decide (g.1 ≤ lineKey (a + k - 1))) }

/-- Block `s` is in its buffer: every write of it has been acknowledged. -/
def blockIn (run : EngRun) (s : Nat) : Bool :=
  run.has 52 s && !run.outs.any fun o =>
    decide (rowKey ((s - 1) * blockUnits run.desc) ≤ o.2) && decide (o.2 < rowKey (s * blockUnits run.desc))

/-- The own block `s - 1` goes to the next rank: its buffer is read, then sent. -/
def ringSend (b : Body) (beat n : Nat) (k : Coll) (run : EngRun) (s : Nat) : Body × EngRun :=
  let a := bufOf run.desc (s - 1)
  let own := ownNamed b.data a
  let len := run.desc.f 24 4
  if haveIn b.data n run own a len then
    let (x, st) := engBytes b.data n run own a len
    let (b, run) := readMarks b beat n run a x
    if st = 0 then sendColl b beat n (run.mark 51 s) k (k.next k.me) 8 s (collKey 51 s) x
    else (b, { run with status := st, firstBad := run.done, phase := 1 })
  else askAll b beat n run (needIn b.data n run own a len)

/-- One step `s`: credit to the rank before, the own block to the next, the block that has come, and its ring. The last ring comes
with the completion. -/
def ringStep (beat n : Nat) (k : Coll) (b : Body) (run : EngRun) (s : Nat) : Body × EngRun :=
  let e := run.desc
  let prev := (k.me + k.n - 1) % k.n
  let sentAcked (t : Nat) : Bool := run.has 51 t && !run.outs.any fun o => o.2 == collKey 51 t
  let b := if run.ready prev ∧ !run.has 50 s then { b with data := freeLost b.data run } else b
  -- block s - 2 was sent in step s - 1
  let (b, run) := if run.ready prev ∧ !run.has 50 s ∧ s - 1 ≤ freed b.data run ∧ (s < 2 || sentAcked (s - 1)) then
      sendColl b beat n (run.mark 50 s) k prev 7 s (collKey 50 s) [] else (b, run)
  let (b, run) := if run.status = 0 ∧ run.has 7 s ∧ !run.has 51 s ∧ (s = 1 || run.has 52 (s - 1)) then ringSend b beat n k run s
    else (b, run)
  let (b, run) := if run.status = 0 ∧ run.has 50 s ∧ !run.has 52 s then
      match run.bytesOf 8 s (e.f 24 4) with
      | some x =>
        let a := bufOf e s
        let (b, run) := putUnits b beat n ((run.mark 52 s).forget a (e.f 24 4)) ((s - 1) * blockUnits e) (ownNamed b.data a) a 0 x
        (b, if run.status = 0 then { run with done := run.done + blockUnits e } else run)
      | none => (b, run)
    else (b, run)
  if run.status = 0 ∧ blockIn run s ∧ !run.has 53 s ∧ s + 1 < e.f 30 2 then ({ b with data := b.data.ringPh (e.f 4 2) }, run.mark 53 s)
  else (b, run)

def ringOver (run : EngRun) : Bool :=
  (List.range (run.desc.f 30 2 - 1)).all fun i => run.has 51 (i + 1) && run.has 52 (i + 1)

/-! ### How a collective goes -/

/-- A collective that runs proceeds as far as what has come allows. -/
def collGo (b : Body) (beat n : Nat) (run : EngRun) (k : Coll) : Body × EngRun :=
  if run.status ≠ 0 ∨ run.phase ≠ 0 then (b, run)
  else if run.desc.f 0 1 = 8 then
    let (b, run) := eachWell ((List.range (run.desc.f 30 2 - 1)).map fun i => i + 1) (ringStep beat n k) b run
    (b, if run.status = 0 ∧ ringOver run then { run with phase := 1 } else run)
  else
    let (b, run) := if run.desc.f 0 1 < 6 then reduceGo b beat n run k else (b, run)
    let (b, run) := if run.status = 0 then ownResult b n run k else (b, run)
    let (b, run) := resultsGo b beat n run k
    (b, if run.status = 0 ∧ collOver run k then { run with phase := 1 } else run)

/-- The descriptor is running: the marks of its source tiles, FREE_PH's count, and a hello to every other member. -/
def collStart (b : Body) (beat n : Nat) (run : EngRun) (k : Coll) : Body × EngRun :=
  let e := run.desc
  let (x, st) := srcBytes b.data n run 0 (srcLen run k)
  let (b, run) := readMarks b beat n (run.mark 34 0) (e.f 8 8) x
  if st ≠ 0 then (b, { run with status := st, phase := 1 })
  else
    let b := if e.f 0 1 = 8 then { b with data := freeLost b.data run } else b
    let run := { run with ring0 := ((b.data.doorbellSeq (e.f 60 2)).map fun x => x.toNat).getD 0 }
    let (b, run) := eachWell k.others (fun b run r => sendColl b beat n run k r 0 0 (collKey 60 r) []) b run
    collGo b beat n run k

/-- A collective: it reads its set, then its source, and then runs. -/
def collPump (b : Body) (beat n : Nat) (run : EngRun) : Body × EngRun :=
  if !setRead b.data n run then askAll b beat n run (setNeeds b.data n run)
  else match readSet b.data n run, collOf b.data n run with
    | .error st, _ => (b, { run with status := st, phase := 1 })
    | .ok _, none => (b, run)
    | .ok _, some k =>
      if run.has 34 0 then collGo b beat n run k
      else
        let a := run.desc.f 8 8
        if haveIn b.data n run (ownNamed b.data a) a (srcLen run k) then collStart b beat n run k
        else askAll b beat n run (needIn b.data n run (ownNamed b.data a) a (srcLen run k))

/-- Drive every collective. -/
def pumpColls (b : Body) (beat : Nat) : Body :=
  if b.data.halted then b
  else b.data.engines.foldl (fun (b : Body) e => e.2.running.foldl (fun (b : Body) r =>
    if 128 ≤ e.1 ∧ 4 ≤ r.desc.f 0 1 ∧ r.phase = 0 ∧ r.status = 0 then
      let (b, r) := collPump b beat e.1 r
      { b with data := b.data.setRun e.1 r }
    else b) b) b

/-- Hand the answers to the runs that wait for them, and drive those. -/
def pump (b : Body) (beat : Nat) : Body := pumpColls (pumpCopies { b with data := b.data.absorb } beat) beat

/-- A COLL packet for a member that runs: a set that differs ends the descriptor at both ends; a hello is answered. -/
def collArrive (b : Body) (beat plot : Nat) (p : Packet) : Body :=
  let crc := field p.data 0 4
  let rank := field p.data 4 2
  let kind := field p.data 6 1
  let id := field p.data 8 4
  let num := field p.data 12 2
  let hit (r : EngRun) : Bool := r.desc.plot == plot && decide (4 ≤ r.desc.f 0 1) && r.desc.f 56 4 == id && r.phase == 0 && r.has 34 0
  let found := b.data.engines.findSome? fun e => if 128 ≤ e.1 then (e.2.running.find? hit).map fun r => (e.1, r) else none
  match found with
  | none => b
  | some (n, run) =>
    match collOf b.data n run with
    | none => b
    | some k =>
      let (b, run) := if crc ≠ k.crc then (b, { run with status := 5, phase := 1 })
        else if kind ≤ 1 then (b, run.mark kind rank)
        else if kind = 2 ∧ k.direct then (b, { run with got := run.got ++ [(collKey 2 rank, p.offset, p.data.drop 16)] })
        else (b, { run with got := run.got ++ [(collKey kind num, p.offset, p.data.drop 16)] })
      let (b, run) := if kind = 0 then
          sendFor b beat run (collKey 60 rank) (mkPkt 12 p.src p.tag 0 (engAgent n) 0 (collData k 1 0 id []))
        else (b, run)
      pumpColls { b with data := b.data.setRun n run } beat

/-! ### RELAY_DESC_START and RELAY_DESC_COMPLETE -/

/-- The issuer of a descriptor: its core, or the Dispatcher of its launch. -/
def issuer (d : Data) (e : EngDesc) : Nat :=
  match e.owner with
  | .group c _ => c
  | .node l _ => 672 + (((mget d.launches l).bind fun x => (mget d.pigeons x.queue).bind fun p => p.queue.map fun q => q.disp).getD (8 + l))

/-- A store of a run that no home has acknowledged. -/
def EngRun.storesOut (r : EngRun) : Bool := r.outs.any fun o => decide (rowKey 0 ≤ o.2) && decide (o.2 < 2 ^ 66)

/-- The descriptor of a queue that may begin: the first of its issuer; a FLAG only when none of its issuer runs, and every store of
the relay has been acknowledged (R280, R288; 08 R249). -/
def mayBegin (d : Data) (running : List EngRun) : List EngDesc → List EngDesc → Option (EngDesc × List EngDesc)
  | _, [] => none
  | seen, q :: qs =>
    let i := issuer d q
    if (seen.any fun e => issuer d e == i) || (q.f 0 1 == 3 && running.any fun r => issuer d r.desc == i || r.storesOut) then mayBegin d running (seen ++ [q]) qs
    else some (q, seen ++ qs)

/-- FLAG: the 8-byte value is stored at its home (R280). -/
def flagGo (b : Body) (beat n : Nat) (run : EngRun) : Body × EngRun :=
  let e := run.desc
  let a := e.f 16 8
  let own := ownNamed b.data a
  let l := natLe 8 (e.f 8 8)
  let (_, st) := wrCheck b n e own a 8
  let run := { run with phase := 1 }
  if st ≠ 0 then (b, { run with status := st })
  else match e.at_ b.data own a with
    | .ok (.remote node) =>
      sendFor { b with data := b.data.dropCopies (a / 128) } beat run (rowKey 0)
        { mkPkt 10 node (b.data.tagOf e.plot) a (engAgent n) 0 l with flag := true }
    | _ => writeRange b beat n run 0 own a none l

/-- RELAY_DESC_START: up to four descriptors run at once. -/
def execRelayDescStart (relay : EngineId) (s : State) : Host.Outcome State Fault Refusal :=
  s.runB fun beat b =>
    let n := engNo relay
    let e := b.data.engine n
    match mayBegin b.data e.running [] e.queue with
    | some (q, rest) =>
      if n < 128 || decide (4 ≤ e.running.length) || b.data.halted || engineInPass b n then b
      else
        let id := b.data.nextId
        let run := EngRun.fresh q id
        let st := relayStatus b.data n q
        let d := { b.data with nextId := id + 1, engines := mput b.data.engines n { queue := rest, running := e.running ++ [run] } }
        let b := { b with data := d }
        let (b, run) := if st ≠ 0 then (b, { run with status := st, phase := 1 })
          else match q.f 0 1 with
            | 1 | 2 => copyGo b beat n run
            | 3 => flagGo b beat n run
            | _ => collPump b beat n run
        pumpColls { b with data := b.data.setRun n run } beat
    | none => b

/-- 16 R443: a collective that completes joins the iterations of its context that are under way. -/
def noteColl (b : Body) (n : Nat) (run : EngRun) : Body :=
  let e := run.desc
  if e.f 0 1 < 4 then b
  else
    let crc := ((collOf b.data n run).map fun k => k.crc).getD 0
    let op := e.f 0 1 + 256 * e.f 1 1 + 65536 * e.f 2 1 + 16777216 * e.f 28 1
    let loose := (e.f 0 1 == 4 || e.f 0 1 == 5) && !detOn b e
    { b with data := { b.data with launches := mmap b.data.launches fun _ (l : Launch) =>
        if l.ctx = e.ctx ∧ l.open_ then { l with colls := l.colls ++ [(e.f 56 4, crc, op, e.f 48 4, loose)] } else l } }

/-- The run that may end: its work is done, no earlier PUT or GET of its issuer runs before it, and, where it rings the node of DST
with flag semantics, no store of another is unacknowledged (R280, R288). -/
def mayEnd (d : Data) (all : List EngRun) : List EngRun → List EngRun → Option EngRun
  | _, [] => none
  | seen, r :: rs =>
    let i := issuer d r.desc
    if 1 ≤ r.phase ∧ r.outs = [] ∧ !(decide (r.desc.f 0 1 ≤ 2) && seen.any fun x => decide (x.desc.f 0 1 ≤ 2) && issuer d x.desc == i) ∧
        !(r.desc.f 3 1 == 4 && all.any fun x => x.id != r.id && x.storesOut) then some r
    else mayEnd d all (seen ++ [r]) rs

/-- RELAY_DESC_COMPLETE: everything the descriptor sent has been acknowledged. The others of the package go on as far as they can. -/
def execRelayDescComplete (relay : EngineId) (s : State) : Host.Outcome State Fault Refusal :=
  s.runB fun beat b =>
    let n := engNo relay
    if n < 128 ∨ b.data.halted then b
    else
      let rs := (b.data.engine n).running
      match mayEnd b.data rs [] rs with
      | some run =>
        let b' := endRun b beat n run
        pump (if (b'.data.engine n).running.any fun r => r.id == run.id then b' else noteColl b' n run) beat
      | none => pump b beat

end Sys2Proof.Machine
end

