-- ==== Sys2Proof/Machine/Outage.lean ====
section
/-! DEFINITION. Units that leave service: frames, channels, compute dies, I/O dies and host ports
(07 R205-R209; 11 R321, R322; 12 R350; 14 R395; 15 R430, R431). -/

namespace Sys2Proof.Machine

def State.setBody (s : State) (b : Body) : State := { s with body := b }

/-! ### Frames (07 R208) -/

/-- ROW_PENDING: the frame of a row is pending retirement. `reason`: 1 four corrections, 2 an uncorrectable codeword. -/
def rowPending (d : Data) (ch frame row reason : Nat) : Data :=
  let f := ch * 16384 + frame
  if d.frameOut.contains f || d.framePend.contains f then d
  else { d with framePend := sadd d.framePend f }.post 0x0205 (5 + 256 * ch) [(ch, 0), (frame, 0), (row, 0), (reason, 0)]

/-- A corrected codeword of a row in this scrub period (86,400,000 beats); at four the row is pending. -/
def rowCorrected (d : Data) (beat ch frame off : Nat) : Data :=
  let d := d.count 0x0201 ch
  let row := off / 1024
  let k := ch * 2 ^ 20 + frame * 64 + row
  let per := beat / 86400000
  let old := mgetD d.rowErrs k 0
  let n := (if old / 256 = per then old % 256 else 0) + 1
  let d := { d with rowErrs := mput d.rowErrs k (per * 256 + min n 255) }
  if n = 4 then rowPending d ch frame row 1 else d

/-- What holds a physical byte: the plot of a memory object, side table or stored graph, and, in an object's stripe, the byte's
address. -/
def physOwner (d : Data) (p : Nat) : Option (Nat × Nat) :=
  let f := p / 2 ^ 16
  match d.objs.findSome? fun o =>
    if o.stripes.any fun st => st.contains f then
      ((List.range (o.size / 128)).find? fun i => objPhys o (128 * i) == some (p / 128 * 128)).map fun i => (o.plot, d.node * 2 ^ 40 + o.base + 128 * i)
    else none with
  | some x => some x
  | none =>
    match d.objs.find? fun o => o.side.contains f with
    | some o => some (o.plot, 0)
    | none => (d.graphs.find? fun g => g.2.frames.contains f).map fun g => (d.ctxPlot g.2.ctx, 0)

/-- An uncorrectable codeword: the line is lost, HBM_UE posted, and the row pending (R206, R208). -/
def lineUe (d : Data) (p : Nat) : Data :=
  let ch := physChan p
  let o := p % 2 ^ 30
  let own := physOwner d p
  let d := (d.lose p).post 0x0202 (5 + 256 * ch)
    [(ch, 2), (o / 65536, 2), (o % 65536 / 128 * 128, 2), ((own.map fun x => x.1).getD 255, 1), (0, 1), ((own.map fun x => x.2).getD 0, 8)]
  rowPending d ch (o / 65536) (o % 65536 / 1024) 2

/-! ### Requests whose home has gone -/

/-- Every request attached to a local fill of a line that has gone ends with DATA_LOST. -/
def failFills (d : Data) (gone : Nat → Bool) : Data :=
  let fs := d.fills.filter fun f => f.remote.isNone && gone (f.line * 128)
  let ids := fs.flatMap fun f => f.reqs
  { d with
    fills := d.fills.filter fun f => !(f.remote.isNone && gone (f.line * 128))
    reqs := d.reqs.map fun r => if ids.contains r.id then { r with stage := .failed .dataLost, pre := none } else r }

/-- The unit's number for UNIT_RETIRED. -/
def retiredPost (d : Data) (kind u st cause : Nat) : Data :=
  let src := if kind = 1 then 1 + 256 * u else if kind = 2 then 4 + 256 * u else if kind = 3 then 7 + 256 * (0x80 + u) else 6 + 256 * u
  d.post 0x0704 src [(u, 0), (kind, 0), (st, 0), (cause, 0)]

/-! ### Compute dies (14 R395, 15 R430) -/

/-- Thread blocks with a group on a die. -/
def dieBlocks (d : Data) (die : Nat) : List (Nat × Nat) :=
  d.cores.flatMap fun c => if c.1 / 84 = die then c.2.blocks.map fun b => (c.1, b.1) else []

/-- End every descriptor of an engine, running or queued, with a status. -/
def killEngine (b : Body) (beat n status : Nat) : Body :=
  let e := b.data.engine n
  let b := e.running.foldl (fun (b : Body) r => killRun b beat n r status) b
  let b := e.queue.foldl (fun (b : Body) q => killRun b beat n (EngRun.fresh q 0) status) b
  { b with data := { b.data with engines := mdel b.data.engines n } }

/-- Units that are no longer there have no pass, due or under way. -/
def Health.forget (h : Health) (gone : Nat → Bool) : Health :=
  { h with
    passes := mfilter h.passes fun k _ => !gone k
    dues := mfilter h.dues fun k _ => !gone k
    urgent := h.urgent.filter fun k => !gone k }

/-- A compute die leaves service. `cause`: 1 its rail, 2 channels, 3 slices, 4 its fabric. -/
def dieOut (s : State) (die cause : Nat) : State :=
  let b := s.body
  if b.data.dieOut.contains die then s
  else
    let beat := s.alm.beat
    let blocks := dieBlocks b.data die
    let groups := (b.data.cores.map fun c => if c.1 / 84 = die then c.2.groups.length else 0).sum
    let fails := ((blocks.filterMap fun x => (mget (b.data.core x.1).blocks x.2).map fun k => k.launch).eraseDups).length
    let d := blocks.foldl (fun (d : Data) x => abortBlock d x.1 x.2) b.data
    let d := { d with
      dieOut := sadd d.dieOut die
      cores := mfilter d.cores fun c _ => c / 84 != die
      retiring := mfilter d.retiring fun c _ => c / 84 != die
      plots := mmap d.plots fun _ (p : Plot) => { p with cores := p.cores.filter fun c => c / 84 != die }
      copies := mfilter d.copies fun _ c => c.die != die
      reqs := d.reqs.filter fun r => !(r.rem.isNone && r.die == die)
      cellar := mfilter d.cellar fun l _ => physDie (l * 128) != die }
    let d := failFills d fun p => physDie p == die
    let b := { b with data := d }
    let b := (List.range 16).foldl (fun (b : Body) i => killEngine b beat (16 * die + i) 2) b
    let gone (k : Nat) : Bool := (k / 2 ^ 16 == 1 || k / 2 ^ 16 == 2 || (k / 2 ^ 16 == 4 && k % 2 ^ 16 / 16 % 16 < 2)) && k % 16 == die
    let b := { b with hl := b.hl.forget gone }
    let b := if cause = 1 then b.post 0x0603 (8 + 256 * die) [(die, 0), (groups, 0), (fails, 0)]
      else b.post 0x0705 (2 + 256 * die) [(die, 0), (cause, 0), (groups, 0), (fails, 0)]
    s.setBody b

/-! ### Channels (07 R209) -/

/-- A channel is retired: every line of it is lost, dirty cellar lines are discarded; more than 16 of a die take the die
out. -/
def chanRetire (s : State) (ch : Nat) : State :=
  let b := s.body
  if b.data.chanOut.contains ch then s
  else
    let mine (l : Nat) : Bool := decide (l * 128 < 2 ^ 39) && physChan (l * 128) == ch
    let dirty := (b.data.cellar.filter fun e => mine e.1 && e.2.dirty).length
    let d := { b.data with
      chanOut := sadd b.data.chanOut ch
      cellar := mfilter b.data.cellar fun l _ => !mine l
      channels := mdel b.data.channels ch }
    let d := failFills d fun p => decide (p < 2 ^ 39) && physChan p == ch
    let d := d.post 0x0204 (5 + 256 * ch) [(ch, 0), (dirty, 0)]
    let b := { b with data := d, flash := { b.flash with channels := sadd b.flash.channels ch } }
    let s := s.setBody b
    if 16 < (s.body.data.chanOut.filter fun c => c / 64 == ch / 64).length then dieOut s (ch / 64) 2 else s

/-- Slices retire: one that is out is lost from its die; fewer than 8 take the die out. Scratch in it is lost. -/
def sliceRetire (s : State) (k : Nat) : State :=
  let b := s.body
  let d := { b.data with slices := mput b.data.slices k .out }
  let b := { b with data := retiredPost d 2 (unitCode (.slice (k / 56) (k % 56))) 2 413, flash := { b.flash with slices := sadd b.flash.slices k } }
  let s := s.setBody b
  if ((List.range 56).filter fun n => sliceUp s.body.data (56 * (k / 56) + n)).length < 8 then dieOut s (k / 56) 3 else s

/-! ### Host ports (12 R350, Table 5) -/

def portNo (p : HostPort) : Nat :=
  match p with
  | .ha => 0
  | .hb => 1

/-- The functions of a port. -/
def onPortFn (p : HostPort) (k : Nat) : Bool :=
  match p with
  | .ha => k == 0 || (decide (64 ≤ k) && decide (k < 128))
  | .hb => k == 1 || decide (128 ≤ k)

/-- A function's registers after a reset of the function. -/
def FnRegs.again (r : FnRegs) : FnRegs := { FnRegs.reset with gen := r.gen + 1 }

/-- A Dispatcher's store of a launch record is over: one that failed is told, and its context aborted (11 R495). -/
def Data.recordsOver (d : Data) : Data :=
  let done := d.reqs.filter fun r => r.ofDisp && writes r.op && r.over
  if done = [] then d
  else
    let d := { d with reqs := d.reqs.filter fun r => !(r.ofDisp && writes r.op && r.over) }
    done.foldl (fun (d : Data) r => match r.stage with
      | .failed _ => d.structLost r.slot 6 r.addr
      | _ => d) d

/-- Host reads under way that `mine` picks end with FABRIC_LOST. -/
def hostLost (b : Body) (beat : Nat) (mine : HostReq → Bool) : Body :=
  let gone := b.host.reqs.filter mine
  let d := gone.foldl (fun (d : Data) r => d.endReq (r.id % 2 ^ 32) (.failed .fabricLost)) b.data
  pump { b with data := d.recordsOver, host := { b.host with reqs := b.host.reqs.filter fun r => !mine r } } beat

/-- The link of a port goes down: its functions are reset, its reads end, and HOST_LINK_DOWN is posted. `cause` is that of
15 Table 15. -/
def portDown (s : State) (p : HostPort) (cause : Nat) : State :=
  let b := s.body
  let h := b.host
  let x := h.port p
  let h := h.setPort p { HostPortSt.reset with perst := x.perst, linkEvents := if x.up then x.linkEvents + 1 else x.linkEvents }
  let h := { h with fns := mmap h.fns fun k r => if onPortFn p k then r.again else r }
  let b := hostLost { b with host := h.dropOps fun f => fnPort f == p } s.alm.beat fun r => r.hb == (p == .hb)
  if x.up then
    s.setBody (b.post 0x0401 (7 + 256 * (portNo p + 1)) [(portNo p, 1), (cause, 1), (0, 6), (s.alm.beat, 8)])
  else s.setBody b

/-! ### Links (09 R270, R283) -/

/-- A port's verdict changes, and its connections move or come back. -/
def linkDown (s : State) (k reason : Nat) : State :=
  let f := s.body.fab
  let l := f.link k
  let up := l.carries
  let f := { f with links := mput f.links k { l with
    verdict := .noPeer, trained := false, lanes := 0, training := none, events := l.events + 1, txBuf := [], waiting := [], surveyDue := false } }
  let b := { s.body with fab := f }
  if l.trained || up then
    let b := b.post 0x0302 (7 + 256 * (0x80 + k)) [(k, 0), (reason, 0), (s.alm.beat, 0)]
    s.setBody (b.failover s.alm.beat k)
  else s.setBody b

/-! ### I/O dies (15 R431) -/

def sideDie (x : Side) : Nat :=
  match x with
  | .north => 8
  | .south => 9

/-- A launch on a queue whose Dispatcher has gone ends FAILED: nothing more is dispatched or placed. FAIL_CAUSE is open. -/
def failRebound (l : Launch) (cause : Nat) : Launch :=
  let fin (n : NodeRun) : NodeRun :=
    match n.st with
    | .waiting => { n with st := .cancelled }
    | .dispatched => if n.engine.isNone ∧ n.placed = 0 ∧ n.grid ≠ 0 then { n with st := .cancelled } else { n with grid := min n.grid n.placed }
    | _ => n
  { l with
    failedNode := some (l.failedNode.getD 0xFFFFFFFF)
    failCause := if l.failedNode.isSome then l.failCause else cause
    cancelled := l.cancelled + mcount l.nodes fun _ n => !nodeFinal n && nodeFinal (fin n)
    nodes := mmap l.nodes fun _ n => fin n }

/-- The queues of four Dispatchers move to the other I/O die and stop. -/
def rebind (d : Data) (lo : Nat) : Data × Nat :=
  let hit (p : Pigeon) : Bool := match p.queue with
    | some q => decide (lo ≤ q.disp) && decide (q.disp < lo + 4)
    | none => false
  let qs := d.pigeons.filter fun p => hit p.2
  let d := qs.foldl (fun (d : Data) p =>
    let seq := ((p.2.queue.bind fun q => q.launch).bind fun i => (mget d.launches i).map fun l => l.seq).getD 0
    let d := d.stopQueue p.1 3 seq
    let d := { d with
      launches := mmap d.launches fun _ l => if l.queue = p.1 ∧ !l.replay then failRebound l (Config.freeNat d.free % 65536) else l
      free := d.free + 1
      pigeons := mmod d.pigeons p.1 fun x => { x with queue := x.queue.map fun (q : Queue) => { q with disp := (q.disp + 4) % 8 } } }
    d) d
  (d, qs.length)

/-- An I/O die leaves service. `cause`: 1 its rail, 2 its fabric. -/
def ioOut (s : State) (x : Side) (cause : Nat) : State :=
  let die := sideDie x
  let b := s.body
  if b.data.dieOut.contains die then s
  else
    let beat := s.alm.beat
    let base := if x = .north then 0 else 4
    let (d, nq) := rebind b.data base
    let eng := (List.range 8).map fun i => 128 + (if x = .north then 0 else 8) + i
    let ended := (eng.map fun n => (d.engine n).running.length + (d.engine n).queue.length).sum
    let b := { b with data := { d with dieOut := sadd d.dieOut die } }
    let b := eng.foldl (fun (b : Body) n => killEngine b beat n 4) b
    let standby := pmOf b.mg x == .standbyReady || pmOf b.mg x == .syncing
    let gone (k : Nat) : Bool := (k / 2 ^ 16 == 3 && decide (k % 2 ^ 16 / 8 = (if x = .north then 0 else 1))) || (k / 2 ^ 16 == 4 && k % 16 == die)
    let b := { b with hl := b.hl.forget gone }
    let b := { b with mg := setPm b.mg x .off }
    let b := if standby then b.post 0x0506 (9 + 256 * (sideCode (some x) - 1)) [(sideCode (some x) - 1, 0)] else b
    let s := s.setBody b
    let ports := (List.range 8).map (fun i => (if x = .north then 0 else 8) + i) ++ [if x = .north then 16 else 17]
    let s := ports.foldl (fun s k => linkDown s k 0) s
    let s := s.setBody { s.body with fab := { s.body.fab with links := mmod s.body.fab.links (if x = .north then 16 else 17) fun l => { l with cablePower := false } } }
    let s := portDown s (if x = .north then .ha else .hb) 5
    let s := s.post 0x0706 (3 + 256 * die) [(die, 0), (cause, 0), (nq, 0), (ended, 0)]
    s

/-- The module fails (14 R396): its data plane halts. -/
def moduleFails (s : State) : State :=
  s.setBody { s.body with md := { s.body.md with state := 4 }, data := { s.body.data with halted := true } }

end Sys2Proof.Machine
end

