-- ==== Sys2Proof/Machine/HostAccess.lean ====
section
/-! DEFINITION. What the host asks for and what waits: BAR2, doorbells, and the order that one function's requests keep
(08 R245, R250, R255; 12 R342, R346-R349). -/

namespace Sys2Proof.Machine

/-! ### BAR2 (12 R342, R348, R349) -/

/-- The plot that a VF is bound to, through its own port (R343). -/
def vfPlot (d : Data) (p : HostPort) (n : Nat) : Option Nat :=
  (d.plots.find? fun q => q.2.vf == some (p == .hb, n)).map fun q => q.1

/-- The object and the offset in it to which a BAR2 offset maps. -/
def bar2At (b : Body) (f : Fn) (x : Nat) : Option (MemObj × Nat) :=
  match f with
  | .pf p =>
    if x < 2 ^ 39 ∧ x < 2 ^ (b.host.port p).pfBar2Log2 then
      (b.data.objs.find? fun o => decide (o.base ≤ x) && decide (x < o.base + o.size)).map fun o => (o, x - o.base)
    else none
  | .vf p n =>
    match vfPlot b.data p n with
    | none => none
    | some plot => if 2 ^ (b.host.port p).vfBar2Log2 ≤ x then none else b.data.apertures.findSome? fun e =>
      if e.1 = plot ∧ e.2.2 ≤ x then
        (b.data.objs.find? fun o => o.base == e.2.1 && decide (x < e.2.2 + o.size)).map fun o => (o, x - e.2.2)
      else none

/-- A request that is mapped at all of its bytes, in one object. -/
def bar2Range (b : Body) (f : Fn) (off len : Nat) : Option (MemObj × Nat) :=
  (bar2At b f off).bind fun x =>
    if x.2 + max 1 len ≤ x.1.size ∧ (bar2At b f (off + max 1 len - 1)).isSome then some x else none

/-- Change a function's registers. -/
def State.modFn (s : State) (f : Fn) (g : FnRegs → FnRegs) : State :=
  s.setBody { s.body with host := s.body.host.setFn f (g (s.body.host.fn f)) }

def State.live (s : State) (f : Fn) : Bool := s.body.host.live f

def State.emit (s : State) (o : Output) : State := s.setBody { s.body with host := s.body.host.emit o }

/-- Every byte of an object range is on a line that is not lost, else zero; and whether one is lost. -/
def bar2Bytes (d : Data) (o : MemObj) (x n : Nat) : List Byte × Bool :=
  let l := (List.range n).map fun i => match objPhys o (x + i) with
    | some p => if d.isLost p then none else some (d.rd p)
    | none => none
  (l.map fun b => b.getD 0, l.any fun b => b.isNone)

/-! ### Rings (12 R346, R347; 03 R99; 11 R332) -/

/-- The plot whose objects a function may ring: none for an unbound VF. -/
def mayRing (d : Data) (f : Fn) (plot : Nat) : Bool :=
  match f with
  | .pf _ => true
  | .vf p n => vfPlot d p n == some plot

def Body.modFn (b : Body) (f : Fn) (g : FnRegs → FnRegs) : Body := { b with host := b.host.setFn f (g (b.host.fn f)) }

def Body.refuseRing (b : Body) (f : Fn) : Body := b.modFn f fun r => { r with refused := r.refused + 1 }

/-- An access of BAR2 that nothing maps is counted. -/
def Body.unmapped (b : Body) (f : Fn) : Body := b.modFn f fun r => { r with unmapped := r.unmapped + 1 }

/-- Ring pigeonhole `n` for a function, or refuse; none while its ring's header cannot be written. -/
def hostRing (b : Body) (f : Fn) (n : Nat) : Option Body :=
  match mget b.data.pigeons n with
  | some h =>
    if !mayRing b.data f (b.data.ctxPlot h.ctx) then some (b.refuseRing f)
    else if b.data.busyAt (b.data.ctxPlot h.ctx) (h.ring + 16) 4 then none
    else some { b with data := b.data.ringPh n }
  | none => some (b.refuseRing f)

/-- Ring the fault doorbell of a context: its Dispatcher reads FREE_SEQ again. -/
def hostFault (b : Body) (f : Fn) (n : Nat) : Option Body :=
  match mget b.data.ctxs n with
  | none => some (b.refuseRing f)
  | some c =>
    if !mayRing b.data f c.plot then some (b.refuseRing f)
    else if b.data.busyAt c.plot (c.ring + 4) 4 then none
    else
      let (d, x) := b.data.sRead n 1 (c.ring + 4) 4
      some { b with data := { d with ctxs := mmod d.ctxs n fun (y : Ctx) => { y with rung := true, freeSeq := x.getD y.freeSeq } } }

/-! ### Writes -/

/-- The parts of a write of `l` at offset `x` of an object: aligned 8 bytes (08 R245); a lost line that it covers goes as one, which
ends its lost state (12 R342). -/
def hostParts (d : Data) (o : MemObj) (x : Nat) (l : List Byte) : List (Nat × Nat) :=
  (parts 128 x l.length).flatMap fun y =>
    if y.2 = 128 ∧ ((objPhys o y.1).map d.isLost) = some true then [y] else parts 8 y.1 y.2

/-- The numbers that the requests of those parts take. -/
def hostIds (d : Data) (o : MemObj) (x : Nat) (l : List Byte) : List Nat :=
  (List.range (hostParts d o x l).length).map fun i => d.nextId + i

/-- One part on its way to its home. -/
def Body.hostStore (b : Body) (f : Fn) (o : MemObj) (x : Nat) (l : List Byte) (k : Nat × Nat) : Body :=
  let d := b.data
  let r : LineReq :=
    { id := d.nextId, core := fnCore (fnKey f), slot := 0, iseq := 0, age := 0, plot := o.plot, pc := 0, opcode := 0,
      addr := d.node * 2 ^ 40 + o.base + k.1 / 128 * 128, tgt := .local ((objPhys o (k.1 / 128 * 128)).getD 0),
      op := .store ((List.range k.2).map fun i => ((k.1 + i) % 128, l.getD (k.1 + i - x) 0)), lanes := [],
      stage := .waiting, pre := none, rem := none, accepted := none }
  { b with data := { d with nextId := d.nextId + 1, reqs := d.reqs ++ [r] } }

/-- The payload of 0x0403 and 0x0404: port, function, KIND, address. -/
def hostFields (f : Fn) (kind a : Nat) : List (Nat × Nat) := [(portNo (fnPort f), 1), (fnStamp f, 1), (kind, 1), (0, 5), (a, 8)]

/-! ### What waits -/

/-- A request takes effect, if it can now: a write once every part is over, with HOST_WRITE_DROPPED when a part of a lost line was
dropped; a read once its lines can be read; a ring. One of a function that has gone has none. -/
def Body.hostDo (b : Body) (o : HostOp) : Option Body :=
  match o.kind with
  | .write ids =>
    let mine := b.data.reqs.filter fun r => ids.contains r.id
    if mine.any fun r => !r.over then none
    else
      let b' := { b with data := { b.data with reqs := b.data.reqs.filter fun r => !ids.contains r.id } }
      some (if mine.any fun r => r.stage != .acked && !fullMask r.op then b'.post 0x0404 (7 + 256 * fnStamp o.fn) (hostFields o.fn 1 o.off) else b')
  | .read =>
    if !b.host.live o.fn then some b
    else match bar2Range b o.fn o.off o.len with
      | none => some ((b.unmapped o.fn).emit (.unsupported o.fn))
      | some (ob, x) =>
        if b.data.busyAt ob.plot (ob.base + x) o.len then none
        else some (b.emit (.readData o.fn (bar2Bytes b.data ob x o.len).1 (bar2Bytes b.data ob x o.len).2))
  | .window n =>
    if !b.host.live o.fn then some b
    else match mget b.data.pigeons n with
      | none => some (b.emit (.readData o.fn (natLe 8 0) false))
      | some h =>
        if b.data.busyAt (b.data.ctxPlot h.ctx) h.ring 128 then none
        else
          let q := b.data.doorbellSeq n
          some (b.emit (.readData o.fn (natLe 8 ((q.map fun x => x.toNat).getD 0)) q.isNone))
  | .ring n => if b.host.live o.fn then hostRing b o.fn n else some b
  | .fault n => if b.host.live o.fn then hostFault b o.fn n else some b
  | .letter _ => none

/-- Everything that can take effect does, in order; a letter's ring is taken by the commands that carry letters (`takeRings`). -/
def Body.pumpHost (b : Body) : Body :=
  b.host.ops.foldl (fun (b : Body) o =>
    let at_ := b.host.ops.idxOf o
    if o.waits (b.host.ops.take at_) then b
    else match b.hostDo o with
      | some b' => { b' with host := { b'.host with ops := b'.host.ops.eraseIdx at_ } }
      | none => b) b

/-- A request of the host arrives: it takes effect, or waits. -/
def Body.hostAsk (b : Body) (o : HostOp) : Body :=
  let wait (b : Body) : Body := { b with host := { b.host with ops := b.host.ops ++ [o] } }
  if o.waits b.host.ops then wait b
  else match b.hostDo o with
    | some b' => b'
    | none => wait b

end Sys2Proof.Machine
end

