-- ==== Sys2Proof/Machine/Homes.lean ====
section
/-! DEFINITION. Line requests at their homes, fills, copies of remote lines, slices that move, scrubbing and retraining, and
reads of host windows (07 R205-R219; 08 R245; 12 R341). -/

namespace Sys2Proof.Machine

/-! ### Answers to other packages (09 R271) -/

/-- Send the answers of the requests that packets brought and that have been served. -/
def answerRemote (b : Body) (beat : Nat) : Body :=
  let done := b.data.reqs.filter fun r => r.rem.isSome && r.over
  let b := { b with data := { b.data with reqs := b.data.reqs.filter fun r => !(done.any fun q => q.id == r.id) } }
  done.foldl (fun (b : Body) r => match r.rem with
    | none => b
    | some m =>
      let ty := match r.op with
        | .load .. | .desc .. => 2
        | .store _ => 4
        | .atom .. => 6
      let (st, data) : Nat × List Byte := match r.stage with
        | .returned l olds => (0, if ty = 2 then l else olds.flatMap fun o => natLe 8 o.toNat)
        | .failed c => (engStatus c, [])
        | _ => (0, [])
      b.send beat { mkPkt ty m.node m.tag r.addr m.agent m.reqId data with status := st }) b

/-- Whoever waits for requests that are over has them: other packages their answers, engines and the host what they asked for. A
Dispatcher's stores are done with. -/
def answerAll (b : Body) (beat : Nat) : Body :=
  let b := answerRemote b beat
  let b := { b with data := b.data.recordsOver }
  let b := if b.data.reqs.any fun r => r.ofEngine && r.over then pump b beat else b
  if b.host.ops = [] then b else b.pumpHost

/-! ### Order of arrival (04 R126; 09 R279) -/

/-- Requests that keep their order: to one line; stores and atomics to one node or over one host port (08 R256); of another
package, to one home. -/
def sameWay (d : Data) (r q : LineReq) : Bool :=
  let line := r.addr / 128 == q.addr / 128
  match r.tgt, q.tgt with
  | .local a, .local b => a == b || (r.rem.isSome && d.sliceOf r.plot a == d.sliceOf q.plot b && physChan a == physChan b)
  | .bench a, .bench b => a == b
  | .remote a, .remote b => a == b && (line || (writes r.op && writes q.op))
  | .host a x, .host b y => a == b && (x == y || (writes r.op && writes q.op))
  | _, _ => false

/-- Same source: the core, or the agent of another package. -/
def sameSource (r q : LineReq) : Bool :=
  match r.rem, q.rem with
  | none, none => r.core == q.core
  | some m, some n => m.node == n.node && m.agent == n.agent
  | _, _ => false

/-- No earlier request keeps this one from its home. -/
def mayArrive (d : Data) (r : LineReq) : Bool :=
  d.reqs.all fun q => q.id == r.id || q.stage != .waiting || !sameWay d r q ||
    !((decide (q.id < r.id) && sameSource r q) || match q.accepted, r.accepted with
      | some a, some b => q.die == r.die && decide (a < b)
      | some _, none => q.die == r.die
      | none, _ => false)

/-! ### Local homes (07 R211-R216) -/

/-- Attach a request to a fill: what it will answer is settled in order of arrival. -/
def attach (d : Data) (p : Nat) (r : LineReq) (f : Fill) : Data :=
  let d := applyReq d p r
  let st := (d.req r.id).map fun q => q.stage
  let d := d.setReq { r with stage := .attached, pre := st }
  { d with fills := d.fills.map fun g => if g.id = f.id then { g with reqs := g.reqs ++ [r.id] } else g }

/-- Begin a fill, with this request attached. -/
def newFill (d : Data) (p : Nat) (r : LineReq) : Data :=
  let f : Fill := { id := d.nextId, line := p / 128, addr := r.addr, remote := none, reqs := [], install := true, plot := r.plot }
  attach { d with nextId := d.nextId + 1, fills := d.fills ++ [f] } p r f

/-- A slice keeps 256 misses outstanding (07 R213). -/
def missFree (d : Data) (k : Nat) : Bool :=
  decide ((d.fills.filter fun f => f.remote.isNone && d.homeSlice f.plot (f.line * 128) == some k).length < 256)

/-- CELLAR_ECC of one line. -/
def cellarEcc (d : Data) (slice kind p : Nat) : Data :=
  d.post 0x0206 (4 + 256 * (slice / 56 + 256 * (slice % 56))) [(slice / 56, 1), (slice % 56, 1), (kind, 1), (0, 1), (1, 4), (p / 128 * 128, 8)]

/-- Retraining of a channel begins; the request waits. -/
def beginRetrain (d : Data) (beat p : Nat) (r : LineReq) : Data :=
  let ch := physChan p
  let c : Channel := mgetD d.channels ch { retrains := [], training := none, held := [] }
  { d with channels := mput d.channels ch { c with training := some beat, held := [r.id] } }

def parityFails (ev : HomeEvent) : Bool :=
  match ev with
  | .parity n => decide (4 ≤ n)
  | _ => false

/-- The channel of a line is being retrained: the request is held. -/
def holdAt (d : Data) (ch : Nat) (r : LineReq) : Option Data :=
  match mget d.channels ch with
  | some c => if c.training.isSome then some { d with channels := mput d.channels ch { c with held := sadd c.held r.id } } else none
  | none => none

/-- A fill of a local line is outstanding. -/
def Data.filling (d : Data) (p : Nat) : Bool := d.fills.any fun f => f.remote.isNone && f.line == p / 128

/-- A request that HBM must serve: at a channel home, or a miss of slice `k`. It is held while its channel is retrained; a lost line
and a store of all of a line need no fill. -/
def atChannel (d : Data) (beat p : Nat) (k : Option Nat) (r : LineReq) (ev : HomeEvent) : Data :=
  match holdAt d (physChan p) r with
  | some d => d
  | none =>
    if d.dieOut.contains (physDie p) || d.chanOut.contains (physChan p) then applyReq d p r
    else if parityFails ev then beginRetrain d beat p r
    else match d.fills.find? fun f => f.remote.isNone && f.line == p / 128 with
      | some f => if f.reqs.length < 64 then attach d p r f else d
      | none =>
        if d.isLost p || fullMask r.op then applyReq d p r
        else if (k.map fun k => missFree d k).getD true then newFill d p r else d

/-- A line that its slice has served is held there; a store has made it dirty. -/
def Data.served (d : Data) (p : Nat) (r : LineReq) : Data := d.touch r.plot p (writes r.op) (d.streamAt r.plot r.addr)

/-- A request at its home slice. -/
def atSlice (d : Data) (beat p k : Nat) (r : LineReq) (ev : HomeEvent) : Data :=
  match mget d.cellar (p / 128) with
  | some c =>
    match ev with
    | .eccSingle => (applyReq (d.count 0x0206 k) p r).served p r
    | .eccDouble =>
      if c.dirty then (applyReq (cellarEcc (d.lose p) k 3 p) p r).served p r
      else atChannel (cellarEcc { d with cellar := mdel d.cellar (p / 128) } k 2 p) beat p (some k) r .plain
    | _ => (applyReq d p r).served p r
  | none =>
    if fullMask r.op && !d.filling p && !d.dieOut.contains (physDie p) && !d.chanOut.contains (physChan p) then (applyReq d p r).served p r
    else atChannel d beat p (some k) r ev

/-- A request at a scratch slice in service. -/
def atScratch (d : Data) (p k : Nat) (r : LineReq) (ev : HomeEvent) : Data :=
  match ev with
  | .eccSingle => applyReq (d.count 0x0206 k) p r
  | .eccDouble => applyReq (cellarEcc (d.lose p) k 3 p) p r
  | _ => applyReq d p r

/-- A local request: `p0` names the byte, and its home now is its slice, or while that is under test or gone the channel of the line or
of its place in the save area (07 R211, R217). While the homes move it is held. -/
def serveLocal (d : Data) (beat p0 : Nat) (r : LineReq) (ev : HomeEvent) : Data :=
  match d.sliceOf r.plot p0 with
  | none => atChannel d beat p0 none r ev
  | some k =>
    match mgetD d.slices k .inService with
    | .flushing _ | .returning _ => d
    | .bypassed _ | .out => if d.scratchHome p0 < 2 ^ 39 then atChannel d beat (d.scratchHome p0) none r ev else applyReq d p0 r
    | .inService => if 2 ^ 39 ≤ p0 then atScratch d p0 k r ev else atSlice d beat p0 k r ev

/-! ### Lines of other packages (07 R218, R219) -/

/-- H: the exclusive or of the 16-bit slices of address bits [51:7]. -/
def lineHash (a : Nat) : Nat := (a / 2 ^ 7 % 65536) ^^^ (a / 2 ^ 23 % 65536) ^^^ (a / 2 ^ 39 % 2 ^ 13)

/-- The slice that a copy of a remote line takes, whatever it is doing: none when the plot has no cache slice on that die. -/
def copyHome (d : Data) (plot a : Nat) : Option Nat :=
  let ds := (List.range 8).filter fun i => !d.dieOut.contains i
  let h := lineHash a
  (ds[h * ds.length / 65536]?).bind fun die =>
    let s := ((mget d.plots plot).map fun q => q.cache.filter fun k => k / 56 == die).getD []
    s[h * s.length / 65536]?

/-- Where a copy of a remote line is held now: nowhere while its slice is under test. -/
def copySlice (d : Data) (plot a : Nat) : Option Nat :=
  (copyHome d plot a).bind fun k => if mgetD d.slices k .inService = .inService then some k else none

/-- Key of a plot's copy of a line. -/
def copyKey (line plot : Nat) : Nat := 64 * line + plot

/-- A copy of a line that has come is put into its slice. -/
def Data.copyPut (d : Data) (plot a : Nat) (l : List Byte) : Data :=
  match copySlice d plot a with
  | some k =>
    let d := d.makeRoom k (a / 128)
    { d with copies := mput d.copies (copyKey (a / 128) plot) { data := l, die := k / 56, slice := k % 56, plot := plot } }
  | none => d

/-- Operations of an ATOMIC packet: for each thread its offset, operand and new value. The layout is the model's own. -/
def atomBytes (ls : List Lane) : List Byte := ls.flatMap fun l => natLe 8 l.off ++ natLe 8 l.opnd.toNat ++ natLe 8 l.cmp.toNat

/-- SRC_AGENT of whoever asks: kind 5 is a Dispatcher (09 Table 6). -/
def reqAgent (r : LineReq) : Nat :=
  if r.core < 4096 then coreAgent r.core
  else if r.core < 8192 then engAgent (r.core - 4096) else 5 * 4096 + (r.core - 8192)

/-- The packet of a request, as it leaves for its node. -/
def reqPacket (d : Data) (node : Nat) (r : LineReq) : Packet :=
  let tag := d.tagOf r.plot
  let ag := reqAgent r
  match r.op with
  | .load ro .. => { mkPkt 1 node tag r.addr ag r.id [] with ro := ro }
  | .desc .. => mkPkt 1 node tag r.addr ag r.id []
  | .store bs =>
    let m := (List.range 128).map fun k => bs.any fun x => x.1 == k
    let full := (List.range 128).map fun k => ((bs.find? fun x => x.1 == k).map fun x => x.2).getD 0
    { mkPkt 3 node tag r.addr ag r.id full with masked := !fullMask r.op, mask := m }
  | .atom aop ty _ _ => { mkPkt 5 node tag r.addr ag r.id (atomBytes r.lanes) with aop := aop, ty := ty }

/-- Send a request to its node. -/
def sendReq (b : Body) (beat node : Nat) (r : LineReq) : Body :=
  let d := b.data.setReq { r with stage := .attached }
  let d := if writes r.op then d.dropCopies (r.addr / 128) else d
  ({ b with data := d }).send beat (reqPacket d node r)

/-- A read of a remote line of which slice `k` may hold a copy: from the copy, on its way with a fill, or by a new one. A fill that an
invalidation has met takes no more requests (07 R219). -/
def serveCopy (b : Body) (beat node k : Nat) (r : LineReq) (ev : HomeEvent) : Body :=
  let d := b.data
  let line := r.addr / 128
  let fetch (d : Data) : Body :=
    match d.fills.find? fun f => f.remote == some node && f.addr / 128 == line && f.plot == r.plot && f.install with
    | some f =>
      if f.reqs.length < 64 then
        let d := d.setReq { r with stage := .attached }
        { b with data := { d with fills := d.fills.map fun g => if g.id = f.id then { g with reqs := g.reqs ++ [r.id] } else g } }
      else { b with data := d }
    | none =>
      let f : Fill := { id := d.nextId, line := line, addr := r.addr, remote := some node, reqs := [r.id], install := true, plot := r.plot }
      let d := { d.setReq { r with stage := .attached } with nextId := d.nextId + 1, fills := d.fills ++ [f] }
      ({ b with data := d }).send beat { mkPkt 1 node (d.tagOf r.plot) r.addr (reqAgent r) f.id [] with ro := true }
  match mget d.copies (copyKey line r.plot) with
  | some c =>
    if 56 * c.die + c.slice = k then
      match ev with
      | .eccDouble => fetch (cellarEcc { d with copies := mdel d.copies (copyKey line r.plot) } k 2 (line * 128))
      | .eccSingle => { b with data := (d.count 0x0206 k).setReq { r with stage := .returned c.data [] } }
      | _ => { b with data := d.setReq { r with stage := .returned c.data [] } }
    else fetch d
  | none => fetch d

def serveRemote (b : Body) (beat node : Nat) (r : LineReq) (ev : HomeEvent) : Body :=
  match b.sendFault r.plot node true with
  | some c => { b with data := b.data.setReq { r with stage := .failed c } }
  | none =>
    match r.op with
    | .load true .. => match copySlice b.data r.plot r.addr with
      | some k => serveCopy b beat node k r ev
      | none => sendReq b beat node r
    | _ => sendReq b beat node r

/-! ### Host windows (12 R341) -/

/-- The function whose requester ID a plot's traffic over a port carries: its VF, or the port's PF (R341; 08 R241). -/
def trafficFn (d : Data) (plot : Nat) (hb : Bool) : Fn :=
  match (mget d.plots plot).bind fun p => p.vf with
  | some (h, n) => .vf (if h then .hb else .ha) n
  | none => .pf (if hb then .hb else .ha)

/-- A read of a host window leaves and waits for its completion; or it waits to leave, while 768 of its function's are under way
(12 Table 1). -/
def hostFetch (b : Body) (hb : Bool) (bus : Nat) (r : LineReq) : Body :=
  let f := trafficFn b.data r.plot hb
  if 768 ≤ (b.host.reqs.filter fun q => q.fn == f).length then b
  else
    let h := { b.host with reqs := b.host.reqs ++ [{ id := r.id, hb := hb, bus := bus, len := 128, fn := f }] }
    ({ b with data := b.data.setReq { r with stage := .attached }, host := h }).emit (.hostRead f hb bus 128)

/-- A request to a host window. A store leaves as a posted write; a core's is confirmed, by a read of the same window, when a fence or
the end of its thread block asks for it; an engine's or a Dispatcher's always is (04 R125; 07 R226; 08 R249). -/
def serveHost (b : Body) (hb : Bool) (bus : Nat) (r : LineReq) : Body :=
  if !hostPath b r.plot hb then { b with data := b.data.setReq { r with stage := .failed .fabricLost } }
  else match r.op, r.stage with
    | .store bs, .waiting =>
      ({ b with data := b.data.setReq { r with stage := if r.core < 672 then .posted else .confirming } }).emit
        (.hostWrite (trafficFn b.data r.plot hb) hb bus bs)
    | _, _ => hostFetch b hb bus r

/-- Homes serve while the data plane runs, and during a cold stop until it has halted (14 R399). -/
def serving (b : Body) : Bool :=
  !b.data.halted || match b.pw.cold with
    | .stopping _ => true
    | _ => false

/-- A request that may reach its home: no earlier one keeps it back; or a posted store whose confirming read is due. -/
def mayServe (d : Data) (r : LineReq) : Bool := (r.stage == .waiting && mayArrive d r) || r.stage == .confirming

/-- HOME_LINE_REQUEST: the request reaches its home and is served, attached to a fill, held, or sent on. -/
def execHomeLineRequest (req : Nat) (ev : HomeEvent) (s : State) : Host.Outcome State Fault Refusal :=
  s.runB fun beat b =>
    match b.data.req req with
    | some r =>
      if mayServe b.data r && serving b then
        answerAll (match r.tgt with
          | .local p => { b with data := serveLocal b.data beat p r ev }
          | .bench a => { b with data := applyBench b.data a r }
          | .remote n => serveRemote b beat n r ev
          | .host hb bus => serveHost b hb bus r) beat
      else b
    | none => b

/-- HBM_FILL_RETURN: the fill of a local line arrives; every attached request has its answer, or DATA_LOST. -/
def execHbmFillReturn (fill : Nat) (res : CodewordResult) (s : State) : Host.Outcome State Fault Refusal :=
  s.runB fun beat b =>
    let d := b.data
    match d.fills.find? fun f => f.id == fill && f.remote.isNone with
    | none => b
    | some f =>
      let p := f.line * 128
      if !serving b || ((mget d.channels (physChan p)).bind fun c => c.training).isSome then b
      else
        let d := { d with fills := d.fills.filter fun g => g.id != fill }
        match res with
        | .uncorrectable =>
          let d := lineUe d p
          let d := { d with reqs := d.reqs.map fun (r : LineReq) => if f.reqs.contains r.id then { r with stage := .failed .dataLost, pre := none } else r }
          answerAll { b with data := settleFrames d } beat
        | _ =>
          let d := if res = .corrected then rowCorrected d beat (physChan p) (p % 2 ^ 30 / 65536) (p % 65536) else d
          let mine := d.reqs.filter fun r => f.reqs.contains r.id
          let d := { d with reqs := d.reqs.map fun (r : LineReq) => if f.reqs.contains r.id then { r with stage := r.pre.getD r.stage, pre := none } else r }
          let d := if d.physAt f.plot (f.addr % 2 ^ 40) = some p then d.touch f.plot p (mine.any fun r => writes r.op) (d.streamAt f.plot f.addr) else d
          answerAll { b with data := settleFrames d } beat

/-! ### Channels and scrubbing (07 R205, R208) -/

/-- HBM_RETRAIN_DONE: the held requests proceed; a failed retrain, or the third of an epoch, retires the channel. -/
def execHbmRetrainDone (channel : Nat) (trained : Bool) (s : State) : Host.Outcome State Fault Refusal :=
  s.run fun s =>
    let d := s.body.data
    match mget d.channels channel with
    | some c =>
      match c.training with
      | some t =>
        let beat := s.alm.beat
        let now := c.retrains.filter fun x => x / 1000 == beat / 1000
        let c' : Channel := { retrains := now ++ [beat], training := none, held := [] }
        let d := ({ d with channels := mput d.channels channel c' }).post 0x0203 (5 + 256 * channel)
          [(channel, 0), (t, 0), (beat, 0), (c.held.length, 0)]
        let s := s.setData d
        let s := if !trained ∨ 2 ≤ now.length then chanRetire s channel else s
        s.setBody (answerAll s.body beat)
      | none => s
    | none => s

/-- HBM_SCRUB_READ: the patrol scrubber reads a codeword. -/
def execHbmScrubRead (channel frame off : Nat) (res : CodewordResult) (s : State) : Host.Outcome State Fault Refusal :=
  s.runD fun beat d =>
    let p := channel * 2 ^ 30 + frame * 2 ^ 16 + off
    if channel < 512 ∧ frame < 16384 ∧ off < 65536 ∧ !d.isLost p ∧ !d.halted then
      match res with
      | .ok => d
      | .corrected => settleFrames (rowCorrected d beat channel frame off)
      | .uncorrectable => settleFrames (lineUe d p)
    else d

/-! ### Slices under test (07 R217) -/

/-- SLICE_BYPASS: kind 1 cache, 2 scratch. -/
def sliceBypass (d : Data) (k kind since beat : Nat) : Data :=
  d.post 0x0207 (4 + 256 * (k / 56 + 256 * (k % 56))) [(k / 56, 0), (k % 56, 0), (kind, 0), (since, 0), (beat, 0)]

/-- A fill on its way to cache slice `k`: of a line whose home it is, or of a copy. -/
def fillsSlice (d : Data) (k : Nat) (f : Fill) : Bool :=
  (if f.remote.isSome then copyHome d f.plot f.addr else d.homeSlice f.plot (f.line * 128)) == some k

/-- SLICE_FLUSH_DONE: a cache slice under test has its outstanding fills; its dirty lines are written and its copies discarded; the
channel homes take over. At the end of the pass the slice is home again, and empty. -/
def execSliceFlushDone (die slice : Nat) (s : State) : Host.Outcome State Fault Refusal :=
  s.runB fun beat b =>
    let d := b.data
    let k := 56 * die + slice
    if isScratch d k || d.halted || d.fills.any (fillsSlice d k) then b
    else match mgetD d.slices k .inService with
      | .flushing t =>
        let d := { d with
          slices := mput d.slices k (.bypassed beat)
          cellar := mfilter d.cellar fun _ c => c.slice != k
          copies := mfilter d.copies fun _ c => 56 * c.die + c.slice != k }
        answerAll { b with data := sliceBypass d k 1 t beat } beat
      | .returning t => answerAll { b with data := sliceBypass { d with slices := mdel d.slices k } k 1 t beat } beat
      | _ => b

/-- Move the bytes and the lost marks of 64 KiB. -/
def moveFrame (d : Data) (src dst : Nat) : Data :=
  let cells := d.mem.filter fun c => decide (src ≤ c.1) && decide (c.1 < src + 65536)
  let d := { d with mem := clearRange d.mem dst 65536, lost := d.lost.filter fun l => !(decide (dst ≤ l * 128) && decide (l * 128 < dst + 65536)) }
  let gone := (List.range 512).filter fun i => d.isLost (src + 128 * i)
  let d := cells.foldl (fun (d : Data) c => d.wr (dst + (c.1 - src)) c.2) d
  gone.foldl (fun (d : Data) i => d.lose (dst + 128 * i)) d

/-- SCRATCH_COPY_DONE: the 4 MiB of a scratch slice have been copied to the save area, or back. -/
def execScratchCopyDone (die slice : Nat) (s : State) : Host.Outcome State Fault Refusal :=
  s.runB fun beat b =>
    let d := b.data
    let k := 56 * die + slice
    let fs := (mgetD d.saveArea die []).zipIdx
    if !isScratch d k || d.halted || fs.length < 64 then b
    else match mgetD d.slices k .inService with
      | .flushing t =>
        let d := fs.foldl (fun (d : Data) f => moveFrame d (2 ^ 39 + k * 2 ^ 22 + 65536 * f.2) (framePhys f.1)) d
        answerAll { b with data := sliceBypass { d with slices := mput d.slices k (.bypassed beat) } k 2 t beat } beat
      | .returning t =>
        if d.fills.any fun f => f.remote.isNone && fs.any fun x => x.1 == f.line * 128 / 65536 then b
        else
          let d := fs.foldl (fun (d : Data) f => moveFrame d (framePhys f.1) (2 ^ 39 + k * 2 ^ 22 + 65536 * f.2)) d
          answerAll { b with data := settleFrames (sliceBypass { d with slices := mdel d.slices k } k 2 t beat) } beat
      | _ => b

/-! ### Reads of host windows -/

/-- HOST_WINDOW_READ_COMPLETION: data; or FABRIC_LOST after a timeout or an error; or DATA_LOST when poisoned. The data
of the read that confirms a posted store is not used. -/
def execHostWindowReadCompletion (req : Nat) (res : CplStatus) (data : List (BitVec 8)) (s : State) : Host.Outcome State Fault Refusal :=
  s.runB fun beat b =>
    match b.host.reqs.find? fun r => r.id == req with
    | none => b
    | some h =>
      if res = .ok ∧ data.length ≠ h.len then b
      else
        let b := { b with host := { b.host with reqs := b.host.reqs.filter fun q => q.id != req } }
        let r := b.data.req h.id
        let store := (r.map fun q => writes q.op).getD false
        let st : ReqStage :=
          if store then (if res = .ok ∨ res = .poisoned then .acked else .failed .fabricLost)
          else if res = .ok then .returned data [] else .failed (if res = .poisoned then .dataLost else .fabricLost)
        let d := b.data.endReq (h.id % 2 ^ 32) st
        let f := h.fn
        let port := if h.hb then 1 else 0
        let d := if res = .poisoned then d.post 0x0403 (7 + 256 * fnStamp f) [(port, 1), (fnStamp f, 1), (2, 1), (0, 5), (h.bus, 8)] else d
        let b := { b with data := d }
        answerAll (if res = .poisoned then b.emit (.aer f) else b) beat

end Sys2Proof.Machine
end

