-- ==== Sys2Proof/Machine/HostPorts.lean ====
section
/-! DEFINITION. What the host does through HA and HB: BAR2, doorbells, registers, and the ports' resets (12; 13 R360, R364). -/

namespace Sys2Proof.Machine

/-! ### BAR2 (12 R342, R348, R349) -/

/-- HOST_BAR2_READ: data, poisoned where a line is lost; or Unsupported Request. It waits for what the function asked for before,
and for lines that cannot be read now. -/
def execHostBar2Read (fn : Fn) (off len : Nat) (s : State) : Host.Outcome State Fault Refusal :=
  s.runB fun _ b =>
    if !b.host.live fn then b
    else match bar2Range b fn off len with
      | none => b.unmapped fn |>.emit (.unsupported fn)
      | some _ => b.hostAsk { fn := fn, off := off, len := len, kind := .read }

/-- HOST_BAR2_WRITE: its aligned 8-byte parts go to their homes. -/
def execHostBar2Write (fn : Fn) (off : Nat) (data : List (BitVec 8)) (poisoned : Bool) (s : State) : Host.Outcome State Fault Refusal :=
  s.runB fun _ b =>
    if !b.host.live fn then b
    else if poisoned then (b.post 0x0403 (7 + 256 * fnStamp fn) (hostFields fn 1 off)).emit (.aer fn)
    else match bar2Range b fn off data.length with
      | none => b.unmapped fn
      | some (o, x) => if data = [] then b else (hostParts b.data o x data).foldl (fun (b : Body) k => b.hostStore fn o x data k)
          { b with host := { b.host with ops := b.host.ops ++ [{ fn := fn, off := off, len := data.length, kind := .write (hostIds b.data o x data) }] } }

/-! ### Doorbells (12 R346, R347; 03 R99; 11 R332) -/

/-- PH_RING. -/
def execPhRing (fn : Fn) (value : BitVec 32) (s : State) : Host.Outcome State Fault Refusal :=
  s.runB fun _ b =>
    if !b.host.live fn then b
    else if 4096 ≤ value.toNat then b.refuseRing fn
    else b.hostAsk { fn := fn, off := 0, len := 0, kind := .ring value.toNat }

/-- CTX_FAULT: the context's Dispatcher reads FREE_SEQ again, and will act on the dispositions. -/
def execCtxFault (fn : Fn) (value : BitVec 32) (s : State) : Host.Outcome State Fault Refusal :=
  s.runB fun _ b =>
    if b.host.live fn then b.hostAsk { fn := fn, off := 0, len := 0, kind := .fault value.toNat } else b

def isPfFn (f : Fn) : Bool :=
  match f with
  | .pf _ => true
  | .vf _ _ => false

/-- PH_WINDOW_WRITE: a PF's window `n`. -/
def execPhWindowWrite (fn : Fn) (n : Nat) (s : State) : Host.Outcome State Fault Refusal :=
  s.runB fun _ b =>
    if b.host.live fn && isPfFn fn && decide (n < 4096) then b.hostAsk { fn := fn, off := 0, len := 0, kind := .ring n } else b

/-- PH_WINDOW_READ: DOORBELL_SEQ; zero of a pigeonhole not created; poisoned when its header is lost. -/
def execPhWindowRead (fn : Fn) (n : Nat) (s : State) : Host.Outcome State Fault Refusal :=
  s.runB fun _ b =>
    if b.host.live fn && isPfFn fn && decide (n < 4096) then b.hostAsk { fn := fn, off := 0, len := 0, kind := .window n } else b

/-! ### Registers (12 Tables 2 to 4) -/

/-- The word at 0x00: PORT_STAMP, PLOT, BOUND, DB_UNLOCKED. -/
def State.portWord (s : State) (f : Fn) : Nat :=
  let plot := match f with
    | .pf _ => 255
    | .vf p n => (vfPlot s.body.data p n).getD 255
  fnStamp f + 2 ^ 8 * plot + (if s.bound f then 2 ^ 16 else 0) + (if s.body.mgdb.grants ≠ 0 then 2 ^ 17 else 0)

/-- A byte of BAR0 that no command of its own reads. The STAMP of a letter slot, write-only registers and reserved offsets read as
zero, and so does the rest of an unbound VF's (R343). -/
def State.bar0Byte (s : State) (f : Fn) (a : Nat) : Byte :=
  let pf := isPfFn f
  let r := s.body.host.fn f
  let lb := if pf then 0x10000 else 0x1000
  let mt := if pf then 0x200000 else 0x4000
  let pb := if pf then 0x208000 else 0x4800
  if a < 4 then BitVec.ofNat 8 (s.portWord f / 256 ^ a)
  else if a = 4 then BitVec.ofNat 8 (s.body.host.port (fnPort f)).vfBar2Log2
  else if 0x10 ≤ a ∧ a < 0x12 then BitVec.ofNat 8 (r.replyVector / 256 ^ (a - 0x10))
  else if lb ≤ a ∧ a < lb + 0x1000 then mgetD r.letters (a - lb) 0
  else if lb + 0x1000 ≤ a ∧ a < lb + 0x2000 then mgetD r.replies (a - lb - 0x1000) 0
  else if !s.bound f then 0
  else if mt ≤ a ∧ a < mt + (if pf then 0x8000 else 0x200) then mgetD r.msix (a - mt) (if (a - mt) % 16 = 12 then 1 else 0)
  else if pb ≤ a ∧ a < pb + (if pf then 0x100 else 8) then
    BitVec.ofNat 8 ((List.range 8).foldl (fun n i => if r.pba.contains (8 * (a - pb) + i) then n + 2 ^ i else n) 0)
  else 0

/-- BAR2_UNMAPPED_READ, and the reads of BAR0 that have no command of their own. -/
def execBar2UnmappedRead (rd : Bar0Read) (s : State) : Host.Outcome State Fault Refusal :=
  s.run fun s =>
    let fn := rd.fn
    if !s.live fn then s
    else match rd.part with
      | none => (s.modFn fn fun r => { r with unmapped := 0 }).emit (.readData fn (natLe 4 (s.body.host.fn fn).unmapped) false)
      | some (off, len) =>
        let s := takeRings s
        s.emit (.readData fn ((List.range len).map fun i => s.bar0Byte fn (off + i)) false)

/-- LINK_EVENTS_READ: the port's count; zero on a VF. -/
def execLinkEventsRead (fn : Fn) (s : State) : Host.Outcome State Fault Refusal :=
  s.run fun s =>
    if !s.live fn then s
    else match fn with
      | .pf p =>
        let h := s.body.host
        let x := h.port p
        (s.setBody { s.body with host := h.setPort p { x with linkEvents := 0 } }).emit (.readData fn (natLe 4 x.linkEvents) false)
      | .vf _ _ => s.emit (.readData fn (natLe 4 0) false)

/-- DOORBELL_REFUSED_READ. -/
def execDoorbellRefusedRead (fn : Fn) (s : State) : Host.Outcome State Fault Refusal :=
  s.run fun s =>
    if s.live fn then
      (s.modFn fn fun r => { r with refused := 0 }).emit (.readData fn (natLe 4 (s.body.host.fn fn).refused) false)
    else s

/-- The register bytes `o` to `o + n - 1` after a write of `l` at `off`, or nothing where the write does not touch them. -/
def overlay (o n old off : Nat) (l : List Byte) : Option Nat :=
  if off < o + n ∧ o < off + l.length then
    some (leNat ((List.range n).map fun i =>
      if off ≤ o + i ∧ o + i < off + l.length then l.getD (o + i - off) 0 else BitVec.ofNat 8 (old / 256 ^ i)))
  else none

/-- Send what waits on vectors that are no longer masked. -/
def HostSt.unmask (h : HostSt) (f : Fn) : HostSt :=
  let r := h.fn f
  let go := r.pba.filter fun v => !(mgetD r.msix (16 * v + 12) 1).getLsbD 0
  go.foldl (fun (h : HostSt) v => h.emit (.msix f v)) (h.setFn f { r with pba := r.pba.filter fun v => !go.contains v })

/-- One byte of BAR0, of a letter slot or of the MSI-X table; STAMP rings by a command of its own. -/
def byteWrite (pf known : Bool) (r : FnRegs) (a : Nat) (x : Byte) : FnRegs :=
  let lb := if pf then 0x10000 else 0x1000
  let mt := if pf then 0x200000 else 0x4000
  if lb ≤ a ∧ a < lb + 0x1000 then
    (if (a - lb) % 256 / 4 = 3 then r else { r with letters := cput 0 r.letters (a - lb) x })
  else if known ∧ mt ≤ a ∧ a < mt + (if pf then 0x8000 else 0x200) then
    { r with msix := cput (if (a - mt) % 16 = 12 then 1 else 0) r.msix (a - mt) x }
  else r

/-- A new size of a PF's BAR2, by its log2: 1 GiB to 1 TiB (Table 1). -/
def resizeBar2 (s : State) (f : Fn) (log2 : Nat) : State :=
  if isPfFn f && decide (30 ≤ log2) && decide (log2 ≤ 40) then
    s.setBody { s.body with host := s.body.host.setPort (fnPort f) { s.body.host.port (fnPort f) with pfBar2Log2 := log2 } }
  else s

/-- REGISTER_WRITE: VF_BAR2_LOG2, REPLY_VECTOR, letter slots and the MSI-X table, every other offset ignoring it; or the size field of
a PF's Resizable BAR control, whose value n stands for 2^(n + 20) bytes. -/
def execRegisterWrite (fn : Fn) (target : RegTarget) (data : List (BitVec 8)) (s : State) : Host.Outcome State Fault Refusal :=
  s.run fun s =>
    match target with
    | .bar2Size => if s.live fn then resizeBar2 s fn (leNat data + 20) else s
    | .bar0 off =>
    if !s.live fn then s
    else
      let pf := isPfFn fn
      let h := s.body.host
      let x := h.port (fnPort fn)
      let h := match overlay 4 1 x.vfBar2Log2 off data with
        | some v => if pf && !x.vfEnable && decide (21 ≤ v % 64) && decide (v % 64 ≤ 39) then h.setPort (fnPort fn) { x with vfBar2Log2 := v % 64 } else h
        | none => h
      let r := h.fn fn
      let r := match overlay 0x10 2 r.replyVector off data with
        | some v => if v % 4096 = 0xFFF ∨ v % 4096 < (if pf then 2048 else 32) then { r with replyVector := v % 4096 } else r
        | none => r
      let r := (data.zipIdx).foldl (fun (r : FnRegs) e => byteWrite pf (s.bound fn) r (off + e.2) e.1) r
      s.setBody { s.body with host := (h.setFn fn r).unmask fn }

/-! ### Ports (12 R350, Table 5; 18 R476, R478) -/

/-- NEXT_SEQ becomes UNSET for a port, and its archive is empty (13 R364, R371). -/
def Mgmt.unset (m : Mgmt) (stamp : Nat) : Mgmt := { m with nextSeq := mdel m.nextSeq stamp, archive := mdel m.archive stamp }

/-- The VFs bound through a port. -/
def portVfs (d : Data) (p : HostPort) : List Nat :=
  d.plots.filterMap fun q => match q.2.vf with
    | some (hb, n) => if hb = (p == .hb) then some n else none
    | none => none

/-- NEXT_SEQ is UNSET for the PF of a port and for the VFs bound through it. -/
def unsetPort (s : State) (p : HostPort) : State :=
  let ns := portVfs s.body.data p
  s.mg fun m => ns.foldl (fun (m : Mgmt) n => m.unset (0x40 + n)) (m.unset (fnStamp (.pf p)))

/-- PERST_ASSERT. -/
def execPerstAssert (port : HostPort) (s : State) : Host.Outcome State Fault Refusal :=
  s.run fun s =>
    let s := unsetPort (portDown s port 1) port
    let h := s.body.host
    s.setBody { s.body with host := h.setPort port { h.port port with perst := true } }

/-- PERST_DEASSERT: the port may train; before MOD_PG it counts as asserted (18 R476). -/
def execPerstDeassert (port : HostPort) (s : State) : Host.Outcome State Fault Refusal :=
  s.run fun s =>
    let h := s.body.host
    s.setBody { s.body with host := h.setPort port { h.port port with perst := false } }

/-- PCIE_HOT_RESET, of a link that is up. -/
def execPcieHotReset (port : HostPort) (s : State) : Host.Outcome State Fault Refusal :=
  s.run fun s => if (s.body.host.port port).up then portDown s port 2 else s

/-- PCIE_LINK_DOWN. -/
def execPcieLinkDown (port : HostPort) (s : State) : Host.Outcome State Fault Refusal :=
  s.run fun s => if (s.body.host.port port).up then portDown s port 3 else s

/-- The port can train: out of reset, MOD_PG asserted, REFCLK present, its I/O die in service. -/
def portMayTrain (b : Body) (p : HostPort) : Bool :=
  !(b.host.port p).perst && !(b.host.port p).up && b.md.modPg && b.md.refclk && !b.data.dieOut.contains (8 + portNo p)

/-- PCIE_LINK_UP: the link has trained at a rate of 64, 32 or 16 GT/s and a width of 16 or 8. -/
def execPcieLinkUp (port : HostPort) (rate width : Nat) (s : State) : Host.Outcome State Fault Refusal :=
  s.run fun s =>
    if portMayTrain s.body port && [16, 32, 64].contains rate && [8, 16].contains width then
      let h := s.body.host
      let s := s.setBody { s.body with host := h.setPort port { h.port port with up := true, rate := rate, width := width } }
      s.post 0x0402 (7 + 256 * (portNo port + 1)) [(portNo port, 1), (rate, 1), (width, 1), (if rate = 64 then 1 else 0, 1)]
    else s

/-- Host reads through a port of the plots that some of its VFs are bound to end with FABRIC_LOST. -/
def vfLost (b : Body) (beat : Nat) (p : HostPort) (vf : Nat → Bool) : Body :=
  let mine (q : Nat) : Bool := match (mget b.data.plots q).bind fun x => x.vf with
    | some (hb, n) => hb == (p == .hb) && vf n
    | none => false
  hostLost b beat fun r => r.hb == (p == .hb) && ((b.data.req r.id).map fun (q : LineReq) => mine q.plot).getD false

/-- VF Enable becomes clear: the VFs of the port are unreachable. -/
def clearVfEnable (b : Body) (beat : Nat) (p : HostPort) : Body :=
  let b := vfLost b beat p fun _ => true
  let h := b.host.dropOps fun f => fnPort f == p && !isPfFn f
  { b with host := h.setPort p { b.host.port p with vfEnable := false } }

/-- PF_FLR. -/
def execPfFlr (port : HostPort) (s : State) : Host.Outcome State Fault Refusal :=
  s.run fun s =>
    if (s.body.host.port port).up then
      let s := s.setBody (clearVfEnable s.body s.alm.beat port)
      let h := s.body.host
      let h := h.setPort port { h.port port with vfBar2Log2 := 33, pfBar2Log2 := 30 }
      let h := (h.dropOps fun f => f == .pf port).setFn (.pf port) (h.fn (.pf port)).again
      (s.setBody { s.body with host := h }).mg fun m => m.unset (fnStamp (.pf port))
    else s

/-- VF_FLR: the VF's registers are reset; until it completes, its plot's host-window accesses give FABRIC_LOST. -/
def execVfFlr (port : HostPort) (vf : Nat) (s : State) : Host.Outcome State Fault Refusal :=
  s.run fun s =>
    let h := s.body.host
    if decide (vf < 64) && (h.port port).up && (h.port port).vfEnable then
      let b := vfLost s.body s.alm.beat port fun n => n == vf
      let f : Fn := .vf port vf
      let s := s.setBody { b with host := (b.host.dropOps fun g => g == f).setFn f { (b.host.fn f).again with inFlr := true } }
      if (vfPlot s.body.data port vf).isSome then s.mg fun m => m.unset (0x40 + vf) else s
    else s

/-- VF_FLR_COMPLETE. -/
def execVfFlrComplete (port : HostPort) (vf : Nat) (s : State) : Host.Outcome State Fault Refusal :=
  s.run fun s =>
    let f : Fn := .vf port vf
    if (s.body.host.fn f).inFlr then s.modFn f fun r => { r with inFlr := false } else s

/-- VF_ENABLE_CLEAR. -/
def execVfEnableClear (port : HostPort) (s : State) : Host.Outcome State Fault Refusal :=
  s.run fun s => if (s.body.host.port port).up then s.setBody (clearVfEnable s.body s.alm.beat port) else s

/-- VF_ENABLE_SET. -/
def execVfEnableSet (port : HostPort) (s : State) : Host.Outcome State Fault Refusal :=
  s.run fun s =>
    let h := s.body.host
    if (h.port port).up then s.setBody { s.body with host := h.setPort port { h.port port with vfEnable := true } } else s

end Sys2Proof.Machine
end

