-- ==== Sys2Proof/Machine/FabricRx.lean ====
section
/-! DEFINITION. What arrives on runners and global links: cells, frames, training, survey records, packets, responses and
acknowledgements; resending and abandoning (09 R263-R281; 14 R400). -/

namespace Sys2Proof.Machine

/-! ### Links (R263, R269, R270) -/

def State.setLink (s : State) (k : Nat) (l : LinkSt) : State :=
  s.setBody { s.body with fab := { s.body.fab with links := mput s.body.fab.links k l } }

/-- Lanes of a mask. -/
def laneCount (m : BitVec 8) : Nat := ((List.range 8).filter fun i => m.getLsbD i).length

/-- The own identity record on a port, as it leaves at `t1`. -/
def surveyOf (b : Body) (k t1 t2 dt : Nat) : SurveyRec :=
  { serial := b.md.serial, node := b.data.node, nodeValid := b.fab.block.isSome, position := b.md.slotId % 16, port := k,
    lanes := laneCount (b.fab.link k).lanes, t1 := t1, t2 := t2, t3mt2 := dt, zero := true }

/-- The own identity record leaves on a port, and will again until the peer acknowledges it (R269). Within the beat the time of its
stamp is open. -/
def sendSurvey (s : State) (k : Nat) : State :=
  let b := s.body
  let d := b.data
  let r := surveyOf b k (1000 * s.alm.beat + Config.freeNat d.free % 1000) 0 0
  s.setBody (({ b with data := { d with free := d.free + 1 } }.setLink k { b.fab.link k with surveyDue := true }).linkPut k (.survey r))

/-- A link that has been trained on these lanes: nothing has crossed it. -/
def LinkSt.trainedOn (l : LinkSt) (lanes : BitVec 8) : LinkSt :=
  { l with trained := true, lanes := lanes, lost := ~~~lanes, training := none, rxSeq := 0, txSeq := 0, txBuf := [],
           credits := [0, 0, 0, 0, 0, 0], waiting := [] }

/-- A retrain begins: the port's connections move (R283). -/
def startRetrain (s : State) (k : Nat) : State :=
  let l := s.body.fab.link k
  if l.trained && l.training.isNone then
    let s := s.setLink k { l with training := some s.alm.beat }
    s.setBody (s.body.failover s.alm.beat k)
  else s

/-- More than 4,096 cells of a runner have been replayed within the epoch: it retrains (R263). -/
def tooMany (s : State) (k : Nat) : State := if k < 16 ∧ 4096 < (s.body.fab.link k).replays then startRetrain s k else s

/-- RUNNER_CELL_RX: in order and sound, or discarded with a replay asked for; too many replays in an epoch retrain. -/
def execRunnerCellRx (port : Nat) (seq : BitVec 12) (cell : Cell) (s : State) : Host.Outcome State Fault Refusal :=
  s.run fun s =>
    let l := s.body.fab.link port
    if 16 ≤ port || !l.trained || l.training.isSome then s
    else if cell.crcOk && seq == l.rxSeq then tooMany (s.setBody (s.body.linkIn port cell.word)) port
    else tooMany (s.setBody (s.body.linkRefuse port)) port

/-- FEC_LOCK_LOSS. -/
def execFecLockLoss (port : Nat) (s : State) : Host.Outcome State Fault Refusal :=
  s.run fun s => if port < 18 then startRetrain s port else s

/-- LINK_TRAINING_COMPLETE: the link is up, and survey starts on it. -/
def execLinkTrainingComplete (port : Nat) (lanes : BitVec 8) (s : State) : Host.Outcome State Fault Refusal :=
  s.run fun s =>
    let l := s.body.fab.link port
    let n := laneCount lanes
    if port < 18 && !l.trained && l.cable && (n == 8 || (decide (port < 16) && (n == 4 || n == 2))) then
      sendSurvey (s.setLink port (l.trainedOn lanes)) port
    else s

/-- GL_FRAME_RX: the link layer of a global link. Reasons of FRAME_DISCARD: 1 EtherType, 2 destination, 3 VLAN tag, 4 field,
5 FCS, 6 length. What an accepted frame carries comes as a command of its own. -/
def execGlFrameRx (port : Nat) (frame : GlFrame) (s : State) : Host.Outcome State Fault Refusal :=
  s.run fun s =>
    let l := s.body.fab.link port
    if port < 16 ∨ 18 ≤ port ∨ !l.trained then s
    else if frame.length < 64 ∨ 9216 < frame.length then discard s port 6
    else if !frame.fcsOk then discard s port 5
    else if frame.vlan then discard s port 3
    else if frame.etherType ≠ 0x88B5 then discard s port 1
    else if frame.dst ≠ glAddr s.body.md.serial port then discard s port 2
    else if frame.seq = l.rxSeq then s.setBody (s.body.linkIn port frame.word)
    else s.setBody (s.body.linkRefuse port)

/-- R267: who must be at the other end of a runner: position and port. -/
def expectedPeer (p k : Nat) : Nat × Nat := if k = 15 then (p ^^^ 1, 15) else ((p + k + 1) % 16, 14 - k)

/-- The verdict that a peer's record gives a port. -/
def verdictOf (b : Body) (k : Nat) (r : SurveyRec) : Verdict :=
  if r.serial = b.md.serial ∨ (r.nodeValid ∧ b.fab.block.isSome ∧ r.node = b.data.node) then .duplicate
  else if k < 16 then
    (if expectedPeer (b.md.slotId % 16) k ≠ (r.position % 16, r.port) then .miscabled
    else if laneCount (b.fab.link k).lanes = 8 then .ok else .degraded)
  else if 16 ≤ r.port then .ok else .miscabled

/-- A verdict is given: its record, and the connections that move or come back (R270, R283). -/
def setVerdict (s : State) (k : Nat) (v : Verdict) : State :=
  let l := s.body.fab.link k
  if l.verdict = v then s
  else
    let was := l.carries
    let s := s.setLink k { l with verdict := v, events := l.events + 1 }
    let src := 7 + 256 * (0x80 + k)
    match v with
    | .ok | .degraded =>
      let s := s.post 0x0301 src [(k, 0), (laneCount l.lanes, 0), (l.peerNode, 0), (l.peerSerial, 0)]
      if was then s else s.setBody (s.body.comeBack s.alm.beat k)
    | .miscabled =>
      let e := expectedPeer (s.body.md.slotId % 16) k
      let s := s.post 0x0305 src [(k, 0), (e.1, 0), (e.2, 0), (l.peerPos, 0), (l.peerPort, 0)]
      s.setBody (s.body.failover s.alm.beat k)
    | _ =>
      let s := s.post 0x0302 src [(k, 0), (2, 0), (s.alm.beat, 0)]
      s.setBody (s.body.failover s.alm.beat k)

/-- RUNNER_RETRAIN_DONE: `lanes` came up. 8, 4 or 2 of them (8 of a global link) carry the link, which is surveyed again; those that
did not come up are lost. -/
def execRunnerRetrainDone (port : Nat) (lanes : BitVec 8) (s : State) : Host.Outcome State Fault Refusal :=
  s.run fun s =>
    let l := s.body.fab.link port
    match l.training with
    | none => s
    | some t =>
      let n := laneCount lanes
      let ok := n = 8 ∨ (port < 16 ∧ (n = 4 ∨ n = 2))
      let s := s.post 0x0303 (7 + 256 * (0x80 + port)) [(port, 0), (t, 0), (s.alm.beat, 0), (laneCount l.lanes, 0), (if ok then n else 0, 0)]
      let new := ~~~lanes &&& ~~~l.lost
      let s := if new = 0 then s else s.post 0x0304 (7 + 256 * (0x80 + port)) [(port, 0), (new.toNat, 0)]
      let l := { l with lost := l.lost ||| ~~~lanes }
      if ok then
        let s := s.setLink port { l with training := none, lanes := lanes }
        let s := if l.carries then setVerdict s port (if n = 8 then .ok else .degraded) else s
        let s := sendSurvey s port
        s.setBody (s.body.comeBack s.alm.beat port)
      else linkDown (s.setLink port l) port 1

/-- SURVEY_RECORD_RX: `t1` is when the own record left, `t4` when this one came. An answer acknowledges the own record and measures
the delay, to which the fixed latencies of both ends are added (02 R51); a record that is none is answered. -/
def execSurveyRecordRx (port : Nat) (rec : SurveyRec) (t1 t4 : Nat) (s : State) : Host.Outcome State Fault Refusal :=
  s.run fun s =>
    let l := s.body.fab.link port
    if 18 ≤ port || !l.trained then s
    else if decide (16 ≤ port) && !rec.zero then discard s port 4
    else
      let ans := rec.t2 != 0 || rec.t3mt2 != 0
      let l := { l with
        peerNode := rec.node
        peerPos := rec.position
        peerPort := rec.port
        peerSerial := rec.serial
        surveyDue := l.surveyDue && !ans
        delayNs := if ans then ((t4 - t1) - rec.t3mt2) / 2 + Config.linkLatency port else l.delayNs }
      let s := s.setLink port l
      let s := setVerdict s port (verdictOf s.body port rec)
      if ans then s
      else
        let d := s.body.data
        let dt := Config.freeNat d.free % 2 ^ 32
        s.setBody ({ s.body with data := { d with free := d.free + 1 } }.linkPut port (.survey (surveyOf s.body port (t4 + dt) (t4 % 2 ^ 32) dt)))

/-! ### Forwarding (R277, R278) -/

/-- The own direct runner to a node of the block. -/
def directPort (b : Body) (node : Nat) : Option Nat :=
  let p := b.data.node
  if p / 16 = node / 16 ∧ p ≠ node then some ((node % 16 + 31 - p % 16) % 16) else none

/-- A packet for another node crosses this package. -/
def forward (s : State) (p : Packet) : State :=
  if p.hops ≤ 1 then
    s.setBody { s.body with log := s.body.log.tallyFor s.alm.beat 0x030C 0 p.src 1 [(p.src, 0), (p.dst, 0), (0, 100)] }
  else
    let q := { p with hops := p.hops - 1 }
    let b := s.body
    if p.type ≤ 8 then
      match directPort b p.dst with
      | some k => if !p.fwd && b.fab.portUp k then s.setBody (b.emitOn (some k) { q with fwd := true }) else s
      | none => s
    else s.setBody (b.emitOn (b.fab.choosePort (b.fab.route p.epoch p.dst) p.conn) q)

/-! ### Acceptance (R273) -/

/-- What the transport makes of a packet's SEQ. -/
inductive SeqCase where
  | accept | duplicate | early
  deriving DecidableEq, Repr

/-- The next SEQ is accepted; SEQ 0 also when no copy of an earlier SEQ 0 can be alive: the peer has resynchronised. -/
def seqCase (c : Conn) (beat : Nat) (seq : BitVec 32) : SeqCase :=
  if seq = c.rxSeq ∨ (seq = 0 ∧ c.rxZero + 10000 ≤ beat) then .accept
  else if (seq - c.rxSeq).toInt < 0 then .duplicate else .early

/-- Run a packet through the transport: accepted, it is acknowledged and handed to `f`. -/
def transport (s : State) (p : Packet) (f : State → State) : State :=
  let k := connKey p.src p.conn
  let c := s.body.fab.conn k
  match seqCase c s.alm.beat p.seq with
  | .accept =>
    let c := { c with rxSeq := p.seq + 1, rxZero := if p.seq = 0 then s.alm.beat else c.rxZero }
    let s := s.setBody { s.body with fab := s.body.fab.setConn k c }
    f (s.setBody (s.body.sendTack p))
  | .duplicate => s.setBody (s.body.sendTack p)
  | .early => s

/-! ### At the destination (R275, R277, R281) -/

/-- The plot that a packet's tag names, if the sender is a member of it. -/
def tagPlot (d : Data) (p : Packet) : Option Nat :=
  if p.tag = 0 then none
  else (d.plots.find? fun q => q.2.tag == p.tag && q.2.mem.contains p.src).map fun q => q.1

def remoteAgent (plot : Nat) : Agent := { kind := .remote, plot := plot, forerunner := false, own := none }

/-- A byte of a memory object, as a packet names it. -/
def remotePhys (d : Data) (plot off : Nat) : Option Nat :=
  match place d (remoteAgent plot) (d.node * 2 ^ 40 + off % 2 ^ 40) with
  | .ok (.phys p) => some p
  | _ => none

/-- A refusal: counted, and answered where there is an answer. -/
def refuseRemote (s : State) (p : Packet) : State :=
  let s := s.setBody { s.body with log := s.body.log.tallyFor s.alm.beat 0x030B 0 p.src 1 [(p.src, 0), (p.tag, 0), (0, 100)] }
  if isReqType p.type then
    s.setBody (s.body.send s.alm.beat { mkPkt (p.type + 1) p.src p.tag p.offset p.agent p.reqId [] with status := 1 })
  else s

/-- A line request that a packet brings. -/
def remoteReq (d : Data) (plot phys : Nat) (p : Packet) (op : LineOp) (lanes : List Lane) : Data :=
  let r : LineReq :=
    { id := d.nextId, core := 672, slot := 0, iseq := 0, age := 0, plot := plot, pc := 0, opcode := 0,
      addr := d.node * 2 ^ 40 + p.offset % 2 ^ 40 / 128 * 128, tgt := .local (phys / 128 * 128), op := op, lanes := lanes, stage := .waiting, pre := none,
      rem := some { node := p.src, agent := p.agent, reqId := p.reqId, conn := p.conn, tag := p.tag }, accepted := none }
  { d with nextId := d.nextId + 1, reqs := d.reqs ++ [r] }

/-- Threads' operations of an ATOMIC. -/
def atomLanes (l : List Byte) : List Lane :=
  (List.range (l.length / 24)).map fun i =>
    { t := i, off := field l (24 * i) 8, opnd := BitVec.ofNat 64 (field l (24 * i + 8) 8), cmp := BitVec.ofNat 64 (field l (24 * i + 16) 8) }

/-- Sink a message's bytes into memory. Bytes of a lost line that the message does not write whole stay lost. -/
def sinkBytes (d : Data) (plot off : Nat) (l : List Byte) : Data :=
  ((l.zipIdx).foldl (fun (d : Data) x =>
    let a := (off + x.2) % 2 ^ 40
    match remotePhys d plot a with
    | none => d
    | some p =>
      let whole := decide (off ≤ a / 128 * 128) && decide (a / 128 * 128 + 128 ≤ off + l.length)
      let p := d.scratchHome p
      if d.isLost p && !whole then d else ((d.unlose p).wr p x.1).unmark plot a) d).touchRange plot off l.length

/-- BULK_WRITE: with PM, the arrived tile is verified and its postmark stored (R289). -/
def bulkWrite (b : Body) (port plot : Nat) (p : Packet) : Body :=
  if !p.pm then { b with data := sinkBytes b.data plot p.offset p.data }
  else
    let l := p.data.take 4096
    let k : Mark := { sum := BitVec.ofNat 32 (field p.data 4096 4), wsum := BitVec.ofNat 32 (field p.data 4100 4), valid := true }
    let r := markOf l
    let a := b.data.node * 2 ^ 40 + p.offset % 2 ^ 40
    let b := { b with data := sinkBytes b.data plot p.offset l }
    let die := if port < 8 ∨ port = 16 then 8 else 9
    let b := if r = (k.sum, k.wsum) then b
      else b.post 0x0208 (6 + 256 * (die + 32))
        [(3, 1), (die, 1), (0, 1), (plot, 1), (0, 2), (0, 2), (a, 8), (k.sum.toNat, 4), (k.wsum.toNat, 4), (r.1.toNat, 4), (r.2.toNat, 4), (0, 8)]
    let d := (tilesOf b.data plot a 4096).foldl (fun (d : Data) x =>
      if x.2.2 then { d with objs := d.objs.map fun (o : MemObj) => if o.base = x.1.base then { o with marks := mput o.marks x.2.1 k } else o } else d) b.data
    { b with data := d }

/-- A request or message at its destination. -/
def applyPacket (s : State) (port : Nat) (p : Packet) : State :=
  let b := s.body
  let d := b.data
  let beat := s.alm.beat
  match tagPlot d p with
  | none => refuseRemote s p
  | some plot =>
    if p.type = 12 then s.setBody (collArrive b beat plot p)
    else if p.type = 11 then
      match mget d.pigeons p.offset with
      | some h => if d.ctxPlot h.ctx = plot then s.setData (d.ringPh p.offset) else refuseRemote s p
      | none => refuseRemote s p
    else
      match remotePhys d plot p.offset, remotePhys d plot (p.offset + max 1 (max p.len (if p.type = 3 ∨ p.type = 1 then 128 else 1)) - 1 - if p.pm then 8 else 0) with
      | some q, some _ =>
        match p.type with
        | 1 => s.setData (remoteReq d plot q p (.load p.ro false 0 0 false) [])
        | 3 =>
          let bs := ((p.data.take 128).zipIdx).filterMap fun x => if !p.masked || p.mask.getD x.2 false then some (x.2, x.1) else none
          s.setData (remoteReq d plot q p (.store bs) [])
        | 5 => s.setData (remoteReq d plot q p (.atom p.aop p.ty 0 0) (atomLanes p.data))
        | 7 =>
          let rsp := match d.devRead plot p.offset p.len with
            | some l => mkPkt 8 p.src p.tag p.offset p.agent p.reqId l
            | none => { mkPkt 8 p.src p.tag p.offset p.agent p.reqId [] with status := 2 }
          s.setBody (b.send beat rsp)
        | 9 => s.setBody (bulkWrite b port plot p)
        | 10 => s.setData (sinkBytes d plot p.offset (p.data.take 8))
        | _ => s
      | _, _ => refuseRemote s p

/-- A packet that has come over a port, when the data plane runs. -/
def takePacket (s : State) (port : Nat) (p : Packet) : State := transport s p fun s => applyPacket s port p

/-- Packets are taken only on a port that carries them, and only once the package has a node number (R268). -/
def mayTake (b : Body) (port : Nat) : Bool := (b.fab.link port).carries && (b.fab.link port).trained && b.fab.block.isSome

/-- A bulk packet or a flag store whose lines must wait is not taken yet; the sender's transport re-sends it (07 R205, R214, R217). -/
def packetWaits (d : Data) (p : Packet) : Bool :=
  match tagPlot d p with
  | some plot => (p.type == 7 && d.busyAt plot p.offset p.len) || ((p.type == 9 || p.type == 10) && d.busyAt plot p.offset p.data.length)
  | none => false

/-- FABRIC_PACKET_RX: a request, a message or a packet to be forwarded. While the data plane is halted it is held, not
acknowledged (14 R400). -/
def execFabricPacketRx (port : Nat) (pkt : Packet) (s : State) : Host.Outcome State Fault Refusal :=
  s.run fun s =>
    if !mayTake s.body port then s
    else if pkt.dst ≠ s.body.data.node then forward s pkt
    else if !(isReqType pkt.type || isMsgType pkt.type) then s
    else if s.body.data.halted then s.setBody { s.body with fab := { s.body.fab with heldRx := s.body.fab.heldRx ++ [(port, pkt)] } }
    else if packetWaits s.body.data pkt then s
    else takePacket s port pkt

/-! ### Responses -/

/-- The class of a response's STATUS (Table 6). -/
def rspClass (st : Nat) : FaultClass :=
  match st with
  | 2 => .dataLost
  | 3 => .nodeGone
  | _ => .carveOutRemote

/-- A response ends what asked for it. -/
def applyResponse (b : Body) (beat : Nat) (p : Packet) : Body :=
  let d := b.data
  let st : ReqStage := if p.status ≠ 0 then .failed (rspClass p.status)
    else match p.type with
      | 2 => .returned p.data []
      | 4 => .acked
      | _ => .returned [] ((List.range (p.data.length / 8)).map fun i => BitVec.ofNat 64 (field p.data (8 * i) 8))
  let d := d.engAnswer p.reqId p.status p.data
  let d := if p.type = 8 then d
    else
      let fill := if p.type = 2 ∧ p.status = 0 then d.fills.find? fun f => f.remote.isSome && f.id % 2 ^ 32 == p.reqId else none
      let d := match fill with
        | some f => if f.install then d.copyPut f.plot f.addr p.data else d
        | none => d
      (d.endReq p.reqId st).endFill p.reqId st
  let fab := { b.fab with conns := mmap b.fab.conns fun k (c : Conn) =>
    if k / 2 = p.src then { c with answers := c.answers.filter fun x => x.pkt.reqId != p.reqId } else c }
  pump (answerAll { b with data := d, fab := fab } beat) beat

/-- FABRIC_RESPONSE_RX. -/
def execFabricResponseRx (port : Nat) (pkt : Packet) (s : State) : Host.Outcome State Fault Refusal :=
  s.run fun s =>
    if !mayTake s.body port then s
    else if pkt.dst ≠ s.body.data.node then forward s pkt
    else if !isRspType pkt.type then s
    else transport s pkt fun s => s.setBody (applyResponse s.body s.alm.beat pkt)

/-- TACK_RX. -/
def execTackRx (node cls seq : Nat) (s : State) : Host.Outcome State Fault Refusal :=
  s.runB fun beat b => pump (b.tack beat (connKey node (cls % 2)) (BitVec.ofNat 32 seq)) beat

/-! ### Resending and abandoning (R273) -/

/-- Where a packet is sent again: its port while that is up, else the one that the bank of its parity gives. -/
def Fabric.againBy (f : Fabric) (k : Nat) (x : SentPkt) : Option Nat :=
  match x.port with
  | some p => if f.portUp p then some p else f.portFor x.pkt.epoch k
  | none => f.portFor x.pkt.epoch k

/-- TRANSPORT_RESEND_TIMEOUT: what has waited 20 beats for its acknowledgement is sent again. -/
def execTransportResendTimeout (node cls : Nat) (s : State) : Host.Outcome State Fault Refusal :=
  s.runB fun beat b =>
    let k := connKey node (cls % 2)
    let f := b.fab
    let c := f.conn k
    let due (x : SentPkt) : Bool := decide (x.last + 20 ≤ beat)
    let c' := { c with unacked := c.unacked.map fun (x : SentPkt) => if due x then { x with last := beat, port := f.againBy k x } else x }
    if (c.unacked.filter due) = [] then b
    else (c.unacked.filter due).foldl (fun (b : Body) x => b.emitOn (f.againBy k x) x.pkt) { b with fab := f.setConn k c' }

/-- TRANSPORT_ABANDON: the operations of the connection end with FABRIC_LOST. -/
def execTransportAbandon (node cls : Nat) (s : State) : Host.Outcome State Fault Refusal :=
  s.runB fun beat b =>
    let k := connKey node (cls % 2)
    let c := b.fab.conn k
    if (c.answers.any fun x => answerDead b.fab k beat x) || c.unacked.any fun x => decide (x.first + 10000 ≤ beat) then
      pump (answerAll (b.abandon beat k) beat) beat
    else b

end Sys2Proof.Machine
end

