-- ==== Sys2Proof/Machine/Passes.lean ====
section
/-! DEFINITION. Weeding passes of cores, slices, runners and engines: deferral, start, verdicts and what follows
(03 R102-R105; 07 R217; 15 R408-R421). -/

namespace Sys2Proof.Machine

/-! ### Records and the calendar (15 Table 2, Table 3, R414, R416) -/

/-- SOURCE of a unit's records. -/
def unitSource (u : PassUnit) : Nat :=
  match u with
  | .core _ => 1 + 256 * unitCode u
  | .slice _ _ => 4 + 256 * unitCode u
  | .runner k => 7 + 256 * (0x80 + k)
  | .engine _ => 6 + 256 * unitCode u

/-- The physical die whose temperature a pass records. -/
def unitDie (u : PassUnit) : Nat :=
  match u with
  | .core c => c / 84
  | .slice d _ => d
  | .runner k => if k < 8 then 8 else 9
  | .engine (.courier d _) | .engine (.gleaner d _) => d
  | .engine (.relay so _) => if so then 9 else 8

/-- PASS_RESULT. -/
def passResult (b : Body) (u : PassUnit) (p : Pass) (verdict tags stop : Nat) : Body :=
  b.post 0x0702 (unitSource u)
    [(unitKind u, 1), (verdict, 1), (tags, 1), (p.startKind, 1), (unitCode u, 4), ((p.partner.map fun c => unitCode (.core c)).getD 0xFFFFFFFF, 4),
     (p.pack, 4), (p.due, 8), (p.start.getD 0, 8), (stop, 8), (p.extra, 4), (p.stretch, 2), (p.temp, 1), (0, 1), (p.seed, 8), (0, 8)]

/-- The counts of the calendar. -/
def Calendar.count (c : Calendar) (verdict : Nat) : Calendar :=
  match verdict with
  | 0 => { c with passes := c.passes + 1 }
  | 1 | 2 => { c with fails := c.fails + 1 }
  | 3 => { c with inconclusive := c.inconclusive + 1 }
  | _ => c

/-- When a unit is due again after a verdict: an interval later, an hour later, or at once. -/
def dueAfter (c : Calendar) (verdict beat : Nat) : Nat :=
  match verdict with
  | 3 | 5 => beat + 3600000000
  | 4 => beat
  | _ => beat + c.interval

/-- The beat of a sweep's pass that a unit still owes: the pass that ends began with an older pack (R422, R423). -/
def sweepOwed (h : Health) (k : Nat) (p : Pass) : Option Nat :=
  if p.pack = h.packVersion then none else (h.sweep.find? fun e => e.1 == k).map fun e => e.2

/-- A pass is over, with a verdict. -/
def closePass (b : Body) (beat : Nat) (u : PassUnit) (p : Pass) (verdict tags : Nat) : Body :=
  let k := unitKey u
  let owed := sweepOwed b.hl k p
  let b := passResult b u p verdict tags beat
  let kind := unitKind u
  let cal := mgetD b.hl.cals kind (Calendar.default kind)
  { b with hl := { b.hl with
    cals := mput b.hl.cals kind (cal.count verdict)
    dues := mput b.hl.dues k (match owed with
      | some t => min t (dueAfter cal verdict beat)
      | none => dueAfter cal verdict beat)
    urgent := if verdict < 3 && owed.isNone then srem b.hl.urgent k else b.hl.urgent
    passes := mdel b.hl.passes k } }

/-- A pass that begins its deferral. -/
def Pass.begin (h : Health) (due : Nat) (urgent : Bool) (partner : Option Nat) : Pass :=
  { due := due, urgent := urgent, start := none, tags := 0, unresolved := false, stretch := 0, temp := 0, extra := 0, seed := 0,
    phase := 0, startKind := 5, partner := partner, pack := h.packVersion, forced := none }

/-- How long a pass is deferred at most. -/
def deferFor (b : Body) (u : PassUnit) (p : Pass) : Nat :=
  let c := mgetD b.hl.cals (unitKind u) (Calendar.default (unitKind u))
  if p.urgent then c.urgentDefer else c.maxDefer

/-- The cores of a core's pass: itself and its partner. -/
def passCores (b : Body) (c : Nat) : List Nat :=
  match mget b.hl.passes (unitKey (.core c)) with
  | some p => c :: p.partner.toList
  | none => [c]

def Body.setPass (b : Body) (u : PassUnit) (p : Pass) : Body := { b with hl := { b.hl with passes := mput b.hl.passes (unitKey u) p } }

def Body.passOf (b : Body) (u : PassUnit) : Option Pass := mget b.hl.passes (unitKey u)

def Body.setCorePass (b : Body) (c : Nat) (x : CorePass) : Body :=
  { b with data := b.data.setCore c { b.data.core c with pass := x } }

/-- Actions of the same beat that go before the start of passes (02 R55). -/
def passWaits (s : State) : Bool :=
  s.body.mg.schedule.any fun e => decide (e.beat ≤ s.alm.beat) && match e.kind with
    | .wrapped | .sample _ => false
    | _ => true

/-! ### Deferral (R410, R416; 03 R104) -/

/-- A unit is due: by its own beat, or by its partner's. -/
def dueNow (b : Body) (beat k : Nat) : Bool :=
  match mget b.hl.dues k with
  | some t => decide (t ≤ beat)
  | none => false

/-- The unit that tests a core together with it. -/
def partnerOf (b : Body) (unit : PassUnit) : Option Nat :=
  match unit with
  | .core c => (mget b.hl.pairs c).bind fun p => p
  | _ => none

/-- Keys of a unit and of its partner. -/
def passKeys (b : Body) (unit : PassUnit) : List Nat := (unit :: (partnerOf b unit).toList.map fun c => PassUnit.core c).map unitKey

/-- The deferral of a unit's pass is due and may begin (R410, R416). -/
def passDue (s : State) (unit : PassUnit) : Bool :=
  let b := s.body
  let keys := passKeys b unit
  s.acting && b.md.state == 2 && !coldStopped b.pw
    && (match unit with
      | .core c => (mget b.hl.pairs c).isSome
      | _ => true)
    && unitExists b (unitKind unit) (unitCode unit)
    && (keys.any (fun k => b.hl.urgent.contains k) || (mgetD b.hl.cals (unitKind unit) (Calendar.default 1)).enable)
    && (keys.any fun k => dueNow b s.alm.beat k) && keys.all fun k => (mget b.hl.passes k).isNone

/-- Some pass that was due by a beat has not begun its deferral, and may. -/
def passDueBy (s : State) (beat : Nat) : Bool :=
  s.body.hl.dues.any fun e => decide (e.2 ≤ beat) && passDue s (unitOfKey e.1)

/-- PASS_DEFERRAL_BEGIN: the deferral of a unit's pass, and of its partner's, begins at its due beat. -/
def execPassDeferralBegin (unit : PassUnit) (s : State) : Host.Outcome State Fault Refusal :=
  s.run fun s =>
    let b := s.body
    let beat := s.alm.beat
    let partner := partnerOf b unit
    let urgent := (passKeys b unit).any fun k => b.hl.urgent.contains k
    if passDue s unit && !passWaits s then
      match unit with
      | .core c =>
        let b := b.setPass (.core c) (Pass.begin b.hl beat urgent partner)
        let b := match partner with
          | some q => b.setPass (.core q) (Pass.begin b.hl beat urgent (some c))
          | none => b
        s.setBody ((c :: partner.toList).foldl (fun (b : Body) x => b.setCorePass x (.deferral beat none)) b)
      | u => s.setBody (b.setPass u (Pass.begin b.hl beat urgent none))
    else s

/-- The plot of a core. -/
def corePlot (d : Data) (c : Nat) : Option (Nat × Plot) := d.plots.find? fun p => p.2.cores.contains c

/-- 03 R103, R104: every resident group is at a permitted point, and nothing the groups issued is outstanding. -/
def quiescent (d : Data) (c : Nat) : Bool :=
  !coreBusy d c && (d.core c).groups.all fun e => e.2.mgmt || match e.2.st with
    | .run => false
    | _ => true

/-- R414: a die has an open interval that keeps passes from starting. -/
def dieBarred (p : Power) (die : Nat) : Bool :=
  p.openR.any fun r => r.kind == 1 && r.unit == die && (r.reason == 3 || r.reason == 5 || r.reason == 6)

/-- Pairs under a pass on a die. -/
def pairsOn (d : Data) (b : Body) (die : Nat) : Nat :=
  (d.cores.filter fun e => inPass e.2 && (passCores b e.1).any (fun c => c / 84 == die) &&
    (passCores b e.1).all fun c => decide (e.1 ≤ c) || !inPass (d.core c)).length

/-- A pair's pass may start. -/
def corePassReady (b : Body) (c : Nat) : Bool :=
  let cs := passCores b c
  let lim := (mgetD b.hl.cals 1 (Calendar.default 1)).concurrent
  !b.data.halted && (cs.all fun x => quiescent b.data x && !dieBarred b.pw (x / 84) && decide (pairsOn b.data b (x / 84) < lim)) &&
    cs.all fun x => match (b.data.core x).pass with
      | .deferral .. | .forced _ => true
      | _ => false

/-- Groups that wait at a `yield.t` issue again. -/
def unyield (b : Body) (c : Nat) : Body :=
  let k := b.data.core c
  { b with data := b.data.setCore c { k with groups := mmap k.groups fun _ (g : Group) => if g.st = .yieldPark then { g with st := .run } else g } }

/-- YIELD_WINDOW_EXPIRY: 100 beats after the first group parked at a `yield.t`, and the pass has not started. R104 says so of
a core that is not quiescent by then; a pair that is, and whose pass may not start for another reason (its die's limit, or an
open interval of 15 R414), is released too (DESIGN CHOICE, log entry 166). -/
def execYieldWindowExpiry (core : Nat) (s : State) : Host.Outcome State Fault Refusal :=
  s.runB fun beat b =>
    match (b.data.core core).pass with
    | .deferral since (some w) =>
      if w + 100 ≤ beat ∧ !corePassReady b core then (unyield b core).setCorePass core (.deferral since none) else b
    | _ => b

/-- A core's pass is over or never begins: its groups go on. -/
def freeCore (b : Body) (c : Nat) : Body := parkCore (unyield (b.setCorePass c .none) c) c false

/-- MAX_DEFERRAL_EXPIRY: groups are force-parked; on a die with an open interval the pass is SKIPPED. An engine takes no
further descriptor. -/
def execMaxDeferralExpiry (unit : PassUnit) (s : State) : Host.Outcome State Fault Refusal :=
  s.runB fun beat b =>
    match b.passOf unit with
    | none => b
    | some p =>
      if p.start.isSome || decide (beat < p.due + deferFor b unit p) then b
      else match unit with
        | .core c =>
          let cs := passCores b c
          if cs.any fun x => dieBarred b.pw (x / 84) then
            cs.foldl (fun (b : Body) x => match b.passOf (.core x) with
              | some q => closePass (freeCore b x) beat (.core x) q 5 0
              | none => b) b
          else if p.forced.isSome then b
          else cs.foldl (fun (b : Body) x =>
            let b := match b.passOf (.core x) with
              | some q => b.setPass (.core x) { q with forced := some beat }
              | none => b
            parkCore (b.setCorePass x (.forced beat)) x true) b
        | .engine _ => if p.forced.isSome then b else b.setPass unit { p with forced := some beat }
        | _ => b

/-! ### Core passes (R410-R412, R417-R421) -/

/-- START_KIND of a core. -/
def startKind (d : Data) (c : Nat) : Nat :=
  match corePlot d c with
  | none => 3
  | some (_, p) => if p.st = .drained then 4 else match (d.core c).pass with
    | .forced _ => 2
    | _ => 1

/-- The accumulator sets of a core are spilled: each is checked, and its tally sums start anew (05 R160, R162). -/
def spillSets (b : Body) (beat c : Nat) : Body :=
  let k := b.data.core c
  let on := ((corePlot b.data c).map fun p => b.data.tallyOn p.1).getD false
  let ctx := match k.blocks.find? fun e => e.2.usesArray with
    | some e => e.2.ctx
    | none => ((k.blocks.head?).map fun e => e.2.ctx).getD 0xFFFF
  if !on then b
  else k.acc.foldl (fun (b : Body) e =>
    let t := tallyCheck e.2
    let d := b.data.setCore c ((b.data.core c).setAcc e.1 e.2.reinit)
    if t.bad then markSuspect { b with data := postTally d c e.1 2 e.2.pair ctx 0 0 e.2.nRound t } beat c else { b with data := d }) b

/-- State is spilled, caches are empty, and the core is under test. -/
def takeCore (b : Body) (beat c temp : Nat) : Body :=
  let b' := spillSets b beat c
  let k := b'.data.core c
  let d := b'.data.setCore c { k with
    groups := mmap k.groups fun _ (g : Group) => { g with act := false }
    near := []
    icache := []
    fetchBuf := []
    pass := .running beat 0 [] }
  match b'.passOf (.core c) with
  | some p => { b' with data := d }.setPass (.core c) { p with
      start := some beat, temp := temp, startKind := startKind b.data c, seed := Config.freshSeed b.md.serial beat % 2 ^ 64 }
  | none => { b' with data := d }

/-- CORE_PASS_START: both cores of the pair are quiescent. -/
def execCorePassStart (core : Nat) (tempC : Nat) (s : State) : Host.Outcome State Fault Refusal :=
  s.runB fun beat b =>
    match b.passOf (.core core) with
    | some p =>
      if p.start.isNone ∧ corePassReady b core then (passCores b core).foldl (fun (b : Body) x => takeCore b beat x tempC) b else b
    | none => b

/-- Tags of the pack programs of a phase in which the tally lane found a mismatch (R412). -/
def packTags (res : PhaseResult) : BitVec 8 := res.tally.foldl (fun a t => a ||| t.tags) 0

/-- TALLY_MISMATCH of a pack program: CTX 0xFFFF (R412; 05 Table 7). -/
def postPack (d : Data) (c : Nat) (t : PackTally) : Data :=
  d.post 0x0701 (1 + 256 * coreUnit c)
    [(c / 84, 1), (c % 84 / 12, 1), (c % 12, 1), (t.set, 1), (t.check, 1), (t.pair, 1), (0xFFFF, 2), (t.pc, 8), (t.rows, 8), (t.cols, 8),
     (t.skipped, 2), (0, 2), (t.worst, 4), (t.nRound, 4), (t.out, 4)]

/-- CORE_PASS_PHASE_END: what one phase found on its core. A core tested alone has no fresh-seed result. -/
def execCorePassPhaseEnd (core : Nat) (res : PhaseResult) (s : State) : Host.Outcome State Fault Refusal :=
  s.runB fun _ b =>
    match b.passOf (.core core), (b.data.core core).pass with
    | some p, .running st ph fs =>
      if p.start.isSome ∧ p.phase < 2 then
        let fresh := if p.partner.isSome then res.freshTags else 0
        let unres := res.unresolved && p.partner.isSome
        let b := b.setPass (.core core) { p with
          phase := p.phase + 1, tags := p.tags ||| res.fixedTags ||| fresh ||| packTags res, unresolved := p.unresolved || unres, stretch := max p.stretch res.stretch }
        let b := match p.partner.bind fun q => (b.passOf (.core q)).map fun x => (q, x) with
          | some (q, x) => if unres then b.setPass (.core q) { x with unresolved := true } else b
          | none => b
        let b := { b with data := res.tally.foldl (fun (d : Data) t => postPack d core t) b.data }
        b.setCorePass core (.running st (ph + 1) fs)
      else b
    | _, _ => b

/-- Table 2: the verdict of a core. -/
def coreVerdict (p : Pass) : Nat := if p.tags ≠ 0 then 1 else if p.unresolved then 2 else if 1 < p.stretch then 3 else 0

/-- Tags of array or conversion only. -/
def arrayTags (t : BitVec 8) : Bool := t != 0 && t &&& 0xF9 == 0

/-- R417, R420: a failure moves a core down the ladder; the seventh makes it RETIRING. -/
def failCore (b : Body) (beat c : Nat) (tags : BitVec 8) : Body :=
  let x := mgetD b.hl.suspects c Suspect.fresh
  let cs := ctxsOf b c
  let last := x.step = 6
  let x := { x with
    state := if last then 3 else 1
    step := if last then 6 else x.step + 1
    units := x.units ||| tags
    fails := x.fails + 1
    passesSince := 0
    start := suspectStart b c
    stop := beat
    lastPass := (mget b.hl.lastPass c).getD 0
    ctxs := cs.1
    more := cs.2
    isOpen := false
    arrOnly := x.arrOnly && arrayTags tags }
  let hl := { b.hl with suspects := mput b.hl.suspects c x }
  let hl := if last then hl else hl.urge (unitKey (.core c)) beat
  let flash := { b.flash with steps := mput b.flash.steps c x }
  let b := postSuspect { b with hl := hl, flash := flash } c x beat
  if last then { b with data := ({ b.data with retiring := mput b.data.retiring c x.arrOnly }).retireIfEmpty c } else b

/-- R421: the interval of a mark ends with the pass that follows it, at that pass's start. -/
def closeMark (b : Body) (c start : Nat) : Body :=
  match mget b.hl.suspects c with
  | some x => if x.isOpen then
      { b with hl := { b.hl with suspects := mput b.hl.suspects c { x.seen b c with stop := start, isOpen := false } } }
    else b
  | none => b

/-- R418: a pass of a core; six in a row clear a suspect. -/
def passCore (b : Body) (beat c : Nat) : Body :=
  let seen := ((b.data.core c).blocks.map fun e => e.2.ctx).eraseDups
  let b := { b with
    data := { b.data with ctxSeen := mput b.data.ctxSeen c seen }
    hl := { b.hl with lastPass := mput b.hl.lastPass c beat } }
  match mget b.hl.suspects c with
  | none => b
  | some x =>
    let n := x.passesSince + 1
    let clear := x.state == 1 && decide (6 ≤ n)
    let x := { x with passesSince := n, lastPass := beat, state := if clear then 2 else x.state }
    let b := { b with hl := { b.hl with suspects := mput b.hl.suspects c x }, flash := { b.flash with steps := mput b.flash.steps c x } }
    if clear then postSuspect b c x x.stop else b

/-- The verdict of one core, applied before its state is restored. -/
def endCore (b : Body) (beat c : Nat) : Body :=
  match b.passOf (.core c) with
  | none => b
  | some p =>
    let v := coreVerdict p
    let b := closePass b beat (.core c) p v p.tags.toNat
    let b := closeMark b c (p.start.getD beat)
    let b := if v = 0 then passCore b beat c else if v < 3 then failCore b beat c p.tags else b
    freeCore b c

/-- CORE_PASS_END: both phases of both cores have ended. -/
def execCorePassEnd (core : Nat) (s : State) : Host.Outcome State Fault Refusal :=
  s.runB fun beat b =>
    let cs := (passCores b core).filter fun x => (b.passOf (.core x)).isSome
    if cs ≠ [] ∧ cs.all fun x => ((b.passOf (.core x)).map fun p => p.start.isSome && p.phase == 2) == some true then
      cs.foldl (fun (b : Body) x => endCore b beat x) b
    else b

/-! ### Slices (R413; 07 R217) -/

/-- A slice granted to a plot. -/
def isGranted (d : Data) (k : Nat) : Bool := d.plots.any fun p => p.2.cache.contains k || p.2.scratch.contains k

/-- The two highest-numbered slices in service of a die: the spill area (07 R210). -/
def spillArea (d : Data) (die : Nat) : List Nat :=
  let up := (List.range 56).filter fun n => sliceUp d (56 * die + n)
  up.drop (up.length - 2)

/-- A slice holds spilled state: it lies in the spill area, and a core of the die is under a pass. -/
def holdsSpill (d : Data) (die slice : Nat) : Bool :=
  (spillArea d die).contains slice && d.cores.any fun e => e.1 / 84 == die && inPass e.2

/-- Another scratch slice of the die uses the save area. -/
def saveBusy (d : Data) (die k : Nat) : Bool :=
  d.slices.any fun e => e.1 / 56 == die && e.1 != k && e.2 != SliceState.inService && isScratch d e.1

/-- The save area is placed again when one of its frames has gone. -/
def replaceSave (d : Data) (die : Nat) : Data :=
  let fs := mgetD d.saveArea die []
  if fs.length = 64 ∧ fs.all (fun f => chanUp d (f / 16384)) then d else { d with saveArea := mput d.saveArea die (placeSave d die) }

/-- SLICE_PASS_START: its homes move, by a flush or a copy, and its test begins. -/
def execSlicePassStart (die slice : Nat) (s : State) : Host.Outcome State Fault Refusal :=
  s.runB fun beat b =>
    let k := 56 * die + slice
    let u := PassUnit.slice die slice
    match b.passOf u with
    | none => b
    | some p =>
      let d := b.data
      let sc := isScratch d k
      if p.start.isSome || d.halted || mgetD d.slices k .inService != .inService || holdsSpill d die slice || (sc && saveBusy d die k) then b
      else
        let d := if sc then replaceSave d die else d
        let d := { d with slices := mput d.slices k (if isGranted d k then .flushing beat else .bypassed beat) }
        { b with data := d }.setPass u { p with start := some beat, temp := b.pw.temps.getD die 0 }

/-- SLICE_PASS_END: the slice comes back, or is mapped out. -/
def execSlicePassEnd (die slice : Nat) (passed : Bool) (s : State) : Host.Outcome State Fault Refusal :=
  s.run fun s =>
    let k := 56 * die + slice
    let u := PassUnit.slice die slice
    match s.body.passOf u, mgetD s.body.data.slices k .inService with
    | some p, .bypassed _ =>
      if p.start.isNone then s
      else
        let beat := s.alm.beat
        let b := closePass s.body beat u p (if passed then 0 else 1) (if passed then 0 else 32)
        if passed then
          let d := b.data
          s.setBody { b with data := { d with slices := if isGranted d k then mput d.slices k (.returning beat) else mdel d.slices k } }
        else sliceRetire (s.setBody b) k
    | _, _ => s

/-! ### Runners (R413; 09 R263, R283) -/

/-- Another runner is down, retraining or under a pass. A port without a cable has no runner (DEDUCED, log entry 153). -/
def otherRunnerAway (f : Fabric) (k : Nat) : Bool := (List.range 16).any fun j => j != k && (f.link j).cable && !f.portUp j

/-- RUNNER_PASS_START: its connections fail over. -/
def execRunnerPassStart (port : Nat) (s : State) : Host.Outcome State Fault Refusal :=
  s.run fun s =>
    match s.body.passOf (.runner port) with
    | none => s
    | some p =>
      if decide (16 ≤ port) || p.start.isSome || s.body.data.halted || !s.body.fab.portUp port || otherRunnerAway s.body.fab port then s
      else
        let beat := s.alm.beat
        let b := s.body.setPass (.runner port) { p with start := some beat, temp := s.body.pw.temps.getD (unitDie (.runner port)) 0 }
        let s := (s.setBody b).setLink port { b.fab.link port with passSince := some beat }
        s.setBody (s.body.failover beat port)

/-- RUNNER_PASS_END: failed lanes are lost, and the runner retrains without them. -/
def execRunnerPassEnd (port : Nat) (badLanes : BitVec 8) (s : State) : Host.Outcome State Fault Refusal :=
  s.run fun s =>
    match s.body.passOf (.runner port) with
    | none => s
    | some p =>
      if p.start.isNone then s
      else
        let beat := s.alm.beat
        let l := s.body.fab.link port
        let bad := badLanes &&& ~~~l.lost
        let s := s.setBody (closePass s.body beat (.runner port) p (if bad = 0 then 0 else 1) (if bad = 0 then 0 else 64))
        let s := s.setLink port { l with passSince := none, lost := l.lost ||| bad, training := some beat }
        if bad = 0 then s else s.post 0x0304 (7 + 256 * (0x80 + port)) [(port, 0), (bad.toNat, 0)]

/-! ### Engines (R413) -/

/-- ENGINE_PASS_START: the engine is idle and its queue empty, or the maximum deferral has ended. -/
def execEnginePassStart (eng : EngineId) (s : State) : Host.Outcome State Fault Refusal :=
  s.runB fun beat b =>
    match b.passOf (.engine eng) with
    | none => b
    | some p =>
      let e := b.data.engine (engNo eng)
      if p.start.isSome || b.data.halted || e.running != [] || !(e.queue.isEmpty || p.forced.isSome) then b
      else b.setPass (.engine eng) { p with
        start := some beat, temp := b.pw.temps.getD (unitDie (.engine eng)) 0, startKind := if p.forced.isSome then 2 else 5 }

/-- The descriptors of a retired engine go to the engine that engine 0 would choose; a relay's to the next in service. -/
def rehome (d : Data) (n : Nat) : Data :=
  let qs := (d.engine n).queue
  let base := n / 8 * 8
  let next : Option Nat := if n < 128 then d.fewest base else ((List.range 8).map fun i => base + (n + 1 + i) % 8).find? fun m => !d.engOut.contains m
  match next with
  | none => d
  | some m => qs.foldl (fun (d : Data) q => d.enqueue (if n < 128 then (d.fewest base).getD m else m) q) { d with engines := mdel d.engines n }

/-- ENGINE_PASS_END: an engine that fails is retired. -/
def execEnginePassEnd (eng : EngineId) (passed : Bool) (s : State) : Host.Outcome State Fault Refusal :=
  s.runB fun beat b =>
    match b.passOf (.engine eng) with
    | none => b
    | some p =>
      if p.start.isNone then b
      else
        let b := closePass b beat (.engine eng) p (if passed then 0 else 1) (if passed then 0 else 128)
        if passed then b
        else
          let n := engNo eng
          let d := retiredPost { b.data with engOut := sadd b.data.engOut n } 4 (unitCode (.engine eng)) 2 413
          { b with data := rehome d n }

/-- A cold stop cuts short every pass under way, with the verdict ABANDONED; deferrals go on at resume (14 R399). -/
def abandonPasses (b : Body) (beat : Nat) : Body :=
  let b := b.data.cores.foldl (fun (b : Body) e => if inPass e.2 then
    match b.passOf (.core e.1) with
      | some p => (closePass b beat (.core e.1) p 4 p.tags.toNat).setCorePass e.1 .none
      | none => b
    else b) b
  let b := (List.range 448).foldl (fun (b : Body) k =>
    let u := PassUnit.slice (k / 56) (k % 56)
    match b.passOf u, mget b.data.slices k with
    | some p, some (.flushing _) => closePass { b with data := { b.data with slices := mdel b.data.slices k } } beat u p 4 0
    | some p, some (.bypassed _) => closePass { b with data := { b.data with slices := if isGranted b.data k then mput b.data.slices k (.returning beat) else mdel b.data.slices k } } beat u p 4 0
    | _, _ => b) b
  let b := (List.range 16).foldl (fun (b : Body) k => match b.passOf (.runner k) with
    | some p => if p.start.isSome then
        let l := b.fab.link k
        closePass { b with fab := { b.fab with links := mput b.fab.links k { l with passSince := none, training := some beat } } } beat (.runner k) p 4 0
      else b
    | none => b) b
  (List.range 144).foldl (fun (b : Body) n => match b.passOf (.engine (engIdOf n)) with
    | some p => if p.start.isSome then closePass b beat (.engine (engIdOf n)) p 4 0 else b
    | none => b) b

end Sys2Proof.Machine
end

