-- ==== Sys2Proof/Machine/Cooling.lean ====
section
/-! DEFINITION. Coolant and the cold stop (14 R399-R401; 17 R459; 18 R475). -/

namespace Sys2Proof.Machine

/-- Set or clear FROZEN in every progress block (10 R318). -/
def setFrozen (d : Data) (on : Bool) : Data :=
  d.ctxs.foldl (fun (d : Data) e =>
    match d.sRead e.1 3 (e.2.progress + 48) 4 with
    | (d, some x) => d.sWrite e.1 3 (e.2.progress + 48) (natLe 4 (x % 4 + x / 8 * 8 + if on then 4 else 0))
    | (d, none) => d) d

/-- Park, or free, the groups of every core as the reasons stand. -/
def parkAll (b : Body) (on : Bool) : Body := b.data.cores.foldl (fun (b : Body) e => parkCore b e.1 on) b

/-- The COOLANT interval of a cold stop (R399, R402). -/
def coolantReason (beat : Nat) : Reason :=
  { reason := 9, kind := 0, unit := 0, events := 0, start := beat, stop := 0, maxDepth := 1024, meanDepth := 0, seq := 0 }

/-- It closes when the data plane runs again (R401). -/
def closeCoolant (p : Power) (beat : Nat) : Power :=
  (p.openR.filter fun r => r.reason == 9).foldl (fun p r => closeReason p beat r)
    { p with openR := p.openR.filter fun r => r.reason != 9 }

/-- A cold stop starts: passes are cut short, groups park, engines, relays and dispatch halt. -/
def startCold (b : Body) (beat : Nat) : Body :=
  let b := abandonPasses b beat
  let b := { b with pw := { b.pw with cold := .stopping beat, openR := b.pw.openR ++ [coolantReason beat] } }
  let b := parkAll b true
  { b with data := { setFrozen b.data true with halted := true } }

/-- COOLANT_OK has been low for more than 2,000 beats (R399; during steps 4 to 11 of bring-up 17 R459). -/
def coldDue (s : State) : State :=
  let b := s.body
  if b.md.state = 2 ∧ b.pw.cold = .running then s.setBody (startCold b s.alm.beat)
  else if b.md.state = 1 ∧ 4 ≤ b.md.step ∧ b.md.step < 12 then
    s.setBody { b with md := { b.md with step := 4, stepEnds := b.md.stepEnds.take 3, coolWait := true } }
  else s

/-- COOLANT_OK_FALL. -/
def execCoolantOkFall (s : State) : Host.Outcome State Fault Refusal :=
  s.run fun s =>
    if s.body.pw.coolantOk then s.setPw { s.body.pw with coolantOk := false, coolantSince := s.alm.beat } else s

/-- COOLANT_OK_RISE: a low level of 2,000 beats or less is ignored and counted. -/
def execCoolantOkRise (s : State) : Host.Outcome State Fault Refusal :=
  s.run fun s =>
    if s.body.pw.coolantOk then s
    else
      let low := s.alm.beat - s.body.pw.coolantSince
      let s := if low ≤ 2000 then
          let most := max s.body.pw.longestLow low
          let s := s.setPw { s.body.pw with longestLow := most }
          s.setBody { s.body with log := s.body.log.tally s.alm.beat 0x0608 0 [(0, 100), (most, 0)] }
        else coldDue s
      s.setPw { s.body.pw with coolantOk := true, coolantSince := s.alm.beat }

/-- COLD_STOP_START. -/
def execColdStopStart (s : State) : Host.Outcome State Fault Refusal :=
  s.run fun s =>
    if !s.body.pw.coolantOk && decide (s.body.pw.coolantSince + 2000 < s.alm.beat) then coldDue s else s

/-- A request of a group that has not been answered. -/
def LineReq.open_ (r : LineReq) : Bool := r.rem.isNone && (r.stage == .waiting || r.stage == .attached || r.stage == .confirming)

/-- A request towards another package. -/
def LineReq.isRemote (r : LineReq) : Bool :=
  match r.tgt with
  | .remote _ => true
  | _ => false

/-- COLD_STOP_HALTED: local operations have ended, or 1,000 beats have passed; COLD_STOP counts the remote operations that
are still awaited. -/
def execColdStopHalted (s : State) : Host.Outcome State Fault Refusal :=
  s.runB fun beat b =>
    match b.pw.cold with
    | .stopping t =>
      let open_ := b.data.reqs.filter LineReq.open_
      if open_.all LineReq.isRemote ∨ t + 1000 ≤ beat then
        let n := (open_.filter LineReq.isRemote).length
        let d := { b.data with posts := b.data.posts ++ [{ code := 0x0605, unit := 0, fields := [(t, 0), (beat, 0), (n, 0)], beat := some t }] }
        { b with data := d, pw := { b.pw with cold := .halted t beat, remoteAwaited := n } }
      else b
    | _ => b

/-- Beat at which a cold stop started. -/
def ColdSt.since (c : ColdSt) : Nat :=
  match c with
  | .running => 0
  | .stopping t => t
  | .halted t _ => t

/-- The data plane runs again: parked groups, engines, relays and Dispatchers continue, and held packets are taken. -/
def resumeCold (s : State) : State :=
  let b := s.body
  let t := b.pw.cold.since
  let b := { b with
    pw := closeCoolant { b.pw with cold := .running, remoteAwaited := 0 } s.alm.beat
    data := { setFrozen b.data false with halted := false } }
  let b := b.data.cores.foldl (fun (b : Body) e => if e.2.pass = .none then unyield b e.1 else b) b
  let b := parkAll b false
  let rx := b.fab.heldRx
  let s := s.setBody { b with fab := { b.fab with heldRx := [] } }
  let s := rx.foldl (fun (s : State) p => if packetWaits s.body.data p.2 then s else takePacket s p.1 p.2) s
  let s := s.setBody (pump s.body s.alm.beat)
  s.post 0x0606 0 [(s.alm.beat, 0), (s.alm.beat - t, 0)]

/-- R401: every die below 90 degrees and every stack below 85. -/
def cool (p : Power) : Bool := (p.temps.take 10).all (fun t => decide (t < 90)) && (p.temps.drop 10).all fun t => decide (t < 85)

/-- A refusal of `cold.resume`, with WAIT_BEATS. -/
def coldNo (status wait : Nat) : Res := { Res.no status with data := natLe 8 wait }

/-- `cold.resume`. -/
def effColdResume (s : State) (_l : Letter) (_ : Nat) : State × Res :=
  let p := s.body.pw
  let beat := s.alm.beat
  if p.cold = .running then (s, coldNo 0x80 0)
  else if !p.coolantOk then (s, coldNo 0x81 10000000)
  else if beat < p.coolantSince + 10000000 then (s, coldNo 0x81 (p.coolantSince + 10000000 - beat))
  else if !cool p then (s, coldNo 0x82 0)
  else (resumeCold s, Res.ok (natLe 8 0))

def execColdResume (s : State) := letterRow s (fun l => l.op == 0x0801) effColdResume

/-- ALERT# (18 R475). -/
def State.alert (s : State) : Bool :=
  s.body.pw.fallbackOn || s.body.pw.cold != .running || s.body.md.uv || s.latch.fault || s.body.mgdb.unread

end Sys2Proof.Machine
end

