-- ==== Sys2Proof/Machine/Dispatchers.lean ====
section
/-! DEFINITION. The Dispatchers: queues and their entries, iterations, nodes, thread-block placement, and event waiters
(10 R299-R317; 16 R442). -/

namespace Sys2Proof.Machine

/-! ### When Dispatchers act (11 Table 3; 14 R399) -/

/-- The context's plot is ACTIVE and the data plane runs. -/
def mayDispatch (d : Data) (ctx : Nat) : Bool :=
  !d.halted && (((mget d.plots (d.ctxPlot ctx)).map fun p => p.st) == some PlotState.active)

/-- 11 R336, Table 14: a queue claims entries while neither it nor its context is RELEASING. -/
def queueClaims (d : Data) (p : Pigeon) (q : Queue) : Bool :=
  mayDispatch d p.ctx && decide (0 < q.hostCount) && match mget d.ctxs p.ctx with
    | some c => decide (0 < c.hostCount)
    | none => false

/-! ### Queue entries (Table 3, R299, R302-R304) -/

/-- A slot of a ring. -/
def slotAddr (p : Pigeon) (t : Nat) : Nat := p.ring + 64 * (1 + t % 2 ^ p.log2)

/-- An entry that has been executed. -/
def Data.entryDone (d : Data) (h : Nat) : Data :=
  ({ d with pigeons := mmod d.pigeons h fun p => { p with queue := p.queue.map fun (q : Queue) => { q with entry := none, launch := none } } }).reap

/-- The launch record of an entry that ran nothing: STATUS and the two beats. -/
def shortRecord (status beat : Nat) : List Byte :=
  natLe 2 status ++ List.replicate 6 0 ++ natLe 8 beat ++ natLe 8 beat ++ List.replicate 40 0

/-- The short record of an entry, if it names one (R303). -/
def namedRecord (d : Data) (disp ctx record status beat : Nat) : Data :=
  if record = 0 ∨ record % 64 ≠ 0 then d else d.putRecord disp ctx record (shortRecord status beat)

/-- A LAUNCH entry that ran nothing ends. -/
def launchless (d : Data) (disp ctx record status beat : Nat) : Data :=
  (namedRecord d disp ctx record status beat).progress ctx 0

/-- An event that an entry or node of a context may use: it exists, in the context's plot, and is not being released. -/
def eventOk (d : Data) (ctx ev : Nat) : Bool :=
  match mget d.events ev with
  | some e => d.ctxPlot e.ctx == d.ctxPlot ctx && decide (0 < e.hostCount)
  | none => false

/-- An event's value has reached a threshold. -/
def eventMet (d : Data) (ctx ev v : Nat) : Bool :=
  match mget d.events ev with
  | some e => d.ctxPlot e.ctx == d.ctxPlot ctx && decide (v ≤ (d.eventVal ev).getD 0) && (d.eventVal ev).isSome
  | none => false

/-- The value of an event cannot be read or changed now (07 R205, R214, R217). -/
def eventBusy (d : Data) (ev : Nat) : Bool :=
  match mget d.events ev with
  | some e => d.busyAt (d.ctxPlot e.ctx) e.addr 8
  | none => false

/-- A graph that a context may launch. -/
def graphOk (d : Data) (ctx g : Nat) : Bool :=
  match mget d.graphs g with
  | some x => d.ctxPlot x.ctx == d.ctxPlot ctx && decide (0 < x.hostCount)
  | none => false

/-- What becomes of an entry that its Dispatcher has read, before it is executed. -/
def takeEntry (b : Body) (beat h : Nat) (p : Pigeon) (q : Queue) (t : Nat) (l : List Byte) : Data :=
  let d := b.data
  let k := field l 8 1
  let record := field l 24 8
  if !q.running && k != 4 then (if k = 1 then launchless d q.disp p.ctx record 2 beat else d)
  else if (firstBad (entryChecks l)).isSome then (if k = 1 then launchless d q.disp p.ctx record 4 beat else namedRecord d q.disp p.ctx record 4 beat)
  else
    let ev := field l 14 2
    if (k = 2 ∨ k = 3 ∨ (k = 1 ∧ field l 9 1 / 2 % 2 = 1)) ∧ !eventOk d p.ctx ev then
      (if k = 1 then launchless d q.disp p.ctx record 4 beat else d)
    else if k = 1 ∧ !graphOk d p.ctx (field l 12 2) then launchless d q.disp p.ctx record 5 beat
    else
      { d with pigeons := mput d.pigeons h { p with queue := some { q with
          entry := some { bytes := l, ticket := t, jgen := (mget b.sj p.ctx).map fun (j : StepJournal) => j.gen } } } }

/-- QUEUE_ENTRY_CLAIM: the Dispatcher claims the next ticket if its entry is there, and releases the slot. -/
def execQueueEntryClaim (queue : Nat) (s : State) : Host.Outcome State Fault Refusal :=
  s.runB fun beat b =>
    match mget b.data.pigeons queue with
    | none => b
    | some p => match p.queue with
      | none => b
      | some q =>
        if q.entry.isSome || !queueClaims b.data p q || b.data.dieOut.contains (8 + q.disp / 4) ||
            b.data.busyAt (b.data.ctxPlot p.ctx) p.ring 24 then b
        else match b.data.sRead p.ctx 4 (p.ring + 8) 8 with
          | (d, none) => { b with data := d }
          | (d, some t) =>
            if d.busyAt (d.ctxPlot p.ctx) (slotAddr p t) 64 then b
            else match d.devRead (d.ctxPlot p.ctx) (slotAddr p t % 2 ^ 40) 64 with
            | none => { b with data := d.structLost p.ctx 4 (d.lostAt p.ctx (slotAddr p t) 64) }
            | some l =>
              if field l 0 8 = (t + 1) % 2 ^ 64 then
                let d := d.sWrite p.ctx 4 (p.ring + 8) (natLe 8 (t + 1))
                let d := d.sWrite p.ctx 4 (slotAddr p t) (natLe 8 (t + 2 ^ p.log2))
                { b with data := takeEntry { b with data := d } beat queue p q t l }
              else b

/-- The entry of a queue that is of kind `k`. -/
def entryOf (d : Data) (h k : Nat) : Option (Pigeon × Queue × QEntry) :=
  (mget d.pigeons h).bind fun p => p.queue.bind fun q => q.entry.bind fun e =>
    if field e.bytes 8 1 = k then some (p, q, e) else none

/-- QUEUE_WAIT: complete when the event's value is at least VALUE; at once, without executing, when the queue has stopped. -/
def execQueueWait (queue : Nat) (s : State) : Host.Outcome State Fault Refusal :=
  s.runD fun _ d =>
    match entryOf d queue 2 with
    | some (p, q, e) =>
      if d.halted || (q.running && eventBusy d (field e.bytes 14 2)) then d
      else if !q.running || eventMet d p.ctx (field e.bytes 14 2) (field e.bytes 16 8) then d.entryDone queue
      else d.eventLost (field e.bytes 14 2)
    | none => d

/-- QUEUE_SIGNAL: complete once the addition is applied; without effect when the queue has stopped. -/
def execQueueSignal (queue : Nat) (s : State) : Host.Outcome State Fault Refusal :=
  s.runD fun _ d =>
    match entryOf d queue 3 with
    | some (_, q, e) =>
      if d.halted || (q.running && eventBusy d (field e.bytes 14 2)) then d
      else (if q.running then d.eventAdd (field e.bytes 14 2) (field e.bytes 16 8) else d).entryDone queue
    | none => d

/-- QUEUE_RESUME: the queue is RUNNING. -/
def execQueueResume (queue : Nat) (s : State) : Host.Outcome State Fault Refusal :=
  s.runD fun _ d =>
    match entryOf d queue 4 with
    | some (p, q, e) =>
      if d.halted then d
      else
        let d := { d with pigeons := mput d.pigeons queue { p with queue := some { q with running := true } } }
        let d := if q.running then d else d.post 0x0802 0 [(queue, 2), (p.ctx, 2), (0, 4), (e.ticket, 8)]
        d.entryDone queue
    | none => d

/-! ### Launches and iterations (R303, R308, R313) -/

def NodeRun.fresh : NodeRun := { st := .waiting, grid := 0, placed := 0, ended := 0, slip := 0, engine := none, aborted := false }

/-- The snapshot bank of the next iteration of a graph: the one that the previous iteration did not take; none while both are in
use. -/
def pickBank (g : Graph) : Option Nat :=
  let other := if g.lastBank = 0 then 1 else 0
  if !g.banks.contains other then some other else if !g.banks.contains g.lastBank then some g.lastBank else none

/-- Begin the next iteration of a launch, if a bank is free. -/
def Data.beginIter (d : Data) (id beat : Nat) : Data :=
  match mget d.launches id with
  | none => d
  | some l => match mget d.graphs l.graph with
    | none => d
    | some g => match pickBank g with
      | none => d
      | some k =>
        let l' := { l with
          iter := l.okIters
          bank := k
          nodes := (List.range g.nodes.length).map fun i => (i, NodeRun.fresh)
          open_ := true
          startBeat := if l.okIters = 0 then beat else l.startBeat
          digests := []
          itBeat := beat
          itNan := l.nan
          itSat := l.sat
          itFaults := l.faults
          colls := [] }
        { d with launches := mput d.launches id l', graphs := mput d.graphs l.graph { g with lastBank := k, banks := sadd g.banks k } }

/-- A launch, not yet begun. -/
def Launch.fresh (queue graph ctx seq beat : Nat) (jgen : Option Nat) : Launch :=
  { queue := queue, graph := graph, ctx := ctx, rep := 1, iter := 0, bank := 0, nodes := [], open_ := false, signal := false,
    stopOnFail := false, event := 0, value := 0, record := 0, seq := seq, startBeat := beat, okIters := 0, failedNode := none,
    failCause := 0, failDetail := 0, aborted := false, nan := 0, sat := 0, nanFirst := false, satFirst := false, run := 0,
    disabled := 0, cancelled := 0, faults := 0, nanNotice := none, satNotice := none, digests := [], itBeat := beat, itNan := 0,
    itSat := 0, itFaults := 0, colls := [], jgen := jgen, replay := false }

/-- A context's next LAUNCH_SEQ. -/
def Data.nextSeq (d : Data) (ctx : Nat) : Nat × Data :=
  (((mget d.ctxs ctx).map fun c => c.launchSeq).getD 0, { d with ctxs := mmod d.ctxs ctx fun c => { c with launchSeq := c.launchSeq + 1 } })

/-- The replays that wait to begin on a queue. -/
def waitingReplay (d : Data) (h : Nat) : Option Nat :=
  (d.launches.find? fun l => l.2.queue == h && l.2.replay && !l.2.open_ && !l.2.aborted && l.2.okIters == 0 && l.2.failedNode.isNone).map fun l => l.1

/-- A graph that a claimed entry of a context holds (11 R336). -/
def graphHeld (d : Data) (ctx g : Nat) : Bool :=
  match mget d.graphs g with
  | some x => d.ctxPlot x.ctx == d.ctxPlot ctx
  | none => false

/-- QUEUE_LAUNCH: the entry's launch is made, or begins its next iteration. One that has not begun when its queue has
stopped is cancelled (R304). -/
def execQueueLaunch (queue : Nat) (s : State) : Host.Outcome State Fault Refusal :=
  s.runD fun beat d =>
    match entryOf d queue 1 with
    | none => match waitingReplay d queue with
      | some id => if ((mget d.launches id).map fun l => mayDispatch d l.ctx) = some true then d.beginIter id beat else d
      | none => d
    | some (p, q, e) =>
      if !q.running && q.launch.isNone && !d.halted then (launchless d q.disp p.ctx (field e.bytes 24 8) 2 beat).entryDone queue
      else if !mayDispatch d p.ctx then d
      else match q.launch with
        | some id => match mget d.launches id with
          | some l => if !l.open_ && !l.aborted && l.failedNode.isNone && decide (l.okIters < l.rep) then d.beginIter id beat else d
          | none => d
        | none =>
          let g := field e.bytes 12 2
          if !graphHeld d p.ctx g then (launchless d q.disp p.ctx (field e.bytes 24 8) 5 beat).entryDone queue
          else
            let (seq, d) := d.nextSeq p.ctx
            let id := d.nextId
            let l := { Launch.fresh queue g p.ctx seq beat e.jgen with
              rep := field e.bytes 10 2
              signal := field e.bytes 9 1 / 2 % 2 == 1
              stopOnFail := field e.bytes 9 1 % 2 == 1
              event := field e.bytes 14 2
              value := BitVec.ofNat 64 (field e.bytes 16 8)
              record := field e.bytes 24 8 }
            let d := { d with nextId := id + 1, launches := mput d.launches id l, pigeons := mput d.pigeons queue { p with queue := some { q with launch := some id } } }
            d.beginIter id beat

/-! ### Nodes (R307-R313) -/

/-- A node reaches a final state; it is counted. -/
def nodeEnds (d : Data) (id n : Nat) (st : NodeSt) : Data :=
  match mget d.launches id with
  | none => d
  | some l =>
    let l' := { l with
      nodes := mmod l.nodes n fun x => { x with st := st }
      run := if st = .done then l.run + 1 else l.run
      disabled := if st = .disabled then l.disabled + 1 else l.disabled
      cancelled := if st = .cancelled then l.cancelled + 1 else l.cancelled }
    ({ d with launches := mput d.launches id l' }).progress l.ctx 8

/-- Nodes that are reachable from `n`. -/
def reachable (g : Graph) (n : Nat) : List Nat :=
  (List.range g.nodes.length).foldl (fun s i => if i = n ∨ s.contains i then ((g.nodes[i]?).map fun x => x.succs).getD [] ++ s else s) []

/-- A node fails: what is reachable from it and not dispatched is cancelled (R313). -/
def nodeFails (d : Data) (id n cause detail : Nat) : Data :=
  match mget d.launches id with
  | none => d
  | some l =>
    let first := l.failedNode.isNone
    let l' := { l with
      failedNode := some (l.failedNode.getD n)
      failCause := if first && !l.aborted then cause else l.failCause
      failDetail := if first && !l.aborted then detail else l.failDetail }
    let d := nodeEnds { d with launches := mput d.launches id l' } id n .failed
    match mget d.graphs l.graph with
    | none => d
    | some g =>
      let rs := reachable g n
      (l.nodes.filter fun e => e.1 != n && rs.contains e.1 && e.2.st == .waiting).foldl (fun (d : Data) e => nodeEnds d id e.1 .cancelled) d

/-- All predecessors have completed or been disabled, and their digests have been taken (R307; 16 R442). -/
def predsDone (b : Body) (l : Launch) (g : Graph) (n : Nat) : Bool :=
  let due := b.digestsDue l
  (g.nodes.zipIdx).all fun m => !m.1.succs.contains n ||
    ((match (mget l.nodes m.2).map fun (x : NodeRun) => x.st with
      | some NodeSt.done | some NodeSt.disabled => true
      | _ => false) && due.all fun w => w.1 != m.2)

/-- Ready, and its parameter fence is complete. -/
def nodeReady (b : Body) (l : Launch) (g : Graph) (n : Nat) : Bool :=
  ((mget l.nodes n).map fun x => x.st) == some NodeSt.waiting && predsDone b l g n &&
    match g.nodes[n]? with
    | some x => !x.fenceOn || !eventBusy b.data x.fenceEvent && eventMet b.data l.ctx x.fenceEvent x.fenceValue.toNat
    | none => false

/-- R72: registers, bench granules, and blocks of a kernel that a core holds when empty. -/
def regsAlloc (n : GNode) : Nat := 8 * ((n.regs + 7) / 8)
def benchAlloc (n : GNode) : Nat := (n.bench + 1023) / 1024

def coreBlocks (n : GNode) : Nat :=
  let byBench := if benchAlloc n = 0 then 16 else 512 / benchAlloc n
  min (min (4096 / (n.groups * regsAlloc n)) byBench) (min (96 / n.groups) 16)

/-- R306: the most thread blocks that a detached node may have. -/
def detachedMax (d : Data) (p : Plot) (n : GNode) : Nat :=
  coreBlocks n * (p.cores.filter fun c => match d.coreState c with
    | .full => true
    | .arrayOff => !n.array
    | .off => false).length

/-- The slip of a node without one. -/
def noSlip : List Byte := List.replicate 4 0 ++ [1] ++ List.replicate 251 0

/-- The lines of a slip, and where each lives. -/
def slipLines (d : Data) (plot a : Nat) : List (Nat × Except FaultClass Place) := [a, a + 128].map fun x => (x, place d (dispAgent plot) x)

/-- Bytes of a line of this package's memory; none where it is lost. -/
def ownLine (d : Data) (p : Nat) : Option (List Byte) := if d.isLost (d.scratchHome p) then none else some (d.rdN (d.scratchHome p) 128)

/-- The requests by which a Dispatcher reads the slip of node `i` of launch `id`. -/
def slipReqs (d : Data) (id i : Nat) : List LineReq := d.reqs.filter fun r => r.ofDisp && !writes r.op && r.slot == id && r.iseq == i

/-- Read a slip (R308; 08 Table 2; 09 R277): none while the read waits; otherwise its 256 bytes, or nothing where the read faults.
The lines of this package are read at once, when none of them has to wait; those of another package and of a host window, and then all,
by line requests. -/
def readSlip (d : Data) (disp plot id i a : Nat) : Data × Option (Option (List Byte)) :=
  let ls := slipLines d plot a
  let own := ls.filterMap fun x => match x.2 with
    | .ok (.phys p) => some p
    | _ => none
  if ls.any fun x => match x.2 with
    | .ok _ => false
    | .error _ => true then (d, some none)
  else if own.length = 2 then
    if own.any fun p => lineBusy d plot p then (d, none)
    else (d, some ((own.mapM fun p => ownLine d p).map fun l => l.flatten))
  else
    let rs := slipReqs d id i
    if rs = [] then
      (ls.foldl (fun (d : Data) x => match x.2 with
        | .ok p => d.dispAsk disp id i plot x.1 p (.load false false 0 0 false)
        | .error _ => d) d, none)
    else if rs.all fun r => r.over then
      ({ d with reqs := d.reqs.filter fun r => !(rs.contains r) },
        some ((rs.mapM fun (r : LineReq) => match r.stage with
          | .returned l _ => some l
          | _ => none).map fun (l : List (List Byte)) => l.flatten))
    else (d, none)

/-- A slip's own fields keep Table 7. -/
def slipOk (n : GNode) (l : List Byte) : Bool :=
  (if n.kind = 1 then decide (field l 0 4 ≤ 16777216) else field l 0 4 == 0) && decide (field l 4 1 ≤ 1) && field l 5 3 == 0 &&
    (n.kind == 4 || n.kind == 5 || field l 8 8 == 0)

/-- The engine that takes a node's descriptor: a courier's where bytes 56 to 63 are zero, as 07 Table 4 requires of couriers and Table
5 forbids gleaners; a relay of the Dispatcher's I/O die. -/
def nodeEngine (d : Data) (disp : Nat) (n : GNode) (desc : List Byte) : Option Nat :=
  if n.kind = 3 then
    let base := if disp < 4 then 128 else 136
    d.fewest base
  else
    let b := 16 * n.copyDie + (if field desc 56 8 = 0 then 0 else 8)
    let sel := n.target.toNat % 16
    if d.dieOut.contains n.copyDie then none
    else if sel = 0 ∨ 8 < sel ∨ d.engOut.contains (b + (sel - 1)) then d.fewest b else some (b + (sel - 1))

def dispOf (d : Data) (l : Launch) : Nat := d.queueDisp l.queue

/-- Issue the descriptor of a COPY or RELAY node; nothing happens while its engine's queue is full. -/
def dispatchDesc (d : Data) (id : Nat) (l : Launch) (i : Nat) (n : GNode) (snap : Nat) (desc : List Byte) : Option Data :=
  match nodeEngine d (dispOf d l) n desc with
  | none => some (nodeFails d id i 3 2)
  | some k =>
    let e : EngDesc := { bytes := desc, addr := BitVec.ofNat 64 (snap + 64), plot := d.ctxPlot l.ctx, ctx := l.ctx, owner := .node id i, own := none }
    let st := if 128 ≤ k then relayStatus d k e else descStatus d k e
    if st ≠ 0 then some (nodeFails d id i 3 st)
    else if 16 ≤ (d.engine k).queue.length then none
    else
      let d := { d with launches := mmod d.launches id fun x => { x with nodes := mmod x.nodes i fun y => { y with st := .dispatched, slip := BitVec.ofNat 64 snap } } }
      some (d.enqueue k e)

/-- Act on a node's snapshot. -/
def dispatchNode (d : Data) (id : Nat) (l : Launch) (p : Plot) (i : Nat) (n : GNode) (snap : Nat) (slip : List Byte) : Option Data :=
  if !slipOk n slip then some (nodeFails d id i 1 0)
  else if field slip 4 1 = 0 then some (nodeEnds d id i .disabled)
  else
    let v := if field slip 8 8 = 0 then n.value.toNat else field slip 8 8
    let set (f : NodeRun → NodeRun) : Data :=
      { d with launches := mmod d.launches id fun x => { x with nodes := mmod x.nodes i f } }
    match n.kind with
    | 1 =>
      let blocks := if field slip 0 4 = 0 then n.blocks else field slip 0 4
      if n.detached && decide (detachedMax d p n < blocks) then some (nodeFails d id i 1 0)
      else some (set fun x => { x with st := .dispatched, grid := blocks, slip := BitVec.ofNat 64 snap })
    | 2 | 3 =>
      let desc := (slip.drop 64).take 64
      if field desc 3 5 ≠ 0 then some (nodeFails d id i 1 0) else dispatchDesc d id l i n snap desc
    | 4 =>
      if eventMet d l.ctx (n.target.toNat % 65536) v then some (nodeEnds d id i .done)
      else some (set fun x => { x with st := .dispatched, slip := BitVec.ofNat 64 v })
    | 5 => some (nodeEnds (if eventOk d l.ctx (n.target.toNat % 65536) then d.eventAdd (n.target.toNat % 65536) v else d) id i .done)
    | 6 =>
      let h := n.target.toNat % 4096
      let mine := ((mget d.pigeons h).map fun x => d.ctxPlot x.ctx) == some (d.ctxPlot l.ctx)
      some (nodeEnds (if mine then d.ringPh h else d) id i .done)
    | _ => some (nodeEnds d id i .done)

/-- NODE_DISPATCH: the ready node of lowest index is dispatched from a snapshot of its slip. -/
def execNodeDispatch (launch node : Nat) (s : State) : Host.Outcome State Fault Refusal :=
  s.runB fun _ b =>
    let d := b.data
    match mget d.launches launch with
    | none => b
    | some l =>
      match mget d.graphs l.graph, mget d.plots (d.ctxPlot l.ctx) with
      | some g, some p =>
        match g.nodes[node]? with
        | none => b
        | some n =>
          if !l.open_ || l.aborted || !mayDispatch d l.ctx || !nodeReady b l g node || (List.range node).any fun m => nodeReady b l g m then b
          else
            let snap := snapAddr g l.bank node
            match if n.slip = 0 then (d, some (some noSlip)) else readSlip d (dispOf d l) (d.ctxPlot l.ctx) launch node n.slip.toNat with
            | (d, none) => { b with data := d }
            | (d, some none) => { b with data := nodeFails d launch node 2 0 }
            | (d, some (some slip)) =>
              let d := d.sWrite l.ctx 7 snap slip
              match dispatchNode d launch l p node n snap slip with
              | some d => { b with data := d }
              | none => b
      | _, _ => b

/-! ### Placement (R311; 03 R66, R68, R72, R104) -/

/-- A core has the resources of one thread block free. -/
def coreFits (k : Core) (n : GNode) : Bool :=
  decide (n.groups ≤ (freeSlots k).length) && decide (k.blocks.length < 16) &&
    decide ((k.blocks.map fun b => b.2.groups * b.2.regsAlloc).sum + n.groups * regsAlloc n ≤ 4096) &&
    decide ((k.blocks.map fun b => b.2.bench.length).sum + benchAlloc n ≤ 512)

/-- A core of the plot that may take a thread block of a node. -/
def coreTakes (b : Body) (l : Launch) (id i : Nat) (n : GNode) (c : Nat) : Bool :=
  let k := b.data.core c
  (match b.data.coreState c with
    | .full => true
    | .arrayOff => !n.array
    | .off => false) && coreFits k n && (!n.array || k.claim == none || k.claim == some (id, i)) &&
    k.pass == .none && (mget b.data.retiring c).isNone &&
    !(l.replay && ((b.replay.map fun (r : Replay) => r.exclude) == some true) &&
      match mget b.hl.suspects c with
      | some x => x.state == 1 || x.state == 3
      | none => false)

/-- The fewest resident groups, the lowest number among equals. -/
def pickCore (d : Data) (cs : List Nat) : Option Nat :=
  cs.foldl (fun (a : Option Nat) c => match a with
    | none => some c
    | some x => if (d.core c).groups.length < (d.core x).groups.length then some c else a) none

/-- Put a thread block on a core: the lowest free block slot, group slots and bench granules. Nothing of its bench region has been
written since. -/
def placeBlock (d : Data) (id i : Nat) (l : Launch) (n : GNode) (x : NodeRun) (c : Nat) : Data :=
  let k := d.core c
  match freeKey k.blocks 16 with
  | none => d
  | some bs =>
    let used := k.blocks.flatMap fun b => b.2.bench
    let gr := ((List.range 512).filter fun g => !used.contains g).take (benchAlloc n)
    let blk : Block :=
      { launch := id, node := i, index := x.placed, grid := x.grid, groups := n.groups, regsAlloc := regsAlloc n, bench := gr,
        usesArray := n.array, entry := n.target, slip := x.slip, ctx := l.ctx, plot := d.ctxPlot l.ctx, traps := n.traps,
        detached := n.detached, age := k.nextAge, bars := [], iter := l.iter }
    let first := !(k.blocks.any fun b => b.2.launch == id)
    let k := { startGroups { k with blocks := mput k.blocks bs blk } blk bs false with
      icache := if first then [] else k.icache
      fetchBuf := if first then [] else k.fetchBuf
      claim := if n.array then some (id, i) else k.claim }
    let d := (d.setCore c k).dropNear c
    { d with
      nextId := d.nextId + 1
      benchEpoch := gr.foldl (fun (m : SMap Nat) g => mput m (512 * c + g) d.nextId) d.benchEpoch
      bench := d.bench.filter fun e => !(e.1 / 2 ^ 19 == c && gr.contains (e.1 % 2 ^ 19 / 1024))
      ctxSeen := mput d.ctxSeen c (l.ctx :: (mgetD d.ctxSeen c []).filter fun y => y != l.ctx)
      launches := mmod d.launches id fun y => { y with nodes := mmod y.nodes i fun z => { z with placed := z.placed + 1 } } }

/-- THREAD_BLOCK_PLACE: the next thread block of a dispatched KERNEL node. -/
def execThreadBlockPlace (launch node : Nat) (s : State) : Host.Outcome State Fault Refusal :=
  s.runB fun _ b =>
    let d := b.data
    match mget d.launches launch with
    | none => b
    | some l =>
      match (mget d.graphs l.graph).bind fun g => g.nodes[node]?, mget l.nodes node, mget d.plots (d.ctxPlot l.ctx) with
      | some n, some x, some p =>
        if n.kind = 1 ∧ x.st = .dispatched ∧ x.placed < x.grid ∧ !x.aborted ∧ !l.aborted ∧ mayDispatch d l.ctx then
          match pickCore d (p.cores.filter fun c => coreTakes b l launch node n c) with
          | some c => { b with data := placeBlock d launch node l n x c }
          | none => b
        else b
      | _, _, _ => b

/-! ### Completion (R312, R313; 16 R442) -/

/-- A dispatched node has come to its end: 0 not yet, 1 completed, 2 failed. -/
def nodeOver (d : Data) (l : Launch) (n : GNode) (x : NodeRun) : Nat :=
  match n.kind with
  | 1 =>
    if x.aborted then (if x.ended = x.placed ∨ n.detached then 2 else 0)
    else if x.placed = x.grid ∧ (n.detached ∨ x.ended = x.grid) then 1 else 0
  | 2 | 3 => match x.engine with
    | some 0 => 1
    | some _ => 2
    | none => 0
  | 4 => if !eventBusy d (n.target.toNat % 65536) && eventMet d l.ctx (n.target.toNat % 65536) x.slip.toNat then 1 else 0
  | _ => 1

/-- NODE_COMPLETE. -/
def execNodeComplete (launch node : Nat) (s : State) : Host.Outcome State Fault Refusal :=
  s.runD fun _ d =>
    match mget d.launches launch with
    | none => d
    | some l =>
      match (mget d.graphs l.graph).bind fun g => g.nodes[node]?, mget l.nodes node with
      | some n, some x =>
        if x.st ≠ .dispatched ∨ d.halted then d
        else match nodeOver d l n x with
          | 1 => nodeEnds d launch node .done
          | 2 => if n.kind = 1 then nodeFails d launch node 4 0 else nodeFails d launch node 3 (x.engine.getD 0)
          | _ => d
      | _, _ => d

/-- JOURNAL_WATCH_DIGEST: the digests of the watches of a node that has completed or been disabled. -/
def execJournalWatchDigest (launch node : Nat) (s : State) : Host.Outcome State Fault Refusal :=
  s.runB fun _ b =>
    match mget b.data.launches launch with
    | none => b
    | some l => match b.journalOf l with
      | none => b
      | some j =>
        if b.data.halted then b
        else
          let due := (b.digestsDue l).filter fun w => w.1 == node
          let d := due.foldl (fun (d : Data) w => match j.watches[w.2]? with
            | some (_, base, bytes) =>
              let x := digestOf d (d.ctxPlot l.ctx) base bytes
              { d with free := d.free + 2, launches := mmod d.launches launch fun y => { y with digests := y.digests ++ [(w.2, x)] } }
            | none => d) b.data
          { b with data := d }

/-! ### Event waiters (R316) -/

/-- Events on which a Dispatcher holds a waiter: WAIT entries, EVENT_WAIT nodes and fences. -/
def heldEvents (d : Data) (disp : Nat) : List Nat :=
  ((d.pigeons.filterMap fun p => match p.2.queue with
    | some q => if q.disp = disp then q.entry.bind fun e => if field e.bytes 8 1 = 2 then some (field e.bytes 14 2) else none else none
    | none => none) ++
  (d.launches.filter fun l => l.2.open_ && dispOf d l.2 == disp).flatMap fun l =>
    l.2.nodes.filterMap fun n => match (mget d.graphs l.2.graph).bind fun g => g.nodes[n.1]? with
      | some g =>
        if n.2.st = .dispatched ∧ g.kind = 4 then some (g.target.toNat % 65536)
        else if n.2.st = .waiting ∧ g.fenceOn then some g.fenceEvent else none
      | none => none).eraseDups

/-- Events whose interrupt may be due: those with a vector. -/
def armedEvents (d : Data) : List Nat := (d.events.filter fun e => e.2.vector != 0xFFFF).map fun e => e.1

/-- EVENT_WAITER_POLL: a Dispatcher evaluates its waiters, for advances that other agents made. -/
def execEventWaiterPoll (dispatcher : Nat) (s : State) : Host.Outcome State Fault Refusal :=
  s.runD fun _ d =>
    if d.halted || decide (8 ≤ dispatcher) || d.dieOut.contains (8 + dispatcher / 4) then d
    else
      let d := ((heldEvents d dispatcher).filter fun e => !eventBusy d e).foldl (fun (d : Data) e => d.eventLost e) d
      let d := ((armedEvents d).filter fun e => !eventBusy d e).foldl (fun (d : Data) e => d.evalIrq e (2 ^ 64)) d
      let d := d.pigeons.foldl (fun (d : Data) p => match entryOf d p.1 2 with
        | some (x, q, e) =>
          if q.disp = dispatcher ∧ q.running ∧ !eventBusy d (field e.bytes 14 2) ∧ eventMet d x.ctx (field e.bytes 14 2) (field e.bytes 16 8) then d.entryDone p.1 else d
        | none => d) d
      d.launches.foldl (fun (d : Data) l =>
        if l.2.open_ ∧ dispOf d l.2 = dispatcher then
          l.2.nodes.foldl (fun (d : Data) n => match (mget d.graphs l.2.graph).bind fun g => g.nodes[n.1]? with
            | some g => if n.2.st = .dispatched ∧ g.kind = 4 ∧ nodeOver d l.2 g n.2 = 1 then nodeEnds d l.1 n.1 .done else d
            | none => d) d
        else d) d

end Sys2Proof.Machine
end

