-- ==== Sys2Proof/Machine/Epoch.lean ====
section
/-! DEFINITION. EPOCH_BOUNDARY: sharing the cap, energy, the watchdog, and the counters that post once per epoch
(10 R319; 14 R387, R388, R402, R404; 15 R425). -/

namespace Sys2Proof.Machine

/-! ### Sharing the cap (R387, R388) -/

/-- A die has resident groups. -/
def dieBusy (d : Data) (die : Nat) : Bool := d.cores.any fun e => e.1 / 84 == die && e.2.groups != []

/-- Shares of the dies from `die` on, out of `left` watts above the floors: a die without work gets its floor, a die with
work what the controller has learned. Which, is a free value. -/
def dieShares (d : Data) : Nat → Nat → Nat → List Nat × Nat
  | 0, _, left => ([], left)
  | n + 1, die, left =>
    if d.dieOut.contains die then
      let (l, r) := dieShares d n (die + 1) left
      (0 :: l, r)
    else if dieBusy d die then
      let x := Config.freeNat (d.free + die) % (min 160 left + 1)
      let (l, r) := dieShares d n (die + 1) (left - x)
      ((30 + x) :: l, r)
    else
      let (l, r) := dieShares d n (die + 1) left
      (30 :: l, r)

/-- The starting division at a 2,000 W cap (R36; 01 Table 8): 150 W a die in service, 350 W for HBM. -/
def startShares (d : Data) : List Nat := (List.range 8).map fun i => if d.dieOut.contains i then 0 else 150

/-- Divide the cap in force: I/O draw and regulator loss are not shared out, 2 % is headroom. With nothing yet learned, a
2,000 W cap has the starting division, where the draw and the loss leave room for it. -/
def divideCap (b : Body) (ioW lossW : Nat) : Body :=
  let d := b.data
  if b.pw.cap = 2000 ∧ b.pw.learned = [] ∧ 1550 + ioW + lossW ≤ 1960 then
    { b with pw := { b.pw with shares := startShares d, hbmShare := 350 } }
  else
    let live := ((List.range 8).filter fun i => !d.dieOut.contains i).length
    let above := b.pw.cap * 98 / 100 - ioW - lossW - 30 * live - 60
    let (shares, left) := dieShares d 8 0 above
    let hbm := 60 + Config.freeNat (d.free + 8) % (min 360 left + 1)
    { b with data := { d with free := d.free + 9 }, pw := { b.pw with shares := shares, hbmShare := hbm } }

/-- The node (launch, index) of the groups on a die, one for each group. -/
def dieNodes (d : Data) (die : Nat) : List (Nat × Nat) :=
  (d.cores.filter fun e => e.1 / 84 == die).flatMap fun e =>
    e.2.groups.filterMap fun g => (mget e.2.blocks g.2.block).map fun b => (b.launch, b.node)

/-- The current tag of a die (R388): PHASE_TAG of the node whose groups are most numerous there; none without groups. -/
def dieTag (d : Data) (die : Nat) : Option Nat :=
  let l := dieNodes d die
  let top := l.foldl (fun (a : Option (Nat × Nat)) n => match a with
    | none => some n
    | some m => if l.count m < l.count n then some n else a) none
  top.map fun n => (((mget d.launches n.1).bind fun x => mget d.graphs x.graph).bind fun g => g.nodes[n.2]?.map fun y => y.phaseTag).getD 0

/-- The tags current at the boundary are learned from then on, up to 256 of them (R388). -/
def learnTags (b : Body) : Body :=
  { b with pw := { b.pw with learned :=
    ((List.range 8).filterMap fun i => dieTag b.data i).foldl (fun l t => if l.length < 256 then sadd l t else l) b.pw.learned } }

/-! ### Energy (R404) -/

/-- The charges of known contexts, which together stay within the module's energy. -/
def fitCharges (known : SMap (Nat × Nat)) : List (Nat × Nat) → Nat → List (Nat × Nat)
  | [], _ => []
  | (c, mj) :: l, left => if (mget known c).isSome then (c, min mj left) :: fitCharges known l (left - mj) else fitCharges known l left

/-- Charge an epoch's energy. -/
def chargeEnergy (p : Power) (m : EpochMeas) : Power :=
  let cs := fitCharges p.ctxMj m.charges m.moduleMj
  { p with
    moduleMj := p.moduleMj + m.moduleMj
    unattrMj := p.unattrMj + (m.moduleMj - (cs.map fun c => c.2).sum)
    ctxMj := cs.foldl (fun (t : SMap (Nat × Nat)) c => mmod t c.1 fun x => (x.1, x.2 + c.2)) p.ctxMj
    dieMj := (List.range 8).map fun i => p.dieMj.getD i 0 + m.dieMj.getD i 0
    hbmMj := p.hbmMj + m.hbmMj
    ioMj := p.ioMj + m.ioMj
    temps := (m.temps ++ List.replicate 26 0).take 26 }

/-! ### DROOP and RAMP (R402) -/

/-- The record of an epoch in which a count advanced; the fraction of cycles lost is not in the counts. -/
def countReason (b : Body) (beat reason die n : Nat) : Body :=
  let d := b.data
  let p := b.pw
  let top := Config.freeNat d.free % 1025
  let r : Reason :=
    { reason := reason, kind := 1, unit := die, events := n, start := p.asOf, stop := beat, maxDepth := top,
      meanDepth := Config.freeNat (d.free + 1) % (top + 1), seq := p.nextR }
  let ring := p.closedR ++ [r]
  { b with data := { d with free := d.free + 2 }, pw := { p with closedR := ring.drop (ring.length - 4096), nextR := p.nextR + 1 } }

def countReasons (b : Body) (beat : Nat) : Body :=
  let b := b.pw.droopN.foldl (fun (b : Body) e => countReason b beat 7 e.1 e.2) b
  let b := b.pw.rampN.foldl (fun (b : Body) e => countReason b beat 8 e.1 e.2) b
  { b with pw := { b.pw with droopN := [], rampN := [] } }

/-! ### Counters (15 R425) -/

/-- A post of a counter, with the beat of the last event it counts. -/
def counterPost (d : Data) (code source beat : Nat) (fields : List (Nat × Nat)) : Data :=
  { d with posts := d.posts ++ [{ code := code, unit := source, fields := fields, beat := some beat }] }

/-- The fields of a counter's record, its count put in (a width of 100 + k is the count, in k bytes). -/
def Tally.filled (t : Tally) : List (Nat × Nat) := t.fields.map fun f => if 100 ≤ f.2 then (t.n, f.2 - 100) else f

/-- The row of a channel with most corrections. -/
def worstRow (d : Data) (ch : Nat) : Nat :=
  ((d.rowErrs.filter fun e => e.1 / 2 ^ 20 == ch).foldl (fun (a : Nat × Nat) e => if a.2 < e.2 % 256 then (e.1 % 2 ^ 20, e.2 % 256) else a) (0, 0)).1

/-- HBM_CORRECTED, CELLAR_ECC of KIND 1 and NEAR_PARITY. -/
def correctedPost (d : Data) (key n beat : Nat) : Data :=
  let u := key % 2 ^ 20
  match key / 2 ^ 20 with
  | 0x0201 => counterPost d 0x0201 (5 + 256 * u) beat [(u, 0), (n, 0), (worstRow d u, 0)]
  | 0x0206 => counterPost d 0x0206 (4 + 256 * unitCode (.slice (u / 56) (u % 56))) beat [(u / 56, 1), (u % 56, 1), (1, 1), (0, 1), (n, 4), (0, 8)]
  | code => counterPost d code (1 + 256 * unitCode (.core u)) beat [(unitCode (.core u), 0), (n, 0)]

def postCounters (b : Body) (beat : Nat) : Body :=
  let d := b.data
  let d := d.corrected.foldl (fun (d : Data) e => correctedPost d e.1 e.2.1 (e.2.2.getD beat)) d
  let d := b.log.tallies.foldl (fun (d : Data) t => counterPost d t.code t.source t.beat t.filled) d
  let d := (b.sj.filter fun e => e.2.lapped != 0).foldl (fun (d : Data) e => counterPost d 0x0902 0 e.2.lapBeat [(e.1, 0), (e.2.lapped, 0)]) d
  { b with
    data := { d with corrected := [] }
    log := { b.log with tallies := [] }
    sj := mmap b.sj fun _ (j : StepJournal) => { j with lapped := 0 }
    fab := { b.fab with links := mmap b.fab.links fun _ (l : LinkSt) => { l with replays := 0 } }
    pw := { b.pw with longestLow := 0 } }

/-! ### Watchdog (10 R319) -/

/-- A LAUNCH, WAIT or SIGNAL entry of a context is executing. -/
def entryRuns (d : Data) (ctx : Nat) : Bool :=
  d.pigeons.any fun p => p.2.ctx == ctx && match p.2.queue.bind fun q => q.entry with
    | some e => between 1 3 (field e.bytes 8 1)
    | none => false

/-- CLAIM of a pigeonhole has reached the STAMP of its slot: there is nothing to take. -/
def nothingToTake (d : Data) (h : Nat) : Bool :=
  match mget d.pigeons h with
  | none => false
  | some p =>
    match d.devRead (d.ctxPlot p.ctx) ((p.ring + 8) % 2 ^ 40) 8 with
    | none => false
    | some l =>
      let claim := leNat l
      match d.devRead (d.ctxPlot p.ctx) (slotAddr p claim % 2 ^ 40) 8 with
      | none => false
      | some x => leNat x == claim

/-- IDLE. -/
def ctxIdle (d : Data) (ctx : Nat) : Bool :=
  !entryRuns d ctx && d.cores.all fun c => c.2.groups.all fun g =>
    ((mget c.2.blocks g.2.block).map fun b => b.ctx) != some ctx || match g.2.st with
      | .await h _ => nothingToTake d h
      | _ => false

/-- Fault records without a disposition. -/
def unresolved (c : Ctx) : Nat := (c.held.filter fun r => !r.notice).length + mcount c.posted fun _ r => !r.notice

/-- One context at an epoch sample. -/
def watchCtx (b : Body) (beat ctx : Nat) (c : Ctx) : Body :=
  let d := b.data
  match d.devRead c.plot (c.progress % 2 ^ 40) 40 with
  | none => { b with data := d.structLost ctx 3 c.progress }
  | some l =>
    let now := (List.range 5).map fun i => field l (8 * i) 8
    let moved := now != c.sample
    let idle := ctxIdle d ctx
    let still := if moved then 0 else c.still + 1
    let last := if moved then beat else c.lastAdvance
    let stalls := !c.stalled && !idle && c.wdEpochs != 0 && decide (c.wdEpochs ≤ still)
    let stalled := (c.stalled && !moved) || stalls
    let c' := { c with sample := now, still := still, lastAdvance := last, stalled := stalled }
    let d := { d with ctxs := mput d.ctxs ctx c' }
    let d := if c.stalled && moved then d.post 0x0804 0 [(ctx, 0)] else d
    let d := d.sWrite ctx 3 (c.progress + 40)
      (natLe 8 last ++ natLe 4 ((if idle then 1 else 0) + if stalled && !idle then 2 else 0) ++ natLe 4 (unresolved c'))
    let d := if stalls then d.post 0x0803 0 [(ctx, 0), (last, 0), (unresolved c', 0)] else d
    { b with data := if stalls && c.wdAction then d.abortCtx ctx else d }

def watchAll (b : Body) (beat : Nat) : Body :=
  if b.data.halted then b else b.data.ctxs.foldl (fun (b : Body) e => watchCtx b beat e.1 e.2) b

/-! ### Sensors (12 R353; R403) -/

/-- HEALTH: 0 normal, 1 degraded, 2 suspect units present, 3 cold stop. -/
def healthCode (b : Body) : Nat :=
  if b.pw.cold ≠ .running then 3
  else if b.hl.suspects.any fun e => e.2.state == 1 || e.2.state == 3 then 2
  else if b.planParts.any (fun l => l != []) then 1
  else 0

/-- THROTTLE: the first reason in the order of R402 that is open, 0 for none. -/
def throttleCode (p : Power) : Nat :=
  ([9, 3, 4, 5, 6, 2, 1, 11, 10, 7, 8].find? fun k => p.openR.any (fun r => r.reason == k) || (k == 7 && p.droop != [])).getD 0

def readSensors (b : Body) (m : EpochMeas) : Body :=
  let t := b.pw.temps
  { b with pw := { b.pw with sensors :=
    [m.inputW, m.inputMv / 1000] ++ t.take 10 ++ [(t.drop 10).foldl max 0, b.pw.cap, healthCode b, throttleCode b.pw] } }

/-! ### Writes that the gate drops (13 R369, R370) -/

def State.setLatch (s : State) (l : Latch) : State := { s with latch := l }

/-- A Postmaster runs: its I/O die is in service and no debugger has halted it. -/
def pmRuns (s : State) (x : Side) : Bool := !s.body.mg.halted.contains x && !s.body.data.dieOut.contains (sideDie x)

def Latch.droppedOf (l : Latch) (x : Side) : Nat :=
  match x with
  | .north => l.nDropped
  | .south => l.sDropped

/-- The gate drops a write of a side (R369). -/
def Latch.drop (l : Latch) (x : Side) : Latch :=
  match x with
  | .north => { l with nDropped := l.nDropped + 1 }
  | .south => { l with sDropped := l.sDropped + 1 }

/-- R370: a Postmaster that finds that it has lost the lease stops acting and resynchronises. -/
def conflict (s : State) (x : Side) : State :=
  let s := s.mg fun m => setPm m x .syncing
  s.post 0x0504 (sideSource x) [(sideNo x, 0), (s.latch.gen.toNat, 0), (s.latch.droppedOf x, 0)]

/-- A side writes the parameters of an epoch though it does not hold the lease, or the latch is at fault: the write is
dropped and counted, and the side stops acting. -/
def dropStale (s : State) (x : Side) : State :=
  if pmOf s.body.mg x == .holder && pmRuns s x && (s.latch.fault || s.latch.holder != some x) then
    let s := s.setLatch (s.latch.drop x)
    let s := s.setBody { s.body with log := s.body.log.tally s.alm.beat 0x0505 (sideSource x) [(sideNo x, 0), (0, 100)] }
    if s.latch.fault then s else conflict s x
  else s

/-! ### The boundary -/

/-- 09 R269: identity records that no peer has acknowledged are sent again, once an epoch. -/
def surveyAgain (s : State) : State :=
  ((s.body.fab.links.filter fun l => l.2.surveyDue && l.2.trained && l.2.training.isNone).map fun l => l.1).foldl sendSurvey s

/-- EPOCH_BOUNDARY: every 1,000 beats. -/
def execEpochBoundary (meas : EpochMeas) (s : State) : Host.Outcome State Fault Refusal :=
  s.run fun s =>
    let beat := s.alm.beat
    if beat / 1000 ≤ s.body.pw.asOf / 1000 then s
    else
      let s := dropStale (dropStale s .north) .south
      if s.latch.fault then s.setPw { s.body.pw with asOf := beat / 1000 * 1000 }
      else if !s.acting || s.body.md.recovery then s
      else
        let b := learnTags (divideCap s.body meas.ioMj meas.lossW)
        let b := { b with pw := chargeEnergy b.pw meas }
        let b := countReasons b beat
        let b := postCounters b beat
        let b := watchAll b beat
        let b := readSensors b meas
        surveyAgain (s.setBody { b with pw := { b.pw with asOf := beat / 1000 * 1000 } })

end Sys2Proof.Machine
end

