-- ==== Sys2Proof/Machine/Graphs.lean ====
section
/-! DEFINITION. Storing and launching graphs, the step journal's letters and replays (10 R304-R306; 13 R496; 16 R441, R444). -/

namespace Sys2Proof.Machine

/-! ### graph.store (10 Tables 5 and 6) -/

/-- A node record. -/
def parseNode (l : List Byte) (succs : List Nat) : GNode :=
  { kind := field l 0 1, array := field l 1 1 % 2 == 1, detached := field l 1 1 / 2 % 2 == 1, fenceOn := field l 1 1 / 4 % 2 == 1,
    traps := BitVec.ofNat 2 (field l 2 1), groups := field l 3 1, regs := field l 4 1, copyDie := field l 5 1, phaseTag := field l 6 2,
    bench := field l 8 4, blocks := field l 12 4, target := BitVec.ofNat 64 (field l 16 8), value := BitVec.ofNat 64 (field l 24 8),
    slip := BitVec.ofNat 64 (field l 32 8), fenceEvent := field l 40 2, fenceValue := BitVec.ofNat 64 (field l 56 8), npred := field l 42 2,
    succs := succs }

/-- A record's fields keep Table 5; `m` is the length of the successor array. -/
def nodeOk (l : List Byte) (m : Nat) : Bool :=
  let k := field l 0 1
  let fl := field l 1 1
  let ker := k == 1
  let t := field l 16 8
  decide (1 ≤ k) && decide (k ≤ 7) && decide (fl < 8) && (ker || fl % 4 == 0) &&
    (if ker then decide (field l 2 1 < 4) else field l 2 1 == 0) &&
    (if ker then decide (1 ≤ field l 3 1) && decide (field l 3 1 ≤ 32) else field l 3 1 == 0) &&
    (if ker then decide (1 ≤ field l 4 1) else field l 4 1 == 0) &&
    (if k = 2 then decide (field l 5 1 < 8) else field l 5 1 == 0) &&
    (if ker then decide (field l 8 4 ≤ 524288) else field l 8 4 == 0) &&
    (if ker then decide (1 ≤ field l 12 4) && decide (field l 12 4 ≤ 16777216) else field l 12 4 == 0) &&
    (match k with
      | 1 => t % 8 == 0
      | 2 => decide (t ≤ 8)
      | 4 | 5 => decide (t < 65536)
      | 6 => decide (t < 4096)
      | _ => t == 0) &&
    (k == 4 || k == 5 || field l 24 8 == 0) && field l 32 8 % 256 == 0 &&
    (fl / 4 % 2 == 1 || (field l 40 2 == 0 && field l 56 8 == 0)) && field l 46 2 == 0 && field l 52 4 == 0 &&
    (if field l 44 2 = 0 then field l 48 4 == 0 else decide (field l 48 4 + field l 44 2 ≤ m))

/-- A Dispatcher of a plot reaches every one of `n` bytes (R305; 08 Table 2). -/
def inCarveOut (d : Data) (plot a n : Nat) : Bool :=
  (List.range n).all fun i => match place d { kind := .dispatcher, plot := plot, forerunner := false, own := none } (a + i) with
    | .ok _ => true
    | .error _ => false

/-- A node offends against R305: its record, successors, predecessors, occupancy, slip or addresses. -/
def nodeBad (d : Data) (plot : Nat) (nodes : List GNode) (recs : List (List Byte)) (m i : Nat) : Bool :=
  match nodes[i]?, recs[i]? with
  | some n, some l =>
    !nodeOk l m || (n.succs.any fun s => decide (s ≤ i) || decide (nodes.length ≤ s)) ||
      (nodes.map fun x => (x.succs.filter fun s => s == i).length).sum != n.npred ||
      (n.kind == 1 && (coreBlocks n == 0 || !inCarveOut d plot n.target.toNat 8)) ||
      ((n.kind == 2 || n.kind == 3) && n.slip == 0) || (n.slip != 0 && !inCarveOut d plot n.slip.toNat 256)
  | _, _ => true

/-- `graph.store`. -/
def effGraphStore (s : State) (l : Letter) (_ : Nat) : State × Res :=
  let d := s.body.data
  let nn := l.arg 4 4
  let image := l.arg 8 8
  let bytes := l.arg 16 4
  let snap := l.arg 24 8
  onCtx s (l.arg 0 2) 0 fun c =>
    match mget d.plots c.plot with
    | none => (s, Res.at_ 0x41 0)
    | some p =>
      if !coversObj d c.plot image bytes then (s, Res.at_ (objStatus d c.plot image bytes) 8)
      else if !coversObj d c.plot snap (512 * nn) then (s, Res.at_ (objStatus d c.plot snap (512 * nn)) 24)
      else if !readable d c.plot image bytes then (s, Res.at_ 0x12 8)
      else
        let img := (d.devRead c.plot (image % 2 ^ 40) bytes).getD []
        let m := (bytes - 64 * nn) / 4
        let arr := (List.range m).map fun i => field img (64 * nn + 4 * i) 4
        let recs := (List.range nn).map fun i => (img.drop (64 * i)).take 64
        let nodes := recs.map fun r => parseNode r ((arr.drop (field r 48 4)).take (field r 44 2))
        let refuse (st : Nat) (i : Nat) : State × Res := (s, { Res.no st with data := natLe 4 i })
        match (List.range nn).find? fun i => nodeBad d c.plot nodes recs m i with
        | some i => refuse 0x49 i
        | none =>
          match (nodes.zipIdx).find? fun n => n.1.kind == 1 && n.1.detached && decide (detachedMax d p n.1 < n.1.blocks) with
          | some n => refuse 0x4A n.2
          | none =>
            if p.graphs ≤ mcount d.graphs fun _ g => d.ctxPlot g.ctx == c.plot then (s, Res.no 0x4B)
            else match freeKey d.graphs 16384, takeSide d p true 0 ((bytes + 65535) / 65536) { used := usedFrames d, subs := [], k := d.free } with
              | none, _ => (s, Res.no 0x4B)
              | _, none => (s, Res.no 0x4D)
              | some g, some (fs, t) =>
                let x : Graph := { ctx := l.arg 0 2, nodes := nodes, snap := snap, hostCount := 1, frames := fs, lastBank := 1, banks := [] }
                (s.setData { d with graphs := mput d.graphs g x, free := t.k }, Res.ok (natLe 2 g))

/-! ### graph.launch (R304, Table 4) -/

/-- `graph.launch`: Polmen is a producer of the ring. -/
def effGraphLaunch (s : State) (l : Letter) (_ : Nat) : State × Res :=
  let d := s.body.data
  let h := l.arg 0 2
  match mget d.pigeons h with
  | none => (s, Res.at_ 0x48 0)
  | some p => match p.queue with
    | none => (s, Res.at_ 0x48 0)
    | some q =>
      if q.hostCount = 0 then (s, Res.at_ 0x11 0)
      else onCtx s p.ctx 0 fun c =>
        if !readable d c.plot p.ring 32 then (s, Res.at_ 0x12 0)
        else
          let r := leNat ((d.devRead c.plot (p.ring % 2 ^ 40) 8).getD [])
          let slot := slotAddr p r
          if !readable d c.plot slot 64 then (s, Res.at_ 0x12 0)
          else if leNat ((d.devRead c.plot (slot % 2 ^ 40) 8).getD []) ≠ r then (s, { Res.no 0x26 with data := natLe 8 0 })
          else
            let d := d.sWrite p.ctx 4 p.ring (natLe 8 (r + 1))
            let d := d.sWrite p.ctx 4 (slot + 8) ((l.args.drop 8 ++ List.replicate 56 0).take 56)
            let d := d.sWrite p.ctx 4 slot (natLe 8 (r + 1))
            (s.setData (d.ringPh h), Res.ok (natLe 8 r))

/-! ### journal.read (16 R441, Table 4) -/

/-- A watch keeps its ranges. -/
def watchOk (l : List Byte) : Bool :=
  field l 4 4 == 0 && field l 8 8 % 4096 == 0 && field l 16 8 % 4096 == 0 && decide (4096 ≤ field l 16 8) && decide (field l 16 8 ≤ 2 ^ 39)

/-- CONFIGURE. -/
def effJournalConfigure (s : State) (l : Letter) (_ : Nat) : State × Res :=
  let d := s.body.data
  let n := l.arg 5 1
  let w := l.arg 16 8
  onCtx s (l.arg 2 2) 2 fun c =>
    if !coversObj d c.plot (l.arg 8 8) (640 * 2 ^ l.arg 1 1) then (s, Res.at_ (objStatus d c.plot (l.arg 8 8) (640 * 2 ^ l.arg 1 1)) 8)
    else if 0 < n ∧ !coversObj d c.plot w (24 * n) then (s, Res.at_ (objStatus d c.plot w (24 * n)) 16)
    else if 0 < n ∧ !readable d c.plot w (24 * n) then (s, Res.at_ 0x12 16)
    else
      let img := (d.devRead c.plot (w % 2 ^ 40) (24 * n)).getD []
      let ws := (List.range n).map fun i => (img.drop (24 * i)).take 24
      if ws.any fun x => !watchOk x then (s, Res.no 0xC3)
      else match ws.find? fun x => !coversObj d c.plot (field x 8 8) (field x 16 8) with
      | some x => (s, Res.at_ (objStatus d c.plot (field x 8 8) (field x 16 8)) 16)
      | none =>
        let j : StepJournal :=
          { k := l.arg 1 1, det := l.arg 4 1 == 1, area := l.arg 8 8, watches := ws.map fun x => (field x 0 4, field x 8 8, field x 16 8),
            seq := 0, lapped := 0, lapBeat := 0, gen := d.nextId }
        (s.setBody { s.body with sj := mput s.body.sj (l.arg 2 2) j, data := { d with nextId := d.nextId + 1 } }, Res.ok [])

/-- The slot and bytes of a step's entry, while the ring still holds it. -/
def findStep (d : Data) (plot : Nat) (j : StepJournal) (seq iter : Nat) : Option (Nat × List Byte) :=
  (List.range (min j.seq (2 ^ j.k))).findSome? fun i =>
    let q := j.seq - 1 - i
    let slot := q % 2 ^ j.k
    match d.devRead plot ((j.area + 640 * slot) % 2 ^ 40) 640 with
    | some e => if field e 0 8 = seq ∧ field e 8 2 = iter ∧ field e 16 8 = q then some (slot, e) else none
    | none => none

/-- An entry that the ring holds and that cannot be read (11 R495). -/
def stepLost (d : Data) (plot : Nat) (j : StepJournal) : Option Nat :=
  ((List.range (min j.seq (2 ^ j.k))).map fun i => j.area + 640 * ((j.seq - 1 - i) % 2 ^ j.k)).find? fun a =>
    (d.devRead plot (a % 2 ^ 40) 640).isNone

/-- A step that was not found: a lost line among the entries searched is told. -/
def stepMissing (d : Data) (ctx plot : Nat) (j : StepJournal) : Data :=
  match stepLost d plot j with
  | some a => d.structLost ctx 8 (d.lostAt ctx a 640)
  | none => d

/-- READ. -/
def effJournalRead (s : State) (l : Letter) (_ : Nat) : State × Res :=
  match mget s.body.data.ctxs (l.arg 2 2) with
  | none => (s, Res.at_ 0x10 2)
  | some c => match mget s.body.sj (l.arg 2 2) with
    | none => (s, Res.at_ 0xC0 2)
    | some j => match findStep s.body.data c.plot j (l.arg 24 8) (l.arg 32 2) with
      | none => (s.setData (stepMissing s.body.data (l.arg 2 2) c.plot j), Res.no 0xC1)
      | some (slot, e) => (s, Res.ok (natLe 4 slot ++ natLe 4 0 ++ e.take 128))

/-- DISABLE. -/
def effJournalDisable (s : State) (l : Letter) (_ : Nat) : State × Res :=
  if (mget s.body.data.ctxs (l.arg 2 2)).isNone then (s, Res.at_ 0x10 2)
  else if (mget s.body.sj (l.arg 2 2)).isNone then (s, Res.at_ 0xC0 2)
  else (s.setBody { s.body with sj := mdel s.body.sj (l.arg 2 2) }, Res.ok [])

/-! ### replay.step (16 R444, Table 6) -/

def effReplay (s : State) (l : Letter) (_ : Nat) : State × Res :=
  let b := s.body
  let d := b.data
  let ctx := l.arg 0 2
  let h := l.arg 2 2
  onCtx s ctx 0 fun c =>
    match mget b.sj ctx with
    | none => (s, Res.at_ 0xC0 0)
    | some j =>
      if ((mget d.pigeons h).map fun p => p.ctx == ctx && p.queue.isSome) ≠ some true then (s, Res.at_ 0x48 2)
      else if !eventOk d ctx (l.arg 16 2) then (s, Res.at_ 0x10 16)
      else if !coversObj d c.plot (l.arg 24 8) 64 then (s, Res.at_ (objStatus d c.plot (l.arg 24 8) 64) 24)
      else match findStep d c.plot j (l.arg 8 8) (l.arg 4 2) with
        | none => (s.setData (stepMissing d ctx c.plot j), Res.no 0xC1)
        | some (_, e) =>
          let g := field e 10 2
          if !graphOk d ctx g then (s, Res.no 0x49)
          else if b.replay.isSome || (d.launches.any fun x => x.2.ctx == ctx) then (s, Res.no 0xC2)
          else
            let (seq, d) := d.nextSeq ctx
            let id := d.nextId
            let x := { Launch.fresh h g ctx seq s.alm.beat (some j.gen) with replay := true }
            let d := { d with nextId := id + 1, launches := mput d.launches id x }
            let r : Replay :=
              { launch := id, ctx := ctx, origSeq := l.arg 8 8, origIter := l.arg 4 2, orig := e, exclude := l.arg 6 1 == 1,
                event := l.arg 16 2, result := l.arg 24 8 }
            let d := if mayDispatch d ctx then d.beginIter id s.alm.beat else d
            (s.setBody { b with data := d, replay := some r }, Res.ok (natLe 8 seq))

def execGraphStore (s : State) := letterRow s (fun l => l.op == 0x0307) effGraphStore
def execGraphLaunch (s : State) := letterRow s (fun l => l.op == 0x0308) effGraphLaunch
def execJournalConfigure (s : State) := letterRow s (fun l => l.op == 0x0B01 && l.arg 0 1 == 1) effJournalConfigure
def execJournalRead (s : State) := letterRow s (fun l => l.op == 0x0B01 && l.arg 0 1 == 2) effJournalRead
def execJournalDisable (s : State) := letterRow s (fun l => l.op == 0x0B01 && l.arg 0 1 == 3) effJournalDisable
def execReplayStep (s : State) := letterRow s (fun l => l.op == 0x0B02) effReplay

end Sys2Proof.Machine
end

