-- ==== Sys2Proof/Machine/Routes.lean ====
section
/-! DEFINITION. The fabric's letters, and what route switches, grafts and prunes do at their beats
(09 R268-R270, R282-R287). -/

namespace Sys2Proof.Machine

/-! ### fabric.survey (Table 5) -/

def Verdict.code : Verdict → Nat
  | .noPeer => 0 | .ok => 1 | .degraded => 2 | .miscabled => 3 | .duplicate => 4

/-- One port's 24 bytes of the QUERY reply. -/
def portEntry (f : Fabric) (k : Nat) : List Byte :=
  let l := f.link k
  natLe 1 k ++ natLe 1 l.verdict.code ++ natLe 1 (laneCount l.lanes) ++ natLe 1 0 ++ natLe 2 l.peerNode ++ natLe 1 l.peerPos ++
    natLe 1 l.peerPort ++ natLe 8 l.peerSerial ++ natLe 4 l.delayNs ++ natLe 4 l.events

/-- QUERY: NODE as in the identity record, then up to eight ports. -/
def effSurveyQuery (s : State) (l : Letter) (_ : Nat) : State × Res :=
  let f := s.body.fab
  let first := l.arg 1 1
  (s, Res.ok (natLe 2 (s.body.data.node + if f.block.isSome then 2 ^ 15 else 0) ++ List.replicate 6 0 ++
    ((List.range (18 - first)).take 8).flatMap fun i => portEntry f (first + i)))

/-- SET_BLOCK: the block number, and with it the node number. -/
def effSetBlock (s : State) (l : Letter) (_ : Nat) : State × Res :=
  let n := l.arg 2 1
  let b := s.body
  if b.fab.block = some n then (s, Res.ok [])
  else if b.data.plots ≠ [] then (s, Res.no 0x30)
  else (s.setBody { b with fab := { b.fab with block := some n }, data := { b.data with node := n * 16 + b.md.slotId % 16 } }, Res.ok [])

/-- RESURVEY of a port, or of all. -/
def effResurvey (s : State) (l : Letter) (_ : Nat) : State × Res :=
  let p := l.arg 3 1
  let ks := (List.range 18).filter fun k => (p == 255 || p == k) && (s.body.fab.link k).trained
  (ks.foldl sendSurvey s, Res.ok [])

/-! ### fabric.routes (R282, R285) -/

/-- The inactive bank. -/
def Fabric.spare (f : Fabric) : SMap (BitVec 64) := f.bank (!f.active)

def Fabric.setSpare (f : Fabric) (m : SMap (BitVec 64)) : Fabric := if f.active then { f with bank0 := m } else { f with bank1 := m }

/-- CRC of a bank, in node order. -/
def bankCrc (m : SMap (BitVec 64)) : Nat := crc32 ((List.range 4096).flatMap fun n => natLe 8 (mgetD m n 0).toNat)

/-- A switch is pending. -/
def switchBeats (m : Mgmt) : List Nat := (m.schedule.filter fun e => match e.kind with
  | .routes _ => true
  | _ => false).map fun e => e.beat

/-- A stage must wait (R285). -/
def bankBusy (s : State) : Bool :=
  switchBeats s.body.mg != [] || match s.body.fab.lastSwitch with
    | some t => decide (s.alm.beat < t + 10000)
    | none => false

/-- A port number of a route: one whose link is not MISCABLED, or 31. -/
def routePort (f : Fabric) (k : Nat) : Bool := k == 31 || (decide (k < 18) && (f.link k).verdict != .miscabled)

/-- An entry is good for a node. -/
def entryOk (b : Body) (node : Nat) (e : BitVec 64) : Bool :=
  let c := rtClass e
  (if node = b.data.node then c == 3 else c != 3) && (c != 1 || node / 16 == b.data.node / 16) &&
    (c == 0 || c == 3 || (routePort b.fab (rtPort0 e) && routePort b.fab (rtPort1 e) && routePort b.fab (rtAlt0 e) && routePort b.fab (rtAlt1 e)))

def stageReply (s : State) : State × Res :=
  let f := s.body.fab
  (s, Res.ok (natLe 4 (bankCrc f.spare) ++ natLe 1 (if f.active then 0 else 1)))

/-- WRITE. -/
def effStage (s : State) (l : Letter) (_ : Nat) : State × Res :=
  let n := l.arg 1 1
  let first := l.arg 2 2
  let es := (List.range n).map fun i => (first + i, BitVec.ofNat 64 (l.arg (8 + 8 * i) 8), 8 + 8 * i)
  if bankBusy s then (s, Res.no 0x33)
  else match es.find? fun e => decide (2 ^ 22 ≤ e.2.1.toNat) with
    | some e => (s, Res.at_ 8 e.2.2)
    | none => match es.find? fun e => !entryOk s.body e.1 e.2.1 with
      | some e => (s, Res.at_ 0x31 e.2.2)
      | none =>
        let f := s.body.fab
        stageReply (s.setBody { s.body with fab := f.setSpare (es.foldl (fun (m : SMap (BitVec 64)) e => cput 0 m e.1 e.2.1) f.spare) })

/-- An entry of Table 9. -/
def mkRoute (c p0 p1 a0 a1 : Nat) : BitVec 64 := BitVec.ofNat 64 (c + 4 * p0 + 2 ^ 7 * p1 + 2 ^ 12 * a0 + 2 ^ 17 * a1)

/-- The entry that DEFAULT_BLOCK gives a node. A port found MISCABLED, which no route may name (R270), is left out. -/
def defaultRoute (b : Body) (node : Nat) : BitVec 64 :=
  let own := b.data.node
  let ok (k : Nat) : Nat := if routePort b.fab k then k else 31
  if node = own then mkRoute 3 31 31 31 31
  else match directPort b node with
    | none => 0
    | some k =>
      if node = own ^^^ 1 then mkRoute 1 (ok k) (ok 15) 31 31
      else mkRoute 1 (ok k) 31 (ok 15) (ok ((directPort b (own ^^^ 1)).getD 31))

/-- DEFAULT_BLOCK. -/
def effDefaultBlock (s : State) (_l : Letter) (_ : Nat) : State × Res :=
  if bankBusy s then (s, Res.no 0x33)
  else
    let b := s.body
    let base := b.data.node / 16 * 16
    stageReply (s.setBody { b with fab := b.fab.setSpare ((List.range 16).map fun i => (base + i, defaultRoute b (base + i))) })

/-- `fabric.routes.switch`. -/
def effSwitch (s : State) (l : Letter) (_ : Nat) : State × Res :=
  let n := l.arg 0 8
  let crc := l.arg 8 4
  let f := s.body.fab
  match beatRefuses s n 0 with
  | some r => (s, r)
  | none =>
    if crc ≠ bankCrc f.spare then (s, Res.at_ 0x34 8)
    else if (f.lastSwitch.toList ++ switchBeats s.body.mg).any fun t => decide (n < t + 10000) then (s, Res.at_ 0x32 0)
    else schedule s l n 0 (.routes crc)

/-! ### Graft and prune (R286, R287) -/

def nodeList (l : Letter) : List Nat := (List.range (l.arg 10 1)).map fun i => l.arg (16 + 2 * i) 2

/-- The plot that holds a tag. -/
def plotOfTag (d : Data) (tag : Nat) : Option Nat := if tag = 0 then none else (d.plots.find? fun p => p.2.tag == tag).map fun p => p.1

def effGraft (s : State) (l : Letter) (_ : Nat) : State × Res :=
  if (plotOfTag s.body.data (l.arg 8 2)).isNone then (s, Res.at_ 0x35 8)
  else schedule s l (l.arg 0 8) 0 (.graft (l.arg 8 2) (nodeList l))

def effPrune (s : State) (l : Letter) (_ : Nat) : State × Res :=
  if (plotOfTag s.body.data (l.arg 8 2)).isNone then (s, Res.at_ 0x35 8)
  else schedule s l (l.arg 0 8) 0 (.prune (l.arg 8 2) (nodeList l))

/-! ### At the beat -/

/-- A switch of the banks moves a node's agents with odd indices from one connection class to the other (R274). -/
def reclassed (f g : Fabric) (node : Nat) : Bool := (rtPort1 (f.route f.active node) == 31) != (rtPort1 (g.route g.active node) == 31)

/-- The two connections of a node whose agents change class: both hold, and what they held is shared out anew. -/
def reclass (g : Fabric) (node : Nat) : Fabric :=
  let e := g.route g.active node
  let c0 := g.conn (connKey node 0)
  let c1 := g.conn (connKey node 1)
  let hs := c0.held ++ c1.held
  let of (n : Nat) : List Packet := hs.filter fun p => connClass e p.agent == n
  (g.setConn (connKey node 0) { c0 with hold := true, held := of 0 }).setConn (connKey node 1) { c1 with hold := true, held := of 1 }

/-- The staged bank becomes active. A connection whose path changes holds until its old packets are acknowledged (R284), and so do both
connections of a node whose agents change class (R279). -/
def doSwitch (s : State) (beat : Nat) : State :=
  let b := s.body
  let f := b.fab
  let crc := bankCrc f.spare
  let g := { f with active := !f.active, lastSwitch := some beat }
  let turned (k : Nat) : Bool := f.portOf k != g.portFor g.active k
  let g := { g with conns := mmap g.conns fun k (c : Conn) =>
    { c with hold := c.hold || turned k, moved := g.movedTo k (g.portFor g.active k) } }
  let g := (((f.conns.map fun e => e.1 / 2).eraseDups).filter fun n => reclassed f g n).foldl reclass g
  let b := (g.conns.filter fun e => e.2.hold).foldl (fun (b : Body) e => b.unhold beat e.1) { b with fab := g }
  s.setBody (b.post 0x0306 0 [(beat, 0), (if f.active then 0 else 1, 0), (crc, 0)])

def nodesFields (l : List Nat) : List (Nat × Nat) := l.map fun n => (n, 0)

/-- The nodes join the member set. Status of the execution. -/
def doGraft (s : State) (beat tag : Nat) (nodes : List Nat) : State × Nat :=
  let d := s.body.data
  match plotOfTag d tag with
  | none => (s, 0x35)
  | some n =>
    let d := { d with plots := mmod d.plots n fun (p : Plot) =>
      { p with mem := nodes.foldl sadd p.mem, pruned := p.pruned.filter fun x => !nodes.contains x } }
    ((s.setData d).post 0x0308 0 ([(beat, 0), (tag, 0)] ++ nodesFields nodes), 0)

/-- A relay's run names a node that is gone, as its other end or as a member. -/
def runNames (d : Data) (gone : List Nat) (n : Nat) (r : EngRun) : Bool :=
  let e := r.desc
  if e.f 0 1 < 4 then gone.contains (e.f 16 8 / 2 ^ 40 % 4096) || (e.f 0 1 != 3 && gone.contains (e.f 8 8 / 2 ^ 40 % 4096))
  else match readSet d n r with
    | .ok s => s.1.any fun x => gone.contains x
    | .error _ => false

/-- A run ends with a status: what it sent to other packages is answered with that, its requests to homes of this package go on. -/
def EngRun.cut (d : Data) (status : Nat) (r : EngRun) : EngRun :=
  let live := r.outs.filter fun o => d.reqs.any fun q => q.id == o.1
  let open_ := r.outs.filter fun o => !live.contains o && decide (rowKey 0 ≤ o.2) && decide (o.2 < 2 ^ 66)
  { r with
    outs := live
    got := r.got ++ open_.map fun o => (o.2, status, [])
    status := if r.status = 0 then status else r.status
    firstBad := if r.status = 0 then r.done else r.firstBad
    phase := 1 }

/-- End what a plot has under way towards nodes that are gone; how many operations ended: line requests, and relay descriptors. -/
def endTowards (b : Body) (beat plot : Nat) (gone : List Nat) : Body × Nat :=
  let d := b.data
  let hit (r : LineReq) : Bool := r.rem.isNone && r.plot == plot && (match r.tgt with
    | .remote n => gone.contains n
    | _ => false) && (r.stage == .waiting || r.stage == .attached)
  let ops := (d.reqs.filter hit).length
  let d := { d with
    reqs := d.reqs.map fun (r : LineReq) => if hit r then { r with stage := .failed .nodeGone } else r
    fills := d.fills.filter fun f => !((f.remote.map fun n => gone.contains n).getD false && f.plot == plot) }
  let tag := d.tagOf plot
  let ps := (b.fab.conns.filter fun e => gone.contains (e.1 / 2)).flatMap fun e =>
    ((e.2.unacked ++ e.2.answers).map (fun x => x.pkt) ++ e.2.held).filter fun p => p.tag == tag
  let relays := d.engines.flatMap fun e => if 128 ≤ e.1 then
    ((e.2.running.filter fun r => r.desc.plot == plot && r.phase != 2 && runNames d gone e.1 r).map fun r => (e.1, r)) else []
  let d := relays.foldl (fun (d : Data) x => d.setRun x.1 (x.2.cut d 3)) d
  let d := ps.foldl (fun (d : Data) p => d.lost_ .nodeGone p) d
  (pump (answerAll { b with data := d } beat) beat, ops + relays.length)

/-- The nodes leave the member set; operations towards them end with NODE_GONE. A package that prunes itself has no member but
itself. -/
def doPrune (s : State) (beat tag : Nat) (nodes : List Nat) : State × Nat :=
  let d := s.body.data
  match plotOfTag d tag with
  | none => (s, 0x35)
  | some n =>
    let own := d.node
    let all := if nodes.contains own then (((mget d.plots n).map fun p => p.mem).getD []) ++ nodes else nodes
    let gone := (all.filter fun x => x != own).eraseDups
    let d := { d with plots := mmod d.plots n fun (p : Plot) =>
      { p with mem := if nodes.contains own then [own] else p.mem.filter fun x => !nodes.contains x, pruned := gone.foldl sadd p.pruned } }
    let (b, k) := endTowards { s.body with data := d } beat n gone
    ((s.setBody b).post 0x0309 0 ([(beat, 0), (tag, 0)] ++ nodesFields nodes ++ [(k, 0)]), 0)

def execFabricSurveyQuery (s : State) := letterRow s (fun l => l.op == 0x0901 && l.arg 0 1 == 1) effSurveyQuery
def execFabricSurveySetBlock (s : State) := letterRow s (fun l => l.op == 0x0901 && l.arg 0 1 == 2) effSetBlock
def execFabricSurveyResurvey (s : State) := letterRow s (fun l => l.op == 0x0901 && l.arg 0 1 == 3) effResurvey
def execRoutesStageWrite (s : State) := letterRow s (fun l => l.op == 0x0902 && l.arg 0 1 == 1) effStage
def execRoutesStageDefaultBlock (s : State) := letterRow s (fun l => l.op == 0x0902 && l.arg 0 1 == 2) effDefaultBlock
def execFabricRoutesSwitch (s : State) := letterRow s (fun l => l.op == 0x0903) effSwitch
def execFabricGraft (s : State) := letterRow s (fun l => l.op == 0x0904) effGraft
def execFabricPrune (s : State) := letterRow s (fun l => l.op == 0x0905) effPrune

end Sys2Proof.Machine
end

