-- ==== Sys2Proof/Machine/Schedule.lean ====
section
/-! DEFINITION. The schedule at its beats: budgets, prunes, route switches, grafts, wrapped letters and samples
(02 R53-R60; 13 R367, R373). -/

namespace Sys2Proof.Machine

/-! ### Which entry is next (02 R55) -/

/-- Place of a kind among the actions of one beat. -/
def SKind.rank (k : SKind) : Nat :=
  match k with
  | .budget .. => 1
  | .prune .. => 2
  | .routes _ => 3
  | .graft .. => 4
  | .wrapped => 6
  | .sample _ => 9

/-- The hardware applies it without a Postmaster step (02 R54; 14 R400). -/
def SKind.armed (k : SKind) : Bool :=
  match k with
  | .budget .. | .routes _ => true
  | _ => false

/-- An entry can run now: hardware-armed ones but in LATCH_FAULT, the others when the lease holder acts (13 R370). Wrapped
letters and samples come after the passes that begin at their beat (02 R55). -/
def canFire (s : State) (e : SEntry) : Bool :=
  decide (e.beat ≤ s.alm.beat) && (if e.kind.armed then !s.latch.fault else s.acting) &&
    (decide (e.kind.rank < 5) || !passDueBy s e.beat)

/-- Entry `a` runs before `b`: by scheduled beat, kind, and order of acceptance. -/
def fireBefore (a b : SEntry) : Bool := lexLt [a.beat, a.kind.rank, a.order] [b.beat, b.kind.rank, b.order]

/-- The entry that runs next. -/
def nextEntry (s : State) : Option SEntry :=
  (s.body.mg.schedule.filter fun e => canFire s e).foldl (fun (b : Option SEntry) e =>
    match b with
    | none => some e
    | some x => if fireBefore e x then some e else some x) none

/-! ### Wrapped letters (02 R60) -/

/-- The letter that an ADD wraps, with the port stamp of the ADD. -/
def innerLetter (l : Letter) : Letter :=
  { l with bytes := natLe 2 (l.arg 16 2) ++ natLe 2 0 ++ natLe 2 (l.arg 18 2) ++ (l.bytes.drop 6).take 26 ++ (l.args.drop 32).take (l.arg 18 2) }

/-- What COMMIT finds in an image or a pack that no command brings: free values. -/
def freeImage (n : Nat) : ImageVerdict :=
  { signed := Config.freeBool n, version := Config.freeNat n, sameJournal := Config.freeBool (n + 1) }

def freePack (n : Nat) : PackVerdict :=
  { signed := Config.freeBool n, version := Config.freeNat n, member := Config.freeBool (n + 1)
    sweepKinds := [1, 2, 3, 4].filter fun k => Config.freeBool (n + 1 + k), sweepBeats := Config.freeNat (n + 1) }

/-- Draw `k` free values. -/
def State.drawn (s : State) (k : Nat) : State := { s with body := { s.body with data := { s.body.data with free := s.body.data.free + k } } }

/-- A wrapped `fabric.routes.switch` takes effect at the beat of its entry; the staged bank must still be the one it names, and
the last switch 10,000 beats old. -/
def effSwitchNow (s : State) (l : Letter) (_ : Nat) : State × Res :=
  let f := s.body.fab
  if l.arg 8 4 ≠ bankCrc f.spare then (s, Res.at_ 0x34 8)
  else if f.lastSwitch.toList.any fun t => decide (s.alm.beat < t + 10000) then (s, Res.at_ 0x32 0)
  else (doSwitch s s.alm.beat, Res.ok (natLe 4 0))

/-- Wrapped `fabric.graft` and `fabric.prune`, likewise. -/
def effGraftNow (s : State) (l : Letter) (_ : Nat) : State × Res :=
  if (plotOfTag s.body.data (l.arg 8 2)).isNone then (s, Res.at_ 0x35 8)
  else ((doGraft s s.alm.beat (l.arg 8 2) (nodeList l)).1, Res.ok (natLe 4 0))

def effPruneNow (s : State) (l : Letter) (_ : Nat) : State × Res :=
  if (plotOfTag s.body.data (l.arg 8 2)).isNone then (s, Res.at_ 0x35 8)
  else ((doPrune s s.alm.beat (l.arg 8 2) (nodeList l)).1, Res.ok (natLe 4 0))

/-- A budget or a sample with beat 0 takes effect at the beat of its entry. -/
def effBudgetNow (s : State) (l : Letter) (_ : Nat) : State × Res :=
  let s := accepted (newBudget s (l.arg 0 2) s.alm.beat (l.arg 4 4))
  (s.setPw (applyCap s.body.pw s.body.flash.cap s.alm.beat), Res.ok (natLe 4 0))

def effSampleNow (meas : List Nat) (s : State) (l : Letter) (_ : Nat) : State × Res := (takeSample s (l.arg 1 1) meas, Res.ok (natLe 4 0))

/-- The effect of a letter on the power, health, log, firmware and Almanac areas. -/
def effDevice (s : State) (l : Letter) (jid : Nat) : State × Res :=
  let n := s.body.data.free
  match l.op, l.arg 0 1 with
  | 0x0101, _ => effIdentify s l jid
  | 0x0102, _ => effFloorplan s l jid
  | 0x0103, _ => effGrade s l jid
  | 0x0104, 1 => effLeaseQuery s l jid
  | 0x0104, _ => effHandover s l jid
  | 0x0401, _ => effBudgetNow s l jid
  | 0x0402, _ => effCap s l jid
  | 0x0403, 1 => effReasonsCurrent s l jid
  | 0x0403, _ => effReasonsHistory s l jid
  | 0x0404, 1 => effEnergyContexts s l jid
  | 0x0404, 2 => effSampleNow [] s l jid
  | 0x0404, _ => effEnergyRead s l jid
  | 0x0501, 1 => effCalSet s l jid
  | 0x0501, 2 => effCalQuery s l jid
  | 0x0501, _ => effTestNow s l jid
  | 0x0502, 1 => effPackBegin s l jid
  | 0x0502, 2 => effPackData s l jid
  | 0x0502, 3 => effPackCommit (freePack n) (s.drawn 6) l jid
  | 0x0502, 4 => effPackAbort s l jid
  | 0x0502, _ => effPackQuery s l jid
  | 0x0503, _ => effSuspects s l jid
  | 0x0601, _ => effLogRead s l jid
  | 0x0602, _ => effLogClear s l jid
  | 0x0701, 1 => effFwBegin s l jid
  | 0x0701, 2 => effFwData s l jid
  | 0x0701, 3 => effFwCommit (freeImage n) (s.drawn 2) l jid
  | 0x0701, _ => effFwAbort s l jid
  | 0x0702, _ => if l.arg 1 1 = 1 then effActivateLive (Config.freeBool n) (s.drawn 1) l jid else effActivateReset s l jid
  | 0x0801, _ => effColdResume s l jid
  | 0x0A01, 0 => effRootFollow s l jid
  | 0x0A01, 1 => effRootInternal s l jid
  | 0x0A01, _ => effRootPps s l jid
  | 0x0A02, _ => effStatus s l jid
  | 0x0E01, 1 => effChallenge s l jid
  | 0x0E01, 2 => effPresent (Config.freeBool n) (s.drawn 1) l jid
  | 0x0E01, _ => effDbLock s l jid
  | _, _ => (s, Res.at_ 9 0)

/-- The effect of any letter but an `almanac.schedule`. -/
def effAny (s : State) (l : Letter) (jid : Nat) : State × Res :=
  match l.op, l.arg 0 1 with
  | 0x0201, _ => effPlotCreate s l jid
  | 0x0202, _ => effPlotDestroy s l jid
  | 0x0203, _ => if l.arg 1 1 = 1 then effDrain s l jid else if l.arg 1 1 = 2 then effDrainRelease s l jid else effDrainQuery s l jid
  | 0x0301, _ => effCtxCreate s l jid
  | 0x0302, _ => effCtxRelease s l jid
  | 0x0303, _ => if l.arg 1 1 = 1 then effMemCreate s l jid else effMemCreateHw s l jid
  | 0x0304, _ => effMemRelease s l jid
  | 0x0305, _ => effQueueCreate s l jid
  | 0x0306, _ => effEventCreate s l jid
  | 0x0307, _ => effGraphStore s l jid
  | 0x0308, _ => effGraphLaunch s l jid
  | 0x0309, _ => effPigeonholeCreate s l jid
  | 0x030A, _ => effMemInvalidate s l jid
  | 0x030B, _ => effObjRetain s l jid
  | 0x030C, _ => effObjRelease s l jid
  | 0x0901, 1 => effSurveyQuery s l jid
  | 0x0901, 2 => effSetBlock s l jid
  | 0x0901, _ => effResurvey s l jid
  | 0x0902, 1 => effStage s l jid
  | 0x0902, _ => effDefaultBlock s l jid
  | 0x0903, _ => effSwitchNow s l jid
  | 0x0904, _ => effGraftNow s l jid
  | 0x0905, _ => effPruneNow s l jid
  | 0x0B01, 1 => effJournalConfigure s l jid
  | 0x0B01, 2 => effJournalRead s l jid
  | 0x0B01, _ => effJournalDisable s l jid
  | 0x0B02, _ => effReplay s l jid
  | _, _ => effDevice s l jid

/-- The VF that added an entry is still bound. -/
def stillBound (s : State) (l : Letter) : Bool :=
  match l.fn with
  | some f => s.bound f
  | none => true

/-- Execute a wrapped letter: binding, port class, ownership and device state are checked again. Its outcome status. -/
def runWrapped (s : State) (l : Letter) : State × Nat :=
  let i := innerLetter l
  if !stillBound s l then (s, 5)
  else if !portOk i.stamp i.op i.args then (logDenied s i 6, 6)
  else if !ownerOk s.body.data i.stamp i.op i.args then (logDenied s i 7, 7)
  else match stateRefuses s i.op i.args with
    | some st => (s, st)
    | none =>
      let jid := s.body.mg.nextJid
      let (s, r) := effAny (s.mg fun m => { m with nextJid := m.nextJid + 1 }) i jid
      (s, r.status)

/-! ### At the beat -/

/-- The action of an entry, and its outcome status. -/
def act (s : State) (e : SEntry) (meas : List Nat) : State × Nat :=
  match e.kind with
  | .budget w dur =>
    let s := addBudget s w e.beat dur e.order
    (s.setPw (applyCap s.body.pw s.body.flash.cap s.alm.beat), 0)
  | .prune tag nodes => doPrune s e.beat tag nodes
  | .routes _ => (doSwitch s e.beat, 0)
  | .graft tag nodes => doGraft s e.beat tag nodes
  | .wrapped => runWrapped s e.letter
  | .sample slot => (takeSample s slot meas, 0)

/-- Run an entry: it leaves the schedule, acts, and posts LETTER_EXECUTED; one that runs after its beat is LATE. -/
def fire (s : State) (e : SEntry) (meas : List Nat) : State :=
  let late := e.late || decide (e.beat < s.alm.beat)
  let s := s.mg fun m => Mgmt.retire { m with schedule := m.schedule.filter fun x => x.order != e.order }
  let s := if late then s.setAlm { s.alm with lateSeen := true } else s
  let (s, st) := act s e meas
  if e.ticket = 0 then s else letterExecuted s { e with late := late } st

/-- Run the entry with a ticket if it is next and its kind is one of those meant. -/
def fireIf (s : State) (ticket : Nat) (meas : List Nat) (kind : SKind → Bool) : Host.Outcome State Fault Refusal :=
  s.run fun s =>
    match nextEntry s with
    | some e => if e.ticket = ticket ∧ kind e.kind then fire s e meas else s
    | none => s

/-- SCHEDULE_ENTRY_FIRE. -/
def execScheduleEntryFire (ticket : Nat) (meas : List Nat) (s : State) : Host.Outcome State Fault Refusal :=
  fireIf s ticket meas fun _ => true

/-- BUDGET_TAKES_EFFECT (14 R384). -/
def execBudgetTakesEffect (ticket : Nat) (s : State) : Host.Outcome State Fault Refusal :=
  fireIf s ticket [] fun k => match k with
    | .budget .. => true
    | _ => false

/-- ROUTES_SWITCH_AT_BEAT (09 R284). -/
def execRoutesSwitchAtBeat (ticket : Nat) (s : State) : Host.Outcome State Fault Refusal :=
  fireIf s ticket [] fun k => match k with
    | .routes _ => true
    | _ => false

/-- GRAFT_AT_BEAT (09 R286). -/
def execGraftAtBeat (ticket : Nat) (s : State) : Host.Outcome State Fault Refusal :=
  fireIf s ticket [] fun k => match k with
    | .graft .. => true
    | _ => false

/-- PRUNE_AT_BEAT (09 R287). -/
def execPruneAtBeat (ticket : Nat) (s : State) : Host.Outcome State Fault Refusal :=
  fireIf s ticket [] fun k => match k with
    | .prune .. => true
    | _ => false

/-- TELEMETRY_SAMPLE (14 R405). -/
def execTelemetrySample (ticket : Nat) (meas : List Nat) (s : State) : Host.Outcome State Fault Refusal :=
  fireIf s ticket meas fun k => match k with
    | .sample _ => true
    | _ => false

/-- WRAPPED_LETTER_AT_BEAT (02 R60). -/
def execWrappedLetterAtBeat (ticket : Nat) (s : State) : Host.Outcome State Fault Refusal :=
  fireIf s ticket [] fun k => k == .wrapped

end Sys2Proof.Machine
end

