-- ==== Sys2Proof/Machine/Lease.lean ====
section
/-! DEFINITION. The lease latch, takeovers, handovers and the Postmasters' states (12 R355; 13 R368-R374, R381). -/

namespace Sys2Proof.Machine

/-! ### The latch (R368) -/

/-- HOLDER becomes NONE when REMAINING has reached 0. -/
def Latch.expire (l : Latch) : Latch := if l.remaining = 0 then { l with holder := none } else l

/-- A grant. -/
def Latch.grant (l : Latch) (x : Side) : Latch :=
  { l with holder := some x, last := some x, gen := l.gen + 1, remaining := 50000 }

/-- Who wins when the sides in `n` and `t` claim while HOLDER is NONE: of two, the side that is not LAST_HOLDER; North at
first. -/
def Latch.winner (l : Latch) (n t : Bool) : Option Side :=
  match n, t with
  | true, true => if l.last = some .north then some .south else some .north
  | true, false => some .north
  | false, true => some .south
  | false, false => none

/-- A Postmaster claims: at step 3 of bring-up, and whenever it is STANDBY_READY (17 Table 1; R368). -/
def mayClaim (s : State) (x : Side) : Bool :=
  pmRuns s x && (pmOf s.body.mg x == .standbyReady || (pmOf s.body.mg x == .booting && s.body.md.state == 1))

/-- Journaled letters without a reply. -/
def openEntries (m : Mgmt) : List JEntry := m.journal.filter fun e => e.reply.isNone

/-- The reply of a letter that asked for the lease to move. -/
def movedReply (s : State) (e : JEntry) : Option Res :=
  if e.letter.op = 0x0104 then some (Res.ok (leaseBytes s))
  else if e.letter.op = 0x0702 then some (Res.ok (natLe 1 (boolNat s.body.flash.polmen.active)))
  else none

/-- Answer the letters that waited for the lease to move (R374). -/
def answerMoved (s : State) : State :=
  (openEntries s.body.mg).foldl (fun (s : State) e => match movedReply s e with
    | some r => reply s e.jid r
    | none => s) s

/-- A side that is granted the lease: at bring-up, in a handover, or to take over. -/
def granted (s : State) (x : Side) : State :=
  let m := s.body.mg
  let y := otherSide x
  let first := pmOf m x == .booting
  let hand := m.handover
  let s := s.setLatch (s.latch.grant x)
  let s := s.mg fun m =>
    let m := setPm m x .holder
    if pmOf m y == .booting then setPm m y .syncing else m
  if first then s.mg fun m => { m with lastRenewal := s.alm.beat }
  else if hand ≠ 0 then
    let s := s.mg fun m => { m with handover := 0, lastRenewal := s.alm.beat }
    let s := s.post 0x0503 (sideSource x) [(s.latch.gen.toNat, 0), (hand, 0)]
    let s := answerMoved s
    drainBad s.body.mg.accept.length s
  else s.mg fun m => { m with takeDue := true }

/-- LEASE_CLAIM: the sides that claim in one CK_AON cycle. -/
def execLeaseClaim (north south : Bool) (s : State) : Host.Outcome State Fault Refusal :=
  s.run fun s =>
    if s.latch.fault || s.latch.holder.isSome then s
    else match s.latch.winner (north && mayClaim s .north) (south && mayClaim s .south) with
      | some x => granted s x
      | none => s

/-- LEASE_RENEW: by the holder; a side that only believes it holds the lease is refused. -/
def execLeaseRenew (side : Side) (s : State) : Host.Outcome State Fault Refusal :=
  s.run fun s =>
    if s.latch.fault || pmOf s.body.mg side != .holder || !pmRuns s side then s
    else
      let s := s.setLatch s.latch.expire
      if s.latch.holder = some side then
        let s := s.setLatch { s.latch with remaining := 50000 }
        if s.body.mg.takeDue then s else s.mg fun m => { m with lastRenewal := s.alm.beat }
      else conflict s side

/-- LEASE_RELEASE: HOLDER becomes NONE at once; the side becomes a standby again (R374). -/
def execLeaseRelease (side : Side) (s : State) : Host.Outcome State Fault Refusal :=
  s.run fun s =>
    if !s.latch.fault && s.latch.holder == some side && pmRuns s side then
      (s.setLatch { s.latch with holder := none, remaining := 0 }).mg fun m => { setPm m side .syncing with takeDue := false }
    else s

/-- LEASE_EXPIRY: REMAINING has reached 0. A handover that had not released the lease is void. -/
def execLeaseExpiry (s : State) : Host.Outcome State Fault Refusal :=
  s.run fun s =>
    if !s.latch.fault && s.latch.holder.isSome && s.latch.remaining == 0 then
      (s.setLatch s.latch.expire).mg fun m => { m with handover := 0, takeDue := false }
    else s

/-- LATCH_COPY_MISMATCH (R370). -/
def execLatchCopyMismatch (s : State) : Host.Outcome State Fault Refusal :=
  s.run fun s =>
    if s.latch.fault || !s.body.md.p3v3 then s
    else (s.setLatch { s.latch with fault := true }).post 0x0508 0 [(s.alm.beat, 0), (s.latch.gen.toNat, 0)]

/-! ### Takeover (R373) -/

/-- Steps 2 and 3: letters under way are resumed, unjournaled ones get RETRY. How many of each. -/
def takeLetters (s : State) : State × Nat × Nat :=
  let es := openEntries s.body.mg
  let s := s.mg fun m => { m with journal := m.journal.map fun (e : JEntry) => if e.reply.isNone then { e with reexec := true } else e }
  let s := answerMoved s
  let ls := s.body.mg.accept
  let s := ls.foldl (fun (s : State) l => deliver s l (plain l 1 0xFFFF) false) (s.mg fun m => { m with accept := [] })
  (s, es.length, ls.length)

/-- Step 4: entries whose beat passed during the gap, in the order of 02 R55. -/
def takeEntries : Nat → State → State
  | 0, s => s
  | n + 1, s => match nextEntry s with
    | some e => if e.beat < s.alm.beat then takeEntries n (fire s e []) else s
    | none => s

/-- TAKEOVER: the side that was granted the lease. -/
def execTakeover (s : State) : Host.Outcome State Fault Refusal :=
  s.run fun s =>
    match s.latch.holder with
    | some x =>
      if s.body.mg.takeDue && !s.latch.fault && pmOf s.body.mg x == .holder && pmRuns s x then
        let (s, n, k) := takeLetters s
        let old := s.body.mg.lastRenewal
        let s := s.mg fun m => { m with takeDue := false, handover := 0 }
        let s := takeEntries s.body.mg.schedule.length s
        let s := s.mg fun m => { m with
          takeovers := m.takeovers + 1, retries := m.retries + k, lastTakeover := s.alm.beat, lastRenewal := s.alm.beat }
        s.post 0x0502 (sideSource x) [(s.latch.gen.toNat, 0), (old, 0), (n, 0), (k, 0)]
      else s
    | none => s

/-! ### Standbys (R373) -/

/-- STANDBY_RESYNC_DONE: the journal has been copied from the holder. -/
def execStandbyResyncDone (side : Side) (s : State) : Host.Outcome State Fault Refusal :=
  s.run fun s =>
    if pmOf s.body.mg side == .syncing && pmRuns s side && s.acting && s.latch.holder != some side then
      (s.mg fun m => setPm m side .standbyReady).post 0x0507 (sideSource side) [(sideNo side, 0), (s.body.mg.nextJid, 0)]
    else s

/-- STANDBY_MIRROR_TIMEOUT: 100 beats without an acknowledgement. -/
def execStandbyMirrorTimeout (s : State) : Host.Outcome State Fault Refusal :=
  s.run fun s =>
    match s.latch.holder with
    | some x =>
      let y := otherSide x
      if s.gate && pmRuns s x && pmOf s.body.mg y == .standbyReady then standbyLost s y .fault else s
    | none => s

/-- POSTMASTER_RESTART: it boots, and copies the journal if the other side holds the lease. -/
def execPostmasterRestart (side : Side) (s : State) : Host.Outcome State Fault Refusal :=
  s.run fun s =>
    let m := s.body.mg
    if pmOf m side == .off || s.body.data.dieOut.contains (sideDie side) || s.body.md.recovery then s
    else
      let next : PmState := if s.latch.holder = some (otherSide side) then .syncing else .booting
      let s := s.mg fun m => { m with halted := m.halted.filter fun x => x != side }
      if pmOf m side = .standbyReady then standbyLost s side next else s.mg fun m => setPm m side next

/-- HALTING_DEBUG: under the grant MGMT_DEBUG, with the TAP out of reset, a Postmaster is halted (12 R355). -/
def execHaltingDebug (side : Side) (s : State) : Host.Outcome State Fault Refusal :=
  s.run fun s =>
    if s.body.mgdb.grants / 2 % 2 = 1 ∧ !s.body.mg.halted.contains side then
      s.mg fun m => { m with halted := side :: m.halted }
    else s

end Sys2Proof.Machine
end

