-- ==== Sys2Proof/Machine/BringUp.lean ====
section
/-! DEFINITION. Power, module reset and bring-up: the pins and inputs of the module, the twelve steps, READY and FAILED
(14 R398; 15 R433-R435; 17 R447-R465; 18 R473-R491). -/

namespace Sys2Proof.Machine

def State.setMd (s : State) (m : Module) : State := { s with body := { s.body with md := m } }

/-! ### Rails off (17 R447; 18 R485) -/

/-- One past the highest SEQ in flash (15 R425). -/
def Log.seqAfter (l : Log) : Nat := l.flash.foldl (fun a r => max a (r.seq + 1)) 0

/-- The port's pin, and its functions with nothing in them. -/
def HostSt.off (h : HostSt) : HostSt :=
  { HostSt.reset with
    ha := { HostPortSt.reset with perst := h.ha.perst }
    hb := { HostPortSt.reset with perst := h.hb.perst }
    out := h.out }

/-- Cables stay where they are. -/
def Fabric.off (f : Fabric) : Fabric :=
  { Fabric.reset with links := mmap f.links fun _ l => { LinkSt.reset with cable := l.cable } }

/-- Every rail but standby is off: everything volatile is lost. Module flash, the always-on domain, and the levels at the
pins remain. -/
def Body.off (b : Body) : Body :=
  { Body.reset with
    host := b.host.off
    mgdb := { MgDb.reset with dynAddr := b.mgdb.dynAddr, eid := b.mgdb.eid, tap := b.mgdb.tap }
    fab := b.fab.off
    pw := { Power.reset with coolantOk := b.pw.coolantOk, coolantSince := b.pw.coolantSince, temps := b.pw.temps }
    log := { Log.reset with flash := b.log.flash, nextSeq := b.log.seqAfter }
    flash := b.flash
    md := { b.md with
      state := 0, step := 0, recovery := false, readyBeat := 0, generation := 0, builtBeat := 0, memtest := 0
      lastFullAge := 0, stepEnds := [], modPg := false, uv := false, dispOut := [], coolWait := false, plan := [], fullSeen := 672 } }

def powerDown (s : State) : State := s.setBody s.body.off

/-- A module reset: step 1 of bring-up begins; the Almanac is 0 in FREE, and SLOT_ID is latched. -/
def startReset (s : State) : State :=
  let b := s.body.off
  { s with
    alm := Almanac.reset
    body := { b with
      mgdb := { b.mgdb with dynAddr := none, eid := none }
      pw := { b.pw with coolantSince := 0 }
      md := { b.md with state := 1, step := 1, aonBeats := 0, slotId := b.md.slotPins, thermtrip := false } } }

/-- MOD_PWR_EN_RISE: before the oscillator has started the level only waits (18 R484). -/
def execModPwrEnRise (s : State) : Host.Outcome State Fault Refusal :=
  s.run fun s =>
    let m := s.body.md
    if m.pwrEn then s
    else
      let s := s.setMd { m with pwrEn := true }
      if m.p3v3 && m.oscOk then startReset s else s

/-- MOD_PWR_EN_FALL. -/
def execModPwrEnFall (s : State) : Host.Outcome State Fault Refusal :=
  s.run fun s =>
    if s.body.md.pwrEn then
      let s := s.setMd { s.body.md with pwrEn := false }
      if s.body.md.state = 0 then s else powerDown s
    else s

/-- P3V3_SB_APPLY. -/
def execP3v3SbApply (s : State) : Host.Outcome State Fault Refusal :=
  s.run fun s => if s.body.md.p3v3 then s else s.setMd { s.body.md with p3v3 := true, oscOk := false }

/-- P3V3_SB_LOSS: the whole always-on domain goes. -/
def execP3v3SbLoss (s : State) : Host.Outcome State Fault Refusal :=
  s.run fun s =>
    if !s.body.md.p3v3 then s
    else
      let s := powerDown s
      let b := s.body
      { s with
        alm := Almanac.reset
        latch := Latch.reset
        body := { b with
          mgdb := { b.mgdb with dynAddr := none, eid := none }
          pw := { b.pw with coolantSince := 0 }
          md := { b.md with
            p3v3 := false, oscOk := false, thermtrip := false, standbyBeats := 0, fullValid := false, spoiled := false, aonBeats := 0
            latchTherm := none, latchOver := none, latchPower := none } } }

/-- OSCILLATOR_STARTUP_DONE: a MOD_PWR_EN that is already high counts as a rising edge. -/
def execOscillatorStartupDone (s : State) : Host.Outcome State Fault Refusal :=
  s.run fun s =>
    let m := s.body.md
    if m.p3v3 && !m.oscOk then
      let s := s.setMd { m with oscOk := true }
      if m.pwrEn then startReset s else s
    else s

/-! ### Input (15 R433; 18 R482, R485) -/

/-- Records written to flash at an undervoltage warning: those of the ring not yet copied, and those held. -/
def flushRecs (l : Log) : List Rec :=
  (l.ring.filter fun r => decide (l.copied ≤ r.seq)) ++ ((l.burst.map fun b => b.held.flatMap fun h => heldRecs h.2).getD [])

/-- UV_WARNING: the input is below 38.0 V. -/
def execUvWarning (mv : Nat) (s : State) : Host.Outcome State Fault Refusal :=
  s.run fun s =>
    let b := s.body
    if b.md.uv || b.md.state == 0 || decide (38000 ≤ mv) then s
    else
      let recs := flushRecs b.log
      let f := b.log.flash ++ recs
      let b := { b with
        log := { b.log with flash := f.drop (f.length - 262144), copied := b.log.nextSeq }
        pw := { b.pw with steps := List.replicate 8 16, duty := List.replicate 8 1 }
        md := { b.md with uv := true, latchPower := some s.alm.beat } }
      (s.setBody b).post 0x0709 0 [(s.alm.beat, 0), (mv, 0), (recs.length, 0)]

/-- UV_RECOVERY: above 40.0 V before the rails fall. -/
def execUvRecovery (mv : Nat) (s : State) : Host.Outcome State Fault Refusal :=
  s.run fun s => if s.body.md.uv ∧ 40000 < mv then s.setMd { s.body.md with uv := false, latchPower := none } else s

/-- INPUT_REG_STOP: the regulators stop; the module does not restart by itself. -/
def execInputRegStop (s : State) : Host.Outcome State Fault Refusal :=
  s.run fun s =>
    let m := s.body.md
    if !m.inputGood then s
    else
      let s := s.setMd { m with inputGood := false, latchPower := if m.state = 0 then m.latchPower else some (m.latchPower.getD s.alm.beat) }
      if m.state = 0 then s else powerDown s

/-- INPUT_OVERVOLTAGE: above 62.0 V; the event is latched with its peak. -/
def execInputOvervoltage (mv : Nat) (s : State) : Host.Outcome State Fault Refusal :=
  s.run fun s =>
    let m := s.body.md
    if mv ≤ 62000 then s
    else
      let peak := max mv ((m.latchOver.map fun x => x.1).getD 0)
      let s := s.setMd { m with inputGood := false, latchOver := if m.p3v3 then some (peak, (m.latchOver.map fun x => x.2).getD s.alm.beat) else none }
      if m.state = 0 then s else powerDown s

/-- THERMTRIP: a die reaches 115 degrees or a stack 105. -/
def execThermtrip (sensor tempC : Nat) (s : State) : Host.Outcome State Fault Refusal :=
  s.run fun s =>
    let m := s.body.md
    if !m.p3v3 || decide (26 ≤ sensor) || decide (tempC < if sensor < 10 then 115 else 105) then s
    else
      let t := s.body.pw.temps
      let t := (t ++ List.replicate (26 - t.length) 0).set sensor tempC
      let s := s.setPw { s.body.pw with temps := t }
      let s := s.setMd { m with thermtrip := true, latchTherm := some (sensor, tempC, s.alm.beat), thermTold := false }
      if m.state = 0 then s else powerDown s

/-! ### Retired units (17 R458) -/

def keysTo {α : Type} (m : SMap α) (l : List Nat) (x : α) : SMap α := l.foldl (fun m k => mput m k x) m

/-- Dies that the retirement list alone keeps out of service. -/
def deadDies (b : Body) : List Nat :=
  (List.range 8).filter (fun i =>
    decide (b.pw.live i ≤ 3) || decide (16 < (b.data.chanOut.filter fun c => c / 64 == i).length) ||
      decide (((List.range 56).filter fun n => mgetD b.data.slices (56 * i + n) .inService != .out).length < 8)) ++
  (List.range 2).filterMap fun i => if b.pw.live (10 + i) < 3 then some (8 + i) else none

/-- Bring-up starts from the retirement list. -/
def Body.restoreRetired (b : Body) : Body :=
  let f := b.flash
  let d := b.data
  let d := { d with
    coreSt := keysTo (keysTo d.coreSt f.coresArrayOff .arrayOff) f.coresOff .off
    slices := keysTo d.slices f.slices .out
    chanOut := f.channels
    frameOut := f.frames
    engOut := f.engines.filter fun n => decide (n < 144) }
  let b := { b with
    data := d
    pw := { b.pw with phases := f.phases }
    fab := { b.fab with links := f.lanes.foldl (fun (m : SMap LinkSt) (l : Nat × BitVec 8) => mput m l.1 { mgetD m l.1 LinkSt.reset with lost := l.2 }) b.fab.links }
    md := { b.md with dispOut := (f.engines.filter fun n => decide (144 ≤ n)).map fun n => n - 144 } }
  { b with data := { b.data with dieOut := (deadDies b).foldl sadd b.data.dieOut } }

/-! ### FAILED (17 R460) -/

/-- BRINGUP_DONE (17 Table 6). -/
def bringupDone (s : State) (st : Nat) : State :=
  let b := s.body
  let m := b.md
  s.post 0x070C 0 ([(st, 1), (m.step, 1), (if m.step < 7 then 0 else m.memtest, 1), (0, 1), (coreCount b.data .full, 2),
    (coreCount b.data .arrayOff, 2), (coreCount b.data .off, 2), (0, 2)] ++
    (List.range 12).map fun k => (min (m.stepEnds.getD k 0) 0xFFFFFFFF, 4))

def failUp (s : State) : State := bringupDone (moduleFails s) 4

/-- Bring-up cannot go on. -/
def mustFail (b : Body) : Bool :=
  (b.data.dieOut.contains 8 && b.data.dieOut.contains 9) || ((List.range 8).all fun i => b.data.dieOut.contains i) ||
    decide (b.pw.live 8 < 11) || decide (b.pw.live 9 < 5)

/-! ### The steps (17 Table 1) -/

/-- Step 3 has brought the I/O rails up: MOD_PG, cable power, and both Postmasters boot (18 R469, R474). -/
def vioUp (s : State) : State :=
  let b := s.body
  if b.md.state = 1 ∧ b.md.step = 3 ∧ b.md.inputGood ∧ !b.md.modPg then
    let b := b.restoreRetired
    let up (x : Side) : Bool := !b.data.dieOut.contains (sideDie x)
    let mg := if up .north then setPm b.mg .north .booting else b.mg
    let mg := if up .south then setPm mg .south .booting else mg
    let pow (m : SMap LinkSt) (k : Nat) (x : Side) : SMap LinkSt :=
      let l := mgetD m k LinkSt.reset
      mput m k { l with cablePower := l.cable && up x }
    let b := { b with mg := mg, md := { b.md with modPg := true }, fab := { b.fab with links := pow (pow b.fab.links 16 .north) 17 .south } }
    let s := s.setBody b
    if mustFail b then failUp s else s
  else s

/-- INPUT_GOOD: step 3 may have waited for it. -/
def execInputGood (s : State) : Host.Outcome State Fault Refusal :=
  s.run fun s => if s.body.md.inputGood then s else vioUp (s.setMd { s.body.md with inputGood := true })

/-- Choose the slot of a component (17 R451): the active one if it verifies, else the other; none: recovery. -/
def bootSlot (s : State) (comp : Nat) (r : BringResult) : State × Bool :=
  let x := s.body.flash.slots comp
  if (if x.active then x.bValid else x.aValid) && r.activeOk then (setSlots s comp { x with running := x.active }, true)
  else
    let bad := if x.active then { x with bValid := false } else { x with aValid := false }
    if x.spare.1 && r.otherOk then
      ((setSlots s comp { bad with active := !x.active, running := !x.active }).post 0x070D 0
        [(comp, 0), (boolNat x.active, 0), (boolNat (!x.active), 0), (x.spare.2, 0)], true)
    else (setSlots s comp { bad with bValid := bad.bValid && x.active && r.otherOk, aValid := bad.aValid && !x.active && r.otherOk }, false)

/-- Recovery (17 R452). -/
def recover (s : State) : State :=
  let s := s.mg fun m => { m with nSt := .off, sSt := .off, takeDue := false, handover := 0 }
  failUp (s.setMd { s.body.md with recovery := true })

/-- Records of causes latched before the reset. -/
def latchedRecords (s : State) : State :=
  let m := s.body.md
  let s := match m.latchTherm with
    | some (k, t, n) => if m.thermTold then s else s.post 0x0604 0 [(k, 0), (t, 0), (n, 0)]
    | none => s
  let s := match m.latchOver with
    | some (v, n) => s.post 0x0712 0 [(v, 0), (n, 0)]
    | none => s
  let s := match m.latchPower with
    | some n => s.post 0x070B 0 [(n, 0), (s.body.log.seqAfter - 1, 0)]
    | none => s
  s.setMd { s.body.md with latchOver := none, latchPower := none, thermTold := true }

/-- A suspect as flash keeps it, before the beats of this run. -/
def Suspect.again (x : Suspect) : Suspect := { x with isOpen := false, start := 0, stop := 0, lastPass := 0, ctxs := [], more := false }

/-- Step 3: images, configuration, records. -/
def endStep3 (s : State) (r : BringResult) : State × Bool :=
  let (s, ok) := bootSlot s 1 r
  if !ok then (s, false)
  else
    let b := s.body
    let sus := mmap b.flash.steps fun _ x => x.again
    let b := { b with hl := { b.hl with cals := b.flash.cals, suspects := sus, packVersion := b.flash.pack } }
    let d := (sus.filter fun e => e.2.state == 3).foldl (fun (d : Data) e => (({ d with retiring := mput d.retiring e.1 e.2.arrOnly }).retireIfEmpty e.1)) b.data
    (latchedRecords (s.setBody { b with data := d }), true)

/-- Cores that a step takes away, and their records; `cause` is the rule. -/
def loseCores (s : State) (off aoff : List Nat) (cause : Nat) : State :=
  let one (st : CoreState) (s : State) (c : Nat) : State :=
    let d := s.body.data
    if 672 ≤ c ∨ d.coreState c = .off ∨ d.coreState c = st then s
    else s.setData (retiredPost { d with coreSt := mput d.coreSt c st } 1 (unitCode (.core c)) (if st = .off then 0 else 1) cause)
  off.foldl (one .off) (aoff.foldl (one .arrayOff) s)

def loseEngines (s : State) (l : List Nat) (cause : Nat) : State :=
  l.foldl (fun (s : State) n =>
    let d := s.body.data
    if 144 ≤ n ∨ d.engOut.contains n then s
    else s.setData (retiredPost { d with engOut := sadd d.engOut n } 4 (unitCode (.engine (engIdOf n))) 2 cause)) s

/-- Dispatchers number 144 to 151 among the retired engines of flash. -/
def loseDispatchers (s : State) (l : List Nat) : State :=
  l.foldl (fun (s : State) n =>
    let b := s.body
    if 8 ≤ n ∨ b.md.dispOut.contains n then s
    else s.setBody { b with
      md := { b.md with dispOut := sadd b.md.dispOut n }
      flash := { b.flash with engines := sadd b.flash.engines (144 + n) } }) s

/-- Frames and channels after a memory test (17 R454). -/
def endMemtest (s : State) (r : BringResult) : State :=
  let b := s.body
  let full := b.md.memtest = 1
  let new := r.frames.filter fun f => decide (f < 512 * 16384) && !b.data.frameOut.contains f
  let outs := new.foldl sadd b.data.frameOut
  let bad := (List.range 512).filter fun c => !b.data.chanOut.contains c &&
    (decide (256 < (outs.filter fun f => f / 16384 == c && decide (f % 16384 < 16368)).length) ||
      decide (14 < (outs.filter fun f => f / 16384 == c && decide (16368 ≤ f % 16384)).length))
  let md := b.md
  let md := if full then { md with lastFullAge := 0, fullValid := md.fullValid || r.testPassed }
    else { md with lastFullAge := md.standbyBeats - b.flash.lastFull }
  let md := if full && r.testPassed then { md with spoiled := false } else md
  let flash := if full && r.testPassed then { b.flash with lastFull := md.standbyBeats } else b.flash
  let s := s.setBody { b with data := { b.data with frameOut := outs }, md := md, flash := flash }
  let s := (bad.foldl sadd r.channels).foldl (fun (s : State) c => if c < 512 then chanRetire s c else s) s
  s.post 0x070E 0 [(md.memtest, 1), (0, 3), (new.length, 4), (s.body.data.chanOut.length - b.data.chanOut.length, 2), (0, 6), (md.lastFullAge, 8)]

/-- Step 7 may run the short test (17 R455). -/
def shortTest (b : Body) (chans : List Nat) : Bool :=
  b.md.fullValid && decide (b.md.standbyBeats - b.flash.lastFull < 604800000000) && !b.md.spoiled && chans == []

/-- First due beats, spread evenly over an interval of each kind (15 R416). -/
def firstDues (b : Body) (beat : Nat) : SMap Nat :=
  [1, 2, 3, 4].foldl (fun (m : SMap Nat) k =>
    let us := unitsOf b k
    let per := (mgetD b.hl.cals k (Calendar.default k)).interval
    (us.zipIdx).foldl (fun (m : SMap Nat) e => mput m (unitNo k e.1) (beat + per * (e.2 + 1) / us.length)) m) []

/-- READY (17 Table 1, step 12). -/
def ready (s : State) : State :=
  let b := s.body
  let beat := s.alm.beat
  let d := (List.range 8).foldl (fun (d : Data) i => if d.dieOut.contains i then d else { d with saveArea := mput d.saveArea i (placeSave d i) }) b.data
  let b := { b with
    data := { d with halted := false }
    md := { b.md with state := 2, readyBeat := beat, generation := 1, builtBeat := beat, plan := b.planParts } }
  let b := { b with hl := { b.hl with dues := firstDues b beat, pairs := pairsOf b.data } }
  bringupDone (s.setBody b) 2

/-- Step 4 may begin: good flow after a low COOLANT_OK, and cool sensors after a THERMTRIP# (17 R459; 18 R485). -/
def mayPower (s : State) : Bool :=
  let b := s.body
  (!b.md.coolWait || (b.pw.coolantOk && decide (b.pw.coolantSince + 10000000 ≤ s.alm.beat))) && (b.md.latchTherm.isNone || cool b.pw)

/-- What the end of a step does; whether the step can have ended; whether the module fails. -/
def stepWork (s : State) (r : BringResult) : Option (State × Bool) :=
  match s.body.md.step with
  | 1 => some (s, false)
  | 2 => some (s.setLatch Latch.reset, false)
  | 3 => if s.body.md.modPg then
      let (s', ok) := endStep3 s r
      if !ok then some (s', true) else if s.gate then some (s', false) else none
    else none
  | 4 => if mayPower s then some (s.setMd { s.body.md with coolWait := false, latchTherm := none }, false) else none
  | 5 =>
    let s := loseDispatchers (loseEngines (loseCores s r.coresOff r.coresArrayOff 452) r.engines 452) r.dispatchers
    let s := r.diesOut.foldl (fun (s : State) i => if i < 8 then dieOut s i 4 else s) s
    let s := r.ioOut.foldl (fun (s : State) x => ioOut s x 2) s
    some (s, r.bridgeFail)
  | 6 =>
    let m := s.body.md
    let chans := r.channels.filter fun c => decide (c < 512) && !s.body.data.chanOut.contains c
    let s := s.setMd { m with memtest := if shortTest s.body chans then 2 else 1 }
    some (chans.foldl (fun (s : State) c => chanRetire s c) s, false)
  | 7 => some (endMemtest s r, false)
  | 8 => some (r.slices.foldl (fun (s : State) k => if k < 448 ∧ mgetD s.body.data.slices k .inService ≠ .out then sliceRetire s k else s) s, false)
  | 9 => some (loseEngines (loseCores s r.coresOff r.coresArrayOff 457) r.engines 457, false)
  | 10 =>
    let (s, ok) := bootSlot s 2 r
    some (s, !ok)
  | 11 => some (r.links.foldl (fun (s : State) e =>
      let l := s.body.fab.link e.1
      let n := laneCount e.2
      if e.1 < 18 ∧ l.cable ∧ (n = 8 ∨ (e.1 < 16 ∧ (n = 4 ∨ n = 2))) then
        sendSurvey (s.setLink e.1 (l.trainedOn e.2)) e.1
      else s) s, false)
  | _ => some (s, false)

/-- BRINGUP_STEP_END (17 R448). -/
def execBringupStepEnd (res : BringResult) (s : State) : Host.Outcome State Fault Refusal :=
  s.run fun s =>
    let m := s.body.md
    if m.state ≠ 1 then s
    else match stepWork s res with
      | none => s
      | some (s, bad) =>
        let s := s.setMd { s.body.md with stepEnds := s.body.md.stepEnds ++ [s.body.md.aonBeats] }
        if bad && (m.step = 3 || m.step = 10) then recover s
        else if bad || (decide (3 ≤ m.step) && mustFail s.body) then failUp s
        else if m.step = 12 then ready s
        else
          let s := s.setMd { s.body.md with step := m.step + 1, coolWait := s.body.md.coolWait || (m.step == 3 && !s.body.pw.coolantOk) }
          if m.step = 2 then vioUp s else s

/-! ### Rails (14 R393-R396; 18 R474) -/

/-- The limit that a number of live phases puts on a rail: amperes of a VCORE rail, else the live phases. -/
def railLimit (rail live : Nat) : Nat := if rail < 8 then (if live = 5 then 300 else if live = 4 then 240 else if live = 6 then 360 else 0) else live

/-- The rail's load is in service. -/
def railLoaded (s : State) (r : Rail) : Bool :=
  s.body.md.state != 0 && !s.body.md.recovery && match r with
    | .vcore d => decide (d < 8) && !s.body.data.dieOut.contains d
    | .vioN => !s.body.data.dieOut.contains 8
    | .vioS => !s.body.data.dieOut.contains 9
    | _ => true

/-- What a rail with too few live phases does. -/
def railEffect (s : State) (r : Rail) : State :=
  let live := s.body.pw.live (railNo r)
  match r with
  | .vcore d => if live ≤ 3 then dieOut s d 1 else s
  | .vsram => if live < 11 ∧ s.body.md.state ≠ 1 then moduleFails s else s
  | .vhbm => if live < 5 ∧ s.body.md.state ≠ 1 then moduleFails s else s
  | .vioN => if live < 3 then ioOut s .north 1 else s
  | .vioS => if live < 3 then ioOut s .south 1 else s

/-- A phase is lost for good. -/
def losePhase (s : State) (r : Rail) (phase : Nat) (sense : Bool) (reading : Nat) : State :=
  let k := railNo r * 64 + phase
  let b := s.body
  if !railLoaded s r || decide (railPhases (railNo r) ≤ phase) || (mget b.pw.phases k).isSome then s
  else
    let b := { b with
      pw := { b.pw with phases := mput b.pw.phases k sense }
      flash := { b.flash with phases := mput b.flash.phases k sense } }
    let live := b.pw.live (railNo r)
    let failed := railPhases (railNo r) - live
    let s := s.setBody b
    let src := 8 + 256 * railNo r
    let s := if sense then s.post 0x0602 src [(railNo r, 0), (phase, 0), (reading, 0), (failed, 0)]
      else s.post 0x0601 src [(railNo r, 0), (phase, 0), (failed, 0), (railLimit (railNo r) live, 0)]
    let s := railEffect s r
    if s.body.md.state = 1 ∧ mustFail s.body then failUp s else s

/-- PHASE_FAIL_OPEN. -/
def execPhaseFailOpen (rail : Rail) (phase : Nat) (s : State) : Host.Outcome State Fault Refusal :=
  s.run fun s => losePhase s rail phase false 0

/-- PHASE_SENSE_FAIL. -/
def execPhaseSenseFail (rail : Rail) (phase reading : Nat) (s : State) : Host.Outcome State Fault Refusal :=
  s.run fun s => losePhase s rail phase true reading

/-- A die leaves service during bring-up: the module may fail. -/
def upCheck (s : State) : State := if s.body.md.state = 1 ∧ mustFail s.body then failUp s else s

/-- DIE_FABRIC_UE (15 R430). -/
def execDieFabricUe (die : Nat) (s : State) : Host.Outcome State Fault Refusal :=
  s.run fun s => if die < 8 ∧ railLoaded s (.vcore die) then upCheck (dieOut s die 4) else s

/-- IO_DIE_FABRIC_UE (15 R431). -/
def execIoDieFabricUe (side : Side) (s : State) : Host.Outcome State Fault Refusal :=
  s.run fun s => if railLoaded s (match side with
    | .north => .vioN
    | .south => .vioS) then upCheck (ioOut s side 2) else s

/-- Both host ports are held in reset. -/
def holdPorts (s : State) : State :=
  let one (s : State) (p : HostPort) : State := unsetPort (portDown s p 1) p
  one (one s .ha) .hb

/-- RAIL_OUT_OF_REGULATION: MOD_PG stays low until the next module reset. -/
def execRailOutOfRegulation (rail : Rail) (s : State) : Host.Outcome State Fault Refusal :=
  s.run fun s =>
    if railLoaded s rail && s.body.md.modPg then holdPorts (s.setMd { s.body.md with modPg := false }) else s

/-! ### REFCLK (18 R478) -/

/-- REFCLK_LOSS. -/
def execRefclkLoss (ppm : Nat) (s : State) : Host.Outcome State Fault Refusal :=
  s.run fun s =>
    let m := s.body.md
    if !m.refclk then s
    else
      let s := s.setMd { m with refclk := false, refLost := s.alm.beat }
      if m.state = 0 then s
      else (portDown (portDown s .ha 4) .hb 4).post 0x070F 0 [(s.alm.beat, 0), (ppm, 0)]

/-- REFCLK_RESTORE. -/
def execRefclkRestore (s : State) : Host.Outcome State Fault Refusal :=
  s.run fun s =>
    let m := s.body.md
    if m.refclk then s
    else
      let s := s.setMd { m with refclk := true }
      if m.state = 0 then s else s.post 0x0710 0 [(s.alm.beat, 0), (s.alm.beat - m.refLost, 0)]

end Sys2Proof.Machine
end

