-- ==== Sys2Proof/Machine/Huval.lean ====
section
/-! DEFINITION. The Huval instructions: each is the issue of one word by one group (04), acting on the data plane. -/

namespace Sys2Proof.Machine

/-- One group issues one instruction at the beat in progress. -/
def State.issue (s : State) (sp : OpSpec) (x : Issue) : State :=
  { s with body := { s.body with data := runIssue sp s.body.data s.alm.beat x } }

/-- NOP (R116). -/
def execNop (x : Issue) (s : State) : Host.Outcome State Fault Refusal := .next (s.issue specNop x)

/-- BRA (R135). -/
def execBra (x : Issue) (s : State) : Host.Outcome State Fault Refusal := .next (s.issue specBra x)

/-- BRX (R135). -/
def execBrx (x : Issue) (s : State) : Host.Outcome State Fault Refusal := .next (s.issue specBrx x)

/-- CALL (R135). -/
def execCall (x : Issue) (s : State) : Host.Outcome State Fault Refusal := .next (s.issue specCall x)

/-- RET (R135). -/
def execRet (x : Issue) (s : State) : Host.Outcome State Fault Refusal := .next (s.issue specRet x)

/-- EXIT (R70). -/
def execExit (x : Issue) (s : State) : Host.Outcome State Fault Refusal := .next (s.issue specExit x)

/-- YIELD_T (R103). -/
def execYieldT (x : Issue) (s : State) : Host.Outcome State Fault Refusal := .next (s.issue specYieldT x)

/-- ISYNC (R107). -/
def execIsync (x : Issue) (s : State) : Host.Outcome State Fault Refusal := .next (s.issue specIsync x)

/-- TRAP (R136). -/
def execTrap (x : Issue) (s : State) : Host.Outcome State Fault Refusal := .next (s.issue specTrap x)

/-- IADD (R117). -/
def execIadd (x : Issue) (s : State) : Host.Outcome State Fault Refusal := .next (s.issue specIadd x)

/-- ISUB (R117). -/
def execIsub (x : Issue) (s : State) : Host.Outcome State Fault Refusal := .next (s.issue specIsub x)

/-- IMUL_LO (R117). -/
def execImulLo (x : Issue) (s : State) : Host.Outcome State Fault Refusal := .next (s.issue specImulLo x)

/-- IMUL_HI (R117). -/
def execImulHi (x : Issue) (s : State) : Host.Outcome State Fault Refusal := .next (s.issue specImulHi x)

/-- IMAD (R117). -/
def execImad (x : Issue) (s : State) : Host.Outcome State Fault Refusal := .next (s.issue specImad x)

/-- IAND (R117). -/
def execIand (x : Issue) (s : State) : Host.Outcome State Fault Refusal := .next (s.issue specIand x)

/-- IOR (R117). -/
def execIor (x : Issue) (s : State) : Host.Outcome State Fault Refusal := .next (s.issue specIor x)

/-- IXOR (R117). -/
def execIxor (x : Issue) (s : State) : Host.Outcome State Fault Refusal := .next (s.issue specIxor x)

/-- SHL (R117). -/
def execShl (x : Issue) (s : State) : Host.Outcome State Fault Refusal := .next (s.issue specShl x)

/-- SHR (R117). -/
def execShr (x : Issue) (s : State) : Host.Outcome State Fault Refusal := .next (s.issue specShr x)

/-- SAR (R117). -/
def execSar (x : Issue) (s : State) : Host.Outcome State Fault Refusal := .next (s.issue specSar x)

/-- IMIN (R117). -/
def execImin (x : Issue) (s : State) : Host.Outcome State Fault Refusal := .next (s.issue specImin x)

/-- IMAX (R117). -/
def execImax (x : Issue) (s : State) : Host.Outcome State Fault Refusal := .next (s.issue specImax x)

/-- POPC (R116). -/
def execPopc (x : Issue) (s : State) : Host.Outcome State Fault Refusal := .next (s.issue specPopc x)

/-- CLZ (R116). -/
def execClz (x : Issue) (s : State) : Host.Outcome State Fault Refusal := .next (s.issue specClz x)

/-- BREV (R116). -/
def execBrev (x : Issue) (s : State) : Host.Outcome State Fault Refusal := .next (s.issue specBrev x)

/-- FADD (R182). -/
def execFadd (x : Issue) (s : State) : Host.Outcome State Fault Refusal := .next (s.issue specFadd x)

/-- FMUL (R182). -/
def execFmul (x : Issue) (s : State) : Host.Outcome State Fault Refusal := .next (s.issue specFmul x)

/-- FMA (R182). -/
def execFma (x : Issue) (s : State) : Host.Outcome State Fault Refusal := .next (s.issue specFma x)

/-- FMIN (R180). -/
def execFmin (x : Issue) (s : State) : Host.Outcome State Fault Refusal := .next (s.issue specFmin x)

/-- FMAX (R180). -/
def execFmax (x : Issue) (s : State) : Host.Outcome State Fault Refusal := .next (s.issue specFmax x)

/-- PK_ADD (R182). -/
def execPkAdd (x : Issue) (s : State) : Host.Outcome State Fault Refusal := .next (s.issue specPkAdd x)

/-- PK_MUL (R182). -/
def execPkMul (x : Issue) (s : State) : Host.Outcome State Fault Refusal := .next (s.issue specPkMul x)

/-- PK_FMA (R182). -/
def execPkFma (x : Issue) (s : State) : Host.Outcome State Fault Refusal := .next (s.issue specPkFma x)

/-- PK_MIN (R182). -/
def execPkMin (x : Issue) (s : State) : Host.Outcome State Fault Refusal := .next (s.issue specPkMin x)

/-- PK_MAX (R182). -/
def execPkMax (x : Issue) (s : State) : Host.Outcome State Fault Refusal := .next (s.issue specPkMax x)

/-- CVT (R120). -/
def execCvt (x : Issue) (s : State) : Host.Outcome State Fault Refusal := .next (s.issue specCvt x)

/-- CVT_MX (R121). -/
def execCvtMx (x : Issue) (s : State) : Host.Outcome State Fault Refusal := .next (s.issue specCvtMx x)

/-- ICMP (R114). -/
def execIcmp (x : Issue) (s : State) : Host.Outcome State Fault Refusal := .next (s.issue specIcmp x)

/-- FCMP (R118). -/
def execFcmp (x : Issue) (s : State) : Host.Outcome State Fault Refusal := .next (s.issue specFcmp x)

/-- PBOOL (R117). -/
def execPbool (x : Issue) (s : State) : Host.Outcome State Fault Refusal := .next (s.issue specPbool x)

/-- VOTE (R122). -/
def execVote (x : Issue) (s : State) : Host.Outcome State Fault Refusal := .next (s.issue specVote x)

/-- BALLOT (R122). -/
def execBallot (x : Issue) (s : State) : Host.Outcome State Fault Refusal := .next (s.issue specBallot x)

/-- RCP (R119). -/
def execRcp (x : Issue) (s : State) : Host.Outcome State Fault Refusal := .next (s.issue specRcp x)

/-- RSQ (R119). -/
def execRsq (x : Issue) (s : State) : Host.Outcome State Fault Refusal := .next (s.issue specRsq x)

/-- SQRT (R119). -/
def execSqrt (x : Issue) (s : State) : Host.Outcome State Fault Refusal := .next (s.issue specSqrt x)

/-- EX2 (R119). -/
def execEx2 (x : Issue) (s : State) : Host.Outcome State Fault Refusal := .next (s.issue specEx2 x)

/-- LG2 (R119). -/
def execLg2 (x : Issue) (s : State) : Host.Outcome State Fault Refusal := .next (s.issue specLg2 x)

/-- SIN (R119). -/
def execSin (x : Issue) (s : State) : Host.Outcome State Fault Refusal := .next (s.issue specSin x)

/-- COS (R119). -/
def execCos (x : Issue) (s : State) : Host.Outcome State Fault Refusal := .next (s.issue specCos x)

/-- TANH (R119). -/
def execTanh (x : Issue) (s : State) : Host.Outcome State Fault Refusal := .next (s.issue specTanh x)

/-- MOV (R115). -/
def execMov (x : Issue) (s : State) : Host.Outcome State Fault Refusal := .next (s.issue specMov x)

/-- MOV_HI (R115). -/
def execMovHi (x : Issue) (s : State) : Host.Outcome State Fault Refusal := .next (s.issue specMovHi x)

/-- SEL (R122). -/
def execSel (x : Issue) (s : State) : Host.Outcome State Fault Refusal := .next (s.issue specSel x)

/-- XLANE (R122). -/
def execXlane (x : Issue) (s : State) : Host.Outcome State Fault Refusal := .next (s.issue specXlane x)

/-- RDLANE (R122). -/
def execRdlane (x : Issue) (s : State) : Host.Outcome State Fault Refusal := .next (s.issue specRdlane x)

/-- RDSR (R122). -/
def execRdsr (x : Issue) (s : State) : Host.Outcome State Fault Refusal := .next (s.issue specRdsr x)

/-- BSEL (R117). -/
def execBsel (x : Issue) (s : State) : Host.Outcome State Fault Refusal := .next (s.issue specBsel x)

/-- LD (R123). -/
def execLd (x : Issue) (s : State) : Host.Outcome State Fault Refusal := .next (s.issue specLd x)

/-- ST (R123). -/
def execSt (x : Issue) (s : State) : Host.Outcome State Fault Refusal := .next (s.issue specSt x)

/-- ATOM (R124). -/
def execAtom (x : Issue) (s : State) : Host.Outcome State Fault Refusal := .next (s.issue specAtom x)

/-- FENCE (R125). -/
def execFence (x : Issue) (s : State) : Host.Outcome State Fault Refusal := .next (s.issue specFence x)

/-- BAR_SYNC (R88). -/
def execBarSync (x : Issue) (s : State) : Host.Outcome State Fault Refusal := .next (s.issue specBarSync x)

/-- BAR_ARRIVE (R88). -/
def execBarArrive (x : Issue) (s : State) : Host.Outcome State Fault Refusal := .next (s.issue specBarArrive x)

/-- BAR_DIE_ARRIVE (R90). -/
def execBarDieArrive (x : Issue) (s : State) : Host.Outcome State Fault Refusal := .next (s.issue specBarDieArrive x)

/-- BAR_DIE_WAIT (R90). -/
def execBarDieWait (x : Issue) (s : State) : Host.Outcome State Fault Refusal := .next (s.issue specBarDieWait x)

/-- BAR_PKG_ARRIVE (R90). -/
def execBarPkgArrive (x : Issue) (s : State) : Host.Outcome State Fault Refusal := .next (s.issue specBarPkgArrive x)

/-- BAR_PKG_WAIT (R90). -/
def execBarPkgWait (x : Issue) (s : State) : Host.Outcome State Fault Refusal := .next (s.issue specBarPkgWait x)

/-- INV_REMOTE (R129). -/
def execInvRemote (x : Issue) (s : State) : Host.Outcome State Fault Refusal := .next (s.issue specInvRemote x)

/-- MMA (R130). -/
def execMma (x : Issue) (s : State) : Host.Outcome State Fault Refusal := .next (s.issue specMma x)

/-- ACC_ZERO (R132). -/
def execAccZero (x : Issue) (s : State) : Host.Outcome State Fault Refusal := .next (s.issue specAccZero x)

/-- ACC_ST (R132). -/
def execAccSt (x : Issue) (s : State) : Host.Outcome State Fault Refusal := .next (s.issue specAccSt x)

/-- ACC_LD (R132). -/
def execAccLd (x : Issue) (s : State) : Host.Outcome State Fault Refusal := .next (s.issue specAccLd x)

/-- ACC_FLAGS (R132). -/
def execAccFlags (x : Issue) (s : State) : Host.Outcome State Fault Refusal := .next (s.issue specAccFlags x)

/-- ACC_CLRF (R132). -/
def execAccClrf (x : Issue) (s : State) : Host.Outcome State Fault Refusal := .next (s.issue specAccClrf x)

/-- COUR_ISSUE (R134). -/
def execCourIssue (x : Issue) (s : State) : Host.Outcome State Fault Refusal := .next (s.issue specCourIssue x)

/-- GLEAN_ISSUE (R134). -/
def execGleanIssue (x : Issue) (s : State) : Host.Outcome State Fault Refusal := .next (s.issue specGleanIssue x)

/-- RLY_ISSUE (R134). -/
def execRlyIssue (x : Issue) (s : State) : Host.Outcome State Fault Refusal := .next (s.issue specRlyIssue x)

/-- AWAIT (R92). -/
def execAwait (x : Issue) (s : State) : Host.Outcome State Fault Refusal := .next (s.issue specAwait x)

/-- RING (R300). -/
def execRing (x : Issue) (s : State) : Host.Outcome State Fault Refusal := .next (s.issue specRing x)

/-- RDBEAT (R137). -/
def execRdbeat (x : Issue) (s : State) : Host.Outcome State Fault Refusal := .next (s.issue specRdbeat x)

/-- RDCLK (R137). -/
def execRdclk (x : Issue) (s : State) : Host.Outcome State Fault Refusal := .next (s.issue specRdclk x)

end Sys2Proof.Machine
end

