-- ==== Sys2Proof/Machine/MgPort.lean ====
section
/-! DEFINITION. The management port MG, the debug port DB, and the cables (12 R351-R355; 18 R468, R469, R473). -/

namespace Sys2Proof.Machine

def State.setMg (s : State) (m : MgDb) : State := { s with body := { s.body with mgdb := m } }

/-- Someone answers on MG: the lease holder, or in LATCH_FAULT Postmaster North (12 R351; 13 R370). -/
def mgUp (s : State) : Bool := if s.latch.fault then pmRuns s .north && s.body.mg.nSt != .off else s.acting

/-- A message leaves MG; a command of the bus owner takes what it held unread. -/
def mgSend (s : State) (eid ty : Nat) (body : List Byte) : State :=
  s.setBody { s.body with
    host := s.body.host.emit (.mctp eid ty body)
    mgdb := { s.body.mgdb with unread := false } }

/-! ### Letters (12 R352) -/

/-- A reply that no slot holds. -/
def mgRefuse (s : State) (eid : Nat) (l : Letter) (status : Nat) : State :=
  mgSend s eid 0x7E ((replyBytes l (plain l status 0xFFFF) false 2 (holderCode s) s.alm.beat).take 32)

/-- MG_LETTER_MESSAGE: the device chooses a slot; none free: LETTERBOX_FULL. -/
def execMgLetterMessage (eid : Nat) (body : List (BitVec 8)) (s : State) : Host.Outcome State Fault Refusal :=
  s.run fun s =>
    let bytes := (body ++ List.replicate 256 0).take 256
    let mk (slot : Nat) : Letter := { bytes := bytes, stamp := 3, fn := none, slot := slot, gen := 0, ringBeat := s.alm.beat }
    if s.latch.fault then (if mgUp s then mgRefuse s eid (mk 0) 0x0D else s)
    else if s.body.mg.nSt = .off ∧ s.body.mg.sSt = .off ∧ !s.body.md.recovery then s
    else match (List.range 16).find? fun i => (mget s.body.mgdb.slots i).isNone with
      | none => mgRefuse s eid (mk 0) 0x0C
      | some i =>
        let s := s.setMg { s.body.mgdb with slots := mput s.body.mgdb.slots i eid, unread := false }
        let s := s.mg fun m => { m with accept := m.accept ++ [mk i] }
        if s.acting then drainBad s.body.mg.accept.length s else s

/-! ### MCTP control and PLDM (12 R352, R353) -/

/-- A control response: command, completion code, data. -/
def mctpReply (s : State) (cmd cc : Nat) (data : List Byte) : State := mgSend s 0 0 (natLe 1 0 ++ natLe 1 cmd ++ natLe 1 cc ++ data)

/-- A PLDM response: type, command, completion code, data. -/
def pldmReply (s : State) (ty cmd cc : Nat) (data : List Byte) : State :=
  mgSend s 0 1 (natLe 1 0 ++ natLe 1 ty ++ natLe 1 cmd ++ natLe 1 cc ++ data)

/-- `n` bytes that the spec leaves open. -/
def openBytes (s : State) (n : Nat) : List Byte := (List.range n).map fun i => Config.freeByte (s.body.data.free + i)

/-- A command that MG answers; in LATCH_FAULT none but the readings are (13 R370). -/
def mgCmd (s : State) (f : State → State) : Host.Outcome State Fault Refusal :=
  s.run fun s => if mgUp s && !s.latch.fault then f s else s

/-- A reading that MG answers. -/
def mgReading (s : State) (f : State → State) : Host.Outcome State Fault Refusal := s.run fun s => if mgUp s then f s else s

/-- MCTP_SET_ENDPOINT_ID. -/
def execMctpSetEndpointId (eid : Nat) (s : State) : Host.Outcome State Fault Refusal :=
  mgCmd s fun s =>
    if eid < 8 ∨ 255 ≤ eid then mctpReply s 1 2 []
    else mctpReply (s.setMg { s.body.mgdb with eid := some eid }) 1 0 (natLe 1 0 ++ natLe 1 eid ++ natLe 1 0)

/-- MCTP_GET_ENDPOINT_ID. -/
def execMctpGetEndpointId (s : State) : Host.Outcome State Fault Refusal :=
  mgCmd s fun s => mctpReply s 2 0 (natLe 1 (s.body.mgdb.eid.getD 0) ++ natLe 1 0 ++ natLe 1 0)

/-- MCTP_GET_VERSION_SUPPORT: which versions is open. -/
def execMctpGetVersionSupport (s : State) : Host.Outcome State Fault Refusal :=
  mgCmd s fun s => (mctpReply s 4 0 (natLe 1 1 ++ openBytes s 4)).drawn 4

/-- MCTP_GET_MESSAGE_TYPE_SUPPORT: 0x00, 0x01 and 0x7E. -/
def execMctpGetMessageTypeSupport (s : State) : Host.Outcome State Fault Refusal :=
  mgCmd s fun s => mctpReply s 5 0 [3, 0, 1, 0x7E]

/-- MCTP_GET_VENDOR_MSG_SUPPORT: a PCI vendor ID, which the spec does not give. -/
def execMctpGetVendorMsgSupport (s : State) : Host.Outcome State Fault Refusal :=
  mgCmd s fun s => (mctpReply s 6 0 ([0xFF, 0] ++ openBytes s 4)).drawn 4

/-- PLDM_GET_TID: the number is open. -/
def execPldmGetTid (s : State) : Host.Outcome State Fault Refusal :=
  mgCmd s fun s => (pldmReply s 0 2 0 (openBytes s 1)).drawn 1

/-- PLDM_GET_PLDM_VERSION of a supported type. -/
def execPldmGetPldmVersion (ty : Nat) (s : State) : Host.Outcome State Fault Refusal :=
  mgCmd s fun s =>
    if ty = 0 ∨ ty = 2 then (pldmReply s 0 3 0 (natLe 4 0 ++ natLe 1 5 ++ openBytes s 8)).drawn 8 else pldmReply s 0 3 0x83 []

/-- PLDM_GET_PLDM_TYPES: types 0 and 2. -/
def execPldmGetPldmTypes (s : State) : Host.Outcome State Fault Refusal := mgCmd s fun s => pldmReply s 0 4 0 (natLe 8 5)

/-- The PLDM commands of a type (12 Table 6), as a mask. -/
def pldmMask (ty : Nat) : Nat := if ty = 0 then 0x3C else 2 ^ 0x11 + 2 ^ 0x21 + 2 ^ 0x50 + 2 ^ 0x51

/-- PLDM_GET_PLDM_COMMANDS. -/
def execPldmGetPldmCommands (ty : Nat) (s : State) : Host.Outcome State Fault Refusal :=
  mgCmd s fun s => if ty = 0 ∨ ty = 2 then pldmReply s 0 5 0 (natLe 32 (pldmMask ty)) else pldmReply s 0 5 0x83 []

/-- PLDM_GET_PDR_REPOSITORY_INFO: available; its times and sizes are open. -/
def execPldmGetPdrRepositoryInfo (s : State) : Host.Outcome State Fault Refusal :=
  mgCmd s fun s => (pldmReply s 2 0x50 0 (natLe 1 0 ++ openBytes s 40)).drawn 40

/-- PLDM_GET_PDR: one record a sensor, 16 in all; their content is open. -/
def execPldmGetPdr (handle : Nat) (s : State) : Host.Outcome State Fault Refusal :=
  mgCmd s fun s =>
    if 16 < handle then pldmReply s 2 0x51 0x82 []
    else
      let next := if handle = 16 then 0 else max 1 handle + 1
      let n := Config.freeNat s.body.data.free % 53
      (pldmReply s 2 0x51 0 (natLe 4 next ++ natLe 4 0 ++ natLe 1 5 ++ natLe 2 n ++ openBytes s n)).drawn (n + 1)

/-- PLDM_GET_SENSOR_READING: numeric sensors 1 to 14, as last refreshed. -/
def execPldmGetSensorReading (sensor : Nat) (s : State) : Host.Outcome State Fault Refusal :=
  mgReading s fun s =>
    if 1 ≤ sensor ∧ sensor ≤ 14 then
      pldmReply s 2 0x11 0 ([2, 0, 0, 0, 0, 0] ++ natLe 2 (s.body.pw.sensors.getD (sensor - 1) 0))
    else pldmReply s 2 0x11 0x80 []

/-- PLDM_GET_STATE_SENSOR_READINGS: 20 HEALTH, which in LATCH_FAULT shows degraded, and 21 THROTTLE. -/
def execPldmGetStateSensorReadings (sensor : Nat) (s : State) : Host.Outcome State Fault Refusal :=
  mgReading s fun s =>
    if sensor = 20 ∨ sensor = 21 then
      let v := if sensor = 20 ∧ s.latch.fault then 1 else s.body.pw.sensors.getD (sensor - 6) 0
      pldmReply s 2 0x21 0 ([1, 0] ++ natLe 1 v ++ natLe 1 v ++ natLe 1 0)
    else pldmReply s 2 0x21 0x80 []

/-! ### I3C (12 R351) -/

/-- Take a dynamic address, if there is none yet. -/
def takeAddr (s : State) (addr : Nat) : State :=
  if s.body.md.modPg && s.body.mgdb.dynAddr.isNone && decide (addr < 128) then s.setMg { s.body.mgdb with dynAddr := some addr } else s

/-- I3C_SETDASA: from the static address 0x40 | SLOT_ID. -/
def execI3cSetdasa (static addr : Nat) (s : State) : Host.Outcome State Fault Refusal :=
  s.run fun s => if static = 0x40 + s.body.md.slotId % 32 then takeAddr s addr else s

/-- I3C_ENTDAA. -/
def execI3cEntdaa (addr : Nat) (s : State) : Host.Outcome State Fault Refusal := s.run fun s => takeAddr s addr

/-! ### DB (12 R354, R355) -/

/-- A TAP instruction, and what it shifts out. -/
def tapRun (s : State) (i : Nat) (bits : List Bool) : State :=
  (s.setMg { s.body.mgdb with tap := i }).emit (.tap bits)

/-- JTAG_BYPASS: one bit. -/
def execJtagBypass (s : State) : Host.Outcome State Fault Refusal := s.run fun s => tapRun s 1 [false]

/-- JTAG_IDCODE. -/
def execJtagIdcode (s : State) : Host.Outcome State Fault Refusal :=
  s.run fun s => tapRun s 0 ((List.range 32).map fun i => Config.idcode.getLsbD i)

/-- JTAG_SAMPLE_PRELOAD: the boundary cells. -/
def execJtagSamplePreload (s : State) : Host.Outcome State Fault Refusal :=
  s.run fun s => (tapRun s 2 (Config.boundary s.body.data.free)).drawn 1

/-- JTAG_EXTEST: the boundary cells; what it drives on the pins is the host board's. -/
def execJtagExtest (s : State) : Host.Outcome State Fault Refusal :=
  s.run fun s => (tapRun s 3 (Config.boundary s.body.data.free)).drawn 1

/-- DB_TRST_ASSERT: the TAP is reset. -/
def execDbTrstAssert (s : State) : Host.Outcome State Fault Refusal := s.run fun s => s.setMg { s.body.mgdb with tap := 0 }

/-- DB_UART_RX: input reaches the console only under CONSOLE. -/
def execDbUartRx (byte : BitVec 8) (s : State) : Host.Outcome State Fault Refusal :=
  s.run fun s =>
    let m := s.body.mgdb
    if m.grants % 2 = 1 then s.setMg { m with consoleIn := m.consoleIn ++ [byte] } else s

/-- SCAN_ACCESS: only under DATA_SCAN, and DB gets the scan of the die. What a scan reads the spec does not say (a free
value), and it names nothing that one changes (DESIGN CHOICE, log 133). -/
def execScanAccess (die : Nat) (s : State) : Host.Outcome State Fault Refusal :=
  s.run fun s =>
    if s.body.mgdb.grants / 4 % 2 = 1 ∧ die < 8 then (s.emit (.scan die (Config.scanned die s.body.data.free))).drawn 1 else s

/-! ### Cables (18 R468, R469) -/

/-- CBL_PRSNT_CHANGE: a link event; a link that loses its cable goes down. -/
def execCblPrsntChange (port : Nat) (present : Bool) (s : State) : Host.Outcome State Fault Refusal :=
  s.run fun s =>
    let l := s.body.fab.link port
    if 18 ≤ port || l.cable == present then s
    else if present then s.setLink port { l with cable := true, events := l.events + 1 }
    else linkDown (s.setLink port { l with cable := false }) port 3

/-- CABLE_POWER_FAULT: cable power stays off until the next module reset. -/
def execCablePowerFault (port mA : Nat) (s : State) : Host.Outcome State Fault Refusal :=
  s.run fun s =>
    let l := s.body.fab.link port
    if (port = 16 ∨ port = 17) ∧ l.cablePower then
      (linkDown (s.setLink port { l with cablePower := false }) port 4).post 0x0711 (7 + 256 * (0x80 + port)) [(port, 0), (mA, 0)]
    else s

end Sys2Proof.Machine
end

