-- ==== Sys2Proof/Machine/Dispatch.lean ====
section
/-! DEFINITION. The meaning of every command: one arm per constructor, each one direct call. -/

namespace Sys2Proof.Machine

/-- The effect of a command on everything but the queue. -/
def exec (i : Instr) (s : State) : Host.Outcome State Fault Refusal :=
  match i with
  | .nop x => Sys2Proof.Machine.execNop x s
  | .bra x => Sys2Proof.Machine.execBra x s
  | .brx x => Sys2Proof.Machine.execBrx x s
  | .call x => Sys2Proof.Machine.execCall x s
  | .ret x => Sys2Proof.Machine.execRet x s
  | .exit x => Sys2Proof.Machine.execExit x s
  | .yieldT x => Sys2Proof.Machine.execYieldT x s
  | .isync x => Sys2Proof.Machine.execIsync x s
  | .trap x => Sys2Proof.Machine.execTrap x s
  | .iadd x => Sys2Proof.Machine.execIadd x s
  | .isub x => Sys2Proof.Machine.execIsub x s
  | .imulLo x => Sys2Proof.Machine.execImulLo x s
  | .imulHi x => Sys2Proof.Machine.execImulHi x s
  | .imad x => Sys2Proof.Machine.execImad x s
  | .iand x => Sys2Proof.Machine.execIand x s
  | .ior x => Sys2Proof.Machine.execIor x s
  | .ixor x => Sys2Proof.Machine.execIxor x s
  | .shl x => Sys2Proof.Machine.execShl x s
  | .shr x => Sys2Proof.Machine.execShr x s
  | .sar x => Sys2Proof.Machine.execSar x s
  | .imin x => Sys2Proof.Machine.execImin x s
  | .imax x => Sys2Proof.Machine.execImax x s
  | .popc x => Sys2Proof.Machine.execPopc x s
  | .clz x => Sys2Proof.Machine.execClz x s
  | .brev x => Sys2Proof.Machine.execBrev x s
  | .fadd x => Sys2Proof.Machine.execFadd x s
  | .fmul x => Sys2Proof.Machine.execFmul x s
  | .fma x => Sys2Proof.Machine.execFma x s
  | .fmin x => Sys2Proof.Machine.execFmin x s
  | .fmax x => Sys2Proof.Machine.execFmax x s
  | .pkAdd x => Sys2Proof.Machine.execPkAdd x s
  | .pkMul x => Sys2Proof.Machine.execPkMul x s
  | .pkFma x => Sys2Proof.Machine.execPkFma x s
  | .pkMin x => Sys2Proof.Machine.execPkMin x s
  | .pkMax x => Sys2Proof.Machine.execPkMax x s
  | .cvt x => Sys2Proof.Machine.execCvt x s
  | .cvtMx x => Sys2Proof.Machine.execCvtMx x s
  | .icmp x => Sys2Proof.Machine.execIcmp x s
  | .fcmp x => Sys2Proof.Machine.execFcmp x s
  | .pbool x => Sys2Proof.Machine.execPbool x s
  | .vote x => Sys2Proof.Machine.execVote x s
  | .ballot x => Sys2Proof.Machine.execBallot x s
  | .rcp x => Sys2Proof.Machine.execRcp x s
  | .rsq x => Sys2Proof.Machine.execRsq x s
  | .sqrt x => Sys2Proof.Machine.execSqrt x s
  | .ex2 x => Sys2Proof.Machine.execEx2 x s
  | .lg2 x => Sys2Proof.Machine.execLg2 x s
  | .sin x => Sys2Proof.Machine.execSin x s
  | .cos x => Sys2Proof.Machine.execCos x s
  | .tanh x => Sys2Proof.Machine.execTanh x s
  | .mov x => Sys2Proof.Machine.execMov x s
  | .movHi x => Sys2Proof.Machine.execMovHi x s
  | .sel x => Sys2Proof.Machine.execSel x s
  | .xlane x => Sys2Proof.Machine.execXlane x s
  | .rdlane x => Sys2Proof.Machine.execRdlane x s
  | .rdsr x => Sys2Proof.Machine.execRdsr x s
  | .bsel x => Sys2Proof.Machine.execBsel x s
  | .ld x => Sys2Proof.Machine.execLd x s
  | .st x => Sys2Proof.Machine.execSt x s
  | .atom x => Sys2Proof.Machine.execAtom x s
  | .fence x => Sys2Proof.Machine.execFence x s
  | .barSync x => Sys2Proof.Machine.execBarSync x s
  | .barArrive x => Sys2Proof.Machine.execBarArrive x s
  | .barDieArrive x => Sys2Proof.Machine.execBarDieArrive x s
  | .barDieWait x => Sys2Proof.Machine.execBarDieWait x s
  | .barPkgArrive x => Sys2Proof.Machine.execBarPkgArrive x s
  | .barPkgWait x => Sys2Proof.Machine.execBarPkgWait x s
  | .invRemote x => Sys2Proof.Machine.execInvRemote x s
  | .mma x => Sys2Proof.Machine.execMma x s
  | .accZero x => Sys2Proof.Machine.execAccZero x s
  | .accSt x => Sys2Proof.Machine.execAccSt x s
  | .accLd x => Sys2Proof.Machine.execAccLd x s
  | .accFlags x => Sys2Proof.Machine.execAccFlags x s
  | .accClrf x => Sys2Proof.Machine.execAccClrf x s
  | .courIssue x => Sys2Proof.Machine.execCourIssue x s
  | .gleanIssue x => Sys2Proof.Machine.execGleanIssue x s
  | .rlyIssue x => Sys2Proof.Machine.execRlyIssue x s
  | .await x => Sys2Proof.Machine.execAwait x s
  | .ring x => Sys2Proof.Machine.execRing x s
  | .rdbeat x => Sys2Proof.Machine.execRdbeat x s
  | .rdclk x => Sys2Proof.Machine.execRdclk x s
  | .activeEntryTimeout core slot => Sys2Proof.Machine.execActiveEntryTimeout core slot s
  | .memResponse req => Sys2Proof.Machine.execMemResponse req s
  | .lateFaultPark core slot => Sys2Proof.Machine.execLateFaultPark core slot s
  | .faultRecordWrite ctx => Sys2Proof.Machine.execFaultRecordWrite ctx s
  | .counterBarrierMet pkg die k => Sys2Proof.Machine.execCounterBarrierMet pkg die k s
  | .awaitWake core ph => Sys2Proof.Machine.execAwaitWake core ph s
  | .mgmtParkRequest core => Sys2Proof.Machine.execMgmtParkRequest core s
  | .mgmtParkRelease core => Sys2Proof.Machine.execMgmtParkRelease core s
  | .faultDispositionProcess ctx => Sys2Proof.Machine.execFaultDispositionProcess ctx s
  | .threadBlockPlace launch node => Sys2Proof.Machine.execThreadBlockPlace launch node s
  | .arrayInstrStart core pos => Sys2Proof.Machine.execArrayInstrStart core pos s
  | .arrayMmaComplete core upsets => Sys2Proof.Machine.execArrayMmaComplete core upsets s
  | .arrayDrainComplete core => Sys2Proof.Machine.execArrayDrainComplete core s
  | .satNotice launch => Sys2Proof.Machine.execSatNotice launch s
  | .nanNotice launch => Sys2Proof.Machine.execNanNotice launch s
  | .arrayLeaveIdle core => Sys2Proof.Machine.execArrayLeaveIdle core s
  | .arrayRampStep core => Sys2Proof.Machine.execArrayRampStep core s
  | .arrayHoldExpiry core => Sys2Proof.Machine.execArrayHoldExpiry core s
  | .homeLineRequest req ev => Sys2Proof.Machine.execHomeLineRequest req ev s
  | .hbmFillReturn fill res => Sys2Proof.Machine.execHbmFillReturn fill res s
  | .hbmRetrainDone channel trained => Sys2Proof.Machine.execHbmRetrainDone channel trained s
  | .hbmScrubRead channel frame off res => Sys2Proof.Machine.execHbmScrubRead channel frame off res s
  | .sliceFlushDone die slice => Sys2Proof.Machine.execSliceFlushDone die slice s
  | .engineDescStart eng => Sys2Proof.Machine.execEngineDescStart eng s
  | .engineDescComplete eng => Sys2Proof.Machine.execEngineDescComplete eng s
  | .hostBar2Read fn off len => Sys2Proof.Machine.execHostBar2Read fn off len s
  | .hostBar2Write fn off data poisoned => Sys2Proof.Machine.execHostBar2Write fn off data poisoned s
  | .hostWindowReadCompletion req res data => Sys2Proof.Machine.execHostWindowReadCompletion req res data s
  | .phRing fn value => Sys2Proof.Machine.execPhRing fn value s
  | .ctxFault fn value => Sys2Proof.Machine.execCtxFault fn value s
  | .phWindowWrite fn n => Sys2Proof.Machine.execPhWindowWrite fn n s
  | .phWindowRead fn n => Sys2Proof.Machine.execPhWindowRead fn n s
  | .almanacBeatLowRead rd => Sys2Proof.Machine.execAlmanacBeatLowRead rd s
  | .almStatusW1c fn value => Sys2Proof.Machine.execAlmStatusW1c fn value s
  | .bar2UnmappedRead rd => Sys2Proof.Machine.execBar2UnmappedRead rd s
  | .linkEventsRead fn => Sys2Proof.Machine.execLinkEventsRead fn s
  | .doorbellRefusedRead fn => Sys2Proof.Machine.execDoorbellRefusedRead fn s
  | .registerWrite fn target data => Sys2Proof.Machine.execRegisterWrite fn target data s
  | .letterRing fn slot => Sys2Proof.Machine.execLetterRing fn slot s
  | .deviceIdentify => Sys2Proof.Machine.execDeviceIdentify s
  | .deviceFloorplan => Sys2Proof.Machine.execDeviceFloorplan s
  | .deviceGrade => Sys2Proof.Machine.execDeviceGrade s
  | .deviceLeaseQuery => Sys2Proof.Machine.execDeviceLeaseQuery s
  | .deviceLeaseHandover => Sys2Proof.Machine.execDeviceLeaseHandover s
  | .plotCreate => Sys2Proof.Machine.execPlotCreate s
  | .plotDestroy => Sys2Proof.Machine.execPlotDestroy s
  | .plotDrain => Sys2Proof.Machine.execPlotDrain s
  | .plotDrainRelease => Sys2Proof.Machine.execPlotDrainRelease s
  | .plotDrainQuery => Sys2Proof.Machine.execPlotDrainQuery s
  | .plotDrainComplete plot => Sys2Proof.Machine.execPlotDrainComplete plot s
  | .plotTeardownFinish plot => Sys2Proof.Machine.execPlotTeardownFinish plot s
  | .ctxCreate => Sys2Proof.Machine.execCtxCreate s
  | .ctxRelease => Sys2Proof.Machine.execCtxRelease s
  | .memCreate => Sys2Proof.Machine.execMemCreate s
  | .memCreateHostWindow => Sys2Proof.Machine.execMemCreateHostWindow s
  | .memRelease => Sys2Proof.Machine.execMemRelease s
  | .queueCreate => Sys2Proof.Machine.execQueueCreate s
  | .eventCreate => Sys2Proof.Machine.execEventCreate s
  | .graphStore => Sys2Proof.Machine.execGraphStore s
  | .graphLaunch => Sys2Proof.Machine.execGraphLaunch s
  | .pigeonholeCreate => Sys2Proof.Machine.execPigeonholeCreate s
  | .memInvalidate => Sys2Proof.Machine.execMemInvalidate s
  | .objRetain => Sys2Proof.Machine.execObjRetain s
  | .objRelease => Sys2Proof.Machine.execObjRelease s
  | .powerBudget => Sys2Proof.Machine.execPowerBudget s
  | .powerCap => Sys2Proof.Machine.execPowerCap s
  | .powerReasonsCurrent => Sys2Proof.Machine.execPowerReasonsCurrent s
  | .powerReasonsHistory => Sys2Proof.Machine.execPowerReasonsHistory s
  | .powerEnergyContexts => Sys2Proof.Machine.execPowerEnergyContexts s
  | .powerEnergySample => Sys2Proof.Machine.execPowerEnergySample s
  | .powerEnergyReadSample => Sys2Proof.Machine.execPowerEnergyReadSample s
  | .healthCalendarSet => Sys2Proof.Machine.execHealthCalendarSet s
  | .healthCalendarQuery => Sys2Proof.Machine.execHealthCalendarQuery s
  | .healthCalendarTestNow => Sys2Proof.Machine.execHealthCalendarTestNow s
  | .testpackBegin => Sys2Proof.Machine.execTestpackBegin s
  | .testpackData => Sys2Proof.Machine.execTestpackData s
  | .testpackCommit verdict => Sys2Proof.Machine.execTestpackCommit verdict s
  | .testpackAbort => Sys2Proof.Machine.execTestpackAbort s
  | .testpackQuery => Sys2Proof.Machine.execTestpackQuery s
  | .healthSuspectList => Sys2Proof.Machine.execHealthSuspectList s
  | .logRead => Sys2Proof.Machine.execLogRead s
  | .logClear => Sys2Proof.Machine.execLogClear s
  | .fwUpdateBegin => Sys2Proof.Machine.execFwUpdateBegin s
  | .fwUpdateData => Sys2Proof.Machine.execFwUpdateData s
  | .fwUpdateCommit verdict => Sys2Proof.Machine.execFwUpdateCommit verdict s
  | .fwUpdateAbort => Sys2Proof.Machine.execFwUpdateAbort s
  | .fwActivateLive booted => Sys2Proof.Machine.execFwActivateLive booted s
  | .fwActivateAtReset => Sys2Proof.Machine.execFwActivateAtReset s
  | .coldResume => Sys2Proof.Machine.execColdResume s
  | .fabricSurveyQuery => Sys2Proof.Machine.execFabricSurveyQuery s
  | .fabricSurveySetBlock => Sys2Proof.Machine.execFabricSurveySetBlock s
  | .fabricSurveyResurvey => Sys2Proof.Machine.execFabricSurveyResurvey s
  | .routesStageWrite => Sys2Proof.Machine.execRoutesStageWrite s
  | .routesStageDefaultBlock => Sys2Proof.Machine.execRoutesStageDefaultBlock s
  | .fabricRoutesSwitch => Sys2Proof.Machine.execFabricRoutesSwitch s
  | .fabricGraft => Sys2Proof.Machine.execFabricGraft s
  | .fabricPrune => Sys2Proof.Machine.execFabricPrune s
  | .almanacRootFollow => Sys2Proof.Machine.execAlmanacRootFollow s
  | .almanacRootInternal => Sys2Proof.Machine.execAlmanacRootInternal s
  | .almanacRootPps => Sys2Proof.Machine.execAlmanacRootPps s
  | .almanacStatus => Sys2Proof.Machine.execAlmanacStatus s
  | .almanacScheduleAdd => Sys2Proof.Machine.execAlmanacScheduleAdd s
  | .almanacScheduleCancel => Sys2Proof.Machine.execAlmanacScheduleCancel s
  | .journalConfigure => Sys2Proof.Machine.execJournalConfigure s
  | .journalRead => Sys2Proof.Machine.execJournalRead s
  | .journalDisable => Sys2Proof.Machine.execJournalDisable s
  | .replayStep => Sys2Proof.Machine.execReplayStep s
  | .debugChallenge => Sys2Proof.Machine.execDebugChallenge s
  | .debugPresent signatureValid => Sys2Proof.Machine.execDebugPresent signatureValid s
  | .debugLock => Sys2Proof.Machine.execDebugLock s
  | .beatEdge meas => Sys2Proof.Machine.execBeatEdge meas s
  | .epochBoundary meas => Sys2Proof.Machine.execEpochBoundary meas s
  | .scheduleEntryFire ticket meas => Sys2Proof.Machine.execScheduleEntryFire ticket meas s
  | .budgetTakesEffect ticket => Sys2Proof.Machine.execBudgetTakesEffect ticket s
  | .routesSwitchAtBeat ticket => Sys2Proof.Machine.execRoutesSwitchAtBeat ticket s
  | .graftAtBeat ticket => Sys2Proof.Machine.execGraftAtBeat ticket s
  | .pruneAtBeat ticket => Sys2Proof.Machine.execPruneAtBeat ticket s
  | .telemetrySample ticket meas => Sys2Proof.Machine.execTelemetrySample ticket meas s
  | .wrappedLetterAtBeat ticket => Sys2Proof.Machine.execWrappedLetterAtBeat ticket s
  | .budgetExpiry => Sys2Proof.Machine.execBudgetExpiry s
  | .budgetFallback => Sys2Proof.Machine.execBudgetFallback s
  | .syncCellRx port cell subNs consistent => Sys2Proof.Machine.execSyncCellRx port cell subNs consistent s
  | .almHoldoverTimeout => Sys2Proof.Machine.execAlmHoldoverTimeout s
  | .ppsEdge subNs => Sys2Proof.Machine.execPpsEdge subNs s
  | .ppsTimeout => Sys2Proof.Machine.execPpsTimeout s
  | .leaseClaim north south => Sys2Proof.Machine.execLeaseClaim north south s
  | .leaseRenew side => Sys2Proof.Machine.execLeaseRenew side s
  | .leaseRelease side => Sys2Proof.Machine.execLeaseRelease side s
  | .leaseExpiry => Sys2Proof.Machine.execLeaseExpiry s
  | .latchCopyMismatch => Sys2Proof.Machine.execLatchCopyMismatch s
  | .takeover => Sys2Proof.Machine.execTakeover s
  | .standbyResyncDone side => Sys2Proof.Machine.execStandbyResyncDone side s
  | .standbyMirrorTimeout => Sys2Proof.Machine.execStandbyMirrorTimeout s
  | .queueEntryClaim queue => Sys2Proof.Machine.execQueueEntryClaim queue s
  | .queueLaunch queue => Sys2Proof.Machine.execQueueLaunch queue s
  | .queueWait queue => Sys2Proof.Machine.execQueueWait queue s
  | .queueSignal queue => Sys2Proof.Machine.execQueueSignal queue s
  | .queueResume queue => Sys2Proof.Machine.execQueueResume queue s
  | .nodeDispatch launch node => Sys2Proof.Machine.execNodeDispatch launch node s
  | .nodeComplete launch node => Sys2Proof.Machine.execNodeComplete launch node s
  | .journalWatchDigest launch node => Sys2Proof.Machine.execJournalWatchDigest launch node s
  | .eventWaiterPoll dispatcher => Sys2Proof.Machine.execEventWaiterPoll dispatcher s
  | .passDeferralBegin unit => Sys2Proof.Machine.execPassDeferralBegin unit s
  | .yieldWindowExpiry core => Sys2Proof.Machine.execYieldWindowExpiry core s
  | .maxDeferralExpiry unit => Sys2Proof.Machine.execMaxDeferralExpiry unit s
  | .corePassStart core tempC => Sys2Proof.Machine.execCorePassStart core tempC s
  | .corePassPhaseEnd core res => Sys2Proof.Machine.execCorePassPhaseEnd core res s
  | .corePassEnd core => Sys2Proof.Machine.execCorePassEnd core s
  | .slicePassStart die slice => Sys2Proof.Machine.execSlicePassStart die slice s
  | .slicePassEnd die slice passed => Sys2Proof.Machine.execSlicePassEnd die slice passed s
  | .runnerPassStart port => Sys2Proof.Machine.execRunnerPassStart port s
  | .runnerPassEnd port badLanes => Sys2Proof.Machine.execRunnerPassEnd port badLanes s
  | .enginePassStart eng => Sys2Proof.Machine.execEnginePassStart eng s
  | .enginePassEnd eng passed => Sys2Proof.Machine.execEnginePassEnd eng passed s
  | .runnerCellRx port seq crcOk => Sys2Proof.Machine.execRunnerCellRx port seq crcOk s
  | .runnerRetrainDone port lanes => Sys2Proof.Machine.execRunnerRetrainDone port lanes s
  | .glFrameRx port frame => Sys2Proof.Machine.execGlFrameRx port frame s
  | .linkTrainingComplete port lanes => Sys2Proof.Machine.execLinkTrainingComplete port lanes s
  | .surveyRecordRx port rec t1 t4 => Sys2Proof.Machine.execSurveyRecordRx port rec t1 t4 s
  | .fabricPacketRx port pkt => Sys2Proof.Machine.execFabricPacketRx port pkt s
  | .fabricResponseRx port pkt => Sys2Proof.Machine.execFabricResponseRx port pkt s
  | .tackRx node cls seq => Sys2Proof.Machine.execTackRx node cls seq s
  | .transportResendTimeout node cls => Sys2Proof.Machine.execTransportResendTimeout node cls s
  | .transportAbandon node cls => Sys2Proof.Machine.execTransportAbandon node cls s
  | .relayDescStart relay => Sys2Proof.Machine.execRelayDescStart relay s
  | .relayDescComplete relay => Sys2Proof.Machine.execRelayDescComplete relay s
  | .phaseFailOpen rail phase => Sys2Proof.Machine.execPhaseFailOpen rail phase s
  | .phaseSenseFail rail phase reading => Sys2Proof.Machine.execPhaseSenseFail rail phase reading s
  | .dieFabricUe die => Sys2Proof.Machine.execDieFabricUe die s
  | .droopDetect die => Sys2Proof.Machine.execDroopDetect die s
  | .droopRelease die => Sys2Proof.Machine.execDroopRelease die s
  | .thermalThreshold sensor tempC => Sys2Proof.Machine.execThermalThreshold sensor tempC s
  | .thermtrip sensor tempC => Sys2Proof.Machine.execThermtrip sensor tempC s
  | .coolantOkFall => Sys2Proof.Machine.execCoolantOkFall s
  | .coolantOkRise => Sys2Proof.Machine.execCoolantOkRise s
  | .coldStopStart => Sys2Proof.Machine.execColdStopStart s
  | .coldStopHalted => Sys2Proof.Machine.execColdStopHalted s
  | .uvWarning mv => Sys2Proof.Machine.execUvWarning mv s
  | .uvRecovery mv => Sys2Proof.Machine.execUvRecovery mv s
  | .inputRegStop => Sys2Proof.Machine.execInputRegStop s
  | .inputGood => Sys2Proof.Machine.execInputGood s
  | .inputOvervoltage mv => Sys2Proof.Machine.execInputOvervoltage mv s
  | .p3v3SbApply => Sys2Proof.Machine.execP3v3SbApply s
  | .p3v3SbLoss => Sys2Proof.Machine.execP3v3SbLoss s
  | .modPwrEnRise => Sys2Proof.Machine.execModPwrEnRise s
  | .modPwrEnFall => Sys2Proof.Machine.execModPwrEnFall s
  | .bringupStepEnd res => Sys2Proof.Machine.execBringupStepEnd res s
  | .refclkLoss ppm => Sys2Proof.Machine.execRefclkLoss ppm s
  | .refclkRestore => Sys2Proof.Machine.execRefclkRestore s
  | .perstAssert port => Sys2Proof.Machine.execPerstAssert port s
  | .perstDeassert port => Sys2Proof.Machine.execPerstDeassert port s
  | .pcieHotReset port => Sys2Proof.Machine.execPcieHotReset port s
  | .pcieLinkDown port => Sys2Proof.Machine.execPcieLinkDown port s
  | .pcieLinkUp port rate width => Sys2Proof.Machine.execPcieLinkUp port rate width s
  | .pfFlr port => Sys2Proof.Machine.execPfFlr port s
  | .vfFlr port vf => Sys2Proof.Machine.execVfFlr port vf s
  | .vfEnableClear port => Sys2Proof.Machine.execVfEnableClear port s
  | .vfEnableSet port => Sys2Proof.Machine.execVfEnableSet port s
  | .mgLetterMessage eid body => Sys2Proof.Machine.execMgLetterMessage eid body s
  | .mctpSetEndpointId eid => Sys2Proof.Machine.execMctpSetEndpointId eid s
  | .mctpGetEndpointId => Sys2Proof.Machine.execMctpGetEndpointId s
  | .mctpGetVersionSupport => Sys2Proof.Machine.execMctpGetVersionSupport s
  | .mctpGetMessageTypeSupport => Sys2Proof.Machine.execMctpGetMessageTypeSupport s
  | .mctpGetVendorMsgSupport => Sys2Proof.Machine.execMctpGetVendorMsgSupport s
  | .pldmGetTid => Sys2Proof.Machine.execPldmGetTid s
  | .pldmGetPldmVersion ty => Sys2Proof.Machine.execPldmGetPldmVersion ty s
  | .pldmGetPldmTypes => Sys2Proof.Machine.execPldmGetPldmTypes s
  | .pldmGetPldmCommands ty => Sys2Proof.Machine.execPldmGetPldmCommands ty s
  | .pldmGetPdrRepositoryInfo => Sys2Proof.Machine.execPldmGetPdrRepositoryInfo s
  | .pldmGetPdr handle => Sys2Proof.Machine.execPldmGetPdr handle s
  | .pldmGetSensorReading sensor => Sys2Proof.Machine.execPldmGetSensorReading sensor s
  | .pldmGetStateSensorReadings sensor => Sys2Proof.Machine.execPldmGetStateSensorReadings sensor s
  | .i3cSetdasa static addr => Sys2Proof.Machine.execI3cSetdasa static addr s
  | .i3cEntdaa addr => Sys2Proof.Machine.execI3cEntdaa addr s
  | .jtagBypass => Sys2Proof.Machine.execJtagBypass s
  | .jtagIdcode => Sys2Proof.Machine.execJtagIdcode s
  | .jtagSamplePreload => Sys2Proof.Machine.execJtagSamplePreload s
  | .jtagExtest => Sys2Proof.Machine.execJtagExtest s
  | .dbTrstAssert => Sys2Proof.Machine.execDbTrstAssert s
  | .dbUartRx byte => Sys2Proof.Machine.execDbUartRx byte s
  | .cblPrsntChange port present => Sys2Proof.Machine.execCblPrsntChange port present s
  | .cablePowerFault port mA => Sys2Proof.Machine.execCablePowerFault port mA s
  | .recordWindowExpiry code kind unit => Sys2Proof.Machine.execRecordWindowExpiry code kind unit s
  | .recordBurstEnd => Sys2Proof.Machine.execRecordBurstEnd s
  | .flashLogCopy => Sys2Proof.Machine.execFlashLogCopy s
  | .fecLockLoss port => Sys2Proof.Machine.execFecLockLoss port s
  | .ioDieFabricUe side => Sys2Proof.Machine.execIoDieFabricUe side s
  | .oscillatorStartupDone => Sys2Proof.Machine.execOscillatorStartupDone s
  | .vfFlrComplete port vf => Sys2Proof.Machine.execVfFlrComplete port vf s
  | .postmasterRestart side => Sys2Proof.Machine.execPostmasterRestart side s
  | .railOutOfRegulation rail => Sys2Proof.Machine.execRailOutOfRegulation rail s
  | .scratchCopyDone die slice => Sys2Proof.Machine.execScratchCopyDone die slice s
  | .haltingDebug side => Sys2Proof.Machine.execHaltingDebug side s
  | .scanAccess die => Sys2Proof.Machine.execScanAccess die s

end Sys2Proof.Machine
end

