-- ==== Sys2Proof/Safety.lean ====
section
/-! DEFINITION. What claims about the block are stated in: commands that complete, states in which nothing is due, groups
that may issue, the lease latch in a legal state, and letters that are taken and answered. -/

namespace Sys2Proof.Machine

/-! ### Tables -/

/-- The keys of a table rise. -/
abbrev Rising {α : Type} (m : SMap α) : Prop := (m.map Prod.fst).Pairwise (· < ·)

/-! ### Commands -/

/-- The command completes, in a state of which `P` holds. -/
def Ends (c : Instr) (s : State) (P : State → Prop) : Prop := ∃ t, exec c s = .next t ∧ P t

/-- Nothing is due at the end of a command: no abort and no interrupt waits, every launch's context exists, and no launch's
iteration has ended unsettled. -/
def Body.quiet (b : Body) : Bool :=
  b.data.abortPend.isEmpty && b.data.irqs.isEmpty &&
    b.data.launches.all fun e => !b.iterOver e.2 && (e.2.open_ || !e.2.aborted) && (mget b.data.ctxs e.2.ctx).isSome

/-- `t` is `u` but for what the end of a command does by itself: records and counted errors are handed on, and the floor plan
is built again. -/
structure Like (u t : State) : Prop where
  pending : t.pending = u.pending
  alm : t.alm = u.alm
  latch : t.latch = u.latch
  mg : t.body.mg = u.body.mg
  host : t.body.host = u.body.host
  mgdb : t.body.mgdb = u.body.mgdb
  fab : t.body.fab = u.body.fab
  pw : t.body.pw = u.body.pw
  replay : t.body.replay = u.body.replay
  data : ∃ ps cs, t.body.data = { u.body.data with posts := ps, corrected := cs }
  md : ∃ pl fs g bb sp, t.body.md = { u.body.md with plan := pl, fullSeen := fs, generation := g, builtBeat := bb, spoiled := sp }
  hl : ∃ ps ss, t.body.hl = { u.body.hl with pairs := ps, suspects := ss }

/-- From a state with nothing due, towards a state `u` with nothing due (step journals of contexts that are gone being gone
too), the command completes: the next state is `u` but for what the end of a command does by itself. -/
def Does (c : Instr) (s u : State) : Prop :=
  s.body.quiet = true →
    ({ u.body with sj := mfilter s.body.sj fun c _ => (mget s.body.data.ctxs c).isSome } : Body).quiet = true →
    ∃ t, exec c s = .next t ∧ Like u t

/-- The command changes the data plane alone, to `d`. -/
def Acts (c : Instr) (s : State) (d : Data) : Prop := Does c s { s with body := { s.body with data := d } }

/-! ### Huval instructions -/

/-- The data plane at an issue: the bundles of the instruction and of the next one have been fetched (03 R106). -/
def atIssue (s : State) (q : GCtx) : Data := s.body.data.fetched q.c q.s q.b.plot q.g.pc

/-- A group may issue a word of an instruction, no trap or stall intervening: it holds or can take an active-set entry, the
word is the one it has fetched and legal, its guard does not switch a group-wide instruction off, its registers exist and
none has a pending write (03 R75-R77, R95, R106; 04 R110, R111, R127). -/
structure Ready (sp : OpSpec) (s : State) (x : Issue) (q : GCtx) : Prop where
  place : issueCtx s.body.data s.alm.beat x = some q
  word : illegal sp x = false
  on : (sp.wide x && q.on == 0 && Issue.guard x != 0) = false
  regs : (sp.refs x).any (refBeyond q.b.regsAlloc) = false
  fetch : fetchOk sp (atIssue s q) q = true
  clear : ((sp.refs x).any fun r => (s.body.data.pending q.c q.s q.k q.g).any (refMeets r)) = false
  acquired : (sp.mem && s.body.data.acquiring q.c q.s q.g) = false

/-- The state once a group has issued: the data plane `d`, with the group's registers as `g` has them, going on at `pc`. -/
def issued (s : State) (d : Data) (q : GCtx) (g : Group) (pc : W64) : State :=
  { s with body := { s.body with data := putGroup d q.c q.s (g.advance pc) } }

/-- The state once a group has come to wait at its instruction, as `g`, out of the active set (03 R76). -/
def waiting (s : State) (d : Data) (q : GCtx) (g : Group) : State :=
  { s with body := { s.body with data := d.stall q.c q.s g } }

/-- `g` is `g0` with v register `n` of the threads of `m` holding `f`; register 255 is discarded (04 R112). -/
structure WritesV (g0 g : Group) (n : Nat) (m : W32) (f : Nat → W32) : Prop where
  rest : { g with v := g0.v } = g0
  value : n ≠ 255 → ∀ t, bit m t = true → t < 32 → g.rd 0 n t = f t
  off : ∀ t, t < 32 → bit m t = false → g.rd 0 n t = g0.rd 0 n t
  others : ∀ k t, k ≠ n → t < 32 → g.rd 0 k t = g0.rd 0 k t

/-- `g` is `g0` with u register `n` holding `x`. -/
structure WritesU (g0 g : Group) (n : Nat) (x : W32) : Prop where
  rest : { g with u := g0.u } = g0
  value : n ≠ 255 → g.rd 1 n 0 = x
  others : ∀ k, k ≠ n → g.rd 1 k 0 = g0.rd 1 k 0

/-- `g` is `g0` with predicate `n` holding `x`. -/
structure WritesP (g0 g : Group) (n : Nat) (x : W32) : Prop where
  rest : { g with p := g0.p } = g0
  value : n ≠ 255 → g.rd 2 n 0 = x
  others : ∀ k, k ≠ n → g.rd 2 k 0 = g0.rd 2 k 0

/-- The destination of an arithmetic instruction: a u register once when DSP is 1, else a v register in each thread guarded
on (04 R114). -/
def WritesDest (q : GCtx) (g : Group) (f : Nat → W32) : Prop :=
  if Issue.dsp q.x = 1 then WritesU q.g g (Issue.dest q.x) (f 0) else WritesV q.g g (Issue.dest q.x) q.on f

/-- Source `i` of an integer instruction in thread `t`: a register, or in the IMM format source 2 is IMM26 sign-extended
and source 3 the destination's old value (04 R115). -/
def src (q : GCtx) (i t : Nat) : W32 := srcVal q.g q.x (immInt q.x) i t

/-- The instruction `mk` does nothing but give its destination the value `f` of each thread, and go on to the next word. -/
def Computes (mk : Issue → Instr) (sp : OpSpec) (f : GCtx → Nat → W32) : Prop :=
  ∀ s x q, Ready sp s x q →
    ∃ g, exec (mk x) s = .next (issued s (atIssue s q) q g (q.g.pc + 8)) ∧ WritesDest q g (f q)

/-- The instruction `mk` gives predicate `n` the bit `f t` in each position of `m`, the other positions keep theirs. -/
def SetsBits (mk : Issue → Instr) (sp : OpSpec) (m : GCtx → W32) (f : GCtx → Nat → Bool) : Prop :=
  ∀ s x q, Ready sp s x q →
    ∃ g, exec (mk x) s = .next (issued s (atIssue s q) q g (q.g.pc + 8)) ∧
      WritesP q.g g (Issue.dest x) ((q.g.rd 2 (Issue.dest x) 0 &&& ~~~(m q)) ||| (maskOf (f q) &&& m q))

/-- The instruction `mk` writes a floating-point value and a report code to each thread guarded on: `f` gives both from the
free-value counter at its issue, and it takes `n` free values. Where some thread created a NaN, that is reported too (R193,
R194). -/
def FloatComputes (mk : Issue → Instr) (sp : OpSpec) (unit n : Nat) (f : Nat → GCtx → Nat → W32 × Nat) : Prop :=
  ∀ s x q, Ready sp s x q → ∃ g,
    let d := { atIssue s q with free := s.body.data.free + n }
    WritesV q.g g (Issue.dest x) q.on (fun t => (f s.body.data.free q t).1) ∧
      exec (mk x) s = .next (match nanOf q.on unit fun t => (f s.body.data.free q t).2 with
        | none => issued s d q g (q.g.pc + 8)
        | some i => issued s (reportNan sp d q g i).1 q (reportNan sp d q g i).2 (q.g.pc + 8))

/-- Source `i` of a floating-point instruction in thread `t` (04 R115: the immediate is bits [31:6] of an FP32 value). -/
def fsrc (q : GCtx) (i t : Nat) : FVal := decodeF fp32 (srcVal q.g q.x (immHigh q.x) i t).toNat

/-- An FP32 result under the modifiers of 04 Table 5: RM in MOD[1:0], negate in MOD[4:2], absolute value in MOD[6:5]. -/
def fp32Result (f : FVal → FVal → FVal → FVal × Bool) (q : GCtx) (t : Nat) : W32 × Nat :=
  let m := Issue.md q.x
  let r := f (modSrc (mbit m 5) (mbit m 2) (fsrc q 1 t)) (modSrc (mbit m 6) (mbit m 3) (fsrc q 2 t)) (modSrc false (mbit m 4) (fsrc q 3 t))
  (BitVec.ofNat 32 (encodeF fp32 (rmOf m) r.1), if r.2 then 1 else 0)

/-- One half of a packed result, each source's half in the format of MOD[6] (04 Table 5). -/
def pkHalf (f : FVal → FVal → FVal → FVal × Bool) (q : GCtx) (t h : Nat) : Nat × Bool :=
  let m := Issue.md q.x
  let fm := if mbit m 6 then fp16 else bf16
  let v i := decodeF fm ((srcVal q.g q.x (immPacked q.x) i t).toNat / 65536 ^ h % 65536)
  let r := f (modSrc false (mbit m 2) (v 1)) (modSrc false (mbit m 3) (v 2)) (modSrc false (mbit m 4) (v 3))
  (encodeF fm (rmOf m) r.1, r.2)

/-- A packed result: both halves, each rounded once. -/
def pkResult (f : FVal → FVal → FVal → FVal × Bool) (q : GCtx) (t : Nat) : W32 × Nat :=
  (BitVec.ofNat 32 ((pkHalf f q t 0).1 + 65536 * (pkHalf f q t 1).1), if (pkHalf f q t 0).2 || (pkHalf f q t 1).2 then 1 else 0)

/-- A special function's result: thread `t` takes free value `t`, within the function's stated error. -/
def sfuResult (fn free : Nat) (q : GCtx) (t : Nat) : W32 × Nat :=
  let m := Issue.md q.x
  let r := sfu fn (Config.freeWord (free + t)) (modSrc (mbit m 5) (mbit m 2) (fsrc q 1 t))
  (BitVec.ofNat 32 r.1, r.2)

/-- The result of `cvt` (04 R120): from format MOD[9:6] to format MOD[5:2], rounded as MOD[1:0] says; under SR by the seed and
tensor id in u(SRC3) and u(SRC3 + 1) and the element index in v(SRC2). -/
def cvtResult (q : GCtx) (t : Nat) : W32 × Nat :=
  let m := Issue.md q.x
  let n := Issue.src3 q.x
  let mode : RMode := match m % 4 with
    | 0 => .rne
    | 1 => .rz
    | _ => .sr (srBits (q.g.rd 1 n t) (q.g.rd 1 (if n = 255 then 255 else n + 1) t) (q.g.rd 0 (Issue.src2 q.x) t))
  let r := encodeCode (m / 4 % 16) mode (decodeCode (m / 64) (srcVal q.g q.x 0 1 t))
  (BitVec.ofNat 32 r.1, r.2)

/-- A thread's value in a block of `cvt.mx`: a thread that is off counts as +0 (04 R121). -/
def mxVal (q : GCtx) (t : Nat) : FVal := if bit q.on t then decodeF fp32 (srcVal q.g q.x 0 1 t).toNat else .fin dyZero

/-- The scale of the block of thread `t`, and its report code: two blocks with BLK16 and for format 13, else one. -/
def mxScale (q : GCtx) (t : Nat) : Nat × Nat :=
  blockScale (Issue.md q.x / 4 % 16) ((if mxHalves (Issue.md q.x) then (List.range 16).map fun i => mxVal q (t / 16 * 16 + i)
    else (List.range 32).map fun i => mxVal q i))

/-- The element of thread `t`. -/
def mxElem (q : GCtx) (t : Nat) : W32 :=
  let n := Issue.src3 q.x
  let u (k : Nat) : W32 := q.g.rd 1 (if n = 255 then 255 else n + k) t
  let mode : RMode := if Issue.md q.x % 4 = 2 then .sr (srBits (u 1) (u 2) (q.g.rd 0 (Issue.src2 q.x) t)) else .rne
  BitVec.ofNat 32 (blockElem (Issue.md q.x / 4 % 16) mode (mxScale q t).1 (mxVal q t))

/-- The report code of thread `t`: that of its block where its value is an infinity. -/
def mxCause (q : GCtx) (t : Nat) : Nat :=
  match mxVal q t with
  | .inf _ => (mxScale q t).2
  | _ => 0

/-- The Huval instruction that a command issues: its rules and its word. -/
def huvalOf : Instr → Option (OpSpec × Issue)
  | .nop x => some (specNop, x)
  | .bra x => some (specBra, x)
  | .brx x => some (specBrx, x)
  | .call x => some (specCall, x)
  | .ret x => some (specRet, x)
  | .exit x => some (specExit, x)
  | .yieldT x => some (specYieldT, x)
  | .isync x => some (specIsync, x)
  | .trap x => some (specTrap, x)
  | .iadd x => some (specIadd, x)
  | .isub x => some (specIsub, x)
  | .imulLo x => some (specImulLo, x)
  | .imulHi x => some (specImulHi, x)
  | .imad x => some (specImad, x)
  | .iand x => some (specIand, x)
  | .ior x => some (specIor, x)
  | .ixor x => some (specIxor, x)
  | .shl x => some (specShl, x)
  | .shr x => some (specShr, x)
  | .sar x => some (specSar, x)
  | .imin x => some (specImin, x)
  | .imax x => some (specImax, x)
  | .popc x => some (specPopc, x)
  | .clz x => some (specClz, x)
  | .brev x => some (specBrev, x)
  | .fadd x => some (specFadd, x)
  | .fmul x => some (specFmul, x)
  | .fma x => some (specFma, x)
  | .fmin x => some (specFmin, x)
  | .fmax x => some (specFmax, x)
  | .pkAdd x => some (specPkAdd, x)
  | .pkMul x => some (specPkMul, x)
  | .pkFma x => some (specPkFma, x)
  | .pkMin x => some (specPkMin, x)
  | .pkMax x => some (specPkMax, x)
  | .cvt x => some (specCvt, x)
  | .cvtMx x => some (specCvtMx, x)
  | .icmp x => some (specIcmp, x)
  | .fcmp x => some (specFcmp, x)
  | .pbool x => some (specPbool, x)
  | .vote x => some (specVote, x)
  | .ballot x => some (specBallot, x)
  | .rcp x => some (specRcp, x)
  | .rsq x => some (specRsq, x)
  | .sqrt x => some (specSqrt, x)
  | .ex2 x => some (specEx2, x)
  | .lg2 x => some (specLg2, x)
  | .sin x => some (specSin, x)
  | .cos x => some (specCos, x)
  | .tanh x => some (specTanh, x)
  | .mov x => some (specMov, x)
  | .movHi x => some (specMovHi, x)
  | .sel x => some (specSel, x)
  | .xlane x => some (specXlane, x)
  | .rdlane x => some (specRdlane, x)
  | .rdsr x => some (specRdsr, x)
  | .bsel x => some (specBsel, x)
  | .ld x => some (specLd, x)
  | .st x => some (specSt, x)
  | .atom x => some (specAtom, x)
  | .fence x => some (specFence, x)
  | .barSync x => some (specBarSync, x)
  | .barArrive x => some (specBarArrive, x)
  | .barDieArrive x => some (specBarDieArrive, x)
  | .barDieWait x => some (specBarDieWait, x)
  | .barPkgArrive x => some (specBarPkgArrive, x)
  | .barPkgWait x => some (specBarPkgWait, x)
  | .invRemote x => some (specInvRemote, x)
  | .mma x => some (specMma, x)
  | .accZero x => some (specAccZero, x)
  | .accSt x => some (specAccSt, x)
  | .accLd x => some (specAccLd, x)
  | .accFlags x => some (specAccFlags, x)
  | .accClrf x => some (specAccClrf, x)
  | .courIssue x => some (specCourIssue, x)
  | .gleanIssue x => some (specGleanIssue, x)
  | .rlyIssue x => some (specRlyIssue, x)
  | .await x => some (specAwait, x)
  | .ring x => some (specRing, x)
  | .rdbeat x => some (specRdbeat, x)
  | .rdclk x => some (specRdclk, x)
  | _ => none

/-- The instructions that compute, compare, move or steer, and touch no memory, barrier, array or engine. -/
def computing (sp : OpSpec) : Bool := decide (sp.code < 0x120) && sp.code != 5 || sp.code == 0x1E2 || sp.code == 0x1E3

/-- The state after an issue-time fault: its record is held and its group parked at the instruction (03 R95). -/
def parked (s : State) (sp : OpSpec) (q : GCtx) (cls : FaultClass) (mask : W32) (addr : W64) : State :=
  { s with body := { s.body with data := postIssueFault sp (atIssue s q) q cls mask addr } }

/-! ### Memory instructions -/

/-- The accesses of a load or store. -/
def memAcc (d : Data) (q : GCtx) : List Acc :=
  accesses d q (memSpace q.x) (sizeBytes (memSize q.x)) (memDu q.x) fun t =>
    (((baseOf q.g (memBsp q.x) (Issue.src1 q.x) t : Int) + memOff q.x) % 2 ^ 64).toNat

/-- The same accesses, by their places in the address map. -/
def placed (d : Data) (space : Nat) (l : List Acc) : List Acc := l.map fun a => { a with a := generic d space a.a }

/-- An access to a host window that allows no stores counts as outside the plot for a store (08 R242). -/
def storeAcc (d : Data) (q : GCtx) : List Acc := (memAcc d q).map fun a => match a.at_ with
  | .ok (.host _ _ false) => { a with at_ := .error .carveOut }
  | _ => a

/-- The accesses of an atomic: none may go to a host window (08 R242). -/
def atomAcc (d : Data) (q : GCtx) : List Acc :=
  (accesses d q (atomSpace q.x) (atomSize (atomType q.x)) false fun t => baseOf q.g (atomBsp q.x) (Issue.src1 q.x) t).map
    fun a => match a.at_ with
      | .ok (.host ..) => { a with at_ := .error .carveOut }
      | _ => a

/-- A request of this group, on its way, of one thread of `l` for each of its lanes. -/
structure Requested (q : GCtx) (l : List Acc) (opnd new : Nat → W64) (r : LineReq) : Prop where
  owner : r.core = q.c ∧ r.slot = q.s ∧ r.age = q.g.age ∧ r.iseq = q.g.iseq ∧ r.plot = q.b.plot
  waits : r.stage = .waiting ∧ r.accepted = none
  lanes : r.lanes = (inLine l r.addr).map fun a => { t := a.t, off := a.a % 128, opnd := opnd a.t, cmp := new a.t }

/-- `d'` is `d` with new requests at the end of the fabric engines' queues, and `n` free values taken. -/
def Enters (d d' : Data) (new : List LineReq) (n : Nat) : Prop :=
  d'.reqs = d.reqs ++ new ∧ d'.nextId = d.nextId + new.length ∧ d'.free = d.free + n ∧
    { d' with reqs := d.reqs, nextId := d.nextId, free := d.free, bench := d.bench } = d

/-- Bench byte `k` lies in none of the accesses of `n` bytes. -/
def outsideAll (n k : Nat) (l : List (Nat × Nat)) : Prop := ∀ e ∈ l, k < e.2 ∨ e.2 + n ≤ k

/-- A matrix instruction enters its core's queue with `o`, and nothing else of the data plane but the array's activity
changes. -/
def QueuesArr (mk : Issue → Instr) (sp : OpSpec) (ok : GCtx → Bool) (ext : GCtx → List (Nat × Nat)) (o : GCtx → ArrOp) : Prop :=
  ∀ s x q, Ready sp s x q → ok q = true → claimed s.body.data q = true → extentsOk q (ext q) = true →
    (s.body.data.core q.c).arrQ.length < 4 → ∃ k, exec (mk x) s = .next (issued s ((atIssue s q).setCore q.c k) q q.g (q.g.pc + 8)) ∧
      k.arrQ = (s.body.data.core q.c).arrQ ++ [o q] ∧
      { k with arrQ := (s.body.data.core q.c).arrQ, arrSt := (s.body.data.core q.c).arrSt, rows := (s.body.data.core q.c).rows } =
        (atIssue s q).core q.c

/-! ### Engines -/

/-- The data plane after the completion that a descriptor of engine `n` names has been signalled here (07 Table 4, 09 Table
15): a ring, a die barrier's arrivals, or a package barrier's. -/
def signalled (d : Data) (n : Nat) (e : EngDesc) : Data :=
  match e.f 3 1 with
  | 1 => d.ringPh (e.f 4 2)
  | 2 => if n < 128 then d.counterAdd false (n / 16) (e.f 4 2) (BitVec.ofNat 32 (e.f 6 2)) else d
  | 3 => d.counterAdd true 0 (e.f 4 2) (BitVec.ofNat 32 (e.f 6 2))
  | _ => d

/-! ### The lease latch -/

/-- The latch in a legal state: its holder is the last that was granted the lease, its time is within a term, and without a
holder no time remains (13 R368). -/
structure LatchOk (l : Latch) : Prop where
  last : ∀ x, l.holder = some x → l.last = some x
  time : l.remaining ≤ 50000
  idle : l.holder = none → l.remaining = 0

/-- The commands that may change the latch: the Postmasters' own, its faults, the beat, the end of an epoch (a late renewal is
dropped), step 2 of bring-up and the loss of standby power. -/
def latchCommand : Instr → Bool
  | .leaseClaim .. | .leaseRenew .. | .leaseRelease .. | .leaseExpiry | .latchCopyMismatch | .beatEdge .. | .epochBoundary ..
  | .bringupStepEnd .. | .p3v3SbLoss => true
  | _ => false

/-! ### Letters -/

/-- The letter is one that the letter command takes (13 Table 7: its opcode and, where several share it, its OP). -/
def letterIs (i : Instr) (l : Letter) : Bool :=
  match i with
  | .deviceIdentify => l.op == 0x0101
  | .deviceFloorplan => l.op == 0x0102
  | .deviceGrade => l.op == 0x0103
  | .deviceLeaseQuery => l.op == 0x0104 && l.arg 0 1 == 1
  | .deviceLeaseHandover => l.op == 0x0104 && l.arg 0 1 == 2
  | .plotCreate => l.op == 0x0201
  | .plotDestroy => l.op == 0x0202
  | .plotDrain => l.op == 0x0203 && l.arg 1 1 == 1
  | .plotDrainRelease => l.op == 0x0203 && l.arg 1 1 == 2
  | .plotDrainQuery => l.op == 0x0203 && l.arg 1 1 == 3
  | .ctxCreate => l.op == 0x0301
  | .ctxRelease => l.op == 0x0302
  | .memCreate => l.op == 0x0303 && l.arg 1 1 == 1
  | .memCreateHostWindow => l.op == 0x0303 && l.arg 1 1 == 2
  | .memRelease => l.op == 0x0304
  | .queueCreate => l.op == 0x0305
  | .eventCreate => l.op == 0x0306
  | .graphStore => l.op == 0x0307
  | .graphLaunch => l.op == 0x0308
  | .pigeonholeCreate => l.op == 0x0309
  | .memInvalidate => l.op == 0x030A
  | .objRetain => l.op == 0x030B
  | .objRelease => l.op == 0x030C
  | .powerBudget => l.op == 0x0401
  | .powerCap => l.op == 0x0402
  | .powerReasonsCurrent => l.op == 0x0403 && l.arg 0 1 == 1
  | .powerReasonsHistory => l.op == 0x0403 && l.arg 0 1 == 2
  | .powerEnergyContexts => l.op == 0x0404 && l.arg 0 1 == 1
  | .powerEnergySample => l.op == 0x0404 && l.arg 0 1 == 2
  | .powerEnergyReadSample => l.op == 0x0404 && l.arg 0 1 == 3
  | .healthCalendarSet => l.op == 0x0501 && l.arg 0 1 == 1
  | .healthCalendarQuery => l.op == 0x0501 && l.arg 0 1 == 2
  | .healthCalendarTestNow => l.op == 0x0501 && l.arg 0 1 == 3
  | .testpackBegin => l.op == 0x0502 && l.arg 0 1 == 1
  | .testpackData => l.op == 0x0502 && l.arg 0 1 == 2
  | .testpackCommit _ => l.op == 0x0502 && l.arg 0 1 == 3
  | .testpackAbort => l.op == 0x0502 && l.arg 0 1 == 4
  | .testpackQuery => l.op == 0x0502 && l.arg 0 1 == 5
  | .healthSuspectList => l.op == 0x0503
  | .logRead => l.op == 0x0601
  | .logClear => l.op == 0x0602
  | .fwUpdateBegin => l.op == 0x0701 && l.arg 0 1 == 1
  | .fwUpdateData => l.op == 0x0701 && l.arg 0 1 == 2
  | .fwUpdateCommit _ => l.op == 0x0701 && l.arg 0 1 == 3
  | .fwUpdateAbort => l.op == 0x0701 && l.arg 0 1 == 4
  | .fwActivateLive _ => l.op == 0x0702 && l.arg 1 1 == 1
  | .fwActivateAtReset => l.op == 0x0702 && l.arg 1 1 == 2
  | .coldResume => l.op == 0x0801
  | .fabricSurveyQuery => l.op == 0x0901 && l.arg 0 1 == 1
  | .fabricSurveySetBlock => l.op == 0x0901 && l.arg 0 1 == 2
  | .fabricSurveyResurvey => l.op == 0x0901 && l.arg 0 1 == 3
  | .routesStageWrite => l.op == 0x0902 && l.arg 0 1 == 1
  | .routesStageDefaultBlock => l.op == 0x0902 && l.arg 0 1 == 2
  | .fabricRoutesSwitch => l.op == 0x0903
  | .fabricGraft => l.op == 0x0904
  | .fabricPrune => l.op == 0x0905
  | .almanacRootFollow => l.op == 0x0A01 && l.arg 0 1 == 0
  | .almanacRootInternal => l.op == 0x0A01 && l.arg 0 1 == 1
  | .almanacRootPps => l.op == 0x0A01 && l.arg 0 1 == 2
  | .almanacStatus => l.op == 0x0A02
  | .almanacScheduleAdd => l.op == 0x0A03 && l.arg 0 1 == 1
  | .almanacScheduleCancel => l.op == 0x0A03 && l.arg 0 1 == 2
  | .journalConfigure => l.op == 0x0B01 && l.arg 0 1 == 1
  | .journalRead => l.op == 0x0B01 && l.arg 0 1 == 2
  | .journalDisable => l.op == 0x0B01 && l.arg 0 1 == 3
  | .replayStep => l.op == 0x0B02
  | .debugChallenge => l.op == 0x0E01 && l.arg 0 1 == 1
  | .debugPresent _ => l.op == 0x0E01 && l.arg 0 1 == 2
  | .debugLock => l.op == 0x0E01 && l.arg 0 1 == 3
  | _ => false

/-- The letter has left the acceptance queue and is a journal entry (13 R364, R371). -/
def taken (s : State) (l : Letter) : State :=
  (s.mg fun m => { m with accept := m.accept.tail }).mg fun m => m.journalIt l s.alm.beat

/-- The command leaves `u`, and then does what every command does at its end; before it, nothing is due. -/
def Leaves (c : Instr) (s u : State) : Prop := s.finish = s → exec c s = .next u.finish

/-- The same, of a state that `P` describes. -/
def Makes (c : Instr) (s : State) (P : State → Prop) : Prop := s.finish = s → ∃ u : State, exec c s = .next u.finish ∧ P u

/-- Letter `l` stands at the front of the acceptance queue, its command is `i`, and the lease holder acts. Nothing is due, and
the letter behind it is one of the table's. -/
structure AtFront (i : Instr) (s : State) (l : Letter) : Prop where
  settled : s.finish = s
  acting : s.acting = true
  front : ∃ rest, s.body.mg.accept = l :: rest ∧ ∀ l' ∈ rest.head?, hasRow l' = true
  own : letterIs i l = true
  known : hasRow l = true

/-- That letter has a sequence number that is next, passes every check of 13 R366, and has no letter of its `plot.*` area
before it under way. -/
structure Front (i : Instr) (s : State) (l : Letter) : Prop extends AtFront i s l where
  seq : mget s.body.mg.nextSeq l.stamp = none ∨ mget s.body.mg.nextSeq l.stamp = some l.seq
  checks : refusal (taken s l) l = none
  free : s.body.mg.plotBusy l = false

/-- The command takes its letter, whose effect leaves `u` and the result `r`, of which `P` holds; the status is OK, and the
reply goes out unless it is given later. -/
def Answered (i : Instr) (s : State) (P : State → Res → Prop) : Prop :=
  ∃ u r, P u r ∧ r.status = 0 ∧ exec i s = .next (if r.later then u else reply u s.body.mg.nextJid r).finish

/-- Where `ok` holds, the command changes the state in which its letter has been taken by `f`, and the reply is OK with `data`. -/
def Replies (i : Instr) (ok : State → Letter → Prop) (f : State → Letter → State) (data : State → Letter → List Byte) : Prop :=
  ∀ s l, Front i s l → ok (taken s l) l →
    exec i s = .next (reply (f (taken s l) l) s.body.mg.nextJid (Res.ok (data (taken s l) l))).finish

/-- Where `ok` holds, the command's letter is refused with a status and FIELD, and has no effect. -/
def Refuses (i : Instr) (status fieldOff : Nat) (ok : State → Letter → Prop) : Prop :=
  ∀ s l, Front i s l → ok (taken s l) l →
    exec i s = .next (reply (taken s l) s.body.mg.nextJid (Res.at_ status fieldOff)).finish

/-- Where `ok` holds, the command puts an action on the schedule for the beat in its letter's argument at `o`, under a new
ticket, which the reply gives; `f` is what else it does. -/
def Schedules (i : Instr) (o : Nat) (ok : State → Letter → Prop) (kind : Letter → SKind) (f : State → State) : Prop :=
  ∀ s l, Front i s l → ok (taken s l) l → s.alm.st ≠ .free → s.alm.st ≠ .acquiring → l.arg o 8 ≠ 0 →
    s.alm.beat + 2 ≤ l.arg o 8 → l.arg o 8 ≤ s.alm.beat + 2 ^ 40 → shareFull s.body.mg l.stamp = false →
    s.body.mg.schedule.length ≤ 512 → ∃ n, n ≠ 0 ∧ n < 2 ^ 32 ∧ (∀ e ∈ s.body.mg.schedule, e.ticket ≠ n) ∧
      exec i s = .next (reply (f ((taken s l).mg fun m => { m with
        nextTicket := n + 1
        nextOrder := m.nextOrder + 1
        schedule := m.schedule ++ [{ ticket := n, beat := l.arg o 8, kind := kind l, letter := l, order := m.nextOrder, counts := true, late := false }] }))
        s.body.mg.nextJid (Res.tick n)).finish

end Sys2Proof.Machine
end

