-- ==== Sys2Proof/Certificates/Slice0/Obligations.lean ====
section
/-! DEFINITION. The statements about the model, for the provers. -/

open Sys2Proof Sys2Proof.Machine

/-! ### Huval instructions: results -/

/-- 04 R117, Table 5: the integer and move instructions. Each takes a word that is ready, gives its destination the value
of the rule in every thread guarded on (once, when DSP is 1), changes nothing else of the group but the program counter,
and completes. Register 255 discards the value. The model's own reading of operations that the spec only names: log entry
165. 04 R122: lanes, selection and special registers. The model's own readings and choices in it: log entries 169, 170,
171. -/
def Obligations.IntegerAndLaneResults : Prop :=
  (
  Computes .iadd specIadd (fun q t => src q 1 t + src q 2 t) ∧
  Computes .isub specIsub (fun q t => src q 1 t - src q 2 t) ∧
  Computes .imulLo specImulLo (fun q t => src q 1 t * src q 2 t) ∧
  Computes .imulHi specImulHi (fun q t =>
    if Issue.md q.x = 1 then BitVec.ofInt 32 ((src q 1 t).toInt * (src q 2 t).toInt / 2 ^ 32)
    else BitVec.ofNat 32 ((src q 1 t).toNat * (src q 2 t).toNat / 2 ^ 32)) ∧
  Computes .imad specImad (fun q t => src q 1 t * src q 2 t + src q 3 t) ∧
  Computes .iand specIand (fun q t => src q 1 t &&& src q 2 t) ∧
  Computes .ior specIor (fun q t => src q 1 t ||| src q 2 t) ∧
  Computes .ixor specIxor (fun q t => src q 1 t ^^^ src q 2 t) ∧
  Computes .shl specShl (fun q t => src q 1 t <<< ((src q 2 t).toNat % 32)) ∧
  Computes .shr specShr (fun q t => src q 1 t >>> ((src q 2 t).toNat % 32)) ∧
  Computes .sar specSar (fun q t => (src q 1 t).sshiftRight ((src q 2 t).toNat % 32)) ∧
  Computes .imin specImin (fun q t =>
    if Issue.md q.x = 1 then (if (src q 2 t).toInt < (src q 1 t).toInt then src q 2 t else src q 1 t)
    else BitVec.ofNat 32 (min (src q 1 t).toNat (src q 2 t).toNat)) ∧
  Computes .imax specImax (fun q t =>
    if Issue.md q.x = 1 then (if (src q 1 t).toInt < (src q 2 t).toInt then src q 2 t else src q 1 t)
    else BitVec.ofNat 32 (max (src q 1 t).toNat (src q 2 t).toNat)) ∧
  Computes .popc specPopc (fun q t => BitVec.ofNat 32 ((List.range 32).filter fun i => (src q 1 t).getLsbD i).length) ∧
  Computes .clz specClz (fun q t => if src q 1 t = 0 then 32 else BitVec.ofNat 32 (31 - Nat.log2 (src q 1 t).toNat)) ∧
  Computes .brev specBrev (fun q t => (src q 1 t).reverse) ∧
  Computes .mov specMov (fun q t => if q.x.imm then immInt q.x else src q 1 t) ∧
  Computes .movHi specMovHi (fun q _ => BitVec.ofNat 32 (Issue.imm26 q.x) <<< 6)) ∧
  (
  Computes .sel specSel (fun q t =>
    if (if Issue.dsp q.x = 1 then q.g.rd 2 (selPred q.x) 0 &&& q.g.active != 0 else bit (q.g.rd 2 (selPred q.x) 0) t)
    then src q 1 t else src q 2 t) ∧
  Computes .xlane specXlane (fun q t =>
    let b : Int := (src q 2 t).toNat
    let l : Int := match Issue.md q.x with
      | 0 => b
      | 1 => t - b
      | 2 => t + b
      | _ => ((t ^^^ (src q 2 t).toNat : Nat) : Int)
    if 0 ≤ l ∧ l < 32 ∧ bit q.g.active l.toNat then src q 1 l.toNat else src q 1 t) ∧
  Computes .rdlane specRdlane (fun q _ =>
    if bit q.g.active (Issue.src2 q.x) then q.g.rd 0 (Issue.src1 q.x) (Issue.src2 q.x) else 0) ∧
  Computes .ballot specBallot (fun q _ => q.g.rd 2 (Issue.src1 q.x) 0 &&& q.g.active) ∧
  Computes .bsel specBsel (fun q t =>
    let by8 (k : Nat) : Nat := ((src q 1 t).toNat + 2 ^ 32 * (src q 2 t).toNat) / 256 ^ (k % 8) % 256
    let out (i : Nat) : Nat :=
      let k := (src q 3 t).toNat / 16 ^ i % 16
      if k < 8 then by8 k else if 128 ≤ by8 k then 255 else 0
    BitVec.ofNat 32 (out 0 + 2 ^ 8 * out 1 + 2 ^ 16 * out 2 + 2 ^ 24 * out 3)) ∧
  (∀ s x q, Ready specRdsr s x q → ∃ g,
    exec (.rdsr x) s = .next (issued s (atIssue s q) q g (q.g.pc + 8)) ∧ WritesDest q g (fun t =>
      match Issue.md x with
      | 0 => BitVec.ofNat 32 t
      | 1 => q.g.active
      | 2 => BitVec.ofNat 32 (x.core / 84 + 16 * (x.core % 84 / 12) + 256 * (x.core % 12) + 4096 * s.body.data.node)
      | 3 => BitVec.ofNat 32 (x.slot + 256 * q.g.block)
      | _ => BitVec.ofNat 32 (q.g.trapNan.toNat + 2 * q.g.trapSat.toNat))))

/-- 04 R114, R117, R122: compares and predicates. A uniform compare or `pbool` writes the same bit to all 32 positions;
the others write the positions of the threads guarded on. The model's own readings and choices in it: log entry 170. -/
def Obligations.PredicateResults : Prop :=
  SetsBits .icmp specIcmp (fun q => if icmpUni q.x then -1 else q.on) (fun q t =>
    let a := src q 1 (if icmpUni q.x then 0 else t)
    let b := src q 2 (if icmpUni q.x then 0 else t)
    match Issue.md q.x with
    | 0 => decide (a = b)
    | 1 => decide (a ≠ b)
    | 2 => decide (a.toInt < b.toInt)
    | 3 => decide (a.toInt ≤ b.toInt)
    | 4 => decide (b.toInt < a.toInt)
    | 5 => decide (b.toInt ≤ a.toInt)
    | 6 => decide (a.toNat < b.toNat)
    | 7 => decide (a.toNat ≤ b.toNat)
    | 8 => decide (b.toNat < a.toNat)
    | _ => decide (b.toNat ≤ a.toNat)) ∧
  SetsBits .fcmp specFcmp (fun q => q.on) (fun q t => fCmp (Issue.md q.x) (fsrc q 1 t) (fsrc q 2 t)) ∧
  SetsBits .pbool specPbool (fun q => if 16 ≤ Issue.md q.x then -1 else q.on) (fun q t =>
    let inp (n : Nat) : Nat := if 16 ≤ Issue.md q.x then (q.g.rd 2 n 0 &&& q.g.active != 0).toNat else (bit (q.g.rd 2 n 0) t).toNat
    (Issue.md q.x).testBit (2 * inp (Issue.src1 q.x) + inp (Issue.src2 q.x))) ∧
  SetsBits .vote specVote (fun q => q.on) (fun q _ =>
    let p := q.g.rd 2 (Issue.src1 q.x) 0 &&& q.on
    match Issue.md q.x with
    | 0 => decide (p ≠ 0)
    | 1 => decide (p = q.on)
    | _ => decide (p = 0 ∨ p = q.on))

/-- 04 R117-R121: the floating-point instructions. Each thread guarded on takes its result, and a NaN created by some
thread is reported. The special functions take one free value a thread within their stated error. 04 R120, R121; 06
R173-R176: conversions. `cvt` gives each thread guarded on its value in the other format. `cvt.mx` gives each its element,
and u(SRC3) the scale of the one block or of both. A NaN created is reported. 06 R193, R194: a created NaN. With TRAP_NAN
set the group has its trap off and one late fault more that names the threads and the cause; else only the launch's count
goes up. A launch counts the instruction either way. The model's own readings and choices in it: log entries 21, 22, 168,
172. -/
def Obligations.FloatResults : Prop :=
  (
  FloatComputes .fadd specFadd 1 0 (fun _ => fp32Result fun a b _ => fAdd a b) ∧
  FloatComputes .fmul specFmul 1 0 (fun _ => fp32Result fun a b _ => fMul a b) ∧
  FloatComputes .fma specFma 1 0 (fun _ => fp32Result fFma) ∧
  FloatComputes .fmin specFmin 1 0 (fun _ => fp32Result fun a b _ => (fMin a b, false)) ∧
  FloatComputes .fmax specFmax 1 0 (fun _ => fp32Result fun a b _ => (fMax a b, false)) ∧
  FloatComputes .pkAdd specPkAdd 1 0 (fun _ => pkResult fun a b _ => fAdd a b) ∧
  FloatComputes .pkMul specPkMul 1 0 (fun _ => pkResult fun a b _ => fMul a b) ∧
  FloatComputes .pkFma specPkFma 1 0 (fun _ => pkResult fFma) ∧
  FloatComputes .pkMin specPkMin 1 0 (fun _ => pkResult fun a b _ => (fMin a b, false)) ∧
  FloatComputes .pkMax specPkMax 1 0 (fun _ => pkResult fun a b _ => (fMax a b, false)) ∧
  FloatComputes .rcp specRcp 1 32 (sfuResult 0) ∧ FloatComputes .rsq specRsq 1 32 (sfuResult 1) ∧
  FloatComputes .sqrt specSqrt 1 32 (sfuResult 2) ∧ FloatComputes .ex2 specEx2 1 32 (sfuResult 3) ∧
  FloatComputes .lg2 specLg2 1 32 (sfuResult 4) ∧ FloatComputes .sin specSin 1 32 (sfuResult 5) ∧
  FloatComputes .cos specCos 1 32 (sfuResult 6) ∧ FloatComputes .tanh specTanh 1 32 (sfuResult 7)) ∧
  (
  FloatComputes .cvt specCvt 2 0 (fun _ => cvtResult) ∧
  (∀ s x q, Ready specCvtMx s x q → ∃ g1 g, WritesV q.g g1 (Issue.dest x) q.on (mxElem q) ∧
    WritesU g1 g (Issue.src3 x) (BitVec.ofNat 32 ((mxScale q 0).1 + if mxHalves (Issue.md x) then 256 * (mxScale q 16).1 else 0)) ∧
    exec (.cvtMx x) s = .next (match nanOf q.on 2 (mxCause q) with
      | none => issued s (atIssue s q) q g (q.g.pc + 8)
      | some i => issued s (reportNan specCvtMx (atIssue s q) q g i).1 q (reportNan specCvtMx (atIssue s q) q g i).2 (q.g.pc + 8)))) ∧
  (
  ∀ sp d q g i, let r := reportNan sp d q g i
    (∀ l, mget d.launches q.b.launch = some l → ∃ l', mget r.1.launches q.b.launch = some l' ∧ l'.nan = l.nan + 1 ∧
      l'.nanFirst = true ∧ (l.nanFirst = true → l'.nanNotice = l.nanNotice)) ∧
    { r.1 with launches := d.launches, ended := d.ended } = d ∧
    (q.g.trapNan = false → r.2 = g) ∧
    (q.g.trapNan = true → ∃ f, r.2 = { g with trapNan := false, late := g.late ++ [f] } ∧
      f.cls = .nanTrap ∧ f.mask = i.mask ∧ f.iseq = q.g.iseq ∧ f.pc = q.g.pc))

/-! ### Huval instructions: control -/

/-- 03 R107; 04 R116, R135-R137: the control instructions that go on to the next word or to a target, and the time reads.
A `call` leaves PC + 8 in its u pair. `rdclk` gives the core's cycle count, which has gone on by an open number of cycles.
The model's own readings and choices in it: log entries 19, 167. -/
def Obligations.ControlResults : Prop :=
  (∀ s x q, Ready specNop s x q → exec (.nop x) s = .next (issued s (atIssue s q) q q.g (q.g.pc + 8))) ∧
  (∀ s x q, Ready specIsync s x q → exec (.isync x) s =
    .next (issued s ((atIssue s q).setCore q.c { (atIssue s q).core q.c with icache := [], fetchBuf := [] }) q q.g (q.g.pc + 8))) ∧
  (∀ s x q, Ready specTrap s x q → exec (.trap x) s = .next (issued s (atIssue s q) q
    { q.g with
      trapNan := if Issue.imm26 x % 2 = 1 then Issue.imm26 x / 4 % 2 == 1 else q.g.trapNan
      trapSat := if Issue.imm26 x / 2 % 2 = 1 then Issue.imm26 x / 4 % 2 == 1 else q.g.trapSat } (q.g.pc + 8))) ∧
  (∀ s x q, Ready specCall s x q → exec (.call x) s = .next (issued s (atIssue s q) q
    (q.g.wrUPair (Issue.dest x) (q.g.pc + 8)) (q.g.pc + BitVec.ofInt 64 (8 * sext 26 (Issue.b x 25 0))))) ∧
  (∀ s x q, Ready specRet s x q → (q.g.rdPair 1 (Issue.src1 x) 0).toNat % 8 = 0 →
    exec (.ret x) s = .next (issued s (atIssue s q) q q.g (q.g.rdPair 1 (Issue.src1 x) 0))) ∧
  (∀ s x q, Ready specRdbeat s x q → exec (.rdbeat x) s =
    .next (issued s (atIssue s q) q (q.g.wrUPair (Issue.dest x) (BitVec.ofNat 64 s.alm.beat)) (q.g.pc + 8))) ∧
  (∀ s x q, Ready specRdclk s x q → ∃ k : Nat, 0 < k ∧
    let clk := (s.body.data.core q.c).clk + BitVec.ofNat 64 k
    exec (.rdclk x) s = .next (issued s
      { (atIssue s q).setCore q.c { (atIssue s q).core q.c with clk := clk } with free := s.body.data.free + 1 } q
      (q.g.wrUPair (Issue.dest x) clk) (q.g.pc + 8)))

/-- 03 R78, R80; 04 R135: `bra`. All active threads guarded on: to the target. None: on. Else, with room on the stack, the
fall-through threads go on and an entry keeps the others at the target. 03 R79; 04 R135: `brx` when the targets of the
active threads are aligned. The threads that share the lowest active thread's target go there. Others stay pending at the
branch, in a new entry, or in the top one when this branch resumes. The model's own readings and choices in it: log entry
167. -/
def Obligations.Branches : Prop :=
  (
  ∀ s x q, Ready specBra s x q →
    let tgt := q.g.pc + BitVec.ofInt 64 (8 * sext 26 (Issue.b x 25 0))
    let rpc := q.g.pc + BitVec.ofInt 64 (8 * sext 24 (Issue.b x 49 26))
    (q.on = 0 → exec (.bra x) s = .next (issued s (atIssue s q) q q.g (q.g.pc + 8))) ∧
    (q.on ≠ 0 → q.g.active &&& ~~~q.on = 0 → exec (.bra x) s = .next (issued s (atIssue s q) q q.g tgt)) ∧
    (q.on ≠ 0 → q.g.active &&& ~~~q.on ≠ 0 → q.g.stack.length < 32 →
      exec (.bra x) s = .next (issued s (atIssue s q) q
        { q.g with
          active := q.g.active &&& ~~~q.on
          stack := { rpc := rpc, origMask := q.g.active, pendPc := tgt, pendMask := q.on } :: q.g.stack } (q.g.pc + 8)))) ∧
  (
  ∀ s x q, Ready specBrx s x q → ∀ t0 ts, threads q.g.active = t0 :: ts →
    (∀ t ∈ t0 :: ts, (brxTarget q t).toNat % 8 = 0) →
    let same := maskOf fun t => bit q.g.active t && brxTarget q t == brxTarget q t0
    let rest := q.g.active &&& ~~~same
    let rpc := q.g.pc + BitVec.ofInt 64 (8 * sext 26 (Issue.b x 25 0))
    (rest = 0 → exec (.brx x) s = .next (issued s (atIssue s q) q q.g (brxTarget q t0))) ∧
    (rest ≠ 0 → ∀ e es, q.g.stack = e :: es → e.pendMask = 0 → e.pendPc = q.g.pc → e.rpc = rpc →
      exec (.brx x) s = .next (issued s (atIssue s q) q
        { q.g with active := same, stack := { e with pendMask := rest } :: es } (brxTarget q t0))) ∧
    (rest ≠ 0 → q.g.stack.length < 32 →
      (∀ e, q.g.stack.head? = some e → ¬(e.pendMask = 0 ∧ e.pendPc = q.g.pc ∧ e.rpc = rpc)) →
      exec (.brx x) s = .next (issued s (atIssue s q) q
        { q.g with
          active := same
          stack := { rpc := rpc, origMask := q.g.active, pendPc := q.g.pc, pendMask := rest } :: q.g.stack }
        (brxTarget q t0))))

/-- 03 R78, steps 3 to 5: where a group goes on. Off the top entry's RPC with threads left it stays; at the RPC, or with no
thread left, it switches to the pending path, or rejoins. -/
def Obligations.Reconvergence : Prop :=
  (∀ (g : Group) pc, (∀ e es, g.stack = e :: es → pc ≠ e.rpc ∧ g.active ≠ 0) →
    g.advance pc = { g with pc := pc, iseq := g.iseq + 1 }) ∧
  (∀ (g : Group) pc e es, g.stack = e :: es → pc = e.rpc ∨ g.active = 0 → e.pendMask ≠ 0 → e.pendPc ≠ e.rpc →
    g.advance pc = { g with pc := e.pendPc, active := e.pendMask, stack := { e with pendMask := 0 } :: es, iseq := g.iseq + 1 }) ∧
  (∀ (g : Group) pc e es, g.stack = e :: es → pc = e.rpc ∨ g.active = 0 → e.pendMask = 0 → e.origMask ≠ 0 →
    (∀ f fs, es = f :: fs → e.rpc ≠ f.rpc) →
    g.advance pc = { g with pc := e.rpc, active := e.origMask, stack := es, iseq := g.iseq + 1 })

/-- 03 R70, R78, R103; 08 R251: `exit` takes the threads guarded on from every mask of its group; the last threads' exit
waits for what the group has issued, and has its posted writes to host windows confirmed. `yield.t` parks after itself
when a pass waits for its core, and else does nothing. The model's own readings and choices in it: log entries 178, 186.
-/
def Obligations.ExitAndYield : Prop :=
  (∀ s x q, Ready specExit s x q →
    (allLeft (leave q.g q.on) = true → q.g.late = [] ∧ s.body.data.reqsOf q.c q.s q.g = [] ∧ arrOf (s.body.data.core q.c) q.s q.g = []) →
    exec (.exit x) s = .next (issued s (atIssue s q) q (leave q.g q.on) (q.g.pc + 8))) ∧
  (∀ s x q, Ready specExit s x q → allLeft (leave q.g q.on) = true →
    q.g.late ≠ [] ∨ s.body.data.reqsOf q.c q.s q.g ≠ [] ∨ arrOf (s.body.data.core q.c) q.s q.g ≠ [] →
    exec (.exit x) s = .next (waiting s ((atIssue s q).confirm q.c q.s q.g) q q.g)) ∧
  (∀ s x q, Ready specYieldT s x q → (∀ a w, (s.body.data.core q.c).pass ≠ .deferral a w) →
    (∀ a, (s.body.data.core q.c).pass ≠ .forced a) →
    exec (.yieldT x) s = .next (issued s (atIssue s q) q q.g (q.g.pc + 8))) ∧
  (∀ s x q a w, Ready specYieldT s x q → (s.body.data.core q.c).pass = .deferral a w → ∃ t h,
    exec (.yieldT x) s = .next t ∧ t.body.data.group q.c q.s = some h ∧ h.st = .yieldPark ∧ h.act = false ∧
      h = { q.g.advance (q.g.pc + 8) with st := .yieldPark, act := false } ∧
      (t.body.data.core q.c).pass = .deferral a (some (w.getD s.alm.beat)))

/-! ### Huval instructions: memory -/

/-- 03 R81-R83, R87; 04 R123; 07 R220: `ld`, none of whose threads faults and whose lines find room in the fabric engine.
The group goes on; one request enters for each distinct line that is no hit in the near cache (hits are of `.ro` only), in
order of the lowest thread that touches it. Every thread whose bytes lie in the bench or in a hit line has its registers
at once. Lines of the near cache whose parity is in error are given up and counted, and none is a hit. No memory changes.
The model's own readings and choices in it: log entries 27, 34, 186. -/
def Obligations.Loads : Prop :=
  ∀ s x q, Ready specLd s x q →
    let d := atIssue s q
    let l := placed d (memSpace x) (memAcc d q)
    let n := sizeBytes (memSize x)
    accFault (memAcc d q) = none → (linesOf l).length ≤ d.freeEntries q.c →
    ∃ g d' new, ∃ hits : List (Nat × Target), exec (.ld x) s = .next (issued s d' q g (q.g.pc + 8)) ∧
      Enters (nearLost d q.c x (linesOf l)) d' new (linesOf l).length ∧ d'.bench = d.bench ∧
      (x.nearParity = false → nearLost d q.c x (linesOf l) = d) ∧ (x.nearParity = true → hits = [] ∧
        ∀ e ∈ linesOf l, roLine x e.2 = true → mget ((nearLost d q.c x (linesOf l)).core q.c).near (e.1 / 128) = none) ∧
      { g with v := q.g.v, u := q.g.u } = q.g ∧
      new.map (fun r => (r.addr, r.tgt)) = (linesOf l).filter (fun e => !hits.contains e) ∧
      (∀ r ∈ new, Requested q l (fun _ => 0) (fun _ => 0) r ∧
        ∃ ro, r.op = .load ro (memCache x == 2) (memSize x) (Issue.dest x) (memDu x) ∧ (ro = true → memCache x = 1)) ∧
      (∀ e ∈ benchAcc l, ∀ i < sizeRegs (memSize x), Issue.dest x + i < 255 →
        some (g.rd (if memDu x then 1 else 0) (Issue.dest x + i) e.1) =
          (loadWords (memSize x) ((List.range n).map fun j => s.body.data.rdB (e.2 + j)))[i]?) ∧
      (∀ h ∈ hits, h ∈ linesOf l → memCache x = 1 ∧ ∃ cp, mget (s.body.data.core q.c).near (h.1 / 128) = some cp ∧
        ∀ a ∈ inLine l h.1, ∀ i < sizeRegs (memSize x), Issue.dest x + i < 255 →
          some (g.rd (if memDu x then 1 else 0) (Issue.dest x + i) a.t) =
            (loadWords (memSize x) ((cp.data.drop (a.a % 128)).take n))[i]?)

/-- 03 R82; 04 R123: `st`, none of whose threads faults and whose lines find room. Bench bytes are written at once, the
higher-numbered thread's where two threads store to one byte, and no other byte of the bench changes; one masked request
enters for each distinct line. No register changes, and no other memory. The model's own readings and choices in it: log
entries 34, 186. -/
def Obligations.Stores : Prop :=
  ∀ s x q, Ready specSt s x q →
    let d := atIssue s q
    let l := placed d (memSpace x) (storeAcc d q)
    let n := sizeBytes (memSize x)
    let val t := storeBytes q.g (memDu x) (Issue.dest x) (memSize x) t
    accFault (storeAcc d q) = none → (linesOf l).length ≤ d.freeEntries q.c →
    ∃ d' new, exec (.st x) s = .next (issued s d' q q.g (q.g.pc + 8)) ∧ Enters d d' new 0 ∧
      new.map (fun r => (r.addr, r.tgt)) = linesOf l ∧
      (∀ r ∈ new, Requested q l (fun _ => 0) (fun _ => 0) r ∧ ∃ m, r.op = .store m ∧
        (∀ k, (∀ a ∈ inLine l r.addr, k < a.a % 128 ∨ a.a % 128 + n ≤ k) → mget m k = none) ∧
        (∀ a ∈ inLine l r.addr, ∀ i < n,
          (∀ b ∈ inLine l r.addr, a.t < b.t → a.a % 128 + i < b.a % 128 ∨ b.a % 128 + n ≤ a.a % 128 + i) →
          mget m (a.a % 128 + i) = (val a.t)[i]?)) ∧
      (∀ k, outsideAll n k (benchAcc l) → d'.rdB k = s.body.data.rdB k) ∧
      (∀ e ∈ benchAcc l, ∀ i < n, outsideAll n (e.2 + i) ((benchAcc l).filter fun f => decide (e.1 < f.1)) →
        some (d'.rdB (e.2 + i)) = (val e.1)[i]?)

/-- 03 R84; 04 R124, R127: `atom`, none of whose threads faults, whose release conditions hold and whose lines find room. One
request enters for each distinct line, with the operands of its threads. A bench atomic of one thread is done at once: the
old value in its destination, the new one in the bench. Bytes outside stay. 04 R124, Table 11: what an atomic leaves in
memory, for the integer types: add wraps, minimum and maximum are those of the type, compare-and-swap writes the new value
where the operand equals the old. The model's own readings and choices in it: log entry 45. -/
def Obligations.Atomics : Prop :=
  (
  ∀ s x q, Ready specAtom s x q →
    let d := (fenceTry (atIssue s q) q (atomScope x)).1
    let l := placed d (atomSpace x) (atomAcc (atIssue s q) q)
    let ty := atomType x
    let opnd t := atomOpnd q.g ty (Issue.src2 x) t
    let new t := if atomAop x = 3 then atomOpnd q.g ty (Issue.src3 x) t else 0
    accFault (atomAcc (atIssue s q) q) = none → (fenceTry (atIssue s q) q (atomScope x)).2 = true →
    (linesOf l).length ≤ d.freeEntries q.c →
    ∃ d' g rs, exec (.atom x) s = .next (issued s (if 2 ≤ atomScope x ∧ linesOf l = [] then d'.dropNear q.c else d') q g (q.g.pc + 8)) ∧
      Enters d d' rs 0 ∧ { g with v := q.g.v } = q.g ∧
      rs.map (fun r => (r.addr, r.tgt)) = linesOf l ∧
      (∀ r ∈ rs, Requested q l opnd new r ∧ r.op = .atom (atomAop x) ty (atomScope x) (Issue.dest x)) ∧
      (∀ k, outsideAll (atomSize ty) k (benchAcc l) → d'.rdB k = s.body.data.rdB k) ∧
      (∀ t a, benchAcc l = [(t, a)] →
        let old := BitVec.ofNat 64 (leNat ((List.range (atomSize ty)).map fun i => s.body.data.rdB (a + i)))
        (Issue.dest x < 255 → g.rd 0 (Issue.dest x) t = old.truncate 32) ∧
        ∀ i < atomSize ty, some (d'.rdB (a + i)) = (natLe (atomSize ty) (atomNew (atomAop x) ty old (opnd t) (new t)).toNat)[i]?)) ∧
  (
  (∀ old a b : W64, (atomNew 0 0 old a b).toNat = (old.toNat + a.toNat) % 2 ^ 32) ∧
  (∀ old a b : W64, (atomNew 0 1 old a b).toNat = (old.toNat + a.toNat) % 2 ^ 32) ∧
  (∀ old a b : W64, (atomNew 0 2 old a b).toNat = (old.toNat + a.toNat) % 2 ^ 64) ∧
  (∀ old a b : W64, (atomNew 0 3 old a b).toNat = (old.toNat + a.toNat) % 2 ^ 64) ∧
  (∀ old a b : W64, (atomNew 1 0 old a b).toNat = min (old.toNat % 2 ^ 32) (a.toNat % 2 ^ 32)) ∧
  (∀ old a b : W64, (atomNew 2 0 old a b).toNat = max (old.toNat % 2 ^ 32) (a.toNat % 2 ^ 32)) ∧
  (∀ old a b : W64, (atomNew 1 2 old a b).toNat = min old.toNat a.toNat) ∧
  (∀ old a b : W64, (atomNew 2 2 old a b).toNat = max old.toNat a.toNat) ∧
  (∀ old a b : W64, (atomNew 1 1 old a b).truncate 32 =
    if (a.truncate 32 : W32).toInt < (old.truncate 32 : W32).toInt then (a.truncate 32 : W32) else old.truncate 32) ∧
  (∀ old a b : W64, (atomNew 2 1 old a b).truncate 32 =
    if (old.truncate 32 : W32).toInt < (a.truncate 32 : W32).toInt then (a.truncate 32 : W32) else old.truncate 32) ∧
  (∀ old a b : W64, (atomNew 1 3 old a b).toInt = min old.toInt a.toInt) ∧
  (∀ old a b : W64, (atomNew 2 3 old a b).toInt = max old.toInt a.toInt) ∧
  (∀ old a b : W64, atomNew 3 6 old a b = if (old.truncate 32 : W32) = a.truncate 32 then (b.truncate 32 : W32).zeroExtend 64 else old) ∧
  (∀ old a b : W64, atomNew 3 7 old a b = if old = a then b else old))

/-! ### Huval instructions: order and waiting -/

/-- 04 R125, Table 12: `fence` completes when the conditions of its scope hold, and from die scope on its core's near
cache is empty after it; else its group waits at it. At core scope the conditions are that no load or atomic of the group
is outstanding and its matrix instructions are complete. A `fence.sys` that waits, the conditions of core scope holding,
has the group's posted writes to host windows confirmed. The model's own readings and choices in it: log entries 29, 36,
186. -/
def Obligations.Fences : Prop :=
  ∀ s x q, Ready specFence s x q →
    let d := fenceTry (atIssue s q) q (Issue.b x 17 8)
    (d.2 = true → exec (.fence x) s =
      .next (issued s (if 2 ≤ Issue.b x 17 8 then d.1.dropNear q.c else d.1) q q.g (q.g.pc + 8))) ∧
    (d.2 = false → exec (.fence x) s = .next (waiting s d.1 q q.g)) ∧
    (Issue.b x 17 8 = 1 → (d.2 = true ↔
      (∀ r ∈ s.body.data.reqsOf q.c q.s q.g, (∃ m, r.op = .store m) ∨ ∃ c n, r.op = .desc c n) ∧ arrOf (s.body.data.core q.c) q.s q.g = [])) ∧
    (Issue.b x 17 8 = 4 → d.2 = false → fenceCore (s.body.data.reqsOf q.c q.s q.g) (s.body.data.core q.c) q.s q.g = true →
      d.1 = (atIssue s q).confirm q.c q.s q.g ∧ ∀ r ∈ d.1.reqsOf q.c q.s q.g, r.isPosted = false)

/-- 03 R88; 04 R127: `bar.sync` and `bar.arrive` on barriers 0 to 3 whose release conditions hold. An arrival that does not
reach the count is counted; a `bar.sync` waits then. One that reaches it frees the barrier, and `bar.sync` goes on. 03 R90;
04 R127, R128: die and package counters of the plot's grant. `arrive`, its release conditions holding, adds its operand,
wrapping; `wait` completes when the counter less its operand is not negative as a signed number, its core's near cache then
empty, and else its group waits for the counter. The model's own readings and choices in it: log entry 41. -/
def Obligations.Barriers : Prop :=
  (
  (∀ s x q, Ready specBarSync s x q → Rising (s.body.data.core q.c).groups → Issue.src1 x ≤ 3 → (fenceTry (atIssue s q) q 1).2 = true →
    ∃ t g, exec (.barSync x) s = .next t ∧ t.body.data.group q.c q.s = some g ∧
      let n := (mgetD q.b.bars (Issue.src1 x) { arrived := 0, need := 0 }).arrived + 1
      let need := if Issue.src3 x = 0 then s.body.data.liveGroups q.c q.g.block else Issue.src3 x
      ((n < need → g = { q.g with st := .barSync (Issue.src1 x), act := false } ∧
          ((mget (t.body.data.core q.c).blocks q.g.block).bind fun b => mget b.bars (Issue.src1 x)) =
            some { arrived := n, need := Issue.src3 x }) ∧
        (need ≤ n → g = { q.g with st := .run, act := false }.advance (q.g.pc + 8) ∧
          ((mget (t.body.data.core q.c).blocks q.g.block).bind fun b => mget b.bars (Issue.src1 x)) = none))) ∧
  (∀ s x q, Ready specBarArrive s x q → Rising (s.body.data.core q.c).groups → Issue.src1 x ≤ 3 →
    (fenceTry (atIssue s q) q 1).2 = true → (q.g.advance (q.g.pc + 8)).active ≠ 0 →
    ∃ t g, exec (.barArrive x) s = .next t ∧ t.body.data.group q.c q.s = some g ∧ g = q.g.advance (q.g.pc + 8) ∧
      let n := (mgetD q.b.bars (Issue.src1 x) { arrived := 0, need := 0 }).arrived + 1
      let need := if Issue.src3 x = 0 then s.body.data.liveGroups q.c q.g.block else Issue.src3 x
      ((mget (t.body.data.core q.c).blocks q.g.block).bind fun b => mget b.bars (Issue.src1 x)) =
        if n < need then some { arrived := n, need := Issue.src3 x } else none)) ∧
  (
  ∀ s x q (pkg : Bool),
    let d := atIssue s q
    let k := (q.g.rd 1 (Issue.src1 x) 0).toNat
    let v := q.g.rd 1 (Issue.src2 x) 0
    let arrive := if pkg then Instr.barPkgArrive x else .barDieArrive x
    let wait := if pkg then Instr.barPkgWait x else .barDieWait x
    d.barGranted q.b.plot pkg k = true →
    (Ready (if pkg then specBarPkgArrive else specBarDieArrive) s x q → (fenceTry d q (if pkg then 3 else 2)).2 = true →
      ∃ d', exec arrive s = .next (issued s d' q q.g (q.g.pc + 8)) ∧
        d'.counterVal pkg (q.c / 84) k = s.body.data.counterVal pkg (q.c / 84) k + v ∧
        (∀ p e j, (p, (if p then 0 else e), j) ≠ (pkg, (if pkg then 0 else q.c / 84), k) → j < 1024 → k < 1024 →
          d'.counterVal p e j = s.body.data.counterVal p e j)) ∧
    (Ready (if pkg then specBarPkgWait else specBarDieWait) s x q →
      (0 ≤ (s.body.data.counterVal pkg (q.c / 84) k - v).toInt →
        exec wait s = .next (issued s (d.dropNear q.c) q q.g (q.g.pc + 8))) ∧
      ((s.body.data.counterVal pkg (q.c / 84) k - v).toInt < 0 →
        exec wait s = .next (waiting s d q { q.g with st := .counter pkg k v, act := false }))))

/-- 03 R92; 10 R300; 04 R127: `await` on a pigeonhole of the plot's grant completes at once if DOORBELL_SEQ differs from its
operand, its core's near cache then empty, and else its group waits. `ring`, its release conditions holding, adds 1 to
DOORBELL_SEQ in the header, modulo 2^32. 04 R129; 07 R219: `inv.remote` discards every read-only copy of a remote line that
overlaps its bytes, and no other; no fill of such a line is kept. The model's own readings and choices in it: log entry 42.
-/
def Obligations.DoorbellsAndInvalidation : Prop :=
  (
  (∀ s x q, Ready specAwait s x q →
    let h := (q.g.rd 1 (Issue.src1 x) 0).toNat
    let e := q.g.rd 1 (Issue.src2 x) 0
    (atIssue s q).phGranted q.b.plot h = true → ∀ n, (atIssue s q).doorbellSeq h = some n →
      (n ≠ e → exec (.await x) s = .next (issued s ((atIssue s q).dropNear q.c) q q.g (q.g.pc + 8))) ∧
      (n = e → exec (.await x) s = .next (waiting s (atIssue s q) q { q.g with st := .await h e, act := false }))) ∧
  (∀ s x q, Ready specRing s x q →
    let h := (q.g.rd 1 (Issue.src1 x) 0).toNat
    let d := (fenceTry (atIssue s q) q 3).1
    (atIssue s q).phGranted q.b.plot h = true → (fenceTry (atIssue s q) q 3).2 = true → s.body.data.abortPend = [] →
    (q.g.advance (q.g.pc + 8)).active ≠ 0 → ∀ p l d', mget d.pigeons h = some p →
      d.devRead (d.ctxPlot p.ctx) (p.ring + 16) 4 = some l →
      d.devWrite (d.ctxPlot p.ctx) (p.ring + 16) (natLe 4 ((leNat l + 1) % 2 ^ 32)) = some d' →
      exec (.ring x) s = .next (issued s d' q q.g (q.g.pc + 8)))) ∧
  (
  ∀ s x q, Ready specInvRemote s x q →
    let a := (q.g.rdPair 1 (Issue.src1 x) 0).toNat
    let n := (q.g.rd 1 (Issue.src2 x) 0).toNat
    let hit (k : Nat) : Prop := 0 < n ∧ 128 * k < a + n ∧ a < 128 * k + 128
    ∃ d', exec (.invRemote x) s = .next (issued s d' q q.g (q.g.pc + 8)) ∧
      { d' with copies := (atIssue s q).copies, fills := (atIssue s q).fills } = atIssue s q ∧
      (∀ k, hit (k / 64) → mget d'.copies k = none) ∧ (∀ k, ¬hit (k / 64) → mget d'.copies k = mget s.body.data.copies k) ∧
      (∀ f ∈ d'.fills, f.remote.isSome = true → hit (f.addr / 128) → f.install = false))

/-! ### Huval instructions: the array and the engines -/

/-- 04 R130-R133; 05 R141, R142: a matrix instruction whose descriptor is legal, whose kernel holds the array and whose
extents lie in the thread block's bench enters the array's queue of four, in program order, with its descriptor as it
stands. 04 R134; 07 R221; 09 R288: an engine issue whose release conditions hold and whose engine has room. A descriptor
in the bench joins the engine's queue with the 64 bytes it has; of one in memory, the read of its line is requested. The
model's own readings and choices in it: log entries 37, 46. -/
def Obligations.MatrixAndEngineIssue : Prop :=
  (
  QueuesArr .mma specMma
    (fun q => mmaDescOk (descRegs q.g (Issue.src1 q.x)) (Issue.src2 q.x / 16) (Issue.src2 q.x % 16) (Issue.b q.x 17 8 / 2 % 2 == 1))
    (fun q => mmaExtents (descRegs q.g (Issue.src1 q.x)) (Issue.src2 q.x / 16) (Issue.src2 q.x % 16) (Issue.b q.x 17 8 / 2 % 2 == 1))
    (fun q => arrOp q .mma 0x1A0 (Issue.dest q.x) (descRegs q.g (Issue.src1 q.x)) (Issue.src2 q.x / 16) (Issue.src2 q.x % 16)
      (Issue.b q.x 17 8 % 2 == 1) (Issue.b q.x 17 8 / 2 % 2 == 1) 255) ∧
  QueuesArr .accZero specAccZero (fun _ => true) (fun _ => [])
    (fun q => arrOp q .accZero 0x1A1 (Issue.dest q.x) [] 0 0 false false 255) ∧
  QueuesArr .accSt specAccSt (fun q => drainDescOk (descRegs q.g (Issue.src2 q.x)) false)
    (fun q => drainExtents (descRegs q.g (Issue.src2 q.x)))
    (fun q => arrOp q .accSt 0x1A2 (Issue.src1 q.x) (descRegs q.g (Issue.src2 q.x)) 0 0 false false 255) ∧
  QueuesArr .accLd specAccLd (fun q => drainDescOk (descRegs q.g (Issue.src1 q.x)) true)
    (fun q => drainExtents (descRegs q.g (Issue.src1 q.x)))
    (fun q => arrOp q .accLd 0x1A3 (Issue.dest q.x) (descRegs q.g (Issue.src1 q.x)) 0 0 false false 255) ∧
  QueuesArr .accFlags specAccFlags (fun _ => true) (fun _ => [])
    (fun q => arrOp q .accFlags 0x1A4 (Issue.src1 q.x) [] 0 0 false false (Issue.dest q.x)) ∧
  QueuesArr .accClrf specAccClrf (fun _ => true) (fun _ => [])
    (fun q => arrOp q .accClrf 0x1A5 (Issue.src1 q.x) [] 0 0 false false 255)) ∧
  (
  ∀ s x q (cls : Nat), cls < 3 → Ready (engSpec cls) s x q →
    let d := (fenceTry (atIssue s q) q (if cls = 2 then 3 else 2)).1
    let a := (q.g.rdPair 1 (Issue.src1 x) 0).toNat
    let i : Instr := if cls = 0 then .courIssue x else if cls = 1 then .gleanIssue x else .rlyIssue x
    a % 64 = 0 → (fenceTry (atIssue s q) q (if cls = 2 then 3 else 2)).2 = true →
    ∀ n, d.pickEngine q.c cls (Issue.src3 x) = some n → (d.engine n).queue.length < 16 →
      (∀ p, placeIn (atIssue s q) (groupAgent (atIssue s q) q) 0 a = .ok (.bench p) →
        exec i s = .next (issued s
          { d with engines := mput d.engines n { d.engine n with queue := (d.engine n).queue ++
            [groupDesc q.c q.s q.b ((List.range 64).map fun i => d.rdB (p + i)) a] } } q q.g (q.g.pc + 8))) ∧
      (∀ pl e, placeIn (atIssue s q) (groupAgent (atIssue s q) q) 0 a = .ok pl → lineOf { t := 0, a := a, at_ := .ok pl } = some e →
        d.freeEntries q.c ≠ 0 → ∃ d' r, exec i s = .next (issued s d' q q.g (q.g.pc + 8)) ∧ Enters d d' [r] 0 ∧ d'.bench = d.bench ∧
          r.op = .desc cls (Issue.src3 x) ∧ (r.addr, r.tgt) = e ∧ r.lanes.map (fun l => l.off) = [a % 128]))

/-! ### Huval instructions: faults and frames -/

/-- 03 R69, R75-R77, R95, R106; 04 R110, R111: what comes before an instruction's own effect, for every Huval instruction.
A group that may not issue does nothing, nor does one that has fetched another word. An illegal word, or one of no
instruction, parks its group. A group-wide word guarded off goes on without effect. A v register at or beyond regs_alloc
is OPERAND_RANGE. A pending write, or an atomic that acquires, holds the group, which leaves the active set where a
request is what it waits for. A group takes a free active entry only where no older one is ready for it. After an
instruction the bundle of its group's next one has been fetched, and what has been fetched is not read again. The model's
own readings and choices in it: log entries 2, 20, 24, 25, 30, 167, 178. -/
def Obligations.IssueChecks : Prop :=
  (∀ (d : Data) (k : Core) (g : Group), g.act = false → (∃ e ∈ k.groups, readyPending d e.2 = true ∧ k.rank e.2 < k.rank g) → canIssue d k g = false) ∧
  (∀ d c s g, g.active ≠ 0 → (mget (mgetD ((putGroup d c s g).core c).fetchBuf s []) (g.pc.toNat / 64)).isSome = true) ∧
  (∀ (d : Data) c s plot a, (mget (mgetD (d.core c).fetchBuf s []) a).isSome = true → d.fetch1 c s plot a = d) ∧
  (∀ sp x, x.code.isSome = true → illegal sp x = true) ∧
  ∀ i sp x, huvalOf i = some (sp, x) → ∀ s,
    (issueCtx s.body.data s.alm.beat x = none → exec i s = .next s) ∧
    (∀ q, issueCtx s.body.data s.alm.beat x = some q → fetchOk sp (atIssue s q) q = false → exec i s = .next s) ∧
    ∀ q, issueCtx s.body.data s.alm.beat x = some q → fetchOk sp (atIssue s q) q = true →
      (illegal sp x = true → exec i s = .next (parked s sp q .illegal q.g.active 0)) ∧
      (illegal sp x = false → sp.wide x = true → q.on = 0 → Issue.guard x ≠ 0 →
        exec i s = .next (issued s (atIssue s q) q q.g (q.g.pc + 8))) ∧
      (illegal sp x = false → (sp.wide x && q.on == 0 && Issue.guard x != 0) = false →
        ((sp.refs x).any (refBeyond q.b.regsAlloc) = true → exec i s = .next (parked s sp q .operandRange q.on 0)) ∧
        ((sp.refs x).any (refBeyond q.b.regsAlloc) = false →
          (((sp.refs x).any fun r => (s.body.data.pending q.c q.s q.k q.g).any (refMeets r)) ||
            (sp.mem && s.body.data.acquiring q.c q.s q.g)) = true →
          let d := if waitsReq sp (atIssue s q) q = true then (atIssue s q).stall q.c q.s q.g else (atIssue s q).setGroup q.c q.s q.g
          exec i s = .next { s with body := { s.body with data := d } }))

/-- 03 R80, R81, R95; 04 R108, R131: the faults of an instruction's own operands. Misaligned, out of the bench and out of the
plot accesses of `ld`, `st` and `atom`, for the class, threads and address of the highest; a misaligned `ret`; a divergent
branch on a full stack; a matrix instruction with a bad descriptor, without the array, or beyond the bench; a barrier above
3; a counter or pigeonhole that is not the plot's; a misaligned engine descriptor. 03 R95, R98: an issue-time fault leaves
the instruction without effect. Its group is parked with its registers and its PC as they were, no byte of memory or of a
bench changes, and its context holds one record more, which names the class, the threads, the address and the PC. The model's
own readings and choices in it: log entries 46, 47. -/
def Obligations.IssueTraps : Prop :=
  (
  (∀ s x q c m a, Ready specLd s x q → accFault (memAcc (atIssue s q) q) = some (c, m, a) →
    exec (.ld x) s = .next (parked s specLd q c m a)) ∧
  (∀ s x q c m a, Ready specSt s x q → accFault (storeAcc (atIssue s q) q) = some (c, m, a) →
    exec (.st x) s = .next (parked s specSt q c m a)) ∧
  (∀ s x q c m a, Ready specAtom s x q → accFault (atomAcc (atIssue s q) q) = some (c, m, a) →
    exec (.atom x) s = .next (parked s specAtom q c m a)) ∧
  (∀ s x q, Ready specRet s x q → (q.g.rdPair 1 (Issue.src1 x) 0).toNat % 8 ≠ 0 →
    exec (.ret x) s = .next (parked s specRet q .align q.g.active (q.g.rdPair 1 (Issue.src1 x) 0))) ∧
  (∀ s x q, Ready specBra s x q → q.on ≠ 0 → q.g.active &&& ~~~q.on ≠ 0 → 32 ≤ q.g.stack.length →
    exec (.bra x) s = .next (parked s specBra q .divOverflow q.g.active 0)) ∧
  (∀ s x q, Ready specMma s x q →
    let l := descRegs q.g (Issue.src1 x)
    let b16 := Issue.b x 17 8 / 2 % 2 == 1
    (mmaDescOk l (Issue.src2 x / 16) (Issue.src2 x % 16) b16 = false → exec (.mma x) s = .next (parked s specMma q .illegal q.on 0)) ∧
    (mmaDescOk l (Issue.src2 x / 16) (Issue.src2 x % 16) b16 = true → claimed s.body.data q = false →
      exec (.mma x) s = .next (parked s specMma q .arrayUnavailable q.on 0)) ∧
    (mmaDescOk l (Issue.src2 x / 16) (Issue.src2 x % 16) b16 = true → claimed s.body.data q = true →
      extentsOk q (mmaExtents l (Issue.src2 x / 16) (Issue.src2 x % 16) b16) = false →
      exec (.mma x) s = .next (parked s specMma q .benchRange q.on 0))) ∧
  (∀ s x q, 3 < Issue.src1 x →
    (Ready specBarSync s x q → exec (.barSync x) s = .next (parked s specBarSync q .operandRange q.on 0)) ∧
    (Ready specBarArrive s x q → exec (.barArrive x) s = .next (parked s specBarArrive q .operandRange q.on 0))) ∧
  (∀ s x q, (atIssue s q).phGranted q.b.plot (q.g.rd 1 (Issue.src1 x) 0).toNat = false →
    (Ready specAwait s x q → exec (.await x) s = .next (parked s specAwait q .carveOut q.on 0)) ∧
    (Ready specRing s x q → exec (.ring x) s = .next (parked s specRing q .carveOut q.on 0))) ∧
  (∀ s x q, (q.g.rdPair 1 (Issue.src1 x) 0).toNat % 64 ≠ 0 →
    let a := BitVec.ofNat 64 (q.g.rdPair 1 (Issue.src1 x) 0).toNat
    (Ready specCourIssue s x q → exec (.courIssue x) s = .next (parked s specCourIssue q .align q.on a)) ∧
    (Ready specGleanIssue s x q → exec (.gleanIssue x) s = .next (parked s specGleanIssue q .align q.on a)) ∧
    (Ready specRlyIssue s x q → exec (.rlyIssue x) s = .next (parked s specRlyIssue q .align q.on a)))) ∧
  (
  ∀ s sp x q cls m a, issueCtx s.body.data s.alm.beat x = some q →
    let t := parked s sp q cls m a
    t.body.data.group q.c q.s = some { q.g with st := .faultPark, act := false } ∧
      t.body.data.mem = s.body.data.mem ∧ t.body.data.bench = s.body.data.bench ∧ t.body.data.reqs = s.body.data.reqs ∧
      (∀ c, mget s.body.data.ctxs q.b.ctx = some c → ∃ r, mget t.body.data.ctxs q.b.ctx = some { c with held := c.held ++ [r] } ∧
        r.cls = cls ∧ r.mask = m ∧ r.addr = a ∧ r.pc = q.g.pc ∧ r.resume = q.g.pc ∧ r.core = q.c ∧ r.slot = q.s ∧
        r.beat = s.alm.beat ∧ r.mode = if cls = .align ∨ cls = .benchRange ∨ cls = .carveOut then .instr else .none) ∧
      (∀ l, mget s.body.data.launches q.b.launch = some l →
        mget t.body.data.launches q.b.launch = some { l with faults := l.faults + 1 }))

/-- Every Huval instruction answers a next state, and changes nothing but the data plane: no queue, Almanac, lease latch,
management plane, port, fabric, power, health, log, flash or module register. A computing instruction that is ready leaves
every byte of memory and of the benches, every request, object, launch's nodes, engine and barrier counter, and every other
group of every core as they were. -/
def Obligations.HuvalFrames : Prop :=
  (
  ∀ i sp x, huvalOf i = some (sp, x) → ∀ s, ∃ d, exec i s = .next { s with body := { s.body with data := d } }) ∧
  (
  ∀ i sp x, huvalOf i = some (sp, x) → computing sp = true → ∀ s q t, Ready sp s x q → exec i s = .next t →
    (t.body.data.group q.c q.s).isSome = true →
    t.body.data.mem = s.body.data.mem ∧ t.body.data.bench = s.body.data.bench ∧ t.body.data.reqs = s.body.data.reqs ∧
      t.body.data.objs = s.body.data.objs ∧ t.body.data.engines = s.body.data.engines ∧
      t.body.data.dieBar = s.body.data.dieBar ∧ t.body.data.pkgBar = s.body.data.pkgBar ∧
      (∀ c k, (c, k) ≠ (q.c, q.s) → t.body.data.group c k = s.body.data.group c k))

/-! ### Cores: what happens to groups between their instructions -/

/-- 03 R68: the start state of group `i` of a thread block: the thread's number in v0, the words of R68 in u0 to u7, every
other register and predicate zero, all threads active, the stack empty, the PC at the kernel's entry. 03 R66, R72, R104;
10 R311: the next thread block of a dispatched kernel goes to the core that `pickCore` takes of the plot's cores with
room: the lowest free block slot, the next number, the kernel's entry and slip, group slots and bench granules that were
free. The core's near cache is empty, and one more of the node's blocks is placed. The model's own readings and choices in
it: log entries 17, 40, 59, 178. -/
def Obligations.Placement : Prop :=
  (
  ∀ (b : Block) (bs i age : Nat), let g := startGroup b bs i age
    (∀ t < 32, g.rd 0 0 t = BitVec.ofNat 32 (32 * i + t)) ∧ (∀ n t, 0 < n → t < 32 → g.rd 0 n t = 0) ∧
      g.rd 1 0 0 = b.slip.truncate 32 ∧ g.rd 1 1 0 = (b.slip >>> 32).truncate 32 ∧ g.rd 1 2 0 = BitVec.ofNat 32 b.index ∧
      g.rd 1 3 0 = BitVec.ofNat 32 i ∧ g.rd 1 4 0 = BitVec.ofNat 32 b.groups ∧ g.rd 1 5 0 = BitVec.ofNat 32 b.grid ∧
      g.rd 1 6 0 = BitVec.ofNat 32 b.ctx ∧ g.rd 1 7 0 = BitVec.ofNat 32 b.plot ∧ (∀ n, 8 ≤ n → g.rd 1 n 0 = 0) ∧
      (∀ n, g.rd 2 n 0 = 0) ∧ g.pc = b.entry ∧ g.active = -1 ∧ g.stack = [] ∧ g.st = .run ∧
      g.trapNan = b.traps.getLsbD 0 ∧ g.trapSat = b.traps.getLsbD 1) ∧
  (
  ∀ s id i l g n x p c, let d := s.body.data
    mget d.launches id = some l → mget d.graphs l.graph = some g → g.nodes[i]? = some n → mget l.nodes i = some x →
    mget d.plots (d.ctxPlot l.ctx) = some p → n.kind = 1 → x.st = .dispatched → x.placed < x.grid → x.aborted = false →
    l.aborted = false → l.replay = false → mayDispatch d l.ctx = true →
    pickCore d (p.cores.filter fun c => coreTakes s.body l id i n c) = some c → s.body.quiet = true →
    ∃ t bs b l', exec (.threadBlockPlace id i) s = .next t ∧ freeKey (d.core c).blocks 16 = some bs ∧
      mget (t.body.data.core c).blocks bs = some b ∧ b.launch = id ∧ b.node = i ∧ b.index = x.placed ∧ b.grid = x.grid ∧
      b.groups = n.groups ∧ b.entry = n.target ∧ b.slip = x.slip ∧ b.ctx = l.ctx ∧ b.plot = d.ctxPlot l.ctx ∧
      b.bench.length = benchAlloc n ∧ (∀ k ∈ b.bench, ∀ e ∈ (d.core c).blocks, k ∉ e.2.bench) ∧
      (t.body.data.core c).near = [] ∧ mget t.body.data.launches id = some l' ∧
      l'.nodes = mmod l.nodes i (fun z => { z with placed := z.placed + 1 }) ∧
      (∀ c', c' ≠ c → t.body.data.core c' = d.core c'))

/-- 03 R77, R87, R96; 07 R220: the active entry that a group has held for 1,024 cycles goes to the oldest that waits. A
load's answer lands in its registers, and for `ld.ro` in the near cache; an atomic's old values land, and from die scope
on empty the near cache; an acknowledged store is done; a failed request stops its group with a late fault of its class.
The model's own readings and choices in it: log entries 27, 34. -/
def Obligations.CoreEvents : Prop :=
  (∀ s core slot g k h, let c := s.body.data.core core
    mget c.groups slot = some g → g.act = true → 8 ≤ mcount c.groups (fun _ h => h.act) →
    oldestOf c (c.groups.filter fun e => readyPending s.body.data e.2) = some (k, h) →
    Acts (.activeEntryTimeout core slot) s (s.body.data.setCore core
      { c with groups := mput (mput c.groups slot { g with act := false }) k { h with act := true } })) ∧
  (∀ s req r g data olds vol size dest du, s.body.data.req req = some r → s.body.data.reqGroup r = some g →
    r.stage = .returned data olds → r.op = .load false vol size dest du →
    Acts (.memResponse req) s ((s.body.data.setGroup r.core r.slot (landLoad g r size dest du data)).dropReq r.id)) ∧
  (∀ s req r g data olds vol size dest du, s.body.data.req req = some r → s.body.data.reqGroup r = some g →
    r.stage = .returned data olds → r.op = .load true vol size dest du →
    let d := (s.body.data.setGroup r.core r.slot (landLoad g r size dest du data)).dropReq r.id
    Acts (.memResponse req) s (d.setCore r.core { d.core r.core with
      near := nearPut (d.core r.core).near d.free (r.addr / 128) { data := data, die := r.core / 84, slice := 0, plot := r.plot } })) ∧
  (∀ s req r g data olds aop ty sc dest, s.body.data.req req = some r → s.body.data.reqGroup r = some g →
    r.stage = .returned data olds → r.op = .atom aop ty sc dest →
    let d := (s.body.data.setGroup r.core r.slot (landAtom g r ty dest olds)).dropReq r.id
    Acts (.memResponse req) s (if 2 ≤ sc then d.dropNear r.core else d)) ∧
  (∀ (m : SMap LineCopy) free line x, m.length < 8 ∨ (mget m line).isSome = true → nearPut m free line x = mput m line x) ∧
  (∀ s req r g, s.body.data.req req = some r → s.body.data.reqGroup r = some g → r.stage = .acked →
    Acts (.memResponse req) s (s.body.data.dropReq r.id)) ∧
  (∀ s req r g cls, s.body.data.req req = some r → s.body.data.reqGroup r = some g → r.stage = .failed cls →
    ∃ h, h.stop = true ∧ (∃ f ∈ h.late, f.iseq = r.iseq ∧ r ∈ f.ops ∧ lateRank f.cls ≤ lateRank cls) ∧
      { h with stop := g.stop, late := g.late } = g ∧
      Acts (.memResponse req) s { (s.body.data.setGroup r.core r.slot h).dropReq r.id with free := s.body.data.free + 1 })

/-- 03 R96, R98; 05 R157: a group with late faults and nothing outstanding stops and parks; its context holds one record
more for each faulted instruction, in program order. The next held record goes into the ring when its entry is free: the
record, then WRITE_SEQ, then one more in the fault event. The model's own readings and choices in it: log entries 31, 32,
179. -/
def Obligations.FaultRecords : Prop :=
  (∀ s core slot g b c, let d := s.body.data
    d.group core slot = some g → g.late ≠ [] → d.reqsOf core slot g = [] → arrOf (d.core core) slot g = [] →
    (∀ n, g.st ≠ .barSync n) → mget (d.core core).blocks g.block = some b → mget d.ctxs b.ctx = some c → s.body.quiet = true →
    ∃ t rs c', exec (.lateFaultPark core slot) s = .next t ∧
      t.body.data.group core slot = some { g with st := .faultPark, act := false, stop := false, late := [] } ∧
      mget t.body.data.ctxs b.ctx = some c' ∧ c'.held = c.held ++ rs ∧
      rs.map (fun r => (r.cls, r.pc, r.mask, r.addr, r.resume)) =
        (g.late.foldl (fun l f => insLate f l) []).map fun f =>
          (f.cls, f.pc, f.mask, f.addr, if f.cls = .satTrap then f.pc else g.pc)) ∧
  (∀ s ctx c r rest d₂ d₃, mget s.body.data.ctxs ctx = some c → c.held = r :: rest →
    (c.writeSeq % 2 ^ 32 + 2 ^ 32 - c.freeSeq % 2 ^ 32) % 2 ^ 32 < 2 ^ c.ringLog2 →
    let c₁ := { c with held := rest, writeSeq := c.writeSeq + 1, posted := mput c.posted c.writeSeq r }
    let d₁ := { s.body.data with ctxs := mput s.body.data.ctxs ctx c₁ }
    d₁.devWrite c.plot ((c.ring + 64 * (1 + c.writeSeq % 2 ^ c.ringLog2)) % 2 ^ 40) (faultBytes c.writeSeq r) = some d₂ →
    d₂.devWrite c.plot (c.ring % 2 ^ 40) (natLe 4 (c.writeSeq + 1)) = some d₃ →
    Acts (.faultRecordWrite ctx) s (d₃.eventAdd c.faultEvent 1))

/-- 03 R90, R92, R94, R101; 04 R127: waits that end. Every group that waits on a counter that has reached its value, or on
a doorbell that has another sequence number, goes on past its wait, its core's near cache empty; a group in the hands of
the management plane, or stopped, does not, nor any on a core under a pass. The model's own readings and choices in it:
log entries 42, 166, 178. -/
def Obligations.WaitsThatEnd : Prop :=
  (∀ s pkg die k c slot g v, let d := s.body.data
    d.group c slot = some g → g.st = .counter pkg k v → g.mgmt = false → g.stop = false → inPass (d.core c) = false →
    (pkg = true ∨ c / 84 = die) → 0 ≤ (d.counterVal pkg die k - v).toInt → s.body.quiet = true →
    ∃ t, exec (.counterBarrierMet pkg die k) s = .next t ∧
      t.body.data.group c slot = some ({ g with st := .run }.advance (g.pc + 8)) ∧ (t.body.data.core c).near = [] ∧
      (∀ c' i h, d.group c' i = some h → (∀ n w, h.st ≠ .counter pkg n w) → t.body.data.group c' i = some h)) ∧
  (∀ s core ph slot g e q, let d := s.body.data
    d.doorbellSeq ph = some q → d.group core slot = some g → g.st = .await ph e → q ≠ e → g.mgmt = false → g.stop = false →
    inPass (d.core core) = false → s.body.quiet = true →
    ∃ t, exec (.awaitWake core ph) s = .next t ∧
      t.body.data.group core slot = some ({ g with st := .run }.advance (g.pc + 8)) ∧ (t.body.data.core core).near = [] ∧
      (∀ c' i h, d.group c' i = some h → (∀ x, h.st ≠ .await ph x) → t.body.data.group c' i = some h)) ∧
  (∀ s core slot g, s.body.data.group core slot = some g → s.body.quiet = true →
    let why := parkReason s.body core (((mget (s.body.data.core core).blocks g.block).map fun x => x.plot).getD 64)
    (∃ t, exec (.mgmtParkRequest core) s = .next t ∧
      t.body.data.group core slot = some (if why then { g with mgmt := true, act := false } else g)) ∧
    (∃ t, exec (.mgmtParkRelease core) s = .next t ∧
      t.body.data.group core slot = some (if why then g else { g with mgmt := false })))

/-- 03 R97, R99, R100: dispositions, after the context's fault doorbell. A REPLAY of its one posted record, of an
issue-time fault, lets the group issue again; a disposition not yet written leaves it parked. The model's own readings and
choices in it: log entries 33, 43, 182. -/
def Obligations.Dispositions : Prop :=
  ∀ s ctx c q r g (x : Byte), let d := s.body.data
    Rising d.ctxs → mget d.ctxs ctx = some c → c.rung = true → d.halted = false → c.posted = [(q, r)] → c.held = [] → r.notice = false →
    r.mode = .instr → c.writeSeq ≤ q + 2 ^ c.ringLog2 → d.recGroup r = some g →
    d.devRead (d.ctxPlot ctx) ((c.ring + 64 * (1 + q % 2 ^ c.ringLog2) + 55) % 2 ^ 40) 1 = some [x] → s.body.quiet = true →
    (x = 1 → Acts (.faultDispositionProcess ctx) s
      { d.setGroup r.core r.slot ({ g with st := .run }) with ctxs := mmod d.ctxs ctx fun y => { y with rung := false, posted := [] } }) ∧
    (x = 0 → Acts (.faultDispositionProcess ctx) s { d with ctxs := mmod d.ctxs ctx fun y => { y with rung := false } })

/-! ### The matrix array -/

/-- 04 R132, R133; 05 R145, R149: the queued instruction at position `pos` starts when no earlier one shares its set or
the bench bytes that one of both writes, and its resource is free. `acc.zero`, `acc.clrf` and `acc.flags` act then: the
set is +0, its ACC_SAT is clear, or ACC_SAT is in the u register; the others are marked as running, an `acc.st` with some
of its rows written. 05 R143, R146, R150-R152, R157: what running instructions leave when they complete: an `mma`, its
cells' sums in its set, ACC_SAT when a cell saturated; an `acc.ld`, the FP32 values it read in a set that is otherwise +0,
of float TAG with ACC_SAT clear; an `acc.st`, each covered element in its output format at its place in the bench. The
queue loses the instruction. 05 R163: a disabled tally lane keeps no sums and counts no rounding. The model's own readings
and choices in it: log entries 36, 37, 48. -/
def Obligations.ArrayOperations : Prop :=
  (
  ∀ s core pos o g b, let k := s.body.data.core core
    k.arrQ[pos]? = some o → s.body.data.halted = false → inPass k = false → o.started = false →
    (∀ e ∈ k.arrQ.take pos, arrWaits s.body.data core e o = false) → arrFree k o = true → (o.kind = .mma → s.body.md.uv = false) →
    s.body.data.arrOwner core o = some (g, b) → s.body.quiet = true → ∃ t, exec (.arrayInstrStart core pos) s = .next t ∧
      (o.kind = .accZero → (t.body.data.core core).set o.set = AccSet.empty ∧ (t.body.data.core core).arrQ = k.arrQ.eraseIdx pos) ∧
      (o.kind = .accClrf → (t.body.data.core core).set o.set = { k.set o.set with sat := false } ∧
        (t.body.data.core core).arrQ = k.arrQ.eraseIdx pos) ∧
      (o.kind = .accFlags → t.body.data.group core o.slot = some (g.wrU o.dest (if (k.set o.set).sat then 1 else 0)) ∧
        (t.body.data.core core).arrQ = k.arrQ.eraseIdx pos ∧ (t.body.data.core core).set o.set = k.set o.set) ∧
      (o.kind = .mma ∨ o.kind = .accLd →
        (t.body.data.core core).arrQ = k.arrQ.set pos { o with started := true } ∧ t.body.data.bench = s.body.data.bench ∧
        (t.body.data.core core).acc = k.acc) ∧
      (o.kind = .accSt → (t.body.data.core core).acc = k.acc ∧ ∃ n, n ≤ 64 ∧
        (t.body.data.core core).arrQ = k.arrQ.set pos { o with started := true, drained := n } ∧
        t.body.data.bench = (drainRowsSt s.body.data core b.bench (k.set o.set) o.desc 0 n).bench)) ∧
  (
  (∀ s core pos o g b, let k := s.body.data.core core
    inPass k = false → startedAt k (fun e => e.kind == .mma) = some (pos, o) → s.body.data.arrOwner core o = some (g, b) →
    s.body.quiet = true → ∃ t, exec (.arrayMmaComplete core []) s = .next t ∧
      let r := mmaRun (s.body.data.benchRd core b.bench) o (s.body.data.tallyOn b.plot) (k.set o.set)
      (t.body.data.core core).set o.set = { r.acc with sat := r.acc.sat || !r.sats.isEmpty } ∧
      (t.body.data.core core).arrQ = k.arrQ.eraseIdx pos ∧ t.body.data.bench = s.body.data.bench ∧ t.body.data.mem = s.body.data.mem) ∧
  (∀ s core pos o g b, let k := s.body.data.core core
    inPass k = false → startedAt k (fun e => e.kind == .accSt || e.kind == .accLd) = some (pos, o) → o.kind = .accLd →
    drainDescOk o.desc true = true → s.body.data.arrOwner core o = some (g, b) → s.body.quiet = true → ∃ t, exec (.arrayDrainComplete core) s = .next t ∧
      (((t.body.data.core core).set o.set).int = false ∧ ((t.body.data.core core).set o.set).sat = false ∧
          ∀ i < 64, ∀ j < 64, mgetD ((t.body.data.core core).set o.set).c (64 * i + j) 0 = if i < dw o.desc 6 % 128 ∧ j < dw o.desc 6 / 256 % 128 then
            BitVec.ofNat 32 (leNat ((List.range 4).map fun n =>
              s.body.data.benchRd core b.bench (dw o.desc 0 + i * (dw o.desc 5 % 2 ^ 19) + 4 * j + n))) else 0) ∧
      (t.body.data.core core).arrQ = k.arrQ.eraseIdx pos ∧ t.body.data.bench = s.body.data.bench ∧ t.body.data.mem = s.body.data.mem) ∧
  (∀ s core pos o g b, let k := s.body.data.core core
    inPass k = false → startedAt k (fun e => e.kind == .accSt || e.kind == .accLd) = some (pos, o) → o.kind = .accSt →
    s.body.data.arrOwner core o = some (g, b) → dw o.desc 6 % 128 = 1 → dw o.desc 6 / 256 % 128 = 1 → b.bench.Nodup →
    dw o.desc 0 + 4 ≤ 1024 * b.bench.length → o.drained = 0 → s.body.quiet = true → ∃ t, exec (.arrayDrainComplete core) s = .next t ∧
      (∀ n < outW (dw o.desc 1 % 16), some (t.body.data.benchRd core b.bench (dw o.desc 0 + n)) =
        (natLe (outW (dw o.desc 1 % 16)) (drainElem (k.set o.set) o.desc 0 0).1)[n]?) ∧
      (t.body.data.core core).arrQ = k.arrQ.eraseIdx pos ∧ t.body.data.mem = s.body.data.mem) ∧
  (∀ s core pos o g b, let k := s.body.data.core core
    inPass k = false → startedAt k (fun e => e.kind == .accSt || e.kind == .accLd) = some (pos, o) → o.kind = .accSt →
    s.body.data.arrOwner core o = some (g, b) → s.body.quiet = true → ∃ t, exec (.arrayDrainComplete core) s = .next t ∧
      t.body.data.bench = (drainRowsSt s.body.data core b.bench (k.set o.set) o.desc o.drained 64).bench)) ∧
  (
  ∀ rd o a, (mmaRun rd o false a).acc.tSum = (if o.zero then [] else a.tSum) ∧ (mmaRun rd o false a).acc.vSum = (if o.zero then [] else a.vSum) ∧
    (mmaRun rd o false a).acc.nRound = if o.zero then 0 else a.nRound)

/-- 05 R164, R165; 14 R392: the array's activity. An `mma` first in the queue of an IDLE array, with every start slot
open, begins RAMP_UP with 8 rows; a step enables or disables 8 rows; all enabled is ACTIVE, or HOLD where the queue holds
no `mma`; none is IDLE; HOLD ends in RAMP_DOWN. 05 R157; 06 R194: a launch's notice of its first saturation, and of its
first created NaN, becomes a fault record of its context, once. The model's own readings and choices in it: log entries
38, 49, 179. -/
def Obligations.RampAndNotices : Prop :=
  (
  (∀ s core, let k := s.body.data.core core
    k.arrSt = .idle → mmaNext k = true → s.body.data.halted = false → inPass k = false → s.body.md.uv = false →
    s.body.pw.mask = 0x3FF → Acts (.arrayLeaveIdle core) s (s.body.data.setCore core { k with arrSt := .rampUp, rows := 1, rampWait := false })) ∧
  (∀ s core, let k := s.body.data.core core
    (k.arrSt = .rampUp → k.rows < 8 → Acts (.arrayRampStep core) s (s.body.data.setCore core { k with rows := k.rows + 1 })) ∧
    (k.arrSt = .rampUp → 8 ≤ k.rows → Acts (.arrayRampStep core) s (s.body.data.setCore core
      { k with arrSt := if k.arrQ.any (fun o => o.kind == .mma) = true then .active else .hold })) ∧
    (k.arrSt = .rampDown → 0 < k.rows → Acts (.arrayRampStep core) s (s.body.data.setCore core { k with rows := k.rows - 1 })) ∧
    (k.arrSt = .rampDown → k.rows = 0 → Acts (.arrayRampStep core) s (s.body.data.setCore core { k with arrSt := .idle })) ∧
    (k.arrSt = .hold → Acts (.arrayHoldExpiry core) s (s.body.data.setCore core { k with arrSt := .rampDown, rows := 7 })))) ∧
  (
  ∀ s launch l c r, mget s.body.data.launches launch = some l → mget s.body.data.ctxs l.ctx = some c → s.body.quiet = true →
    (l.satNotice = some r → ∃ t c' l', exec (.satNotice launch) s = .next t ∧ mget t.body.data.ctxs l.ctx = some c' ∧
      c'.held = c.held ++ [r] ∧ mget t.body.data.launches launch = some l' ∧ l' = { l with satNotice := none, faults := l.faults + 1 }) ∧
    (l.nanNotice = some r → ∃ t c' l', exec (.nanNotice launch) s = .next t ∧ mget t.body.data.ctxs l.ctx = some c' ∧
      c'.held = c.held ++ [r] ∧ mget t.body.data.launches launch = some l' ∧ l' = { l with nanNotice := none, faults := l.faults + 1 }))

/-! ### Homes -/

/-- Every request is a group's, and none of the host waits: what a home answers, no one else has asked for. -/
def OursOnly (s : State) : Prop := (∀ q ∈ s.body.data.reqs, q.rem = none ∧ q.core < 672) ∧ s.body.host.ops = []

/-- 07 R206, R207, R212, R214; 08 R245: a request at the home of a line that its cellar slice holds and that is not lost:
one indivisible event, whoever asks. A load is answered with the line's 128 bytes; a store changes the bytes of its mask
and no others; an atomic applies its threads' operations in order and answers with the old values. 01 R34; 07 R207: a
request to a lost line, of a package that answers no other package, ends with DATA_LOST, unless it stores all 128 bytes of
a line whose channel and die are in service, which ends the loss. 07 R205, R217: while its channel is retrained, or its
slice moves, a request is held, also one to a lost line. Who waits for what is over is told. The model's own readings and
choices in it: log entries 28, 34, 35, 186, 195. -/
def Obligations.HomeRequests : Prop :=
  (∀ s req r p ev, s.body.data.req req = some r → r.stage = .waiting → r.tgt = .local p → mayArrive s.body.data r = true →
    serving s.body = true → Leaves (.homeLineRequest req ev) s
      (s.setBody (answerAll { s.body with data := serveLocal s.body.data s.alm.beat p r ev } s.alm.beat))) ∧
  (∀ (d : Data) beat p k c r, p < 2 ^ 39 → d.isLost p = false → d.sliceOf r.plot p = some k → mgetD d.slices k .inService = .inService →
    mget d.cellar (p / 128) = some c → d.req r.id = some r → let e := serveLocal d beat p r .plain
      (∀ ro vol size dest du, r.op = .load ro vol size dest du →
        e.req r.id = some { r with stage := .returned (d.rdN p 128) [] } ∧ e.mem = d.mem) ∧
      (∀ bs, r.op = .store bs → Rising bs → (∀ x ∈ bs, x.1 < 128) → e.req r.id = some { r with stage := .acked } ∧
        (∀ a, e.rd a = if p ≤ a ∧ a < p + 128 then mgetD bs (a - p) (d.rd a) else d.rd a)) ∧
      (∀ aop ty sc dest, r.op = .atom aop ty sc dest →
        e.req r.id = some { r with stage := .returned [] (atomAll d p aop ty r.lanes).2 } ∧ e.mem = (atomAll d p aop ty r.lanes).1.mem)) ∧
  (
  ∀ s req r p k c, let d := s.body.data
    d.req req = some r → r.stage = .waiting → r.tgt = .local p → p < 2 ^ 39 → mayArrive d r = true → serving s.body = true →
    OursOnly s → d.isLost p = false → d.sliceOf r.plot p = some k → mgetD d.slices k .inService = .inService →
    mget d.cellar (p / 128) = some c → s.body.quiet = true →
    ∃ t, exec (.homeLineRequest req .plain) s = .next t ∧
      (∀ ro vol size dest du, r.op = .load ro vol size dest du →
        t.body.data.req req = some { r with stage := .returned (d.rdN p 128) [] } ∧ t.body.data.mem = d.mem) ∧
      (∀ bs, r.op = .store bs → Rising bs → (∀ e ∈ bs, e.1 < 128) → t.body.data.req req = some { r with stage := .acked } ∧
        (∀ a, t.body.data.rd a = if p ≤ a ∧ a < p + 128 then mgetD bs (a - p) (d.rd a) else d.rd a)) ∧
      (∀ aop ty sc dest, r.op = .atom aop ty sc dest →
        t.body.data.req req = some { r with stage := .returned [] (atomAll d p aop ty r.lanes).2 } ∧
        t.body.data.mem = (atomAll d p aop ty r.lanes).1.mem)) ∧
  (
  ∀ s req r p, let d := s.body.data
    d.req req = some r → r.stage = .waiting → r.tgt = .local p → p < 2 ^ 39 → mayArrive d r = true → serving s.body = true →
    OursOnly s → d.isLost p = true → lineBusy d r.plot p = false →
    ((mget d.channels (physChan p)).bind fun c => c.training) = none → s.body.quiet = true →
    ∃ t, exec (.homeLineRequest req .plain) s = .next t ∧
      (fullMask r.op = false → t.body.data.req req = some { r with stage := .failed .dataLost } ∧ t.body.data.mem = d.mem) ∧
      (fullMask r.op = true → d.lost.contains (p / 128) = true → d.dieOut.contains (physDie p) = false →
        d.chanOut.contains (physChan p) = false → t.body.data.req req = some { r with stage := .acked } ∧ t.body.data.lost = srem d.lost (p / 128))) ∧
  (∀ (d : Data) beat p ev r,
    (∀ k t, d.sliceOf r.plot p = some k → mgetD d.slices k .inService = .flushing t ∨ mgetD d.slices k .inService = .returning t →
      serveLocal d beat p r ev = d) ∧
    (∀ c t, d.sliceOf r.plot p = none → mget d.channels (physChan p) = some c → c.training = some t →
      serveLocal d beat p r ev = { d with channels := mput d.channels (physChan p) { c with held := sadd c.held r.id } }))

/-- 07 R208, R214: a fill that returns good data gives every attached request the answer it has waited for; an
uncorrectable codeword fails them with DATA_LOST and marks the line lost. The fill is gone. 12 R341: the completion of a
read of a host window, of a request that waits for it: its data, or FABRIC_LOST, or DATA_LOST when poisoned. The read is
no longer outstanding. A read that confirms a posted store acknowledges it, or ends it with FABRIC_LOST. The model's own
readings and choices in it: log entries 36, 195. -/
def Obligations.FillReturns : Prop :=
  (
  ∀ s fill f, let d := s.body.data
    (d.fills.find? fun f => f.id == fill && f.remote.isNone) = some f → serving s.body = true →
    ((mget d.channels (physChan (f.line * 128))).bind fun c => c.training) = none → OursOnly s →
    d.framePend = [] → s.body.quiet = true →
    (∃ t, exec (.hbmFillReturn fill .ok) s = .next t ∧ t.body.data.mem = d.mem ∧
      t.body.data.fills = d.fills.filter (fun g => g.id != fill) ∧
      t.body.data.reqs = d.reqs.map fun r => if f.reqs.contains r.id then { r with stage := r.pre.getD r.stage, pre := none } else r) ∧
    (∃ t, exec (.hbmFillReturn fill .uncorrectable) s = .next t ∧ t.body.data.lost = sadd d.lost f.line ∧
      ∀ r ∈ t.body.data.reqs, f.reqs.contains r.id = true → r.stage = .failed .dataLost)) ∧
  (
  ∀ s req h r data, (s.body.host.reqs.find? fun r => r.id == req) = some h → h.id < 2 ^ 32 →
    s.body.data.req h.id = some r → r.stage = .attached → data.length = h.len → OursOnly s → s.body.quiet = true →
    (writes r.op = false → ∃ t, exec (.hostWindowReadCompletion req .ok data) s = .next t ∧
      t.body.data.req h.id = some { r with stage := .returned data [] } ∧ t.body.host.reqs = s.body.host.reqs.filter fun q => q.id != req) ∧
    (∃ t, exec (.hostWindowReadCompletion req .timeout data) s = .next t ∧
      t.body.data.req h.id = some { r with stage := .failed .fabricLost }) ∧
    (writes r.op = false → ∃ t, exec (.hostWindowReadCompletion req .poisoned data) s = .next t ∧
      t.body.data.req h.id = some { r with stage := .failed .dataLost }) ∧
    (writes r.op = true → ∃ t, exec (.hostWindowReadCompletion req .ok data) s = .next t ∧
      t.body.data.req h.id = some { r with stage := .acked }))

/-- 07 R205, R208: scrubbing and retraining. A clean codeword changes nothing; a corrected one is counted against its row,
and its channel's counter of the epoch goes up; an uncorrectable one marks its line lost. A retrain that trains lets its
channel go on with its held requests released. 07 R217, R219: a slice under test. Its flush done, and no fill on its way
to it, a cache slice's homes are bypassed with none of its lines left in the cellar and no copy of a remote line; at the
end of the pass it serves again. A scratch slice's bytes go to its die's save area, and come back. The model's own
readings and choices in it: log entries 81, 82, 194, 195. -/
def Obligations.ScrubAndSlices : Prop :=
  (
  (∀ s ch frame off, ch < 512 → frame < 16384 → off < 65536 → let p := ch * 2 ^ 30 + frame * 2 ^ 16 + off
    s.body.data.isLost p = false → s.body.data.halted = false → s.body.quiet = true → s.body.data.framePend = [] →
    Acts (.hbmScrubRead ch frame off .ok) s s.body.data ∧
    (∃ t, exec (.hbmScrubRead ch frame off .corrected) s = .next t ∧
      (mgetD t.body.data.corrected (0x0201 * 2 ^ 20 + ch) (0, none)).1 = (mgetD s.body.data.corrected (0x0201 * 2 ^ 20 + ch) (0, none)).1 + 1) ∧
    (∃ t, exec (.hbmScrubRead ch frame off .uncorrectable) s = .next t ∧ t.body.data.isLost p = true)) ∧
  (∀ s ch c b, mget s.body.data.channels ch = some c → c.training = some b → (c.retrains.filter fun x => x / 1000 == s.alm.beat / 1000).length < 2 →
    OursOnly s → s.body.quiet = true →
    ∃ t, exec (.hbmRetrainDone ch true) s = .next t ∧ ∃ c', mget t.body.data.channels ch = some c' ∧ c'.training = none ∧ c'.held = [] ∧
      s.alm.beat ∈ c'.retrains)) ∧
  (
  (∀ s die slice b, let k := 56 * die + slice
    isScratch s.body.data k = false → s.body.data.halted = false →
    (∀ f ∈ s.body.data.fills, fillsSlice s.body.data k f = false) → OursOnly s → s.body.quiet = true →
    (mgetD s.body.data.slices k .inService = .flushing b → ∃ t, exec (.sliceFlushDone die slice) s = .next t ∧
      mget t.body.data.slices k = some (.bypassed s.alm.beat) ∧ t.body.data.mem = s.body.data.mem ∧
      (∀ l c, mget t.body.data.cellar l = some c → c.slice ≠ k) ∧ (∀ l c, mget t.body.data.copies l = some c → 56 * c.die + c.slice ≠ k) ∧
      (∀ l c, mget s.body.data.cellar l = some c → c.slice ≠ k → mget t.body.data.cellar l = some c) ∧
      (∀ l c, mget s.body.data.copies l = some c → 56 * c.die + c.slice ≠ k → mget t.body.data.copies l = some c)) ∧
    (mgetD s.body.data.slices k .inService = .returning b → ∃ t, exec (.sliceFlushDone die slice) s = .next t ∧
      mget t.body.data.slices k = none ∧ t.body.data.mem = s.body.data.mem)) ∧
  (∀ s die slice b, let k := 56 * die + slice
    isScratch s.body.data k = true → s.body.data.halted = false → 64 ≤ (mgetD s.body.data.saveArea die []).length →
    s.body.data.fills = [] → s.body.data.framePend = [] → OursOnly s → s.body.quiet = true →
    (mgetD s.body.data.slices k .inService = .flushing b → ∃ t, exec (.scratchCopyDone die slice) s = .next t ∧
      mget t.body.data.slices k = some (.bypassed s.alm.beat) ∧ t.body.data.cores = s.body.data.cores) ∧
    (mgetD s.body.data.slices k .inService = .returning b → ∃ t, exec (.scratchCopyDone die slice) s = .next t ∧
      mget t.body.data.slices k = none ∧ t.body.data.cores = s.body.data.cores)))

/-! ### Engines and relays -/

/-- 07 R221, R224, R226; 09 R288, R289: the descriptor at the head of a courier's or gleaner's queue, and the next that
may begin of a relay's, is taken: one that fails its check ends at once with that status. When all a descriptor sent is
acknowledged and its status record, if it has one, is written, it leaves the engine, its completion is signalled, its
context's count of descriptors goes up, and its node knows its status; no other descriptor of the package being able to go
on, that is all a relay's does. The model's own readings and choices in it: log entries 65, 66, 67, 183. -/
def Obligations.EngineDescriptors : Prop :=
  (∀ s eng q rest, let n := engNo eng
    let d := s.body.data
    d.engine n = { queue := q :: rest, running := [] } → n < 128 → d.halted = false → engineInPass s.body n = false →
    (descStatus d n q ≠ 0 → Acts (.engineDescStart eng) s { d with
      nextId := d.nextId + 1
      engines := mput d.engines n { queue := rest, running := [{ EngRun.fresh q d.nextId with status := descStatus d n q, phase := 1 }] } }) ∧
    (descStatus d n q = 0 → s.body.quiet = true → ∃ t r, exec (.engineDescStart eng) s = .next t ∧
      t.body.data.engine n = { queue := rest, running := [r] } ∧ r.desc = q ∧ r.id = d.nextId)) ∧
  (∀ s eng run rs, let n := engNo eng
    let d := s.body.data
    (d.engine n).running = run :: rs → n < 128 → d.halted = false → run.outs = [] → run.desc.f 3 1 < 4 →
    run.phase = 2 ∨ run.phase = 1 ∧ statusAddr n run.desc = 0 ∧ run.got = [] →
    Acts (.engineDescComplete eng) s
      (tellNode ((signalled (d.dropRun n run.id) n run.desc).progress run.desc.ctx 24) run.desc run.status)) ∧
  (∀ s eng q rest, let n := engNo eng
    let d := s.body.data
    mayBegin d (d.engine n).running [] (d.engine n).queue = some (q, rest) → 128 ≤ n → (d.engine n).running.length < 4 →
    d.halted = false → engineInPass s.body n = false → (∀ e ∈ d.engines, ∀ r ∈ e.2.running, r.desc.f 0 1 < 4) →
    relayStatus d n q ≠ 0 → Acts (.relayDescStart eng) s { d with
      nextId := d.nextId + 1
      engines := mput d.engines n { queue := rest, running := (d.engine n).running ++
        [{ EngRun.fresh q d.nextId with status := relayStatus d n q, phase := 1 }] } }) ∧
  (∀ s eng q rest, let n := engNo eng
    let d := s.body.data
    d.engine n = { queue := q :: rest, running := [] } → 128 ≤ n → d.halted = false → engineInPass s.body n = false →
    (∀ e ∈ d.engines, e.2.running = []) → relayStatus d n q = 0 → q.f 0 1 = 1 ∨ q.f 0 1 = 2 → s.body.quiet = true →
    ∃ t r, exec (.relayDescStart eng) s = .next t ∧ t.body.data.engine n = { queue := rest, running := [r] } ∧ r.desc = q ∧ r.id = d.nextId) ∧
  (∀ s eng run, let n := engNo eng
    let d := s.body.data
    mayEnd d (d.engine n).running [] (d.engine n).running = some run → 128 ≤ n → d.halted = false → run.desc.f 0 1 < 4 → run.desc.f 3 1 < 4 →
    (∀ e ∈ d.engines, ∀ r ∈ e.2.running, r.phase ≠ 0 ∨ r.status ≠ 0) → OursOnly s →
    run.phase = 2 ∨ run.phase = 1 ∧ statusAddr n run.desc = 0 ∧ run.got = [] →
    Acts (.relayDescComplete eng) s
      (tellNode ((signalled (d.dropRun n run.id) n run.desc).progress run.desc.ctx 24) run.desc run.status))

/-! ### What the host does through its ports -/

/-- 08 R245, R250, R255; 12 R341, R348, R349: BAR2, of a reachable function. A mapped read gives the object's bytes,
poisoned where a line is lost; an unmapped one is an Unsupported Request and is counted. A mapped write goes to the lines'
homes in aligned parts of at most 8 bytes, but for a lost line that it covers; an unmapped one is only counted; a poisoned
one changes nothing. Reads and rings wait for what their function wrote and rang before, and for lines that cannot be
accessed now. 02 R42, R47; 03 R99; 12 R344-R347, Table 3: doorbells and registers, of a reachable function. A ring that
the function may make rings, and any other is counted and refused. Reads give their register; the counts of refused rings,
unmapped accesses and link events are cleared by their read; a read of the beat's low half keeps its high half. LATE_SEEN
and ROOT_CONFLICT are cleared by writing 1, through a PF. REPLY_VECTOR takes a vector that the function has. The model's
own readings and choices in it: log entries 135, 136, 142, 185. -/
def Obligations.HostRegisters : Prop :=
  (
  ∀ s fn off, s.live fn = true →
    (∀ len o x, bar2Range s.body fn off len = some (o, x) → s.body.host.ops = [] → s.body.data.busyAt o.plot (o.base + x) len = false →
      Does (.hostBar2Read fn off len) s (s.emit (.readData fn (bar2Bytes s.body.data o x len).1 (bar2Bytes s.body.data o x len).2))) ∧
    (∀ len, bar2Range s.body fn off len = none →
      Does (.hostBar2Read fn off len) s ((s.modFn fn fun r => { r with unmapped := r.unmapped + 1 }).emit (.unsupported fn))) ∧
    (∀ bytes o x, bytes ≠ [] → bar2Range s.body fn off bytes.length = some (o, x) → Makes (.hostBar2Write fn off bytes false) s fun u =>
      ∃ new, u.body.data = { s.body.data with nextId := s.body.data.nextId + new.length, reqs := s.body.data.reqs ++ new } ∧
        u.body.host.ops = s.body.host.ops ++ [⟨fn, off, bytes.length, .write (new.map fun r => r.id)⟩] ∧
        (∀ r ∈ new, r.core = fnCore (fnKey fn) ∧ r.stage = .waiting ∧ r.plot = o.plot ∧ ∃ k bs, r.op = .store bs ∧ 128 ∣ k ∧
          r.addr = s.body.data.node * 2 ^ 40 + o.base + k ∧ r.tgt = .local ((objPhys o k).getD 0) ∧ (bs.length ≤ 8 ∨ fullMask r.op = true) ∧
          ∀ y ∈ bs, y.1 < 128 ∧ x ≤ k + y.1 ∧ k + y.1 < x + bytes.length ∧ some y.2 = bytes[k + y.1 - x]?) ∧
        (∀ i < bytes.length, ∃ r ∈ new, ∃ bs, r.op = .store bs ∧ ∃ y ∈ bs, y.1 = (x + i) % 128 ∧
          r.addr = s.body.data.node * 2 ^ 40 + o.base + (x + i) / 128 * 128)) ∧
    (∀ bytes, bar2Range s.body fn off bytes.length = none →
      Does (.hostBar2Write fn off bytes false) s (s.modFn fn fun r => { r with unmapped := r.unmapped + 1 })) ∧
    (∀ bytes, Does (.hostBar2Write fn off bytes true) s (s.emit (.aer fn)))) ∧
  (
  (∀ s fn (v : BitVec 32), s.live fn = true →
    (∀ h, v.toNat < 4096 → mget s.body.data.pigeons v.toNat = some h → mayRing s.body.data fn (s.body.data.ctxPlot h.ctx) = true →
      s.body.host.ops = [] → s.body.data.busyAt (s.body.data.ctxPlot h.ctx) (h.ring + 16) 4 = false → Acts (.phRing fn v) s (s.body.data.ringPh v.toNat)) ∧
    (mget s.body.data.pigeons v.toNat = none ∧ s.body.host.ops = [] ∨ 4096 ≤ v.toNat →
      Does (.phRing fn v) s (s.modFn fn fun r => { r with refused := r.refused + 1 })) ∧
    (∀ c l, mget s.body.data.ctxs v.toNat = some c → mayRing s.body.data fn c.plot = true →
      s.body.data.devRead c.plot ((c.ring + 4) % 2 ^ 40) 4 = some l → s.body.host.ops = [] → s.body.data.busyAt c.plot (c.ring + 4) 4 = false →
      Acts (.ctxFault fn v) s { s.body.data with ctxs := mmod s.body.data.ctxs v.toNat fun y => { y with rung := true, freeSeq := leNat l } }) ∧
    (mget s.body.data.ctxs v.toNat = none → s.body.host.ops = [] → Does (.ctxFault fn v) s (s.modFn fn fun r => { r with refused := r.refused + 1 }))) ∧
  (∀ s p n h, s.live (.pf p) = true → n < 4096 → mget s.body.data.pigeons n = some h →
    (s.body.host.ops = [] → s.body.data.busyAt (s.body.data.ctxPlot h.ctx) (h.ring + 16) 4 = false →
      Acts (.phWindowWrite (.pf p) n) s (s.body.data.ringPh n)) ∧
    (∀ q, s.body.data.doorbellSeq n = some q → s.body.host.ops = [] → s.body.data.busyAt (s.body.data.ctxPlot h.ctx) h.ring 128 = false →
      Does (.phWindowRead (.pf p) n) s (s.emit (.readData (.pf p) (natLe 8 q.toNat) false)))) ∧
  (∀ s fn, s.live fn = true →
    (∀ off len, s.body.host.ops = [] →
      Does (.bar2UnmappedRead ⟨fn, some (off, len)⟩) s (s.emit (.readData fn ((List.range len).map fun i => s.bar0Byte fn (off + i)) false))) ∧
    (∀ log2, 30 ≤ log2 → log2 ≤ 40 → isPfFn fn = true → Does (.registerWrite fn .bar2Size [BitVec.ofNat 8 (log2 - 20)]) s (s.setBody { s.body with
      host := s.body.host.setPort (fnPort fn) { s.body.host.port (fnPort fn) with pfBar2Log2 := log2 } })) ∧
    Does (.bar2UnmappedRead ⟨fn, none⟩) s ((s.modFn fn fun r => { r with unmapped := 0 }).emit
      (.readData fn (natLe 4 (s.body.host.fn fn).unmapped) false)) ∧
    Does (.doorbellRefusedRead fn) s ((s.modFn fn fun r => { r with refused := 0 }).emit
      (.readData fn (natLe 4 (s.body.host.fn fn).refused) false)) ∧
    (s.bound fn = false → ∀ part, Does (.almanacBeatLowRead ⟨fn, part⟩) s (s.emit
      (.readData fn ((s.alm.readReg (s.body.host.fn fn).beatHigh part).1.map fun _ => 0) false))) ∧
    (s.bound fn = true → Does (.almanacBeatLowRead ⟨fn, .low⟩) s ((s.modFn fn fun r => { r with beatHigh := some (s.alm.beat / 2 ^ 32) }).emit
      (.readData fn (natLe 4 s.alm.beat) false)) ∧
    ∀ h, (s.body.host.fn fn).beatHigh = some h → Does (.almanacBeatLowRead ⟨fn, .high⟩) s ((s.modFn fn fun r => { r with beatHigh := none }).emit
      (.readData fn (natLe 4 h) false))) ∧
    (s.bound fn = true → Does (.almanacBeatLowRead ⟨fn, .whole⟩) s ((s.modFn fn id).emit (.readData fn (natLe 8 s.alm.beat) false)) ∧
    Does (.almanacBeatLowRead ⟨fn, .status⟩) s ((s.modFn fn id).emit (.readData fn (natLe 8 s.alm.statusWord) false)) ∧
    Does (.almanacBeatLowRead ⟨fn, .offset⟩) s ((s.modFn fn id).emit (.readData fn (natLe 4 (BitVec.ofInt 32 s.alm.offset).toNat ++
      natLe 4 s.alm.errBound) false))) ∧
    (∀ a b : BitVec 8, let v := a.toNat + 256 * b.toNat
      v % 4096 < 32 ∨ v % 4096 = 0xFFF → (s.body.host.fn fn).pba = [] → s.body.quiet = true →
      ∃ t, exec (.registerWrite fn (.bar0 0x10) [a, b]) s = .next t ∧ (t.body.host.fn fn).replyVector = v % 4096)) ∧
  (∀ (s : State) fn n, n < 4 → (s.bar0Byte fn n).toNat = s.portWord fn / 256 ^ n % 256) ∧
  (∀ (s : State) p n, s.portWord (.pf p) = fnStamp (.pf p) + 2 ^ 8 * 255 + 2 ^ 16 + (if s.body.mgdb.grants ≠ 0 then 2 ^ 17 else 0) ∧
    (vfPlot s.body.data p n = none → s.portWord (.vf p n) = 0x40 + n + 2 ^ 8 * 255 + (if s.body.mgdb.grants ≠ 0 then 2 ^ 17 else 0) ∧
      ∀ a, 0x3000 ≤ a → s.bar0Byte (.vf p n) a = 0) ∧
    ∀ plot, vfPlot s.body.data p n = some plot →
      s.portWord (.vf p n) = 0x40 + n + 2 ^ 8 * plot + 2 ^ 16 + (if s.body.mgdb.grants ≠ 0 then 2 ^ 17 else 0)) ∧
  (∀ s fn o, s.live fn = true → o.waits s.body.host.ops = true ∨ s.body.hostDo o = none → o.fn = fn →
    (∀ h : BitVec 32, o = ⟨fn, 0, 0, .ring h.toNat⟩ → h.toNat < 4096 →
      Leaves (.phRing fn h) s (s.setBody { s.body with host := { s.body.host with ops := s.body.host.ops ++ [o] } })) ∧
    (∀ n p, fn = .pf p → n < 4096 → o = ⟨fn, 0, 0, .window n⟩ →
      Leaves (.phWindowRead fn n) s (s.setBody { s.body with host := { s.body.host with ops := s.body.host.ops ++ [o] } })) ∧
    (∀ off len x, o = ⟨fn, off, len, .read⟩ → bar2Range s.body fn off len = some x →
      Leaves (.hostBar2Read fn off len) s (s.setBody { s.body with host := { s.body.host with ops := s.body.host.ops ++ [o] } }))) ∧
  (∀ s p, s.live (.pf p) = true →
    (s.body.quiet = true → ∃ t, exec (.linkEventsRead (.pf p)) s = .next t ∧ (t.body.host.port p).linkEvents = 0) ∧
    ∀ v : BitVec 64, Does (.almStatusW1c (.pf p) v) s { s with alm :=
      { s.alm with lateSeen := s.alm.lateSeen && !v.getLsbD 6, conflict := s.alm.conflict && !v.getLsbD 7 } }))

/-! ### Letters: slots, order, replies -/

/-- 13 R362, R363; 12 R357: a write to STAMP of a letter slot, of a reachable function. The ring waits for what its
function wrote and rang before; the others take effect at once. A BUSY slot drops the ring and counts it. A VF that no
plot names, and every function while the latch faults, are answered in hardware. Else the slot's reply is BUSY and its
copy, stamped, joins the acceptance queue. 13 R363, R371: the reply of a letter that came through a host port, given while
its box is as it was. It is written whole to the letter's slot with the holder and the beat, and its journal entry retires
unless it holds a ticket of the schedule. The model's own readings and choices in it: log entries 97, 105, 180, 185. -/
def Obligations.LetterRing : Prop :=
  (
  ∀ s fn slot, slot < 16 → s.body.host.live fn = true → (∀ o ∈ s.body.host.ops, o.kind.isLetter = false) →
    let h := s.body.host
    let r := h.fn fn
    let l : Letter :=
      { bytes := r.slotBytes slot, stamp := fnStamp fn, fn := some fn, slot := slot, gen := r.gen, ringBeat := s.alm.beat }
    let o : HostOp := ⟨fn, 0, 0, .letter l⟩
    ((∃ x ∈ h.ops, x.fn = fn ∧ x.kind.isRead = false) → Leaves (.letterRing fn slot) s
      { s with body := { s.body with host := { h with ops := h.ops ++ [o] } } }) ∧
    ((∀ x ∈ h.ops, x.fn = fn → x.kind.isRead = true) →
    (mgetD r.replies (256 * slot + 13) 0 = 1 → Leaves (.letterRing fn slot) s { s with body := { s.body with
      host := h.setFn fn { r with dropped := r.dropped + 1 }
      log := s.body.log.tally s.alm.beat 0x0509 (7 + 256 * fnStamp fn) [(fnStamp fn, 1), (slot, 1), (0, 2), (0, 104)] } }) ∧
    (mgetD r.replies (256 * slot + 13) 0 ≠ 1 → s.bound fn = false →
      Leaves (.letterRing fn slot) s (deliver s l (plain l 5 0xFFFF) false)) ∧
    (mgetD r.replies (256 * slot + 13) 0 ≠ 1 → s.bound fn = true → s.latch.fault = true →
      Leaves (.letterRing fn slot) s (deliver s l (plain l 0x0D 0xFFFF) false)) ∧
    (mgetD r.replies (256 * slot + 13) 0 ≠ 1 → s.bound fn = true → s.latch.fault = false → s.finish = s →
      (∀ l' ∈ (s.body.mg.accept ++ [l]).head?, hasRow l' = true) →
      ∃ u : State, exec (.letterRing fn slot) s = .next u.finish ∧ u.body.mg = { s.body.mg with accept := s.body.mg.accept ++ [l] } ∧
        mgetD (u.body.host.fn fn).replies (256 * slot + 13) 0 = 1 ∧ u.body.data = s.body.data ∧ u.body.host.out = h.out))) ∧
  (
  ∀ s jid e f res, (s.body.mg.journal.find? fun x => x.jid == jid) = some e → e.letter.fn = some f → canReply s e.letter = true →
    e.waiters = [] →
    let r : Reply :=
      { stamp := e.letter.stamp, seq := e.letter.seq, status := res.status, fieldOff := res.fieldOff,
        data := res.data.take 224, acceptBeat := e.acceptBeat, reexec := e.reexec }
    let t := reply s jid res
    (∀ i, i < 256 → mgetD (t.body.host.fn f).replies (256 * e.letter.slot + i) 0 =
      (replyBytes e.letter r false 2 (holderCode s) s.alm.beat).getD i 0) ∧
    (replyBytes e.letter r false 2 (holderCode s) s.alm.beat).length = 256 ∧
    (res.ticket = 0 → ∀ x ∈ t.body.mg.journal, x.jid ≠ jid) ∧
    (res.ticket ≠ 0 → (s.body.mg.schedule.any fun x => x.ticket == res.ticket) = true →
      ∃ x ∈ t.body.mg.journal, x.jid = jid ∧ x.reply = some r) ∧
    t.body.mg.schedule = s.body.mg.schedule ∧ t.body.mg.nextSeq = s.body.mg.nextSeq ∧ t.body.data = s.body.data ∧
    t.body.host.reqs = s.body.host.reqs ∧ t.alm = s.alm ∧ t.latch = s.latch)

/-- 13 R364, R366, R371: the letter at the front of the acceptance queue, whatever its command. One whose sequence number
is neither next nor one of the 256 before it is answered with SEQ_ERROR; a repeated one with the reply kept for it, or it
waits for the reply with the first. One that is next becomes a journal entry, and the first check that it fails gives its
status. The model's own readings and choices in it: log entries 87, 88, 98, 180. -/
def Obligations.LetterOrder : Prop :=
  (∀ i s l n, AtFront i s l → mget s.body.mg.nextSeq l.stamp = some n →
    let t := s.mg fun m => { m with accept := m.accept.tail }
    let d := (l.seq - n).toInt
    (0 < d ∨ d < -256 → exec i s = .next (deliver t l (plain l 4 0xFFFF) false).finish) ∧
    (d < 0 → -256 ≤ d → ∀ e, (s.body.mg.journal.find? fun e =>
        s.body.mg.current e && e.letter.stamp == l.stamp && e.letter.seq == l.seq && e.reply.isNone) = some e →
      exec i s = .next (t.mg fun m => { m with journal := m.journal.map fun x =>
        if x.jid = e.jid then { x with waiters := x.waiters ++ [l] } else x }).finish) ∧
    (d < 0 → -256 ≤ d → (∀ e ∈ s.body.mg.journal, (s.body.mg.current e && e.letter.stamp == l.stamp && e.letter.seq == l.seq &&
        e.reply.isNone) = false) →
      (∀ r, s.body.mg.kept l.stamp l.seq = some r → exec i s = .next (deliver t l r true).finish) ∧
      (s.body.mg.kept l.stamp l.seq = none → exec i s = .next (deliver t l (plain l 4 0xFFFF) false).finish))) ∧
  (∀ i s l st f, AtFront i s l → mget s.body.mg.nextSeq l.stamp = none ∨ mget s.body.mg.nextSeq l.stamp = some l.seq →
    refusal (taken s l) l = some (st, f) →
    exec i s = .next (reply (logDenied (taken s l) l st) s.body.mg.nextJid (Res.at_ st f)).finish) ∧
  (∀ s l, let d := s.body.data
    let len := field l.bytes 4 2
    (argBytes l.op = none → refusal s l = some (2, 0xFFFF)) ∧
    (∀ m, argBytes l.op = some m → m ≤ 224 →
      (m < len → refusal s l = some (3, 0xFFFF)) ∧
      (len ≤ m → portOk l.stamp l.op l.args = false → refusal s l = some (6, 0xFFFF)) ∧
      (len ≤ m → portOk l.stamp l.op l.args = true → ownerOk d l.stamp l.op l.args = false → refusal s l = some (7, 0xFFFF)) ∧
      (len ≤ m → portOk l.stamp l.op l.args = true → ownerOk d l.stamp l.op l.args = true → ∀ before c after,
        headChecks l ++ argChecks d l.op l.args = before ++ c :: after → (∀ b ∈ before, b.ok = true) → c.ok = false →
        refusal s l = some (if c.rsv then 8 else 9, c.off)) ∧
      (len ≤ m → portOk l.stamp l.op l.args = true → ownerOk d l.stamp l.op l.args = true →
        (∀ c ∈ headChecks l ++ argChecks d l.op l.args, c.ok = true) →
        refusal s l = (stateRefuses s l.op l.args).map fun st => (st, 0xFFFF))))

/-! ### Letters: plots and objects -/

/-- 11 R322-R330; 10 R298; 13 R496: `plot.*`, contexts, events, pigeonholes and queues. A letter that the checks pass
creates its object, under the lowest free number, with its memory written as the tables say; a drain parks a plot's groups
and its release lets them go on; a destroy waits. The model's own readings and choices in it: log entries 88, 159, 160,
161, 180, 181. -/
def Obligations.PlotLetters : Prop :=
  (∀ s l, let d := s.body.data
    let n := l.arg 0 1
    Front .plotCreate s l → s.body.mgdb.grants < 4 → mget d.plots n = none → (∀ c ∈ plotBad s l ++ plotUsed s l, c.ok = true) →
    Answered .plotCreate s fun u r => ∃ p, mget u.body.data.plots n = some p ∧ p.st = .active ∧ p.tag = l.arg 4 2 ∧
      p.vf = (if l.arg 2 1 = 255 then none else some (l.arg 3 1 == 1, l.arg 2 1)) ∧ p.cores = coresNamed l ∧ p.maxCtx = l.arg 6 2 ∧
      p.events = l.arg 8 4 ∧ p.graphs = l.arg 12 2 ∧ p.ph = (l.arg 16 2, l.arg 18 2) ∧ p.dbar = (l.arg 20 2, l.arg 22 2) ∧
      p.pbar = (l.arg 24 2, l.arg 26 2) ∧ p.tallyOff = (l.arg 1 1 == 1) ∧ (∀ i, i < 8 → p.frames[i]? = some (l.arg (48 + 4 * i) 2, l.arg (50 + 4 * i) 2)) ∧
      (∀ k ∈ p.cache ++ p.scratch, sliceUp d k = true ∧ ∀ q ∈ d.plots, k ∉ q.2.cache ∧ k ∉ q.2.scratch) ∧
      (∀ k ∈ p.scratch, ∀ a, 2 ^ 39 + k * 2 ^ 22 ≤ a → a < 2 ^ 39 + k * 2 ^ 22 + 2 ^ 22 → u.body.data.rd a = 0) ∧
      (∀ a, a < 2 ^ 39 → u.body.data.rd a = d.rd a) ∧ (∀ k, k ≠ n → mget u.body.data.plots k = mget d.plots k) ∧
      { u.body.data with plots := d.plots, mem := d.mem, lost := d.lost } = d ∧ u.alm = s.alm ∧
      r.data.take 4 = natLe 2 (p.cores.filter fun c => d.coreState c == .full).length ++
        natLe 2 (p.cores.filter fun c => d.coreState c == .arrayOff).length) ∧
  Refuses .plotCreate 0x51 0xFFFF (fun s _ => 4 ≤ s.body.mgdb.grants) ∧
  Refuses .plotCreate 0x40 0 (fun s l => s.body.mgdb.grants < 4 ∧ (mget s.body.data.plots (l.arg 0 1)).isSome = true) ∧
  (∀ p, Replies .plotDrain (fun s l => mget s.body.data.plots (l.arg 0 1) = some p ∧ p.st = .active)
    (fun s l => s.setData (parkPlot { s.body.data with plots := mput s.body.data.plots (l.arg 0 1) { p with st := .draining } } (l.arg 0 1) true))
    (fun s l => drainBytes (s.setData (parkPlot { s.body.data with plots := mput s.body.data.plots (l.arg 0 1) { p with st := .draining } } (l.arg 0 1) true))
      (l.arg 0 1) { p with st := .draining })) ∧
  (∀ p, Replies .plotDrain (fun s l => mget s.body.data.plots (l.arg 0 1) = some p ∧ (p.st = .draining ∨ p.st = .drained))
    (fun s _ => s) (fun s l => drainBytes s (l.arg 0 1) p)) ∧
  (∀ p, Replies .plotDrainRelease (fun s l => mget s.body.data.plots (l.arg 0 1) = some p ∧ (p.st = .draining ∨ p.st = .drained))
    (fun s l => s.setData (parkPlot { s.body.data with
      plots := mput s.body.data.plots (l.arg 0 1) { p with st := .active, drainedBeat := 0 } } (l.arg 0 1) false))
    (fun s l => drainBytes (s.setData (parkPlot { s.body.data with
      plots := mput s.body.data.plots (l.arg 0 1) { p with st := .active, drainedBeat := 0 } } (l.arg 0 1) false)) (l.arg 0 1) { p with st := .active })) ∧
  (∀ p, Replies .plotDrainQuery (fun s l => mget s.body.data.plots (l.arg 0 1) = some p ∧ p.st ≠ .destroying)
    (fun s _ => s) (fun s l => drainBytes s (l.arg 0 1) p)) ∧
  (∀ s l p, Front .plotDestroy s l → mget s.body.data.plots (l.arg 0 1) = some p → p.st ≠ .destroying →
    l.arg 1 1 = 1 ∨ (∀ c ∈ s.body.data.ctxs, c.2.plot ≠ l.arg 0 1) → Answered .plotDestroy s fun u r => r.later = true ∧
      mget u.body.data.plots (l.arg 0 1) = some { p with st := .destroying, reply := some s.body.mg.nextJid } ∧ u.alm = s.alm ∧ u.latch = s.latch) ∧
  Refuses .plotDestroy 0x41 0 (fun s l => mget s.body.data.plots (l.arg 0 1) = none) ∧
  (∀ s p plot, mget s.body.data.plots plot = some p → p.st = .draining → plotAtRest s.body.data plot p = true →
    Leaves (.plotDrainComplete plot) s
      ((s.setData { s.body.data with plots := mput s.body.data.plots plot { p with st := .drained, drainedBeat := s.alm.beat } }).post
        0x0805 0 [(plot, 1), (0, 3), (drainParked s.body.data plot, 4), (s.alm.beat, 8)])) ∧
  (∀ s plot p, mget s.body.data.plots plot = some p → p.st ≠ .draining ∨ plotAtRest s.body.data plot p = false →
    Leaves (.plotDrainComplete plot) s s) ∧
  (∀ s l, AtFront .plotDestroy s l → (mget s.body.mg.nextSeq l.stamp = none ∨ mget s.body.mg.nextSeq l.stamp = some l.seq) →
    refusal (taken s l) l = none → s.body.mg.plotBusy l = true → exec .plotDestroy s = .next (taken s l).finish) ∧
  (∀ s p plot, s.finish = s → mget s.body.data.plots plot = some p → p.st = .destroying →
    (∀ e ∈ s.body.data.engines, ∀ r ∈ e.2.running, r.desc.plot ≠ plot) → (∀ r ∈ s.body.data.reqs, r.plot ≠ plot) →
    (∀ c ∈ p.cores, (s.body.data.core c).pass = .none) →
    (∀ e ∈ s.body.mg.journal, e.reply = none → e.letter.op / 256 = 2 → p.reply = some e.jid) → ∃ u : State, exec (.plotTeardownFinish plot) s = .next u.finish ∧
      mget u.body.data.plots plot = none ∧ (∀ e ∈ u.body.data.ctxs, e.2.plot ≠ plot) ∧ (∀ o ∈ u.body.data.objs, o.plot ≠ plot) ∧
      (∀ o ∈ u.body.data.hws, o.plot ≠ plot) ∧ (∀ k ∈ p.scratch, ∀ a, 2 ^ 39 + k * 2 ^ 22 ≤ a → a < 2 ^ 39 + k * 2 ^ 22 + 2 ^ 22 → u.body.data.rd a = 0) ∧
      (∀ k, k ≠ plot → mget u.body.data.plots k = mget s.body.data.plots k))

/-- 10 R298; 11 R331-R338; 13 R377, R496; 07 R199-R201: contexts, events, pigeonholes, queues, memory objects and host
counts. The model's own readings and choices in it: log entries 88, 91, 92, 160, 182. -/
def Obligations.ObjectLetters : Prop :=
  (∀ s l p c e, let d := s.body.data
    let n := l.arg 0 1
    let ring := l.arg 8 8
    let prog := l.arg 16 8
    let rec_ := l.arg 24 8
    let k := l.arg 3 1
    Front .ctxCreate s l → mget d.plots n = some p → p.st ≠ .destroying → (d.ctxs.filter fun c => c.2.plot == n).length < p.maxCtx →
    plotEvents d n < p.events → coversObj d n ring (64 * (2 ^ k + 1)) = true → coversObj d n prog 64 = true → coversObj d n rec_ 16 = true →
    writable d n ring 64 = true → writable d n prog 64 = true → writable d n rec_ 16 = true →
    freeKey d.ctxs 4096 = some c → freeKey d.events 65536 = some e → Answered .ctxCreate s fun u r =>
      (∃ x, mget u.body.data.ctxs c = some x ∧ x.plot = n ∧ x.ring = ring ∧ x.ringLog2 = k ∧ x.progress = prog ∧ x.faultEvent = e ∧
        x.hostCount = 1 ∧ x.forerunner = (l.arg 1 1 == 1) ∧ x.wdEpochs = l.arg 4 4 ∧ x.launchSeq = 0 ∧ x.writeSeq = 0 ∧ x.lastAdvance = s.alm.beat) ∧
      mget u.body.data.events e = some { ctx := c, addr := rec_, vector := l.arg 32 2, hostCount := 1, fired := none } ∧
      (∀ j, j ≠ c → mget u.body.data.ctxs j = mget d.ctxs j) ∧ (∀ j, j ≠ e → mget u.body.data.events j = mget d.events j) ∧
      u.body.data.mem = (initBytes (initBytes (initBytes d n ring (natLe 8 0 ++ natLe 8 k ++ List.replicate 48 0)) n prog
        (List.replicate 64 0)) n rec_ (natLe 8 0 ++ List.replicate 8 255)).mem ∧ r.data = natLe 2 c ++ natLe 2 e ∧ u.alm = s.alm) ∧
  (∀ s l p x e, let d := s.body.data
    let c := l.arg 0 2
    Front .eventCreate s l → mget d.ctxs c = some x → x.hostCount ≠ 0 → mget d.plots x.plot = some p → p.st ≠ .destroying →
    plotEvents d x.plot < p.events → coversObj d x.plot (l.arg 8 8) 16 = true → writable d x.plot (l.arg 8 8) 16 = true →
    freeKey d.events 65536 = some e →
    let y : Event := { ctx := c, addr := l.arg 8 8, vector := l.arg 2 2, hostCount := 1, fired := none }
    let w := initBytes d x.plot (l.arg 8 8) (natLe 8 0 ++ List.replicate 8 255)
    Answered .eventCreate s fun u r => u = (taken s l).setData { w with events := mput w.events e y } ∧ r = Res.ok (natLe 2 e)) ∧
  (∀ s l p x i, let d := s.body.data
    let c := l.arg 0 2
    let k := l.arg 2 1
    Front .pigeonholeCreate s l → mget d.ctxs c = some x → x.hostCount ≠ 0 → mget d.plots x.plot = some p → p.st ≠ .destroying →
    l.arg 8 8 % 4096 = 0 → coversObj d x.plot (l.arg 8 8) (64 * (2 ^ k + 1)) = true → writable d x.plot (l.arg 8 8) (64 * (2 ^ k + 1)) = true →
    ((List.range p.ph.2).find? fun i => (mget d.pigeons (p.ph.1 + i)).isNone) = some i →
    let y : Pigeon := { ctx := c, ring := l.arg 8 8, log2 := k, hostCount := 1, queue := none }
    let w := initBytes d x.plot (l.arg 8 8) (ringInit k)
    Answered .pigeonholeCreate s fun u r => u = (taken s l).setData { w with pigeons := mput w.pigeons (p.ph.1 + i) y } ∧
      r = Res.ok (natLe 2 (p.ph.1 + i))) ∧
  (∀ s l p x g, let d := s.body.data
    let c := l.arg 0 2
    Front .queueCreate s l → mget d.ctxs c = some x → x.hostCount ≠ 0 → mget d.plots x.plot = some p → p.st ≠ .destroying →
    mget d.pigeons (l.arg 2 2) = some g → g.hostCount ≠ 0 → g.ctx = c → g.queue = none → Answered .queueCreate s fun u r => ∃ n,
      (l.arg 4 1 ≠ 255 → n = l.arg 4 1) ∧ (l.arg 4 1 = 255 → s.body.md.dispOut = [] → ∀ m, m / 4 = n / 4 → m < 8 →
        mcount d.pigeons (fun _ p => (p.queue.map fun (q : Queue) => q.disp) == some n) ≤
          mcount d.pigeons fun _ p => (p.queue.map fun (q : Queue) => q.disp) == some m) ∧
      let q : Queue := { disp := n, hostCount := 1, running := true, entry := none, launch := none }
      u = (taken s l).setData { d with pigeons := mput d.pigeons (l.arg 2 2) { g with queue := some q } } ∧ r = Res.ok (natLe 1 n)) ∧
  (∀ s l p, let d := s.body.data
    let step := if l.arg 2 1 = 1 then 2 ^ 25 else 2 ^ 22
    let size := (l.arg 8 8 + step - 1) / step * step
    Front .memCreate s l → mget d.plots (l.arg 0 1) = some p → p.st ≠ .destroying → l.arg 2 1 = 1 ∨ l.arg 3 1 ∉ d.dieOut → l.arg 4 1 = 0 →
    ∀ st t n base, takeStripes d p (l.arg 2 1 == 1) (l.arg 3 1) (size / step) { used := usedFrames d, subs := [], k := d.free } = some (st, t, n) →
    lowestFit (d.objs.map fun o => (o.base, o.size)) size step 0 (2 ^ 39) = some base →
    Answered .memCreate s fun u r => ∃ o, u.body.data.objs = d.objs ++ [o] ∧ o.base = base ∧ o.size = size ∧ o.plot = l.arg 0 1 ∧
      o.package = (l.arg 2 1 == 1) ∧ o.nearDie = l.arg 3 1 ∧ o.stripes = st ∧ o.hostCount = 1 ∧ o.marks = [] ∧ u.body.data.mem = d.mem ∧
      u.body.data.plots = d.plots ∧ r.data.take 16 = natLe 8 (d.node * 2 ^ 40 + base) ++ natLe 8 size) ∧
  (∀ s l p base, let d := s.body.data
    let n := l.arg 0 1
    let k := l.arg 8 8 / 2 ^ 21
    let lo := if l.arg 24 1 = 1 then 0xE000000000 else 0xC000000000
    let pages := (List.range k).map fun i => leNat ((d.devRead n ((l.arg 16 8 + 8 * i) % 2 ^ 40) 8).getD [])
    Front .memCreateHostWindow s l → mget d.plots n = some p → p.st ≠ .destroying → p.vf = none → coversObj d n (l.arg 16 8) (8 * k) = true →
    readable d n (l.arg 16 8) (8 * k) = true → (∀ b ∈ pages, b % 4096 = 0) →
    lowestFit (d.hws.map fun o => (o.base, o.pages.length * 2 ^ 21)) (l.arg 8 8) (2 ^ 21) lo (lo + 2 ^ 37) = some base →
    let o : HwObj := { base := base, plot := n, hb := l.arg 24 1 == 1, write := true, pages := pages, hostCount := 1 }
    Answered .memCreateHostWindow s fun u r => u = (taken s l).setData { d with hws := d.hws ++ [o] } ∧
      r.data.take 16 = natLe 8 (d.node * 2 ^ 40 + base) ++ natLe 8 (l.arg 8 8)) ∧
  (∀ p, Replies .memInvalidate (fun s l => mget s.body.data.plots (l.arg 0 1) = some p ∧ p.st ≠ .destroying)
    (fun s l => s.setData (s.body.data.invalidate (l.arg 8 8) (l.arg 16 8) (some (l.arg 0 1)))) (fun _ _ => [])) ∧
  (∀ h dv set, Replies .objRetain
    (fun s l => objCounts s.body.data (l.arg 0 1) (l.arg 4 4) (l.arg 8 8) = some (h, dv, set) ∧ 0 < h ∧ h < 65535 ∧
      objGone s.body.data (l.arg 0 1) (l.arg 4 4) (l.arg 8 8) = false)
    (fun s _ => s.setData (set (h + 1)))
    (fun s l => (countReply (s.setData (set (h + 1))) (l.arg 0 1) (l.arg 4 4) (l.arg 8 8)).2.data)) ∧
  (∀ h dv set, Replies .objRelease
    (fun s l => objCounts s.body.data (l.arg 0 1) (l.arg 4 4) (l.arg 8 8) = some (h, dv, set) ∧ 0 < h ∧
      objGone s.body.data (l.arg 0 1) (l.arg 4 4) (l.arg 8 8) = false)
    (fun s _ => s.setData (set (h - 1)).reap)
    (fun s l => (countReply (s.setData (set (h - 1)).reap) (l.arg 0 1) (l.arg 4 4) (l.arg 8 8)).2.data)) ∧
  (∀ h dv set, Replies .memRelease (fun s l => objCounts s.body.data 2 0 (l.arg 8 8) = some (h, dv, set) ∧ 0 < h ∧
      objGone s.body.data 2 0 (l.arg 8 8) = false)
    (fun s _ => s.setData (set (h - 1)).reap) (fun s l => (countReply (s.setData (set (h - 1)).reap) 2 0 (l.arg 8 8)).2.data)) ∧
  (∀ s l x, let d := s.body.data
    let c := l.arg 4 4
    Front .ctxRelease s l → mget d.ctxs c = some x → x.hostCount ≠ 0 → objGone d 1 c 0 = false → l.arg 1 1 = 0 →
    let cs := mmod d.ctxs c fun y => { y with hostCount := 0 }
    let ps := mmap d.pigeons fun _ y =>
      if y.ctx == c then { y with hostCount := 0, queue := y.queue.map fun (q : Queue) => { q with hostCount := 0 } } else y
    let es := mmap d.events fun _ y => if y.ctx == c then { y with hostCount := 0 } else y
    let gs := mmap d.graphs fun _ y => if y.ctx == c then { y with hostCount := 0 } else y
    Answered .ctxRelease s fun u r =>
      u = (taken s l).setData (Data.reap { d with ctxs := cs, pigeons := ps, events := es, graphs := gs }) ∧
      r = (countReply u 1 c 0).2) ∧
  Refuses .ctxCreate 0x41 0 (fun s l => mget s.body.data.plots (l.arg 0 1) = none) ∧
  Refuses .eventCreate 0x10 0 (fun s l => mget s.body.data.ctxs (l.arg 0 2) = none) ∧
  Refuses .ctxRelease 0x10 4 (fun s l => mget s.body.data.ctxs (l.arg 4 4) = none) ∧
  Refuses .objRetain 0x42 4 (fun s l => l.arg 0 1 ≠ 2 ∧ (objCounts s.body.data (l.arg 0 1) (l.arg 4 4) (l.arg 8 8)).isSome = true ∧
    objGone s.body.data (l.arg 0 1) (l.arg 4 4) (l.arg 8 8) = true) ∧
  (∀ (d : Data) n c, d.graphs = [] → d.pigeons = [] → d.events = [] → d.launches = [] → d.cores = [] → d.objs = [] → d.hws = [] →
    d.ctxs = [(n, c)] → c.hostCount = 0 → c.released = false → mget d.reap.ctxs n = if c.held = [] then none else some { c with released := true }) ∧
  Refuses .objRetain 0x11 4 (fun s l => l.arg 0 1 ≠ 2 ∧ objGone s.body.data (l.arg 0 1) (l.arg 4 4) (l.arg 8 8) = false ∧ ∃ dv set, objCounts s.body.data (l.arg 0 1) (l.arg 4 4) (l.arg 8 8) = some (0, dv, set))

/-! ### Letters: the device -/

/-- 12 R355; 13 R368, R374, R379-R381; 15 R416, R421-R423; 17 R461: `device.*`, logs, firmware, test packs, calendars,
suspects and the debug port. 13 R380, R381; 15 R422, R423; 12 R355: firmware and test packs come in pieces and are
committed whole; the debug port grants what a token for its last nonce carries. The model's own readings and choices in
it: log entries 99, 100, 101, 102, 198. -/
def Obligations.DeviceLetters : Prop :=
  (
  Replies .deviceIdentify (fun _ _ => True) (fun s _ => s) (fun s _ =>
    natLe 8 s.body.md.serial ++ [8, 8, 2, 16] ++ natLe 2 (gradeFull s.body.md.grade) ++
      natLe 2 (s.body.data.node + if s.body.fab.block.isSome then 2 ^ 15 else 0) ++ natLe 1 (deviceState s.body) ++ natLe 1 s.body.md.step ++
      natLe 1 (if s.latch.holder = some .south then 1 else 0) ++
      natLe 1 ((if s.body.flash.polmen.running then 1 else 0) + 2 * if s.body.flash.tordy.running then 1 else 0) ++
      natLe 2 (coreCount s.body.data .full) ++ natLe 2 (coreCount s.body.data .arrayOff) ++ natLe 4 (slotVersion s.body.flash.polmen) ++
      natLe 4 (slotVersion s.body.flash.tordy) ++ natLe 8 s.body.md.readyBeat ++ natLe 8 (hbmBytes s.body.data)) ∧
  Replies .deviceFloorplan (fun s l => l.arg 0 4 ≤ (floorplan s.body).length) (fun s _ => s) (fun s l =>
    let p := ((floorplan s.body).drop (l.arg 0 4)).take 208
    natLe 4 s.body.md.generation ++ natLe 4 (floorplan s.body).length ++ natLe 4 (l.arg 0 4) ++ natLe 2 p.length ++ natLe 2 0 ++ p) ∧
  (∀ d a, (∃ cs, argChecks d 0x0102 a = ⟨0, false, decide (field a 0 4 ≤ 416 + 4 * (planFrames d).length)⟩ :: cs ∧
    ∀ c ∈ cs, c.rsv = true)) ∧
  (∀ b, (floorplan b).length = 416 + 4 * (planFrames b.data).length) ∧
  (∀ s l, Front .deviceGrade s l → Answered .deviceGrade s fun u r => u = taken s l ∧ r.data.length = 24 ∧
    field r.data 0 2 = gradeFull s.body.md.grade ∧ field r.data 2 2 = coreCount s.body.data .full) ∧
  Replies .deviceLeaseQuery (fun _ _ => True) (fun s _ => s) (fun s _ =>
    natLe 1 (sideCode s.latch.holder) ++ natLe 1 (sideCode s.latch.last) ++ natLe 1 s.body.mg.nSt.code ++ natLe 1 s.body.mg.sSt.code ++
      natLe 4 s.latch.gen.toNat ++ natLe 4 s.latch.remaining ++
      natLe 1 ((if s.latch.fault then 1 else 0) + 2 * if standbyReady s then 0 else 1) ++ natLe 3 0 ++ natLe 4 s.body.mg.takeovers ++
      natLe 4 s.body.mg.retries ++ natLe 8 s.body.mg.lastTakeover ++ natLe 4 s.latch.nDropped ++ natLe 4 s.latch.sDropped ++
      natLe 2 s.body.mg.journal.length ++ natLe 6 0) ∧
  (∀ s l, Front .deviceLeaseHandover s l → standbyReady s = true → Answered .deviceLeaseHandover s fun u r =>
    u = (taken s l).mg (fun m => { m with handover := 1 }) ∧ r.later = true) ∧
  Refuses .deviceLeaseHandover 0x0E 0xFFFF (fun s _ => standbyReady s = false) ∧
  (∀ c, Replies .healthCalendarSet (fun s l => c = { mgetD s.body.hl.cals (l.arg 1 1) (Calendar.default (l.arg 1 1)) with
      enable := l.arg 2 1 == 1, concurrent := l.arg 3 1, interval := l.arg 8 8, maxDefer := l.arg 16 8, urgentDefer := l.arg 24 8 })
    (fun s l => { s with body := { s.body with
      hl := { s.body.hl with cals := mput s.body.hl.cals (l.arg 1 1) c }
      flash := { s.body.flash with cals := mput s.body.flash.cals (l.arg 1 1) c } } }) (fun _ _ => [])) ∧
  (∀ s l c, Front .healthCalendarQuery s l → mget s.body.hl.cals (l.arg 1 1) = some c → Answered .healthCalendarQuery s fun u r =>
    u = taken s l ∧ r.data.length = 52 ∧ r.data.take 32 = natLe 1 2 ++ natLe 1 (l.arg 1 1) ++ natLe 1 (if c.enable then 1 else 0) ++
      natLe 1 c.concurrent ++ natLe 4 0 ++ natLe 8 c.interval ++ natLe 8 c.maxDefer ++ natLe 8 c.urgentDefer) ∧
  Replies .healthCalendarTestNow (fun s l => unitExists s.body (l.arg 1 1) (l.arg 4 4) = true ∧
      mget s.body.hl.passes (unitNo (l.arg 1 1) (l.arg 4 4)) = none)
    (fun s l => { s with body := { s.body with hl := { s.body.hl with
      dues := mput s.body.hl.dues (unitNo (l.arg 1 1) (l.arg 4 4)) s.alm.beat
      urgent := sadd s.body.hl.urgent (unitNo (l.arg 1 1) (l.arg 4 4)) } } }) (fun _ _ => []) ∧
  Refuses .healthCalendarTestNow 0xA3 0xFFFF (fun s l => unitExists s.body (l.arg 1 1) (l.arg 4 4) = false) ∧
  Replies .healthSuspectList (fun _ _ => True) (fun s _ => s) (fun s l =>
    let es := (s.body.hl.suspects.drop (l.arg 0 2)).take 4
    natLe 2 es.length ++ natLe 2 s.body.hl.suspects.length ++ natLe 2 (l.arg 0 2 + es.length) ++ List.replicate 10 0 ++
      es.flatMap fun e => suspectBytes e.1 (e.2.seen s.body e.1)) ∧
  Replies .logRead (fun _ _ => True) (fun s _ => s) (fun s l =>
    let recs := fitRecs 208 ((if l.arg 8 1 = 1 then s.body.log.ring else s.body.log.flash).filter fun r => decide (l.arg 0 8 ≤ r.seq))
    natLe 8 ((recs.getLast?.map fun r => r.seq + 1).getD (l.arg 0 8)) ++ natLe 2 recs.length ++ natLe 6 0 ++ recs.flatMap recBytes) ∧
  Replies .logClear (fun _ _ => True) (fun s l => { s with body := { s.body with log := { s.body.log with
    flash := s.body.log.flash.filter fun r => decide (l.arg 0 8 ≤ r.seq) } } }) (fun _ _ => [])) ∧
  (
  Replies .testpackBegin (fun s l => ∀ u, s.body.mg.upPack = some u → u.stamp = l.stamp)
    (fun s l => s.mg fun m => { m with upPack := some { stamp := l.stamp, total := l.arg 4 4, data := [] } }) (fun _ _ => []) ∧
  Refuses .testpackBegin 0x0F 0 (fun s l => ∃ u, s.body.mg.upPack = some u ∧ u.stamp ≠ l.stamp) ∧
  (∀ s l u, Front .testpackData s l → s.body.mg.upPack = some u → l.arg 8 4 + l.arg 12 2 ≤ u.total →
    Answered .testpackData s fun t r => r = Res.ok [] ∧ ∃ d, t = (taken s l).mg (fun m => { m with upPack := some { u with data := d } }) ∧
      (∀ i, i < l.arg 12 2 → mget d (l.arg 8 4 + i) = some (BitVec.ofNat 8 (l.arg (16 + i) 1))) ∧
      ∀ k, k < l.arg 8 4 ∨ l.arg 8 4 + l.arg 12 2 ≤ k → mget d k = mget u.data k) ∧
  Refuses .testpackData 0xA1 0xFFFF (fun s _ => s.body.mg.upPack = none) ∧
  (∀ v s l u, Front (.testpackCommit v) s l → s.body.mg.upPack = some u → v.signed = true → u.data.length = u.total → v.member = true →
    s.body.hl.packVersion < v.version → v.version < 2 ^ 32 → Answered (.testpackCommit v) s fun t r =>
      t.body.mg.upPack = none ∧ t.body.hl.packVersion = v.version ∧ t.body.hl.packSince = s.alm.beat ∧ t.body.flash.pack = v.version ∧
      (∀ k ∈ v.sweepKinds, ∀ c ∈ unitsOf s.body k, unitNo k c ∈ t.body.hl.urgent ∧ (mget t.body.hl.dues (unitNo k c)).isSome = true) ∧
      t.body.hl.suspects = s.body.hl.suspects ∧ r.data = packBytes t.body.hl) ∧
  (∀ v, Refuses (.testpackCommit v) 0xA1 0xFFFF fun s _ => s.body.mg.upPack = none) ∧
  Replies .testpackAbort (fun _ _ => True) (fun s _ => s.mg fun m => { m with upPack := none }) (fun _ _ => []) ∧
  Replies .testpackQuery (fun _ _ => True) (fun s _ => s) (fun s _ => natLe 4 s.body.hl.packVersion ++ natLe 4 0 ++
    natLe 8 s.body.hl.packSince ++ natLe 8 s.body.hl.sweepUntil) ∧
  Replies .fwUpdateBegin (fun s l => l.arg 1 1 = 1 ∧ ∀ u, s.body.mg.upPolmen = some u → u.stamp = l.stamp)
    (fun s l => s.mg fun m => { m with upPolmen := some { stamp := l.stamp, total := l.arg 4 4, data := [] } }) (fun _ _ => []) ∧
  Replies .fwUpdateBegin (fun s l => l.arg 1 1 = 2 ∧ ∀ u, s.body.mg.upTordy = some u → u.stamp = l.stamp)
    (fun s l => s.mg fun m => { m with upTordy := some { stamp := l.stamp, total := l.arg 4 4, data := [] } }) (fun _ _ => []) ∧
  (∀ s l u, Front .fwUpdateData s l → l.arg 1 1 = 1 → s.body.mg.upPolmen = some u → l.arg 8 4 + l.arg 12 2 ≤ u.total →
    Answered .fwUpdateData s fun t r => r = Res.ok [] ∧ ∃ d, t = (taken s l).mg (fun m => { m with upPolmen := some { u with data := d } }) ∧
      (∀ i, i < l.arg 12 2 → mget d (l.arg 8 4 + i) = some (BitVec.ofNat 8 (l.arg (16 + i) 1))) ∧
      ∀ k, k < l.arg 8 4 ∨ l.arg 8 4 + l.arg 12 2 ≤ k → mget d k = mget u.data k) ∧
  Refuses .fwUpdateBegin 0x0F 1 (fun s l => l.arg 1 1 < 3 ∧ ∃ u, upload s.body.mg (l.arg 1 1) = some u ∧ u.stamp ≠ l.stamp) ∧
  Refuses .fwUpdateData 0x63 0xFFFF (fun s l => upload s.body.mg (l.arg 1 1) = none) ∧
  (∀ v s l u, Front (.fwUpdateCommit v) s l → l.arg 1 1 = 1 → s.body.mg.upPolmen = some u → v.signed = true → u.data.length = u.total →
    Answered (.fwUpdateCommit v) s fun t r => t.body.mg.upPolmen = none ∧ t.body.flash.polmen.spare = (true, v.version % 2 ^ 32) ∧
      t.body.flash.polmen.active = s.body.flash.polmen.active ∧ t.body.flash.tordy = s.body.flash.tordy ∧ r.data = natLe 4 v.version) ∧
  (∀ v, Refuses (.fwUpdateCommit v) 0x63 0xFFFF fun s l => upload s.body.mg (l.arg 1 1) = none) ∧
  (∀ s l, Front .fwUpdateAbort s l → Answered .fwUpdateAbort s fun t r => upload t.body.mg (l.arg 1 1) = none ∧
    t.body.flash = s.body.flash ∧ r = Res.ok []) ∧
  (∀ s l, Front .fwActivateAtReset s l → (s.body.flash.slots (l.arg 0 1)).spare.1 = true → Answered .fwActivateAtReset s fun t r =>
    t = fwActivated (setSlots (taken s l) (l.arg 0 1) { s.body.flash.slots (l.arg 0 1) with
      active := !(s.body.flash.slots (l.arg 0 1)).active }) (l.arg 0 1) { s.body.flash.slots (l.arg 0 1) with
      active := !(s.body.flash.slots (l.arg 0 1)).active } 2 ∧ r.data = natLe 1 (if (s.body.flash.slots (l.arg 0 1)).active then 0 else 1)) ∧
  Refuses .fwActivateAtReset 0x61 0xFFFF (fun s l => (s.body.flash.slots (l.arg 0 1)).spare.1 = false) ∧
  (∀ s l, Front (.fwActivateLive true) s l → l.arg 0 1 = 1 → s.body.flash.polmen.sameJournal = true → standbyReady s = true →
    s.body.flash.polmen.spare.1 = true → Answered (.fwActivateLive true) s fun t r => r.later = true ∧ t.body.mg.handover = 2 ∧
      t.body.flash.polmen.active = !s.body.flash.polmen.active ∧ t.body.flash.polmen.running = !s.body.flash.polmen.active) ∧
  (∀ v, Refuses (.fwActivateLive v) 0x62 0xFFFF fun _ l => l.arg 0 1 = 2) ∧
  (∀ s l, Front (.fwActivateLive false) s l → l.arg 0 1 = 1 → s.body.flash.polmen.sameJournal = true → s.latch.holder = some .north →
    s.body.mg.sSt = .standbyReady → s.body.flash.polmen.spare.1 = true → Answered (.fwActivateLive false) s fun t r =>
      r = Res.no 0x61 ∧ t.body.mg.sSt = .syncing ∧ t.body.mg.handover = s.body.mg.handover ∧ t.body.flash = s.body.flash) ∧
  (∀ s l, Front .debugChallenge s l → Answered .debugChallenge s fun t r => ∃ n, t.body.mgdb.nonce = some n ∧ r.data = natLe 16 n ∧
    t.body.mgdb.grants = s.body.mgdb.grants) ∧
  (∀ s l, Front (.debugPresent true) s l → l.arg 32 4 < 4 ∨ s.body.data.plots = [] → l.arg 8 8 = s.body.md.serial →
    s.body.mgdb.nonce = some (l.arg 16 16) → Answered (.debugPresent true) s fun t r =>
      t = ({ taken s l with body := { (taken s l).body with mgdb := { s.body.mgdb with nonce := none, grants := l.arg 32 4 } } } : State).post
        0x0405 0 [(l.arg 32 4, 0)] ∧ r = Res.ok []) ∧
  (∀ v, Refuses (.debugPresent v) 0x30 0xFFFF fun s l => 4 ≤ l.arg 32 4 ∧ s.body.data.plots ≠ []) ∧
  (∀ s l, Front .debugLock s l → Answered .debugLock s fun t r => t.body.mgdb.grants = 0 ∧ t.body.mg.halted = [] ∧ r = Res.ok []))

/-! ### Letters: power, cooling and fabric -/

/-- 02 R43-R45, R49, R55-R60: `almanac.*`. A package becomes root, by its own count or a pulse, or follows again; an
action waits for its beat under a ticket, until it is cancelled. 14 R384-R386, R389, R401, R403-R405; 09 R280-R285:
budgets, caps, reasons, energy, cold stops, surveys and routes. The model's own readings and choices in it: log entries
79, 89, 90, 117, 173, 193. -/
def Obligations.AlmanacPowerAndFabricLetters : Prop :=
  (
  Replies .almanacRootFollow (fun _ _ => True) (fun s _ => s.setAlm { s.alm with
    mode := .follow, rootLost := false, priority := 0, source := 255, listenFrom := s.alm.beat }) (fun _ _ => []) ∧
  (∀ s l, Front .almanacRootInternal s l → s.alm.st = .free ∨ s.alm.st = .acquiring → Answered .almanacRootInternal s fun t r =>
    t.alm.st = .locked ∧ t.alm.mode = .internal ∧ t.alm.beat = l.arg 16 8 ∧ t.alm.rootLost = false ∧ t.alm.priority = l.arg 1 1 ∧
      t.alm.rootSerial = s.body.md.serial ∧ t.alm.hops = 0 ∧ t.alm.source = 255 ∧ (∀ e ∈ t.body.mg.schedule, e.beat = l.arg 16 8 + 1) ∧
      t.body = ({ (taken s l).body.rebase s.alm.beat (l.arg 16 8) with mg := t.body.mg } : Body) ∧ r = Res.ok []) ∧
  (∀ s l, Front .almanacRootInternal s l → s.alm.st ≠ .free → s.alm.st ≠ .acquiring → l.arg 16 8 = 0 → Answered .almanacRootInternal s fun t r =>
    t.alm.st = .locked ∧ t.alm.mode = .internal ∧ t.alm.beat = s.alm.beat ∧ t.alm.slew = 0 ∧ t.alm.step = none ∧ t.body = (taken s l).body ∧ r = Res.ok []) ∧
  Refuses .almanacRootInternal 9 16 (fun s l => s.alm.st = .locked ∧ l.arg 16 8 ≠ 0) ∧
  (∀ s l, Front .almanacRootPps s l → s.alm.st = .free ∨ s.alm.beat ≤ l.arg 8 8 → Answered .almanacRootPps s fun t r =>
    t.alm.mode = .pps ∧ t.alm.ppsNext = l.arg 8 8 ∧ t.alm.ppsSeen = false ∧ t.alm.source = 254 ∧ t.alm.hops = 0 ∧ t.alm.st = s.alm.st ∧
      t.alm.beat = s.alm.beat ∧ t.alm.priority = l.arg 1 1 ∧ t.body = (taken s l).body ∧ r = Res.ok []) ∧
  Refuses .almanacRootPps 0x21 8 (fun s l => s.alm.st = .locked ∧ l.arg 8 8 < s.alm.beat) ∧
  Replies .almanacStatus (fun _ _ => True) (fun s _ => s) (fun s _ =>
    natLe 8 s.alm.beat ++ natLe 1 s.alm.st.code ++ natLe 1 s.alm.hops ++ natLe 1 s.alm.source ++
      natLe 1 ((if s.alm.mode = .follow then 0 else 1) + (if s.alm.rootLost then 2 else 0) + (if s.alm.ppsPresent then 4 else 0) +
        if s.alm.lateSeen then 8 else 0) ++ natLe 4 (BitVec.ofInt 32 s.alm.offset).toNat ++ natLe 8 s.alm.rootSerial ++
      natLe 4 (BitVec.ofInt 32 s.alm.freqNow).toNat ++ natLe 2 s.alm.errBound ++ natLe 2 s.body.mg.used ++ natLe 8 s.alm.since) ∧
  Schedules .almanacScheduleAdd 8 (fun s l => innerRefuses s l = none) (fun _ => .wrapped) id ∧
  (∀ st f s l, Front .almanacScheduleAdd s l → innerRefuses (taken s l) l = some (st, f) →
    exec .almanacScheduleAdd s = .next (reply (logDenied (taken s l) l st) s.body.mg.nextJid (Res.at_ st f)).finish) ∧
  Refuses .almanacScheduleAdd 0x20 8 (fun s l => innerRefuses s l = none ∧ l.arg 8 8 ≠ 0 ∧ s.alm.st = .free) ∧
  Refuses .almanacScheduleAdd 0x26 0xFFFF (fun s l => innerRefuses s l = none ∧ s.alm.st = .locked ∧ s.alm.beat + 2 ≤ l.arg 8 8 ∧
    l.arg 8 8 ≤ s.alm.beat + 2 ^ 40 ∧ shareFull s.body.mg l.stamp = true) ∧
  (∀ s l e, Front .almanacScheduleCancel s l → (s.body.mg.schedule.find? fun e => e.ticket == l.arg 4 4) = some e → e.ticket ≠ 0 →
    e.letter.stamp = l.stamp ∨ isPf l.stamp = true → e.counts = true → s.alm.beat + 1 < e.beat →
    Answered .almanacScheduleCancel s fun t r => (∀ x ∈ t.body.mg.schedule, x.ticket ≠ e.ticket) ∧
      (∀ x ∈ s.body.mg.schedule, x.ticket ≠ e.ticket → x ∈ t.body.mg.schedule) ∧ t.body.data = s.body.data ∧ r.data = natLe 4 e.ticket) ∧
  Refuses .almanacScheduleCancel 0x27 4 (fun s l => (∀ e ∈ s.body.mg.schedule, e.ticket ≠ l.arg 4 4) ∧ s.body.mg.instant = [])) ∧
  (
  (∀ s l, Front .powerBudget s l → l.arg 8 8 = 0 → Answered .powerBudget s fun t r =>
    t = ((taken s l).mg fun m => { m with nextOrder := m.nextOrder + 1 }).setPw { s.body.pw with
      budgets := s.body.pw.budgets ++ [⟨l.arg 0 2, s.alm.beat + 1, l.arg 4 4, s.body.mg.nextOrder⟩]
      lastAccept := some s.alm.beat
      fallbackOn := false } ∧ r.data = natLe 4 0) ∧
  Schedules .powerBudget 8 (fun _ _ => True) (fun l => .budget (l.arg 0 2) (l.arg 4 4))
    (fun s => s.setPw { s.body.pw with lastAccept := some s.alm.beat, fallbackOn := false }) ∧
  Refuses .powerBudget 0x22 8 (fun s l => l.arg 8 8 ≠ 0 ∧ s.alm.st = .locked ∧ l.arg 8 8 < s.alm.beat + 2) ∧
  (∀ s l, Front .powerCap s l → Answered .powerCap s fun t r => let v (i : Nat) : Prop := l.arg 0 1 / 2 ^ i % 2 = 1
    let c := t.body.flash.cap
    let o := s.body.flash.cap
    (v 0 → c.capW = l.arg 2 2) ∧ (¬v 0 → c.capW = o.capW) ∧ (v 1 → c.safeW = l.arg 4 2) ∧ (¬v 1 → c.safeW = o.safeW) ∧
      (v 2 → c.fallback = l.arg 8 4) ∧ (¬v 2 → c.fallback = o.fallback) ∧ (v 3 → c.freqMhz = l.arg 6 2) ∧ (¬v 3 → c.freqMhz = o.freqMhz) ∧
      (v 4 → c.stagger = l.arg 1 1 ∧ c.windowMask = l.arg 12 2) ∧ (¬v 4 → c.stagger = o.stagger ∧ c.windowMask = o.windowMask) ∧
      { t with body := { t.body with flash := { t.body.flash with cap := o } } } = taken s l ∧ r.data = capBytes c) ∧
  (∀ s l, Front .powerReasonsCurrent s l → Answered .powerReasonsCurrent s fun t r => t = taken s l ∧
    r.data.take 16 = natLe 2 (activeBits s.body.pw) ++ List.replicate 14 0 ∧ r.data.length = 20 + 32 * min 6 s.body.pw.openR.length) ∧
  (∀ s l, Front .powerReasonsHistory s l → (∀ q ∈ s.body.pw.closedR.head?, q.seq ≤ l.arg 4 4) →
    let recs := (s.body.pw.closedR.filter fun q => decide (l.arg 4 4 ≤ q.seq)).take 6
    Answered .powerReasonsHistory s fun t r => t = taken s l ∧ r.data = natLe 2 (activeBits s.body.pw) ++ List.replicate 14 0 ++
      (recs.flatMap fun q => reasonBytes q false s.alm.beat) ++ natLe 4 ((recs.getLast?.map fun q => q.seq + 1).getD (l.arg 4 4))) ∧
  Replies .powerEnergyContexts (fun _ _ => True) (fun s _ => s) (fun s l =>
    let es := (s.body.pw.ctxMj.filter fun e => decide (l.arg 2 2 ≤ e.1)).take 16
    natLe 8 s.body.pw.moduleMj ++ natLe 8 s.body.pw.unattrMj ++ natLe 8 s.body.pw.asOf ++ natLe 2 es.length ++ List.replicate 6 0 ++
      es.flatMap fun e => natLe 2 e.1 ++ natLe 1 e.2.1 ++ natLe 1 0 ++ natLe 8 e.2.2) ∧
  Schedules .powerEnergySample 8 (fun _ _ => True) (fun l => .sample (l.arg 1 1)) id ∧
  (∀ s l, Front .powerEnergySample s l → l.arg 8 8 = 0 → Answered .powerEnergySample s fun t r =>
    t = (taken s l).mg (fun m => { m with
      nextOrder := m.nextOrder + 1
      schedule := m.schedule ++ [⟨0, s.alm.beat + 1, .sample (l.arg 1 1), l, m.nextOrder, false, false⟩] }) ∧ r.data = natLe 4 0) ∧
  (∀ x, Replies .powerEnergyReadSample (fun s l => mget s.body.pw.samples (l.arg 1 1) = some x) (fun s _ => s)
    (fun _ _ => natLe 8 x.beat ++ x.vals.flatMap fun v => natLe 8 v)) ∧
  Refuses .powerEnergyReadSample 0x83 1 (fun s l => mget s.body.pw.samples (l.arg 1 1) = none) ∧
  (∀ s l, Front .coldResume s l → s.body.pw.cold ≠ .running → s.body.pw.coolantOk = true →
    s.body.pw.coolantSince + 10000000 ≤ s.alm.beat → cool s.body.pw = true → s.body.fab.heldRx = [] →
    Answered .coldResume s fun t r => t.body.pw.cold = .running ∧ t.body.data.halted = false ∧ t.alm = s.alm ∧ r.data = natLe 8 0) ∧
  (∀ s l, Front .coldResume s l → s.body.pw.cold = .running →
    exec .coldResume s = .next (reply (taken s l) s.body.mg.nextJid { Res.no 0x80 with data := natLe 8 0 }).finish) ∧
  (∀ s l, Front .coldResume s l → s.body.pw.cold ≠ .running → s.body.pw.coolantOk = true → s.alm.beat < s.body.pw.coolantSince + 10000000 →
    exec .coldResume s = .next (reply (taken s l) s.body.mg.nextJid
      { Res.no 0x81 with data := natLe 8 (s.body.pw.coolantSince + 10000000 - s.alm.beat) }).finish) ∧
  Replies .fabricSurveyQuery (fun _ _ => True) (fun s _ => s) (fun s l =>
    natLe 2 (s.body.data.node + if s.body.fab.block.isSome then 2 ^ 15 else 0) ++ List.replicate 6 0 ++
      ((List.range (18 - l.arg 1 1)).take 8).flatMap fun i => portEntry s.body.fab (l.arg 1 1 + i)) ∧
  Replies .fabricSurveySetBlock (fun s l => s.body.fab.block ≠ some (l.arg 2 1) ∧ s.body.data.plots = [])
    (fun s l => s.setBody { s.body with
      fab := { s.body.fab with block := some (l.arg 2 1) }, data := { s.body.data with node := l.arg 2 1 * 16 + s.body.md.slotId % 16 } })
    (fun _ _ => []) ∧
  Refuses .fabricSurveySetBlock 0x30 0xFFFF (fun s l => s.body.fab.block ≠ some (l.arg 2 1) ∧ s.body.data.plots ≠ []) ∧
  Replies .fabricSurveyResurvey (fun _ l => l.arg 3 1 < 18)
    (fun s l => if (s.body.fab.link (l.arg 3 1)).trained then sendSurvey s (l.arg 3 1) else s) (fun _ _ => []) ∧
  (∀ s l, Front .routesStageWrite s l → bankBusy s = false →
    (∀ i, i < l.arg 1 1 → l.arg (8 + 8 * i) 8 < 2 ^ 22 ∧ entryOk s.body (l.arg 2 2 + i) (BitVec.ofNat 64 (l.arg (8 + 8 * i) 8)) = true) →
    Answered .routesStageWrite s fun t r => (∀ i, i < l.arg 1 1 → t.body.fab.route (!s.body.fab.active) (l.arg 2 2 + i) = BitVec.ofNat 64 (l.arg (8 + 8 * i) 8)) ∧
      (∀ n, n < l.arg 2 2 ∨ l.arg 2 2 + l.arg 1 1 ≤ n → t.body.fab.route (!s.body.fab.active) n = s.body.fab.route (!s.body.fab.active) n) ∧
      (∀ n, t.body.fab.route s.body.fab.active n = s.body.fab.route s.body.fab.active n) ∧ t.body.data = s.body.data ∧
      r.data = natLe 4 (bankCrc t.body.fab.spare) ++ natLe 1 (if s.body.fab.active then 0 else 1)) ∧
  Refuses .routesStageWrite 0x33 0xFFFF (fun s _ => bankBusy s = true) ∧
  (∀ s l, Front .routesStageDefaultBlock s l → bankBusy s = false → Answered .routesStageDefaultBlock s fun t _ =>
    (∀ i, i < 16 → t.body.fab.route (!s.body.fab.active) (s.body.data.node / 16 * 16 + i) = defaultRoute s.body (s.body.data.node / 16 * 16 + i)) ∧
      (∀ n, n / 16 ≠ s.body.data.node / 16 → t.body.fab.route (!s.body.fab.active) n = 0) ∧
      ∀ n, t.body.fab.route s.body.fab.active n = s.body.fab.route s.body.fab.active n) ∧
  Schedules .fabricRoutesSwitch 0 (fun s l => l.arg 8 4 = bankCrc s.body.fab.spare ∧
      ∀ t ∈ s.body.fab.lastSwitch.toList ++ switchBeats s.body.mg, t + 10000 ≤ l.arg 0 8) (fun l => .routes (l.arg 8 4)) id ∧
  Refuses .fabricRoutesSwitch 0x34 8 (fun s l => s.alm.st = .locked ∧ s.alm.beat + 2 ≤ l.arg 0 8 ∧ l.arg 0 8 ≤ s.alm.beat + 2 ^ 40 ∧
    l.arg 8 4 ≠ bankCrc s.body.fab.spare) ∧
  Schedules .fabricGraft 0 (fun s l => (plotOfTag s.body.data (l.arg 8 2)).isSome = true) (fun l => .graft (l.arg 8 2) (nodeList l)) id ∧
  Schedules .fabricPrune 0 (fun s l => (plotOfTag s.body.data (l.arg 8 2)).isSome = true) (fun l => .prune (l.arg 8 2) (nodeList l)) id ∧
  Refuses .fabricGraft 0x35 8 (fun s l => plotOfTag s.body.data (l.arg 8 2) = none) ∧
  Refuses .fabricPrune 0x35 8 (fun s l => plotOfTag s.body.data (l.arg 8 2) = none))

/-! ### Letters: the Almanac, graphs, journals and replays -/

/-- 10 R304-R306; 13 R496; 16 R441, R444: graphs are stored checked and launched through their ring; a step journal is
set, read and ended; a replay starts one launch. The model's own readings and choices in it: log entries 56, 155, 156,
188. -/
def Obligations.GraphLetters : Prop :=
  (∀ s l x p g fs t, let d := s.body.data
    let nn := l.arg 4 4
    let img := (d.devRead x.plot (l.arg 8 8 % 2 ^ 40) (l.arg 16 4)).getD []
    let m := (l.arg 16 4 - 64 * nn) / 4
    let arr := (List.range m).map fun i => field img (64 * nn + 4 * i) 4
    let recs := (List.range nn).map fun i => (img.drop (64 * i)).take 64
    let nodes := recs.map fun r => parseNode r ((arr.drop (field r 48 4)).take (field r 44 2))
    Front .graphStore s l → mget d.ctxs (l.arg 0 2) = some x → x.hostCount ≠ 0 → mget d.plots x.plot = some p → p.st ≠ .destroying →
    coversObj d x.plot (l.arg 8 8) (l.arg 16 4) = true → coversObj d x.plot (l.arg 24 8) (512 * nn) = true →
    readable d x.plot (l.arg 8 8) (l.arg 16 4) = true →
    (∀ i, i < nn → nodeBad d x.plot nodes recs m i = false) → (∀ n ∈ nodes, n.kind = 1 → n.detached = true → n.blocks ≤ detachedMax d p n) →
    (mcount d.graphs fun _ g => d.ctxPlot g.ctx == x.plot) < p.graphs → freeKey d.graphs 16384 = some g →
    takeSide d p true 0 ((l.arg 16 4 + 65535) / 65536) { used := usedFrames d, subs := [], k := d.free } = some (fs, t) →
    let y : Graph := { ctx := l.arg 0 2, nodes := nodes, snap := l.arg 24 8, hostCount := 1, frames := fs, lastBank := 1, banks := [] }
    Answered .graphStore s fun u r => u = (taken s l).setData { d with graphs := mput d.graphs g y, free := t.k } ∧ r = Res.ok (natLe 2 g)) ∧
  Refuses .graphStore 0x10 0 (fun s l => mget s.body.data.ctxs (l.arg 0 2) = none) ∧
  (∀ s l h q x p, let d := s.body.data
    let r := leNat ((d.devRead x.plot (h.ring % 2 ^ 40) 8).getD [])
    Front .graphLaunch s l → mget d.pigeons (l.arg 0 2) = some h → h.queue = some q → q.hostCount ≠ 0 → mget d.ctxs h.ctx = some x →
    x.hostCount ≠ 0 → mget d.plots x.plot = some p → p.st ≠ .destroying → readable d x.plot h.ring 32 = true →
    readable d x.plot (slotAddr h r) 64 = true → leNat ((d.devRead x.plot (slotAddr h r % 2 ^ 40) 8).getD []) = r →
    Answered .graphLaunch s fun u v => u = (taken s l).setData
      ((((d.sWrite h.ctx 4 h.ring (natLe 8 (r + 1))).sWrite h.ctx 4 (slotAddr h r + 8)
        ((l.args.drop 8 ++ List.replicate 56 0).take 56)).sWrite h.ctx 4 (slotAddr h r) (natLe 8 (r + 1))).ringPh (l.arg 0 2)) ∧
      v = Res.ok (natLe 8 r)) ∧
  Refuses .graphLaunch 0x48 0 (fun s l => ∀ h, mget s.body.data.pigeons (l.arg 0 2) = some h → h.queue = none) ∧
  (∀ s l x p, let d := s.body.data
    Front .journalConfigure s l → mget d.ctxs (l.arg 2 2) = some x → x.hostCount ≠ 0 → mget d.plots x.plot = some p → p.st ≠ .destroying →
    coversObj d x.plot (l.arg 8 8) (640 * 2 ^ l.arg 1 1) = true →
    (0 < l.arg 5 1 → coversObj d x.plot (l.arg 16 8) (24 * l.arg 5 1) = true ∧ readable d x.plot (l.arg 16 8) (24 * l.arg 5 1) = true) →
    let ws := (List.range (l.arg 5 1)).map fun i =>
      (((d.devRead x.plot (l.arg 16 8 % 2 ^ 40) (24 * l.arg 5 1)).getD []).drop (24 * i)).take 24
    (∀ y ∈ ws, watchOk y = true ∧ coversObj d x.plot (field y 8 8) (field y 16 8) = true) →
    let j : StepJournal := { k := l.arg 1 1, det := l.arg 4 1 == 1, area := l.arg 8 8, watches := ws.map fun y => (field y 0 4, field y 8 8, field y 16 8), seq := 0, lapped := 0, lapBeat := 0, gen := d.nextId }
    Answered .journalConfigure s fun u r => u = (taken s l).setBody { (taken s l).body with
      sj := mput s.body.sj (l.arg 2 2) j, data := { d with nextId := d.nextId + 1 } } ∧ r = Res.ok []) ∧
  Refuses .journalConfigure 0xC3 0xFFFF (fun s l => 0 < l.arg 5 1 ∧ ∃ x p, mget s.body.data.ctxs (l.arg 2 2) = some x ∧ x.hostCount ≠ 0 ∧
    mget s.body.data.plots x.plot = some p ∧ p.st ≠ .destroying ∧ coversObj s.body.data x.plot (l.arg 8 8) (640 * 2 ^ l.arg 1 1) = true ∧
    coversObj s.body.data x.plot (l.arg 16 8) (24 * l.arg 5 1) = true ∧ readable s.body.data x.plot (l.arg 16 8) (24 * l.arg 5 1) = true ∧
    watchOk (((s.body.data.devRead x.plot (l.arg 16 8 % 2 ^ 40) (24 * l.arg 5 1)).getD []).take 24) = false) ∧
  (∀ x j slot e, Replies .journalRead (fun s l => mget s.body.data.ctxs (l.arg 2 2) = some x ∧ mget s.body.sj (l.arg 2 2) = some j ∧
      findStep s.body.data x.plot j (l.arg 24 8) (l.arg 32 2) = some (slot, e)) (fun s _ => s) (fun _ _ => natLe 4 slot ++ natLe 4 0 ++ e.take 128)) ∧
  Refuses .journalRead 0xC0 2 (fun s l => (mget s.body.data.ctxs (l.arg 2 2)).isSome = true ∧ mget s.body.sj (l.arg 2 2) = none) ∧
  Replies .journalDisable (fun s l => (mget s.body.data.ctxs (l.arg 2 2)).isSome = true ∧ (mget s.body.sj (l.arg 2 2)).isSome = true)
    (fun s l => s.setBody { s.body with sj := mdel s.body.sj (l.arg 2 2) }) (fun _ _ => []) ∧
  (∀ s l x p j h slot e, let d := s.body.data
    Front .replayStep s l → mget d.ctxs (l.arg 0 2) = some x → x.hostCount ≠ 0 → mget d.plots x.plot = some p → p.st ≠ .destroying →
    mget s.body.sj (l.arg 0 2) = some j → mget d.pigeons (l.arg 2 2) = some h → h.ctx = l.arg 0 2 → h.queue.isSome = true →
    eventOk d (l.arg 0 2) (l.arg 16 2) = true → coversObj d x.plot (l.arg 24 8) 64 = true →
    findStep d x.plot j (l.arg 8 8) (l.arg 4 2) = some (slot, e) → graphOk d (l.arg 0 2) (field e 10 2) = true → s.body.replay = none →
    (∀ y ∈ d.launches, y.2.ctx ≠ l.arg 0 2) →
    Answered .replayStep s fun u r => (∃ z, u.body.replay = some z ∧ z.launch = d.nextId ∧ z.ctx = l.arg 0 2 ∧ z.orig = e ∧
      z.origSeq = l.arg 8 8 ∧ z.origIter = l.arg 4 2 ∧ z.event = l.arg 16 2 ∧ z.result = l.arg 24 8 ∧ z.exclude = (l.arg 6 1 == 1)) ∧
      (p.st ≠ .active → u.body.data.mem = d.mem ∧ ∃ y, mget u.body.data.launches d.nextId = some y ∧ y.replay = true ∧ y.ctx = l.arg 0 2 ∧
        y.graph = field e 10 2) ∧ r.data.length = 8) ∧
  Refuses .replayStep 0xC0 0 (fun s l => ∃ x p, mget s.body.data.ctxs (l.arg 0 2) = some x ∧ x.hostCount ≠ 0 ∧
    mget s.body.data.plots x.plot = some p ∧ p.st ≠ .destroying ∧ mget s.body.sj (l.arg 0 2) = none)

/-! ### Beats, epochs and the schedule -/

/-- 02 R38, R47, R50; 13 R368; 14 R383, R384, R389; 15 R433: a beat. The count goes on by one, or over a forward step,
which marks what it passes as late; a slew falls by a tenth of a nanosecond. REMAINING falls; sync cells leave at beats
that are multiples of 16, on every port that carries packets, and at no others; under an undervoltage every die is at its
floor. Without standby power nothing counts. The model's own readings and choices in it: log entries 110, 118, 174, 175,
177, 196. -/
def Obligations.BeatEdge : Prop :=
  (∀ meas s, s.body.md.p3v3 = true → s.body.md.oscOk = true →
    Makes (.beatEdge meas) s fun u =>
      u.alm.beat = s.alm.beat + 1 + ((s.alm.step.map fun x => x.1).getD 0) ∧ u.alm.step = none ∧
      (s.latch.fault = false → u.latch = { s.latch with remaining := s.latch.remaining - 1 }) ∧ (s.latch.fault = true → u.latch = s.latch) ∧
      (s.alm.step = none → s.alm.st ≠ .slewing → u.body.mg = s.body.mg ∧ u.alm.st = s.alm.st ∧ u.alm.offset = s.alm.offset ∧ u.body.data = s.body.data) ∧
      (s.alm.step = none → s.alm.st = .slewing → 10 * s.alm.bound < s.alm.slew.natAbs - 1 → u.alm.st = .slewing ∧ u.alm.slew.natAbs = s.alm.slew.natAbs - 1) ∧
      (s.alm.step = none → s.alm.st = .slewing → s.alm.slew.natAbs ≤ 10 * s.alm.bound → u.alm.st = .locked ∧ u.alm.slew = 0) ∧
      (∀ e ∈ u.body.mg.schedule, ∃ x ∈ s.body.mg.schedule, x.ticket = e.ticket ∧ x.kind = e.kind ∧
        (x.beat = e.beat ∨ (x.counts = false ∧ x.beat = s.alm.beat + 1 ∧ e.beat = u.alm.beat)) ∧
        (e.late = true → x.late = true ∨ (s.alm.beat < e.beat ∧ e.beat < u.alm.beat))) ∧
      (u.alm.beat % 16 ≠ 0 → u.body.host = s.body.host ∧ u.body.fab = s.body.fab) ∧
      (u.alm.beat % 16 = 0 → u.alm.started = true → ∀ p ∈ s.body.fab.links, p.2.trained = true → p.2.carries = true → p.2.training = none →
        ∃ seq c bs, Output.link p.1 seq (.sync c) bs ∈ u.body.host.out ∧ c.beat = u.alm.beat ∧ c.state = u.alm.st.code ∧ c.errBound = u.alm.errBound) ∧
      u.body.data.mem = s.body.data.mem ∧ u.body.pw.cap = min (rackInput u.body.pw s.body.flash.cap u.alm.beat) s.body.flash.cap.capW ∧
      (∀ q ∈ s.body.pw.budgets, q ∈ u.body.pw.budgets) ∧ (s.latch.fault = false → ∀ e ∈ u.body.mg.schedule, ∀ w dur, e.kind = .budget w dur →
        e.beat ≤ u.alm.beat → ∃ q ∈ u.body.pw.budgets, q.order = e.order) ∧
      (s.body.md.uv = true → u.body.pw.steps = List.replicate 8 16 ∧ u.body.pw.duty = List.replicate 8 1) ∧
      u.body.md.standbyBeats = s.body.md.standbyBeats + 1) ∧
  (∀ meas s, s.body.md.p3v3 = false ∨ s.body.md.oscOk = false → Leaves (.beatEdge meas) s s)

/-- 13 R369, R370; 14 R387, R388, R404; 15 R425: an epoch ends once. The lease holder divides the cap in force: the shares
and HBM's stay within it, less the I/O draw, the loss of the regulators and 2 %. The energy is charged, the counters that
post once an epoch have posted. A side that only believes that it holds the lease is dropped, and stops acting. The
model's own readings and choices in it: log entries 112, 113, 147, 196, 202. -/
def Obligations.EpochBoundary : Prop :=
  (∀ meas s, s.body.pw.asOf / 1000 < s.alm.beat / 1000 → s.acting = true → s.body.md.recovery = false →
    (s.body.mg.nSt = .holder → s.latch.holder = some .north) → (s.body.mg.sSt = .holder → s.latch.holder = some .south) →
    Makes (.epochBoundary meas) s fun u => let live := ((List.range 8).filter fun i => !s.body.data.dieOut.contains i).length
      u.body.pw.asOf = s.alm.beat / 1000 * 1000 ∧ u.body.pw.moduleMj = s.body.pw.moduleMj + meas.moduleMj ∧
      u.body.pw.hbmMj = s.body.pw.hbmMj + meas.hbmMj ∧ u.body.pw.ioMj = s.body.pw.ioMj + meas.ioMj ∧
      (∀ i, i < 8 → u.body.pw.dieMj.getD i 0 = s.body.pw.dieMj.getD i 0 + meas.dieMj.getD i 0) ∧
      s.body.pw.unattrMj ≤ u.body.pw.unattrMj ∧ u.body.pw.unattrMj ≤ s.body.pw.unattrMj + meas.moduleMj ∧
      u.body.pw.shares.length = 8 ∧ (∀ i, i < 8 → i ∈ s.body.data.dieOut → u.body.pw.shares.getD i 0 = 0) ∧
      (∀ i, i < 8 → i ∉ s.body.data.dieOut → 30 ≤ u.body.pw.shares.getD i 0 ∧ u.body.pw.shares.getD i 0 ≤ 190) ∧
      (s.body.pw.cap = 2000 → s.body.pw.learned = [] → meas.ioMj + meas.lossW ≤ 410 → u.body.pw.hbmShare = 350 ∧
        ∀ i, i < 8 → i ∉ s.body.data.dieOut → u.body.pw.shares.getD i 0 = 150) ∧
      60 ≤ u.body.pw.hbmShare ∧ u.body.pw.hbmShare ≤ 420 ∧
      (30 * live + 60 + meas.ioMj + meas.lossW ≤ s.body.pw.cap * 98 / 100 →
        u.body.pw.shares.sum + u.body.pw.hbmShare + meas.ioMj + meas.lossW ≤ s.body.pw.cap * 98 / 100) ∧
      u.body.pw.cap = s.body.pw.cap ∧ u.body.log.tallies = [] ∧ u.body.mg = s.body.mg ∧ u.alm = s.alm ∧ u.latch = s.latch) ∧
  (∀ meas s, s.body.pw.asOf / 1000 < s.alm.beat / 1000 → s.latch.holder = some .north → s.latch.fault = false → s.body.mg.sSt = .holder →
    s.body.mg.nSt ≠ .holder → pmRuns s .south = true → Makes (.epochBoundary meas) s fun u =>
      u.latch = { s.latch with sDropped := s.latch.sDropped + 1 } ∧ u.body.mg.sSt = .syncing ∧ u.body.mg.nSt = s.body.mg.nSt) ∧
  (∀ meas s, s.alm.beat / 1000 ≤ s.body.pw.asOf / 1000 → Leaves (.epochBoundary meas) s s)

/-- 02 R53-R60; 14 R384, R385, R405; 09 R284, R286, R287: at their beat, entries of the schedule run in the order of beat,
kind and acceptance. Each leaves the schedule, has its effect and posts its execution; one that runs after its beat is
late. Budgets end when their time is over, and fall back to the safe cap when none has come. The model's own readings and
choices in it: log entries 94, 95, 96, 191, 193, 197. -/
def Obligations.ScheduledActions : Prop :=
  (∀ s e, nextEntry s = some e → e ∈ s.body.mg.schedule ∧ e.beat ≤ s.alm.beat ∧ (e.kind.armed = false → s.acting = true) ∧
    ∀ x ∈ s.body.mg.schedule, canFire s x = true → fireBefore x e = false) ∧
  (∀ s t meas, (∀ e, nextEntry s = some e → e.ticket ≠ t) → Leaves (.scheduleEntryFire t meas) s s) ∧
  (∀ s e, nextEntry s = some e → e.ticket ≠ 0 → e.late = false → e.beat = s.alm.beat →
    let told (u : State) (st : Nat) : Prop := ∃ a, u.body.data.posts.getLast? = some ⟨0x0501, 0,
      [(e.ticket, 4), (if e.kind = .wrapped then e.letter.arg 16 2 else e.letter.op, 2), (st, 2), (e.letter.stamp, 1), (0, 1), (a, 1), (0, 5), (e.beat, 8), (s.alm.beat, 8)], none⟩
    let gone (u : State) : Prop := u.body.mg.schedule = s.body.mg.schedule.filter fun x => x.order != e.order
    (∀ w dur meas c, e.kind = .budget w dur → c = .budgetTakesEffect e.ticket ∨ c = .scheduleEntryFire e.ticket meas →
      Makes c s fun u => gone u ∧ told u 0 ∧ u.body.data.mem = s.body.data.mem ∧
        u.body.pw.budgets = (if s.body.pw.budgets.any fun q => q.order == e.order then s.body.pw.budgets
          else s.body.pw.budgets ++ [⟨w, e.beat, dur, e.order⟩]) ∧
        u.body.pw.cap = min (rackInput u.body.pw s.body.flash.cap s.alm.beat) s.body.flash.cap.capW) ∧
    (∀ crc, e.kind = .routes crc → Makes (.routesSwitchAtBeat e.ticket) s fun u => gone u ∧ told u 0 ∧
      u.body.fab.active = !s.body.fab.active ∧ u.body.fab.lastSwitch = some e.beat ∧ u.body.fab.bank0 = s.body.fab.bank0 ∧
      u.body.fab.bank1 = s.body.fab.bank1) ∧
    (∀ tag nodes n p, e.kind = .graft tag nodes → plotOfTag s.body.data tag = some n → mget s.body.data.plots n = some p →
      Makes (.graftAtBeat e.ticket) s fun u => gone u ∧ told u 0 ∧ ∃ p', mget u.body.data.plots n = some p' ∧
        (∀ x, x ∈ p'.mem ↔ x ∈ p.mem ∨ x ∈ nodes) ∧ (∀ x, x ∈ p'.pruned ↔ x ∈ p.pruned ∧ x ∉ nodes) ∧
        { p' with mem := p.mem, pruned := p.pruned } = p) ∧
    (∀ tag nodes, e.kind = .graft tag nodes → plotOfTag s.body.data tag = none → Makes (.graftAtBeat e.ticket) s fun u =>
      gone u ∧ told u 0x35 ∧ u.body.data.plots = s.body.data.plots) ∧
    (∀ tag nodes n p, e.kind = .prune tag nodes → plotOfTag s.body.data tag = some n → mget s.body.data.plots n = some p →
      s.body.data.node ∉ nodes → Makes (.pruneAtBeat e.ticket) s fun u => gone u ∧ told u 0 ∧ ∃ p', mget u.body.data.plots n = some p' ∧
        (∀ x, x ∈ p'.mem ↔ x ∈ p.mem ∧ x ∉ nodes) ∧ ∀ x ∈ nodes, x ∈ p'.pruned) ∧
    (∀ slot meas, e.kind = .sample slot → Makes (.telemetrySample e.ticket meas) s fun u => gone u ∧ told u 0 ∧
      ∃ a b, mget u.body.pw.samples slot = some
        ⟨s.alm.beat, s.body.pw.moduleMj :: s.body.pw.dieMj ++ [s.body.pw.hbmMj, s.body.pw.ioMj, s.body.pw.cap, a, b]⟩) ∧
    (e.kind = .wrapped → stillBound s e.letter = false → Makes (.wrappedLetterAtBeat e.ticket) s fun u => gone u ∧ told u 5 ∧
      u.body.pw = s.body.pw ∧ u.body.fab = s.body.fab) ∧
    let i := innerLetter e.letter
    (e.kind = .wrapped → stillBound s e.letter = true → i.op = 0x0402 → portOk i.stamp i.op i.args = true → ownerOk s.body.data i.stamp i.op i.args = true → stateRefuses s i.op i.args = none → Makes (.wrappedLetterAtBeat e.ticket) s fun u => gone u ∧ told u 0 ∧ (i.arg 0 1 % 2 = 1 → u.body.flash.cap.capW = i.arg 2 2))) ∧
  (∀ s e meas slot, nextEntry s = some e → e.kind = .sample slot → e.beat < s.alm.beat → Makes (.scheduleEntryFire e.ticket meas) s fun u =>
    u.alm.lateSeen = true) ∧
  (∀ s, Makes .budgetExpiry s fun u => (∀ q, q ∈ u.body.pw.budgets ↔ q ∈ s.body.pw.budgets ∧ (q.dur = 0 ∨ s.alm.beat < q.start + q.dur)) ∧
    u.body.pw = { s.body.pw with budgets := u.body.pw.budgets } ∧ u.body.data = s.body.data ∧ u.body.mg = s.body.mg) ∧
  (∀ s, s.body.pw.fallbackOn = false → s.body.pw.lastAccept.getD 0 + s.body.flash.cap.fallback ≤ s.alm.beat → Makes .budgetFallback s fun u =>
    u.body.pw = { s.body.pw with budgets := [], fallbackOn := true } ∧ (∀ e ∈ u.body.mg.schedule, ∀ w dur, e.kind ≠ .budget w dur) ∧
      u.body.data = s.body.data.post 0x0607 0 [(s.alm.beat, 0), (s.body.pw.lastAccept.getD 0, 0), (s.body.flash.cap.safeW, 0)])

/-! ### Synchronisation -/

/-- 02 R43, R45-R52; 09 R272: sync cells and pulses. A follower that has four consistent cells takes the count of its
source, corrects small offsets at once, slews larger ones and steps forward over the largest; a root yields to a better
one. Without cells, or with three pulses out of place, the count holds over. The model's own readings and choices in it:
log entries 108, 109, 111, 176, 177. -/
def Obligations.Synchronisation : Prop :=
  (∀ s port cell sub c, cell.zero = false → 16 ≤ port → Leaves (.syncCellRx port cell sub c) s (discard s port 4)) ∧
  (∀ s port cell sub c, cell.zero = true ∨ port < 16 → (s.body.fab.link port).carries = false → Leaves (.syncCellRx port cell sub c) s s) ∧
  (∀ s port cell sub old, cell.zero = true ∨ port < 16 → (s.body.fab.link port).carries = true → s.alm.srcs = [(port, old)] →
    let ns := cell.beat * 1000 + (s.body.fab.link port).delayNs
    let off : Int := ((s.alm.beat * 1000 + sub : Nat) : Int) - ((ns : Nat) : Int)
    let bound := if port = 254 ∨ (port < 16 ∧ cell.hops = 0) then 20 else 250
    (s.alm.isRoot = true → cell.rootSerial = s.body.md.serial ∨ lexLt [cell.priority, cell.rootSerial] [s.alm.priority, s.body.md.serial] = false →
      ∀ c, Leaves (.syncCellRx port cell sub c) s (s.setAlm { s.alm with srcs := [(port, ⟨cell, s.alm.beat, if c = true ∧ s.alm.beat < old.at_ + 64 then old.run + 1 else 1, off⟩)] })) ∧
    (s.alm.isRoot = true → cell.rootSerial ≠ s.body.md.serial → lexLt [cell.priority, cell.rootSerial] [s.alm.priority, s.body.md.serial] = true →
      ∀ c, Makes (.syncCellRx port cell sub c) s fun u => u.alm.rootLost = true ∧ u.alm.conflict = true ∧
        ⟨0x0103, 0, [(cell.rootSerial, 0), (cell.priority, 0)], none⟩ ∈ u.body.data.posts) ∧
    (s.alm.isRoot = false → s.alm.st = .free ∨ s.alm.st = .acquiring →
      (3 ≤ old.run → s.alm.beat < old.at_ + 64 → Makes (.syncCellRx port cell sub true) s fun u => u.alm.st = .locked ∧ u.alm.source = port ∧
        u.alm.hops = cell.hops + 1 ∧ u.alm.rootSerial = cell.rootSerial ∧ u.alm.beat = ns / 1000 ∧
        u.body = { s.body.rebase s.alm.beat (ns / 1000) with mg := u.body.mg }) ∧
      Makes (.syncCellRx port cell sub false) s fun u => u.alm.st = .acquiring ∧ u.alm.beat = s.alm.beat ∧ u.body = s.body) ∧
    (s.alm.isRoot = false → s.alm.st = .locked → s.alm.source = port → ∀ c, Makes (.syncCellRx port cell sub c) s fun u =>
      u.alm.beat = s.alm.beat ∧ u.alm.offset = off ∧
      (off.natAbs ≤ bound → u.alm.st = .locked ∧ u.alm.slew = s.alm.slew ∧ u.alm.step = s.alm.step ∧
        u.alm.freqPpb = Config.freqTrim s.body.data.free ∧ u.body = { s.body with data := { s.body.data with free := s.body.data.free + 1 } }) ∧
      (bound < off.natAbs → u.body = s.body ∧ u.alm.freqPpb = s.alm.freqPpb) ∧
      (bound < off.natAbs → -1000000 ≤ off → u.alm.st = .slewing ∧ u.alm.slew = 10 * off) ∧
      (off < -1000000 → u.alm.step = some (((-off) / 1000).toNat, off)))) ∧
  (∀ s, s.alm.isRoot = false → s.alm.st = .locked ∨ s.alm.st = .slewing → s.alm.listenFrom + 64 ≤ s.alm.beat →
    (∀ p ∈ s.alm.srcs, p.2.at_ + 64 ≤ s.alm.beat) → Makes .almHoldoverTimeout s fun u => u.alm.st = .holdover ∧ u.alm.since = s.alm.beat ∧
      u.alm.beat = s.alm.beat ∧ u.alm.holdBound = s.alm.errBound ∧ (∀ p ∈ u.alm.srcs, p.2.run = 0) ∧ u.body.data = s.body.data.post 0x0101 0 [(s.alm.beat, 0)]) ∧
  (∀ s p, p ∈ s.alm.srcs → s.alm.beat < p.2.at_ + 64 → Leaves .almHoldoverTimeout s s) ∧
  (∀ s sub, s.alm.mode ≠ .pps ∨ s.alm.rootLost = true → Leaves (.ppsEdge sub) s s) ∧
  (∀ s sub, s.alm.mode = .pps → s.alm.rootLost = false →
    (s.alm.ppsSeen = false → s.alm.st = .free → Makes (.ppsEdge sub) s fun u => u.alm.st = .locked ∧ u.alm.beat = s.alm.ppsNext ∧
      u.alm.ppsSeen = true ∧ u.alm.ppsPresent = true ∧ u.alm.ppsLast = s.alm.ppsNext ∧
      u.body = { s.body.rebase s.alm.beat s.alm.ppsNext with mg := u.body.mg }) ∧
    (s.alm.ppsSeen = true → let off : Int := ((s.alm.beat * 1000 + sub : Nat) : Int) - (ppsNearest s.alm.ppsNext s.alm.beat * 1000 : Nat)
      s.alm.st = .locked →
      (1000 < (off - s.alm.offset).natAbs → s.alm.outliers < 2 → Leaves (.ppsEdge sub) s (s.setAlm { s.alm with
        ppsLast := s.alm.beat, outliers := s.alm.outliers + 1 })) ∧
      (1000 < (off - s.alm.offset).natAbs → s.alm.outliers = 2 → Makes (.ppsEdge sub) s fun u => u.alm.st = .holdover ∧ u.body = s.body) ∧
      ((off - s.alm.offset).natAbs ≤ 1000 → off.natAbs ≤ s.alm.bound → Leaves (.ppsEdge sub) s { s with
        alm := { s.alm with
          outliers := 0, ppsLast := s.alm.beat, ppsGood := some s.alm.beat, offset := off, freqPpb := Config.freqTrim s.body.data.free }
        body := { s.body with data := { s.body.data with free := s.body.data.free + 1 } } }))) ∧
  (∀ s, s.alm.mode = .pps → s.alm.rootLost = false → s.alm.ppsLast + 1500000 ≤ s.alm.beat →
    Makes .ppsTimeout s fun u => u.alm.ppsPresent = false ∧ u.body = s.body ∧ u.alm.beat = s.alm.beat ∧
      (s.alm.st = .locked ∨ s.alm.st = .slewing → u.alm.st = .holdover) ∧ (s.alm.st = .free → u.alm.st = .free))

/-! ### The lease -/

/-- 13 R368-R374, R381; 12 R355: the lease latch, takeovers, handovers and the standby. Of two that claim, the side that
did not hold the lease last gets it; a grant counts a generation. A renewal sets REMAINING; a lease that ran out is free.
The model's own readings and choices in it: log entries 103, 104, 106, 107, 198. -/
def Obligations.Lease : Prop :=
  (∀ s n t x, s.latch.fault = false → s.latch.holder = none →
    s.latch.winner (n && mayClaim s .north) (t && mayClaim s .south) = some x → pmOf s.body.mg x = .booting →
    Makes (.leaseClaim n t) s fun u => u.latch = { s.latch with holder := some x, last := some x, gen := s.latch.gen + 1, remaining := 50000 } ∧
      pmOf u.body.mg x = .holder ∧ u.body.mg.takeDue = s.body.mg.takeDue ∧ u.body.data = s.body.data) ∧
  (∀ s n t x, s.latch.fault = false → s.latch.holder = none →
    s.latch.winner (n && mayClaim s .north) (t && mayClaim s .south) = some x → pmOf s.body.mg x = .standbyReady → s.body.mg.handover = 0 →
    Makes (.leaseClaim n t) s fun u => u.latch = { s.latch with holder := some x, last := some x, gen := s.latch.gen + 1, remaining := 50000 } ∧
      pmOf u.body.mg x = .holder ∧ u.body.mg.takeDue = true ∧ u.body.mg.journal = s.body.mg.journal ∧ u.body.data = s.body.data) ∧
  (∀ l : Latch, l.winner true true ≠ none ∧ (l.last = some .north → l.winner true true = some .south) ∧
    (l.last = some .south → l.winner true true = some .north) ∧ (l.last = none → l.winner true true = some .north) ∧
    l.winner true false = some .north ∧ l.winner false true = some .south ∧ l.winner false false = none) ∧
  (∀ s n t, s.latch.fault = true ∨ s.latch.holder ≠ none → Leaves (.leaseClaim n t) s s) ∧
  (∀ s x, s.latch.fault = false → pmOf s.body.mg x = .holder → pmRuns s x = true →
    (s.latch.holder = some x → s.latch.remaining ≠ 0 → Makes (.leaseRenew x) s fun u => u.latch = { s.latch with remaining := 50000 } ∧
      u.body.data = s.body.data ∧ (s.body.mg.takeDue = false → u.body.mg.lastRenewal = s.alm.beat)) ∧
    (s.latch.holder ≠ some x → s.latch.remaining ≠ 0 → Makes (.leaseRenew x) s fun u => u.latch = s.latch ∧ pmOf u.body.mg x = .syncing ∧
      u.body.data = s.body.data.post 0x0504 (sideSource x) [(sideNo x, 0), (s.latch.gen.toNat, 0), (s.latch.droppedOf x, 0)])) ∧
  (∀ s x, s.latch.fault = false → s.latch.holder = some x → pmRuns s x = true → Makes (.leaseRelease x) s fun u =>
    u.latch = { s.latch with holder := none, remaining := 0 } ∧ pmOf u.body.mg x = .syncing ∧ u.body.data = s.body.data) ∧
  (∀ s x, s.latch.fault = false → s.latch.holder = some x → s.latch.remaining = 0 → Makes .leaseExpiry s fun u =>
    u.latch = { s.latch with holder := none } ∧ u.body.mg = { s.body.mg with handover := 0, takeDue := false } ∧ u.body.data = s.body.data) ∧
  (∀ s, s.latch.remaining ≠ 0 → Leaves .leaseExpiry s s) ∧
  (∀ s, s.latch.fault = false → s.body.md.p3v3 = true → Leaves .latchCopyMismatch s
    ((s.setLatch { s.latch with fault := true }).post 0x0508 0 [(s.alm.beat, 0), (s.latch.gen.toNat, 0)])) ∧
  (∀ s x, s.latch.holder = some x → s.body.mg.takeDue = true → s.latch.fault = false → pmOf s.body.mg x = .holder → pmRuns s x = true →
    s.body.mg.schedule = [] → Makes .takeover s fun u => u.body.mg.takeDue = false ∧ u.body.mg.handover = 0 ∧ u.body.mg.accept = [] ∧
      u.body.mg.takeovers = s.body.mg.takeovers + 1 ∧ u.body.mg.retries = s.body.mg.retries + s.body.mg.accept.length ∧
      u.body.mg.lastTakeover = s.alm.beat ∧ u.latch = s.latch ∧ u.body.data.mem = s.body.data.mem ∧
      u.body.data.posts = s.body.data.posts ++ [⟨0x0502, sideSource x, [(s.latch.gen.toNat, 0), (s.body.mg.lastRenewal, 0),
        ((openEntries s.body.mg).length, 0), (s.body.mg.accept.length, 0)], none⟩]) ∧
  (∀ s x, pmOf s.body.mg x = .syncing → pmRuns s x = true → s.acting = true → s.latch.holder ≠ some x →
    Leaves (.standbyResyncDone x) s ((s.mg fun m => setPm m x .standbyReady).post 0x0507 (sideSource x) [(sideNo x, 0), (s.body.mg.nextJid, 0)])) ∧
  (∀ s x, s.latch.holder = some x → s.latch.fault = false → pmRuns s x = true → pmOf s.body.mg (otherSide x) = .standbyReady →
    Leaves .standbyMirrorTimeout s ((s.mg fun m => setPm m (otherSide x) .fault).post 0x0506 (sideSource (otherSide x)) [(sideNo (otherSide x), 0)])) ∧
  (∀ s x, pmOf s.body.mg x ≠ .off → pmOf s.body.mg x ≠ .standbyReady → sideDie x ∉ s.body.data.dieOut → s.body.md.recovery = false →
    Makes (.postmasterRestart x) s fun u => pmOf u.body.mg x = (if s.latch.holder = some (otherSide x) then .syncing else .booting) ∧
      x ∉ u.body.mg.halted ∧ u.body.data = s.body.data ∧ u.latch = s.latch) ∧
  (∀ s x, s.body.mgdb.grants / 2 % 2 = 1 → x ∉ s.body.mg.halted → Leaves (.haltingDebug x) s (s.mg fun m => { m with halted := x :: m.halted })) ∧
  (∀ s x, s.body.mgdb.grants / 2 % 2 = 0 → Leaves (.haltingDebug x) s s)

/-! ### Queues and nodes -/

/-- 10 R299-R308, R313-R316; 16 R442: a Dispatcher claims the entry at its queue's ticket and releases the slot; waits,
signals, resumes and launches are executed; a ready node of the lowest index is dispatched from a snapshot of its slip and
ends; watches are digested, waiters evaluated. The model's own readings and choices in it: log entries 52, 53, 54, 55, 58,
59, 60, 61, 184, 187, 188, 205. -/
def Obligations.QueuesAndNodes : Prop :=
  (∀ s h p q t l, let d := s.body.data
    mget d.pigeons h = some p → p.queue = some q → q.entry = none → queueClaims d p q = true → (8 + q.disp / 4) ∉ d.dieOut →
    d.busyAt (d.ctxPlot p.ctx) p.ring 24 = false → d.busyAt (d.ctxPlot p.ctx) (slotAddr p t) 64 = false →
    d.sRead p.ctx 4 (p.ring + 8) 8 = (d, some t) → d.devRead (d.ctxPlot p.ctx) (slotAddr p t % 2 ^ 40) 64 = some l →
    let w := (d.sWrite p.ctx 4 (p.ring + 8) (natLe 8 (t + 1))).sWrite p.ctx 4 (slotAddr p t) (natLe 8 (t + 2 ^ p.log2))
    (field l 0 8 ≠ (t + 1) % 2 ^ 64 → Leaves (.queueEntryClaim h) s s) ∧
    (field l 0 8 = (t + 1) % 2 ^ 64 → q.running = true → (∀ c ∈ entryChecks l, c.ok = true) →
      (field l 8 1 = 4 ∨ field l 8 1 = 1 ∧ field l 9 1 / 2 % 2 = 0 ∨ eventOk w p.ctx (field l 14 2) = true) →
      (field l 8 1 = 1 → graphOk w p.ctx (field l 12 2) = true) →
      let e : QEntry := { bytes := l, ticket := t, jgen := (mget s.body.sj p.ctx).map fun (j : StepJournal) => j.gen }
      Leaves (.queueEntryClaim h) s (s.setData { w with pigeons := mput w.pigeons h { p with queue := some { q with entry := some e } } })) ∧
    (field l 0 8 = (t + 1) % 2 ^ 64 → q.running = false → field l 8 1 = 2 ∨ field l 8 1 = 3 → Leaves (.queueEntryClaim h) s (s.setData w))) ∧
  (∀ s h p q e, let d := s.body.data
    d.halted = false →
    (entryOf d h 2 = some (p, q, e) → q.running = true → eventBusy d (field e.bytes 14 2) = true → Leaves (.queueWait h) s s) ∧
    (entryOf d h 2 = some (p, q, e) → eventBusy d (field e.bytes 14 2) = false → eventMet d p.ctx (field e.bytes 14 2) (field e.bytes 16 8) = true →
      Leaves (.queueWait h) s (s.setData (d.entryDone h))) ∧
    (entryOf d h 2 = some (p, q, e) → q.running = true → eventBusy d (field e.bytes 14 2) = false →
      eventMet d p.ctx (field e.bytes 14 2) (field e.bytes 16 8) = false →
      (mget d.events (field e.bytes 14 2) = none ∨ (d.eventVal (field e.bytes 14 2)).isSome = true → Leaves (.queueWait h) s s) ∧
      (∀ v, mget d.events (field e.bytes 14 2) = some v → d.eventVal (field e.bytes 14 2) = none → ∃ a, Leaves (.queueWait h) s
        (s.setData (d.structLost v.ctx (d.eventStruct (field e.bytes 14 2) v.ctx) a)))) ∧
    (q.running = false → (entryOf d h 2 = some (p, q, e) → Leaves (.queueWait h) s (s.setData (d.entryDone h))) ∧
      (entryOf d h 3 = some (p, q, e) → Leaves (.queueSignal h) s (s.setData (d.entryDone h))) ∧
      (entryOf d h 1 = some (p, q, e) → q.launch = none → Leaves (.queueLaunch h) s
        (s.setData ((launchless d q.disp p.ctx (field e.bytes 24 8) 2 s.alm.beat).entryDone h)))) ∧
    (entryOf d h 3 = some (p, q, e) → q.running = true → eventBusy d (field e.bytes 14 2) = false →
      Leaves (.queueSignal h) s (s.setData ((d.eventAdd (field e.bytes 14 2) (field e.bytes 16 8)).entryDone h))) ∧
    (entryOf d h 4 = some (p, q, e) → q.running = false → Leaves (.queueResume h) s (s.setData (Data.entryDone
      (Data.post { d with pigeons := mput d.pigeons h { p with queue := some { q with running := true } } } 0x0802 0
        [(h, 2), (p.ctx, 2), (0, 4), (e.ticket, 8)]) h)))) ∧
  (∀ s h p q e, let d := s.body.data
    let g := field e.bytes 12 2
    entryOf d h 1 = some (p, q, e) → mayDispatch d p.ctx = true → q.running = true → q.launch = none →
    (graphHeld d p.ctx g = false → Leaves (.queueLaunch h) s (s.setData ((launchless d q.disp p.ctx (field e.bytes 24 8) 5 s.alm.beat).entryDone h))) ∧
    (graphHeld d p.ctx g = true → ∀ x k, mget d.graphs g = some x → pickBank x = some k → Makes (.queueLaunch h) s fun u =>
      (∃ y, mget u.body.data.launches d.nextId = some y ∧ y.open_ = true ∧ y.queue = h ∧ y.graph = g ∧ y.ctx = p.ctx ∧ y.rep = field e.bytes 10 2 ∧
        y.bank = k ∧ y.startBeat = s.alm.beat ∧ y.nodes = (List.range x.nodes.length).map (fun i => (i, NodeRun.fresh)) ∧
        y.record = field e.bytes 24 8 ∧ y.seq = ((mget d.ctxs p.ctx).map fun c => c.launchSeq).getD 0) ∧
      (∃ y, mget u.body.data.graphs g = some y ∧ y.lastBank = k ∧ y.banks = sadd x.banks k) ∧
      mget u.body.data.pigeons h = some { p with queue := some { q with launch := some d.nextId } } ∧ u.body.data.mem = d.mem)) ∧
  (∀ s id l g p i n, let d := s.body.data
    mget d.launches id = some l → mget d.graphs l.graph = some g → mget d.plots (d.ctxPlot l.ctx) = some p → g.nodes[i]? = some n →
    (nodeReady s.body l g i = false → Leaves (.nodeDispatch id i) s s) ∧
    (l.open_ = true → l.aborted = false → mayDispatch d l.ctx = true → nodeReady s.body l g i = true → (∀ m, m < i → nodeReady s.body l g m = false) →
      n.slip = 0 →
      (n.kind = 1 → n.detached = false → Makes (.nodeDispatch id i) s fun u => ∃ y x, mget u.body.data.launches id = some y ∧
        mget y.nodes i = some x ∧ x.st = .dispatched ∧ x.grid = n.blocks) ∧
      (n.kind = 7 → Makes (.nodeDispatch id i) s fun u => ∃ y x, mget u.body.data.launches id = some y ∧ mget y.nodes i = some x ∧
        x.st = .done ∧ y.run = l.run + 1) ∧
      (n.kind = 4 → eventMet (d.sWrite l.ctx 7 (snapAddr g l.bank i) noSlip) l.ctx (n.target.toNat % 65536) n.value.toNat = false →
        Makes (.nodeDispatch id i) s fun u => ∃ y x, mget u.body.data.launches id = some y ∧ mget y.nodes i = some x ∧ x.st = .dispatched ∧
          x.slip = BitVec.ofNat 64 n.value.toNat))) ∧
  (∀ s id l n i x, let d := s.body.data
    mget d.launches id = some l → ((mget d.graphs l.graph).bind fun g => g.nodes[i]?) = some n → mget l.nodes i = some x → x.st = .dispatched →
    d.halted = false →
    (n.kind = 1 → x.aborted = false → x.placed = x.grid → n.detached = true ∨ x.ended = x.grid →
      Leaves (.nodeComplete id i) s (s.setData (nodeEnds d id i .done))) ∧
    (n.kind = 1 → x.aborted = false → x.placed ≠ x.grid ∨ n.detached = false ∧ x.ended ≠ x.grid → Leaves (.nodeComplete id i) s s) ∧
    (n.kind = 2 ∨ n.kind = 3 → x.engine = some 0 → Leaves (.nodeComplete id i) s (s.setData (nodeEnds d id i .done))) ∧
    (∀ c, n.kind = 2 ∨ n.kind = 3 → x.engine = some (c + 1) → Leaves (.nodeComplete id i) s (s.setData (nodeFails d id i 3 (c + 1))))) ∧
  (∀ s id l j i w v, mget s.body.data.launches id = some l → s.body.journalOf l = some j → s.body.data.halted = false →
    ((s.body.digestsDue l).filter fun x => x.1 == i) = [(i, w)] → j.watches[w]? = some v → Makes (.journalWatchDigest id i) s fun u =>
      u.body.data.mem = s.body.data.mem ∧ ∃ y, mget u.body.data.launches id = some y ∧
        y.digests = l.digests ++ [(w, digestOf s.body.data (s.body.data.ctxPlot l.ctx) v.2.1 v.2.2)]) ∧
  (∀ s k, 8 ≤ k ∨ s.body.data.halted = true → Leaves (.eventWaiterPoll k) s s) ∧
  (∀ s h p q e v a b, let d := s.body.data
    d.pigeons = [(h, p)] → entryOf d h 2 = some (p, q, e) → q.disp < 8 → (8 + q.disp / 4) ∉ d.dieOut → d.halted = false → d.launches = [] →
    q.running = true → (∀ x ∈ d.events, x.1 ≠ field e.bytes 14 2 → x.2.vector = 0xFFFF) →
    mget d.events (field e.bytes 14 2) = some v → d.ctxPlot v.ctx = d.ctxPlot p.ctx → eventBusy d (field e.bytes 14 2) = false →
    d.devRead (d.ctxPlot v.ctx) (v.addr % 2 ^ 40) 8 = some a → d.devRead (d.ctxPlot v.ctx) ((v.addr + 8) % 2 ^ 40) 8 = some b →
    (v.vector = 0xFFFF → field e.bytes 16 8 ≤ leNat a → Leaves (.eventWaiterPoll q.disp) s (s.setData (d.entryDone h))) ∧
    (v.vector ≠ 0xFFFF → leNat b ≤ leNat a → v.fired ≠ some (BitVec.ofNat 64 (leNat b)) → leNat a < field e.bytes 16 8 →
      Makes (.eventWaiterPoll q.disp) s fun u => u.body.data.irqs = d.irqs ++ [(d.ctxPlot v.ctx, v.vector)] ∧ u.body.data.mem = d.mem))

/-! ### Weeding passes -/

/-- 03 R102-R105; 07 R217; 09 R263, R283; 15 R408-R421: a unit that is due begins its deferral; a yield window or the
maximum deferral ends; a pass starts, has its phases and ends with a verdict, after which the unit is due again an
interval later, an hour later or at once. A core that fails goes down the ladder; a slice, runner lane or engine that
fails is lost. The model's own readings and choices in it: log entries 148, 149, 150, 151, 152, 153, 166, 195. -/
def Obligations.Passes : Prop :=
  (∀ s unit, (∀ c, unit ≠ .core c) → s.acting = true → s.body.md.state = 2 → s.body.pw.cold = .running → passWaits s = false →
    unitExists s.body (unitKind unit) (unitCode unit) = true → (mgetD s.body.hl.cals (unitKind unit) (Calendar.default 1)).enable = true →
    dueNow s.body s.alm.beat (unitKey unit) = true → mget s.body.hl.passes (unitKey unit) = none →
    Makes (.passDeferralBegin unit) s fun u => (∃ p, u.body.passOf unit = some p ∧ p.due = s.alm.beat ∧ p.start = none ∧ p.forced = none ∧
      p.pack = s.body.hl.packVersion) ∧ u.body.data = s.body.data ∧ u.body.hl.dues = s.body.hl.dues) ∧
  (∀ s c q, s.acting = true → s.body.md.state = 2 → s.body.pw.cold = .running → passWaits s = false → mget s.body.hl.pairs c = some (some q) → c ≠ q →
    unitExists s.body 1 (unitCode (.core c)) = true → (mgetD s.body.hl.cals 1 (Calendar.default 1)).enable = true → c < 672 → q < 672 →
    dueNow s.body s.alm.beat (unitKey (.core c)) = true → mget s.body.hl.passes (unitKey (.core c)) = none → mget s.body.hl.passes (unitKey (.core q)) = none →
    Makes (.passDeferralBegin (.core c)) s fun u => (u.body.data.core c).pass = .deferral s.alm.beat none ∧
      (u.body.data.core q).pass = .deferral s.alm.beat none ∧ (∃ p, u.body.passOf (.core c) = some p ∧ p.partner = some q ∧ p.due = s.alm.beat) ∧
      (∃ p, u.body.passOf (.core q) = some p ∧ p.partner = some c) ∧ ∀ k, k ≠ c → k ≠ q → u.body.data.core k = s.body.data.core k) ∧
  (∀ s unit, dueNow s.body s.alm.beat (unitKey unit) = false → (∀ c, unit ≠ .core c) → Leaves (.passDeferralBegin unit) s s) ∧
  (∀ s c t w, (s.body.data.core c).pass = .deferral t (some w) → w + 100 ≤ s.alm.beat → corePassReady s.body c = false →
    Makes (.yieldWindowExpiry c) s fun u => (u.body.data.core c).pass = .deferral t none ∧
      (∀ n, (mget (s.body.data.core c).groups n).map (fun g => if g.st = .yieldPark then { g with st := .run } else g) = mget (u.body.data.core c).groups n) ∧
      ∀ k, k ≠ c → u.body.data.core k = s.body.data.core k) ∧
  (∀ s e p, s.body.passOf (.engine e) = some p → p.start = none → p.due + deferFor s.body (.engine e) p ≤ s.alm.beat → p.forced = none →
    Leaves (.maxDeferralExpiry (.engine e)) s (s.setBody (s.body.setPass (.engine e) { p with forced := some s.alm.beat }))) ∧
  (∀ s c p, s.body.passOf (.core c) = some p → p.start = none → p.partner = none → p.due + deferFor s.body (.core c) p ≤ s.alm.beat →
    (dieBarred s.body.pw (c / 84) = false → p.forced = none → Makes (.maxDeferralExpiry (.core c)) s fun u =>
      (u.body.data.core c).pass = .forced s.alm.beat ∧ u.body.passOf (.core c) = some { p with forced := some s.alm.beat } ∧
      ∀ k, k ≠ c → u.body.data.core k = s.body.data.core k) ∧
    (dieBarred s.body.pw (c / 84) = true → sweepOwed s.body.hl (unitKey (.core c)) p = none → Makes (.maxDeferralExpiry (.core c)) s fun u => u.body.passOf (.core c) = none ∧
      (u.body.data.core c).pass = .none ∧ mget u.body.hl.dues (unitKey (.core c)) = some (s.alm.beat + 3600000000))) ∧
  (∀ s c p temp, s.body.passOf (.core c) = some p → p.start = none → p.partner = none → corePassReady s.body c = true →
    (s.body.data.core c).acc = [] → Makes (.corePassStart c temp) s fun u => (u.body.data.core c).pass = .running s.alm.beat 0 [] ∧
      (u.body.data.core c).near = [] ∧ (u.body.data.core c).icache = [] ∧ (∃ q, u.body.passOf (.core c) = some q ∧ q.start = some s.alm.beat ∧
        q.temp = temp ∧ q.phase = p.phase ∧ q.due = p.due) ∧ u.body.data.bench = s.body.data.bench ∧ u.body.data.mem = s.body.data.mem) ∧
  (∀ s c p t n fs res, s.body.passOf (.core c) = some p → (s.body.data.core c).pass = .running t n fs → p.start.isSome = true → p.phase < 2 →
    p.partner = none → Makes (.corePassPhaseEnd c res) s fun u => u.body.passOf (.core c) = some { p with
      phase := p.phase + 1, tags := p.tags ||| res.fixedTags ||| packTags res, stretch := max p.stretch res.stretch } ∧
      (∀ t ∈ res.tally, ⟨0x0701, 1 + 256 * coreUnit c, [(c / 84, 1), (c % 84 / 12, 1), (c % 12, 1), (t.set, 1), (t.check, 1), (t.pair, 1),
        (0xFFFF, 2), (t.pc, 8), (t.rows, 8), (t.cols, 8), (t.skipped, 2), (0, 2), (t.worst, 4), (t.nRound, 4), (t.out, 4)], none⟩ ∈ u.body.data.posts) ∧
      (u.body.data.core c).pass = .running t (n + 1) fs ∧ u.body.hl.suspects = s.body.hl.suspects) ∧
  (∀ s c p, s.body.passOf (.core c) = some p → p.start.isSome = true → p.phase = 2 → p.partner = none →
    let cal := mgetD s.body.hl.cals 1 (Calendar.default 1)
    (coreVerdict p = 0 → Makes (.corePassEnd c) s fun u => u.body.passOf (.core c) = none ∧ (u.body.data.core c).pass = .none ∧
      mget u.body.hl.cals 1 = some { cal with passes := cal.passes + 1 } ∧
      (sweepOwed s.body.hl (unitKey (.core c)) p = none → mget u.body.hl.dues (unitKey (.core c)) = some (s.alm.beat + cal.interval)) ∧
      (∀ t, sweepOwed s.body.hl (unitKey (.core c)) p = some t → mget u.body.hl.dues (unitKey (.core c)) = some (min t (s.alm.beat + cal.interval))) ∧
      mget u.body.hl.lastPass c = some s.alm.beat) ∧
    (coreVerdict p = 1 → (mgetD s.body.hl.suspects c Suspect.fresh).step < 6 → Makes (.corePassEnd c) s fun u => u.body.passOf (.core c) = none ∧
      (u.body.data.core c).pass = .none ∧ mget u.body.hl.cals 1 = some { cal with fails := cal.fails + 1 } ∧ (∃ x, mget u.body.hl.suspects c = some x ∧
        x.step = (mgetD s.body.hl.suspects c Suspect.fresh).step + 1 ∧ x.state = 1 ∧ x.units = (mgetD s.body.hl.suspects c Suspect.fresh).units ||| p.tags) ∧
      mget u.body.hl.dues (unitKey (.core c)) = some s.alm.beat) ∧
    (coreVerdict p = 3 → sweepOwed s.body.hl (unitKey (.core c)) p = none → Makes (.corePassEnd c) s fun u => u.body.passOf (.core c) = none ∧
      mget u.body.hl.dues (unitKey (.core c)) = some (s.alm.beat + 3600000000))) ∧
  (∀ p, (p.tags ≠ 0 → coreVerdict p = 1) ∧ (p.tags = 0 → p.unresolved = true → coreVerdict p = 2) ∧
    (p.tags = 0 → p.unresolved = false → coreVerdict p = if 1 < p.stretch then 3 else 0)) ∧
  (∀ s die n p, let k := 56 * die + n
    s.body.passOf (.slice die n) = some p → (p.start = none → s.body.data.halted = false → mget s.body.data.slices k = none →
      holdsSpill s.body.data die n = false → isScratch s.body.data k = false → Leaves (.slicePassStart die n) s
        (s.setBody (({ s.body with data := { s.body.data with
          slices := mput s.body.data.slices k (if isGranted s.body.data k then .flushing s.alm.beat else .bypassed s.alm.beat) } } : Body).setPass
          (.slice die n) { p with start := some s.alm.beat, temp := s.body.pw.temps.getD die 0 }))) ∧
    (∀ t, p.start.isSome = true → mget s.body.data.slices k = some (.bypassed t) →
      (isGranted s.body.data k = true → Makes (.slicePassEnd die n true) s fun u => mget u.body.data.slices k = some (.returning s.alm.beat) ∧
        u.body.passOf (.slice die n) = none) ∧
      (isGranted s.body.data k = false → Makes (.slicePassEnd die n true) s fun u => mget u.body.data.slices k = none ∧
        u.body.passOf (.slice die n) = none ∧ u.body.data.mem = s.body.data.mem) ∧
      (8 < ((List.range 56).filter fun j => sliceUp s.body.data (56 * die + j)).length → n < 56 → Makes (.slicePassEnd die n false) s fun u =>
        mget u.body.data.slices k = some .out ∧ k ∈ u.body.flash.slices ∧ u.body.data.dieOut = s.body.data.dieOut))) ∧
  (∀ s k p, s.body.passOf (.runner k) = some p → k < 16 →
    (p.start = none → s.body.data.halted = false → s.body.fab.portUp k = true → otherRunnerAway s.body.fab k = false → Makes (.runnerPassStart k) s fun u =>
      (u.body.fab.link k).passSince = some s.alm.beat ∧ u.body.passOf (.runner k) = some { p with
        start := some s.alm.beat, temp := s.body.pw.temps.getD (if k < 8 then 8 else 9) 0 }) ∧
    (∀ bad, p.start.isSome = true → Makes (.runnerPassEnd k bad) s fun u => u.body.passOf (.runner k) = none ∧
      u.body.fab.link k = { s.body.fab.link k with passSince := none, lost := (s.body.fab.link k).lost ||| bad, training := some s.alm.beat })) ∧
  (∀ s e p, s.body.passOf (.engine e) = some p →
    (p.start = none → s.body.data.halted = false → (s.body.data.engine (engNo e)).running = [] → (s.body.data.engine (engNo e)).queue = [] →
      Makes (.enginePassStart e) s fun u => u.body.data = s.body.data ∧ ∃ q, u.body.passOf (.engine e) = some q ∧ q.start = some s.alm.beat) ∧
    (p.start.isSome = true → Makes (.enginePassEnd e true) s fun u => u.body.passOf (.engine e) = none ∧ u.body.data.engOut = s.body.data.engOut) ∧
    (p.start.isSome = true → Makes (.enginePassEnd e false) s fun u => u.body.passOf (.engine e) = none ∧ engNo e ∈ u.body.data.engOut))

/-! ### Links -/

/-- 09 R263-R266, R269, R270, R272: cells, frames, training and surveys. A cell in order is acknowledged, ends what it acknowledges,
brings credits that let packets go, and may ask for a replay; one out of order asks for a replay itself; too many replays and a
lost lock retrain; lanes that come up carry the link, which is surveyed; a frame of another kind is discarded and counted; a
peer's record gives the verdict, and is answered. A packet leaves when its channel has a credit and none of its channel waits.
The model's own readings and choices in it: log entries 71, 72, 73, 74, 189, 190, 202. -/
def Obligations.Links : Prop :=
  (∀ s k seq c, k < 16 → (s.body.fab.link k).trained = true → (s.body.fab.link k).training = none → let l := s.body.fab.link k
    let buf := ackBuf l.txBuf c.word.ack
    (c.crcOk = true → seq = l.rxSeq → l.waiting = [] → l.replays + (if c.word.replay then buf.length else 0) ≤ 4096 →
      Makes (.runnerCellRx k seq c) s fun u => u.body.fab.link k = { l with
          rxSeq := l.rxSeq + 1, txBuf := buf, credits := addCredits l.credits c.word.credits
          replays := l.replays + (if c.word.replay then buf.length else 0) } ∧
        u.body.host.out = s.body.host.out ++ [.ack k (l.rxSeq + 1) (Config.creditGrant k (l.rxSeq + 1).toNat)] ++
          (if c.word.replay then buf.map fun x => .link k x.1 x.2 (linkBytes s.body k x.1 x.2) else []) ∧
        (∀ j, j ≠ k → u.body.fab.link j = s.body.fab.link j) ∧ u.body.data = s.body.data) ∧
    (∀ p, c.crcOk = true → seq = l.rxSeq → l.waiting = [p] → c.word.replay = false → l.replays ≤ 4096 → Makes (.runnerCellRx k seq c) s fun u =>
      ((addCredits l.credits c.word.credits).getD (vcOf p) 0 ≠ 0 → (u.body.fab.link k).waiting = [] ∧ (u.body.fab.link k).txSeq = l.txSeq + 1 ∧
        (u.body.fab.link k).txBuf = buf ++ [(l.txSeq, .packet p)]) ∧
      ((addCredits l.credits c.word.credits).getD (vcOf p) 0 = 0 → (u.body.fab.link k).waiting = [p] ∧ (u.body.fab.link k).txBuf = buf)) ∧
    (c.crcOk = false ∨ seq ≠ l.rxSeq → l.replays < 4096 → Leaves (.runnerCellRx k seq c) s
      ((s.setLink k { l with replays := l.replays + 1 }).setBody ((s.setLink k { l with replays := l.replays + 1 }).body.emit (.replay k l.rxSeq)))) ∧
    (c.crcOk = false ∨ seq ≠ l.rxSeq → 4096 ≤ l.replays → Makes (.runnerCellRx k seq c) s fun u =>
      (u.body.fab.link k).training = some s.alm.beat)) ∧
  (∀ (b : Body) k p, let l := b.fab.link k
    (l.mayLeave p = true ↔ l.credits.getD (vcOf p) 0 ≠ 0 ∧ ∀ q ∈ l.waiting, vcOf q ≠ vcOf p) ∧
    (l.mayLeave p = true → (b.linkPacket k p).data = b.data ∧ (b.linkPacket k p).fab.link k = { l with
        credits := l.credits.modify (vcOf p) fun n => n - 1, txSeq := l.txSeq + 1, txBuf := l.txBuf ++ [(l.txSeq, .packet p)] } ∧
      ∃ bs, (b.linkPacket k p).host.out = b.host.out ++ [.link k l.txSeq (.packet p) bs] ∧
        (k < 16 → bs = headBytes p ++ (if p.masked then maskBytes p.mask else []) ++ p.data)) ∧
    (l.mayLeave p = false → b.linkPacket k p = b.setLink k { l with waiting := l.waiting ++ [p] })) ∧
  (∀ s k seq c, 16 ≤ k ∨ (s.body.fab.link k).trained = false ∨ (s.body.fab.link k).training.isSome = true → Leaves (.runnerCellRx k seq c) s s) ∧
  (∀ s k, k < 18 → (s.body.fab.link k).trained = true → (s.body.fab.link k).training = none → Makes (.fecLockLoss k) s fun u =>
    u.body.fab.link k = { s.body.fab.link k with training := some s.alm.beat, waiting := [] } ∧
    ∀ j, j ≠ k → (u.body.fab.link j).training = (s.body.fab.link j).training ∧ (s.body.fab.conns = [] → u.body.fab.link j = s.body.fab.link j)) ∧
  (∀ s k, 18 ≤ k ∨ (s.body.fab.link k).trained = false → Leaves (.fecLockLoss k) s s) ∧
  (∀ s k t lanes, let l := s.body.fab.link k
    let v : Verdict := if l.carries then (if laneCount lanes = 8 then .ok else .degraded) else l.verdict
    l.training = some t →
    (laneCount lanes = 8 ∨ (k < 16 ∧ (laneCount lanes = 4 ∨ laneCount lanes = 2)) → Makes (.runnerRetrainDone k lanes) s fun u =>
      let x := u.body.fab.link k
      x.training = none ∧ x.lanes = lanes ∧ x.lost = l.lost ||| ~~~lanes ∧ x.verdict = v ∧ x.surveyDue = true ∧ x.trained = l.trained ∧
      x.rxSeq = l.rxSeq ∧ (∃ seq r bs, Output.link k seq (.survey r) bs ∈ u.body.host.out ∧ r.t2 = 0 ∧ r.t3mt2 = 0 ∧ r.lanes = laneCount lanes ∧
        1000 * s.alm.beat ≤ r.t1 ∧ r.t1 < 1000 * s.alm.beat + 1000) ∧
      ⟨0x0303, 7 + 256 * (0x80 + k), [(k, 0), (t, 0), (s.alm.beat, 0), (laneCount l.lanes, 0), (laneCount lanes, 0)], none⟩ ∈ u.body.data.posts ∧
      (l.carries = true → v ≠ l.verdict → x.events = l.events + 1 ∧
        ⟨0x0301, 7 + 256 * (0x80 + k), [(k, 0), (laneCount lanes, 0), (l.peerNode, 0), (l.peerSerial, 0)], none⟩ ∈ u.body.data.posts)) ∧
    (laneCount lanes < 2 → Makes (.runnerRetrainDone k lanes) s fun u => (u.body.fab.link k).trained = false ∧
      (u.body.fab.link k).verdict = .noPeer ∧ (u.body.fab.link k).training = none ∧ (u.body.fab.link k).lost = l.lost ||| ~~~lanes)) ∧
  (∀ s k lanes, k < 18 → (s.body.fab.link k).trained = false → (s.body.fab.link k).cable = true →
    laneCount lanes = 8 ∨ (k < 16 ∧ (laneCount lanes = 4 ∨ laneCount lanes = 2)) → Makes (.linkTrainingComplete k lanes) s fun u =>
      ∃ t1 bs, 1000 * s.alm.beat ≤ t1 ∧ t1 < 1000 * s.alm.beat + 1000 ∧
      let r : SurveyRec := ⟨s.body.md.serial, s.body.data.node, s.body.fab.block.isSome, s.body.md.slotId % 16, k, laneCount lanes, t1, 0, 0, true⟩
      u.body.fab.link k = { s.body.fab.link k with
        trained := true, lanes := lanes, lost := ~~~lanes, training := none, rxSeq := 0, txSeq := 1, txBuf := [(0, .survey r)]
        credits := [0, 0, 0, 0, 0, 0], waiting := [], surveyDue := true } ∧
      u.body.host.out = s.body.host.out ++ [.link k 0 (.survey r) bs] ∧ (k < 16 → bs = surveyBytes r) ∧
      u.body.data = { s.body.data with free := s.body.data.free + 1 }) ∧
  (∀ s k f, 16 ≤ k → k < 18 → (s.body.fab.link k).trained = true → let l := s.body.fab.link k
    let long := 64 ≤ f.length ∧ f.length ≤ 9216
    (¬long → Leaves (.glFrameRx k f) s (discard s k 6)) ∧
    (long → f.fcsOk = false → Leaves (.glFrameRx k f) s (discard s k 5)) ∧
    (long → f.fcsOk = true → f.vlan = true → Leaves (.glFrameRx k f) s (discard s k 3)) ∧
    (long → f.fcsOk = true → f.vlan = false → f.etherType ≠ 0x88B5 → Leaves (.glFrameRx k f) s (discard s k 1)) ∧
    (long → f.fcsOk = true → f.vlan = false → f.etherType = 0x88B5 → f.dst ≠ glAddr s.body.md.serial k → Leaves (.glFrameRx k f) s (discard s k 2)) ∧
    (long → f.fcsOk = true → f.vlan = false → f.etherType = 0x88B5 → f.dst = glAddr s.body.md.serial k → f.seq = l.rxSeq → l.waiting = [] →
      f.word.replay = false → Makes (.glFrameRx k f) s fun u => u.body.data = s.body.data ∧
        u.body.fab.link k = { l with
          rxSeq := l.rxSeq + 1, txBuf := ackBuf l.txBuf f.word.ack, credits := addCredits l.credits f.word.credits } ∧
        u.body.host.out = s.body.host.out ++ [.ack k (l.rxSeq + 1) (Config.creditGrant k (l.rxSeq + 1).toNat)]) ∧
    (long → f.fcsOk = true → f.vlan = false → f.etherType = 0x88B5 → f.dst = glAddr s.body.md.serial k → f.seq ≠ l.rxSeq →
      Leaves (.glFrameRx k f) s (s.setBody ((s.body.setLink k { l with replays := l.replays + 1 }).emit (.replay k l.rxSeq))))) ∧
  (∀ serial k, glAddr serial k = 0x02 * 2 ^ 40 + serial % 2 ^ 39 * 2 + k % 2) ∧
  (∀ s k n, (discard s k n).body.fab.link k = { s.body.fab.link k with discards := (s.body.fab.link k).discards + 1 } ∧
    (discard s k n).body.data = s.body.data) ∧
  (∀ s k r t1 t4, k < 18 → (s.body.fab.link k).trained = true → k < 16 ∨ r.zero = true → Makes (.surveyRecordRx k r t1 t4) s fun u =>
    let l := u.body.fab.link k
    l.verdict = verdictOf s.body k r ∧ l.peerNode = r.node ∧ l.peerPos = r.position ∧ l.peerPort = r.port ∧ l.peerSerial = r.serial ∧
      (r.t2 ≠ 0 ∨ r.t3mt2 ≠ 0 → l.delayNs = ((t4 - t1) - r.t3mt2) / 2 + Config.linkLatency k ∧ l.surveyDue = false) ∧
      (r.t2 = 0 → r.t3mt2 = 0 → l.delayNs = (s.body.fab.link k).delayNs ∧ l.surveyDue = (s.body.fab.link k).surveyDue ∧
        ∃ seq a bs, Output.link k seq (.survey a) bs ∈ u.body.host.out ∧ a.t2 = t4 % 2 ^ 32 ∧ a.t1 = t4 + a.t3mt2 ∧ a.t3mt2 < 2 ^ 32 ∧
          a.serial = s.body.md.serial ∧ a.port = k)) ∧
  (∀ s k r t1 t4, 16 ≤ k → k < 18 → (s.body.fab.link k).trained = true → r.zero = false → Leaves (.surveyRecordRx k r t1 t4) s (discard s k 4)) ∧
  (∀ b k (r : SurveyRec), r.serial ≠ b.md.serial → r.nodeValid = false → k < 15 →
    (verdictOf b k r = .ok ↔ r.position % 16 = (b.md.slotId % 16 + k + 1) % 16 ∧ r.port = 14 - k ∧ laneCount (b.fab.link k).lanes = 8) ∧
    (verdictOf b k r = .miscabled ↔ ¬(r.position % 16 = (b.md.slotId % 16 + k + 1) % 16 ∧ r.port = 14 - k)))

/-! ### The fabric's transport -/

/-- 09 R268, R271-R281, R287; 14 R400: packets. One for another node goes on with a hop less, or is dropped at the last;
one of a connection that is next is acknowledged and acted on, one seen before only acknowledged, one too early ignored. A
cold-stopped package holds what comes. An acknowledgement ends what it covers; what is not acknowledged is sent again, and
at last given up. The model's own readings and choices in it: log entries 75, 76, 77, 191, 192, 202. -/
def Obligations.Transport : Prop :=
  (∀ s k p, mayTake s.body k = false → Leaves (.fabricPacketRx k p) s s ∧ Leaves (.fabricResponseRx k p) s s) ∧
  (∀ s k p c, mayTake s.body k = true → p.dst ≠ s.body.data.node → c = .fabricPacketRx k p ∨ c = .fabricResponseRx k p →
    (p.hops ≤ 1 → Leaves c s (s.setBody { s.body with log := s.body.log.tallyFor s.alm.beat 0x030C 0 p.src 1 [(p.src, 0), (p.dst, 0), (0, 100)] })) ∧
    (∀ j, 1 < p.hops → 8 < p.type → s.body.fab.choosePort (s.body.fab.route p.epoch p.dst) p.conn = some j →
      Leaves c s (s.setBody (s.body.linkPacket j { p with hops := p.hops - 1 }))) ∧
    (∀ j, 1 < p.hops → p.type ≤ 8 → directPort s.body p.dst = some j → p.fwd = false → s.body.fab.portUp j = true →
      Leaves c s (s.setBody (s.body.linkPacket j { p with hops := p.hops - 1, fwd := true })))) ∧
  (∀ s k p, mayTake s.body k = true → p.dst = s.body.data.node → isReqType p.type = true ∨ isMsgType p.type = true →
    let c := s.body.fab.conn (connKey p.src p.conn)
    (s.body.data.halted = true → Leaves (.fabricPacketRx k p) s
      (s.setBody { s.body with fab := { s.body.fab with heldRx := s.body.fab.heldRx ++ [(k, p)] } })) ∧
    (s.body.data.halted = false → packetWaits s.body.data p = true → Leaves (.fabricPacketRx k p) s s) ∧
    (s.body.data.halted = false → packetWaits s.body.data p = false → p.seq ≠ c.rxSeq → p.seq ≠ 0 →
      ((p.seq - c.rxSeq).toInt < 0 → Leaves (.fabricPacketRx k p) s (s.setBody (s.body.sendTack p))) ∧
      (0 ≤ (p.seq - c.rxSeq).toInt → Leaves (.fabricPacketRx k p) s s)) ∧
    (s.body.data.halted = false → packetWaits s.body.data p = false → p.seq = c.rxSeq → Makes (.fabricPacketRx k p) s fun u =>
      (tagPlot s.body.data p = none → isMsgType p.type = true → u.body.data = s.body.data ∧
        u.body.log = s.body.log.tallyFor s.alm.beat 0x030B 0 p.src 1 [(p.src, 0), (p.tag, 0), (0, 100)] ∧ (u.body.fab.conn (connKey p.src p.conn)).rxSeq = c.rxSeq + 1) ∧
      (∀ plot h, p.type = 11 → tagPlot s.body.data p = some plot → mget s.body.data.pigeons p.offset = some h → s.body.data.ctxPlot h.ctx = plot →
        u.body.data = s.body.data.ringPh p.offset ∧ (u.body.fab.conn (connKey p.src p.conn)).rxSeq = c.rxSeq + 1) ∧
      (∀ plot q z, p.type = 1 → p.len ≤ 128 → p.pm = false → tagPlot s.body.data p = some plot → remotePhys s.body.data plot p.offset = some q →
        remotePhys s.body.data plot (p.offset + 127) = some z → ∃ r, u.body.data.reqs = s.body.data.reqs ++ [r] ∧
          r.rem = some { node := p.src, agent := p.agent, reqId := p.reqId, conn := p.conn, tag := p.tag } ∧ r.plot = plot ∧
          r.tgt = .local (q / 128 * 128) ∧ r.stage = .waiting ∧ u.body.data.mem = s.body.data.mem) ∧
      (∀ plot q z, p.type = 10 → p.pm = false → p.len ≤ 8 → p.data.length = 8 → tagPlot s.body.data p = some plot →
        remotePhys s.body.data plot p.offset = some q → remotePhys s.body.data plot (p.offset + (max 1 (max p.len 1)) - 1) = some z →
          u.body.data = sinkBytes s.body.data plot p.offset p.data))) ∧
  (∀ s k p r data, mayTake s.body k = true → p.dst = s.body.data.node → p.type = 2 → p.status = 0 → p.data = data →
    p.seq = (s.body.fab.conn (connKey p.src p.conn)).rxSeq → r ∈ s.body.data.reqs → r.id < 2 ^ 32 → r.id = p.reqId → r.stage = .attached →
    s.body.data.fills = [] → (∀ e ∈ s.body.data.engines, e.2.running = []) → OursOnly s →
    Makes (.fabricResponseRx k p) s fun u => { r with stage := .returned data [] } ∈ u.body.data.reqs ∧ u.body.data.mem = s.body.data.mem) ∧
  (∀ s k p r, mayTake s.body k = true → p.dst = s.body.data.node → p.type = 2 ∨ p.type = 4 ∨ p.type = 6 → p.status = 2 →
    p.seq = (s.body.fab.conn (connKey p.src p.conn)).rxSeq → r ∈ s.body.data.reqs → r.id < 2 ^ 32 → r.id = p.reqId → r.stage = .attached →
    s.body.data.fills = [] → (∀ e ∈ s.body.data.engines, e.2.running = []) → OursOnly s →
    Makes (.fabricResponseRx k p) s fun u => { r with stage := .failed .dataLost } ∈ u.body.data.reqs) ∧
  (∀ s n c seq, let k := connKey n (c % 2)
    (s.body.fab.conn k).hold = false → (∀ e ∈ s.body.data.engines, e.2.running = []) → Makes (.tackRx n c seq) s fun u =>
      (∀ x, x ∈ (u.body.fab.conn k).unacked ↔ x ∈ (s.body.fab.conn k).unacked ∧ seqCovered x.pkt.seq (BitVec.ofNat 32 seq) = false) ∧
      (∀ x ∈ (s.body.fab.conn k).unacked, seqCovered x.pkt.seq (BitVec.ofNat 32 seq) = true → isReqType x.pkt.type = true →
        x ∈ (u.body.fab.conn k).answers) ∧ u.body.data.mem = s.body.data.mem ∧ (u.body.fab.conn k).txSeq = (s.body.fab.conn k).txSeq) ∧
  (∀ s n c, let k := connKey n (c % 2)
    ((∀ x ∈ (s.body.fab.conn k).unacked, s.alm.beat < x.last + 20) → Leaves (.transportResendTimeout n c) s s) ∧
    (∀ x, x ∈ (s.body.fab.conn k).unacked → x.last + 20 ≤ s.alm.beat → Makes (.transportResendTimeout n c) s fun u =>
      (u.body.fab.conn k).unacked = ((s.body.fab.conn k).unacked.map fun (y : SentPkt) =>
        if y.last + 20 ≤ s.alm.beat then { y with last := s.alm.beat, port := s.body.fab.againBy k y } else y) ∧
      u.body.data = s.body.data)) ∧
  (∀ s n c, let k := connKey n (c % 2)
    ((s.body.fab.conn k).answers = [] → (∀ x ∈ (s.body.fab.conn k).unacked, s.alm.beat < x.first + 10000) → Leaves (.transportAbandon n c) s s) ∧
    (∀ x, x ∈ (s.body.fab.conn k).unacked → x.first + 10000 ≤ s.alm.beat → (∀ e ∈ s.body.data.engines, e.2.running = []) → OursOnly s →
      Makes (.transportAbandon n c) s fun u => (u.body.fab.conn k).unacked = [] ∧ (u.body.fab.conn k).held = [] ∧ (u.body.fab.conn k).txSeq = 0 ∧
        u.body.data.mem = s.body.data.mem ∧ u.body.log = s.body.log.tallyFor s.alm.beat 0x030A 0 n (s.body.fab.lostPkts k s.alm.beat).length
          [(n, 0), (c % 2, 0), (0, 102)])) ∧
  (∀ (f : Fabric) k beat p, (∃ x, (x ∈ (f.conn k).unacked ∨ x ∈ (f.conn k).answers ∧ answerDead f k beat x = true) ∧ x.pkt = p) ∨ p ∈ (f.conn k).held →
    p ∈ f.lostPkts k beat) ∧
  (∀ (f : Fabric) e cls, rtClass e ≠ 1 → rtClass e ≠ 2 → f.choosePort e cls = none)

/-! ### Phases, clocks, temperature and coolant -/

/-- 14 R391, R393-R396; 15 R430, R431: a phase is lost for good, and is kept in flash; a VCORE rail of three or fewer
takes its die out, one of more is limited; VSRAM below 11 and VHBM below 5 fail the module; VIO below 3 takes the I/O die
out. A fabric that fails takes its die out. Droop stretches a die's clock. The model's own readings and choices in it: log
entries 119, 120, 127, 194, 201. -/
def Obligations.PhasesAndDies : Prop :=
  (∀ s r phase reading c sense, (c = .phaseFailOpen r phase ∧ sense = false) ∨ (c = .phaseSenseFail r phase reading ∧ sense = true) →
    let k := railNo r * 64 + phase
    let p : Power := { s.body.pw with phases := mput s.body.pw.phases k sense }
    let live := p.live (railNo r)
    let failed := railPhases (railNo r) - live
    (railLoaded s r = false ∨ railPhases (railNo r) ≤ phase ∨ (mget s.body.pw.phases k).isSome = true → Leaves c s s) ∧
    (railLoaded s r = true → phase < railPhases (railNo r) → mget s.body.pw.phases k = none → Makes c s fun u =>
      mget u.body.pw.phases k = some sense ∧ mget u.body.flash.phases k = some sense ∧
      (sense = true → ⟨0x0602, 8 + 256 * railNo r, [(railNo r, 0), (phase, 0), (reading, 0), (failed, 0)], none⟩ ∈ u.body.data.posts) ∧
      (∀ d, r = .vcore d → 3 < live → u.body.data.dieOut = s.body.data.dieOut ∧
        (sense = false → ⟨0x0601, 8 + 256 * d, [(d, 0), (phase, 0), (failed, 0), (60 * live, 0)], none⟩ ∈ u.body.data.posts)) ∧
      (∀ d, r = .vcore d → live ≤ 3 → d ∈ u.body.data.dieOut) ∧
      (r = .vsram → live < 11 → u.body.md.state = 4 ∧ u.body.data.halted = true) ∧
      (r = .vhbm → live < 5 → u.body.md.state = 4 ∧ u.body.data.halted = true) ∧
      (r = .vioN → live < 3 → 8 ∈ u.body.data.dieOut ∧ u.body.mg.nSt = .off) ∧
      (r = .vioS → live < 3 → 9 ∈ u.body.data.dieOut ∧ u.body.mg.sSt = .off))) ∧
  (∀ s die, 8 ≤ die ∨ railLoaded s (.vcore die) = false → Leaves (.dieFabricUe die) s s) ∧
  (∀ s die, die < 8 → railLoaded s (.vcore die) = true → Makes (.dieFabricUe die) s fun u => die ∈ u.body.data.dieOut ∧
    (∀ n p, mget u.body.data.plots n = some p → ∀ c ∈ p.cores, c / 84 ≠ die) ∧
    (∃ groups fails, ⟨0x0705, 2 + 256 * die, [(die, 0), (4, 0), (groups, 0), (fails, 0)], none⟩ ∈ u.body.data.posts) ∧
    u.body.pw = s.body.pw ∧ u.body.mg = s.body.mg) ∧
  (∀ s x, 8 + (if x = .north then 0 else 1) ∈ s.body.data.dieOut → Leaves (.ioDieFabricUe x) s s) ∧
  (∀ s, railLoaded s .vioN = true → Makes (.ioDieFabricUe .north) s fun u => 8 ∈ u.body.data.dieOut ∧ u.body.mg.nSt = .off ∧
    u.body.mg.sSt = s.body.mg.sSt ∧ u.body.host.ha.up = false ∧ (∀ k, k < 8 ∨ k = 16 → (u.body.fab.link k).trained = false) ∧
    ∃ q n, ⟨0x0706, 3 + 256 * 8, [(8, 0), (2, 0), (q, 0), (n, 0)], none⟩ ∈ u.body.data.posts) ∧
  (∀ s, railLoaded s .vioS = true → Makes (.ioDieFabricUe .south) s fun u => 9 ∈ u.body.data.dieOut ∧ u.body.mg.sSt = .off ∧
    u.body.mg.nSt = s.body.mg.nSt ∧ u.body.host.hb.up = false ∧ (∀ k, (8 ≤ k ∧ k < 16) ∨ k = 17 → (u.body.fab.link k).trained = false) ∧
    ∃ q n, ⟨0x0706, 3 + 256 * 9, [(9, 0), (2, 0), (q, 0), (n, 0)], none⟩ ∈ u.body.data.posts) ∧
  (∀ s die, die < 8 → die ∉ s.body.pw.droop → Makes (.droopDetect die) s fun u => (∀ i, i ∈ u.body.pw.droop ↔ i = die ∨ i ∈ s.body.pw.droop) ∧
    mgetD u.body.pw.droopN die 0 = mgetD s.body.pw.droopN die 0 + 1 ∧ u.body.data = s.body.data) ∧
  (∀ s die, 8 ≤ die ∨ die ∈ s.body.pw.droop → Leaves (.droopDetect die) s s) ∧
  (∀ s die, Makes (.droopRelease die) s fun u => (∀ i, i ∈ u.body.pw.droop ↔ i ≠ die ∧ i ∈ s.body.pw.droop) ∧
    u.body.pw.droopN = s.body.pw.droopN ∧ u.body.data = s.body.data) ∧
  (∀ s r, railLoaded s r = true → s.body.md.modPg = true → Makes (.railOutOfRegulation r) s fun u => u.body.md = { s.body.md with modPg := false } ∧
    u.body.host.ha.up = false ∧ u.body.host.hb.up = false ∧ mget u.body.mg.nextSeq 1 = none ∧ mget u.body.mg.nextSeq 2 = none) ∧
  (∀ s r, railLoaded s r = false ∨ s.body.md.modPg = false → Leaves (.railOutOfRegulation r) s s)

/-- 14 R397-R400; 17 R459; 18 R475, R485: temperature and coolant. A sensor at its throttle value makes its unit hot; one at
the limit of its kind takes every rail but standby off. COOLANT_OK low for more than 2,000 beats stops the data plane, cold,
or sends bring-up back to step 4; a shorter one is counted only. The stop is over when local operations have ended, or 1,000
beats have passed. The model's own readings and choices in it: log entries 121, 122. -/
def Obligations.Cooling : Prop :=
  (∀ s sensor t, Makes (.thermalThreshold sensor t) s fun u => u.body.pw.temps.getD sensor 0 = t ∧
    let unit := if sensor < 10 then sensor else sensor + 6
    (unit ∈ u.body.pw.hot ↔ (if sensor < 10 then 100 else 93) ≤ t) ∧ (∀ i, i ≠ unit → (i ∈ u.body.pw.hot ↔ i ∈ s.body.pw.hot)) ∧
    (∀ i, i ≠ sensor → u.body.pw.temps.getD i 0 = s.body.pw.temps.getD i 0) ∧ u.body.data = s.body.data) ∧
  (∀ s sensor t, s.body.md.p3v3 = true → sensor < 26 → (if sensor < 10 then 115 else 105) ≤ t → Makes (.thermtrip sensor t) s fun u =>
    u.body.md.thermtrip = true ∧ u.body.md.latchTherm = some (sensor, t, s.alm.beat) ∧ (s.body.md.state ≠ 0 → u.body.md.state = 0 ∧
      u.body.data = Data.reset ∧ u.body.flash = s.body.flash ∧ u.body.mg = Mgmt.reset) ∧ u.body.pw.temps.getD sensor 0 = t) ∧
  (∀ s sensor t, s.body.md.p3v3 = false ∨ 26 ≤ sensor ∨ t < (if sensor < 10 then 115 else 105) → Leaves (.thermtrip sensor t) s s) ∧
  (∀ s, (s.body.pw.coolantOk = true → Leaves .coolantOkFall s (s.setPw { s.body.pw with coolantOk := false, coolantSince := s.alm.beat })) ∧
    (s.body.pw.coolantOk = false → Leaves .coolantOkFall s s)) ∧
  (∀ s, s.body.pw.coolantOk = true → Leaves .coolantOkRise s s) ∧
  (∀ s, s.body.pw.coolantOk = false → s.alm.beat ≤ s.body.pw.coolantSince + 2000 → Makes .coolantOkRise s fun u => u.body.data = s.body.data ∧
    u.body.pw = { s.body.pw with coolantOk := true, coolantSince := s.alm.beat, longestLow := max s.body.pw.longestLow (s.alm.beat - s.body.pw.coolantSince) } ∧
    ∃ t ∈ u.body.log.tallies, t.code = 0x0608 ∧ t.source = 0 ∧ 0 < t.n ∧ t.beat = s.alm.beat) ∧
  (∀ s c, s.body.pw.coolantOk = false → s.body.pw.coolantSince + 2000 < s.alm.beat → c = .coldStopStart ∨ c = .coolantOkRise →
    (s.body.md.state = 2 → s.body.pw.cold = .running → Makes c s fun u => u.body.pw.cold = .stopping s.alm.beat ∧ u.body.data.halted = true ∧
      coolantReason s.alm.beat ∈ u.body.pw.openR ∧ (u.body.pw.coolantOk = true ↔ c = .coolantOkRise)) ∧
    (s.body.md.state = 1 → 4 ≤ s.body.md.step → s.body.md.step < 12 → Makes c s fun u => u.body.md.step = 4 ∧ u.body.md.stepEnds = s.body.md.stepEnds.take 3 ∧ u.body.md.coolWait = true ∧
      u.body.data = s.body.data)) ∧
  (∀ s, s.body.pw.coolantOk = true ∨ s.alm.beat ≤ s.body.pw.coolantSince + 2000 ∨ (s.body.md.state = 2 ∧ s.body.pw.cold ≠ .running) →
    Leaves .coldStopStart s s) ∧
  (∀ s t, s.body.pw.cold = .stopping t → (s.body.data.reqs.filter LineReq.open_).all LineReq.isRemote = true ∨ t + 1000 ≤ s.alm.beat →
    let n := ((s.body.data.reqs.filter LineReq.open_).filter LineReq.isRemote).length
    Makes .coldStopHalted s fun u => u.body.pw = { s.body.pw with cold := .halted t s.alm.beat, remoteAwaited := n } ∧
      u.body.data.posts = s.body.data.posts ++ [⟨0x0605, 0, [(t, 0), (s.alm.beat, 0), (n, 0)], some t⟩] ∧ u.body.data.mem = s.body.data.mem) ∧
  (∀ s, (∀ t, s.body.pw.cold ≠ .stopping t) → Leaves .coldStopHalted s s) ∧
  (∀ s t, s.body.pw.cold = .stopping t → (s.body.data.reqs.filter LineReq.open_).all LineReq.isRemote = false → s.alm.beat < t + 1000 →
    Leaves .coldStopHalted s s)

/-! ### Supplies, the reference clock and bring-up -/

/-- 15 R433; 17 R447, R449; 18 R473, R478, R482-R485: supplies and the reference. Each rail but standby that goes takes with
it everything volatile: flash, the always-on domain and the levels at the pins stay. MOD_PWR_EN starts a module reset once
the oscillator runs: the Almanac is 0, and the slot's number is latched. The model's own readings and choices in it: log
entry 123. -/
def Obligations.Supplies : Prop :=
  (∀ s mv, s.body.md.uv = true ∨ s.body.md.state = 0 ∨ 38000 ≤ mv → Leaves (.uvWarning mv) s s) ∧
  (∀ s mv, s.body.md.uv = false → s.body.md.state ≠ 0 → mv < 38000 → Makes (.uvWarning mv) s fun u =>
    let f := s.body.log.flash ++ flushRecs s.body.log
    u.body.md = { s.body.md with uv := true, latchPower := some s.alm.beat } ∧ u.body.pw.steps = List.replicate 8 16 ∧
    u.body.pw.duty = List.replicate 8 1 ∧ u.body.log.flash = f.drop (f.length - 262144) ∧ u.body.log.copied = s.body.log.nextSeq ∧
    ⟨0x0709, 0, [(s.alm.beat, 0), (mv, 0), ((flushRecs s.body.log).length, 0)], none⟩ ∈ u.body.data.posts ∧ u.body.data.mem = s.body.data.mem) ∧
  (∀ s mv, (s.body.md.uv = true → 40000 < mv → Leaves (.uvRecovery mv) s (s.setMd { s.body.md with uv := false, latchPower := none })) ∧
    (s.body.md.uv = false ∨ mv ≤ 40000 → Leaves (.uvRecovery mv) s s)) ∧
  (
    let gone (s u : State) : Prop := u.body.md.state = 0 ∧ u.body.md.modPg = false ∧ u.body.data = Data.reset ∧ u.body.mg = Mgmt.reset ∧
      u.body.flash = s.body.flash ∧ u.body.log.flash = s.body.log.flash ∧ u.body.log.ring = [] ∧ u.body.host.ha.up = false ∧ u.body.host.hb.up = false ∧
      u.body.pw.coolantOk = s.body.pw.coolantOk ∧ u.body.pw.budgets = [] ∧ (∀ k, (u.body.fab.link k).trained = false) ∧ u.pending = s.pending
    (∀ s, (s.body.md.inputGood = false → Leaves .inputRegStop s s) ∧ (s.body.md.inputGood = true → s.body.md.state ≠ 0 →
      Makes .inputRegStop s fun u => gone s u ∧ u.body.md.inputGood = false ∧ u.body.md.latchPower = some (s.body.md.latchPower.getD s.alm.beat))) ∧
    (∀ s mv, (mv ≤ 62000 → Leaves (.inputOvervoltage mv) s s) ∧ (62000 < mv → Makes (.inputOvervoltage mv) s fun u =>
      u.body.md.inputGood = false ∧ (s.body.md.state ≠ 0 → gone s u) ∧
      (s.body.md.p3v3 = true → ∃ p b, u.body.md.latchOver = some (p, b) ∧ mv ≤ p ∧ ∀ p' b', s.body.md.latchOver = some (p', b') → p' ≤ p ∧ b = b'))) ∧
    (∀ s, (s.body.md.p3v3 = false → Leaves .p3v3SbLoss s s) ∧ (s.body.md.p3v3 = true → Makes .p3v3SbLoss s fun u => gone s u ∧
      u.body.md.p3v3 = false ∧ u.body.md.oscOk = false ∧ u.body.md.standbyBeats = 0 ∧ u.alm = Almanac.reset ∧ u.latch = Latch.reset ∧
      u.body.md.latchTherm = none ∧ u.body.md.latchOver = none ∧ u.body.md.latchPower = none)) ∧
    (∀ s, (s.body.md.pwrEn = false → Leaves .modPwrEnFall s s) ∧ (s.body.md.pwrEn = true → s.body.md.state ≠ 0 → Makes .modPwrEnFall s fun u =>
      gone s u ∧ u.body.md.pwrEn = false ∧ u.alm = s.alm)) ∧
    let starts (s u : State) : Prop := u.body.md.state = 1 ∧ u.body.md.step = 1 ∧ u.body.md.slotId = s.body.md.slotPins ∧ u.body.md.pwrEn = true ∧
      u.body.md.thermtrip = false ∧ u.alm = Almanac.reset ∧ u.latch = s.latch ∧ u.body.data = Data.reset ∧ u.body.flash = s.body.flash ∧
      u.body.md.latchTherm = s.body.md.latchTherm ∧ u.body.mg = Mgmt.reset
    (∀ s, (s.body.md.pwrEn = true → Leaves .modPwrEnRise s s) ∧
      (s.body.md.pwrEn = false → s.body.md.p3v3 = false ∨ s.body.md.oscOk = false → Leaves .modPwrEnRise s (s.setMd { s.body.md with pwrEn := true })) ∧
      (s.body.md.pwrEn = false → s.body.md.p3v3 = true → s.body.md.oscOk = true → Makes .modPwrEnRise s (starts s))) ∧
    (∀ s, (s.body.md.p3v3 = false ∨ s.body.md.oscOk = true → Leaves .oscillatorStartupDone s s) ∧
      (s.body.md.p3v3 = true → s.body.md.oscOk = false → s.body.md.pwrEn = false → Leaves .oscillatorStartupDone s (s.setMd { s.body.md with oscOk := true })) ∧
      (s.body.md.p3v3 = true → s.body.md.oscOk = false → s.body.md.pwrEn = true → Makes .oscillatorStartupDone s fun u => starts s u ∧ u.body.md.oscOk = true))) ∧
  (∀ s, (s.body.md.p3v3 = true → Leaves .p3v3SbApply s s) ∧
    (s.body.md.p3v3 = false → Leaves .p3v3SbApply s (s.setMd { s.body.md with p3v3 := true, oscOk := false }))) ∧
  (∀ s ppm, (s.body.md.refclk = false → Leaves (.refclkLoss ppm) s s) ∧
    (s.body.md.refclk = true → s.body.md.state ≠ 0 → Makes (.refclkLoss ppm) s fun u => u.body.md = { s.body.md with refclk := false, refLost := s.alm.beat } ∧
      u.body.host.ha.up = false ∧ u.body.host.hb.up = false ∧ ⟨0x070F, 0, [(s.alm.beat, 0), (ppm, 0)], none⟩ ∈ u.body.data.posts ∧ u.body.mg = s.body.mg)) ∧
  (∀ s, (s.body.md.refclk = true → Leaves .refclkRestore s s) ∧
    (s.body.md.refclk = false → s.body.md.state ≠ 0 → Leaves .refclkRestore s
      ((s.setMd { s.body.md with refclk := true }).post 0x0710 0 [(s.alm.beat, 0), (s.alm.beat - s.body.md.refLost, 0)])))

/-- 17 R448-R461; 18 R474, R485: bring-up's twelve steps. A step ends once, when what it waits for has come: the I/O rails
and the lease in step 3, coolant and cool sensors in step 4. Images are chosen by their validity, else the module goes
into recovery; units that a test fails are gone; the last step makes the module READY, its data plane runs. The model's
own readings and choices in it: log entries 124, 125, 126, 200. -/
def Obligations.BringUp : Prop :=
  (∀ s r, s.body.md.state ≠ 1 → Leaves (.bringupStepEnd r) s s) ∧
  (∀ s r, s.body.md.state = 1 → s.body.md.step = 1 → Makes (.bringupStepEnd r) s fun u =>
    u.body.md = { s.body.md with step := 2, stepEnds := s.body.md.stepEnds ++ [s.body.md.aonBeats] } ∧ u.latch = s.latch ∧ u.body.data = s.body.data) ∧
  (∀ s r, s.body.md.state = 1 → s.body.md.step = 2 → Makes (.bringupStepEnd r) s fun u => u.latch = Latch.reset ∧ u.body.md.step = 3 ∧
    (s.body.md.inputGood = false → u.body.md.modPg = s.body.md.modPg ∧ u.body.mg = s.body.mg) ∧
    (s.body.md.inputGood = true → u.body.md.modPg = true ∧ (s.body.md.modPg = false → (8 ∉ u.body.data.dieOut → u.body.mg.nSt = .booting) ∧
      (9 ∉ u.body.data.dieOut → u.body.mg.sSt = .booting)))) ∧
  (∀ s, (s.body.md.inputGood = true → Leaves .inputGood s s) ∧
    (s.body.md.inputGood = false → s.body.md.state ≠ 1 ∨ s.body.md.step ≠ 3 ∨ s.body.md.modPg = true →
      Leaves .inputGood s (s.setMd { s.body.md with inputGood := true })) ∧
    (s.body.md.inputGood = false → s.body.md.state = 1 → s.body.md.step = 3 → s.body.md.modPg = false → Makes .inputGood s fun u =>
      u.body.md.inputGood = true ∧ u.body.md.modPg = true ∧ (8 ∉ u.body.data.dieOut → u.body.mg.nSt = .booting) ∧
      (9 ∉ u.body.data.dieOut → u.body.mg.sSt = .booting) ∧ u.body.data.chanOut = s.body.flash.channels ∧ u.body.data.frameOut = s.body.flash.frames)) ∧
  (∀ s r, s.body.md.state = 1 → s.body.md.step = 3 → let x := s.body.flash.polmen
    (s.body.md.modPg = false → Leaves (.bringupStepEnd r) s s) ∧
    (s.body.md.modPg = true → s.gate = true → mustFail s.body = false → (if x.active then x.bValid else x.aValid) = true → r.activeOk = true →
      Makes (.bringupStepEnd r) s fun u => u.body.md.step = 4 ∧ u.body.md.state = 1 ∧ u.body.flash.polmen = { x with running := x.active } ∧
        u.body.md.stepEnds = s.body.md.stepEnds ++ [s.body.md.aonBeats] ∧ u.body.hl.cals = s.body.flash.cals) ∧
    (s.body.md.modPg = true → s.gate = true → mustFail s.body = false → (if x.active then x.bValid else x.aValid) = true → r.activeOk = false →
      r.otherOk = true → x.spare.1 = true → Makes (.bringupStepEnd r) s fun u => u.body.md.step = 4 ∧ u.body.flash.polmen.active = !x.active ∧
        u.body.flash.polmen.running = !x.active ∧ ⟨0x070D, 0, [(1, 0), (boolNat x.active, 0), (boolNat (!x.active), 0), (x.spare.2, 0)], none⟩ ∈ u.body.data.posts) ∧
    (s.body.md.modPg = true → r.activeOk = false → r.otherOk = false → Makes (.bringupStepEnd r) s fun u => u.body.md.recovery = true ∧
      u.body.md.state = 4 ∧ u.body.md.step = 3 ∧ u.body.mg.nSt = .off ∧ u.body.mg.sSt = .off)) ∧
  (∀ s r, s.body.md.state = 1 → s.body.md.step = 4 → (mayPower s = false → Leaves (.bringupStepEnd r) s s) ∧
    (mayPower s = true → mustFail s.body = false → Makes (.bringupStepEnd r) s fun u => u.body.md.step = 5 ∧ u.body.md.coolWait = false ∧
      u.body.md.latchTherm = none ∧ u.body.data = s.body.data)) ∧
  (∀ s, mayPower s = true ↔ (s.body.md.coolWait = true → s.body.pw.coolantOk = true ∧ s.body.pw.coolantSince + 10000000 ≤ s.alm.beat) ∧
    (s.body.md.latchTherm.isSome = true → cool s.body.pw = true)) ∧
  (∀ s r, s.body.md.state = 1 → s.body.md.step = 5 ∨ s.body.md.step = 9 → Makes (.bringupStepEnd r) s fun u =>
    (∀ c ∈ r.coresOff, c < 672 → u.body.data.coreState c = .off) ∧ (∀ n ∈ r.engines, n < 144 → n ∈ u.body.data.engOut) ∧
    (s.body.md.step = 5 → ∀ n ∈ r.dispatchers, n < 8 → n ∈ u.body.md.dispOut) ∧ (s.body.md.step = 5 → ∀ i ∈ r.diesOut, i < 8 → i ∈ u.body.data.dieOut) ∧
    (s.body.md.step = 5 → r.bridgeFail = true → u.body.md.state = 4) ∧
    (mustFail u.body = false → r.bridgeFail = false ∨ s.body.md.step = 9 → u.body.md.step = s.body.md.step + 1 ∧ u.body.md.state = 1)) ∧
  (∀ s r, s.body.md.state = 1 → s.body.md.step = 6 → Makes (.bringupStepEnd r) s fun u => (∀ c ∈ r.channels, c < 512 → c ∈ u.body.data.chanOut) ∧
    (u.body.md.memtest = 1 ∨ u.body.md.memtest = 2) ∧ (s.body.md.fullValid = false → u.body.md.memtest = 1) ∧
    (mustFail u.body = false → u.body.md.step = 7 ∧ u.body.md.state = 1)) ∧
  (∀ s r, s.body.md.state = 1 → s.body.md.step = 7 → Makes (.bringupStepEnd r) s fun u => (∀ f ∈ r.frames, f < 512 * 16384 → f ∈ u.body.data.frameOut) ∧
    (s.body.md.memtest = 1 → u.body.md.lastFullAge = 0) ∧ (mustFail u.body = false → u.body.md.step = 8 ∧ u.body.md.state = 1)) ∧
  (∀ s r, s.body.md.state = 1 → s.body.md.step = 8 → Makes (.bringupStepEnd r) s fun u =>
    (∀ k ∈ r.slices, k < 448 → mgetD u.body.data.slices k .inService = .out) ∧ (mustFail u.body = false → u.body.md.step = 9 ∧ u.body.md.state = 1)) ∧
  (∀ s r, s.body.md.state = 1 → s.body.md.step = 10 → mustFail s.body = false → let x := s.body.flash.tordy
    ((if x.active then x.bValid else x.aValid) = true → r.activeOk = true → Makes (.bringupStepEnd r) s fun u => u.body.md.step = 11 ∧
      u.body.md.state = 1 ∧ u.body.flash.tordy = { x with running := x.active } ∧ u.body.data = s.body.data) ∧
    (r.activeOk = false → r.otherOk = false → Makes (.bringupStepEnd r) s fun u => u.body.md.recovery = true ∧ u.body.md.state = 4)) ∧
  (∀ s r k lanes, s.body.md.state = 1 → s.body.md.step = 11 → mustFail s.body = false → r.links = [(k, lanes)] → k < 18 →
    (s.body.fab.link k).cable = true → laneCount lanes = 8 → Makes (.bringupStepEnd r) s fun u => u.body.md.step = 12 ∧
      (u.body.fab.link k).trained = true ∧ (u.body.fab.link k).lanes = lanes ∧ ∀ j, j ≠ k → u.body.fab.link j = s.body.fab.link j) ∧
  (∀ s r, s.body.md.state = 1 → s.body.md.step = 12 → mustFail s.body = false → Makes (.bringupStepEnd r) s fun u => u.body.md.state = 2 ∧
    u.body.md.readyBeat = s.alm.beat ∧ u.body.md.generation = 1 ∧ u.body.data.halted = false ∧ u.body.data.mem = s.body.data.mem ∧
    ∃ p ∈ u.body.data.posts, p.code = 0x070C ∧ p.fields.head? = some (2, 1)) ∧
  (∀ s, mustFail s.body = true → s.body.md.state = 1 → s.body.md.step = 12 → ∀ r, Makes (.bringupStepEnd r) s fun u => u.body.md.state = 4 ∧
    ∃ p ∈ u.body.data.posts, p.code = 0x070C ∧ p.fields.head? = some (4, 1))

/-! ### The host links -/

/-- 12 R340, R350, Table 5; 13 R364, R371; 18 R476: the host links. PERST#, a hot reset and a link that goes down reset
the functions of the port, and end its reads; PERST# and a function's reset unset its sequence numbers, the others do not.
A VF's reset unsets that VF's. VF Enable makes the VFs of a port reachable. The model's own readings and choices in it:
log entries 138, 139, 140, 185. -/
def Obligations.HostLinks : Prop :=
  (
    let down (s u : State) (p : HostPort) (cause : Nat) : Prop := (u.body.host.port p).up = false ∧ (u.body.host.port p).vfEnable = false ∧
      (u.body.host.port p).vfBar2Log2 = 33 ∧ (∀ k r, onPortFn p k = true → mget s.body.host.fns k = some r → mget u.body.host.fns k = some r.again) ∧
      (∀ k, onPortFn p k = false → mget u.body.host.fns k = mget s.body.host.fns k) ∧ (∀ q, q ≠ p → u.body.host.port q = s.body.host.port q) ∧
      ((s.body.host.port p).up = true → (u.body.host.port p).linkEvents = (s.body.host.port p).linkEvents + 1 ∧
        ⟨0x0401, 7 + 256 * (portNo p + 1), [(portNo p, 1), (cause, 1), (0, 6), (s.alm.beat, 8)], none⟩ ∈ u.body.data.posts) ∧
      ((∀ e ∈ s.body.data.engines, e.2.running = []) → (∀ x, x ∈ u.body.host.reqs ↔ x ∈ s.body.host.reqs ∧ x.hb ≠ (p == .hb)) ∧ u.body.data.mem = s.body.data.mem)
    (∀ s p, Makes (.perstAssert p) s fun u => down s u p 1 ∧ (u.body.host.port p).perst = true ∧ mget u.body.mg.nextSeq (fnStamp (.pf p)) = none ∧
      ∀ n ∈ portVfs s.body.data p, mget u.body.mg.nextSeq (0x40 + n) = none) ∧
    (∀ s p c cause, (s.body.host.port p).up = true → (c = .pcieHotReset p ∧ cause = 2) ∨ (c = .pcieLinkDown p ∧ cause = 3) → Makes c s fun u =>
      down s u p cause ∧ (u.body.host.port p).perst = (s.body.host.port p).perst ∧ u.body.mg = s.body.mg)) ∧
  (∀ s p, (s.body.host.port p).up = false → Leaves (.pcieHotReset p) s s ∧ Leaves (.pcieLinkDown p) s s ∧ Leaves (.pfFlr p) s s ∧
    Leaves (.vfEnableClear p) s s ∧ Leaves (.vfEnableSet p) s s) ∧
  (∀ s p, Leaves (.perstDeassert p) s (s.setBody { s.body with host := s.body.host.setPort p { s.body.host.port p with perst := false } })) ∧
  (∀ s p rate width, portMayTrain s.body p = true → rate ∈ [16, 32, 64] → width ∈ [8, 16] → Makes (.pcieLinkUp p rate width) s fun u =>
    u.body.host.port p = { s.body.host.port p with up := true, rate := rate, width := width } ∧ u.body.host.fns = s.body.host.fns ∧
    ⟨0x0402, 7 + 256 * (portNo p + 1), [(portNo p, 1), (rate, 1), (width, 1), (if rate = 64 then 1 else 0, 1)], none⟩ ∈ u.body.data.posts) ∧
  (∀ s p rate width, portMayTrain s.body p = false ∨ rate ∉ [16, 32, 64] ∨ width ∉ [8, 16] → Leaves (.pcieLinkUp p rate width) s s) ∧
  (∀ b p, portMayTrain b p = true ↔ (b.host.port p).perst = false ∧ (b.host.port p).up = false ∧ b.md.modPg = true ∧ b.md.refclk = true ∧
    8 + portNo p ∉ b.data.dieOut) ∧
  (∀ s p, (s.body.host.port p).up = true → Makes (.pfFlr p) s fun u => (u.body.host.port p).vfEnable = false ∧ (u.body.host.port p).vfBar2Log2 = 33 ∧
    (u.body.host.port p).up = true ∧ u.body.host.fn (.pf p) = (s.body.host.fn (.pf p)).again ∧ mget u.body.mg.nextSeq (fnStamp (.pf p)) = none ∧
    ∀ k, k ≠ fnStamp (.pf p) → mget u.body.mg.nextSeq k = mget s.body.mg.nextSeq k) ∧
  (∀ s p vf, vf < 64 → (s.body.host.port p).up = true → (s.body.host.port p).vfEnable = true → Makes (.vfFlr p vf) s fun u =>
    (u.body.host.fn (.vf p vf)) = { (s.body.host.fn (.vf p vf)).again with inFlr := true } ∧ u.body.host.live (.vf p vf) = false ∧
    ((vfPlot s.body.data p vf).isSome = true → mget u.body.mg.nextSeq (0x40 + vf) = none) ∧ u.body.host.port p = s.body.host.port p) ∧
  (∀ s p vf, 64 ≤ vf ∨ (s.body.host.port p).up = false ∨ (s.body.host.port p).vfEnable = false → Leaves (.vfFlr p vf) s s) ∧
  (∀ s p vf, ((s.body.host.fn (.vf p vf)).inFlr = false → Leaves (.vfFlrComplete p vf) s s) ∧
    ((s.body.host.fn (.vf p vf)).inFlr = true → Makes (.vfFlrComplete p vf) s fun u =>
      u.body.host.fn (.vf p vf) = { s.body.host.fn (.vf p vf) with inFlr := false } ∧ u.body.data = s.body.data)) ∧
  (∀ s p, (s.body.host.port p).up = true →
    (Makes (.vfEnableClear p) s fun u => (u.body.host.port p).vfEnable = false ∧ (∀ n, u.body.host.live (.vf p n) = false) ∧ u.body.mg = s.body.mg) ∧
    Leaves (.vfEnableSet p) s (s.setBody { s.body with host := s.body.host.setPort p { s.body.host.port p with vfEnable := true } }))

/-! ### Management and debug ports -/

/-- 12 R351-R355; 13 R370; 18 R468, R469: MG answers while a Postmaster answers on it, or, with the latch in fault, North,
and then readings alone. A letter takes the lowest free slot of 16, or is told LETTERBOX_FULL. Commands of no type and
arguments out of range are refused. The model's own readings and choices in it: log entries 129, 130, 131, 199, 204. -/
def Obligations.ManagementPort : Prop :=
  (∀ s c, mgUp s = false → c ∈ [.mctpGetEndpointId, .mctpGetVersionSupport, .mctpGetMessageTypeSupport, .mctpGetVendorMsgSupport,
    .pldmGetTid, .pldmGetPldmTypes, .pldmGetPdrRepositoryInfo] ∨ (∃ n, c ∈ [.mctpSetEndpointId n, .pldmGetPldmVersion n, .pldmGetPldmCommands n,
    .pldmGetPdr n, .pldmGetSensorReading n, .pldmGetStateSensorReadings n]) → Leaves c s s) ∧
  (∀ s c, s.latch.fault = true → c ∈ [.mctpGetEndpointId, .mctpGetVersionSupport, .mctpGetMessageTypeSupport, .mctpGetVendorMsgSupport,
    .pldmGetTid, .pldmGetPldmTypes, .pldmGetPdrRepositoryInfo] ∨ (∃ n, c ∈ [.mctpSetEndpointId n, .pldmGetPldmVersion n, .pldmGetPldmCommands n,
    .pldmGetPdr n]) → Leaves c s s) ∧
  (∀ s, mgUp s = true → s.latch.fault = false →
    (∀ e, e < 8 ∨ 255 ≤ e → Leaves (.mctpSetEndpointId e) s (mgSend s 0 0 [0, 1, 2])) ∧
    (∀ e, 8 ≤ e → e < 255 → Leaves (.mctpSetEndpointId e) s (mgSend (s.setMg { s.body.mgdb with eid := some e }) 0 0 [0, 1, 0, 0, BitVec.ofNat 8 e, 0])) ∧
    Leaves .mctpGetEndpointId s (mgSend s 0 0 [0, 2, 0, BitVec.ofNat 8 (s.body.mgdb.eid.getD 0), 0, 0]) ∧
    Leaves .mctpGetVersionSupport s ((mgSend s 0 0 ([0, 4, 0, 1] ++ openBytes s 4)).drawn 4) ∧
    Leaves .mctpGetMessageTypeSupport s (mgSend s 0 0 [0, 5, 0, 3, 0, 1, 0x7E]) ∧
    Leaves .mctpGetVendorMsgSupport s ((mgSend s 0 0 ([0, 6, 0, 0xFF, 0] ++ openBytes s 4)).drawn 4) ∧
    Leaves .pldmGetTid s ((mgSend s 0 1 ([0, 0, 2, 0] ++ openBytes s 1)).drawn 1) ∧
    (∀ n, n = 0 ∨ n = 2 → Leaves (.pldmGetPldmVersion n) s ((mgSend s 0 1 ([0, 0, 3, 0, 0, 0, 0, 0, 5] ++ openBytes s 8)).drawn 8)) ∧
    (∀ n, n ≠ 0 → n ≠ 2 → Leaves (.pldmGetPldmVersion n) s (mgSend s 0 1 [0, 0, 3, 0x83]) ∧
      Leaves (.pldmGetPldmCommands n) s (mgSend s 0 1 [0, 0, 5, 0x83])) ∧
    Leaves .pldmGetPldmTypes s (mgSend s 0 1 [0, 0, 4, 0, 5, 0, 0, 0, 0, 0, 0, 0]) ∧
    (∀ n, n = 0 ∨ n = 2 → Makes (.pldmGetPldmCommands n) s fun u => ∃ mask, u.body.host.out = s.body.host.out ++ [.mctp 0 1 ([0, 0, 5, 0] ++ mask)] ∧
      mask.length = 32 ∧ ∀ i, i < 256 → ((leNat mask).testBit i = true ↔ if n = 0 then i ∈ [2, 3, 4, 5] else i ∈ [0x11, 0x21, 0x50, 0x51])) ∧
    Leaves .pldmGetPdrRepositoryInfo s ((mgSend s 0 1 ([0, 2, 0x50, 0, 0] ++ openBytes s 40)).drawn 40) ∧
    (∀ h, 16 < h → Leaves (.pldmGetPdr h) s (mgSend s 0 1 [0, 2, 0x51, 0x82])) ∧
    (∀ h, h ≤ 16 → Makes (.pldmGetPdr h) s fun u => ∃ n rec, n ≤ 52 ∧ rec.length = n ∧ u.body.host.out = s.body.host.out ++
      [.mctp 0 1 ([0, 2, 0x51, 0] ++ natLe 4 (if h = 16 then 0 else max 1 h + 1) ++ [0, 0, 0, 0, 5] ++ natLe 2 n ++ rec)] ∧ u.body.mg = s.body.mg)) ∧
  (∀ s, mgUp s = true →
    (∀ n, 1 ≤ n → n ≤ 14 → Leaves (.pldmGetSensorReading n) s
      (mgSend s 0 1 ([0, 2, 0x11, 0, 2, 0, 0, 0, 0, 0] ++ natLe 2 (s.body.pw.sensors.getD (n - 1) 0)))) ∧
    (∀ n, n = 0 ∨ 14 < n → Leaves (.pldmGetSensorReading n) s (mgSend s 0 1 [0, 2, 0x11, 0x80])) ∧
    (∀ n, n = 20 ∨ n = 21 → let v := BitVec.ofNat 8 (if n = 20 ∧ s.latch.fault = true then 1 else s.body.pw.sensors.getD (n - 6) 0)
      Leaves (.pldmGetStateSensorReadings n) s (mgSend s 0 1 [0, 2, 0x21, 0, 1, 0, v, v, 0])) ∧
    (∀ n, n ≠ 20 → n ≠ 21 → Leaves (.pldmGetStateSensorReadings n) s (mgSend s 0 1 [0, 2, 0x21, 0x80]))) ∧
  (∀ s eid body, s.latch.fault = true → mgUp s = false → Leaves (.mgLetterMessage eid body) s s) ∧
  (∀ s eid body, s.latch.fault = true → mgUp s = true → Makes (.mgLetterMessage eid body) s fun u => u.body.mg = s.body.mg ∧
    ∃ b, u.body.host.out = s.body.host.out ++ [.mctp eid 0x7E b] ∧ b.length = 32) ∧
  (∀ s eid body, s.latch.fault = false → s.body.mg.nSt = .off → s.body.mg.sSt = .off → s.body.md.recovery = false → Leaves (.mgLetterMessage eid body) s s) ∧
  (∀ s eid body, s.latch.fault = false → s.body.mg.nSt ≠ .off ∨ s.body.mg.sSt ≠ .off ∨ s.body.md.recovery = true →
    ((∀ i, i < 16 → (mget s.body.mgdb.slots i).isSome = true) → Makes (.mgLetterMessage eid body) s fun u => u.body.mg = s.body.mg ∧
      u.body.mgdb.slots = s.body.mgdb.slots ∧ ∃ b, u.body.host.out = s.body.host.out ++ [.mctp eid 0x7E b] ∧ b.length = 32) ∧
    (∀ i, i < 16 → mget s.body.mgdb.slots i = none → (∀ j, j < i → (mget s.body.mgdb.slots j).isSome = true) →
      s.acting = false ∨ (∃ l, s.body.mg.accept.head? = some l ∧ hasRow l = true) →
      Makes (.mgLetterMessage eid body) s fun u => mget u.body.mgdb.slots i = some eid ∧
        u.body.mg.accept = s.body.mg.accept ++ [⟨(body ++ List.replicate 256 0).take 256, 3, none, i, 0, s.alm.beat⟩] ∧ u.body.host = s.body.host)) ∧
  (∀ s a, (s.body.md.modPg = true → s.body.mgdb.dynAddr = none → a < 128 → let u := s.setMg { s.body.mgdb with dynAddr := some a }
      Leaves (.i3cEntdaa a) s u ∧ Leaves (.i3cSetdasa (0x40 + s.body.md.slotId % 32) a) s u) ∧
    (s.body.md.modPg = false ∨ s.body.mgdb.dynAddr ≠ none ∨ 128 ≤ a → Leaves (.i3cEntdaa a) s s ∧ ∀ x, Leaves (.i3cSetdasa x a) s s) ∧
    (∀ x, x ≠ 0x40 + s.body.md.slotId % 32 → Leaves (.i3cSetdasa x a) s s))

/-- 12 R354, R355; 18 R468, R469: the debug port and the cables. Each instruction of the TAP shifts out its bits, and TRST
selects IDCODE. The console takes input only under its grant. Scan access to a compute die is closed without DATA_SCAN;
with it DB gets the die's scan, a free value, and nothing else changes (log 133). A link whose cable goes, or whose
cable's power fails, goes down. The model's own readings and choices in it: log entries 74, 132, 133, 134, 204. -/
def Obligations.DebugPortAndCables : Prop :=
  (∀ s, Leaves .jtagBypass s ((s.setMg { s.body.mgdb with tap := 1 }).emit (.tap [false])) ∧
    (Makes .jtagIdcode s fun u => u.body.mgdb = { s.body.mgdb with tap := 0 } ∧ u.body.data = s.body.data ∧
      ∃ bits, u.body.host.out = s.body.host.out ++ [.tap bits] ∧ bits.length = 32 ∧ ∀ i, i < 32 → bits[i]? = some (Config.idcode.getLsbD i)) ∧
    Leaves .jtagSamplePreload s (((s.setMg { s.body.mgdb with tap := 2 }).emit (.tap (Config.boundary s.body.data.free))).drawn 1) ∧
    Leaves .jtagExtest s (((s.setMg { s.body.mgdb with tap := 3 }).emit (.tap (Config.boundary s.body.data.free))).drawn 1) ∧
    Leaves .dbTrstAssert s (s.setMg { s.body.mgdb with tap := 0 })) ∧
  (∀ s b, (s.body.mgdb.grants % 2 = 1 → Leaves (.dbUartRx b) s (s.setMg { s.body.mgdb with consoleIn := s.body.mgdb.consoleIn ++ [b] })) ∧
    (s.body.mgdb.grants % 2 = 0 → Leaves (.dbUartRx b) s s)) ∧
  (∀ s die, (s.body.mgdb.grants / 4 % 2 = 0 ∨ 8 ≤ die → Leaves (.scanAccess die) s s) ∧
    (s.body.mgdb.grants / 4 % 2 = 1 → die < 8 →
      Leaves (.scanAccess die) s ((s.emit (.scan die (Config.scanned die s.body.data.free))).drawn 1))) ∧
  (∀ s k p, 18 ≤ k ∨ (s.body.fab.link k).cable = p → Leaves (.cblPrsntChange k p) s s) ∧
  (∀ s k, k < 18 → let l := s.body.fab.link k
    (l.cable = false → Leaves (.cblPrsntChange k true) s (s.setLink k { l with cable := true, events := l.events + 1 })) ∧
    (l.cable = true → Makes (.cblPrsntChange k false) s fun u => (u.body.fab.link k).cable = false ∧ (u.body.fab.link k).trained = false ∧
      (u.body.fab.link k).verdict = .noPeer ∧ (u.body.fab.link k).events = l.events + 1 ∧ (s.body.fab.conns = [] → ∀ j, j ≠ k → u.body.fab.link j = s.body.fab.link j) ∧
      (l.trained = true → ⟨0x0302, 7 + 256 * (0x80 + k), [(k, 0), (3, 0), (s.alm.beat, 0)], none⟩ ∈ u.body.data.posts))) ∧
  (∀ s k mA, (k = 16 ∨ k = 17) → (s.body.fab.link k).cablePower = true → Makes (.cablePowerFault k mA) s fun u =>
    (u.body.fab.link k).cablePower = false ∧ (u.body.fab.link k).trained = false ∧ (u.body.fab.link k).verdict = .noPeer ∧
    ⟨0x0711, 7 + 256 * (0x80 + k), [(k, 0), (mA, 0)], none⟩ ∈ u.body.data.posts) ∧
  (∀ s k mA, (k ≠ 16 ∧ k ≠ 17) ∨ (s.body.fab.link k).cablePower = false → Leaves (.cablePowerFault k mA) s s)

/-! ### The record ring -/

/-- 15 R425-R428: records. A source's window that has counted ends with its latest record, which tells how many it stands
for. A burst ends, once 64 places are free, with its summary. What has not been copied to flash is, every 100,000 beats. A
record that the ring takes gets the next SEQ; the ring keeps the last 4,096. The model's own readings and choices in it: log
entries 143, 145, 146. -/
def Obligations.RecordRing : Prop :=
  (∀ (l : Log) (now : Nat) (r : Rec), l.burst = none → l.uncopied < 4096 →
    (∀ w, mget l.windows (srcKey r.code r.source) = some w → w.n = 0 ∧ w.last + 1000 ≤ now) →
    (l.arrive now r).nextSeq = l.nextSeq + 1 ∧ (l.arrive now r).ring.getLast? = some { r with seq := l.nextSeq } ∧
    (l.ring.length < 4096 → (l.arrive now r).ring = l.ring ++ [{ r with seq := l.nextSeq }]) ∧
    (l.ring.length ≤ 4096 → (l.arrive now r).ring.length ≤ 4096) ∧ (l.arrive now r).flash = l.flash) ∧
  (∀ (l : Log) (now : Nat) (r : Rec) (w : Window), l.burst = none → l.uncopied < 4096 → mget l.windows (srcKey r.code r.source) = some w →
    now < w.last + 1000 ∨ 0 < w.n → (l.arrive now r).ring = l.ring ∧ (l.arrive now r).nextSeq = l.nextSeq ∧
      mget (l.arrive now r).windows (srcKey r.code r.source) = some { w with n := w.n + 1, latest := some r }) ∧
  (∀ s code kind unit w r, mget s.body.log.windows (srcKey code (kind + 256 * unit)) = some w → w.latest = some r → w.last + 1000 ≤ s.alm.beat →
    s.body.log.burst = none → s.body.log.uncopied < 4096 → Makes (.recordWindowExpiry code kind unit) s fun u =>
      u.body.log.ring.getLast? = some { r with suppressed := w.n - 1, seq := s.body.log.nextSeq } ∧ u.body.log.nextSeq = s.body.log.nextSeq + 1 ∧
      u.body.data = s.body.data) ∧
  (∀ s code kind unit, (∀ w, mget s.body.log.windows (srcKey code (kind + 256 * unit)) = some w → w.latest = none ∨ s.alm.beat < w.last + 1000) ∨
    s.body.log.burst.isSome = true → Leaves (.recordWindowExpiry code kind unit) s s) ∧
  (∀ s b, s.body.log.burst = some b → s.body.log.uncopied + 64 ≤ 4096 → Makes .recordBurstEnd s fun u => u.body.log.burst = none ∧
    let recs := b.held.flatMap fun h => heldRecs h.2
    u.body.log.nextSeq = s.body.log.nextSeq + 1 + recs.length ∧
    (recs.length < 4096 → ∃ x ∈ u.body.log.ring, x.code = 0x0707 ∧ x.seq = s.body.log.nextSeq ∧ x.beat = s.alm.beat) ∧ u.body.data = s.body.data) ∧
  (∀ s, s.body.log.burst = none → Leaves .recordBurstEnd s s) ∧
  (∀ s, 4096 < s.body.log.uncopied + 64 → Leaves .recordBurstEnd s s) ∧
  (∀ s, s.gate = true → s.body.log.lastCopy + 100000 ≤ s.alm.beat → Makes .flashLogCopy s fun u =>
    let f := s.body.log.flash ++ s.body.log.ring.filter fun r => decide (s.body.log.copied ≤ r.seq)
    u.body.log = { s.body.log with flash := f.drop (f.length - 262144), copied := s.body.log.nextSeq, lastCopy := s.alm.beat } ∧ u.body.data = s.body.data) ∧
  (∀ s, s.gate = false ∨ s.alm.beat < s.body.log.lastCopy + 100000 → Leaves .flashLogCopy s s)

/-! ### Stated rules -/

/-- 06 R172, R179: the 8-bit integer elements, and NaN results. An MXINT8 or INT8 code is its two's complement number n, or n
sixty-fourths; none is an infinity or a NaN, and a number has one zero. Every code that is a NaN is read as the one NaN, and
a NaN is written canonical in each format, without a cause for a report. -/
def Obligations.NumberCodes : Prop :=
  (∀ w : W32, ∃ n : Int, -128 ≤ n ∧ n ≤ 127 ∧ n % 256 = (w.toNat % 256 : Nat) ∧ decodeCode 11 w = .fin ⟨n, -6⟩ ∧ decodeCode 12 w = .fin ⟨n, 0⟩) ∧
  (∀ md, encodeCode 1 md .nan = (0x7FC00000, 0) ∧ encodeCode 2 md .nan = (0x7FC0, 0) ∧ encodeCode 3 md .nan = (0x7E00, 0) ∧
    encodeCode 4 md .nan = (0x7F, 0) ∧ encodeCode 5 md .nan = (0x7E, 0)) ∧
  (∀ code vs, FVal.nan ∈ vs → blockScale code vs = (0xFF, 0)) ∧
  (∀ w : W32, (0x7F800000 < w.toNat % 2 ^ 31 ↔ decodeCode 1 w = .nan) ∧ (0x7F80 < w.toNat % 2 ^ 15 ↔ decodeCode 2 w = .nan) ∧
    (0x7C00 < w.toNat % 2 ^ 15 ↔ decodeCode 3 w = .nan) ∧ (w.toNat % 2 ^ 7 = 0x7F ↔ decodeCode 4 w = .nan) ∧
    (0x7C < w.toNat % 2 ^ 7 ↔ decodeCode 5 w = .nan))

/-- 09 R274: a packet's connection class is 1 when its route entry names PORT1 and bit 0 of its agent's index is 1, else 0;
packets of one agent to one node therefore go on one connection. -/
def Obligations.ConnectionClass : Prop :=
  (∀ e agent, (connClass e agent = 1 ↔ rtPort1 e ≠ 31 ∧ agent % 2 = 1) ∧ (connClass e agent ≠ 1 → connClass e agent = 0)) ∧
  (∀ b beat p, let k := connKey p.dst (connClass (b.fab.route b.fab.active p.dst) p.agent)
    (∀ j, j ≠ k → (Body.send b beat p).fab.conn j = b.fab.conn j) ∧
    ((b.fab.conn k).hold = true → (Body.send b beat p).fab.conn k = { b.fab.conn k with held := (b.fab.conn k).held ++ [p] }) ∧
    ((b.fab.conn k).hold = false → ((Body.send b beat p).fab.conn k).txSeq = (b.fab.conn k).txSeq + 1 ∧
      ∃ x, ((Body.send b beat p).fab.conn k).unacked = (b.fab.conn k).unacked ++ [x] ∧ x.pkt.dst = p.dst ∧ x.pkt.agent = p.agent ∧ x.pkt.seq = (b.fab.conn k).txSeq))

/-- 03 R69: an instruction that names a vector register at or beyond regs_alloc faults with OPERAND_RANGE at issue, its group
parked there; specifier 255 is no register, and one that names none beyond does not fault so. -/
def Obligations.OperandRange : Prop :=
  ∀ i sp x, huvalOf i = some (sp, x) → ∀ s q, issueCtx s.body.data s.alm.beat x = some q → fetchOk sp (atIssue s q) q = true →
    illegal sp x = false → (sp.wide x && q.on == 0 && Issue.guard x != 0) = false →
    ((∃ r ∈ sp.refs x, r.sp = 0 ∧ r.n ≠ 255 ∧ q.b.regsAlloc < r.n + r.cnt) → exec i s = .next (parked s sp q .operandRange q.on 0)) ∧
    ((∀ r ∈ sp.refs x, r.sp = 0 → r.n = 255 ∨ r.n + r.cnt ≤ q.b.regsAlloc) → (sp.refs x).any (refBeyond q.b.regsAlloc) = false)

/-! ### The machine -/

/-- A step takes the command at the front of the queue and runs it with the queue's rest; on an empty queue the block idles
(the model's choice). No word of the table spells a command, since the table gives its rows no bits. The model's own readings
and choices in it: log entries 3, 5. -/
def Obligations.StepRule : Prop :=
  (∀ s c q, s.pending = c :: q → step s = exec c { s with pending := q }) ∧ (∀ s, s.pending = [] → step s = .next s) ∧
  (∀ (s : State) n w, decodeTableWord n w = none ∧ s.withFetchWord n w = s) ∧ core.step = step ∧ core.reset = State.reset

/-- 02 R43, Table 3; 12 Tables 1, 3; 13 R364, R368, R371; 14 R384, Table 2; 17 R447, R448: the state in which a module reset
has just begun. The queue is empty, the Almanac 0 in FREE, the latch without a holder, the journal empty and every sequence
number unset; the data plane is halted, and no memory is listed; no link is up; the safe cap of a new module is in force. The
model's own readings and choices in it: log entries 8, 9, 10, 11, 12. -/
def Obligations.ResetState : Prop :=
  let s := State.reset
  s.pending = [] ∧ s.alm.beat = 0 ∧ s.alm.st = .free ∧ s.latch = ⟨none, none, 0, 0, false, 0, 0⟩ ∧ LatchOk s.latch ∧ s.body.md.state = 1 ∧
    s.body.md.step = 1 ∧ s.body.data.halted = true ∧ s.body.data.mem = [] ∧ s.body.data.cores = [] ∧ s.body.data.plots = [] ∧
    s.body.mg.journal = [] ∧ s.body.mg.accept = [] ∧ s.body.mg.nextSeq = [] ∧ s.body.mg.schedule = [] ∧ s.body.mg.nextTicket = 1 ∧
    (∀ p, (s.body.host.port p).up = false ∧ (s.body.host.port p).vfEnable = false ∧ (s.body.host.port p).vfBar2Log2 = 33) ∧
    (∀ f, (s.body.host.fn f).replyVector = 0xFFF ∧ (s.body.host.fn f).letters = []) ∧ (∀ k, (s.body.fab.link k).trained = false) ∧
    s.body.pw.cap = 1400 ∧ s.body.pw.budgets = [] ∧ s.body.pw.cold = .running ∧ s.body.log.ring = []

/-- 13 R368: in every step from a state whose latch is legal, the latch stays legal. -/
def Obligations.LatchKept : Prop :=
  ∀ s t, LatchOk s.latch → step s = .next t → LatchOk t.latch

/-- No command changes the queue behind it, and none but those that R368, R370, R425, R447 and R448 name changes the lease
latch. -/
def Obligations.QueueAndLatchFrame : Prop :=
  ∀ c s t, exec c s = .next t → t.pending = s.pending ∧ (latchCommand c = false → t.latch = s.latch)
end

