-- ==== Sys2Proof/Laws/Tables.lean ====
section
/-! SUPPORT. What reading a table gives after it has been written, and that writing keeps its keys rising. -/

namespace Sys2Proof.Machine

@[simp] theorem mget_nil {α : Type} (k : Nat) : mget ([] : SMap α) k = none := rfl

@[simp] theorem mget_mput_self {α : Type} (m : SMap α) (k : Nat) (x : α) : mget (mput m k x) k = some x := by
  induction m with
  | nil => simp [mput, mget]
  | cons e m ih => simp only [mput]; split_ifs <;> simp_all [mget]

theorem mget_mput_ne {α : Type} (m : SMap α) (k j : Nat) (x : α) (h : k ≠ j) : mget (mput m k x) j = mget m j := by
  induction m with
  | nil => simp [mput, mget, h]
  | cons e m ih =>
    simp only [mput]
    split_ifs with h1 h2
    · simp [mget, h]
    · subst h2; simp [mget, h]
    · simp [mget, ih]

@[simp] theorem mget_mdel_self {α : Type} (m : SMap α) (k : Nat) : mget (mdel m k) k = none := by
  induction m with
  | nil => rfl
  | cons e m ih => simp only [mdel]; split_ifs <;> simp_all [mget]

theorem mget_mdel_ne {α : Type} (m : SMap α) (k j : Nat) (h : k ≠ j) : mget (mdel m k) j = mget m j := by
  induction m with
  | nil => rfl
  | cons e m ih =>
    simp only [mdel]
    split_ifs with h1
    · subst h1; simp [mget, h, ih]
    · simp [mget, ih]

/-- A read of the entry just written in canonical form. -/
@[simp] theorem mgetD_cput_self {α : Type} [DecidableEq α] (d : α) (m : SMap α) (k : Nat) (x : α) :
    mgetD (cput d m k x) k d = x := by
  unfold cput mgetD
  split_ifs with h <;> simp [h]

/-- A read of another entry. -/
theorem mgetD_cput_ne {α : Type} [DecidableEq α] (d : α) (m : SMap α) (k j : Nat) (x y : α) (h : k ≠ j) :
    mgetD (cput d m k x) j y = mgetD m j y := by
  unfold cput mgetD
  split_ifs
  · rw [mget_mdel_ne _ _ _ h]
  · rw [mget_mput_ne _ _ _ _ h]

theorem mget_mmod {α : Type} (m : SMap α) (k j : Nat) (f : α → α) :
    mget (mmod m k f) j = if k = j then (mget m j).map f else mget m j := by
  induction m with
  | nil => simp [mmod]
  | cons e m ih =>
    simp only [mmod, List.map_cons] at ih ⊢
    by_cases h : e.1 = k
    · by_cases hj : k = j
      · simp [mget, h, hj]
      · simp [mget, h, hj, ih]
    · by_cases hj : e.1 = j
      · subst hj
        simp [mget, h, Ne.symm h]
      · simp [mget, h, hj, ih]

theorem mget_mmap {α : Type} (m : SMap α) (j : Nat) (f : Nat → α → α) : mget (mmap m f) j = (mget m j).map (f j) := by
  induction m with
  | nil => rfl
  | cons e m ih =>
    simp only [mmap, List.map_cons, mget] at ih ⊢
    split_ifs with h
    · subst h; rfl
    · exact ih

/-! ### Keys stay rising -/


theorem mem_mput {α : Type} {m : SMap α} {k : Nat} {x : α} {e : Nat × α} (h : e ∈ mput m k x) : e = (k, x) ∨ e ∈ m := by
  induction m with
  | nil => simpa [mput] using h
  | cons a m ih =>
    simp only [mput] at h
    split_ifs at h
    · simpa using h
    · rcases List.mem_cons.1 h with h | h
      · exact .inl h
      · exact .inr (List.mem_cons_of_mem _ h)
    · rcases List.mem_cons.1 h with h | h
      · exact .inr (h ▸ List.mem_cons_self)
      · exact (ih h).imp_right (List.mem_cons_of_mem _)

theorem mdel_sublist {α : Type} (m : SMap α) (k : Nat) : (mdel m k).Sublist m := by
  induction m with
  | nil => exact .slnil
  | cons e m ih =>
    simp only [mdel]
    split_ifs
    · exact ih.cons _
    · exact ih.cons_cons _

theorem Rising.mput {α : Type} {m : SMap α} (h : Rising m) (k : Nat) (x : α) : Rising (mput m k x) := by
  induction m with
  | nil => simp [Machine.mput, Rising]
  | cons e m ih =>
    have h1 := List.pairwise_cons.1 h
    simp only [Machine.mput]
    split_ifs with ha hb
    · refine List.pairwise_cons.2 ⟨fun b hb => ?_, h⟩
      rcases List.mem_cons.1 hb with hb | hb
      · simpa [hb] using ha
      · exact lt_trans ha (h1.1 b hb)
    · subst hb; exact List.pairwise_cons.2 ⟨h1.1, h1.2⟩
    · refine List.pairwise_cons.2 ⟨fun b hb' => ?_, ih h1.2⟩
      obtain ⟨y, hy, rfl⟩ := List.mem_map.1 hb'
      rcases mem_mput hy with hy | hy
      · subst hy; exact lt_of_le_of_ne (not_lt.1 ha) hb
      · exact h1.1 _ (List.mem_map_of_mem hy)

theorem Rising.mdel {α : Type} {m : SMap α} (h : Rising m) (k : Nat) : Rising (mdel m k) :=
  h.sublist ((mdel_sublist m k).map _)

theorem Rising.filter {α : Type} {m : SMap α} (h : Rising m) (p : Nat × α → Bool) : Rising (m.filter p) :=
  h.sublist (List.filter_sublist.map _)

end Sys2Proof.Machine
end

