-- ==== Sys2Proof/Laws/Finish.lean ====
section
/-! SUPPORT. What the end of a command (`State.finish`) leaves alone. -/

namespace Sys2Proof.Machine

/-! ### Settling launches -/

/-- The parts of the body that settling leaves alone. -/
structure Body.SameButData (a b : Body) : Prop where
  mg : b.mg = a.mg
  host : b.host = a.host
  mgdb : b.mgdb = a.mgdb
  fab : b.fab = a.fab
  pw : b.pw = a.pw
  hl : b.hl = a.hl
  log : b.log = a.log
  flash : b.flash = a.flash
  md : b.md = a.md

theorem Body.SameButData.refl (a : Body) : a.SameButData a := ⟨rfl, rfl, rfl, rfl, rfl, rfl, rfl, rfl, rfl⟩

theorem Body.SameButData.trans {a b c : Body} (h : a.SameButData b) (k : b.SameButData c) : a.SameButData c :=
  ⟨k.mg.trans h.mg, k.host.trans h.host, k.mgdb.trans h.mgdb, k.fab.trans h.fab, k.pw.trans h.pw, k.hl.trans h.hl,
    k.log.trans h.log, k.flash.trans h.flash, k.md.trans h.md⟩

theorem Body.SameButData.of_data (a : Body) (d : Data) : a.SameButData { a with data := d } :=
  ⟨rfl, rfl, rfl, rfl, rfl, rfl, rfl, rfl, rfl⟩

theorem journalEntry_same (b : Body) (l : Launch) (beat : Nat) : b.SameButData (b.journalEntry l beat).1 := by
  unfold Body.journalEntry
  split
  · exact .refl b
  · exact ⟨rfl, rfl, rfl, rfl, rfl, rfl, rfl, rfl, rfl⟩

theorem replayEnd_same (b : Body) (l : Launch) (beat : Nat) (e : Option (List Byte)) : b.SameButData (b.replayEnd l beat e) := by
  unfold Body.replayEnd
  split
  · exact .refl b
  · split_ifs
    · cases e <;> exact ⟨rfl, rfl, rfl, rfl, rfl, rfl, rfl, rfl, rfl⟩
    · exact .refl b

theorem settle_same (b : Body) (hold : Bool) (id beat : Nat) : b.SameButData (b.settle hold id beat) := by
  unfold Body.settle
  split
  · exact .refl b
  · split_ifs
    · exact .refl b
    · exact (journalEntry_same b _ beat).trans ((Body.SameButData.of_data _ _).trans (replayEnd_same _ _ _ _))
    · exact (Body.SameButData.of_data _ _).trans (replayEnd_same _ _ _ _)
    · exact .refl b

theorem settleFold_same (l : SMap Launch) (b : Body) (hold : Bool) (beat : Nat) :
    b.SameButData (l.foldl (fun b e => b.settle hold e.1 beat) b) := by
  induction l generalizing b with
  | nil => exact .refl b
  | cons e l ih => exact (settle_same b hold e.1 beat).trans (ih _)

theorem settleAll_same (b : Body) (hold : Bool) (beat : Nat) : b.SameButData (b.settleAll hold beat) := by
  have go (b : Body) : b.SameButData
      (let b := { b with data := b.data.runAborts }; b.data.launches.foldl (fun b e => b.settle hold e.1 beat) b) :=
    (Body.SameButData.of_data _ _).trans (settleFold_same _ _ _ _)
  exact ((go b).trans ((go _).trans (go _))).trans ⟨rfl, rfl, rfl, rfl, rfl, rfl, rfl, rfl, rfl⟩

/-! ### The floor plan -/

/-- What a new report changes: the plan it was built from, the FULL count, GENERATION and BUILT_BEAT, the retirement list,
the pairs and the suspects that have been retired, and at most one record more. -/
theorem replan_cases (b : Body) (beat : Nat) : ∃ (md : Module) (hl : Health) (flash : Flash) (posts : List Post),
    b.replan beat = { b with md := md, hl := hl, flash := flash, data := { b.data with posts := posts } } ∧
    (∃ pl fs g bb, md = { b.md with plan := pl, fullSeen := fs, generation := g, builtBeat := bb }) ∧
    (∃ ps ss, hl = { b.hl with pairs := ps, suspects := ss }) ∧ (flash = b.flash ∨ flash = b.flash.retire b.data b.fab) := by
  have mdOf (pl : List (List Nat)) (fs : Nat) : ∃ p f g bb,
      (if ({ b.md with plan := pl, fullSeen := fs } : Module).state = 2 then
        { ({ b.md with plan := pl, fullSeen := fs } : Module) with
          generation := ({ b.md with plan := pl, fullSeen := fs } : Module).generation + 1, builtBeat := beat }
      else { b.md with plan := pl, fullSeen := fs }) = { b.md with plan := p, fullSeen := f, generation := g, builtBeat := bb } := by
    split
    · exact ⟨_, _, _, _, rfl⟩
    · exact ⟨_, _, _, _, rfl⟩
  unfold Body.replan
  lift_lets
  intro parts full md src md' short flash' hl0 hl
  split
  · exact ⟨b.md, b.hl, b.flash, b.data.posts, rfl, ⟨_, _, _, _, rfl⟩, ⟨_, _, rfl⟩, .inl rfl⟩
  · split
    · exact ⟨md', hl, flash', _, rfl, mdOf _ _, ⟨_, _, rfl⟩, .inr rfl⟩
    · exact ⟨md', hl, flash', b.data.posts, rfl, mdOf _ _, ⟨_, _, rfl⟩, .inr rfl⟩

theorem replan_same (b : Body) (beat : Nat) :
    (b.replan beat).mg = b.mg ∧ (b.replan beat).host = b.host ∧ (b.replan beat).mgdb = b.mgdb ∧ (b.replan beat).fab = b.fab ∧
      (b.replan beat).pw = b.pw ∧ (b.replan beat).log = b.log ∧ (b.replan beat).sj = b.sj ∧ (b.replan beat).replay = b.replay := by
  obtain ⟨md, hl, flash, posts, h, -⟩ := replan_cases b beat
  rw [h]; exact ⟨rfl, rfl, rfl, rfl, rfl, rfl, rfl, rfl⟩

/-! ### The end of a command -/

theorem flush_same (s : State) :
    s.flush.pending = s.pending ∧ s.flush.alm = s.alm ∧ s.flush.latch = s.latch ∧ s.flush.body.mg = s.body.mg ∧
      s.flush.body.mgdb = s.body.mgdb ∧ s.flush.body.fab = s.body.fab ∧ s.flush.body.pw = s.body.pw ∧
      s.flush.body.hl = s.body.hl ∧ s.flush.body.flash = s.body.flash ∧ s.flush.body.sj = s.body.sj ∧
      s.flush.body.replay = s.body.replay ∧
      (∃ sp, s.flush.body.md = { s.body.md with spoiled := sp }) ∧
      s.flush.body.data = { s.body.data with posts := s.flush.body.data.posts, irqs := [] } := by
  unfold State.flush
  dsimp only
  split_ifs <;> exact ⟨rfl, rfl, rfl, rfl, rfl, rfl, rfl, rfl, rfl, rfl, rfl, ⟨_, rfl⟩, rfl⟩

variable (s : State)

/-- The body as it is before records are handed on. -/
def State.settled (s : State) : Body := (s.body.settleAll s.marksWait s.alm.beat).replan s.alm.beat

theorem finish_eq : s.finish = State.flush { s with body := { s.settled with data := { s.settled.data with
    posts := s.settled.data.posts.map fun p => { p with beat := some (p.beat.getD s.alm.beat) }
    corrected := mmap s.settled.data.corrected fun _ c => (c.1, some (c.2.getD s.alm.beat)) } } } := rfl

@[simp] theorem finish_pending : s.finish.pending = s.pending := (flush_same _).1
@[simp] theorem finish_alm : s.finish.alm = s.alm := (flush_same _).2.1
@[simp] theorem finish_latch : s.finish.latch = s.latch := (flush_same _).2.2.1
@[simp] theorem finish_mg : s.finish.body.mg = s.body.mg :=
  (flush_same _).2.2.2.1.trans ((replan_same _ _).1.trans (settleAll_same _ _ _).mg)
@[simp] theorem finish_mgdb : s.finish.body.mgdb = s.body.mgdb :=
  (flush_same _).2.2.2.2.1.trans ((replan_same _ _).2.2.1.trans (settleAll_same _ _ _).mgdb)
@[simp] theorem finish_fab : s.finish.body.fab = s.body.fab :=
  (flush_same _).2.2.2.2.2.1.trans ((replan_same _ _).2.2.2.1.trans (settleAll_same _ _ _).fab)
@[simp] theorem finish_pw : s.finish.body.pw = s.body.pw :=
  (flush_same _).2.2.2.2.2.2.1.trans ((replan_same _ _).2.2.2.2.1.trans (settleAll_same _ _ _).pw)

/-- The module's registers but for the floor plan's parts and the mark of a spoiled memory test. -/
theorem finish_md : ∃ pl fs g bb sp, s.finish.body.md =
    { s.body.md with plan := pl, fullSeen := fs, generation := g, builtBeat := bb, spoiled := sp } := by
  obtain ⟨sp, h1⟩ := (flush_same { s with body := { s.settled with data := { s.settled.data with
    posts := s.settled.data.posts.map fun p => { p with beat := some (p.beat.getD s.alm.beat) }
    corrected := mmap s.settled.data.corrected fun _ c => (c.1, some (c.2.getD s.alm.beat)) } } }).2.2.2.2.2.2.2.2.2.2.2.1
  obtain ⟨md, hl, flash, posts, h, ⟨pl, fs, g, bb, hm⟩, -⟩ := replan_cases (s.body.settleAll s.marksWait s.alm.beat) s.alm.beat
  rw [(settleAll_same _ _ _).md] at hm
  have h2 : s.settled.md = md := by rw [State.settled, h]
  exact ⟨pl, fs, g, bb, sp, h1.trans (congrArg (fun m : Module => { m with spoiled := sp }) (h2.trans hm))⟩

/-- The tests but for the pairs and the suspects. -/
theorem finish_hl : ∃ ps ss, s.finish.body.hl = { s.body.hl with pairs := ps, suspects := ss } := by
  obtain ⟨md, hl, flash, posts, h, -, ⟨ps, ss, hh⟩, -⟩ := replan_cases (s.body.settleAll s.marksWait s.alm.beat) s.alm.beat
  rw [(settleAll_same _ _ _).hl] at hh
  refine ⟨ps, ss, ?_⟩
  rw [finish_eq, (flush_same _).2.2.2.2.2.2.2.1]
  show s.settled.hl = _
  rw [State.settled, h, hh]

/-- The module's registers that no end of a command changes. -/
@[simp] theorem finish_md_keep :
    s.finish.body.md.state = s.body.md.state ∧ s.finish.body.md.step = s.body.md.step ∧
      s.finish.body.md.recovery = s.body.md.recovery ∧ s.finish.body.md.p3v3 = s.body.md.p3v3 ∧
      s.finish.body.md.oscOk = s.body.md.oscOk ∧ s.finish.body.md.pwrEn = s.body.md.pwrEn ∧
      s.finish.body.md.modPg = s.body.md.modPg ∧ s.finish.body.md.thermtrip = s.body.md.thermtrip ∧
      s.finish.body.md.inputGood = s.body.md.inputGood ∧ s.finish.body.md.uv = s.body.md.uv ∧
      s.finish.body.md.refclk = s.body.md.refclk ∧ s.finish.body.md.slotId = s.body.md.slotId ∧
      s.finish.body.md.readyBeat = s.body.md.readyBeat ∧ s.finish.body.md.grade = s.body.md.grade ∧
      s.finish.body.md.latchTherm = s.body.md.latchTherm ∧ s.finish.body.md.latchOver = s.body.md.latchOver ∧
      s.finish.body.md.latchPower = s.body.md.latchPower ∧ s.finish.body.md.dispOut = s.body.md.dispOut := by
  obtain ⟨_, _, _, _, _, h⟩ := finish_md s
  rw [h]
  exact ⟨rfl, rfl, rfl, rfl, rfl, rfl, rfl, rfl, rfl, rfl, rfl, rfl, rfl, rfl, rfl, rfl, rfl, rfl⟩

end Sys2Proof.Machine
end

