-- ==== Sys2Proof/Laws/Issue.lean ====
section
/-! SUPPORT. The issue of a Huval instruction, and reads of registers after writes. -/

namespace Sys2Proof.Machine

/-! ### Registers -/

@[simp] theorem wrV_p (g : Group) (n t : Nat) (x : W32) : (g.wrV n t x).p = g.p := by unfold Group.wrV; split_ifs <;> rfl
@[simp] theorem wrV_u (g : Group) (n t : Nat) (x : W32) : (g.wrV n t x).u = g.u := by unfold Group.wrV; split_ifs <;> rfl
@[simp] theorem wrU_v (g : Group) (n : Nat) (x : W32) : (g.wrU n x).v = g.v := by unfold Group.wrU; split_ifs <;> rfl
@[simp] theorem wrU_p (g : Group) (n : Nat) (x : W32) : (g.wrU n x).p = g.p := by unfold Group.wrU; split_ifs <;> rfl
@[simp] theorem wrP_v (g : Group) (n : Nat) (x : W32) : (g.wrP n x).v = g.v := by unfold Group.wrP; split_ifs <;> rfl
@[simp] theorem wrP_u (g : Group) (n : Nat) (x : W32) : (g.wrP n x).u = g.u := by unfold Group.wrP; split_ifs <;> rfl

/-- Only the v registers change. -/
theorem wrV_rest (g : Group) (n t : Nat) (x : W32) : { g.wrV n t x with v := g.v } = g := by
  unfold Group.wrV; split_ifs <;> rfl

theorem rd_wrV (g : Group) (n t : Nat) (x : W32) (k u : Nat) (ht : t < 32) (hu : u < 32) :
    (g.wrV n t x).rd 0 k u = if n ≠ 255 ∧ k = n ∧ u = t then x else g.rd 0 k u := by
  unfold Group.wrV
  by_cases hn : n = 255
  · simp [hn]
  · simp only [hn, if_false, Group.rd]
    by_cases hk : k = 255
    · have : k ≠ n := fun h => hn (h ▸ hk)
      simp [hk, Ne.symm hn]
    · by_cases hq : k = n ∧ u = t
      · obtain ⟨rfl, rfl⟩ := hq; simp [hk]
      · have : 32 * n + t ≠ 32 * k + u := by omega
        simp [hk, hq, mgetD_cput_ne _ _ _ _ _ _ this]

/-- Writing a set of threads one after another. -/
theorem wrVs_fold (g : Group) (n : Nat) (f : Nat → W32) (l : List Nat) (hl : ∀ t ∈ l, t < 32) :
    ({ l.foldl (fun g t => g.wrV n t (f t)) g with v := g.v } = g) ∧
      ∀ k u, u < 32 → (l.foldl (fun g t => g.wrV n t (f t)) g).rd 0 k u =
        if n ≠ 255 ∧ k = n ∧ u ∈ l then f u else g.rd 0 k u := by
  induction l generalizing g with
  | nil => simp
  | cons a l ih =>
    obtain ⟨h1, h2⟩ := ih (g.wrV n a (f a)) fun t ht => hl t (List.mem_cons_of_mem _ ht)
    refine ⟨?_, fun k u hu => ?_⟩
    · have := congrArg (fun h : Group => { h with v := g.v }) h1
      exact (this.trans (wrV_rest g n a (f a)))
    · rw [List.foldl_cons, h2 k u hu, rd_wrV _ _ _ _ _ _ (hl a List.mem_cons_self) hu]
      by_cases hn : n = 255
      · simp [hn]
      · by_cases hk : k = n <;> by_cases ha : u = a <;> by_cases hm : u ∈ l <;> simp [hn, hk, ha, hm]

theorem mem_threads (m : W32) (t : Nat) : t ∈ threads m ↔ t < 32 ∧ bit m t = true := by simp [threads]

/-- A write of the threads of a mask. -/
theorem WritesV.wrVs (g : Group) (n : Nat) (m : W32) (f : Nat → W32) : WritesV g (g.wrVs n m f) n m f := by
  obtain ⟨h1, h2⟩ := wrVs_fold g n f (threads m) fun t ht => ((mem_threads m t).1 ht).1
  refine ⟨h1, fun hn t hb ht => ?_, fun t ht hb => ?_, fun k t hk ht => ?_⟩
  · rw [Group.wrVs, h2 n t ht, if_pos ⟨hn, rfl, (mem_threads m t).2 ⟨ht, hb⟩⟩]
  · rw [Group.wrVs, h2 n t ht, if_neg]; rintro ⟨-, -, h⟩; simp [((mem_threads m t).1 h).2] at hb
  · rw [Group.wrVs, h2 k t ht, if_neg]; rintro ⟨-, h, -⟩; exact hk h

theorem WritesU.wrU (g : Group) (n : Nat) (x : W32) : WritesU g (g.wrU n x) n x := by
  unfold Group.wrU
  by_cases hn : n = 255
  · simp only [hn, if_true]; exact ⟨rfl, fun h => absurd rfl h, fun _ _ => rfl⟩
  · simp only [hn, if_false]
    refine ⟨rfl, fun _ => by simp [Group.rd, hn], fun k hk => ?_⟩
    simp [Group.rd, mgetD_cput_ne _ _ _ _ _ _ (Ne.symm hk)]

theorem WritesP.wrP (g : Group) (n : Nat) (x : W32) : WritesP g (g.wrP n x) n x := by
  unfold Group.wrP
  by_cases hn : n = 255
  · simp only [hn, if_true]; exact ⟨rfl, fun h => absurd rfl h, fun _ _ => rfl⟩
  · simp only [hn, if_false]
    refine ⟨rfl, fun _ => by simp [Group.rd, hn], fun k hk => ?_⟩
    simp [Group.rd, mgetD_cput_ne _ _ _ _ _ _ (Ne.symm hk)]

/-- The result of an arithmetic instruction is in its destination. -/
theorem WritesDest.writeRes (q : GCtx) (f : Nat → W32) : WritesDest q (writeRes q f) f := by
  unfold WritesDest Machine.writeRes
  split_ifs
  · exact .wrU _ _ _
  · exact .wrVs _ _ _ _

/-! ### Issue -/

/-- A fetch changes nothing but its core's instruction cache and fetch buffers. -/
theorem fetch1_rest (d : Data) (c s plot a : Nat) : { d.fetch1 c s plot a with cores := d.cores } = d := by
  unfold Data.fetch1; dsimp only; split_ifs <;> rfl

@[simp] theorem fetch1_reqs (d : Data) (c s plot a : Nat) : (d.fetch1 c s plot a).reqs = d.reqs := by
  have h := congrArg Data.reqs (fetch1_rest d c s plot a); exact h

theorem fetched_rest (d : Data) (c s plot : Nat) (pc : W64) : { d.fetched c s plot pc with cores := d.cores } = d := by
  have h := fetch1_rest (d.fetch1 c s plot (pc.toNat / 64)) c s plot ((pc + 8).toNat / 64)
  have := congrArg (fun x : Data => { x with cores := d.cores }) h
  exact this.trans (fetch1_rest d c s plot (pc.toNat / 64))

@[simp] theorem fetched_reqs (d : Data) (c s plot : Nat) (pc : W64) : (d.fetched c s plot pc).reqs = d.reqs := by
  have h := congrArg Data.reqs (fetched_rest d c s plot pc); exact h

@[simp] theorem fetched_free (d : Data) (c s plot : Nat) (pc : W64) : (d.fetched c s plot pc).free = d.free := by
  have h := congrArg Data.free (fetched_rest d c s plot pc); exact h

/-- The fetch of a next instruction changes nothing but its core. -/
theorem fetchNext_rest (d : Data) (c s : Nat) (g : Group) : { d.fetchNext c s g with cores := d.cores } = d := by
  have h := fetch1_rest d c s (groupPlot (d.core c) g) (g.pc.toNat / 64)
  exact h

/-- A group that comes to wait changes nothing but its core. -/
theorem stall_rest (d : Data) (c s : Nat) (g : Group) : { d.stall c s g with cores := d.cores } = d := by
  unfold Data.stall Data.setGroup; rfl

/-- To have posted writes confirmed changes nothing but the group's requests. -/
theorem confirm_rest (d : Data) (c s : Nat) (g : Group) : { d.confirm c s g with reqs := d.reqs } = d := rfl

/-- The near cache's discard changes nothing but its core, and what its core's requests will leave there. -/
theorem dropNear_rest (d : Data) (c : Nat) : { d.dropNear c with cores := d.cores, reqs := d.reqs } = d := rfl

/-- None of the group's requests is a posted write once they are to be confirmed. -/
theorem confirm_posted (d : Data) (c s : Nat) (g : Group) : ∀ r ∈ (d.confirm c s g).reqsOf c s g, r.isPosted = false := by
  intro r hr
  simp only [Data.reqsOf, Data.confirm, List.mem_filter, List.mem_map] at hr
  obtain ⟨⟨q, -, rfl⟩, h⟩ := hr
  by_cases hq : (q.core == c && q.slot == s && q.age == g.age && q.isPosted) = true
  · simp only [hq, if_true]; rfl
  · simp only [hq, if_false, Bool.false_eq_true] at h ⊢
    simpa [h] using hq

/-- What `issueCtx` answers. -/
theorem issueCtx_some {d : Data} {beat : Nat} {x : Issue} {q : GCtx} (h : issueCtx d beat x = some q) :
    q.c = x.core ∧ q.s = x.slot ∧ q.beat = beat ∧ q.k = d.core x.core ∧ q.x = x ∧ q.on = q.g.on (Issue.guard x) ∧
      q.g.act = true ∧ q.g.waitsOn = [] := by
  unfold issueCtx at h
  dsimp only at h
  simp only [Option.bind_eq_some_iff] at h
  obtain ⟨g, -, b, -, h⟩ := h
  split_ifs at h
  cases h
  exact ⟨rfl, rfl, rfl, rfl, rfl, rfl, rfl, rfl⟩

/-- A group that is not ready to issue at all leaves everything as it is. -/
theorem issue_none {s : State} {sp : OpSpec} {x : Issue} (h : issueCtx s.body.data s.alm.beat x = none) : s.issue sp x = s := by
  simp [State.issue, runIssue, h]

/-- A ready group's instruction has its effect. -/
theorem issue_ready {sp : OpSpec} {s : State} {x : Issue} {q : GCtx} (h : Ready sp s x q) :
    s.issue sp x = { s with body := { s.body with data := finishExec sp (atIssue s q) q (sp.exec (atIssue s q) q) } } := by
  have hx : q.x = x := (issueCtx_some h.place).2.2.2.2.1
  have hp : (atIssue s q).pending q.c q.s q.k q.g = s.body.data.pending q.c q.s q.k q.g := by
    simp [Data.pending, Data.reqsOf, atIssue]
  have ha : (atIssue s q).acquiring q.c q.s q.g = s.body.data.acquiring q.c q.s q.g := by
    simp [Data.acquiring, Data.reqsOf, atIssue]
  have hf := h.fetch
  unfold atIssue at hf
  simp only [State.issue, runIssue, h.place, hf, if_true, issueWord, hx, h.word, h.on, h.regs]
  have hc := h.clear
  have hm := h.acquired
  rw [← hp] at hc
  rw [← ha] at hm
  simp only [atIssue] at hc hm ⊢
  simp [hc, hm]

/-- A ready group whose instruction goes on to the next. -/
theorem issue_next {sp : OpSpec} {s : State} {x : Issue} {q : GCtx} {d : Data} {g : Group} (h : Ready sp s x q)
    (he : sp.exec (atIssue s q) q = .next d g none) : s.issue sp x = issued s d q g (q.g.pc + 8) := by
  rw [issue_ready h, he]; rfl

/-- A ready group whose instruction jumps. -/
theorem issue_jump {sp : OpSpec} {s : State} {x : Issue} {q : GCtx} {d : Data} {g : Group} {pc : W64} (h : Ready sp s x q)
    (he : sp.exec (atIssue s q) q = .jump d g pc) : s.issue sp x = issued s d q g pc := by
  rw [issue_ready h, he]; rfl

end Sys2Proof.Machine
end

