-- ==== Sys2Proof/Laws/Memory.lean ====
section
/-! SUPPORT. Memory: reads after writes, and that every memory operation keeps the canonical form. -/

namespace Sys2Proof.Machine

/-- The canonical form, as facts. -/
theorem Mem.wf_iff (dflt : Nat → Byte) (m : List Host.Cell) :
    Mem.wf dflt m = true ↔ Rising m ∧ ∀ c ∈ m, c.2 ≠ dflt c.1 := by
  simp [Mem.wf, Rising, List.all_eq_true]

theorem Mem.wf_nil (dflt : Nat → Byte) : Mem.wf dflt [] = true := by simp [Mem.wf_iff, Rising]

/-- Writing one cell in canonical form. -/
theorem Mem.wf_cput (dflt : Nat → Byte) (m : List Host.Cell) (a : Nat) (b : Byte) (h : Mem.wf dflt m = true) :
    Mem.wf dflt (cput (dflt a) m a b) = true := by
  rw [Mem.wf_iff] at h ⊢
  unfold cput
  split_ifs with hb
  · exact ⟨h.1.mdel a, fun c hc => h.2 c ((mdel_sublist m a).subset hc)⟩
  · refine ⟨h.1.mput a b, fun c hc => ?_⟩
    rcases mem_mput hc with rfl | hc
    · exact hb
    · exact h.2 c hc

/-- Clearing cells that are listed. -/
theorem Mem.wf_filter (dflt : Nat → Byte) (m : List Host.Cell) (p : Host.Cell → Bool) (h : Mem.wf dflt m = true) :
    Mem.wf dflt (m.filter p) = true := by
  rw [Mem.wf_iff] at h ⊢
  exact ⟨h.1.filter p, fun c hc => h.2 c (List.mem_of_mem_filter hc)⟩

/-- What HBM and cellar scratch read as where nothing is listed. -/
abbrev memDflt : Nat → Byte := fun _ => 0

theorem Mem.wf_clearRange (m : List Host.Cell) (p n : Nat) (h : Mem.wf memDflt m = true) :
    Mem.wf memDflt (clearRange m p n) = true := Mem.wf_filter _ _ _ h

theorem Mem.wf_wr (d : Data) (p : Nat) (b : Byte) (h : Mem.wf memDflt d.mem = true) : Mem.wf memDflt (d.wr p b).mem = true :=
  Mem.wf_cput memDflt d.mem p b h

theorem Mem.wf_wrN (l : List Byte) (d : Data) (p : Nat) (h : Mem.wf memDflt d.mem = true) :
    Mem.wf memDflt (d.wrN p l).mem = true := by
  induction l generalizing d p with
  | nil => exact h
  | cons b l ih => exact ih _ _ (Mem.wf_wr d p b h)

theorem Mem.wf_wrMask (l : List (Nat × Byte)) (d : Data) (p : Nat) (h : Mem.wf memDflt d.mem = true) :
    Mem.wf memDflt (d.wrMask p l).mem = true := by
  induction l generalizing d with
  | nil => exact h
  | cons e l ih => exact ih _ (Mem.wf_wr d _ _ h)

/-- A bench write keeps the benches' canonical form. -/
theorem Mem.wf_wrB (d : Data) (a : Nat) (b : Byte) (h : Mem.wf (benchDflt d.benchEpoch) d.bench = true) :
    Mem.wf (benchDflt (d.wrB a b).benchEpoch) (d.wrB a b).bench = true :=
  Mem.wf_cput (benchDflt d.benchEpoch) d.bench a b h

theorem Mem.wf_wrBs (l : List Byte) (d : Data) (a : Nat) (h : Mem.wf (benchDflt d.benchEpoch) d.bench = true) :
    Mem.wf (benchDflt (d.wrBs a l).benchEpoch) (d.wrBs a l).bench = true := by
  induction l generalizing d a with
  | nil => exact h
  | cons b l ih => exact ih _ _ (Mem.wf_wrB d a b h)

/-! ### Reads after writes -/

@[simp] theorem rd_wr_self (d : Data) (p : Nat) (b : Byte) : (d.wr p b).rd p = b := by simp [Data.wr, Data.rd]

theorem rd_wr_ne (d : Data) (p q : Nat) (b : Byte) (h : p ≠ q) : (d.wr p b).rd q = d.rd q := by
  simp [Data.wr, Data.rd, mgetD_cput_ne _ _ _ _ _ _ h]

@[simp] theorem rdB_wrB_self (d : Data) (a : Nat) (b : Byte) : (d.wrB a b).rdB a = b := by simp [Data.wrB, Data.rdB]

theorem rdB_wrB_ne (d : Data) (a c : Nat) (b : Byte) (h : a ≠ c) : (d.wrB a b).rdB c = d.rdB c := by
  simp [Data.wrB, Data.rdB, mgetD_cput_ne _ _ _ _ _ _ h]

/-- A byte outside the bytes written reads as before. -/
theorem rd_wrN_outside (l : List Byte) (d : Data) (p q : Nat) (h : q < p ∨ p + l.length ≤ q) : (d.wrN p l).rd q = d.rd q := by
  induction l generalizing d p with
  | nil => rfl
  | cons b l ih =>
    simp only [List.length_cons] at h
    rw [Data.wrN, ih _ _ (by omega), rd_wr_ne _ _ _ _ (by omega)]

theorem rdB_wrBs_outside (l : List Byte) (d : Data) (a c : Nat) (h : c < a ∨ a + l.length ≤ c) :
    (d.wrBs a l).rdB c = d.rdB c := by
  induction l generalizing d a with
  | nil => rfl
  | cons b l ih =>
    simp only [List.length_cons] at h
    rw [Data.wrBs, ih _ _ (by omega), rdB_wrB_ne _ _ _ _ (by omega)]

end Sys2Proof.Machine
end

