-- ==== Sys2Proof/Laws/Quiet.lean ====
section
/-! SUPPORT. The end of a command in a quiet body: nothing but records and the floor plan moves. -/

namespace Sys2Proof.Machine

theorem mget_mem {α : Type} {m : SMap α} {k : Nat} {x : α} (h : mget m k = some x) : (k, x) ∈ m := by
  induction m with
  | nil => simp at h
  | cons e m ih =>
    obtain ⟨a, y⟩ := e
    simp only [mget] at h
    split_ifs at h with hk
    · cases h; subst hk; simp
    · exact List.mem_cons_of_mem _ (ih h)

theorem mget_mfilter_key {α : Type} (m : SMap α) (p : Nat → Bool) (k : Nat) (h : p k = true) :
    mget (mfilter m fun c _ => p c) k = mget m k := by
  induction m with
  | nil => rfl
  | cons e m ih =>
    obtain ⟨a, y⟩ := e
    rw [mfilter] at ih ⊢
    by_cases hp : p a = true
    · simp only [List.filter_cons, hp, if_true, mget, ih]
    · have hne : ¬ a = k := fun hk => hp (hk ▸ h)
      simp only [List.filter_cons, hp, mget, if_neg hne]
      simpa using ih

theorem quiet_iff (b : Body) : b.quiet = true ↔ b.data.abortPend = [] ∧ b.data.irqs = [] ∧
    ∀ e ∈ b.data.launches, b.iterOver e.2 = false ∧ (e.2.open_ = true ∨ e.2.aborted = false) ∧
      (mget b.data.ctxs e.2.ctx).isSome = true := by
  simp [Body.quiet, and_assoc]

theorem quiet_settle {b : Body} (h : b.quiet = true) (hold : Bool) (id beat : Nat) : b.settle hold id beat = b := by
  obtain ⟨-, -, hl⟩ := (quiet_iff b).1 h
  unfold Body.settle
  split
  · rfl
  · rename_i l e
    obtain ⟨h1, h2, -⟩ := hl _ (mget_mem e)
    split_ifs with _ h h'
    · rfl
    · exact absurd h (by simpa using h1)
    · exfalso; revert h'; rcases h2 with h2 | h2 <;> simp only at h2 <;> simp [h2]
    · rfl

/-- In a quiet body settling leaves the launches alone. -/
theorem quiet_settleAll {b : Body} (h : b.quiet = true) (hold : Bool) (beat : Nat) :
    b.settleAll hold beat = { b with sj := mfilter b.sj fun c _ => (mget b.data.ctxs c).isSome } := by
  have ha : b.data.runAborts = b.data := by simp [Data.runAborts, ((quiet_iff b).1 h).1]
  have hf (l : SMap Launch) : l.foldl (fun (b : Body) e => b.settle hold e.1 beat) b = b := by
    induction l with
    | nil => rfl
    | cons e l ih => rw [List.foldl_cons, quiet_settle h hold, ih]
  simp only [Body.settleAll, ha, hf]

theorem iterOver_congr {a b : Body} (l : Launch) (h : b.journalOf l = a.journalOf l) : b.iterOver l = a.iterOver l := by
  simp [Body.iterOver, Body.digestsDue, h]

/-- A body with the same launches, contexts and journals is as quiet. -/
theorem quiet_congr {a b : Body} (hp : b.data.abortPend = a.data.abortPend) (hi : b.data.irqs = a.data.irqs)
    (hl : b.data.launches = a.data.launches) (hc : b.data.ctxs = a.data.ctxs) (hs : b.sj = a.sj) : b.quiet = a.quiet := by
  have hj (l : Launch) : b.iterOver l = a.iterOver l := iterOver_congr l (by simp [Body.journalOf, hs])
  simp [Body.quiet, hp, hi, hl, hc, hj]

/-- The data plane after the end of a command in a quiet body: records are handed on, corrected counters get their beat. -/
theorem finish_data {s : State} (h : s.body.quiet = true) : ∃ ps cs, s.finish.body.data =
    { s.body.data with posts := ps, corrected := cs } := by
  obtain ⟨md, hl, flash, posts, hr, -⟩ := replan_cases (s.body.settleAll s.marksWait s.alm.beat) s.alm.beat
  rw [quiet_settleAll h] at hr
  refine ⟨s.finish.body.data.posts, mmap s.body.data.corrected fun _ c => (c.1, some (c.2.getD s.alm.beat)), ?_⟩
  · have hi := ((quiet_iff _).1 h).2.1
    have e := (flush_same { s with body := { s.settled with data := { s.settled.data with
      posts := s.settled.data.posts.map fun p => { p with beat := some (p.beat.getD s.alm.beat) }
      corrected := mmap s.settled.data.corrected fun _ c => (c.1, some (c.2.getD s.alm.beat)) } } }).2.2.2.2.2.2.2.2.2.2.2.2
    rw [← finish_eq] at e
    rw [e]
    simp only [State.settled, quiet_settleAll h, hr, ← hi]

theorem finish_sj {s : State} (h : s.body.quiet = true) :
    s.finish.body.sj = mfilter s.body.sj fun c _ => (mget s.body.data.ctxs c).isSome := by
  rw [finish_eq, (flush_same _).2.2.2.2.2.2.2.2.2.1]
  show s.settled.sj = _
  rw [State.settled, (replan_same _ _).2.2.2.2.2.2.1, quiet_settleAll h]

theorem finish_host {s : State} (h : s.body.quiet = true) : s.finish.body.host = s.body.host := by
  have hi : s.settled.data.irqs = [] := by
    obtain ⟨md, hl, flash, posts, hr, -⟩ := replan_cases (s.body.settleAll s.marksWait s.alm.beat) s.alm.beat
    rw [State.settled, hr, quiet_settleAll h]; exact ((quiet_iff _).1 h).2.1
  have hh : s.settled.host = s.body.host := by
    rw [State.settled, (replan_same _ _).2.1, (settleAll_same _ _ _).host]
  rw [finish_eq]
  unfold State.flush
  dsimp only
  rw [hi, hh]
  split_ifs <;> rfl

theorem finish_quiet {s : State} (h : s.body.quiet = true) : s.finish.body.quiet = true := by
  obtain ⟨ps, cs, hd⟩ := finish_data h
  obtain ⟨h1, h2, h3⟩ := (quiet_iff _).1 h
  rw [quiet_iff, hd]
  refine ⟨h1, h2, fun e he => ?_⟩
  obtain ⟨a, b, c⟩ := h3 e he
  refine ⟨?_, b, c⟩
  rw [iterOver_congr (a := s.body), a]
  simp only [Body.journalOf, finish_sj h]
  rw [mget_mfilter_key s.body.sj (fun c => (mget s.body.data.ctxs c).isSome) e.2.ctx c]

theorem finish_replay {s : State} (h : s.body.quiet = true) : s.finish.body.replay = s.body.replay := by
  rw [finish_eq, (flush_same _).2.2.2.2.2.2.2.2.2.2.1]
  show s.settled.replay = _
  rw [State.settled, (replan_same _ _).2.2.2.2.2.2.2, quiet_settleAll h]

theorem like_finish {s : State} (h : s.body.quiet = true) : Like s s.finish :=
  ⟨finish_pending s, finish_alm s, finish_latch s, finish_mg s, finish_host h, finish_mgdb s, finish_fab s, finish_pw s,
    finish_replay h, finish_data h, finish_md s, finish_hl s⟩

/-- Where nothing is due, journals belong to contexts that exist, the floor plan is the one last reported and no record or counted
error waits to be handed on, the end of a command changes nothing. -/
theorem finish_settled {s : State} (hq : s.body.quiet = true)
    (hs : (mfilter s.body.sj fun c _ => (mget s.body.data.ctxs c).isSome) = s.body.sj)
    (hp : s.body.planParts = s.body.md.plan) (hposts : s.body.data.posts = []) (hc : s.body.data.corrected = []) : s.finish = s := by
  have hi := ((quiet_iff _).1 hq).2.1
  unfold State.finish
  rw [quiet_settleAll hq, hs]
  simp only [Body.replan, hp, if_true, hposts, hc, List.map_nil, mmap]
  obtain ⟨pend, alm, latch, body⟩ := s
  obtain ⟨data, mg, host, mgdb, fab, pw, hl, log, sj, replay, flash, md⟩ := body
  obtain ⟨⟩ := data
  simp only at hi hposts hc hs hp
  subst hi hposts hc
  simp only [State.flush, List.foldl_nil, List.any_nil, Bool.false_and]
  split <;> simp

theorem Like.trans {a b c : State} (h : Like a b) (k : Like b c) : Like a c := by
  obtain ⟨ps, cs, hd⟩ := k.data
  obtain ⟨ps', cs', hd'⟩ := h.data
  obtain ⟨_, _, _, _, _, hm⟩ := k.md
  obtain ⟨_, _, _, _, _, hm'⟩ := h.md
  obtain ⟨_, _, hh⟩ := k.hl
  obtain ⟨_, _, hh'⟩ := h.hl
  exact ⟨k.pending.trans h.pending, k.alm.trans h.alm, k.latch.trans h.latch, k.mg.trans h.mg, k.host.trans h.host,
    k.mgdb.trans h.mgdb, k.fab.trans h.fab, k.pw.trans h.pw, k.replay.trans h.replay, ⟨ps, cs, by rw [hd, hd']⟩,
    ⟨_, _, _, _, _, by rw [hm, hm']⟩, ⟨_, _, by rw [hh, hh']⟩⟩

/-- A command that runs `f`, when `f` takes states that agree with `s` to states that agree with `u` and leaves the step
journals alone. -/
theorem does_of_run {c : Instr} {s u : State} {f : State → State} (he : exec c s = s.run f)
    (hf : ∀ s', Like s s' → Like u (f s') ∧ (f s').body.sj = s'.body.sj) : Does c s u := by
  intro h1 h2
  obtain ⟨hl, hj⟩ := hf s.finish (like_finish h1)
  have hq : (f s.finish).body.quiet = true := by
    obtain ⟨ps, cs, hd⟩ := hl.data
    rw [← h2]
    refine quiet_congr ?_ ?_ ?_ ?_ ?_
    · rw [hd]
    · rw [hd]
    · rw [hd]
    · rw [hd]
    · rw [hj]; exact finish_sj h1
  exact ⟨(f s.finish).finish, he, hl.trans (like_finish hq)⟩

/-- A command that works on the data plane alone. -/
theorem acts_of_runD {c : Instr} {s : State} {d : Data} {f : Nat → Data → Data} (he : exec c s = s.runD f)
    (hf : ∀ ps cs, ∃ ps' cs', f s.alm.beat { s.body.data with posts := ps, corrected := cs } =
      { d with posts := ps', corrected := cs' }) : Acts c s d := by
  refine does_of_run (f := fun s => { s with body := { s.body with data := f s.alm.beat s.body.data } }) he fun s' hs => ⟨?_, rfl⟩
  obtain ⟨ps, cs, hd⟩ := hs.data
  obtain ⟨ps', cs', hf'⟩ := hf ps cs
  exact ⟨hs.pending, hs.alm, hs.latch, hs.mg, hs.host, hs.mgdb, hs.fab, hs.pw, hs.replay,
    ⟨ps', cs', by show f s'.alm.beat s'.body.data = _; rw [hs.alm, hd, hf']⟩, hs.md, hs.hl⟩

end Sys2Proof.Machine
end

