-- ==== Sys2Proof/Laws/State.lean ====
section
/-! SUPPORT. What each named update of the state leaves in each field. -/

namespace Sys2Proof.Machine

/-! `State.setAlm` -/
@[simp] theorem setAlm_pending (s : State) (a : Almanac) : (s.setAlm a).pending = s.pending := rfl
@[simp] theorem setAlm_alm (s : State) (a : Almanac) : (s.setAlm a).alm = a := rfl
@[simp] theorem setAlm_latch (s : State) (a : Almanac) : (s.setAlm a).latch = s.latch := rfl
@[simp] theorem setAlm_body (s : State) (a : Almanac) : (s.setAlm a).body = s.body := rfl

/-! `State.setLatch` -/
@[simp] theorem setLatch_pending (s : State) (l : Latch) : (s.setLatch l).pending = s.pending := rfl
@[simp] theorem setLatch_alm (s : State) (l : Latch) : (s.setLatch l).alm = s.alm := rfl
@[simp] theorem setLatch_latch (s : State) (l : Latch) : (s.setLatch l).latch = l := rfl
@[simp] theorem setLatch_body (s : State) (l : Latch) : (s.setLatch l).body = s.body := rfl

/-! `State.setBody` -/
@[simp] theorem setBody_pending (s : State) (b : Body) : (s.setBody b).pending = s.pending := rfl
@[simp] theorem setBody_alm (s : State) (b : Body) : (s.setBody b).alm = s.alm := rfl
@[simp] theorem setBody_latch (s : State) (b : Body) : (s.setBody b).latch = s.latch := rfl
@[simp] theorem setBody_body (s : State) (b : Body) : (s.setBody b).body = b := rfl

/-! `State.setData` -/
@[simp] theorem setData_pending (s : State) (d : Data) : (s.setData d).pending = s.pending := rfl
@[simp] theorem setData_alm (s : State) (d : Data) : (s.setData d).alm = s.alm := rfl
@[simp] theorem setData_latch (s : State) (d : Data) : (s.setData d).latch = s.latch := rfl
@[simp] theorem setData_data (s : State) (d : Data) : (s.setData d).body.data = d := rfl
@[simp] theorem setData_mg (s : State) (d : Data) : (s.setData d).body.mg = s.body.mg := rfl
@[simp] theorem setData_host (s : State) (d : Data) : (s.setData d).body.host = s.body.host := rfl
@[simp] theorem setData_mgdb (s : State) (d : Data) : (s.setData d).body.mgdb = s.body.mgdb := rfl
@[simp] theorem setData_fab (s : State) (d : Data) : (s.setData d).body.fab = s.body.fab := rfl
@[simp] theorem setData_pw (s : State) (d : Data) : (s.setData d).body.pw = s.body.pw := rfl
@[simp] theorem setData_hl (s : State) (d : Data) : (s.setData d).body.hl = s.body.hl := rfl
@[simp] theorem setData_log (s : State) (d : Data) : (s.setData d).body.log = s.body.log := rfl
@[simp] theorem setData_sj (s : State) (d : Data) : (s.setData d).body.sj = s.body.sj := rfl
@[simp] theorem setData_replay (s : State) (d : Data) : (s.setData d).body.replay = s.body.replay := rfl
@[simp] theorem setData_flash (s : State) (d : Data) : (s.setData d).body.flash = s.body.flash := rfl
@[simp] theorem setData_md (s : State) (d : Data) : (s.setData d).body.md = s.body.md := rfl

/-! `State.setMd` -/
@[simp] theorem setMd_pending (s : State) (m : Module) : (s.setMd m).pending = s.pending := rfl
@[simp] theorem setMd_alm (s : State) (m : Module) : (s.setMd m).alm = s.alm := rfl
@[simp] theorem setMd_latch (s : State) (m : Module) : (s.setMd m).latch = s.latch := rfl
@[simp] theorem setMd_data (s : State) (m : Module) : (s.setMd m).body.data = s.body.data := rfl
@[simp] theorem setMd_mg (s : State) (m : Module) : (s.setMd m).body.mg = s.body.mg := rfl
@[simp] theorem setMd_host (s : State) (m : Module) : (s.setMd m).body.host = s.body.host := rfl
@[simp] theorem setMd_mgdb (s : State) (m : Module) : (s.setMd m).body.mgdb = s.body.mgdb := rfl
@[simp] theorem setMd_fab (s : State) (m : Module) : (s.setMd m).body.fab = s.body.fab := rfl
@[simp] theorem setMd_pw (s : State) (m : Module) : (s.setMd m).body.pw = s.body.pw := rfl
@[simp] theorem setMd_hl (s : State) (m : Module) : (s.setMd m).body.hl = s.body.hl := rfl
@[simp] theorem setMd_log (s : State) (m : Module) : (s.setMd m).body.log = s.body.log := rfl
@[simp] theorem setMd_sj (s : State) (m : Module) : (s.setMd m).body.sj = s.body.sj := rfl
@[simp] theorem setMd_replay (s : State) (m : Module) : (s.setMd m).body.replay = s.body.replay := rfl
@[simp] theorem setMd_flash (s : State) (m : Module) : (s.setMd m).body.flash = s.body.flash := rfl
@[simp] theorem setMd_md (s : State) (m : Module) : (s.setMd m).body.md = m := rfl

/-! `State.setMg` -/
@[simp] theorem setMg_pending (s : State) (m : MgDb) : (s.setMg m).pending = s.pending := rfl
@[simp] theorem setMg_alm (s : State) (m : MgDb) : (s.setMg m).alm = s.alm := rfl
@[simp] theorem setMg_latch (s : State) (m : MgDb) : (s.setMg m).latch = s.latch := rfl
@[simp] theorem setMg_data (s : State) (m : MgDb) : (s.setMg m).body.data = s.body.data := rfl
@[simp] theorem setMg_mg (s : State) (m : MgDb) : (s.setMg m).body.mg = s.body.mg := rfl
@[simp] theorem setMg_host (s : State) (m : MgDb) : (s.setMg m).body.host = s.body.host := rfl
@[simp] theorem setMg_mgdb (s : State) (m : MgDb) : (s.setMg m).body.mgdb = m := rfl
@[simp] theorem setMg_fab (s : State) (m : MgDb) : (s.setMg m).body.fab = s.body.fab := rfl
@[simp] theorem setMg_pw (s : State) (m : MgDb) : (s.setMg m).body.pw = s.body.pw := rfl
@[simp] theorem setMg_hl (s : State) (m : MgDb) : (s.setMg m).body.hl = s.body.hl := rfl
@[simp] theorem setMg_log (s : State) (m : MgDb) : (s.setMg m).body.log = s.body.log := rfl
@[simp] theorem setMg_sj (s : State) (m : MgDb) : (s.setMg m).body.sj = s.body.sj := rfl
@[simp] theorem setMg_replay (s : State) (m : MgDb) : (s.setMg m).body.replay = s.body.replay := rfl
@[simp] theorem setMg_flash (s : State) (m : MgDb) : (s.setMg m).body.flash = s.body.flash := rfl
@[simp] theorem setMg_md (s : State) (m : MgDb) : (s.setMg m).body.md = s.body.md := rfl

/-! `State.setPw` -/
@[simp] theorem setPw_pending (s : State) (p : Power) : (s.setPw p).pending = s.pending := rfl
@[simp] theorem setPw_alm (s : State) (p : Power) : (s.setPw p).alm = s.alm := rfl
@[simp] theorem setPw_latch (s : State) (p : Power) : (s.setPw p).latch = s.latch := rfl
@[simp] theorem setPw_data (s : State) (p : Power) : (s.setPw p).body.data = s.body.data := rfl
@[simp] theorem setPw_mg (s : State) (p : Power) : (s.setPw p).body.mg = s.body.mg := rfl
@[simp] theorem setPw_host (s : State) (p : Power) : (s.setPw p).body.host = s.body.host := rfl
@[simp] theorem setPw_mgdb (s : State) (p : Power) : (s.setPw p).body.mgdb = s.body.mgdb := rfl
@[simp] theorem setPw_fab (s : State) (p : Power) : (s.setPw p).body.fab = s.body.fab := rfl
@[simp] theorem setPw_pw (s : State) (p : Power) : (s.setPw p).body.pw = p := rfl
@[simp] theorem setPw_hl (s : State) (p : Power) : (s.setPw p).body.hl = s.body.hl := rfl
@[simp] theorem setPw_log (s : State) (p : Power) : (s.setPw p).body.log = s.body.log := rfl
@[simp] theorem setPw_sj (s : State) (p : Power) : (s.setPw p).body.sj = s.body.sj := rfl
@[simp] theorem setPw_replay (s : State) (p : Power) : (s.setPw p).body.replay = s.body.replay := rfl
@[simp] theorem setPw_flash (s : State) (p : Power) : (s.setPw p).body.flash = s.body.flash := rfl
@[simp] theorem setPw_md (s : State) (p : Power) : (s.setPw p).body.md = s.body.md := rfl

/-! `State.mg` -/
@[simp] theorem mg_pending (s : State) (f : Mgmt → Mgmt) : (s.mg f).pending = s.pending := rfl
@[simp] theorem mg_alm (s : State) (f : Mgmt → Mgmt) : (s.mg f).alm = s.alm := rfl
@[simp] theorem mg_latch (s : State) (f : Mgmt → Mgmt) : (s.mg f).latch = s.latch := rfl
@[simp] theorem mg_data (s : State) (f : Mgmt → Mgmt) : (s.mg f).body.data = s.body.data := rfl
@[simp] theorem mg_mg (s : State) (f : Mgmt → Mgmt) : (s.mg f).body.mg = f s.body.mg := rfl
@[simp] theorem mg_host (s : State) (f : Mgmt → Mgmt) : (s.mg f).body.host = s.body.host := rfl
@[simp] theorem mg_mgdb (s : State) (f : Mgmt → Mgmt) : (s.mg f).body.mgdb = s.body.mgdb := rfl
@[simp] theorem mg_fab (s : State) (f : Mgmt → Mgmt) : (s.mg f).body.fab = s.body.fab := rfl
@[simp] theorem mg_pw (s : State) (f : Mgmt → Mgmt) : (s.mg f).body.pw = s.body.pw := rfl
@[simp] theorem mg_hl (s : State) (f : Mgmt → Mgmt) : (s.mg f).body.hl = s.body.hl := rfl
@[simp] theorem mg_log (s : State) (f : Mgmt → Mgmt) : (s.mg f).body.log = s.body.log := rfl
@[simp] theorem mg_sj (s : State) (f : Mgmt → Mgmt) : (s.mg f).body.sj = s.body.sj := rfl
@[simp] theorem mg_replay (s : State) (f : Mgmt → Mgmt) : (s.mg f).body.replay = s.body.replay := rfl
@[simp] theorem mg_flash (s : State) (f : Mgmt → Mgmt) : (s.mg f).body.flash = s.body.flash := rfl
@[simp] theorem mg_md (s : State) (f : Mgmt → Mgmt) : (s.mg f).body.md = s.body.md := rfl

/-! `State.emit` -/
@[simp] theorem emit_pending (s : State) (o : Output) : (s.emit o).pending = s.pending := rfl
@[simp] theorem emit_alm (s : State) (o : Output) : (s.emit o).alm = s.alm := rfl
@[simp] theorem emit_latch (s : State) (o : Output) : (s.emit o).latch = s.latch := rfl
@[simp] theorem emit_data (s : State) (o : Output) : (s.emit o).body.data = s.body.data := rfl
@[simp] theorem emit_mg (s : State) (o : Output) : (s.emit o).body.mg = s.body.mg := rfl
@[simp] theorem emit_host (s : State) (o : Output) : (s.emit o).body.host = s.body.host.emit o := rfl
@[simp] theorem emit_mgdb (s : State) (o : Output) : (s.emit o).body.mgdb = s.body.mgdb := rfl
@[simp] theorem emit_fab (s : State) (o : Output) : (s.emit o).body.fab = s.body.fab := rfl
@[simp] theorem emit_pw (s : State) (o : Output) : (s.emit o).body.pw = s.body.pw := rfl
@[simp] theorem emit_hl (s : State) (o : Output) : (s.emit o).body.hl = s.body.hl := rfl
@[simp] theorem emit_log (s : State) (o : Output) : (s.emit o).body.log = s.body.log := rfl
@[simp] theorem emit_sj (s : State) (o : Output) : (s.emit o).body.sj = s.body.sj := rfl
@[simp] theorem emit_replay (s : State) (o : Output) : (s.emit o).body.replay = s.body.replay := rfl
@[simp] theorem emit_flash (s : State) (o : Output) : (s.emit o).body.flash = s.body.flash := rfl
@[simp] theorem emit_md (s : State) (o : Output) : (s.emit o).body.md = s.body.md := rfl

/-! `State.modFn` -/
@[simp] theorem modFn_pending (s : State) (f : Fn) (g : FnRegs → FnRegs) : (s.modFn f g).pending = s.pending := rfl
@[simp] theorem modFn_alm (s : State) (f : Fn) (g : FnRegs → FnRegs) : (s.modFn f g).alm = s.alm := rfl
@[simp] theorem modFn_latch (s : State) (f : Fn) (g : FnRegs → FnRegs) : (s.modFn f g).latch = s.latch := rfl
@[simp] theorem modFn_data (s : State) (f : Fn) (g : FnRegs → FnRegs) : (s.modFn f g).body.data = s.body.data := rfl
@[simp] theorem modFn_mg (s : State) (f : Fn) (g : FnRegs → FnRegs) : (s.modFn f g).body.mg = s.body.mg := rfl
@[simp] theorem modFn_host (s : State) (f : Fn) (g : FnRegs → FnRegs) : (s.modFn f g).body.host = s.body.host.setFn f (g (s.body.host.fn f)) := rfl
@[simp] theorem modFn_mgdb (s : State) (f : Fn) (g : FnRegs → FnRegs) : (s.modFn f g).body.mgdb = s.body.mgdb := rfl
@[simp] theorem modFn_fab (s : State) (f : Fn) (g : FnRegs → FnRegs) : (s.modFn f g).body.fab = s.body.fab := rfl
@[simp] theorem modFn_pw (s : State) (f : Fn) (g : FnRegs → FnRegs) : (s.modFn f g).body.pw = s.body.pw := rfl
@[simp] theorem modFn_hl (s : State) (f : Fn) (g : FnRegs → FnRegs) : (s.modFn f g).body.hl = s.body.hl := rfl
@[simp] theorem modFn_log (s : State) (f : Fn) (g : FnRegs → FnRegs) : (s.modFn f g).body.log = s.body.log := rfl
@[simp] theorem modFn_sj (s : State) (f : Fn) (g : FnRegs → FnRegs) : (s.modFn f g).body.sj = s.body.sj := rfl
@[simp] theorem modFn_replay (s : State) (f : Fn) (g : FnRegs → FnRegs) : (s.modFn f g).body.replay = s.body.replay := rfl
@[simp] theorem modFn_flash (s : State) (f : Fn) (g : FnRegs → FnRegs) : (s.modFn f g).body.flash = s.body.flash := rfl
@[simp] theorem modFn_md (s : State) (f : Fn) (g : FnRegs → FnRegs) : (s.modFn f g).body.md = s.body.md := rfl

/-! `State.setLink` -/
@[simp] theorem setLink_pending (s : State) (k : Nat) (l : LinkSt) : (s.setLink k l).pending = s.pending := rfl
@[simp] theorem setLink_alm (s : State) (k : Nat) (l : LinkSt) : (s.setLink k l).alm = s.alm := rfl
@[simp] theorem setLink_latch (s : State) (k : Nat) (l : LinkSt) : (s.setLink k l).latch = s.latch := rfl
@[simp] theorem setLink_data (s : State) (k : Nat) (l : LinkSt) : (s.setLink k l).body.data = s.body.data := rfl
@[simp] theorem setLink_mg (s : State) (k : Nat) (l : LinkSt) : (s.setLink k l).body.mg = s.body.mg := rfl
@[simp] theorem setLink_host (s : State) (k : Nat) (l : LinkSt) : (s.setLink k l).body.host = s.body.host := rfl
@[simp] theorem setLink_mgdb (s : State) (k : Nat) (l : LinkSt) : (s.setLink k l).body.mgdb = s.body.mgdb := rfl
@[simp] theorem setLink_fab (s : State) (k : Nat) (l : LinkSt) : (s.setLink k l).body.fab = { s.body.fab with links := mput s.body.fab.links k l } := rfl
@[simp] theorem setLink_pw (s : State) (k : Nat) (l : LinkSt) : (s.setLink k l).body.pw = s.body.pw := rfl
@[simp] theorem setLink_hl (s : State) (k : Nat) (l : LinkSt) : (s.setLink k l).body.hl = s.body.hl := rfl
@[simp] theorem setLink_log (s : State) (k : Nat) (l : LinkSt) : (s.setLink k l).body.log = s.body.log := rfl
@[simp] theorem setLink_sj (s : State) (k : Nat) (l : LinkSt) : (s.setLink k l).body.sj = s.body.sj := rfl
@[simp] theorem setLink_replay (s : State) (k : Nat) (l : LinkSt) : (s.setLink k l).body.replay = s.body.replay := rfl
@[simp] theorem setLink_flash (s : State) (k : Nat) (l : LinkSt) : (s.setLink k l).body.flash = s.body.flash := rfl
@[simp] theorem setLink_md (s : State) (k : Nat) (l : LinkSt) : (s.setLink k l).body.md = s.body.md := rfl

/-! `State.post` -/
@[simp] theorem post_pending (s : State) (c u : Nat) (fs : List (Nat × Nat)) : (s.post c u fs).pending = s.pending := rfl
@[simp] theorem post_alm (s : State) (c u : Nat) (fs : List (Nat × Nat)) : (s.post c u fs).alm = s.alm := rfl
@[simp] theorem post_latch (s : State) (c u : Nat) (fs : List (Nat × Nat)) : (s.post c u fs).latch = s.latch := rfl
@[simp] theorem post_data (s : State) (c u : Nat) (fs : List (Nat × Nat)) : (s.post c u fs).body.data = s.body.data.post c u fs := rfl
@[simp] theorem post_mg (s : State) (c u : Nat) (fs : List (Nat × Nat)) : (s.post c u fs).body.mg = s.body.mg := rfl
@[simp] theorem post_host (s : State) (c u : Nat) (fs : List (Nat × Nat)) : (s.post c u fs).body.host = s.body.host := rfl
@[simp] theorem post_mgdb (s : State) (c u : Nat) (fs : List (Nat × Nat)) : (s.post c u fs).body.mgdb = s.body.mgdb := rfl
@[simp] theorem post_fab (s : State) (c u : Nat) (fs : List (Nat × Nat)) : (s.post c u fs).body.fab = s.body.fab := rfl
@[simp] theorem post_pw (s : State) (c u : Nat) (fs : List (Nat × Nat)) : (s.post c u fs).body.pw = s.body.pw := rfl
@[simp] theorem post_hl (s : State) (c u : Nat) (fs : List (Nat × Nat)) : (s.post c u fs).body.hl = s.body.hl := rfl
@[simp] theorem post_log (s : State) (c u : Nat) (fs : List (Nat × Nat)) : (s.post c u fs).body.log = s.body.log := rfl
@[simp] theorem post_sj (s : State) (c u : Nat) (fs : List (Nat × Nat)) : (s.post c u fs).body.sj = s.body.sj := rfl
@[simp] theorem post_replay (s : State) (c u : Nat) (fs : List (Nat × Nat)) : (s.post c u fs).body.replay = s.body.replay := rfl
@[simp] theorem post_flash (s : State) (c u : Nat) (fs : List (Nat × Nat)) : (s.post c u fs).body.flash = s.body.flash := rfl
@[simp] theorem post_md (s : State) (c u : Nat) (fs : List (Nat × Nat)) : (s.post c u fs).body.md = s.body.md := rfl

/-! `State.drawn` -/
@[simp] theorem drawn_pending (s : State) (k : Nat) : (s.drawn k).pending = s.pending := rfl
@[simp] theorem drawn_alm (s : State) (k : Nat) : (s.drawn k).alm = s.alm := rfl
@[simp] theorem drawn_latch (s : State) (k : Nat) : (s.drawn k).latch = s.latch := rfl
@[simp] theorem drawn_data (s : State) (k : Nat) : (s.drawn k).body.data = { s.body.data with free := s.body.data.free + k } := rfl
@[simp] theorem drawn_mg (s : State) (k : Nat) : (s.drawn k).body.mg = s.body.mg := rfl
@[simp] theorem drawn_host (s : State) (k : Nat) : (s.drawn k).body.host = s.body.host := rfl
@[simp] theorem drawn_mgdb (s : State) (k : Nat) : (s.drawn k).body.mgdb = s.body.mgdb := rfl
@[simp] theorem drawn_fab (s : State) (k : Nat) : (s.drawn k).body.fab = s.body.fab := rfl
@[simp] theorem drawn_pw (s : State) (k : Nat) : (s.drawn k).body.pw = s.body.pw := rfl
@[simp] theorem drawn_hl (s : State) (k : Nat) : (s.drawn k).body.hl = s.body.hl := rfl
@[simp] theorem drawn_log (s : State) (k : Nat) : (s.drawn k).body.log = s.body.log := rfl
@[simp] theorem drawn_sj (s : State) (k : Nat) : (s.drawn k).body.sj = s.body.sj := rfl
@[simp] theorem drawn_replay (s : State) (k : Nat) : (s.drawn k).body.replay = s.body.replay := rfl
@[simp] theorem drawn_flash (s : State) (k : Nat) : (s.drawn k).body.flash = s.body.flash := rfl
@[simp] theorem drawn_md (s : State) (k : Nat) : (s.drawn k).body.md = s.body.md := rfl

/-! `Data.setCore` -/
@[simp] theorem setCore_cores (d : Data) (c : Nat) (x : Core) : (d.setCore c x).cores = mput d.cores c x := rfl
@[simp] theorem setCore_coreSt (d : Data) (c : Nat) (x : Core) : (d.setCore c x).coreSt = d.coreSt := rfl
@[simp] theorem setCore_mem (d : Data) (c : Nat) (x : Core) : (d.setCore c x).mem = d.mem := rfl
@[simp] theorem setCore_bench (d : Data) (c : Nat) (x : Core) : (d.setCore c x).bench = d.bench := rfl
@[simp] theorem setCore_benchEpoch (d : Data) (c : Nat) (x : Core) : (d.setCore c x).benchEpoch = d.benchEpoch := rfl
@[simp] theorem setCore_lost (d : Data) (c : Nat) (x : Core) : (d.setCore c x).lost = d.lost := rfl
@[simp] theorem setCore_cellar (d : Data) (c : Nat) (x : Core) : (d.setCore c x).cellar = d.cellar := rfl
@[simp] theorem setCore_copies (d : Data) (c : Nat) (x : Core) : (d.setCore c x).copies = d.copies := rfl
@[simp] theorem setCore_fills (d : Data) (c : Nat) (x : Core) : (d.setCore c x).fills = d.fills := rfl
@[simp] theorem setCore_reqs (d : Data) (c : Nat) (x : Core) : (d.setCore c x).reqs = d.reqs := rfl
@[simp] theorem setCore_nextId (d : Data) (c : Nat) (x : Core) : (d.setCore c x).nextId = d.nextId := rfl
@[simp] theorem setCore_channels (d : Data) (c : Nat) (x : Core) : (d.setCore c x).channels = d.channels := rfl
@[simp] theorem setCore_chanOut (d : Data) (c : Nat) (x : Core) : (d.setCore c x).chanOut = d.chanOut := rfl
@[simp] theorem setCore_rowErrs (d : Data) (c : Nat) (x : Core) : (d.setCore c x).rowErrs = d.rowErrs := rfl
@[simp] theorem setCore_framePend (d : Data) (c : Nat) (x : Core) : (d.setCore c x).framePend = d.framePend := rfl
@[simp] theorem setCore_frameOut (d : Data) (c : Nat) (x : Core) : (d.setCore c x).frameOut = d.frameOut := rfl
@[simp] theorem setCore_slices (d : Data) (c : Nat) (x : Core) : (d.setCore c x).slices = d.slices := rfl
@[simp] theorem setCore_dieOut (d : Data) (c : Nat) (x : Core) : (d.setCore c x).dieOut = d.dieOut := rfl
@[simp] theorem setCore_saveArea (d : Data) (c : Nat) (x : Core) : (d.setCore c x).saveArea = d.saveArea := rfl
@[simp] theorem setCore_dieBar (d : Data) (c : Nat) (x : Core) : (d.setCore c x).dieBar = d.dieBar := rfl
@[simp] theorem setCore_pkgBar (d : Data) (c : Nat) (x : Core) : (d.setCore c x).pkgBar = d.pkgBar := rfl
@[simp] theorem setCore_objs (d : Data) (c : Nat) (x : Core) : (d.setCore c x).objs = d.objs := rfl
@[simp] theorem setCore_hws (d : Data) (c : Nat) (x : Core) : (d.setCore c x).hws = d.hws := rfl
@[simp] theorem setCore_apertures (d : Data) (c : Nat) (x : Core) : (d.setCore c x).apertures = d.apertures := rfl
@[simp] theorem setCore_engines (d : Data) (c : Nat) (x : Core) : (d.setCore c x).engines = d.engines := rfl
@[simp] theorem setCore_ctxs (d : Data) (c : Nat) (x : Core) : (d.setCore c x).ctxs = d.ctxs := rfl
@[simp] theorem setCore_events (d : Data) (c : Nat) (x : Core) : (d.setCore c x).events = d.events := rfl
@[simp] theorem setCore_pigeons (d : Data) (c : Nat) (x : Core) : (d.setCore c x).pigeons = d.pigeons := rfl
@[simp] theorem setCore_graphs (d : Data) (c : Nat) (x : Core) : (d.setCore c x).graphs = d.graphs := rfl
@[simp] theorem setCore_launches (d : Data) (c : Nat) (x : Core) : (d.setCore c x).launches = d.launches := rfl
@[simp] theorem setCore_ended (d : Data) (c : Nat) (x : Core) : (d.setCore c x).ended = d.ended := rfl
@[simp] theorem setCore_plots (d : Data) (c : Nat) (x : Core) : (d.setCore c x).plots = d.plots := rfl
@[simp] theorem setCore_node (d : Data) (c : Nat) (x : Core) : (d.setCore c x).node = d.node := rfl
@[simp] theorem setCore_corrected (d : Data) (c : Nat) (x : Core) : (d.setCore c x).corrected = d.corrected := rfl
@[simp] theorem setCore_posts (d : Data) (c : Nat) (x : Core) : (d.setCore c x).posts = d.posts := rfl
@[simp] theorem setCore_retiring (d : Data) (c : Nat) (x : Core) : (d.setCore c x).retiring = d.retiring := rfl
@[simp] theorem setCore_ctxSeen (d : Data) (c : Nat) (x : Core) : (d.setCore c x).ctxSeen = d.ctxSeen := rfl
@[simp] theorem setCore_engOut (d : Data) (c : Nat) (x : Core) : (d.setCore c x).engOut = d.engOut := rfl
@[simp] theorem setCore_abortPend (d : Data) (c : Nat) (x : Core) : (d.setCore c x).abortPend = d.abortPend := rfl
@[simp] theorem setCore_irqs (d : Data) (c : Nat) (x : Core) : (d.setCore c x).irqs = d.irqs := rfl
@[simp] theorem setCore_halted (d : Data) (c : Nat) (x : Core) : (d.setCore c x).halted = d.halted := rfl
@[simp] theorem setCore_free (d : Data) (c : Nat) (x : Core) : (d.setCore c x).free = d.free := rfl

/-! `Data.setGroup` -/
@[simp] theorem setGroup_cores (d : Data) (c k : Nat) (g : Group) : (d.setGroup c k g).cores = mput d.cores c { d.core c with groups := mput (d.core c).groups k g } := rfl
@[simp] theorem setGroup_coreSt (d : Data) (c k : Nat) (g : Group) : (d.setGroup c k g).coreSt = d.coreSt := rfl
@[simp] theorem setGroup_mem (d : Data) (c k : Nat) (g : Group) : (d.setGroup c k g).mem = d.mem := rfl
@[simp] theorem setGroup_bench (d : Data) (c k : Nat) (g : Group) : (d.setGroup c k g).bench = d.bench := rfl
@[simp] theorem setGroup_benchEpoch (d : Data) (c k : Nat) (g : Group) : (d.setGroup c k g).benchEpoch = d.benchEpoch := rfl
@[simp] theorem setGroup_lost (d : Data) (c k : Nat) (g : Group) : (d.setGroup c k g).lost = d.lost := rfl
@[simp] theorem setGroup_cellar (d : Data) (c k : Nat) (g : Group) : (d.setGroup c k g).cellar = d.cellar := rfl
@[simp] theorem setGroup_copies (d : Data) (c k : Nat) (g : Group) : (d.setGroup c k g).copies = d.copies := rfl
@[simp] theorem setGroup_fills (d : Data) (c k : Nat) (g : Group) : (d.setGroup c k g).fills = d.fills := rfl
@[simp] theorem setGroup_reqs (d : Data) (c k : Nat) (g : Group) : (d.setGroup c k g).reqs = d.reqs := rfl
@[simp] theorem setGroup_nextId (d : Data) (c k : Nat) (g : Group) : (d.setGroup c k g).nextId = d.nextId := rfl
@[simp] theorem setGroup_channels (d : Data) (c k : Nat) (g : Group) : (d.setGroup c k g).channels = d.channels := rfl
@[simp] theorem setGroup_chanOut (d : Data) (c k : Nat) (g : Group) : (d.setGroup c k g).chanOut = d.chanOut := rfl
@[simp] theorem setGroup_rowErrs (d : Data) (c k : Nat) (g : Group) : (d.setGroup c k g).rowErrs = d.rowErrs := rfl
@[simp] theorem setGroup_framePend (d : Data) (c k : Nat) (g : Group) : (d.setGroup c k g).framePend = d.framePend := rfl
@[simp] theorem setGroup_frameOut (d : Data) (c k : Nat) (g : Group) : (d.setGroup c k g).frameOut = d.frameOut := rfl
@[simp] theorem setGroup_slices (d : Data) (c k : Nat) (g : Group) : (d.setGroup c k g).slices = d.slices := rfl
@[simp] theorem setGroup_dieOut (d : Data) (c k : Nat) (g : Group) : (d.setGroup c k g).dieOut = d.dieOut := rfl
@[simp] theorem setGroup_saveArea (d : Data) (c k : Nat) (g : Group) : (d.setGroup c k g).saveArea = d.saveArea := rfl
@[simp] theorem setGroup_dieBar (d : Data) (c k : Nat) (g : Group) : (d.setGroup c k g).dieBar = d.dieBar := rfl
@[simp] theorem setGroup_pkgBar (d : Data) (c k : Nat) (g : Group) : (d.setGroup c k g).pkgBar = d.pkgBar := rfl
@[simp] theorem setGroup_objs (d : Data) (c k : Nat) (g : Group) : (d.setGroup c k g).objs = d.objs := rfl
@[simp] theorem setGroup_hws (d : Data) (c k : Nat) (g : Group) : (d.setGroup c k g).hws = d.hws := rfl
@[simp] theorem setGroup_apertures (d : Data) (c k : Nat) (g : Group) : (d.setGroup c k g).apertures = d.apertures := rfl
@[simp] theorem setGroup_engines (d : Data) (c k : Nat) (g : Group) : (d.setGroup c k g).engines = d.engines := rfl
@[simp] theorem setGroup_ctxs (d : Data) (c k : Nat) (g : Group) : (d.setGroup c k g).ctxs = d.ctxs := rfl
@[simp] theorem setGroup_events (d : Data) (c k : Nat) (g : Group) : (d.setGroup c k g).events = d.events := rfl
@[simp] theorem setGroup_pigeons (d : Data) (c k : Nat) (g : Group) : (d.setGroup c k g).pigeons = d.pigeons := rfl
@[simp] theorem setGroup_graphs (d : Data) (c k : Nat) (g : Group) : (d.setGroup c k g).graphs = d.graphs := rfl
@[simp] theorem setGroup_launches (d : Data) (c k : Nat) (g : Group) : (d.setGroup c k g).launches = d.launches := rfl
@[simp] theorem setGroup_ended (d : Data) (c k : Nat) (g : Group) : (d.setGroup c k g).ended = d.ended := rfl
@[simp] theorem setGroup_plots (d : Data) (c k : Nat) (g : Group) : (d.setGroup c k g).plots = d.plots := rfl
@[simp] theorem setGroup_node (d : Data) (c k : Nat) (g : Group) : (d.setGroup c k g).node = d.node := rfl
@[simp] theorem setGroup_corrected (d : Data) (c k : Nat) (g : Group) : (d.setGroup c k g).corrected = d.corrected := rfl
@[simp] theorem setGroup_posts (d : Data) (c k : Nat) (g : Group) : (d.setGroup c k g).posts = d.posts := rfl
@[simp] theorem setGroup_retiring (d : Data) (c k : Nat) (g : Group) : (d.setGroup c k g).retiring = d.retiring := rfl
@[simp] theorem setGroup_ctxSeen (d : Data) (c k : Nat) (g : Group) : (d.setGroup c k g).ctxSeen = d.ctxSeen := rfl
@[simp] theorem setGroup_engOut (d : Data) (c k : Nat) (g : Group) : (d.setGroup c k g).engOut = d.engOut := rfl
@[simp] theorem setGroup_abortPend (d : Data) (c k : Nat) (g : Group) : (d.setGroup c k g).abortPend = d.abortPend := rfl
@[simp] theorem setGroup_irqs (d : Data) (c k : Nat) (g : Group) : (d.setGroup c k g).irqs = d.irqs := rfl
@[simp] theorem setGroup_halted (d : Data) (c k : Nat) (g : Group) : (d.setGroup c k g).halted = d.halted := rfl
@[simp] theorem setGroup_free (d : Data) (c k : Nat) (g : Group) : (d.setGroup c k g).free = d.free := rfl

/-! `Data.wr` -/
@[simp] theorem wr_cores (d : Data) (p : Nat) (b : Byte) : (d.wr p b).cores = d.cores := rfl
@[simp] theorem wr_coreSt (d : Data) (p : Nat) (b : Byte) : (d.wr p b).coreSt = d.coreSt := rfl
@[simp] theorem wr_mem (d : Data) (p : Nat) (b : Byte) : (d.wr p b).mem = cput 0 d.mem p b := rfl
@[simp] theorem wr_bench (d : Data) (p : Nat) (b : Byte) : (d.wr p b).bench = d.bench := rfl
@[simp] theorem wr_benchEpoch (d : Data) (p : Nat) (b : Byte) : (d.wr p b).benchEpoch = d.benchEpoch := rfl
@[simp] theorem wr_lost (d : Data) (p : Nat) (b : Byte) : (d.wr p b).lost = d.lost := rfl
@[simp] theorem wr_cellar (d : Data) (p : Nat) (b : Byte) : (d.wr p b).cellar = d.cellar := rfl
@[simp] theorem wr_copies (d : Data) (p : Nat) (b : Byte) : (d.wr p b).copies = d.copies := rfl
@[simp] theorem wr_fills (d : Data) (p : Nat) (b : Byte) : (d.wr p b).fills = d.fills := rfl
@[simp] theorem wr_reqs (d : Data) (p : Nat) (b : Byte) : (d.wr p b).reqs = d.reqs := rfl
@[simp] theorem wr_nextId (d : Data) (p : Nat) (b : Byte) : (d.wr p b).nextId = d.nextId := rfl
@[simp] theorem wr_channels (d : Data) (p : Nat) (b : Byte) : (d.wr p b).channels = d.channels := rfl
@[simp] theorem wr_chanOut (d : Data) (p : Nat) (b : Byte) : (d.wr p b).chanOut = d.chanOut := rfl
@[simp] theorem wr_rowErrs (d : Data) (p : Nat) (b : Byte) : (d.wr p b).rowErrs = d.rowErrs := rfl
@[simp] theorem wr_framePend (d : Data) (p : Nat) (b : Byte) : (d.wr p b).framePend = d.framePend := rfl
@[simp] theorem wr_frameOut (d : Data) (p : Nat) (b : Byte) : (d.wr p b).frameOut = d.frameOut := rfl
@[simp] theorem wr_slices (d : Data) (p : Nat) (b : Byte) : (d.wr p b).slices = d.slices := rfl
@[simp] theorem wr_dieOut (d : Data) (p : Nat) (b : Byte) : (d.wr p b).dieOut = d.dieOut := rfl
@[simp] theorem wr_saveArea (d : Data) (p : Nat) (b : Byte) : (d.wr p b).saveArea = d.saveArea := rfl
@[simp] theorem wr_dieBar (d : Data) (p : Nat) (b : Byte) : (d.wr p b).dieBar = d.dieBar := rfl
@[simp] theorem wr_pkgBar (d : Data) (p : Nat) (b : Byte) : (d.wr p b).pkgBar = d.pkgBar := rfl
@[simp] theorem wr_objs (d : Data) (p : Nat) (b : Byte) : (d.wr p b).objs = d.objs := rfl
@[simp] theorem wr_hws (d : Data) (p : Nat) (b : Byte) : (d.wr p b).hws = d.hws := rfl
@[simp] theorem wr_apertures (d : Data) (p : Nat) (b : Byte) : (d.wr p b).apertures = d.apertures := rfl
@[simp] theorem wr_engines (d : Data) (p : Nat) (b : Byte) : (d.wr p b).engines = d.engines := rfl
@[simp] theorem wr_ctxs (d : Data) (p : Nat) (b : Byte) : (d.wr p b).ctxs = d.ctxs := rfl
@[simp] theorem wr_events (d : Data) (p : Nat) (b : Byte) : (d.wr p b).events = d.events := rfl
@[simp] theorem wr_pigeons (d : Data) (p : Nat) (b : Byte) : (d.wr p b).pigeons = d.pigeons := rfl
@[simp] theorem wr_graphs (d : Data) (p : Nat) (b : Byte) : (d.wr p b).graphs = d.graphs := rfl
@[simp] theorem wr_launches (d : Data) (p : Nat) (b : Byte) : (d.wr p b).launches = d.launches := rfl
@[simp] theorem wr_ended (d : Data) (p : Nat) (b : Byte) : (d.wr p b).ended = d.ended := rfl
@[simp] theorem wr_plots (d : Data) (p : Nat) (b : Byte) : (d.wr p b).plots = d.plots := rfl
@[simp] theorem wr_node (d : Data) (p : Nat) (b : Byte) : (d.wr p b).node = d.node := rfl
@[simp] theorem wr_corrected (d : Data) (p : Nat) (b : Byte) : (d.wr p b).corrected = d.corrected := rfl
@[simp] theorem wr_posts (d : Data) (p : Nat) (b : Byte) : (d.wr p b).posts = d.posts := rfl
@[simp] theorem wr_retiring (d : Data) (p : Nat) (b : Byte) : (d.wr p b).retiring = d.retiring := rfl
@[simp] theorem wr_ctxSeen (d : Data) (p : Nat) (b : Byte) : (d.wr p b).ctxSeen = d.ctxSeen := rfl
@[simp] theorem wr_engOut (d : Data) (p : Nat) (b : Byte) : (d.wr p b).engOut = d.engOut := rfl
@[simp] theorem wr_abortPend (d : Data) (p : Nat) (b : Byte) : (d.wr p b).abortPend = d.abortPend := rfl
@[simp] theorem wr_irqs (d : Data) (p : Nat) (b : Byte) : (d.wr p b).irqs = d.irqs := rfl
@[simp] theorem wr_halted (d : Data) (p : Nat) (b : Byte) : (d.wr p b).halted = d.halted := rfl
@[simp] theorem wr_free (d : Data) (p : Nat) (b : Byte) : (d.wr p b).free = d.free := rfl

/-! `Data.wrB` -/
@[simp] theorem wrB_cores (d : Data) (a : Nat) (b : Byte) : (d.wrB a b).cores = d.cores := rfl
@[simp] theorem wrB_coreSt (d : Data) (a : Nat) (b : Byte) : (d.wrB a b).coreSt = d.coreSt := rfl
@[simp] theorem wrB_mem (d : Data) (a : Nat) (b : Byte) : (d.wrB a b).mem = d.mem := rfl
@[simp] theorem wrB_bench (d : Data) (a : Nat) (b : Byte) : (d.wrB a b).bench = cput (benchDflt d.benchEpoch a) d.bench a b := rfl
@[simp] theorem wrB_benchEpoch (d : Data) (a : Nat) (b : Byte) : (d.wrB a b).benchEpoch = d.benchEpoch := rfl
@[simp] theorem wrB_lost (d : Data) (a : Nat) (b : Byte) : (d.wrB a b).lost = d.lost := rfl
@[simp] theorem wrB_cellar (d : Data) (a : Nat) (b : Byte) : (d.wrB a b).cellar = d.cellar := rfl
@[simp] theorem wrB_copies (d : Data) (a : Nat) (b : Byte) : (d.wrB a b).copies = d.copies := rfl
@[simp] theorem wrB_fills (d : Data) (a : Nat) (b : Byte) : (d.wrB a b).fills = d.fills := rfl
@[simp] theorem wrB_reqs (d : Data) (a : Nat) (b : Byte) : (d.wrB a b).reqs = d.reqs := rfl
@[simp] theorem wrB_nextId (d : Data) (a : Nat) (b : Byte) : (d.wrB a b).nextId = d.nextId := rfl
@[simp] theorem wrB_channels (d : Data) (a : Nat) (b : Byte) : (d.wrB a b).channels = d.channels := rfl
@[simp] theorem wrB_chanOut (d : Data) (a : Nat) (b : Byte) : (d.wrB a b).chanOut = d.chanOut := rfl
@[simp] theorem wrB_rowErrs (d : Data) (a : Nat) (b : Byte) : (d.wrB a b).rowErrs = d.rowErrs := rfl
@[simp] theorem wrB_framePend (d : Data) (a : Nat) (b : Byte) : (d.wrB a b).framePend = d.framePend := rfl
@[simp] theorem wrB_frameOut (d : Data) (a : Nat) (b : Byte) : (d.wrB a b).frameOut = d.frameOut := rfl
@[simp] theorem wrB_slices (d : Data) (a : Nat) (b : Byte) : (d.wrB a b).slices = d.slices := rfl
@[simp] theorem wrB_dieOut (d : Data) (a : Nat) (b : Byte) : (d.wrB a b).dieOut = d.dieOut := rfl
@[simp] theorem wrB_saveArea (d : Data) (a : Nat) (b : Byte) : (d.wrB a b).saveArea = d.saveArea := rfl
@[simp] theorem wrB_dieBar (d : Data) (a : Nat) (b : Byte) : (d.wrB a b).dieBar = d.dieBar := rfl
@[simp] theorem wrB_pkgBar (d : Data) (a : Nat) (b : Byte) : (d.wrB a b).pkgBar = d.pkgBar := rfl
@[simp] theorem wrB_objs (d : Data) (a : Nat) (b : Byte) : (d.wrB a b).objs = d.objs := rfl
@[simp] theorem wrB_hws (d : Data) (a : Nat) (b : Byte) : (d.wrB a b).hws = d.hws := rfl
@[simp] theorem wrB_apertures (d : Data) (a : Nat) (b : Byte) : (d.wrB a b).apertures = d.apertures := rfl
@[simp] theorem wrB_engines (d : Data) (a : Nat) (b : Byte) : (d.wrB a b).engines = d.engines := rfl
@[simp] theorem wrB_ctxs (d : Data) (a : Nat) (b : Byte) : (d.wrB a b).ctxs = d.ctxs := rfl
@[simp] theorem wrB_events (d : Data) (a : Nat) (b : Byte) : (d.wrB a b).events = d.events := rfl
@[simp] theorem wrB_pigeons (d : Data) (a : Nat) (b : Byte) : (d.wrB a b).pigeons = d.pigeons := rfl
@[simp] theorem wrB_graphs (d : Data) (a : Nat) (b : Byte) : (d.wrB a b).graphs = d.graphs := rfl
@[simp] theorem wrB_launches (d : Data) (a : Nat) (b : Byte) : (d.wrB a b).launches = d.launches := rfl
@[simp] theorem wrB_ended (d : Data) (a : Nat) (b : Byte) : (d.wrB a b).ended = d.ended := rfl
@[simp] theorem wrB_plots (d : Data) (a : Nat) (b : Byte) : (d.wrB a b).plots = d.plots := rfl
@[simp] theorem wrB_node (d : Data) (a : Nat) (b : Byte) : (d.wrB a b).node = d.node := rfl
@[simp] theorem wrB_corrected (d : Data) (a : Nat) (b : Byte) : (d.wrB a b).corrected = d.corrected := rfl
@[simp] theorem wrB_posts (d : Data) (a : Nat) (b : Byte) : (d.wrB a b).posts = d.posts := rfl
@[simp] theorem wrB_retiring (d : Data) (a : Nat) (b : Byte) : (d.wrB a b).retiring = d.retiring := rfl
@[simp] theorem wrB_ctxSeen (d : Data) (a : Nat) (b : Byte) : (d.wrB a b).ctxSeen = d.ctxSeen := rfl
@[simp] theorem wrB_engOut (d : Data) (a : Nat) (b : Byte) : (d.wrB a b).engOut = d.engOut := rfl
@[simp] theorem wrB_abortPend (d : Data) (a : Nat) (b : Byte) : (d.wrB a b).abortPend = d.abortPend := rfl
@[simp] theorem wrB_irqs (d : Data) (a : Nat) (b : Byte) : (d.wrB a b).irqs = d.irqs := rfl
@[simp] theorem wrB_halted (d : Data) (a : Nat) (b : Byte) : (d.wrB a b).halted = d.halted := rfl
@[simp] theorem wrB_free (d : Data) (a : Nat) (b : Byte) : (d.wrB a b).free = d.free := rfl

/-! `Data.draw` -/
@[simp] theorem draw_cores (d : Data) : (d.draw.2).cores = d.cores := rfl
@[simp] theorem draw_coreSt (d : Data) : (d.draw.2).coreSt = d.coreSt := rfl
@[simp] theorem draw_mem (d : Data) : (d.draw.2).mem = d.mem := rfl
@[simp] theorem draw_bench (d : Data) : (d.draw.2).bench = d.bench := rfl
@[simp] theorem draw_benchEpoch (d : Data) : (d.draw.2).benchEpoch = d.benchEpoch := rfl
@[simp] theorem draw_lost (d : Data) : (d.draw.2).lost = d.lost := rfl
@[simp] theorem draw_cellar (d : Data) : (d.draw.2).cellar = d.cellar := rfl
@[simp] theorem draw_copies (d : Data) : (d.draw.2).copies = d.copies := rfl
@[simp] theorem draw_fills (d : Data) : (d.draw.2).fills = d.fills := rfl
@[simp] theorem draw_reqs (d : Data) : (d.draw.2).reqs = d.reqs := rfl
@[simp] theorem draw_nextId (d : Data) : (d.draw.2).nextId = d.nextId := rfl
@[simp] theorem draw_channels (d : Data) : (d.draw.2).channels = d.channels := rfl
@[simp] theorem draw_chanOut (d : Data) : (d.draw.2).chanOut = d.chanOut := rfl
@[simp] theorem draw_rowErrs (d : Data) : (d.draw.2).rowErrs = d.rowErrs := rfl
@[simp] theorem draw_framePend (d : Data) : (d.draw.2).framePend = d.framePend := rfl
@[simp] theorem draw_frameOut (d : Data) : (d.draw.2).frameOut = d.frameOut := rfl
@[simp] theorem draw_slices (d : Data) : (d.draw.2).slices = d.slices := rfl
@[simp] theorem draw_dieOut (d : Data) : (d.draw.2).dieOut = d.dieOut := rfl
@[simp] theorem draw_saveArea (d : Data) : (d.draw.2).saveArea = d.saveArea := rfl
@[simp] theorem draw_dieBar (d : Data) : (d.draw.2).dieBar = d.dieBar := rfl
@[simp] theorem draw_pkgBar (d : Data) : (d.draw.2).pkgBar = d.pkgBar := rfl
@[simp] theorem draw_objs (d : Data) : (d.draw.2).objs = d.objs := rfl
@[simp] theorem draw_hws (d : Data) : (d.draw.2).hws = d.hws := rfl
@[simp] theorem draw_apertures (d : Data) : (d.draw.2).apertures = d.apertures := rfl
@[simp] theorem draw_engines (d : Data) : (d.draw.2).engines = d.engines := rfl
@[simp] theorem draw_ctxs (d : Data) : (d.draw.2).ctxs = d.ctxs := rfl
@[simp] theorem draw_events (d : Data) : (d.draw.2).events = d.events := rfl
@[simp] theorem draw_pigeons (d : Data) : (d.draw.2).pigeons = d.pigeons := rfl
@[simp] theorem draw_graphs (d : Data) : (d.draw.2).graphs = d.graphs := rfl
@[simp] theorem draw_launches (d : Data) : (d.draw.2).launches = d.launches := rfl
@[simp] theorem draw_ended (d : Data) : (d.draw.2).ended = d.ended := rfl
@[simp] theorem draw_plots (d : Data) : (d.draw.2).plots = d.plots := rfl
@[simp] theorem draw_node (d : Data) : (d.draw.2).node = d.node := rfl
@[simp] theorem draw_corrected (d : Data) : (d.draw.2).corrected = d.corrected := rfl
@[simp] theorem draw_posts (d : Data) : (d.draw.2).posts = d.posts := rfl
@[simp] theorem draw_retiring (d : Data) : (d.draw.2).retiring = d.retiring := rfl
@[simp] theorem draw_ctxSeen (d : Data) : (d.draw.2).ctxSeen = d.ctxSeen := rfl
@[simp] theorem draw_engOut (d : Data) : (d.draw.2).engOut = d.engOut := rfl
@[simp] theorem draw_abortPend (d : Data) : (d.draw.2).abortPend = d.abortPend := rfl
@[simp] theorem draw_irqs (d : Data) : (d.draw.2).irqs = d.irqs := rfl
@[simp] theorem draw_halted (d : Data) : (d.draw.2).halted = d.halted := rfl
@[simp] theorem draw_free (d : Data) : (d.draw.2).free = d.free + 1 := rfl

/-! `Data.post` -/
@[simp] theorem dataPost_cores (d : Data) (c u : Nat) (fs : List (Nat × Nat)) : (d.post c u fs).cores = d.cores := rfl
@[simp] theorem dataPost_coreSt (d : Data) (c u : Nat) (fs : List (Nat × Nat)) : (d.post c u fs).coreSt = d.coreSt := rfl
@[simp] theorem dataPost_mem (d : Data) (c u : Nat) (fs : List (Nat × Nat)) : (d.post c u fs).mem = d.mem := rfl
@[simp] theorem dataPost_bench (d : Data) (c u : Nat) (fs : List (Nat × Nat)) : (d.post c u fs).bench = d.bench := rfl
@[simp] theorem dataPost_benchEpoch (d : Data) (c u : Nat) (fs : List (Nat × Nat)) : (d.post c u fs).benchEpoch = d.benchEpoch := rfl
@[simp] theorem dataPost_lost (d : Data) (c u : Nat) (fs : List (Nat × Nat)) : (d.post c u fs).lost = d.lost := rfl
@[simp] theorem dataPost_cellar (d : Data) (c u : Nat) (fs : List (Nat × Nat)) : (d.post c u fs).cellar = d.cellar := rfl
@[simp] theorem dataPost_copies (d : Data) (c u : Nat) (fs : List (Nat × Nat)) : (d.post c u fs).copies = d.copies := rfl
@[simp] theorem dataPost_fills (d : Data) (c u : Nat) (fs : List (Nat × Nat)) : (d.post c u fs).fills = d.fills := rfl
@[simp] theorem dataPost_reqs (d : Data) (c u : Nat) (fs : List (Nat × Nat)) : (d.post c u fs).reqs = d.reqs := rfl
@[simp] theorem dataPost_nextId (d : Data) (c u : Nat) (fs : List (Nat × Nat)) : (d.post c u fs).nextId = d.nextId := rfl
@[simp] theorem dataPost_channels (d : Data) (c u : Nat) (fs : List (Nat × Nat)) : (d.post c u fs).channels = d.channels := rfl
@[simp] theorem dataPost_chanOut (d : Data) (c u : Nat) (fs : List (Nat × Nat)) : (d.post c u fs).chanOut = d.chanOut := rfl
@[simp] theorem dataPost_rowErrs (d : Data) (c u : Nat) (fs : List (Nat × Nat)) : (d.post c u fs).rowErrs = d.rowErrs := rfl
@[simp] theorem dataPost_framePend (d : Data) (c u : Nat) (fs : List (Nat × Nat)) : (d.post c u fs).framePend = d.framePend := rfl
@[simp] theorem dataPost_frameOut (d : Data) (c u : Nat) (fs : List (Nat × Nat)) : (d.post c u fs).frameOut = d.frameOut := rfl
@[simp] theorem dataPost_slices (d : Data) (c u : Nat) (fs : List (Nat × Nat)) : (d.post c u fs).slices = d.slices := rfl
@[simp] theorem dataPost_dieOut (d : Data) (c u : Nat) (fs : List (Nat × Nat)) : (d.post c u fs).dieOut = d.dieOut := rfl
@[simp] theorem dataPost_saveArea (d : Data) (c u : Nat) (fs : List (Nat × Nat)) : (d.post c u fs).saveArea = d.saveArea := rfl
@[simp] theorem dataPost_dieBar (d : Data) (c u : Nat) (fs : List (Nat × Nat)) : (d.post c u fs).dieBar = d.dieBar := rfl
@[simp] theorem dataPost_pkgBar (d : Data) (c u : Nat) (fs : List (Nat × Nat)) : (d.post c u fs).pkgBar = d.pkgBar := rfl
@[simp] theorem dataPost_objs (d : Data) (c u : Nat) (fs : List (Nat × Nat)) : (d.post c u fs).objs = d.objs := rfl
@[simp] theorem dataPost_hws (d : Data) (c u : Nat) (fs : List (Nat × Nat)) : (d.post c u fs).hws = d.hws := rfl
@[simp] theorem dataPost_apertures (d : Data) (c u : Nat) (fs : List (Nat × Nat)) : (d.post c u fs).apertures = d.apertures := rfl
@[simp] theorem dataPost_engines (d : Data) (c u : Nat) (fs : List (Nat × Nat)) : (d.post c u fs).engines = d.engines := rfl
@[simp] theorem dataPost_ctxs (d : Data) (c u : Nat) (fs : List (Nat × Nat)) : (d.post c u fs).ctxs = d.ctxs := rfl
@[simp] theorem dataPost_events (d : Data) (c u : Nat) (fs : List (Nat × Nat)) : (d.post c u fs).events = d.events := rfl
@[simp] theorem dataPost_pigeons (d : Data) (c u : Nat) (fs : List (Nat × Nat)) : (d.post c u fs).pigeons = d.pigeons := rfl
@[simp] theorem dataPost_graphs (d : Data) (c u : Nat) (fs : List (Nat × Nat)) : (d.post c u fs).graphs = d.graphs := rfl
@[simp] theorem dataPost_launches (d : Data) (c u : Nat) (fs : List (Nat × Nat)) : (d.post c u fs).launches = d.launches := rfl
@[simp] theorem dataPost_ended (d : Data) (c u : Nat) (fs : List (Nat × Nat)) : (d.post c u fs).ended = d.ended := rfl
@[simp] theorem dataPost_plots (d : Data) (c u : Nat) (fs : List (Nat × Nat)) : (d.post c u fs).plots = d.plots := rfl
@[simp] theorem dataPost_node (d : Data) (c u : Nat) (fs : List (Nat × Nat)) : (d.post c u fs).node = d.node := rfl
@[simp] theorem dataPost_corrected (d : Data) (c u : Nat) (fs : List (Nat × Nat)) : (d.post c u fs).corrected = d.corrected := rfl
@[simp] theorem dataPost_posts (d : Data) (c u : Nat) (fs : List (Nat × Nat)) : (d.post c u fs).posts = d.posts ++ [{ code := c, unit := u, fields := fs, beat := none }] := rfl
@[simp] theorem dataPost_retiring (d : Data) (c u : Nat) (fs : List (Nat × Nat)) : (d.post c u fs).retiring = d.retiring := rfl
@[simp] theorem dataPost_ctxSeen (d : Data) (c u : Nat) (fs : List (Nat × Nat)) : (d.post c u fs).ctxSeen = d.ctxSeen := rfl
@[simp] theorem dataPost_engOut (d : Data) (c u : Nat) (fs : List (Nat × Nat)) : (d.post c u fs).engOut = d.engOut := rfl
@[simp] theorem dataPost_abortPend (d : Data) (c u : Nat) (fs : List (Nat × Nat)) : (d.post c u fs).abortPend = d.abortPend := rfl
@[simp] theorem dataPost_irqs (d : Data) (c u : Nat) (fs : List (Nat × Nat)) : (d.post c u fs).irqs = d.irqs := rfl
@[simp] theorem dataPost_halted (d : Data) (c u : Nat) (fs : List (Nat × Nat)) : (d.post c u fs).halted = d.halted := rfl
@[simp] theorem dataPost_free (d : Data) (c u : Nat) (fs : List (Nat × Nat)) : (d.post c u fs).free = d.free := rfl

/-! `Data.setReq` -/
@[simp] theorem setReq_cores (d : Data) (r : LineReq) : (d.setReq r).cores = d.cores := rfl
@[simp] theorem setReq_coreSt (d : Data) (r : LineReq) : (d.setReq r).coreSt = d.coreSt := rfl
@[simp] theorem setReq_mem (d : Data) (r : LineReq) : (d.setReq r).mem = d.mem := rfl
@[simp] theorem setReq_bench (d : Data) (r : LineReq) : (d.setReq r).bench = d.bench := rfl
@[simp] theorem setReq_benchEpoch (d : Data) (r : LineReq) : (d.setReq r).benchEpoch = d.benchEpoch := rfl
@[simp] theorem setReq_lost (d : Data) (r : LineReq) : (d.setReq r).lost = d.lost := rfl
@[simp] theorem setReq_cellar (d : Data) (r : LineReq) : (d.setReq r).cellar = d.cellar := rfl
@[simp] theorem setReq_copies (d : Data) (r : LineReq) : (d.setReq r).copies = d.copies := rfl
@[simp] theorem setReq_fills (d : Data) (r : LineReq) : (d.setReq r).fills = d.fills := rfl
@[simp] theorem setReq_reqs (d : Data) (r : LineReq) : (d.setReq r).reqs = d.reqs.map fun q => if q.id = r.id then r else q := rfl
@[simp] theorem setReq_nextId (d : Data) (r : LineReq) : (d.setReq r).nextId = d.nextId := rfl
@[simp] theorem setReq_channels (d : Data) (r : LineReq) : (d.setReq r).channels = d.channels := rfl
@[simp] theorem setReq_chanOut (d : Data) (r : LineReq) : (d.setReq r).chanOut = d.chanOut := rfl
@[simp] theorem setReq_rowErrs (d : Data) (r : LineReq) : (d.setReq r).rowErrs = d.rowErrs := rfl
@[simp] theorem setReq_framePend (d : Data) (r : LineReq) : (d.setReq r).framePend = d.framePend := rfl
@[simp] theorem setReq_frameOut (d : Data) (r : LineReq) : (d.setReq r).frameOut = d.frameOut := rfl
@[simp] theorem setReq_slices (d : Data) (r : LineReq) : (d.setReq r).slices = d.slices := rfl
@[simp] theorem setReq_dieOut (d : Data) (r : LineReq) : (d.setReq r).dieOut = d.dieOut := rfl
@[simp] theorem setReq_saveArea (d : Data) (r : LineReq) : (d.setReq r).saveArea = d.saveArea := rfl
@[simp] theorem setReq_dieBar (d : Data) (r : LineReq) : (d.setReq r).dieBar = d.dieBar := rfl
@[simp] theorem setReq_pkgBar (d : Data) (r : LineReq) : (d.setReq r).pkgBar = d.pkgBar := rfl
@[simp] theorem setReq_objs (d : Data) (r : LineReq) : (d.setReq r).objs = d.objs := rfl
@[simp] theorem setReq_hws (d : Data) (r : LineReq) : (d.setReq r).hws = d.hws := rfl
@[simp] theorem setReq_apertures (d : Data) (r : LineReq) : (d.setReq r).apertures = d.apertures := rfl
@[simp] theorem setReq_engines (d : Data) (r : LineReq) : (d.setReq r).engines = d.engines := rfl
@[simp] theorem setReq_ctxs (d : Data) (r : LineReq) : (d.setReq r).ctxs = d.ctxs := rfl
@[simp] theorem setReq_events (d : Data) (r : LineReq) : (d.setReq r).events = d.events := rfl
@[simp] theorem setReq_pigeons (d : Data) (r : LineReq) : (d.setReq r).pigeons = d.pigeons := rfl
@[simp] theorem setReq_graphs (d : Data) (r : LineReq) : (d.setReq r).graphs = d.graphs := rfl
@[simp] theorem setReq_launches (d : Data) (r : LineReq) : (d.setReq r).launches = d.launches := rfl
@[simp] theorem setReq_ended (d : Data) (r : LineReq) : (d.setReq r).ended = d.ended := rfl
@[simp] theorem setReq_plots (d : Data) (r : LineReq) : (d.setReq r).plots = d.plots := rfl
@[simp] theorem setReq_node (d : Data) (r : LineReq) : (d.setReq r).node = d.node := rfl
@[simp] theorem setReq_corrected (d : Data) (r : LineReq) : (d.setReq r).corrected = d.corrected := rfl
@[simp] theorem setReq_posts (d : Data) (r : LineReq) : (d.setReq r).posts = d.posts := rfl
@[simp] theorem setReq_retiring (d : Data) (r : LineReq) : (d.setReq r).retiring = d.retiring := rfl
@[simp] theorem setReq_ctxSeen (d : Data) (r : LineReq) : (d.setReq r).ctxSeen = d.ctxSeen := rfl
@[simp] theorem setReq_engOut (d : Data) (r : LineReq) : (d.setReq r).engOut = d.engOut := rfl
@[simp] theorem setReq_abortPend (d : Data) (r : LineReq) : (d.setReq r).abortPend = d.abortPend := rfl
@[simp] theorem setReq_irqs (d : Data) (r : LineReq) : (d.setReq r).irqs = d.irqs := rfl
@[simp] theorem setReq_halted (d : Data) (r : LineReq) : (d.setReq r).halted = d.halted := rfl
@[simp] theorem setReq_free (d : Data) (r : LineReq) : (d.setReq r).free = d.free := rfl

/-! `Data.dropReq` -/
@[simp] theorem dropReq_cores (d : Data) (i : Nat) : (d.dropReq i).cores = d.cores := rfl
@[simp] theorem dropReq_coreSt (d : Data) (i : Nat) : (d.dropReq i).coreSt = d.coreSt := rfl
@[simp] theorem dropReq_mem (d : Data) (i : Nat) : (d.dropReq i).mem = d.mem := rfl
@[simp] theorem dropReq_bench (d : Data) (i : Nat) : (d.dropReq i).bench = d.bench := rfl
@[simp] theorem dropReq_benchEpoch (d : Data) (i : Nat) : (d.dropReq i).benchEpoch = d.benchEpoch := rfl
@[simp] theorem dropReq_lost (d : Data) (i : Nat) : (d.dropReq i).lost = d.lost := rfl
@[simp] theorem dropReq_cellar (d : Data) (i : Nat) : (d.dropReq i).cellar = d.cellar := rfl
@[simp] theorem dropReq_copies (d : Data) (i : Nat) : (d.dropReq i).copies = d.copies := rfl
@[simp] theorem dropReq_fills (d : Data) (i : Nat) : (d.dropReq i).fills = d.fills := rfl
@[simp] theorem dropReq_reqs (d : Data) (i : Nat) : (d.dropReq i).reqs = d.reqs.filter fun r => r.id != i := rfl
@[simp] theorem dropReq_nextId (d : Data) (i : Nat) : (d.dropReq i).nextId = d.nextId := rfl
@[simp] theorem dropReq_channels (d : Data) (i : Nat) : (d.dropReq i).channels = d.channels := rfl
@[simp] theorem dropReq_chanOut (d : Data) (i : Nat) : (d.dropReq i).chanOut = d.chanOut := rfl
@[simp] theorem dropReq_rowErrs (d : Data) (i : Nat) : (d.dropReq i).rowErrs = d.rowErrs := rfl
@[simp] theorem dropReq_framePend (d : Data) (i : Nat) : (d.dropReq i).framePend = d.framePend := rfl
@[simp] theorem dropReq_frameOut (d : Data) (i : Nat) : (d.dropReq i).frameOut = d.frameOut := rfl
@[simp] theorem dropReq_slices (d : Data) (i : Nat) : (d.dropReq i).slices = d.slices := rfl
@[simp] theorem dropReq_dieOut (d : Data) (i : Nat) : (d.dropReq i).dieOut = d.dieOut := rfl
@[simp] theorem dropReq_saveArea (d : Data) (i : Nat) : (d.dropReq i).saveArea = d.saveArea := rfl
@[simp] theorem dropReq_dieBar (d : Data) (i : Nat) : (d.dropReq i).dieBar = d.dieBar := rfl
@[simp] theorem dropReq_pkgBar (d : Data) (i : Nat) : (d.dropReq i).pkgBar = d.pkgBar := rfl
@[simp] theorem dropReq_objs (d : Data) (i : Nat) : (d.dropReq i).objs = d.objs := rfl
@[simp] theorem dropReq_hws (d : Data) (i : Nat) : (d.dropReq i).hws = d.hws := rfl
@[simp] theorem dropReq_apertures (d : Data) (i : Nat) : (d.dropReq i).apertures = d.apertures := rfl
@[simp] theorem dropReq_engines (d : Data) (i : Nat) : (d.dropReq i).engines = d.engines := rfl
@[simp] theorem dropReq_ctxs (d : Data) (i : Nat) : (d.dropReq i).ctxs = d.ctxs := rfl
@[simp] theorem dropReq_events (d : Data) (i : Nat) : (d.dropReq i).events = d.events := rfl
@[simp] theorem dropReq_pigeons (d : Data) (i : Nat) : (d.dropReq i).pigeons = d.pigeons := rfl
@[simp] theorem dropReq_graphs (d : Data) (i : Nat) : (d.dropReq i).graphs = d.graphs := rfl
@[simp] theorem dropReq_launches (d : Data) (i : Nat) : (d.dropReq i).launches = d.launches := rfl
@[simp] theorem dropReq_ended (d : Data) (i : Nat) : (d.dropReq i).ended = d.ended := rfl
@[simp] theorem dropReq_plots (d : Data) (i : Nat) : (d.dropReq i).plots = d.plots := rfl
@[simp] theorem dropReq_node (d : Data) (i : Nat) : (d.dropReq i).node = d.node := rfl
@[simp] theorem dropReq_corrected (d : Data) (i : Nat) : (d.dropReq i).corrected = d.corrected := rfl
@[simp] theorem dropReq_posts (d : Data) (i : Nat) : (d.dropReq i).posts = d.posts := rfl
@[simp] theorem dropReq_retiring (d : Data) (i : Nat) : (d.dropReq i).retiring = d.retiring := rfl
@[simp] theorem dropReq_ctxSeen (d : Data) (i : Nat) : (d.dropReq i).ctxSeen = d.ctxSeen := rfl
@[simp] theorem dropReq_engOut (d : Data) (i : Nat) : (d.dropReq i).engOut = d.engOut := rfl
@[simp] theorem dropReq_abortPend (d : Data) (i : Nat) : (d.dropReq i).abortPend = d.abortPend := rfl
@[simp] theorem dropReq_irqs (d : Data) (i : Nat) : (d.dropReq i).irqs = d.irqs := rfl
@[simp] theorem dropReq_halted (d : Data) (i : Nat) : (d.dropReq i).halted = d.halted := rfl
@[simp] theorem dropReq_free (d : Data) (i : Nat) : (d.dropReq i).free = d.free := rfl

/-! `Data.lose` -/
@[simp] theorem lose_cores (d : Data) (p : Nat) : (d.lose p).cores = d.cores := rfl
@[simp] theorem lose_coreSt (d : Data) (p : Nat) : (d.lose p).coreSt = d.coreSt := rfl
@[simp] theorem lose_mem (d : Data) (p : Nat) : (d.lose p).mem = d.mem := rfl
@[simp] theorem lose_bench (d : Data) (p : Nat) : (d.lose p).bench = d.bench := rfl
@[simp] theorem lose_benchEpoch (d : Data) (p : Nat) : (d.lose p).benchEpoch = d.benchEpoch := rfl
@[simp] theorem lose_lost (d : Data) (p : Nat) : (d.lose p).lost = sadd d.lost (p / 128) := rfl
@[simp] theorem lose_cellar (d : Data) (p : Nat) : (d.lose p).cellar = d.cellar := rfl
@[simp] theorem lose_copies (d : Data) (p : Nat) : (d.lose p).copies = d.copies := rfl
@[simp] theorem lose_fills (d : Data) (p : Nat) : (d.lose p).fills = d.fills := rfl
@[simp] theorem lose_reqs (d : Data) (p : Nat) : (d.lose p).reqs = d.reqs := rfl
@[simp] theorem lose_nextId (d : Data) (p : Nat) : (d.lose p).nextId = d.nextId := rfl
@[simp] theorem lose_channels (d : Data) (p : Nat) : (d.lose p).channels = d.channels := rfl
@[simp] theorem lose_chanOut (d : Data) (p : Nat) : (d.lose p).chanOut = d.chanOut := rfl
@[simp] theorem lose_rowErrs (d : Data) (p : Nat) : (d.lose p).rowErrs = d.rowErrs := rfl
@[simp] theorem lose_framePend (d : Data) (p : Nat) : (d.lose p).framePend = d.framePend := rfl
@[simp] theorem lose_frameOut (d : Data) (p : Nat) : (d.lose p).frameOut = d.frameOut := rfl
@[simp] theorem lose_slices (d : Data) (p : Nat) : (d.lose p).slices = d.slices := rfl
@[simp] theorem lose_dieOut (d : Data) (p : Nat) : (d.lose p).dieOut = d.dieOut := rfl
@[simp] theorem lose_saveArea (d : Data) (p : Nat) : (d.lose p).saveArea = d.saveArea := rfl
@[simp] theorem lose_dieBar (d : Data) (p : Nat) : (d.lose p).dieBar = d.dieBar := rfl
@[simp] theorem lose_pkgBar (d : Data) (p : Nat) : (d.lose p).pkgBar = d.pkgBar := rfl
@[simp] theorem lose_objs (d : Data) (p : Nat) : (d.lose p).objs = d.objs := rfl
@[simp] theorem lose_hws (d : Data) (p : Nat) : (d.lose p).hws = d.hws := rfl
@[simp] theorem lose_apertures (d : Data) (p : Nat) : (d.lose p).apertures = d.apertures := rfl
@[simp] theorem lose_engines (d : Data) (p : Nat) : (d.lose p).engines = d.engines := rfl
@[simp] theorem lose_ctxs (d : Data) (p : Nat) : (d.lose p).ctxs = d.ctxs := rfl
@[simp] theorem lose_events (d : Data) (p : Nat) : (d.lose p).events = d.events := rfl
@[simp] theorem lose_pigeons (d : Data) (p : Nat) : (d.lose p).pigeons = d.pigeons := rfl
@[simp] theorem lose_graphs (d : Data) (p : Nat) : (d.lose p).graphs = d.graphs := rfl
@[simp] theorem lose_launches (d : Data) (p : Nat) : (d.lose p).launches = d.launches := rfl
@[simp] theorem lose_ended (d : Data) (p : Nat) : (d.lose p).ended = d.ended := rfl
@[simp] theorem lose_plots (d : Data) (p : Nat) : (d.lose p).plots = d.plots := rfl
@[simp] theorem lose_node (d : Data) (p : Nat) : (d.lose p).node = d.node := rfl
@[simp] theorem lose_corrected (d : Data) (p : Nat) : (d.lose p).corrected = d.corrected := rfl
@[simp] theorem lose_posts (d : Data) (p : Nat) : (d.lose p).posts = d.posts := rfl
@[simp] theorem lose_retiring (d : Data) (p : Nat) : (d.lose p).retiring = d.retiring := rfl
@[simp] theorem lose_ctxSeen (d : Data) (p : Nat) : (d.lose p).ctxSeen = d.ctxSeen := rfl
@[simp] theorem lose_engOut (d : Data) (p : Nat) : (d.lose p).engOut = d.engOut := rfl
@[simp] theorem lose_abortPend (d : Data) (p : Nat) : (d.lose p).abortPend = d.abortPend := rfl
@[simp] theorem lose_irqs (d : Data) (p : Nat) : (d.lose p).irqs = d.irqs := rfl
@[simp] theorem lose_halted (d : Data) (p : Nat) : (d.lose p).halted = d.halted := rfl
@[simp] theorem lose_free (d : Data) (p : Nat) : (d.lose p).free = d.free := rfl

/-! `HostSt.emit` -/
@[simp] theorem hostEmit_ha (h : HostSt) (o : Output) : (h.emit o).ha = h.ha := rfl
@[simp] theorem hostEmit_hb (h : HostSt) (o : Output) : (h.emit o).hb = h.hb := rfl
@[simp] theorem hostEmit_fns (h : HostSt) (o : Output) : (h.emit o).fns = h.fns := rfl
@[simp] theorem hostEmit_reqs (h : HostSt) (o : Output) : (h.emit o).reqs = h.reqs := rfl
@[simp] theorem hostEmit_ops (h : HostSt) (o : Output) : (h.emit o).ops = h.ops := rfl
@[simp] theorem hostEmit_out (h : HostSt) (o : Output) : (h.emit o).out = h.out ++ [o] := rfl

/-! `Fabric.setConn` -/
@[simp] theorem setConn_block (f : Fabric) (k : Nat) (c : Conn) : (f.setConn k c).block = f.block := rfl
@[simp] theorem setConn_links (f : Fabric) (k : Nat) (c : Conn) : (f.setConn k c).links = f.links := rfl
@[simp] theorem setConn_bank0 (f : Fabric) (k : Nat) (c : Conn) : (f.setConn k c).bank0 = f.bank0 := rfl
@[simp] theorem setConn_bank1 (f : Fabric) (k : Nat) (c : Conn) : (f.setConn k c).bank1 = f.bank1 := rfl
@[simp] theorem setConn_active (f : Fabric) (k : Nat) (c : Conn) : (f.setConn k c).active = f.active := rfl
@[simp] theorem setConn_lastSwitch (f : Fabric) (k : Nat) (c : Conn) : (f.setConn k c).lastSwitch = f.lastSwitch := rfl
@[simp] theorem setConn_conns (f : Fabric) (k : Nat) (c : Conn) : (f.setConn k c).conns = mput f.conns k c := rfl
@[simp] theorem setConn_heldRx (f : Fabric) (k : Nat) (c : Conn) : (f.setConn k c).heldRx = f.heldRx := rfl

end Sys2Proof.Machine
end

