-- ==== Sys2Proof/WellFormed.lean ====
section
/-! DEFINITION. Well-formed commands: every unit they name exists on an AX8 (01 Table 1, R20, R22; 03 R63). -/

namespace Sys2Proof

/-- An engine of the AX8: courier or gleaner 0-7 of die 0-7, relay 0-7 (07 R221, 09 R288). -/
def EngineId.wf : EngineId → Bool
  | .courier d i | .gleaner d i => decide (d < 8) && decide (i < 8)
  | .relay _ i => decide (i < 8)

/-- The opcodes of 04 Table 4, as ranges. -/
def opcodeRanges : List (Nat × Nat) :=
  [(0x000, 0x007), (0x208, 0x208), (0x020, 0x02F), (0x220, 0x22C), (0x040, 0x044), (0x240, 0x244), (0x060, 0x064), (0x260, 0x264),
   (0x080, 0x081), (0x0A0, 0x0A4), (0x2A0, 0x2A1), (0x0C0, 0x0C7), (0x0E0, 0x0E0), (0x2E0, 0x2E3), (0x0E2, 0x0E6), (0x120, 0x120),
   (0x140, 0x140), (0x160, 0x160), (0x180, 0x187), (0x1A0, 0x1A5), (0x1C0, 0x1C2), (0x1E0, 0x1E3)]

/-- An opcode of 04 Table 4. -/
def opcodeListed (c : Nat) : Bool := opcodeRanges.any fun r => decide (r.1 ≤ c) && decide (c ≤ r.2)

/-- An instruction issue names a core and one of its 96 group slots; an opcode of its own is one that Table 4 does not list. -/
def Issue.wf (x : Issue) : Bool := decide (x.core < 672) && decide (x.slot < 96) && x.code.all fun c => !opcodeListed c.toNat

/-- A function of a host port (12 R343). -/
def Fn.wf : Fn → Bool
  | .pf _ => true
  | .vf _ n => decide (n < 64)

/-- BAR0 bytes that commands of their own read: the counters, the Almanac registers and the pigeonhole windows (12 Tables 2 to 4). -/
def Bar0Read.ownRows (fn : Fn) : List (Nat × Nat) :=
  match fn with
  | .pf _ => [(8, 0x10), (0x20000, 0x20018), (0x30008, 0x3000C), (0x100000, 0x108000)]
  | .vf .. => [(8, 0x10), (0x8008, 0x800C), (0xF000, 0xF018)]

def Fn.bar0Size : Fn → Nat
  | .pf _ => 2 ^ 26
  | .vf .. => 2 ^ 16

/-- A read inside BAR0 that touches no byte which another command reads. -/
def Bar0Read.wf (r : Bar0Read) : Bool :=
  r.fn.wf && match r.part with
    | none => true
    | some (off, len) => decide (1 ≤ len) && decide (off + len ≤ r.fn.bar0Size) &&
        (Bar0Read.ownRows r.fn).all fun x => decide (off + len ≤ x.1) || decide (x.2 ≤ off)

/-- A register write inside BAR0, or of a PF's Resizable BAR control. -/
def RegTarget.wf (t : RegTarget) (fn : Fn) : Bool :=
  match t, fn with
  | .bar0 off, _ => decide (off < fn.bar0Size)
  | .bar2Size, .pf _ => true
  | .bar2Size, .vf .. => false

/-- A unit that a pass tests. -/
def PassUnit.wf : PassUnit → Bool
  | .core c => decide (c < 672)
  | .slice d s => decide (d < 8) && decide (s < 56)
  | .runner k => decide (k < 16)
  | .engine e => e.wf

/-- A rail and one of its phases (14 Table 3). -/
def Rail.wf (r : Rail) (phase : Nat) : Bool :=
  match r with
  | .vcore d => decide (d < 8) && decide (phase < 6)
  | .vsram => decide (phase < 16)
  | .vhbm => decide (phase < 8)
  | .vioN | .vioS => decide (phase < 4)

/-- A package's node number, and a connection class. -/
def connWf (node cls : Nat) : Bool := decide (node < 4096) && decide (cls < 2)

/-- A fabric packet's fields fit 09 Table 6, and its data the port (R271); postmarks follow the data. -/
def Packet.wf (port : Nat) (p : Packet) : Bool :=
  decide (p.dst < 4096) && decide (p.src < 4096) && decide (p.tag < 65536) && decide (p.offset < 2 ^ 40) &&
    decide (p.conn < 2) && decide (p.data.length ≤ if port < 16 then 4096 + (if p.pm then 8 else 0) else 8192 + (if p.pm then 16 else 0))

/-- Well-formed commands. -/
def Instr.wf : Instr → Bool
  | .nop x => x.wf
  | .bra x => x.wf
  | .brx x => x.wf
  | .call x => x.wf
  | .ret x => x.wf
  | .exit x => x.wf
  | .yieldT x => x.wf
  | .isync x => x.wf
  | .trap x => x.wf
  | .iadd x => x.wf
  | .isub x => x.wf
  | .imulLo x => x.wf
  | .imulHi x => x.wf
  | .imad x => x.wf
  | .iand x => x.wf
  | .ior x => x.wf
  | .ixor x => x.wf
  | .shl x => x.wf
  | .shr x => x.wf
  | .sar x => x.wf
  | .imin x => x.wf
  | .imax x => x.wf
  | .popc x => x.wf
  | .clz x => x.wf
  | .brev x => x.wf
  | .fadd x => x.wf
  | .fmul x => x.wf
  | .fma x => x.wf
  | .fmin x => x.wf
  | .fmax x => x.wf
  | .pkAdd x => x.wf
  | .pkMul x => x.wf
  | .pkFma x => x.wf
  | .pkMin x => x.wf
  | .pkMax x => x.wf
  | .cvt x => x.wf
  | .cvtMx x => x.wf
  | .icmp x => x.wf
  | .fcmp x => x.wf
  | .pbool x => x.wf
  | .vote x => x.wf
  | .ballot x => x.wf
  | .rcp x => x.wf
  | .rsq x => x.wf
  | .sqrt x => x.wf
  | .ex2 x => x.wf
  | .lg2 x => x.wf
  | .sin x => x.wf
  | .cos x => x.wf
  | .tanh x => x.wf
  | .mov x => x.wf
  | .movHi x => x.wf
  | .sel x => x.wf
  | .xlane x => x.wf
  | .rdlane x => x.wf
  | .rdsr x => x.wf
  | .bsel x => x.wf
  | .ld x => x.wf
  | .st x => x.wf
  | .atom x => x.wf
  | .fence x => x.wf
  | .barSync x => x.wf
  | .barArrive x => x.wf
  | .barDieArrive x => x.wf
  | .barDieWait x => x.wf
  | .barPkgArrive x => x.wf
  | .barPkgWait x => x.wf
  | .invRemote x => x.wf
  | .mma x => x.wf
  | .accZero x => x.wf
  | .accSt x => x.wf
  | .accLd x => x.wf
  | .accFlags x => x.wf
  | .accClrf x => x.wf
  | .courIssue x => x.wf
  | .gleanIssue x => x.wf
  | .rlyIssue x => x.wf
  | .await x => x.wf
  | .ring x => x.wf
  | .rdbeat x => x.wf
  | .rdclk x => x.wf
  | .activeEntryTimeout core slot => decide (core < 672) && decide (slot < 96)
  | .memResponse _ => true
  | .lateFaultPark core slot => decide (core < 672) && decide (slot < 96)
  | .faultRecordWrite ctx => decide (ctx < 4096)
  | .counterBarrierMet _ die _ => decide (die < 8)
  | .awaitWake core _ => decide (core < 672)
  | .mgmtParkRequest core => decide (core < 672)
  | .mgmtParkRelease core => decide (core < 672)
  | .faultDispositionProcess ctx => decide (ctx < 4096)
  | .threadBlockPlace _ _ => true
  | .arrayInstrStart core _ => decide (core < 672)
  | .arrayMmaComplete core _ => decide (core < 672)
  | .arrayDrainComplete core => decide (core < 672)
  | .satNotice _ => true
  | .nanNotice _ => true
  | .arrayLeaveIdle core => decide (core < 672)
  | .arrayRampStep core => decide (core < 672)
  | .arrayHoldExpiry core => decide (core < 672)
  | .homeLineRequest _ _ => true
  | .hbmFillReturn _ _ => true
  | .hbmRetrainDone channel _ => decide (channel < 512)
  | .hbmScrubRead channel frame _ _ => decide (channel < 512) && decide (frame < 16384)
  | .sliceFlushDone die slice => decide (die < 8) && decide (slice < 56)
  | .engineDescStart eng => eng.wf
  | .engineDescComplete eng => eng.wf
  | .hostBar2Read fn _ _ => fn.wf
  | .hostBar2Write fn _ _ _ => fn.wf
  | .hostWindowReadCompletion _ _ _ => true
  | .phRing fn _ => fn.wf
  | .ctxFault fn _ => fn.wf
  | .phWindowWrite fn _ => fn.wf
  | .phWindowRead fn _ => fn.wf
  | .almanacBeatLowRead rd => rd.fn.wf
  | .almStatusW1c fn _ => fn.wf
  | .bar2UnmappedRead rd => rd.wf
  | .linkEventsRead fn => fn.wf
  | .doorbellRefusedRead fn => fn.wf
  | .registerWrite fn target _ => fn.wf && target.wf fn
  | .letterRing fn slot => fn.wf && decide (slot < 16)
  | .deviceIdentify => true
  | .deviceFloorplan => true
  | .deviceGrade => true
  | .deviceLeaseQuery => true
  | .deviceLeaseHandover => true
  | .plotCreate => true
  | .plotDestroy => true
  | .plotDrain => true
  | .plotDrainRelease => true
  | .plotDrainQuery => true
  | .plotDrainComplete plot => decide (plot < 64)
  | .plotTeardownFinish plot => decide (plot < 64)
  | .ctxCreate => true
  | .ctxRelease => true
  | .memCreate => true
  | .memCreateHostWindow => true
  | .memRelease => true
  | .queueCreate => true
  | .eventCreate => true
  | .graphStore => true
  | .graphLaunch => true
  | .pigeonholeCreate => true
  | .memInvalidate => true
  | .objRetain => true
  | .objRelease => true
  | .powerBudget => true
  | .powerCap => true
  | .powerReasonsCurrent => true
  | .powerReasonsHistory => true
  | .powerEnergyContexts => true
  | .powerEnergySample => true
  | .powerEnergyReadSample => true
  | .healthCalendarSet => true
  | .healthCalendarQuery => true
  | .healthCalendarTestNow => true
  | .testpackBegin => true
  | .testpackData => true
  | .testpackCommit _ => true
  | .testpackAbort => true
  | .testpackQuery => true
  | .healthSuspectList => true
  | .logRead => true
  | .logClear => true
  | .fwUpdateBegin => true
  | .fwUpdateData => true
  | .fwUpdateCommit _ => true
  | .fwUpdateAbort => true
  | .fwActivateLive _ => true
  | .fwActivateAtReset => true
  | .coldResume => true
  | .fabricSurveyQuery => true
  | .fabricSurveySetBlock => true
  | .fabricSurveyResurvey => true
  | .routesStageWrite => true
  | .routesStageDefaultBlock => true
  | .fabricRoutesSwitch => true
  | .fabricGraft => true
  | .fabricPrune => true
  | .almanacRootFollow => true
  | .almanacRootInternal => true
  | .almanacRootPps => true
  | .almanacStatus => true
  | .almanacScheduleAdd => true
  | .almanacScheduleCancel => true
  | .journalConfigure => true
  | .journalRead => true
  | .journalDisable => true
  | .replayStep => true
  | .debugChallenge => true
  | .debugPresent _ => true
  | .debugLock => true
  | .beatEdge _ => true
  | .epochBoundary _ => true
  | .scheduleEntryFire _ _ => true
  | .budgetTakesEffect _ => true
  | .routesSwitchAtBeat _ => true
  | .graftAtBeat _ => true
  | .pruneAtBeat _ => true
  | .telemetrySample _ _ => true
  | .wrappedLetterAtBeat _ => true
  | .budgetExpiry => true
  | .budgetFallback => true
  | .syncCellRx port _ _ _ => decide (port < 18)
  | .almHoldoverTimeout => true
  | .ppsEdge _ => true
  | .ppsTimeout => true
  | .leaseClaim _ _ => true
  | .leaseRenew _ => true
  | .leaseRelease _ => true
  | .leaseExpiry => true
  | .latchCopyMismatch => true
  | .takeover => true
  | .standbyResyncDone _ => true
  | .standbyMirrorTimeout => true
  | .queueEntryClaim queue => decide (queue < 4096)
  | .queueLaunch queue => decide (queue < 4096)
  | .queueWait queue => decide (queue < 4096)
  | .queueSignal queue => decide (queue < 4096)
  | .queueResume queue => decide (queue < 4096)
  | .nodeDispatch _ _ => true
  | .nodeComplete _ _ => true
  | .journalWatchDigest _ _ => true
  | .eventWaiterPoll dispatcher => decide (dispatcher < 8)
  | .passDeferralBegin unit => unit.wf
  | .yieldWindowExpiry core => decide (core < 672)
  | .maxDeferralExpiry unit => unit.wf
  | .corePassStart core _ => decide (core < 672)
  | .corePassPhaseEnd core _ => decide (core < 672)
  | .corePassEnd core => decide (core < 672)
  | .slicePassStart die slice => decide (die < 8) && decide (slice < 56)
  | .slicePassEnd die slice _ => decide (die < 8) && decide (slice < 56)
  | .runnerPassStart port => decide (port < 16)
  | .runnerPassEnd port _ => decide (port < 16)
  | .enginePassStart eng => eng.wf
  | .enginePassEnd eng _ => eng.wf
  | .runnerCellRx port _ cell => decide (port < 16) && decide (cell.word.credits.length = 6)
  | .runnerRetrainDone port _ => decide (port < 16)
  | .glFrameRx port frame => decide (port < 18) && decide (frame.word.credits.length = 6)
  | .linkTrainingComplete port _ => decide (port < 18)
  | .surveyRecordRx port _ _ _ => decide (port < 18)
  | .fabricPacketRx port pkt => decide (port < 18) && pkt.wf port
  | .fabricResponseRx port pkt => decide (port < 18) && pkt.wf port
  | .tackRx node cls _ => decide (node < 4096) && decide (cls < 2)
  | .transportResendTimeout node cls => decide (node < 4096) && decide (cls < 2)
  | .transportAbandon node cls => decide (node < 4096) && decide (cls < 2)
  | .relayDescStart relay => relay.wf
  | .relayDescComplete relay => relay.wf
  | .phaseFailOpen rail phase => rail.wf phase
  | .phaseSenseFail rail phase _ => rail.wf phase
  | .dieFabricUe die => decide (die < 8)
  | .droopDetect die => decide (die < 8)
  | .droopRelease die => decide (die < 8)
  | .thermalThreshold _ _ => true
  | .thermtrip _ _ => true
  | .coolantOkFall => true
  | .coolantOkRise => true
  | .coldStopStart => true
  | .coldStopHalted => true
  | .uvWarning _ => true
  | .uvRecovery _ => true
  | .inputRegStop => true
  | .inputGood => true
  | .inputOvervoltage _ => true
  | .p3v3SbApply => true
  | .p3v3SbLoss => true
  | .modPwrEnRise => true
  | .modPwrEnFall => true
  | .bringupStepEnd _ => true
  | .refclkLoss _ => true
  | .refclkRestore => true
  | .perstAssert _ => true
  | .perstDeassert _ => true
  | .pcieHotReset _ => true
  | .pcieLinkDown _ => true
  | .pcieLinkUp _ _ _ => true
  | .pfFlr _ => true
  | .vfFlr _ vf => decide (vf < 64)
  | .vfEnableClear _ => true
  | .vfEnableSet _ => true
  | .mgLetterMessage _ _ => true
  | .mctpSetEndpointId _ => true
  | .mctpGetEndpointId => true
  | .mctpGetVersionSupport => true
  | .mctpGetMessageTypeSupport => true
  | .mctpGetVendorMsgSupport => true
  | .pldmGetTid => true
  | .pldmGetPldmVersion _ => true
  | .pldmGetPldmTypes => true
  | .pldmGetPldmCommands _ => true
  | .pldmGetPdrRepositoryInfo => true
  | .pldmGetPdr _ => true
  | .pldmGetSensorReading _ => true
  | .pldmGetStateSensorReadings _ => true
  | .i3cSetdasa _ _ => true
  | .i3cEntdaa _ => true
  | .jtagBypass => true
  | .jtagIdcode => true
  | .jtagSamplePreload => true
  | .jtagExtest => true
  | .dbTrstAssert => true
  | .dbUartRx _ => true
  | .cblPrsntChange port _ => decide (port < 18)
  | .cablePowerFault port _ => decide (port < 18)
  | .recordWindowExpiry _ _ _ => true
  | .recordBurstEnd => true
  | .flashLogCopy => true
  | .fecLockLoss port => decide (port < 16)
  | .ioDieFabricUe _ => true
  | .oscillatorStartupDone => true
  | .vfFlrComplete _ vf => decide (vf < 64)
  | .postmasterRestart _ => true
  | .railOutOfRegulation _ => true
  | .scratchCopyDone die slice => decide (die < 8) && decide (slice < 56)
  | .haltingDebug _ => true
  | .scanAccess die => decide (die < 8)

end Sys2Proof
end

