-- ==== Sys2Proof/Tests/Slice0.lean ====
section
/-! SUPPORT. The author's own tests: ill-formed commands are refused, worked results of single steps, and for the statements
with hypotheses a state and operands that meet them. -/

namespace Sys2Proof.Tests

open Sys2Proof Sys2Proof.Machine

set_option Elab.async false

/-- Every test of a list holds. -/
def allOf (l : List Bool) : Bool := l.all id

/-! ### Ill-formed commands -/

/-- A core beyond 671, a group slot beyond 95. -/
theorem test_wf_issue : (Instr.iadd { core := 672, slot := 0, imm := false, f := 0 }).wf = false ∧
    (Instr.iadd { core := 0, slot := 96, imm := false, f := 0 }).wf = false ∧
    (Instr.iadd { core := 671, slot := 95, imm := false, f := 0 }).wf = true ∧
    (Instr.iadd { core := 0, slot := 0, imm := false, f := 0, code := some 0x020 }).wf = false ∧
    (Instr.iadd { core := 0, slot := 0, imm := false, f := 0, code := some 0x008 }).wf = true := by decide

/-- Cores, contexts, dies, slices, channels, frames and queues beyond the last. -/
theorem test_wf_units : (Instr.lateFaultPark 672 0).wf = false ∧ (Instr.faultRecordWrite 4096).wf = false ∧
    (Instr.counterBarrierMet false 8 0).wf = false ∧ (Instr.sliceFlushDone 0 56).wf = false ∧ (Instr.hbmRetrainDone 512 true).wf = false ∧
    (Instr.hbmScrubRead 0 16384 0 .ok).wf = false ∧ (Instr.queueEntryClaim 4096).wf = false ∧ (Instr.eventWaiterPoll 8).wf = false ∧
    (Instr.plotDrainComplete 64).wf = false := by decide

/-- Engines, functions, letter slots and test units that do not exist. -/
theorem test_wf_engines : (Instr.engineDescStart (.courier 8 0)).wf = false ∧ (Instr.engineDescStart (.gleaner 0 8)).wf = false ∧
    (Instr.relayDescStart (.relay true 8)).wf = false ∧ (Instr.phRing (.vf .ha 64) 0).wf = false ∧ (Instr.letterRing (.pf .hb) 16).wf = false ∧
    (Instr.bar2UnmappedRead ⟨.pf .ha, some (4, 5)⟩).wf = false ∧ (Instr.registerWrite (.vf .ha 0) .bar2Size []).wf = false ∧
    (Instr.passDeferralBegin (.core 672)).wf = false ∧ (Instr.passDeferralBegin (.slice 8 0)).wf = false ∧
    (Instr.passDeferralBegin (.runner 16)).wf = false ∧ (Instr.passDeferralBegin (.engine (.courier 0 8))).wf = false := by decide

/-- What a cell says that only acknowledges. -/
def word0 : LinkWord := { ack := 0, replay := false, credits := [0, 0, 0, 0, 0, 0] }

/-- Ports, rails, nodes and classes that do not exist; a cell without its six credit counts. -/
theorem test_wf_ports : (Instr.syncCellRx 18 ⟨0, 0, 0, 0, 0, 0, true⟩ 0 true).wf = false ∧ (Instr.runnerCellRx 16 0 ⟨true, word0⟩).wf = false ∧
    (Instr.runnerCellRx 15 0 ⟨true, word0⟩).wf = true ∧ (Instr.runnerCellRx 15 0 ⟨true, { word0 with credits := [] }⟩).wf = false ∧
    (Instr.phaseFailOpen (.vcore 0) 6).wf = false ∧ (Instr.phaseFailOpen (.vcore 8) 0).wf = false ∧ (Instr.phaseFailOpen .vhbm 8).wf = false ∧
    (Instr.phaseFailOpen .vsram 16).wf = false ∧ (Instr.phaseFailOpen .vioN 4).wf = false ∧ (Instr.tackRx 4096 0 0).wf = false ∧
    (Instr.tackRx 0 2 0).wf = false ∧ (Instr.vfFlr .ha 64).wf = false ∧ (Instr.cblPrsntChange 18 true).wf = false ∧
    (Instr.scanAccess 8).wf = false := by decide

/-- A packet for a node beyond 4,095; one with more data than a runner's cells carry. -/
theorem test_wf_packet : (Instr.fabricPacketRx 0 ⟨1, false, false, false, false, false, false, 4096, 0, 0, 0, 8, 0, 0, 0, 8, 0, 0, 0, 0, [], []⟩).wf =
    false ∧
    (Instr.fabricPacketRx 0 ⟨9, false, false, false, false, false, false, 1, 0, 0, 0, 8, 0, 0, 0, 8, 0, 0, 0, 0, [], List.replicate 4097 0⟩).wf = false ∧
    (Instr.fabricPacketRx 16 ⟨9, false, false, false, false, false, false, 1, 0, 0, 0, 8, 0, 0, 0, 8, 0, 0, 0, 0, [], List.replicate 4097 0⟩).wf = true := by
  decide +kernel

/-- No word of the table spells a command. -/
theorem test_no_words : decodeTableWord 0 0 = none ∧ decodeTableWord 64 5 = none := by decide

/-! ### A thread block with one group on core 0 -/

/-- A word of the REG format by its fields (04 Table 1), for the group in slot 0 of core 0. -/
def word (dest s1 s2 s3 md dsp sp1 sp2 sp3 : Nat) : Issue :=
  { core := 0, slot := 0, imm := false,
    f := BitVec.ofNat 54 (dest * 2 ^ 42 + s1 * 2 ^ 34 + s2 * 2 ^ 26 + s3 * 2 ^ 18 + md * 2 ^ 8 + dsp * 64 + sp1 * 16 + sp2 * 4 + sp3) }

/-- A word of the IMM format with a zero immediate. -/
def wordImm (dest s1 : Nat) : Issue := { word dest s1 0 0 0 0 0 0 0 with imm := true }

/-- A memory object of one stripe at base 0, its frames the first of each near channel. -/
def obj0 : MemObj :=
  { base := 0, plot := 0, size := 2 ^ 22, package := false, nearDie := 0, postmark := false, stream := false,
    stripes := [(List.range 64).map fun c => 16384 * c], side := [], marks := [], hostCount := 1 }

def plot0 : Plot :=
  { st := .active, drainedBeat := 0, tallyOff := false, vf := none, tag := 7, mem := [0], pruned := [], maxCtx := 4, events := 16, graphs := 4,
    ph := (0, 8), dbar := (0, 16), pbar := (0, 16), cores := [0, 1], cache := [0], scratch := [1], frames := [(0, 2)], reply := none }

def ctx0 : Ctx :=
  { plot := 0, forerunner := false, wdAction := false, wdEpochs := 0, ringLog2 := 4, ring := 0x1000, progress := 0x2000, faultEvent := 0x2040,
    hostCount := 1, writeSeq := 0, freeSeq := 0, rung := false, held := [], posted := [], launchSeq := 0, sample := [0, 0, 0, 0, 0],
    still := 0, lastAdvance := 0, stalled := false }

/-- Pigeonhole 0 is a queue, 1 is not; their rings lie in the object. -/
def queue0 : Queue := { disp := 0, hostCount := 1, running := true, entry := none, launch := none }
def ph0 : Pigeon := { ctx := 0, ring := 0x4000, log2 := 4, hostCount := 1, queue := some queue0 }
def ph1 : Pigeon := { ctx := 0, ring := 0x8000, log2 := 4, hostCount := 1, queue := none }
def event0 : Event := { ctx := 0, addr := 0x2080, vector := 0xFFFF, hostCount := 1, fired := none }

def kernel0 : GNode :=
  { kind := 1, array := true, detached := false, fenceOn := false, traps := 0, groups := 1, regs := 16, copyDie := 0, phaseTag := 0,
    bench := 2048, blocks := 4, target := 0x400000, value := 0, slip := 0, fenceEvent := 0, fenceValue := 0, npred := 0, succs := [] }
def graph0 : Graph := { ctx := 0, nodes := [kernel0], snap := 0x20000, hostCount := 1, frames := [], lastBank := 1, banks := [] }

def block0 : Block :=
  { launch := 1, node := 0, index := 0, grid := 4, groups := 1, regsAlloc := 16, bench := [0, 1], usesArray := true, entry := 0x400000, slip := 0,
    ctx := 0, plot := 0, traps := 0, detached := false, age := 0, bars := [] }

/-- The group: u10 and u11 hold address 0x3000, u12 a count of 2, u13 the number 1, u14 and u15 the first byte of its own bench region, u16 on a
descriptor of `acc.st` and `acc.ld`, u24 on one of `mma`. -/
def group0 : Group := { startGroup block0 0 0 0 with
  u := [(10, 0x3000), (12, 2), (13, 1), (14, 0x20000000), (15, 0x80), (17, 1), (21, 128), (22, 257), (26, 8)] }
def core0 : Core := { Core.empty with groups := [(0, group0)], blocks := [(0, block0)], nextAge := 1, claim := some (1, 0) }

def launch1 : Launch :=
  { queue := 0, graph := 0, ctx := 0, rep := 1, iter := 0, bank := 0,
    nodes := [(0, { st := .dispatched, grid := 4, placed := 1, ended := 0, slip := 0, engine := none, aborted := false })],
    open_ := true, signal := false, stopOnFail := false, event := 0, value := 0, record := 0, seq := 0, startBeat := 0, okIters := 0,
    failedNode := none, failCause := 0, failDetail := 0, aborted := false, nan := 0, sat := 0, nanFirst := false, satFirst := false, run := 0,
    disabled := 0, cancelled := 0, faults := 0, nanNotice := none, satNotice := none, digests := [], itBeat := 0, itNan := 0, itSat := 0,
    itFaults := 0, colls := [], jgen := none, replay := false }

def data0 : Data := { Data.reset with
  halted := false, nextId := 2, cores := [(0, core0)], objs := [obj0], ctxs := [(0, ctx0)], events := [(0, event0)],
  pigeons := [(0, ph0), (1, ph1)], graphs := [(0, graph0)], launches := [(1, launch1)], plots := [(0, plot0)] }

/-- A module that is READY: North holds the lease, South is in standby, the Almanac is locked as root, HA's link is up. -/
def body0 : Body := { Body.reset with
  data := data0
  mg := { Mgmt.reset with nSt := .holder, sSt := .standbyReady }
  host := { HostSt.reset with ha := { HostPortSt.reset with up := true, perst := false, vfEnable := true } }
  md := { Module.reset with state := 2, step := 12, modPg := true, generation := 1, plan := List.replicate 9 [] } }

def s0 : State :=
  { pending := []
    alm := { Almanac.reset with beat := 5000000, st := .locked, mode := .internal }
    latch := { Latch.reset with holder := some .north, last := some .north, gen := 1, remaining := 40000 }
    body := body0 }

/-- The same, with another data plane. -/
def withD (d : Data) : State := { s0 with body := { body0 with data := d } }

/-- Whether nothing is due in a state, by parts. -/
def settledB (s : State) : Bool :=
  s.body.quiet && (mfilter s.body.sj fun c _ => (mget s.body.data.ctxs c).isSome) == s.body.sj && s.body.planParts == s.body.md.plan &&
    s.body.data.posts.isEmpty && s.body.data.corrected.isEmpty

theorem settledB_settled {s : State} (h : settledB s = true) : s.finish = s := by
  simp only [settledB, Bool.and_eq_true, beq_iff_eq, List.isEmpty_iff] at h
  exact finish_settled h.1.1.1.1 h.1.1.1.2 h.1.1.2 h.1.2 h.2

/-- The state is one in which nothing is due, which `Leaves`, `Makes`, `Does` and `Acts` suppose. -/
theorem wit_settled : s0.finish = s0 ∧ s0.body.quiet = true ∧ s0.acting = true ∧ s0.gate = true :=
  ⟨settledB_settled (by decide +kernel), by decide +kernel, by decide +kernel, by decide +kernel⟩

def readyB (sp : OpSpec) (s : State) (x : Issue) : Bool :=
  match issueCtx s.body.data s.alm.beat x with
  | none => false
  | some q => !illegal sp x && !(sp.wide x && q.on == 0 && Issue.guard x != 0) && !(sp.refs x).any (refBeyond q.b.regsAlloc) && fetchOk sp (atIssue s q) q &&
      !((sp.refs x).any fun r => (s.body.data.pending q.c q.s q.k q.g).any (refMeets r)) && !(sp.mem && s.body.data.acquiring q.c q.s q.g)

/-- What `Ready` asks, by evaluation. -/
theorem readyB_ready {sp : OpSpec} {s : State} {x : Issue} (h : readyB sp s x = true) : ∃ q, Ready sp s x q := by
  unfold readyB at h
  split at h
  · cases h
  · rename_i q hq
    simp only [Bool.and_eq_true, Bool.not_eq_true'] at h
    exact ⟨q, hq, h.1.1.1.1.1, h.1.1.1.1.2, h.1.1.1.2, h.1.1.2, h.1.2, h.2⟩

/-- Every integer, move, lane, predicate and floating-point instruction has a word that is ready. -/
theorem wit_ready_computing : (∀ e ∈ ([(specIadd, word 3 0 1 0 0 0 0 0 0), (specIsub, word 3 0 1 0 0 0 0 0 0), (specImulLo, word 3 0 1 0 0 0 0 0 0),
    (specImulHi, word 3 0 1 0 1 0 0 0 0), (specImad, word 3 0 1 2 0 0 0 0 0), (specIand, wordImm 3 0), (specIor, wordImm 255 0),
    (specIxor, word 3 10 12 0 0 1 1 1 0), (specShl, word 3 0 1 0 0 0 0 0 0), (specShr, word 3 0 1 0 0 0 0 0 0), (specSar, word 3 0 1 0 0 0 0 0 0),
    (specImin, word 3 0 1 0 1 0 0 0 0), (specImax, word 3 0 1 0 0 0 0 0 0), (specPopc, word 3 0 0 0 0 0 0 0 0), (specClz, word 3 0 0 0 0 0 0 0 0),
    (specBrev, word 3 0 0 0 0 0 0 0 0), (specMov, wordImm 3 0), (specMovHi, wordImm 3 0), (specSel, word 3 0 1 2 0 0 0 0 2),
    (specXlane, word 3 0 1 0 3 0 0 0 0), (specRdlane, word 20 0 31 0 0 1 0 0 0), (specRdsr, word 3 0 0 0 2 0 0 0 0), (specBallot, word 20 1 0 0 0 1 2 0 0),
    (specBsel, word 3 0 1 2 0 0 0 0 0), (specIcmp, word 1 0 1 0 9 2 0 0 0), (specFcmp, word 1 0 1 0 7 2 0 0 0), (specPbool, word 1 2 3 0 31 2 2 2 0),
    (specVote, word 1 2 0 0 2 2 2 0 0), (specFadd, word 3 0 1 0 0 0 0 0 0), (specFmul, word 3 0 1 0 0 0 0 0 0), (specFma, word 3 0 1 2 0 0 0 0 0),
    (specFmin, word 3 0 1 0 0 0 0 0 0), (specFmax, word 3 0 1 0 0 0 0 0 0), (specPkAdd, word 3 0 1 0 0 0 0 0 0), (specPkMul, word 3 0 1 0 0 0 0 0 0),
    (specPkFma, word 3 0 1 2 0 0 0 0 0), (specPkMin, word 3 0 1 0 0 0 0 0 0), (specPkMax, word 3 0 1 0 0 0 0 0 0), (specRcp, word 3 0 0 0 0 0 0 0 0),
    (specRsq, word 3 0 0 0 0 0 0 0 0), (specSqrt, word 3 0 0 0 0 0 0 0 0), (specEx2, word 3 0 0 0 0 0 0 0 0), (specLg2, word 3 0 0 0 0 0 0 0 0),
    (specSin, word 3 0 0 0 0 0 0 0 0), (specCos, word 3 0 0 0 0 0 0 0 0), (specTanh, word 3 0 0 0 0 0 0 0 0),
    (specCvt, word 3 0 0 0 (64 + 2 * 4) 0 0 0 0), (specCvtMx, word 3 0 0 20 (6 * 4) 0 0 0 1)] : List (OpSpec × Issue)), readyB e.1 s0 e.2 = true) := by
  decide +kernel

/-- Every control, memory, synchronisation, array and engine instruction has a word that is ready. -/
theorem wit_ready_others : (∀ e ∈ ([(specNop, word 0 0 0 0 0 0 0 0 0), (specBra, word 0 0 0 0 0 0 0 0 1), (specBrx, word 0 10 0 0 0 0 0 0 0), (specCall, word 20 0 0 0 0 0 0 0 0),
    (specRet, word 0 10 0 0 0 0 0 0 0), (specExit, word 0 0 0 0 0 0 0 0 0), (specYieldT, word 0 0 0 0 0 0 0 0 0), (specIsync, word 0 0 0 0 0 0 0 0 0),
    (specTrap, wordImm 0 0), (specLd, word 3 10 0 0 0 0 0 0 0), (specSt, word 3 10 0 0 0 0 0 0 0), (specAtom, word 3 10 4 0 0 0 0 0 0),
    (specFence, word 0 0 0 0 1 0 0 0 0), (specBarSync, word 0 3 0 0 0 0 0 0 0), (specBarArrive, word 0 3 0 0 0 0 0 0 0),
    (specBarDieArrive, word 0 12 13 0 0 0 0 0 0), (specBarDieWait, word 0 12 13 0 0 0 0 0 0), (specBarPkgArrive, word 0 12 13 0 0 0 0 0 0),
    (specBarPkgWait, word 0 12 13 0 0 0 0 0 0), (specInvRemote, word 0 10 12 0 0 0 0 0 0), (specMma, word 0 16 17 0 0 0 0 0 0),
    (specAccZero, word 1 0 0 0 0 0 0 0 0), (specAccSt, word 0 1 16 0 0 0 0 0 0), (specAccLd, word 1 16 0 0 0 0 0 0 0), (specAccFlags, word 20 1 0 0 0 0 0 0 0),
    (specAccClrf, word 0 1 0 0 0 0 0 0 0), (engSpec 0, word 0 10 0 8 0 0 0 0 0), (engSpec 1, word 0 10 0 0 0 0 0 0 0), (engSpec 2, word 0 10 0 0 0 0 0 0 0),
    (specAwait, word 0 13 12 0 0 0 0 0 0), (specRing, word 0 13 0 0 0 0 0 0 0), (specRdbeat, word 20 0 0 0 0 0 0 0 0), (specRdclk, word 20 0 0 0 0 0 0 0 0)] :
    List (OpSpec × Issue)), readyB e.1 s0 e.2 = true) := by
  decide +kernel

/-! ### Letters that are taken -/

/-- A letter of port HA's PF in slot 0, its arguments given as offset, width and value; LENGTH is where the last ends. -/
def mk (op : Nat) (args : List (Nat × Nat × Nat)) : Letter :=
  let n := args.foldl (fun m a => max m (a.1 + a.2.1)) 0
  { bytes := natLe 2 op ++ [0, 0] ++ natLe 2 n ++ List.replicate 26 0 ++
      natLe n (args.map fun a => a.2.2 % 256 ^ a.2.1 * 256 ^ a.1).sum ++ List.replicate (224 - n) 0,
    stamp := 1, fn := some (.pf .ha), slot := 0, gen := 0, ringBeat := 0 }

/-- The same letter, of MG. -/
def mkMg (op : Nat) (args : List (Nat × Nat × Nat)) : Letter := { mk op args with stamp := 3, fn := none }

/-- The state with that letter alone in the acceptance queue. -/
def withLetter (s : State) (l : Letter) : State := s.mg fun m => { m with accept := [l] }

def atFrontB (i : Instr) (s : State) (l : Letter) : Bool :=
  settledB s && s.acting && s.body.mg.accept == [l] && letterIs i l && hasRow l

theorem atFrontB_atFront {i : Instr} {s : State} {l : Letter} (h : atFrontB i s l = true) : AtFront i s l := by
  simp only [atFrontB, Bool.and_eq_true, beq_iff_eq] at h
  obtain ⟨⟨⟨⟨h1, h2⟩, h3⟩, h4⟩, h5⟩ := h
  exact { settled := settledB_settled h1, acting := h2, front := ⟨[], h3, by simp⟩, own := h4, known := h5 }

def frontB (i : Instr) (s : State) (l : Letter) : Bool :=
  atFrontB i s l && (mget s.body.mg.nextSeq l.stamp).isNone && (refusal (taken s l) l).isNone && !s.body.mg.plotBusy l

theorem frontB_front {i : Instr} {s : State} {l : Letter} (h : frontB i s l = true) : Front i s l := by
  simp only [frontB, Bool.and_eq_true, Option.isNone_iff_eq_none, Bool.not_eq_true'] at h
  exact { toAtFront := atFrontB_atFront h.1.1.1, seq := .inl h.1.1.2, checks := h.1.2, free := h.2 }

/-- The letter is taken by its command from that state, and `ok` holds of the state in which it has been taken. -/
def wits (s : State) (i : Instr) (l : Letter) (ok : State → Letter → Bool) : Bool :=
  frontB i (withLetter s l) l && ok (taken (withLetter s l) l) l

/-- What an evaluated `wits` says. -/
theorem wits_front {s : State} {i : Instr} {l : Letter} {ok : State → Letter → Bool} (h : wits s i l ok = true) :
    Front i (withLetter s l) l ∧ ok (taken (withLetter s l) l) l = true := by
  simp only [wits, Bool.and_eq_true] at h
  exact ⟨frontB_front h.1, h.2⟩

def withPlot (p : Plot) : State := withD { data0 with plots := [(0, p)] }

/-- Cores 84 and 85, a cache slice of die 1, no memory. -/
def createArgs : List (Nat × Nat × Nat) := [(0, 1, 5), (2, 1, 255), (4, 2, 9), (6, 2, 2), (8, 4, 2), (12, 2, 2), (16, 2, 8), (18, 2, 2), (20, 2, 16), (22, 2, 4),
  (24, 2, 16), (26, 2, 4), (33, 1, 1), (80 + 12, 12, 3)]

/-- The frame that a channel with one free frame gives, whichever the device prefers. -/
def pickB (d : Data) (p : Plot) (used : List Nat) (ch : Nat) : Option Nat :=
  match freeFrames d p used ch with
  | [f] => some f
  | _ => none

theorem pickB_pick {d : Data} {p : Plot} {used : List Nat} {ch f : Nat} (k : Nat) (h : pickB d p used ch = some f) :
    pickFrame d p used k ch = some f := by
  unfold pickB at h
  split at h
  · rename_i g hg
    cases h
    simp [pickFrame, hg, Nat.mod_one]
  · cases h

/-- Whether a stripe finds a frame on each of its channels, each with one free frame. -/
def stripeB (d : Data) (p : Plot) : Taking → List Nat → Option (List Nat × Taking)
  | t, [] => some ([], t)
  | t, ch :: chs =>
    match chanUp d ch, pickB d p t.used ch with
    | true, some f => (stripeB d p { used := f :: t.used, subs := t.subs, k := t.k + 1 } chs).map fun r => (f :: r.1, r.2)
    | _, _ => none

theorem stripeB_take {d : Data} {p : Plot} : ∀ (l : List Nat) (t : Taking), (stripeB d p t l).isSome = true → takeStripe d p t l = stripeB d p t l
  | [], _, _ => rfl
  | ch :: chs, t, h => by
    unfold stripeB at h ⊢
    unfold takeStripe
    cases hc : chanUp d ch <;> simp only [hc] at h ⊢
    · cases h
    cases hp : pickB d p t.used ch <;> simp only [hp] at h ⊢
    · cases h
    · rename_i f
      simp only [pickB_pick t.k hp, ↓reduceIte]
      rw [stripeB_take chs _ (by simpa using h)]

theorem wit_PlotLetters :
    allOf [
    wits s0 .plotCreate (mk 0x0201 createArgs) fun s l =>
      decide (s.body.mgdb.grants < 4) && (mget s.body.data.plots 5).isNone && (plotBad s l ++ plotUsed s l).all fun c => c.ok,
    wits { s0 with body := { body0 with mgdb := { body0.mgdb with grants := 4 } } } .plotCreate (mk 0x0201 createArgs) fun s _ => decide (4 ≤ s.body.mgdb.grants),
    wits s0 .plotCreate (mk 0x0201 ((0, 1, 0) :: createArgs.tail)) fun s l => (mget s.body.data.plots (l.arg 0 1)).isSome,
    wits s0 .plotDrain (mk 0x0203 [(1, 1, 1)]) fun s _ => (mget s.body.data.plots 0) == some plot0,
    wits (withPlot { plot0 with st := .drained }) .plotDrain (mk 0x0203 [(1, 1, 1)]) fun _ _ => true,
    wits (withPlot { plot0 with st := .draining }) .plotDrainRelease (mk 0x0203 [(1, 1, 2)]) fun _ _ => true,
    wits s0 .plotDrainQuery (mk 0x0203 [(1, 1, 3)]) fun _ _ => true,
    wits s0 .plotDestroy (mk 0x0202 [(1, 1, 1)]) fun s l => mget s.body.data.plots 0 == some plot0 && l.arg 1 1 == 1,
    wits s0 .plotDestroy (mk 0x0202 [(0, 1, 63)]) fun s l => (mget s.body.data.plots (l.arg 0 1)).isNone,
    settledB (withPlot { plot0 with st := .draining }) && !plotAtRest (withPlot { plot0 with st := .draining }).body.data 0 plot0,
    (let s := withD { data0 with plots := [(0, { plot0 with st := .draining })], cores := [] }; settledB s && plotAtRest s.body.data 0 plot0),
    settledB (withPlot { plot0 with st := .destroying }) && (withPlot { plot0 with st := .destroying }).body.mg.journal.isEmpty,
    (let l := mk 0x0202 [(1, 1, 1)]
      let e : JEntry := { jid := 0, letter := l, acceptBeat := 0, reply := none, ticket := 0, reexec := false, waiters := [] }
      let s := withLetter (s0.mg fun m => { m with journal := [e], nextJid := 1 }) l
      atFrontB .plotDestroy s l && (mget s.body.mg.nextSeq l.stamp).isNone && (refusal (taken s l) l).isNone && s.body.mg.plotBusy l),
    plotDescs data0 0 0 144 == 0,
    data0.reqs == [],
    (plot0.cores.all fun c => (data0.core c).pass == .none)] = true := by
  decide +kernel

theorem wit_ObjectLetters :
    allOf [
    wits s0 .ctxCreate (mk 0x0301 [(3, 1, 4), (8, 8, 0x40000), (16, 8, 0x50000), (24, 8, 0x50040), (32, 2, 0xFFFF)]) fun s l =>
      let d := s.body.data
      coversObj d 0 (l.arg 8 8) 1088 && coversObj d 0 (l.arg 16 8) 64 && coversObj d 0 (l.arg 24 8) 16 && writable d 0 (l.arg 8 8) 64 &&
        writable d 0 (l.arg 16 8) 64 && writable d 0 (l.arg 24 8) 16 && freeKey d.ctxs 4096 == some 1 && freeKey d.events 65536 == some 1 &&
        decide (plotEvents d 0 < 16),
    wits s0 .ctxCreate (mk 0x0301 [(0, 1, 63), (3, 1, 16), (32, 2, 0xFFFF)]) fun s l => (mget s.body.data.plots (l.arg 0 1)).isNone,
    wits s0 .eventCreate (mk 0x0306 [(2, 2, 0xFFFF), (8, 8, 0x50040)]) fun s l =>
      coversObj s.body.data 0 (l.arg 8 8) 16 && writable s.body.data 0 (l.arg 8 8) 16 && freeKey s.body.data.events 65536 == some 1,
    wits s0 .eventCreate (mk 0x0306 [(0, 2, 4095), (2, 2, 0xFFFF)]) fun s l => (mget s.body.data.ctxs (l.arg 0 2)).isNone,
    wits s0 .pigeonholeCreate (mk 0x0309 [(2, 1, 4), (8, 8, 0x40000)]) fun s l =>
      coversObj s.body.data 0 (l.arg 8 8) 1088 && writable s.body.data 0 (l.arg 8 8) 1088 &&
        ((List.range 8).find? fun i => (mget s.body.data.pigeons i).isNone) == some 2,
    wits s0 .queueCreate (mk 0x0305 [(2, 2, 1), (4, 1, 255)]) fun s l => mget s.body.data.pigeons (l.arg 2 2) == some ph1 && s.body.md.dispOut.isEmpty,
    wits s0 .memCreate (mk 0x0303 [(1, 1, 1), (8, 8, 1)]) fun s _ =>
      let d := s.body.data
      lowestFit (d.objs.map fun o => (o.base, o.size)) (2 ^ 22) (2 ^ 22) 0 (2 ^ 39) == some (2 ^ 22) &&
        (stripeB d plot0 { used := usedFrames d, subs := [], k := d.free } (stripeChans false 0)).isSome,
    wits s0 .memCreateHostWindow (mk 0x0303 [(1, 1, 2), (8, 8, 2 ^ 21), (16, 8, 0x40000)]) fun s l =>
      let d := s.body.data
      coversObj d 0 (l.arg 16 8) 8 && readable d 0 (l.arg 16 8) 8 && leNat ((d.devRead 0 (l.arg 16 8) 8).getD []) % 4096 == 0 &&
        lowestFit [] (2 ^ 21) (2 ^ 21) 0xC000000000 (0xC000000000 + 2 ^ 37) == some 0xC000000000,
    wits s0 .memInvalidate (mk 0x030A [(8, 8, 128), (16, 8, 128)]) fun _ _ => true,
    wits s0 .objRetain (mk 0x030B [(0, 1, 1)]) fun s l => (objCounts s.body.data (l.arg 0 1) (l.arg 4 4) (l.arg 8 8)).map (fun c => c.1) == some 1 &&
      !objGone s.body.data (l.arg 0 1) (l.arg 4 4) (l.arg 8 8),
    wits (withPlot { plot0 with st := .destroying }) .objRetain (mk 0x030B [(0, 1, 1)]) fun s l =>
      (objCounts s.body.data (l.arg 0 1) (l.arg 4 4) (l.arg 8 8)).isSome && objGone s.body.data (l.arg 0 1) (l.arg 4 4) (l.arg 8 8),
    wits s0 .objRelease (mk 0x030C [(0, 1, 5)]) fun s l => (objCounts s.body.data (l.arg 0 1) (l.arg 4 4) (l.arg 8 8)).map (fun c => c.1) == some 1,
    wits s0 .memRelease (mk 0x0304 [(0, 1, 2)]) fun s l => (objCounts s.body.data 2 0 (l.arg 8 8)).map (fun c => c.1) == some 1,
    wits s0 .ctxRelease (mk 0x0302 [(0, 1, 1)]) fun s l => mget s.body.data.ctxs (l.arg 4 4) == some ctx0,
    wits s0 .ctxRelease (mk 0x0302 [(0, 1, 1), (4, 4, 1)]) fun s l => (mget s.body.data.ctxs (l.arg 4 4)).isNone,
    wits (withD { data0 with events := [(0, { event0 with hostCount := 0 })] }) .objRetain (mk 0x030B [(0, 1, 5)]) fun s l =>
      (objCounts s.body.data (l.arg 0 1) (l.arg 4 4) (l.arg 8 8)).map (fun c => c.1) == some 0] = true := by
  decide +kernel

/-- The stripe that `memCreate` above asks for is found. -/
theorem wit_stripe (t : Taking) (h : (stripeB data0 plot0 { t with subs := [] } (stripeChans false 0)).isSome = true) :
    (takeStripes data0 plot0 false 0 1 t).isSome = true := by
  simp only [takeStripes, stripeB_take _ _ h]
  split <;> simp_all

def withMg (f : Mgmt → Mgmt) : State := s0.mg f
def withFlash (f : Flash) : State := { s0 with body := { body0 with flash := f } }
def withHl (h : Health) : State := { s0 with body := { body0 with hl := h } }
def withPw (p : Power) : State := { s0 with body := { body0 with pw := p } }
def withAlm (f : Almanac → Almanac) : State := { s0 with alm := f s0.alm }
def withFab (f : Fabric) : State := { s0 with body := { body0 with fab := f } }

/-- An upload by port HA of 16 bytes, all of which have come. -/
def upload0 : Upload := { stamp := 1, total := 16, data := (List.range 16).map fun i => (i, 0) }
def packOk : PackVerdict := ⟨true, 1, true, [3], 1000⟩
def image0 : ImageVerdict := ⟨true, 2, true⟩
/-- Flash with an image in the inactive slots. -/
def flash0 : Flash := { Flash.factory with polmen := { Slots.factory with bValid := true }, tordy := { Slots.factory with bValid := true } }

theorem wit_DeviceLetters :
    allOf [
    wits s0 .deviceIdentify (mk 0x0101 []) fun _ _ => true,
    wits s0 .deviceFloorplan (mk 0x0102 []) fun s l => decide (l.arg 0 4 ≤ 416 + 4 * (planFrames s.body.data).length),
    wits s0 .deviceGrade (mk 0x0103 []) fun _ _ => true,
    wits s0 .deviceLeaseQuery (mk 0x0104 [(0, 1, 1)]) fun _ _ => true,
    wits s0 .deviceLeaseHandover (mk 0x0104 [(0, 1, 2)]) fun s _ => standbyReady s,
    wits (withMg fun m => { m with sSt := .off }) .deviceLeaseHandover (mk 0x0104 [(0, 1, 2)]) fun s _ => !standbyReady s,
    wits s0 .healthCalendarSet (mk 0x0501 [(0, 1, 1), (1, 1, 1), (3, 1, 1), (8, 8, 3600000000)]) fun _ _ => true,
    wits s0 .healthCalendarQuery (mk 0x0501 [(0, 1, 2), (1, 1, 4)]) fun s l => mget s.body.hl.cals (l.arg 1 1) == some (Calendar.default 4),
    wits s0 .healthCalendarTestNow (mk 0x0501 [(0, 1, 3), (1, 1, 1)]) fun s l => unitExists s.body (l.arg 1 1) (l.arg 4 4) && s.body.hl.passes.isEmpty,
    wits s0 .healthCalendarTestNow (mk 0x0501 [(0, 1, 3), (1, 1, 1), (4, 4, 8)]) fun s l => !unitExists s.body (l.arg 1 1) (l.arg 4 4),
    wits s0 .healthSuspectList (mk 0x0503 []) fun _ _ => true,
    wits s0 .logRead (mk 0x0601 [(8, 1, 1)]) fun _ _ => true,
    wits s0 .logClear (mk 0x0602 []) fun _ _ => true,
    wits s0 .testpackBegin (mk 0x0502 [(0, 1, 1), (4, 4, 16)]) fun s _ => s.body.mg.upPack == none,
    wits (withMg fun m => { m with upPack := some { upload0 with stamp := 2 } }) .testpackBegin (mk 0x0502 [(0, 1, 1), (4, 4, 16)]) fun _ _ => true,
    wits (withMg fun m => { m with upPack := some upload0 }) .testpackData (mk 0x0502 [(0, 1, 2), (12, 2, 16)]) fun _ l => decide (l.arg 8 4 + l.arg 12 2 ≤ 16),
    wits s0 .testpackData (mk 0x0502 [(0, 1, 2), (12, 2, 1)]) fun s _ => s.body.mg.upPack == none,
    wits (withMg fun m => { m with upPack := some upload0 }) (.testpackCommit packOk) (mk 0x0502 [(0, 1, 3)]) fun s _ =>
      upload0.data.length == upload0.total && decide (s.body.hl.packVersion < packOk.version),
    wits s0 (.testpackCommit packOk) (mk 0x0502 [(0, 1, 3)]) fun s _ => s.body.mg.upPack == none,
    wits s0 .testpackAbort (mk 0x0502 [(0, 1, 4)]) fun _ _ => true,
    wits s0 .testpackQuery (mk 0x0502 [(0, 1, 5)]) fun _ _ => true,
    wits s0 .fwUpdateBegin (mk 0x0701 [(0, 1, 1), (1, 1, 1), (4, 4, 16)]) fun s l => l.arg 1 1 == 1 && s.body.mg.upPolmen == none,
    wits s0 .fwUpdateBegin (mk 0x0701 [(0, 1, 1), (1, 1, 2), (4, 4, 16)]) fun s l => l.arg 1 1 == 2 && s.body.mg.upTordy == none,
    wits (withMg fun m => { m with upPolmen := some upload0 }) .fwUpdateData (mk 0x0701 [(0, 1, 2), (1, 1, 1), (12, 2, 16)]) fun _ l => l.arg 1 1 == 1,
    wits s0 .fwUpdateData (mk 0x0701 [(0, 1, 2), (1, 1, 2), (12, 2, 16)]) fun s l => upload s.body.mg (l.arg 1 1) == none,
    wits (withMg fun m => { m with upPolmen := some upload0 }) (.fwUpdateCommit image0) (mk 0x0701 [(0, 1, 3), (1, 1, 1)]) fun _ l => l.arg 1 1 == 1,
    wits s0 (.fwUpdateCommit image0) (mk 0x0701 [(0, 1, 3), (1, 1, 1)]) fun s l => upload s.body.mg (l.arg 1 1) == none,
    wits s0 .fwUpdateAbort (mk 0x0701 [(0, 1, 4), (1, 1, 1)]) fun _ _ => true,
    wits (withFlash flash0) .fwActivateAtReset (mk 0x0702 [(0, 1, 2), (1, 1, 2)]) fun s l => (s.body.flash.slots (l.arg 0 1)).spare.1,
    wits s0 .fwActivateAtReset (mk 0x0702 [(0, 1, 2), (1, 1, 2)]) fun s l => !(s.body.flash.slots (l.arg 0 1)).spare.1,
    wits (withFlash flash0) (.fwActivateLive true) (mk 0x0702 [(0, 1, 1), (1, 1, 1)]) fun s _ => standbyReady s && s.body.flash.polmen.sameJournal && s.body.flash.polmen.spare.1,
    wits s0 (.fwActivateLive true) (mk 0x0702 [(0, 1, 2), (1, 1, 1)]) fun _ l => l.arg 0 1 == 2,
    wits (withFlash flash0) (.fwActivateLive false) (mk 0x0702 [(0, 1, 1), (1, 1, 1)]) fun s _ => s.body.mg.sSt == .standbyReady && s.latch.holder == some .north &&
      s.body.flash.polmen.sameJournal && s.body.flash.polmen.spare.1,
    wits (withMg fun m => { m with upPolmen := some { upload0 with stamp := 2 } }) .fwUpdateBegin (mk 0x0701 [(0, 1, 1), (1, 1, 1), (4, 4, 16)]) fun _ l => decide (l.arg 1 1 < 3),
    wits s0 .debugChallenge (mkMg 0x0E01 [(0, 1, 1)]) fun _ _ => true,
    wits { s0 with body := { body0 with mgdb := { body0.mgdb with nonce := some 7 } } } (.debugPresent true)
      (mkMg 0x0E01 [(0, 1, 2), (8, 8, Module.reset.serial), (16, 16, 7), (32, 4, 3)]) fun _ l => decide (l.arg 32 4 < 4) && l.arg 16 16 == 7,
    wits s0 (.debugPresent false) (mkMg 0x0E01 [(0, 1, 2), (32, 4, 4)]) fun s l => decide (4 ≤ l.arg 32 4) && !s.body.data.plots.isEmpty,
    wits s0 .debugLock (mkMg 0x0E01 [(0, 1, 3)]) fun _ _ => true] = true := by
  decide +kernel

/-- The plot takes part in the fabric, under tag 7. -/
theorem wit_AlmanacPowerAndFabricLetters :
    allOf [
    wits s0 .almanacRootFollow (mk 0x0A01 []) fun _ _ => true,
    wits (withAlm fun a => { a with st := .free, mode := .follow }) .almanacRootInternal (mk 0x0A01 [(0, 1, 1), (16, 8, 99)]) fun s _ => s.alm.st == .free,
    wits s0 .almanacRootInternal (mk 0x0A01 [(0, 1, 1)]) fun s l => s.alm.st == .locked && l.arg 16 8 == 0,
    wits s0 .almanacRootInternal (mk 0x0A01 [(0, 1, 1), (16, 8, 1)]) fun _ l => l.arg 16 8 != 0,
    wits s0 .almanacRootPps (mk 0x0A01 [(0, 1, 2), (8, 8, 5000000)]) fun s l => decide (s.alm.beat ≤ l.arg 8 8),
    wits s0 .almanacRootPps (mk 0x0A01 [(0, 1, 2), (8, 8, 4999999)]) fun s l => decide (l.arg 8 8 < s.alm.beat),
    wits s0 .almanacStatus (mk 0x0A02 []) fun _ _ => true,
    wits s0 .almanacScheduleAdd (mk 0x0A03 [(0, 1, 1), (8, 8, 5000002), (16, 2, 0x0402), (18, 2, 16)]) fun s l =>
      innerRefuses s l == none && decide (s.alm.beat + 2 ≤ l.arg 8 8) && !shareFull s.body.mg l.stamp,
    wits s0 .almanacScheduleAdd (mk 0x0A03 [(0, 1, 1), (8, 8, 5000002), (16, 2, 1)]) fun s l => (innerRefuses s l).isSome,
    wits (withAlm fun a => { a with st := .free, mode := .follow }) .almanacScheduleAdd
      (mk 0x0A03 [(0, 1, 1), (8, 8, 5000002), (16, 2, 0x0402), (18, 2, 16)]) fun s l => innerRefuses s l == none,
    wits (withMg fun m => { m with schedule := List.replicate 448 ⟨1, 6000000, .wrapped, mk 0x0A03 [], 0, true, false⟩ }) .almanacScheduleAdd
      (mk 0x0A03 [(0, 1, 1), (8, 8, 5000002), (16, 2, 0x0402), (18, 2, 16)]) fun s l => innerRefuses s l == none && shareFull s.body.mg l.stamp,
    wits (withMg fun m => { m with schedule := [⟨1, 6000000, .wrapped, mk 0x0A03 [], 0, true, false⟩] }) .almanacScheduleCancel
      (mk 0x0A03 [(0, 1, 2), (4, 4, 1)]) fun s l => (s.body.mg.schedule.find? fun e => e.ticket == l.arg 4 4).isSome,
    wits s0 .almanacScheduleCancel (mk 0x0A03 [(0, 1, 2), (4, 4, 1)]) fun s _ => s.body.mg.schedule.isEmpty && s.body.mg.instant.isEmpty,
    wits s0 .powerBudget (mk 0x0401 [(0, 2, 2200)]) fun _ l => l.arg 8 8 == 0,
    wits s0 .powerBudget (mk 0x0401 [(0, 2, 900), (8, 8, 5000002)]) fun s l => decide (s.alm.beat + 2 ≤ l.arg 8 8),
    wits s0 .powerBudget (mk 0x0401 [(0, 2, 900), (8, 8, 5000001)]) fun s l => decide (l.arg 8 8 < s.alm.beat + 2),
    wits s0 .powerCap (mk 0x0402 [(0, 1, 31), (1, 1, 2), (2, 2, 900), (4, 2, 2200), (8, 4, 1000000), (12, 2, 0x3FF)]) fun _ _ => true,
    wits s0 .powerReasonsCurrent (mk 0x0403 [(0, 1, 1)]) fun _ _ => true,
    wits s0 .powerReasonsHistory (mk 0x0403 [(0, 1, 2)]) fun s _ => s.body.pw.closedR.isEmpty,
    wits s0 .powerEnergyContexts (mk 0x0404 [(0, 1, 1)]) fun _ _ => true,
    wits s0 .powerEnergySample (mk 0x0404 [(0, 1, 2), (1, 1, 15), (8, 8, 5000002)]) fun _ l => l.arg 8 8 != 0,
    wits s0 .powerEnergySample (mk 0x0404 [(0, 1, 2), (1, 1, 15)]) fun _ l => l.arg 8 8 == 0,
    wits (withPw { Power.reset with samples := [(15, ⟨1, [2]⟩)] }) .powerEnergyReadSample (mk 0x0404 [(0, 1, 3), (1, 1, 15)]) fun s l =>
      (mget s.body.pw.samples (l.arg 1 1)).isSome,
    wits s0 .powerEnergyReadSample (mk 0x0404 [(0, 1, 3), (1, 1, 15)]) fun s l => mget s.body.pw.samples (l.arg 1 1) == none,
    wits ((withPw { Power.reset with cold := .halted 1 2 }).setAlm { s0.alm with beat := 10000000 }) .coldResume (mk 0x0801 []) fun s _ =>
      s.body.pw.cold != .running && s.body.pw.coolantOk && decide (s.body.pw.coolantSince + 10000000 ≤ s.alm.beat) && cool s.body.pw && s.body.fab.heldRx.isEmpty,
    wits s0 .coldResume (mk 0x0801 []) fun s _ => s.body.pw.cold == .running,
    wits (withPw { Power.reset with cold := .halted 1 2 }) .coldResume (mk 0x0801 []) fun s _ => decide (s.alm.beat < s.body.pw.coolantSince + 10000000),
    wits s0 .fabricSurveyQuery (mk 0x0901 [(0, 1, 1)]) fun _ _ => true,
    wits (withD { Data.reset with halted := false }) .fabricSurveySetBlock (mk 0x0901 [(0, 1, 2), (2, 1, 255)]) fun s l =>
      s.body.fab.block != some (l.arg 2 1) && s.body.data.plots.isEmpty,
    wits s0 .fabricSurveySetBlock (mk 0x0901 [(0, 1, 2), (2, 1, 255)]) fun s l => s.body.fab.block != some (l.arg 2 1) && !s.body.data.plots.isEmpty,
    wits s0 .fabricSurveyResurvey (mk 0x0901 [(0, 1, 3), (3, 1, 17)]) fun _ l => decide (l.arg 3 1 < 18),
    wits s0 .routesStageWrite (mk 0x0902 [(0, 1, 1), (1, 1, 1), (2, 2, 4095)]) fun s l =>
      !bankBusy s && decide (l.arg 8 8 < 2 ^ 22) && entryOk s.body (l.arg 2 2) (BitVec.ofNat 64 (l.arg 8 8)),
    wits (withFab { Fabric.reset with lastSwitch := some 4990001 }) .routesStageWrite (mk 0x0902 [(0, 1, 1), (1, 1, 1), (2, 2, 4095)]) fun s _ => bankBusy s,
    wits s0 .routesStageDefaultBlock (mk 0x0902 [(0, 1, 2)]) fun s _ => !bankBusy s,
    wits s0 .fabricGraft (mk 0x0904 [(0, 8, 5000002), (8, 2, 7), (10, 1, 1), (16, 2, 1)]) fun s l => (plotOfTag s.body.data (l.arg 8 2)).isSome,
    wits s0 .fabricPrune (mk 0x0905 [(0, 8, 5000002), (8, 2, 7), (10, 1, 1), (16, 2, 1)]) fun s l => (plotOfTag s.body.data (l.arg 8 2)).isSome,
    wits s0 .fabricGraft (mk 0x0904 [(0, 8, 5000002), (8, 2, 8), (10, 1, 1), (16, 2, 1)]) fun s l => plotOfTag s.body.data (l.arg 8 2) == none,
    wits s0 .fabricPrune (mk 0x0905 [(0, 8, 5000002), (8, 2, 0), (10, 1, 1), (16, 2, 1)]) fun s l => plotOfTag s.body.data (l.arg 8 2) == none] = true := by
  decide +kernel

/-- `fabric.routes.switch` for beat 5,000,002 with a checksum of the spare bank. -/
def crcLetter (c : Nat) : Letter :=
  { bytes := [3, 9, 0, 0, 12, 0, 0, 0, 0, 0, 0, 0, 0, 0, 0, 0, 0, 0, 0, 0, 0, 0, 0, 0, 0, 0, 0, 0, 0, 0, 0, 0, 0x42, 0x4B, 0x4C, 0, 0, 0, 0, 0] ++ natLe 4 c,
    stamp := 1, fn := some (.pf .ha), slot := 0, gen := 0, ringBeat := 0 }

theorem crc_args (c : Nat) : (crcLetter c).args = [0x42, 0x4B, 0x4C, 0, 0, 0, 0, 0] ++ natLe 4 c := by
  simp [crcLetter, Letter.args, Letter.len, field, leNat, natLe]

theorem crc_op (c : Nat) : (crcLetter c).op = 0x0903 := by simp [crcLetter, Letter.op, field, leNat]

/-- A switch to the bank that is staged is taken, whatever its checksum. -/
theorem wit_fabricRoutesSwitch (c : Nat) (h : settledB s0 = true) : Front .fabricRoutesSwitch (withLetter s0 (crcLetter c)) (crcLetter c) ∧
    (crcLetter c).arg 8 4 = c % 2 ^ 32 ∧ (crcLetter c).arg 0 8 = s0.alm.beat + 2 ∧ ∀ m, bankCrc m < 2 ^ 32 := by
  have ho : letterIs .fabricRoutesSwitch (crcLetter c) = true := by simp [letterIs, crc_op]
  have hr : hasRow (crcLetter c) = true := by simp [hasRow, crc_op, argBytes]
  have hc : refusal (taken (withLetter s0 (crcLetter c)) (crcLetter c)) (crcLetter c) = none := by
    have hs : ∀ (l : Letter) a, stateRefuses (taken (withLetter s0 l) l) 0x0903 a = none := fun _ _ => rfl
    simp only [refusal, crc_op, hs, Option.map_none]
    simp only [stepChecks, crc_args]
    have hh : headChecks (crcLetter c) = [⟨0xFF02, true, true⟩, ⟨0xFF06, true, true⟩, ⟨0xFF10, true, true⟩] := by
      simp [headChecks, crcLetter, Letter.flags, field, leNat, zeroTail, List.range, List.range.loop]
    rw [hh]
    simp [argBytes, portOk, ownerOk, isVf, isMg, mayPf, firstBad, argChecks, crcLetter, Letter.len, field, leNat, natLe, rg, rz]
  refine ⟨⟨⟨settledB_settled (show settledB s0 = true from h), rfl, ⟨[], rfl, by simp⟩, ho, hr⟩, .inl rfl, hc, by simp [Mgmt.plotBusy, crc_op]⟩, ?_, ?_, fun m => BitVec.isLt _⟩
  · simp only [Letter.arg, crc_args, field, natLe, leNat, List.cons_append, List.nil_append, List.drop_succ_cons, List.drop_zero, List.take_succ_cons, List.take_zero, BitVec.toNat_ofNat]
    omega
  · simp [Letter.arg, crc_args, field, leNat, natLe, s0, Almanac.reset]

/-- The frame of the Dispatchers' copy of a small graph, where the channel it comes from has one free. -/
theorem takeSide_one {d : Data} {p : Plot} {t : Taking} {f : Nat}
    (h : ((((stripeChans true 0).filter fun c => chanUp d c && decide (0 < (freeFrames d p t.used c).length)).foldl
      (fun (b : Option Nat) c => match b with
        | none => some c
        | some x => if (freeFrames d p t.used x).length < (freeFrames d p t.used c).length then some c else b) none).bind (pickB d p t.used)) = some f) :
    (takeSide d p true 0 1 t).isSome = true := by
  obtain ⟨c, hc, hf⟩ := Option.bind_eq_some_iff.1 h
  dsimp only [takeSide]
  split
  · rename_i h2
    have h3 := Option.bind_eq_none_iff.1 h2 c hc
    rw [pickB_pick t.k hf] at h3
    cases h3
  · rfl

/-- Memory with bytes of the object at given addresses. -/
def poke (d : Data) (l : List (Nat × List Byte)) : Data := l.foldl (fun d e => (d.devWrite 0 e.1 e.2).getD d) d

/-- A graph of one node of kind 7 at 0x60000, and a watch of the page at 0x4000 at 0x48000. -/
def data1 : Data := poke data0 [(0x60000, [7]), (0x48009, [0x40]), (0x48011, [0x10])]

def journal0 : StepJournal := { k := 4, det := false, area := 0x40000, watches := [(0, 0x4000, 4096)], seq := 1, lapped := 0, lapBeat := 0, gen := 1 }
def withSj (d : Data) : State := { s0 with body := { body0 with data := d, sj := [(0, journal0)] } }

theorem wit_GraphLetters :
    allOf [
    wits (withD data1) .graphStore (mk 0x0307 [(4, 4, 1), (8, 8, 0x60000), (16, 4, 64), (24, 8, 0x61000)]) fun s l =>
      let d := s.body.data
      let recs := [(d.devRead 0 0x60000 64).getD []]
      let nodes := recs.map fun r => parseNode r []
      coversObj d 0 (l.arg 8 8) 64 && coversObj d 0 (l.arg 24 8) 512 && readable d 0 (l.arg 8 8) 64 && !nodeBad d 0 nodes recs 0 0 &&
        (nodes.all fun n => n.kind != 1) && decide ((mcount d.graphs fun _ g => d.ctxPlot g.ctx == 0) < plot0.graphs) && freeKey d.graphs 16384 == some 1 &&
        (((stripeChans true 0).filter fun c => chanUp d c && decide (0 < (freeFrames d plot0 (usedFrames d) c).length)).foldl
          (fun (b : Option Nat) c => match b with
            | none => some c
            | some x => if (freeFrames d plot0 (usedFrames d) x).length < (freeFrames d plot0 (usedFrames d) c).length then some c else b) none).bind
              (pickB d plot0 (usedFrames d)) == some 1,
    wits s0 .graphStore (mk 0x0307 [(0, 2, 9), (4, 4, 1), (16, 4, 64)]) fun s l => mget s.body.data.ctxs (l.arg 0 2) == none,
    wits s0 .graphLaunch (mk 0x0308 [(8, 1, 1), (10, 2, 1)]) fun s _ =>
      let d := s.body.data
      readable d 0 ph0.ring 32 && leNat ((d.devRead 0 ph0.ring 8).getD []) == 0 && readable d 0 (slotAddr ph0 0) 64 &&
        leNat ((d.devRead 0 (slotAddr ph0 0) 8).getD []) == 0,
    wits s0 .graphLaunch (mk 0x0308 [(0, 2, 1), (8, 1, 1), (10, 2, 1)]) fun s l => (mget s.body.data.pigeons (l.arg 0 2)).all fun h => h.queue == none,
    wits (withD data1) .journalConfigure (mk 0x0B01 [(0, 1, 1), (1, 1, 4), (5, 1, 1), (8, 8, 0x40000), (16, 8, 0x48000)]) fun s l =>
      let d := s.body.data
      let y := (d.devRead 0 (l.arg 16 8) 24).getD []
      coversObj d 0 (l.arg 8 8) 10240 && coversObj d 0 (l.arg 16 8) 24 && readable d 0 (l.arg 16 8) 24 && watchOk y && coversObj d 0 (field y 8 8) (field y 16 8),
    wits s0 .journalConfigure (mk 0x0B01 [(0, 1, 1), (1, 1, 4), (5, 1, 1), (8, 8, 0x40000), (16, 8, 0x48000)]) fun s l =>
      let d := s.body.data
      coversObj d 0 (l.arg 8 8) 10240 && coversObj d 0 (l.arg 16 8) 24 && readable d 0 (l.arg 16 8) 24 && !watchOk (((d.devRead 0 (l.arg 16 8) 24).getD []).take 24),
    wits (withSj data0) .journalRead (mk 0x0B01 [(0, 1, 2)]) fun s l => (findStep s.body.data 0 journal0 (l.arg 24 8) (l.arg 32 2)).isSome,
    wits s0 .journalRead (mk 0x0B01 [(0, 1, 2)]) fun s l => (mget s.body.data.ctxs (l.arg 2 2)).isSome && mget s.body.sj (l.arg 2 2) == none,
    wits (withSj data0) .journalDisable (mk 0x0B01 [(0, 1, 3)]) fun s l => (mget s.body.sj (l.arg 2 2)).isSome,
    wits (withSj { data0 with launches := [] }) .replayStep (mk 0x0B02 [(24, 8, 0x50000)]) fun s l =>
      let d := s.body.data
      eventOk d 0 (l.arg 16 2) && coversObj d 0 (l.arg 24 8) 64 && graphOk d 0 0 && s.body.replay == none && d.launches.isEmpty &&
        (findStep d 0 journal0 (l.arg 8 8) (l.arg 4 2)).map (fun e => field e.2 10 2) == some 0,
    wits s0 .replayStep (mk 0x0B02 [(24, 8, 0x50000)]) fun s l => mget s.body.sj (l.arg 0 2) == none] = true := by
  decide +kernel

/-! ### Instructions: the other hypotheses -/

/-- The word is ready, and `ok` holds of what its group issues. -/
def issueB (sp : OpSpec) (s : State) (x : Issue) (ok : Data → GCtx → Bool) : Bool :=
  readyB sp s x && match issueCtx s.body.data s.alm.beat x with
    | none => false
    | some q => ok (atIssue s q) q

theorem issueB_ready {sp : OpSpec} {s : State} {x : Issue} {ok : Data → GCtx → Bool} (h : issueB sp s x ok = true) :
    ∃ q, Ready sp s x q ∧ ok (atIssue s q) q = true := by
  simp only [issueB, Bool.and_eq_true] at h
  obtain ⟨q, hq⟩ := readyB_ready h.1
  refine ⟨q, hq, ?_⟩
  have h2 := h.2
  rw [hq.place] at h2
  exact h2

/-- A word with a guard. -/
def guarded (g : Nat) (x : Issue) : Issue := { x with f := BitVec.ofNat 54 (g * 2 ^ 50) ||| x.f }

def withGroup (g : Group) : State := withD { data0 with cores := [(0, { core0 with groups := [(0, g)] })] }

/-- The same group with predicate 1 set in thread 0 alone. -/
def group1 : Group := { group0 with p := [(1, 1)] }
def entry0 : StackEntry := { rpc := 0x400100, origMask := -1, pendPc := 0x400000, pendMask := 0 }

theorem wit_Branches :
    allOf [
    issueB specBra s0 (guarded 1 (word 0 0 0 0 0 0 0 0 1)) fun _ q => q.on == 0,
    issueB specBra s0 (word 0 0 0 0 0 0 0 0 1) fun _ q => q.on != 0 && q.g.active &&& ~~~q.on == 0,
    issueB specBra (withGroup group1) (guarded 1 (word 0 0 0 0 0 0 0 0 1)) fun _ q => q.on != 0 && q.g.active &&& ~~~q.on != 0 && decide (q.g.stack.length < 32),
    issueB specBra (withGroup { group1 with stack := List.replicate 32 entry0 }) (guarded 1 (word 0 0 0 0 0 0 0 0 1)) fun _ q =>
      q.g.active &&& ~~~q.on != 0 && decide (32 ≤ q.g.stack.length),
    issueB specBrx s0 (word 0 10 0 0 0 0 0 0 0) fun _ q => (threads q.g.active).all fun t => (brxTarget q t).toNat % 8 == 0,
    issueB specBrx (withGroup { group0 with v := [(320, 8)] }) (word 0 10 0 0 0 0 0 0 0) fun _ q =>
      ((threads q.g.active).all fun t => (brxTarget q t).toNat % 8 == 0) && (maskOf fun t => brxTarget q t == brxTarget q 0) == 1 && q.g.stack.isEmpty,
    issueB specBrx (withGroup { group0 with v := [(320, 8)], stack := [{ entry0 with rpc := 0x400000 }] }) (word 0 10 0 0 0 0 0 0 0) fun _ q =>
      (maskOf fun t => brxTarget q t == brxTarget q 0) == 1 && q.g.pc == 0x400000] = true := by
  decide +kernel

/-- A load of the group, on its way to line 0. -/
def req0 : LineReq :=
  { id := 1, core := 0, slot := 0, iseq := 0, age := 0, plot := 0, pc := 0x10000, opcode := 0x120, addr := 0, tgt := .local 0,
    op := .load false false 4 9 false, lanes := [⟨0, 0, 0, 0⟩], stage := .waiting, pre := none, rem := none, accepted := none }

/-- A store to a host window that has left as a posted write. -/
def posted1 : LineReq := { req0 with op := .store [(0, 1)], tgt := .host false 0, stage := .posted }

theorem wit_ControlExitTraps :
    allOf [
    issueB specRet s0 (word 0 10 0 0 0 0 0 0 0) fun _ q => (q.g.rdPair 1 10 0).toNat % 8 == 0,
    issueB specRet s0 (word 0 12 0 0 0 0 0 0 0) fun _ q => (q.g.rdPair 1 12 0).toNat % 8 != 0,
    issueB specExit s0 (word 0 0 0 0 0 0 0 0 0) fun _ q => allLeft (leave q.g q.on) && (s0.body.data.reqsOf q.c q.s q.g).isEmpty && (arrOf (s0.body.data.core q.c) q.s q.g).isEmpty,
    issueB specExit (withD { data0 with reqs := [req0] }) (word 0 0 0 0 0 0 0 0 0) fun _ q => allLeft (leave q.g q.on) && !(([req0] : List LineReq).isEmpty),
    issueB specExit s0 (guarded 1 (word 0 0 0 0 0 0 0 0 0)) fun _ q => !allLeft (leave q.g q.on),
    issueB specYieldT s0 (word 0 0 0 0 0 0 0 0 0) fun _ q => (s0.body.data.core q.c).pass == .none,
    issueB specYieldT (withD { data0 with cores := [(0, { core0 with pass := .deferral 1 none })] }) (word 0 0 0 0 0 0 0 0 0) fun _ _ => true,
    issueB specBarSync s0 (word 0 3 0 0 0 0 0 0 0) fun d q => (fenceTry d q 1).2 && (core0.groups.map fun e => e.1) == [0],
    issueB specBarSync s0 (word 0 4 0 0 0 0 0 0 0) fun _ _ => true,
    issueB specBarArrive s0 (word 0 3 0 0 0 0 0 0 0) fun d q => (fenceTry d q 1).2 && (q.g.advance (q.g.pc + 8)).active != 0,
    issueB specBarArrive s0 (word 0 4 0 0 0 0 0 0 0) fun _ _ => true] = true := by
  decide +kernel

/-- `ld`, `st` and `atom` of memory at u10, of the bench at u14 by a thread, and where they fault. -/
theorem wit_MemoryInstructions :
    allOf [
    issueB specLd s0 (word 3 10 16 0 0 0 0 0 0) fun d q => (accFault (memAcc d q)).isNone && (linesOf (placed d (memSpace q.x) (memAcc d q))).length == 1,
    issueB specLd s0 (word 3 14 16 0 0 0 0 0 0) fun d q => (accFault (memAcc d q)).isNone && (benchAcc (placed d (memSpace q.x) (memAcc d q))).length == 32,
    issueB specLd s0 (word 3 12 144 0 0 0 0 0 0) fun d q => (accFault (memAcc d q)).isSome,
    issueB specSt s0 (word 3 10 16 0 0 0 0 0 0) fun d q => (accFault (storeAcc d q)).isNone && (linesOf (placed d (memSpace q.x) (storeAcc d q))).length == 1,
    issueB specSt s0 (word 3 14 16 0 0 0 0 0 0) fun d q => (accFault (storeAcc d q)).isNone && (benchAcc (placed d (memSpace q.x) (storeAcc d q))).length == 32,
    issueB specSt s0 (word 3 12 144 0 0 0 0 0 0) fun d q => (accFault (storeAcc d q)).isSome,
    issueB specAtom s0 (word 3 10 4 0 0 2 0 0 0) fun d q => (accFault (atomAcc d q)).isNone && (fenceTry d q (atomScope q.x)).2 &&
      (linesOf (placed d (atomSpace q.x) (atomAcc d q))).length == 1,
    issueB specAtom (withGroup { group1 with active := 1 }) (word 3 14 4 0 0 2 0 0 0) fun d q => (accFault (atomAcc d q)).isNone && (fenceTry d q (atomScope q.x)).2 &&
      (benchAcc (placed d (atomSpace q.x) (atomAcc d q))).length == 1,
    issueB specAtom s0 (word 3 12 4 0 0 2 0 0 0) fun d q => (accFault (atomAcc d q)).isSome,
    issueB specFence s0 (word 0 0 0 0 1 0 0 0 0) fun d q => (fenceTry d q 1).2,
    issueB specFence (withD { data0 with reqs := [req0] }) (word 0 0 0 0 1 0 0 0 0) fun d q => !(fenceTry d q 1).2,
    issueB specFence (withD { data0 with reqs := [posted1] }) (word 0 0 0 0 4 0 0 0 0) fun d q => !(fenceTry d q 4).2 && fenceCore (d.reqsOf q.c q.s q.g) core0 q.s q.g,
    issueB specInvRemote s0 (word 0 10 12 0 0 0 0 0 0) fun _ _ => true] = true := by
  decide +kernel

theorem wit_CountersAndDoorbells :
    allOf [
    issueB specBarDieArrive s0 (word 0 12 13 0 0 0 0 0 0) fun d q => d.barGranted q.b.plot false (q.g.rd 1 12 0).toNat && (fenceTry d q 2).2,
    issueB specBarPkgArrive s0 (word 0 12 13 0 0 0 0 0 0) fun d q => d.barGranted q.b.plot true (q.g.rd 1 12 0).toNat && (fenceTry d q 3).2,
    issueB specBarDieWait s0 (word 0 12 13 0 0 0 0 0 0) fun d q => decide ((d.counterVal false 0 2 - q.g.rd 1 13 0).toInt < 0),
    issueB specBarPkgWait (withD { data0 with pkgBar := [(2, 1)] }) (word 0 12 13 0 0 0 0 0 0) fun d q =>
      d.barGranted q.b.plot true 2 && decide (0 ≤ (d.counterVal true 0 2 - q.g.rd 1 13 0).toInt),
    issueB specAwait s0 (word 0 40 12 0 0 0 0 0 0) fun d q => d.phGranted q.b.plot 0 && d.doorbellSeq 0 == some 0 && q.g.rd 1 12 0 != 0,
    issueB specAwait s0 (word 0 40 41 0 0 0 0 0 0) fun d q => d.doorbellSeq 0 == some (q.g.rd 1 41 0),
    issueB specAwait s0 (word 0 10 12 0 0 0 0 0 0) fun d q => !d.phGranted q.b.plot (q.g.rd 1 10 0).toNat,
    issueB specRing s0 (word 0 40 0 0 0 0 0 0 0) fun d q => d.phGranted q.b.plot 0 && (fenceTry d q 3).2 && s0.body.data.abortPend.isEmpty &&
      (q.g.advance (q.g.pc + 8)).active != 0 && ((d.devRead 0 (ph0.ring + 16) 4).bind fun _ => d.devWrite 0 (ph0.ring + 16) [1, 0, 0, 0]).isSome,
    issueB specRing s0 (word 0 10 0 0 0 0 0 0 0) fun d q => !d.phGranted q.b.plot (q.g.rd 1 10 0).toNat] = true := by
  decide +kernel

theorem wit_MatrixAndEngineIssue :
    allOf [
    issueB specMma s0 (word 0 24 17 0 0 0 0 0 0) fun d q => mmaDescOk (descRegs q.g 24) 1 1 false && claimed d q && extentsOk q (mmaExtents (descRegs q.g 24) 1 1 false),
    issueB specMma s0 (word 0 32 17 0 0 0 0 0 0) fun _ q => !mmaDescOk (descRegs q.g 32) 1 1 false,
    issueB specMma (withD { data0 with cores := [(0, { core0 with claim := none })] }) (word 0 24 17 0 0 0 0 0 0) fun d q =>
      mmaDescOk (descRegs q.g 24) 1 1 false && !claimed d q,
    issueB specMma (withGroup { group0 with u := [(26, 9)] }) (word 0 24 17 0 0 0 0 0 0) fun d q =>
      mmaDescOk (descRegs q.g 24) 1 1 false && claimed d q && !extentsOk q (mmaExtents (descRegs q.g 24) 1 1 false),
    issueB specAccZero s0 (word 1 0 0 0 0 0 0 0 0) fun d q => claimed d q,
    issueB specAccSt s0 (word 0 1 16 0 0 0 0 0 0) fun d q => claimed d q && drainDescOk (descRegs q.g 16) false && extentsOk q (drainExtents (descRegs q.g 16)),
    issueB specAccLd s0 (word 1 16 0 0 0 0 0 0 0) fun d q => claimed d q && drainDescOk (descRegs q.g 16) true && extentsOk q (drainExtents (descRegs q.g 16)),
    issueB specAccFlags s0 (word 20 1 0 0 0 0 0 0 0) fun d q => claimed d q,
    issueB specAccClrf s0 (word 0 1 0 0 0 0 0 0 0) fun d q => claimed d q,
    issueB (engSpec 0) s0 (word 0 10 0 8 0 0 0 0 0) fun d q => (fenceTry d q 2).2 && d.pickEngine q.c 0 8 == some 7 && (d.engine 7).queue.isEmpty,
    issueB (engSpec 1) s0 (word 0 14 0 0 0 0 0 0 0) fun d q => (fenceTry d q 2).2 && d.pickEngine q.c 1 0 == some 8 &&
      (match placeIn d (groupAgent d q) 0 0x8020000000 with
        | .ok (.bench _) => true
        | _ => false),
    issueB (engSpec 2) s0 (word 0 10 0 0 0 0 0 0 0) fun d q => (fenceTry d q 3).2 && (d.pickEngine q.c 2 0).isSome &&
      (match placeIn d (groupAgent d q) 0 0x3000 with
        | .ok p => (lineOf { t := 0, a := 0x3000, at_ := .ok p }).isSome
        | _ => false),
    issueB (engSpec 0) s0 (word 0 12 0 0 0 0 0 0 0) fun _ q => (q.g.rdPair 1 12 0).toNat % 64 != 0] = true := by
  decide +kernel

/-- Nine groups on core 0, eight of which hold an active entry. -/
def core9 : Core := { core0 with groups := (List.range 9).map fun i => (i, { group0 with age := i, act := decide (i < 8) }) }

/-- The group's code lies in the object, whose bytes there are zero: words of `nop`. -/
def dataCode : Data := { data0 with cores := [(0, { core0 with groups := [(0, { group0 with pc := 0x10000 })] })] }

/-- What comes before the effect: no group, an illegal word, a register beyond the allocation (the first is 16), one with a pending write. -/
theorem wit_IssueChecks :
    allOf [
    (issueCtx data0 0 { word 3 0 1 0 0 0 0 0 0 with slot := 1 }).isNone,
    (issueCtx data0 0 (word 3 0 1 0 0 0 0 0 0)).isSome,
    illegal specIadd (word 3 0 1 0 1 0 0 0 0),
    (specIadd.refs (word 16 0 1 0 0 0 0 0 0)).any (refBeyond 16),
    !(specIadd.refs (word 15 0 1 0 0 0 0 0 0)).any (refBeyond 16),
    !(specIadd.refs (word 255 0 1 0 0 0 0 0 0)).any (refBeyond 16),
    block0.regsAlloc == 16,
    !canIssue data0 core9 { group0 with index := 1 },
    illegal specNop { word 0 0 0 0 0 0 0 0 0 with code := some 0x3FF },
    (match issueCtx dataCode 0 (word 0 0 0 0 0 0 0 0 1) with
      | some q => fetchOk specNop (dataCode.fetched q.c q.s q.b.plot q.g.pc) q
      | none => true) == false,
    (match issueCtx dataCode 0 (word 0 0 0 0 0 0 0 0 0) with
      | some q => fetchOk specNop (dataCode.fetched q.c q.s q.b.plot q.g.pc) q
      | none => false),
    ((specIadd.refs (word 3 0 1 0 0 0 0 0 0)).any fun r => refMeets r (⟨0, 3, 1⟩ : Ref)),
    specBarSync.wide (guarded 1 (word 0 0 0 0 0 0 0 0 0)),
    computing specIadd,
    computing specRdclk,
    !computing specExit] = true := by
  decide +kernel

/-! ### Cores, the array, homes and engines -/

/-- Nothing is due before, nor with another data plane after. -/
def quietTo (s : State) (d : Data) : Bool :=
  s.body.quiet && ({ s.body with data := d, sj := mfilter s.body.sj fun c _ => (mget s.body.data.ctxs c).isSome } : Body).quiet

def withReq (r : LineReq) : State := withD { data0 with reqs := [r] }
def withCore (c : Core) : State := withD { data0 with cores := [(0, c)] }
def returned0 : ReqStage := .returned (List.replicate 128 0) [0]

theorem wit_PlacementAndCores :
    allOf [
    (pickCore data0 (plot0.cores.filter fun c => coreTakes body0 launch1 1 0 kernel0 c)).isSome,
    mayDispatch data0 0,
    s0.body.quiet,
    decide (8 ≤ mcount core9.groups fun _ h => h.act),
    (oldestOf core9 (core9.groups.filter fun e => readyPending data0 e.2)).map (fun e => e.1) == some 8,
    (withCore core9).body.quiet,
    ((withReq { req0 with stage := returned0 }).body.data.reqGroup { req0 with stage := returned0 }).isSome,
    quietTo (withReq { req0 with stage := returned0 }) data0,
    quietTo (withReq { req0 with stage := returned0, op := .load true false 4 9 false }) data0,
    quietTo (withReq { req0 with stage := returned0, op := .atom 0 0 2 9 }) data0,
    quietTo (withReq { req0 with stage := .acked, op := .store [] }) data0,
    quietTo (withReq { req0 with stage := .failed .dataLost }) data0] = true := by
  decide +kernel

def late0 : LateFault := { iseq := 0, beat := 1, cls := .dataLost, sub := 0, pc := 0x10000, opcode := 0x120, mask := 1, addr := 0, detail := 0, ops := [] }
def parked0 : Group := { group0 with st := .faultPark }
/-- A record of an issue-time fault of group 0. -/
def record0 : FaultRec :=
  { cls := .align, sub := 0, beat := 1, core := 0, slot := 0, block := 0, plot := 0, ctx := 0, pc := 0x10000, resume := 0x10000, addr := 2, mask := 1,
    opcode := 0x120, mode := .instr, detail := 0, age := 0, notice := false, ops := [] }
def held0 : Ctx := { ctx0 with held := [record0] }
def posted0 : Ctx := { ctx0 with posted := [(0, record0)], writeSeq := 1, rung := true }
/-- The group parked for its fault, whose record is in the ring at 0x1040 with a disposition. -/
def dispData (x : Byte) : Data := poke { data0 with cores := [(0, { core0 with groups := [(0, parked0)] })], ctxs := [(0, posted0)] } [(0x1077, [x])]

theorem wit_FaultsAndWaits :
    allOf [
    ((withGroup { group0 with stop := true, late := [late0] }).body.data.reqsOf 0 0 group0).isEmpty,
    (arrOf core0 0 group0).isEmpty,
    (withGroup { group0 with stop := true, late := [late0] }).body.quiet,
    decide ((held0.writeSeq % 2 ^ 32 + 2 ^ 32 - held0.freeSeq % 2 ^ 32) % 2 ^ 32 < 2 ^ held0.ringLog2),
    ((({ data0 with ctxs := [(0, { held0 with held := [], writeSeq := 1, posted := [(0, record0)] })] } : Data).devWrite 0 0x1040 (faultBytes 0 record0)).bind
      fun d => d.devWrite 0 0x1000 (natLe 4 1)).isSome,
    (withD { data0 with ctxs := [(0, held0)] }).body.quiet,
    quietTo (withGroup { group0 with st := .counter false 2 0 }) data0,
    decide (0 ≤ (data0.counterVal false 0 2 - 0).toInt),
    quietTo (withGroup { group0 with st := .await 0 1 }) data0,
    data0.doorbellSeq 0 == some 0,
    (((dispData 1).recGroup record0).map fun g => g.st) == some .faultPark,
    (dispData 1).devRead 0 0x1077 1 == some [1],
    (dispData 0).devRead 0 0x1077 1 == some [0],
    quietTo (withD (dispData 1)) (dispData 1),
    posted0.ring + 64 * (1 + 0 % 2 ^ posted0.ringLog2) + 55 == 0x1077] = true := by
  decide +kernel

def arr0 (k : ArrKind) : ArrOp :=
  { kind := k, set := 1, slot := 0, age := 0, iseq := 0, pc := 0x10000, opcode := 0x1A0, desc := descRegs group0 (if k = .mma then 24 else 16), aFmt := 1, bFmt := 1,
    zero := false, blk16 := false, dest := 20, trapNan := false, trapSat := false, launch := 1, ctx := 0, started := false }
def withArr (o : ArrOp) (a : ArrState) : State := withCore { core0 with arrQ := [o], arrSt := a, rows := 8 }

theorem wit_Array :
    allOf [
    ([ArrKind.mma, .accZero, .accSt, .accLd, .accFlags, .accClrf].all fun k =>
      arrFree { core0 with arrQ := [arr0 k], arrSt := .active } (arr0 k) && (withArr (arr0 k) .active).body.quiet &&
        ((withArr (arr0 k) .active).body.data.arrOwner 0 (arr0 k)).isSome),
    (withArr (arr0 .mma) .active).body.md.uv == false,
    [ArrKind.mma, .accSt, .accLd].all (fun k => (startedAt { core0 with arrQ := [{ arr0 k with started := true }] } fun e => e.kind == k).isSome),
    drainDescOk (arr0 .accLd).desc true,
    dw (arr0 .accSt).desc 6 == 257,
    decide (dw (arr0 .accSt).desc 0 + 4 ≤ 1024 * block0.bench.length),
    mmaNext { core0 with arrQ := [arr0 .mma] },
    s0.body.pw.mask == 0x3FF,
    quietTo (withArr (arr0 .mma) .idle) data0,
    quietTo (withArr (arr0 .mma) .rampUp) data0,
    quietTo (withArr (arr0 .mma) .rampDown) data0,
    quietTo (withArr (arr0 .mma) .hold) data0,
    (withD { data0 with launches := [(1, { launch1 with satNotice := some record0, nanNotice := some record0 })] }).body.quiet] = true := by
  decide +kernel

def fill0 : Fill := { id := 3, line := 0, addr := 0, remote := none, reqs := [1], install := true, plot := 0 }
def atHome (op : LineOp) : Data := { data0 with reqs := [{ req0 with op := op }], cellar := [(0, { dirty := false, slice := 0, stream := false })] }
/-- Every request is a core's, and the host waits for nothing. -/
def oursB (s : State) : Bool := (s.body.data.reqs.all fun q => q.rem.isNone && decide (q.core < 672)) && s.body.host.ops.isEmpty
/-- A host-window read under way for request 1; the same, confirming a store. -/
def hostRead0 : HostReq := { id := 1, hb := false, bus := 0, len := 4, fn := .pf .ha }
def withHostStore : State := { s0 with body := { body0 with
  data := { data0 with reqs := [{ req0 with op := .store [(0, 1)], stage := .attached }] }, host := { body0.host with reqs := [hostRead0] } } }
def withHostRead : State := { s0 with body := { body0 with
  data := { data0 with reqs := [{ req0 with stage := .attached }] }, host := { body0.host with reqs := [hostRead0] } } }
/-- Slice 0 of die 0 is plot 0's cache slice, slice 1 its scratch slice. -/
def withSlice (k : Nat) (x : SliceState) : State := withD { data0 with slices := [(k, x)], saveArea := [(0, List.range 64)] }

theorem wit_HomesAndSlices :
    allOf [
    ([LineOp.load false false 4 9 false, .store [(0, 1)], .atom 0 0 1 9].all fun op => let d := atHome op
      mayArrive d { req0 with op := op } && serving (withD d).body && d.sliceOf 0 0 == some 0 && !d.isLost 0 && (withD d).body.quiet && oursB (withD d)),
    !lineBusy (atHome (.load false false 4 9 false)) 0 0,
    settledB (withD (atHome (.load false false 4 9 false))),
    (let d := { atHome (.load false false 4 9 false) with slices := [(0, .flushing 1)] }; d.sliceOf 0 0 == some 0),
    data0.sliceOf 0 (2 ^ 38) == none,
    settledB withHostStore && (withHostStore.body.data.req 1).isSome,
    ({ atHome (.load false false 4 9 false) with lost := [0] } : Data).isLost 0,
    fullMask (.store ((List.range 128).map fun i => (i, 0))),
    !fullMask (.load false false 4 9 false),
    (withD { data0 with reqs := [{ req0 with stage := .attached, pre := some returned0 }], fills := [fill0] }).body.quiet,
    serving body0,
    quietTo withHostRead data0,
    (withHostRead.body.host.reqs.find? fun r => r.id == 1) == some hostRead0 && oursB withHostRead,
    !data0.isLost (511 * 2 ^ 30 + 16383 * 2 ^ 16 + 65535),
    (mget ({ data0 with channels := [(3, { retrains := [], training := some 1, held := [] })] } : Data).channels 3).isSome,
    (withD { data0 with channels := [(3, { retrains := [], training := some 1, held := [] })] }).body.quiet,
    !isScratch data0 0,
    isScratch data0 1,
    (withSlice 0 (.flushing 1)).body.quiet,
    (withSlice 0 (.returning 1)).body.quiet,
    (withSlice 1 (.flushing 1)).body.quiet,
    (withSlice 1 (.returning 1)).body.quiet,
    fillsSlice data0 0 fill0 && !fillsSlice data0 5 fill0 && (withSlice 0 (.flushing 1)).body.data.fills.isEmpty,
    oursB (withSlice 0 (.flushing 1))] = true := by
  decide +kernel

def desc0 (bytes : List Byte) : EngDesc := { bytes := bytes, addr := 0x3000, plot := 0, ctx := 0, owner := .group 0 0, own := some (0, [0, 1]) }
/-- A courier copies 128 bytes from 0x3000 to 0x5000; a relay sends 4 to node 1. -/
def copyBytes : List Byte := natLe 64 (1 + 0x3000 * 256 ^ 8 + 0x5000 * 256 ^ 16 + 128 * 256 ^ 24 + 256 ^ 28)
def putBytes : List Byte := natLe 64 (1 + 0x3000 * 256 ^ 8 + (2 ^ 40 + 0x5000) * 256 ^ 16 + 4 * 256 ^ 24)
/-- A descriptor that has done all but its completion. -/
def run0 (bytes : List Byte) : EngRun := { EngRun.fresh (desc0 bytes) 9 with phase := 1 }
def withEngine (n : Nat) (e : Engine) : State := withD { data0 with engines := [(n, e)] }

theorem wit_Engines :
    allOf [
    descStatus data0 0 (desc0 (0xFF :: List.replicate 63 0)) != 0,
    descStatus data0 0 (desc0 copyBytes) == 0,
    (withEngine 0 { queue := [desc0 copyBytes], running := [] }).body.quiet,
    !engineInPass body0 0,
    quietTo (withEngine 0 { queue := [desc0 (0xFF :: List.replicate 63 0)], running := [] }) data0,
    (run0 (List.replicate 64 0)).desc.f 3 1 == 0,
    statusAddr 0 (run0 (List.replicate 64 0)).desc == 0,
    quietTo (withEngine 0 { queue := [], running := [run0 (List.replicate 64 0)] }) data0,
    relayStatus data0 128 (desc0 (0xFF :: List.replicate 63 0)) != 0,
    (mayBegin data0 [] [] [desc0 (0xFF :: List.replicate 63 0)]).isSome,
    relayStatus data0 128 (desc0 putBytes) == 0,
    (withEngine 128 { queue := [desc0 putBytes], running := [] }).body.quiet,
    (mayEnd data0 [run0 (List.replicate 64 0)] [] [run0 (List.replicate 64 0)]).isSome,
    oursB (withEngine 128 { queue := [], running := [run0 (List.replicate 64 0)] }) && (run0 (List.replicate 64 0)).phase == 1,
    statusAddr 128 (run0 (List.replicate 64 0)).desc == 0,
    quietTo (withEngine 128 { queue := [], running := [run0 (List.replicate 64 0)] }) data0] = true := by
  decide +kernel

/-! ### The host and its letters -/

def withHost (h : HostSt) : State := { s0 with body := { body0 with host := h } }
/-- The PF of HA, with letter 0x0101 in slot 0; its reply slot 0 as given. -/
def fn0 (status : Byte) : FnRegs := { FnRegs.reset with letters := [(0, 1), (1, 1)], replies := [(13, status)] }
def withFn (status : Byte) : State := withHost { body0.host with fns := [(0, fn0 status)] }
def entry1 : JEntry := { jid := 0, letter := mk 0x0101 [], acceptBeat := 1, reply := none, ticket := 0, reexec := false, waiters := [] }
def withNextSeq (n : Nat) (j : List JEntry) (a : SMap (List Reply)) : State := s0.mg fun m => { m with nextSeq := [(1, BitVec.ofNat 32 n)], journal := j, archive := a, nextJid := 9 }
def answer0 : Reply := { stamp := 1, seq := 0, status := 0, fieldOff := 0xFFFF, data := [], acceptBeat := 1, reexec := false }

theorem wit_HostRegisters :
    allOf [
    s0.live (.pf .ha),
    (bar2Range body0 (.pf .ha) 0 4).isSome,
    (bar2Range body0 (.pf .ha) (2 ^ 22 - 1) 1).isSome,
    (bar2Range body0 (.pf .ha) (2 ^ 22 - 1) 2).isNone,
    s0.body.quiet,
    mayRing data0 (.pf .ha) 0,
    quietTo s0 (data0.ringPh 0),
    (mget data0.pigeons 2).isNone,
    s0.body.host.ops.isEmpty && !data0.busyAt 0 (ph0.ring + 16) 4 && !data0.busyAt 0 (ctx0.ring + 4) 4 && !data0.busyAt 0 0 4,
    (let d := { data0 with slices := [(0, .flushing 1)] }; (withD d).live (.pf .ha) && settledB (withD d) && d.busyAt 0 (ph0.ring + 16) 4 &&
      ((withD d).body.hostDo ⟨.pf .ha, 0, 0, .ring 0⟩).isNone && (bar2Range (withD d).body (.pf .ha) 0 4).isSome &&
      ((withD d).body.hostDo ⟨.pf .ha, 0, 4, .read⟩).isNone && ((withD d).body.hostDo ⟨.pf .ha, 0, 0, .window 0⟩).isNone),
    s0.bound (.pf .ha) && s0.live (.vf .ha 3) && !s0.bound (.vf .ha 3) && (vfPlot data0 .ha 3).isNone,
    isPfFn (.pf .ha) && !data0.busyAt (data0.ctxPlot ph0.ctx) ph0.ring 128,
    (let p := { (mgetD data0.plots 0 plot0) with vf := some (false, 3) }; vfPlot { data0 with plots := [(0, p)] } .ha 3 == some 0),
    (data0.devRead 0 (ctx0.ring + 4) 4).isSome,
    (mget data0.ctxs 1).isNone,
    (data0.doorbellSeq 1).isSome,
    (body0.host.fn (.pf .ha)).pba.isEmpty] = true := by
  decide +kernel

theorem wit_LetterRing :
    allOf [
    settledB (withFn 1),
    mgetD ((withFn 1).body.host.fn (.pf .ha)).replies 13 0 == 1,
    (withFn 1).body.host.ops.isEmpty,
    (let s := withHost { body0.host with ops := [⟨.pf .ha, 0, 4, .write [1]⟩] }; settledB s && s.body.host.live (.pf .ha)),
    s0.live (.vf .ha 3),
    !s0.bound (.vf .ha 3),
    settledB { s0 with latch := { s0.latch with fault := true } },
    settledB (withFn 0),
    (withFn 0).bound (.pf .ha),
    hasRow { mk 0 [] with bytes := (fn0 0).slotBytes 0 },
    (withNextSeq 0 [entry1] []).body.mg.journal.any fun e => e.letter.fn == some (.pf .ha) && canReply (withNextSeq 0 [entry1] []) e.letter && e.waiters.isEmpty] = true := by
  decide +kernel

/-- A letter of sequence number 0 where the next is 2³² - 1, 300 and 5; where its first copy still waits, and where its reply is kept. -/
theorem wit_LetterOrder :
    allOf [
    (let s := withLetter (withNextSeq (2 ^ 32 - 1) [] []) (mk 0x0101 []);
      atFrontB .deviceIdentify s (mk 0x0101 []) && decide (0 < ((0 : BitVec 32) - BitVec.ofNat 32 (2 ^ 32 - 1)).toInt)),
    (let s := withLetter (withNextSeq 300 [] []) (mk 0x0101 []);
      atFrontB .deviceIdentify s (mk 0x0101 []) && decide (((0 : BitVec 32) - 300).toInt < -256)),
    (let s := withLetter (withNextSeq 5 [entry1] []) (mk 0x0101 []);
      atFrontB .deviceIdentify s (mk 0x0101 []) && s.body.mg.current entry1 && entry1.reply.isNone),
    (let s := withLetter (withNextSeq 5 [] [(1, [answer0])]) (mk 0x0101 []);
      atFrontB .deviceIdentify s (mk 0x0101 []) && s.body.mg.kept 1 0 == some answer0),
    (let s := withLetter (withNextSeq 5 [] []) (mk 0x0101 []);
      atFrontB .deviceIdentify s (mk 0x0101 []) && s.body.mg.kept 1 0 == none),
    (let l := mk 0x0203 [(1, 1, 1), (7, 1, 1)];
      atFrontB .plotDrain (withLetter s0 l) l && refusal (taken (withLetter s0 l) l) l == some (8, 2)),
    argBytes 0x0105 == none,
    refusal s0 (mk 0x0101 [(0, 1, 0)]) == some (3, 0xFFFF),
    refusal s0 (mk 0x0E01 [(0, 1, 1)]) == some (6, 0xFFFF),
    refusal s0 { mk 0x0302 [(0, 1, 1)] with stamp := 0x41 } == some (7, 0xFFFF),
    refusal s0 (mk 0x0203 [(0, 1, 64), (1, 1, 1)]) == some (9, 0)] = true := by
  decide +kernel

/-! ### Beats, the schedule, synchronisation and the lease -/

def withMd (m : Module) : State := { s0 with body := { body0 with md := m } }
def meas0 : EpochMeas := { moduleMj := 900000, dieMj := List.replicate 8 90000, hbmMj := 90000, ioMj := 90, lossW := 40, charges := [(0, 1000)], inputW := 900, inputMv := 54000, temps := [] }
def entryAt (beat : Nat) (k : SKind) (l : Letter) : SEntry := { ticket := 5, beat := beat, kind := k, letter := l, order := 1, counts := true, late := false }
def withEntry (e : SEntry) : State := s0.mg fun m => { m with schedule := [e] }
/-- `power.cap` wrapped in `almanac.schedule` ADD. -/
def wrapped0 : Letter := mk 0x0A03 [(0, 1, 1), (8, 8, 5000000), (16, 2, 0x0402), (18, 2, 16), (32, 1, 1), (34, 2, 1000)]

theorem wit_BeatsAndSchedule :
    allOf [
    s0.body.md.p3v3 && s0.body.md.oscOk,
    settledB (withMd { body0.md with p3v3 := false }),
    settledB (withAlm fun a => { a with step := some (7, -7000) }),
    settledB (withAlm fun a => { a with st := .slewing, slew := 3000000 }),
    settledB (withMd { body0.md with uv := true }),
    decide (s0.body.pw.asOf / 1000 < s0.alm.beat / 1000),
    s0.body.md.recovery == false,
    s0.body.mg.nSt == .holder && s0.latch.holder == some .north && s0.body.mg.sSt != .holder,
    (let s := s0.mg fun m => { m with nSt := .syncing, sSt := .holder }; settledB s && pmRuns s .south),
    settledB (withPw { Power.reset with asOf := 5000000 }),
    ([SKind.budget 1000 0, .routes 5, .graft 7 [3], .prune 7 [3], .sample 2].all fun k =>
      let s := withEntry (entryAt 5000000 k (mk 0 []));
      settledB s && nextEntry s == some (entryAt 5000000 k (mk 0 []))),
    plotOfTag data0 7 == some 0,
    plotOfTag data0 8 == none,
    data0.node == 0,
    (let l := { wrapped0 with stamp := 0x43, fn := some (.vf .ha 3) }; let s := withEntry (entryAt 5000000 .wrapped l);
      settledB s && nextEntry s == some (entryAt 5000000 .wrapped l) && !stillBound s l),
    (let s := withEntry (entryAt 5000000 .wrapped wrapped0);
      let i := innerLetter wrapped0;
      settledB s && nextEntry s == some (entryAt 5000000 .wrapped wrapped0) && stillBound s wrapped0 && i.op == 0x0402 && portOk i.stamp i.op i.args &&
        ownerOk data0 i.stamp i.op i.args && stateRefuses s i.op i.args == none),
    (nextEntry (withEntry (entryAt 4999999 (.sample 2) (mk 0 [])))).isSome,
    s0.body.pw.fallbackOn == false && decide (s0.body.pw.lastAccept.getD 0 + s0.body.flash.cap.fallback ≤ s0.alm.beat)] = true := by
  decide +kernel

def cell0 : SyncCell := { beat := 5000001, rootSerial := 9, priority := 0, hops := 1, state := 2, errBound := 5, zero := true }
def src0 : SyncSrc := { cell := cell0, at_ := 4999999, run := 3, offset := 0 }
/-- Port 3 carries, and the Almanac has heard a source on it. -/
def withCell (f : Almanac → Almanac) : State :=
  { s0 with
    alm := f { s0.alm with srcs := [(3, src0)] }
    body := { body0 with
      fab := { Fabric.reset with links := [(3, { LinkSt.reset with trained := true, lanes := 0xFF, verdict := .ok })] }
      md := { body0.md with plan := (List.replicate 7 []) ++ [[768], []] } } }
def offNs (s : State) (sub : Nat) : Int := ((s.alm.beat * 1000 + sub : Nat) : Int) - ((cell0.beat * 1000 + (s.body.fab.link 3).delayNs : Nat) : Int)

theorem wit_Synchronisation :
    allOf [
    (withCell id).alm.isRoot,
    lexLt [cell0.priority, cell0.rootSerial] [s0.alm.priority, s0.body.md.serial],
    !lexLt [cell0.priority, cell0.rootSerial] [0, 5],
    ((withCell id).body.fab.link 3).carries,
    !(s0.body.fab.link 3).carries,
    settledB (withCell id),
    (let s := withCell fun a => { a with mode := .follow, st := .free }; !s.alm.isRoot && settledB s),
    (let s := withCell fun a => { a with mode := .follow, source := 3 }; !s.alm.isRoot && s.alm.st == .locked && decide ((offNs s 990).natAbs ≤ 250)),
    (let s := withCell fun a => { a with mode := .follow, source := 3 }; decide (250 < (offNs s 0).natAbs) && decide (-1000000 ≤ offNs s 0)),
    (let s := withCell fun a => { a with mode := .follow, source := 3, beat := 4000000 }; decide (offNs s 0 < -1000000) && settledB s),
    (let s := withCell fun a => { a with mode := .follow, beat := 4999999 + 64 }; decide (s.alm.listenFrom + 64 ≤ s.alm.beat) && decide (src0.at_ + 64 ≤ s.alm.beat)),
    decide (s0.alm.beat < src0.at_ + 64),
    s0.alm.mode != .pps,
    (let s := withAlm fun a => { a with mode := .pps, st := .free, ppsNext := 6000000 }; settledB s && !s.alm.ppsSeen && !s.alm.rootLost),
    (let s := withAlm fun a => { a with mode := .pps, ppsSeen := true, ppsNext := 4000000, beat := 5000002, outliers := 2 };
      settledB s && decide (1000 < ((s.alm.beat * 1000 : Nat) - (ppsNearest s.alm.ppsNext s.alm.beat * 1000 : Nat) : Int).natAbs)),
    (let s := withAlm fun a => { a with mode := .pps, ppsSeen := true, ppsNext := 4000000 };
      decide (((s.alm.beat * 1000 : Nat) - (ppsNearest s.alm.ppsNext s.alm.beat * 1000 : Nat) : Int).natAbs ≤ s.alm.bound) &&
        decide (s.alm.ppsLast + 1500000 ≤ s.alm.beat))] = true := by
  decide +kernel

def withLatch (l : Latch) (f : Mgmt → Mgmt) : State := { s0.mg f with latch := l }
def freeLatch : Latch := { s0.latch with holder := none, remaining := 0 }

theorem wit_Lease :
    allOf [
    (let s := (withLatch freeLatch fun m => { m with nSt := .booting, sSt := .booting }).setMd { body0.md with state := 1, step := 3 };
      settledB s && freeLatch.winner (mayClaim s .north) (mayClaim s .south) == some .south && pmOf s.body.mg .south == .booting),
    (let s := withLatch freeLatch fun m => { m with nSt := .off };
      settledB s && freeLatch.winner (mayClaim s .north) (mayClaim s .south) == some .south && pmOf s.body.mg .south == .standbyReady && s.body.mg.handover == 0),
    s0.latch.holder == some .north && s0.latch.remaining != 0 && pmOf s0.body.mg .north == .holder && pmRuns s0 .north,
    (let s := s0.mg fun m => { m with sSt := .holder }; settledB s && s.latch.holder != some .south && pmRuns s .south),
    settledB (withLatch { s0.latch with remaining := 0 } id),
    s0.body.md.p3v3 && !s0.latch.fault,
    (let s := s0.mg fun m => { m with takeDue := true }; settledB s && s.body.mg.schedule.isEmpty),
    (let s := s0.mg fun m => { m with sSt := .syncing }; settledB s && s.acting && pmRuns s .south),
    pmOf s0.body.mg .south == .standbyReady && pmRuns s0 .north,
    (let s := s0.mg fun m => { m with sSt := .fault }; settledB s && !s.body.data.dieOut.contains (sideDie .south)),
    (let s := { s0 with body := { body0 with mgdb := { body0.mgdb with grants := 2 } } }; settledB s && s.body.mg.halted.isEmpty),
    s0.body.mgdb.grants == 0] = true := by
  decide +kernel

/-! ### Queues, passes, ports and packets -/

/-- The floor plan has been reported. -/
def settle (s : State) : State := s.setMd { s.body.md with plan := s.body.planParts }

def launchOf (s : State) : Launch := mgetD s.body.data.launches 1 launch1

/-- A queue entry: kind at 8, REP at 10, graph at 12, event at 14, value at 16. -/
def qentry (kind rep graph event value : Nat) : QEntry :=
  { bytes := natLe 64 (1 + kind * 256 ^ 8 + rep * 256 ^ 10 + graph * 256 ^ 12 + event * 256 ^ 14 + value * 256 ^ 16), ticket := 0, jgen := none }
def withEntryOf (e : QEntry) (run : Bool) : State :=
  withD { data0 with pigeons := [(0, { ph0 with queue := some { queue0 with entry := some e, running := run } })], launches := [] }
def withNode (n : GNode) (x : NodeRun) : State :=
  withD { data0 with graphs := [(0, { graph0 with nodes := [n] })], launches := [(1, { launch1 with nodes := [(0, x)] })] }
def nodeRun0 (st : NodeSt) (placed ended : Nat) (engine : Option Nat) : NodeRun :=
  { st := st, grid := 4, placed := placed, ended := ended, slip := 0, engine := engine, aborted := false }
def other0 (kind value : Nat) : GNode :=
  { kernel0 with kind := kind, array := false, groups := 0, regs := 0, bench := 0, blocks := 0, target := 0, value := BitVec.ofNat 64 value }
/-- Launch 1 is journalled, its node 0 done and watched. -/
def watchState : State := { s0 with body := { body0 with
  sj := [(0, journal0)], data := { data0 with launches := [(1, { launch1 with jgen := some 1, nodes := [(0, nodeRun0 .done 4 4 none)] })] } } }

theorem wit_QueuesAndNodes :
    allOf [
    queueClaims data0 ph0 queue0 && mayDispatch data0 0,
    (data0.sRead 0 4 (ph0.ring + 8) 8).2 == some 0,
    data0.devRead 0 (slotAddr ph0 0) 64 == some (List.replicate 64 0),
    (let d := poke data0 [(slotAddr ph0 0, (qentry 4 0 0 0 0).bytes)]; settledB (withD d) && d.devRead 0 (slotAddr ph0 0) 64 == some (qentry 4 0 0 0 0).bytes &&
      (entryChecks (qentry 4 0 0 0 0).bytes).all fun c => c.ok),
    field (qentry 2 0 0 0 0).bytes 8 1 == 2,
    settledB (withD { data0 with pigeons := [(0, { ph0 with queue := some { queue0 with running := false } })] }),
    ([2, 3, 4].all fun k => let s := withEntryOf (qentry k 0 0 0 0) false; settledB s && (entryOf s.body.data 0 k).isSome),
    ([1, 2, 3].all fun k => let s := withEntryOf (qentry k 0 0 0 1) (k != 1); settledB s && (entryOf s.body.data 0 k).isSome),
    (let s := withD { (withEntryOf (qentry 2 0 0 0 1) true).body.data with events := [(0, { event0 with addr := 2 ^ 39 })] };
      (s.body.data.eventVal 0).isNone),
    eventMet data0 0 0 0 && !eventBusy data0 0,
    (let d := (withEntryOf (qentry 2 0 0 0 0) true).body.data; eventBusy { d with slices := [(0, .flushing 1)] } 0 && settledB (withD { d with slices := [(0, .flushing 1)] })),
    !data0.busyAt 0 ph0.ring 24 && !data0.busyAt 0 (slotAddr ph0 0) 64,
    !eventMet data0 0 0 1,
    settledB (withEntryOf (qentry 1 1 0 0 0) true) && graphHeld data0 0 0 && (pickBank graph0).isSome,
    graphOk data0 0 0 && !graphHeld data0 0 5,
    (let s := withNode kernel0 (nodeRun0 .waiting 0 0 none); settledB s && nodeReady s.body (launchOf s) { graph0 with nodes := [kernel0] } 0),
    (let s := withNode (other0 7 0) (nodeRun0 .waiting 0 0 none); settledB s && nodeReady s.body (launchOf s) { graph0 with nodes := [other0 7 0] } 0),
    (let s := withNode (other0 4 3) (nodeRun0 .waiting 0 0 none); settledB s && nodeReady s.body (launchOf s) { graph0 with nodes := [other0 4 3] } 0 &&
      !eventMet (s.body.data.sWrite 0 7 (snapAddr graph0 0 0) noSlip) 0 0 3),
    !nodeReady body0 launch1 graph0 0,
    settledB (withNode kernel0 (nodeRun0 .dispatched 4 4 none)),
    settledB (withNode (other0 2 0) (nodeRun0 .dispatched 0 0 (some 0))),
    settledB (withNode (other0 3 0) (nodeRun0 .dispatched 0 0 (some 2))),
    settledB watchState && watchState.body.journalOf (launchOf watchState) == some journal0 && watchState.body.digestsDue (launchOf watchState) == [(0, 0)],
    decide (queue0.disp < 8) && (data0.devRead 0 0x2080 8).isSome && (data0.devRead 0 0x2088 8).isSome,
    event0.vector == 0xFFFF,
    settledB (withD { (withEntryOf (qentry 2 0 0 0 9) true).body.data with events := [(0, { event0 with vector := 3 })] })] = true := by
  decide +kernel

def pass0 (start : Option Nat) (phase : Nat) : Pass :=
  { due := 1, urgent := false, start := start, tags := 0, unresolved := false, stretch := 0, temp := 0, extra := 0, seed := 0, phase := phase, startKind := 0,
    partner := none, pack := 0, forced := none }
/-- A pass on a unit, with core 0 as given. -/
def withPass (u : PassUnit) (p : Pass) (c : Core) (d : Data) : State :=
  { s0 with alm := { s0.alm with beat := 1800000001 }, body := { body0 with hl := { Health.reset with passes := [(unitKey u, p)] }, data := { d with cores := [(0, c)], launches := [] } } }
def due0 (u : PassUnit) : State := withHl { Health.reset with dues := [(unitKey u, 1)], pairs := [(0, some 5)] }
def idle0 (p : CorePass) : Core := { Core.empty with pass := p }
/-- Every runner carries. -/
def runners (f : LinkSt → LinkSt) : Fabric := { Fabric.reset with links := (List.range 16).map fun k => (k, f { LinkSt.reset with trained := true, lanes := 0xFF, verdict := .ok }) }
def withRunnerPass (start : Option Nat) : State := settle { s0 with body := { body0 with fab := runners id, hl := { Health.reset with passes := [(unitKey (.runner 3), pass0 start 0)] } } }

theorem wit_Passes :
    allOf [
    ([PassUnit.slice 0 0, .runner 3, .engine (.courier 0 0)].all fun u => settledB (due0 u) && unitExists body0 (unitKind u) (unitCode u) && dueNow (due0 u).body 5000000 (unitKey u)),
    !passWaits s0 && s0.body.pw.cold == .running && s0.body.md.state == 2,
    settledB (due0 (.core 0)) && unitExists body0 1 (unitCode (.core 0)) && dueNow (due0 (.core 0)).body 5000000 (unitKey (.core 0)),
    !dueNow body0 5000000 (unitKey (.runner 3)),
    (let s := withPass (.core 0) (pass0 none 0) { core0 with pass := .deferral 1 (some 2) } data0; settledB s && !corePassReady s.body 0),
    settledB (withPass (.engine (.courier 0 0)) (pass0 none 0) core0 data0) && deferFor body0 (.engine (.courier 0 0)) (pass0 none 0) == 1800000000,
    settledB (withPass (.core 0) (pass0 none 0) { core0 with pass := .deferral 1 none } data0) && !dieBarred s0.body.pw 0,
    dieBarred { Power.reset with openR := [⟨5, 1, 0, 1, 1, 0, 0, 0, 0⟩] } 0,
    (let s := withPass (.core 0) (pass0 none 0) (idle0 (.deferral 1 none)) data0; settledB s && corePassReady s.body 0),
    settledB (withPass (.core 0) (pass0 (some 1) 0) (idle0 (.running 1 0 [])) data0),
    settledB (withPass (.core 0) (pass0 (some 1) 2) (idle0 (.running 1 2 [])) data0),
    coreVerdict (pass0 (some 1) 2) == 0,
    coreVerdict { pass0 (some 1) 2 with tags := 1 } == 1,
    coreVerdict { pass0 (some 1) 2 with stretch := 2 } == 3,
    settledB (withPass (.slice 0 0) (pass0 none 0) core0 data0) && !holdsSpill data0 0 0 && !isScratch data0 0 && isGranted data0 0 && !isGranted data0 2,
    settledB (withPass (.slice 0 0) (pass0 (some 1) 0) core0 { data0 with slices := [(0, .bypassed 1)] }),
    settledB (withPass (.slice 0 2) (pass0 (some 1) 0) core0 { data0 with slices := [(2, .bypassed 1)] }),
    decide (8 < ((List.range 56).filter fun j => sliceUp data0 j).length),
    settledB (withRunnerPass none) && (runners id).portUp 3 && !otherRunnerAway (runners id) 3,
    settledB (withRunnerPass (some 1)),
    settledB (withPass (.engine (.courier 0 0)) (pass0 (some 1) 0) core0 data0) && (data0.engine 0).running.isEmpty && (data0.engine 0).queue.isEmpty] = true := by
  decide +kernel

def packet0 : Packet :=
  { type := 1, epoch := false, flag := false, masked := false, ro := false, fwd := false, pm := false, dst := 0, src := 1, tag := 7, offset := 0x3000, len := 128,
    seq := 4, agent := 8, reqId := 1, hops := 8, aop := 0, ty := 0, status := 0, conn := 0, mask := [], data := [] }
def frame0 : GlFrame :=
  { dst := glAddr (withFab Fabric.reset).body.md.serial 17, src := 0, etherType := 0x88B5, vlan := false, length := 64, fcsOk := true, seq := 0, word := word0, body := .sync cell0 }
def survey0 : SurveyRec := { serial := 9, node := 1, nodeValid := false, position := 4, port := 11, lanes := 8, t1 := 0, t2 := 0, t3mt2 := 0, zero := true }
/-- Both global links are up besides the runners. -/
def withLinks (f : LinkSt → LinkSt) : State := settle (withFab { Fabric.reset with links := (List.range 18).map fun k => (k, f { LinkSt.reset with trained := true, lanes := 0xFF, verdict := .ok }) })

theorem wit_Links :
    allOf [
    settledB (withLinks id) && ((withLinks id).body.fab.link 17).trained && ((withLinks id).body.fab.link 17).training == none,
    settledB (withLinks fun l => { l with replays := 4096 }),
    settledB (withLinks fun l => { l with training := some 1 }),
    laneCount 0xFF == 8 && laneCount 0x0F == 4 && laneCount 3 == 2 && decide (laneCount 1 < 2),
    !(s0.body.fab.link 0).trained && (s0.body.fab.link 0).cable,
    frame0.fcsOk && !frame0.vlan && frame0.etherType == 0x88B5 && frame0.dst == glAddr (withLinks id).body.md.serial 17 &&
      frame0.seq == ((withLinks id).body.fab.link 17).rxSeq && ((withLinks id).body.fab.link 17).waiting.isEmpty,
    settledB (withLinks fun l => { l with waiting := [packet0] }),
    addCredits LinkSt.reset.credits [1, 0, 0, 0, 0, 0] == [1, 0, 0, 0, 0, 0] && vcOf packet0 == 0,
    ({ LinkSt.reset with credits := [1, 0, 0, 0, 0, 0] } : LinkSt).mayLeave packet0 && !LinkSt.reset.mayLeave packet0,
    ackBuf [(0, .packet packet0), (1, .packet packet0)] 1 == [(1, .packet packet0)],
    verdictOf (withLinks id).body 3 survey0 == .ok,
    verdictOf (withLinks id).body 3 { survey0 with port := 10 } == .miscabled] = true := by
  decide +kernel

def sent0 : SentPkt := { pkt := { packet0 with src := 0, dst := 1, seq := 3 }, port := some 0, first := 4980000, last := 4999980 }
def conn0 : Conn := { txSeq := 4, rxSeq := 4, rxZero := 0, unacked := [sent0], answers := [], held := [], hold := false, moved := none }
/-- Node 1 belongs to plot 0. -/
def data2 : Data := { data0 with plots := [(0, { plot0 with mem := [0, 1] })] }
/-- The runners carry; node 1 is connected. -/
def withConn (d : Data) : State := settle { s0 with body := { body0 with data := d, fab := { runners id with
  block := some 0,
  conns := [(connKey 1 0, conn0)], bank0 := [(1, mkRoute 1 0 31 31 31), (5, mkRoute 1 4 31 31 31)] } } }

theorem wit_Transport :
    allOf [
    settledB (withConn data0) && mayTake (withConn data0).body 0 && !mayTake body0 0,
    (withConn data0).body.fab.choosePort ((withConn data0).body.fab.route false 5) 0 == some 4,
    (directPort (withConn data0).body 5).isSome && directPort (withConn data0).body 5 == some 4 && (withConn data0).body.fab.portUp 4,
    isReqType 1 && isMsgType 11 && isMsgType 10,
    !packetWaits data2 packet0 && packetWaits { data2 with slices := [(0, .flushing 1)] } { packet0 with type := 10, data := List.replicate 8 0 } &&
      settledB (withConn { data2 with slices := [(0, .flushing 1)] }),
    oursB (withConn data0),
    ((withConn data0).body.fab.choosePort 0 0).isNone,
    settledB (withConn { data0 with halted := true }),
    decide (((3 : BitVec 32) - conn0.rxSeq).toInt < 0) && decide (0 ≤ ((5 : BitVec 32) - conn0.rxSeq).toInt),
    packet0.seq == ((withConn data0).body.fab.conn (connKey packet0.src packet0.conn)).rxSeq,
    tagPlot data0 { packet0 with tag := 8, type := 11 } == none,
    settledB (withConn data2) && tagPlot data2 packet0 == some 0 && (remotePhys data2 0 0x3000).isSome && (remotePhys data2 0 (0x3000 + 127)).isSome && (remotePhys data2 0 (0x3000 + 7)).isSome,
    data0.ctxPlot ph1.ctx == 0,
    settledB (withConn { data0 with reqs := [{ req0 with tgt := .remote 1, stage := .attached }] }) && data0.fills.isEmpty && data0.engines.isEmpty,
    ((withConn data0).body.fab.conn (connKey 1 0)).hold == false,
    seqCovered sent0.pkt.seq (BitVec.ofNat 32 3) && isReqType sent0.pkt.type,
    decide (sent0.last + 20 ≤ 5000000) && decide (sent0.first + 10000 ≤ 5000000)] = true := by
  decide +kernel

/-! ### Power, pins and ports -/

def mdWith (f : Module → Module) : State := settle (s0.setMd (f s0.body.md))
def withOut (l : List Nat) : State := settle (withD { data0 with dieOut := l })
/-- A state to which the command of a statement comes, at a later beat. -/
def at_ (beat : Nat) (s : State) : State := { s with alm := { s.alm with beat := beat } }
/-- Rails 0, 8, 9, 10 and 11 have failed phases, as many as the numbers say. -/
def phasesOf (l : List (Nat × Nat)) : SMap Bool := l.flatMap fun e => (List.range e.2).map fun p => (e.1 * 64 + p, false)
/-- One more phase of a rail fails with so many failed before. -/
def failing (r : Rail) (before : Nat) : Bool :=
  let s := withPw { Power.reset with phases := phasesOf [(railNo r, before)] }
  settledB s && railLoaded s r && decide (before < railPhases (railNo r)) && mget s.body.pw.phases (railNo r * 64 + before) == none
/-- And leaves that many. -/
def leaves (r : Rail) (before live : Nat) : Bool :=
  failing r before && ({ Power.reset with phases := mput (phasesOf [(railNo r, before)]) (railNo r * 64 + before) false }).live (railNo r) == live

theorem wit_PhasesAndDies :
    allOf [
    leaves (.vcore 0) 1 4, leaves (.vcore 0) 2 3, leaves .vsram 5 10, leaves .vsram 4 11, leaves .vhbm 3 4, leaves .vhbm 2 5,
    leaves .vioN 1 2, leaves .vioN 0 3, leaves .vioS 1 2,
    settledB (withOut [8]) && !railLoaded (withOut [8]) .vioN && !railLoaded (withOut [8]) (.vcore 8),
    settledB s0 && railLoaded s0 (.vcore 7) && railLoaded s0 .vioN && railLoaded s0 .vioS && s0.body.md.modPg,
    !s0.body.pw.droop.contains 3,
    settledB (withPw { Power.reset with droop := [3] }),
    settledB (mdWith fun m => { m with modPg := false })] = true := by
  decide +kernel

/-- COOLANT_OK has been low since a beat. -/
def lowSince (b : Nat) (c : ColdSt) : State := withPw { Power.reset with coolantOk := false, coolantSince := b, cold := c }
def inStep (n : Nat) : State := mdWith fun m => { m with state := 1, step := n }
def remoteReq : LineReq := { req0 with tgt := .remote 1, stage := .attached }
def stopping (t : Nat) (d : Data) : State := { withD d with body := { body0 with data := d, pw := { Power.reset with cold := .stopping t } } }

theorem wit_Cooling :
    allOf [
    decide ((100 : Nat) ≤ 100) && !decide ((100 : Nat) ≤ 99) && decide ((93 : Nat) ≤ 93),
    settledB s0 && s0.body.md.p3v3 && s0.body.md.state != 0 && s0.body.pw.coolantOk,
    settledB (lowSince 4998000 .running) && decide (s0.alm.beat ≤ 4998000 + 2000),
    settledB (lowSince 4997999 .running) && decide (4997999 + 2000 < s0.alm.beat) && (lowSince 4997999 .running).body.md.state == 2,
    (let s := (inStep 7).setPw { Power.reset with coolantOk := false, coolantSince := 4997999 }; settledB s && decide (4 ≤ s.body.md.step) &&
      decide (s.body.md.step < 12)),
    settledB (lowSince 4997999 (.stopping 4999000)),
    settledB (stopping 4999999 data0) && (data0.reqs.filter LineReq.open_).all LineReq.isRemote,
    settledB (stopping 4999000 { data0 with reqs := [req0] }) && decide (4999000 + 1000 ≤ s0.alm.beat),
    (let l := (([req0] : List LineReq).filter LineReq.open_); !l.all LineReq.isRemote),
    settledB (stopping 4999001 { data0 with reqs := [req0] }) && decide (s0.alm.beat < 4999001 + 1000),
    settledB (stopping 4999999 { data0 with reqs := [remoteReq] }) && ([remoteReq].filter LineReq.open_).all LineReq.isRemote] = true := by
  decide +kernel

theorem wit_Supplies :
    allOf [
    settledB s0 && !s0.body.md.uv && s0.body.md.inputGood && s0.body.md.pwrEn && s0.body.md.refclk && s0.body.md.oscOk,
    settledB (mdWith fun m => { m with uv := true }), settledB (mdWith fun m => { m with inputGood := false }),
    settledB (mdWith fun m => { m with state := 0 }), settledB (mdWith fun m => { m with p3v3 := false }),
    settledB (mdWith fun m => { m with pwrEn := false }), settledB (mdWith fun m => { m with pwrEn := false, oscOk := false }),
    settledB (mdWith fun m => { m with oscOk := false }), settledB (mdWith fun m => { m with refclk := false, refLost := 4999000 })] = true := by
  decide +kernel

def result0 : BringResult :=
  { coresOff := [1], coresArrayOff := [2], slices := [3], channels := [4], frames := [5], engines := [6], dispatchers := [7], diesOut := [], ioOut := [],
    bridgeFail := false, activeOk := true, otherOk := true, testPassed := true, links := [] }
def slotsB : Slots := { Slots.factory with bValid := true, bVersion := 2 }

theorem wit_BringUp :
    allOf [
    ([1, 2, 5, 6, 7, 8, 9, 12].all fun n => settledB (inStep n) && !mustFail (inStep n).body),
    settledB ((inStep 2).setMd { (inStep 2).body.md with modPg := false }) && (inStep 2).body.md.inputGood,
    (let s := (inStep 2).setMd { (inStep 2).body.md with inputGood := false }; settledB s),
    (let s := (inStep 3).setMd { (inStep 3).body.md with modPg := false, inputGood := false }; settledB s),
    settledB (inStep 3) && (inStep 3).gate && (inStep 3).body.md.modPg && (inStep 3).body.flash.polmen.aValid && !(inStep 3).body.flash.polmen.active,
    (let s := { inStep 3 with body := { (inStep 3).body with flash := { Flash.factory with polmen := slotsB } } }; settledB s && s.body.flash.polmen.spare.1),
    settledB (inStep 4) && mayPower (inStep 4),
    (let s := (inStep 4).setMd { (inStep 4).body.md with coolWait := true, latchTherm := some (1, 115, 7) }; settledB s && !mayPower s),
    settledB (inStep 10) && (inStep 10).body.flash.tordy.aValid && !(inStep 10).body.flash.tordy.active,
    settledB (inStep 11) && ((inStep 11).body.fab.link 17).cable && laneCount 0xFF == 8,
    (let s := (inStep 12).setPw { Power.reset with phases := phasesOf [(8, 6)] }; settledB s && mustFail s.body),
    (result0.coresOff.all fun c => decide (c < 672)) && (result0.slices.all fun c => decide (c < 448))] = true := by
  decide +kernel

def withPort (f : HostPortSt) : State := { s0 with body := { body0 with host := { body0.host with ha := f } } }

theorem wit_HostLinks :
    allOf [
    settledB s0 && s0.body.host.ha.up && s0.body.host.ha.vfEnable && !s0.body.host.hb.up && (s0.body.host.port .ha).up,
    (let s := withPort { HostPortSt.reset with perst := false }; settledB s && portMayTrain s.body .ha),
    !portMayTrain s0.body .ha && !portMayTrain s0.body .hb,
    onPortFn .ha 0 && !onPortFn .ha 1,
    (vfPlot { data0 with plots := [(0, { plot0 with vf := some (false, 5) })] } .ha 5).isSome,
    (let s := { s0 with body := { body0 with host := { body0.host with fns := [(67, { body0.host.fn (.vf .ha 3) with inFlr := true })] } } };
      settledB s && (s.body.host.fn (.vf .ha 3)).inFlr)] = true := by
  decide +kernel

theorem wit_ManagementPort :
    allOf [
    settledB s0 && mgUp s0 && !s0.latch.fault && s0.body.mg.nSt != .off,
    (let s := withMg fun m => { m with nSt := .booting }; settledB s && !mgUp s),
    (let s := { s0 with latch := { s0.latch with fault := true } }; settledB s && mgUp s),
    (let s := { withMg (fun m => { m with nSt := .off }) with latch := { s0.latch with fault := true } }; settledB s && !mgUp s),
    (let s := withMg fun m => { m with nSt := .off, sSt := .off }; settledB s && !s.body.md.recovery),
    (let s := s0.setMg { s0.body.mgdb with slots := (List.range 16).map fun i => (i, 9) }; settledB s && (List.range 16).all fun i => (mget s.body.mgdb.slots i).isSome),
    (let s := s0.setMg { s0.body.mgdb with slots := [(0, 9)] }; settledB s && mget s.body.mgdb.slots 1 == none && (mget s.body.mgdb.slots 0).isSome),
    (let s := withLetter (s0.setMg { s0.body.mgdb with slots := [(0, 9)] }) (mkMg 0x0101 []); settledB s && (s.body.mg.accept.head?.map hasRow) == some true),
    (let s := (withMg fun m => { m with nSt := .booting }); settledB s && !s.acting),
    s0.body.md.modPg && s0.body.mgdb.dynAddr.isNone,
    settledB (s0.setMg { s0.body.mgdb with dynAddr := some 9 })] = true := by
  decide +kernel

theorem wit_DebugPortAndCables :
    allOf [
    settledB (s0.setMg { s0.body.mgdb with grants := 1 }), settledB (s0.setMg { s0.body.mgdb with grants := 4 }),
    s0.body.mgdb.grants == 0,
    (withLinks id).body.fab.link 16 != LinkSt.reset && ((withLinks id).body.fab.link 16).cable,
    settledB (withLinks fun l => { l with cable := false }),
    settledB (withLinks fun l => { l with cablePower := true }) && ((withLinks fun l => { l with cablePower := true }).body.fab.link 17).cablePower,
    settledB (withLinks id)] = true := by
  decide +kernel

/-! ### Records, the latch and codes -/

def rec0 : Rec := { code := 0x0302, flags := 0, source := 7, seq := 0, beat := 4999000, suppressed := 0, payload := [] }
def window0 : Window := { last := 4999000, n := 1, latest := some rec0 }
def burst0 : Burst := { first := 4998000, last := 4999000, total := 1, held := [(1, { first := rec0, latest := rec0, n := 1, pend := 0 })], overflow := 0 }
def withLog (l : Log) : State := { s0 with body := { body0 with log := l } }

theorem wit_RecordRing :
    allOf [
    Log.reset.burst.isNone && decide (Log.reset.uncopied < 4096) && (mget Log.reset.windows (srcKey 0x0302 7)).isNone,
    (let s := withLog { Log.reset with windows := [(srcKey 0x0302 (7 + 256 * 0), window0)] }; settledB s &&
      mget s.body.log.windows (srcKey 0x0302 (7 + 256 * 0)) == some window0 && decide (window0.last + 1000 ≤ s.alm.beat)),
    decide (4999500 < window0.last + 1000) && decide (0 < window0.n),
    (let s := withLog { Log.reset with burst := some burst0 }; settledB s && decide (s.body.log.uncopied + 64 ≤ 4096)),
    (let s := withLog { Log.reset with ring := List.replicate 4033 rec0 }; settledB s && decide (4096 < s.body.log.uncopied + 64)),
    settledB s0 && s0.gate && decide (s0.body.log.lastCopy + 100000 ≤ s0.alm.beat),
    settledB (withLog { Log.reset with lastCopy := 4900001 })] = true := by
  decide +kernel

/-- The latch of the fixture and that of reset are legal, and a step answers a next state there. -/
theorem wit_LatchKept : LatchOk s0.latch ∧ LatchOk State.reset.latch ∧ step s0 = .next s0 ∧ latchCommand .coolantOkFall = false := by
  refine ⟨⟨?_, by decide +kernel, by decide +kernel⟩, ⟨?_, by decide +kernel, by decide +kernel⟩, rfl, rfl⟩
  · intro x h; exact h
  · intro x h; exact h

/-- A word that names a vector register beyond those allocated, and one that does not. -/
theorem wit_OperandRange :
    allOf [
    (match issueCtx data0 5000000 (word 3 16 1 0 0 0 0 0 0) with
      | none => false
      | some q => !illegal specIadd q.x && !(specIadd.wide q.x && q.on == 0 && Issue.guard q.x != 0) &&
        (specIadd.refs q.x).any fun r => r.sp == 0 && r.n != 255 && decide (q.b.regsAlloc < r.n + r.cnt)),
    (match issueCtx data0 5000000 (word 3 15 255 0 0 0 0 0 0) with
      | none => false
      | some q => (specIadd.refs q.x).all fun r => r.sp != 0 || r.n == 255 || decide (r.n + r.cnt ≤ q.b.regsAlloc)),
    rtPort1 (mkRoute 1 4 31 31 31) == 31 && rtPort1 (mkRoute 1 4 5 31 31) != 31,
    computing specIadd && !computing specLd && (huvalOf (.iadd (word 3 0 1 0 0 0 0 0 0))).isSome] = true := by
  decide +kernel

/-! ### Results of single steps, worked out from the spec -/

/-- The group of core 0 after one command. -/
def after (i : Instr) : Option Group :=
  match exec i s0 with
  | .next t => t.body.data.group 0 0
  | _ => none
def laneOf (i : Instr) (n t : Nat) : Option W32 := (after i).map fun g => g.rd 0 n t

/-- 03 R68; 04 Table 4: v0 holds the thread's number and v1 zero; the difference wraps. -/
theorem test_isub_wraps : laneOf (.isub (word 3 1 0 0 0 0 0 0 0)) 3 31 = some 0xFFFFFFE1 := by decide +kernel
/-- 04 R117: a shift uses the low five bits of its second source: thread 31 shifts 31 by 31. -/
theorem test_shl_top : laneOf (.shl (word 3 0 0 0 0 0 0 0 0)) 3 31 = some 0x80000000 := by decide +kernel
/-- 04 Table 4: the count of leading zeros of zero is 32. -/
theorem test_clz_zero : laneOf (.clz (word 3 1 0 0 0 0 0 0 0)) 3 0 = some 32 := by decide +kernel
/-- 04 Table 4: bits in reverse. -/
theorem test_brev : laneOf (.brev (word 3 0 0 0 0 0 0 0 0)) 3 1 = some 0x80000000 := by decide +kernel
/-- 04 R112: register 255 as a destination discards the value, and the program counter goes on by a word. -/
theorem test_discard : ((after (.iadd (word 255 0 0 0 0 0 0 0 0))).map fun g => (g.rd 0 3 5, g.pc)) = some (0, 0x400008) := by decide +kernel
/-- 03 R70: `exit` of the only group of a block on the core frees its slot. -/
theorem test_exit : after (.exit (word 0 0 0 0 0 0 0 0 0)) = none := by decide +kernel
/-- 04 Table 4: `nop` goes on by a word. -/
theorem test_nop_pc : ((after (.nop (word 0 0 0 0 0 0 0 0 0))).map fun g => g.pc) = some 0x400008 := by decide +kernel

end Sys2Proof.Tests
end

section
/-! The checks before the issue of a Huval instruction: what each instruction's command does to the state, and the vector
registers beyond those allocated (03 R69). -/

namespace Sys2Proof.Machine

/-- Every Huval instruction's command issues one word by the instruction's rules. -/
theorem exec_huval {i : Instr} {sp : OpSpec} {x : Issue} (h : huvalOf i = some (sp, x)) (s : State) :
    exec i s = .next (s.issue sp x) := by
  unfold huvalOf at h
  split at h <;> cases h <;> rfl

/-- A group that may issue, and whose word is the one it has fetched, comes to the checks of the word. -/
theorem issue_fetched {sp : OpSpec} {s : State} {x : Issue} {q : GCtx} (hq : issueCtx s.body.data s.alm.beat x = some q)
    (hf : fetchOk sp (atIssue s q) q = true) :
    s.issue sp x = { s with body := { s.body with data := issueWord sp (atIssue s q) q } } := by
  unfold atIssue at hf
  simp [State.issue, runIssue, atIssue, hq, hf]

/-- A legal word that its guard does not skip, and that names a register beyond those allocated, parks its group. -/
theorem issueWord_operandRange {sp : OpSpec} {q : GCtx} (d : Data) (hl : illegal sp q.x = false)
    (hg : (sp.wide q.x && q.on == 0 && Issue.guard q.x != 0) = false)
    (hr : (sp.refs q.x).any (refBeyond q.b.regsAlloc) = true) :
    issueWord sp d q = postIssueFault sp d q .operandRange q.on 0 := by
  simp only [issueWord, hl, hg, hr, Bool.false_eq_true, if_false, if_true]

@[simp] theorem refBeyond_iff (alloc : Nat) (r : Ref) :
    refBeyond alloc r = true ↔ r.sp = 0 ∧ r.n ≠ 255 ∧ alloc < r.n + r.cnt := by
  simp [refBeyond, and_assoc]

/-- Settles O56: the check of the registers is the first that such a word fails, and it fails exactly when an operand is a
vector register, not specifier 255, whose last register is not below `regs_alloc`. -/
theorem operandRange : Obligations.OperandRange := by
  intro i sp x hi s q hq hf hl hg
  obtain ⟨-, -, -, -, rfl, -⟩ := issueCtx_some hq
  constructor
  · rintro ⟨r, hr, hbeyond⟩
    have hany : (sp.refs q.x).any (refBeyond q.b.regsAlloc) = true :=
      List.any_eq_true.2 ⟨r, hr, (refBeyond_iff _ r).2 hbeyond⟩
    rw [exec_huval hi, issue_fetched hq hf, issueWord_operandRange _ hl hg hany, parked]
  · intro hall
    rw [List.any_eq_false]
    intro r hr hbeyond
    obtain ⟨hv, hn, hlt⟩ := (refBeyond_iff _ r).1 hbeyond
    have := hall r hr hv
    omega

end Sys2Proof.Machine
end

section
/-! Codes of the number formats (06): which codes are a NaN, the NaN that is written, and the two's complement elements. -/

namespace Sys2Proof.Machine

/-! ### Two's complement codes -/

/-- Sign extension is the balanced residue of the low bits. -/
theorem sext_eq_bmod {n : Nat} (hn : 0 < n) (x : Nat) : sext n x = (x : Int).bmod (2 ^ n) := by
  obtain ⟨k, rfl⟩ : ∃ k, n = k + 1 := ⟨n - 1, by omega⟩
  have hhalf : ((2 : Int) ^ (k + 1) + 1) / 2 = 2 ^ k := by omega
  simp only [sext, Int.bmod_def, Nat.cast_pow, Nat.cast_ofNat, hhalf, Nat.add_sub_cancel]
  norm_cast

/-- An 8-bit code stands for a number from -128 to 127 that has the code's low byte. -/
theorem sext_eight_spec (x : Nat) : -128 ≤ sext 8 x ∧ sext 8 x ≤ 127 ∧ sext 8 x % 256 = (x % 256 : Nat) := by
  rw [sext_eq_bmod (by decide)]
  simp only [Int.bmod_def]
  omega

/-- 06 R172: an MXINT8 element is its number in sixty-fourths. -/
theorem decodeCode_mxint8 (w : W32) : decodeCode 11 w = .fin ⟨sext 8 w.toNat, -6⟩ := rfl

/-- 06 R172: an INT8 element is its number. -/
theorem decodeCode_int8 (w : W32) : decodeCode 12 w = .fin ⟨sext 8 w.toNat, 0⟩ := rfl

/-! ### NaN codes -/

/-- E4M3 (06 Table 2): no infinity. -/
def e4m3 : FFmt := ⟨8, 3, 7, 0x7E, none, some 0x7F⟩

/-- E5M2 (06 Table 2). -/
def e5m2 : FFmt := ⟨8, 2, 15, 0x7B, some 0x7C, some 0x7E⟩

theorem ffmt_fp32 : ffmt 1 = some fp32 := rfl

theorem ffmt_bf16 : ffmt 2 = some bf16 := rfl

theorem ffmt_fp16 : ffmt 3 = some fp16 := rfl

theorem ffmt_e4m3 : ffmt 4 = some e4m3 := rfl

theorem ffmt_e5m2 : ffmt 5 = some e5m2 := rfl

/-- A code is a NaN when its magnitude lies beyond the largest finite one and is not the infinity. -/
theorem decodeF_eq_nan (f : FFmt) (c : Nat) :
    decodeF f c = .nan ↔ f.max < c % 2 ^ (f.width - 1) ∧ f.inf ≠ some (c % 2 ^ (f.width - 1)) := by
  simp only [decodeF, gt_iff_lt]
  split_ifs <;> simp_all

/-- The same of a register's low bits in a floating format. -/
theorem decodeCode_eq_nan {code : Nat} {f : FFmt} (hf : ffmt code = some f) (w : W32) :
    decodeCode code w = .nan ↔
      f.max < w.toNat % 2 ^ (f.width - 1) ∧ f.inf ≠ some (w.toNat % 2 ^ (f.width - 1)) := by
  have hdvd : 2 ^ (f.width - 1) ∣ 2 ^ f.width := pow_dvd_pow 2 (Nat.sub_le _ _)
  simp only [decodeCode, hf, decodeF_eq_nan, Nat.mod_mod_of_dvd _ hdvd]

/-- Where the infinity is the code after the largest finite one, every code beyond it is a NaN, and no other. -/
theorem decodeCode_eq_nan_of_inf {code : Nat} {f : FFmt} (hf : ffmt code = some f) (hinf : f.inf = some (f.max + 1))
    (w : W32) : decodeCode code w = .nan ↔ f.max + 1 < w.toNat % 2 ^ (f.width - 1) := by
  rw [decodeCode_eq_nan hf, hinf, ne_eq, Option.some.injEq]
  omega

/-- Where there is no infinity, every code beyond the largest finite one is a NaN, and no other. -/
theorem decodeCode_eq_nan_of_no_inf {code : Nat} {f : FFmt} (hf : ffmt code = some f) (hinf : f.inf = none)
    (w : W32) : decodeCode code w = .nan ↔ f.max < w.toNat % 2 ^ (f.width - 1) := by
  simp [decodeCode_eq_nan hf, hinf]

/-- 06 R179: a NaN is written as its format's NaN, and none is reported as created. -/
theorem encodeCode_nan {code : Nat} {f : FFmt} (hf : ffmt code = some f) (md : RMode) :
    encodeCode code md .nan = (f.nan.getD 0, 0) := by
  simp only [encodeCode, hf, encodeF]

/-- 06 R179: the scale of a block that holds a NaN is the NaN of E8M0, and none is reported as created. -/
theorem blockScale_of_nan_mem (code : Nat) {vs : List FVal} (h : FVal.nan ∈ vs) : blockScale code vs = (0xFF, 0) := by
  have hany : vs.any (· == .nan) = true := List.any_eq_true.2 ⟨.nan, h, by decide⟩
  simp only [blockScale, hany, if_true]

/-- Settles O54: the elements by their sign extension, the NaN codes by where each format's infinity lies. -/
theorem numberCodes : Obligations.NumberCodes := by
  refine ⟨fun w => ?_, fun md => ?_, fun code vs h => blockScale_of_nan_mem code h, fun w => ⟨?_, ?_, ?_, ?_, ?_⟩⟩
  · obtain ⟨hlo, hhi, hmod⟩ := sext_eight_spec w.toNat
    exact ⟨sext 8 w.toNat, hlo, hhi, hmod, decodeCode_mxint8 w, decodeCode_int8 w⟩
  · exact ⟨encodeCode_nan ffmt_fp32 md, encodeCode_nan ffmt_bf16 md, encodeCode_nan ffmt_fp16 md,
      encodeCode_nan ffmt_e4m3 md, encodeCode_nan ffmt_e5m2 md⟩
  · exact (decodeCode_eq_nan_of_inf ffmt_fp32 rfl w).symm
  · exact (decodeCode_eq_nan_of_inf ffmt_bf16 rfl w).symm
  · exact (decodeCode_eq_nan_of_inf ffmt_fp16 rfl w).symm
  · have hbeyond : w.toNat % 2 ^ 7 = 0x7F ↔ 0x7E < w.toNat % 2 ^ 7 := by omega
    exact hbeyond.trans (decodeCode_eq_nan_of_no_inf ffmt_e4m3 rfl w).symm
  · exact (decodeCode_eq_nan_of_inf ffmt_e5m2 rfl w).symm

end Sys2Proof.Machine
end

section
/-! The connections of the fabric (09 R273, R274): a packet's connection class, what a packet that leaves on a port does to the
connections, and what sending a packet does to its own connection and to the others. -/

namespace Sys2Proof.Machine

/-! ### Connection classes -/

theorem connClass_eq_one (e : BitVec 64) (agent : Nat) : connClass e agent = 1 ↔ rtPort1 e ≠ 31 ∧ agent % 2 = 1 := by
  unfold connClass
  split_ifs with h <;> simp [h]

theorem connClass_eq_zero_of_ne_one {e : BitVec 64} {agent : Nat} (h : connClass e agent ≠ 1) : connClass e agent = 0 :=
  if_neg fun hc => h ((connClass_eq_one e agent).2 hc)

/-! ### Reading a connection -/

@[simp] theorem conn_setConn_self (f : Fabric) (k : Nat) (c : Conn) : (f.setConn k c).conn k = c := by
  simp [Fabric.conn, mgetD]

theorem conn_setConn_ne (f : Fabric) {k j : Nat} (c : Conn) (h : j ≠ k) : (f.setConn k c).conn j = f.conn j := by
  simp [Fabric.conn, mgetD, mget_mput_ne _ _ _ _ h.symm]

@[simp] theorem conn_bodySetLink (b : Body) (k : Nat) (l : LinkSt) (j : Nat) : (b.setLink k l).fab.conn j = b.fab.conn j := rfl

@[simp] theorem conn_linkPut (b : Body) (k : Nat) (i : LinkItem) (j : Nat) : (b.linkPut k i).fab.conn j = b.fab.conn j := rfl

@[simp] theorem conn_linkPacket (b : Body) (k : Nat) (p : Packet) (j : Nat) :
    (b.linkPacket k p).fab.conn j = b.fab.conn j := by
  unfold Body.linkPacket
  dsimp only
  split <;> simp

/-- A packet that leaves on a port changes no connection. -/
@[simp] theorem conn_emitOn (b : Body) (port : Option Nat) (p : Packet) (j : Nat) :
    (b.emitOn port p).fab.conn j = b.fab.conn j := by
  cases port with
  | none => rfl
  | some k =>
    unfold Body.emitOn
    dsimp only
    split <;> simp

/-! ### Injecting a packet -/

/-- The packet that leaves on connection `k` for `p` (R273): it carries the connection's next SEQ and its class, the active parity
and this package's node. -/
def Body.onConn (b : Body) (k : Nat) (p : Packet) : Packet :=
  { p with seq := (b.fab.conn k).txSeq, conn := k % 2, epoch := b.fab.active, src := b.data.node }

/-- The connection `k` once `p` has left on it. -/
def Body.connSent (b : Body) (beat k : Nat) (p : Packet) : Conn :=
  { b.fab.conn k with
    txSeq := (b.fab.conn k).txSeq + 1
    unacked := (b.fab.conn k).unacked ++ [{ pkt := b.onConn k p, port := b.fab.portOf k, first := beat, last := beat }]
    moved := b.fab.movedTo k (b.fab.portOf k) }

theorem inject_eq (b : Body) (beat k : Nat) (p : Packet) :
    b.inject beat k p = ({ b with fab := b.fab.setConn k (b.connSent beat k p) }).emitOn (b.fab.portOf k) (b.onConn k p) := rfl

@[simp] theorem conn_inject_self (b : Body) (beat k : Nat) (p : Packet) :
    (b.inject beat k p).fab.conn k = b.connSent beat k p := by
  simp [inject_eq]

theorem conn_inject_ne (b : Body) (beat : Nat) {k j : Nat} (p : Packet) (h : j ≠ k) :
    (b.inject beat k p).fab.conn j = b.fab.conn j := by
  simp [inject_eq, conn_setConn_ne _ _ h]

/-! ### Sending a packet -/

/-- The connection that a packet takes: its node's, of the class that the active bank's entry gives it. -/
def Body.connFor (b : Body) (p : Packet) : Nat := connKey p.dst (connClass (b.fab.route b.fab.active p.dst) p.agent)

theorem send_of_not_hold {b : Body} {p : Packet} (hold : (b.fab.conn (b.connFor p)).hold = false) (beat : Nat) :
    b.send beat p = b.inject beat (b.connFor p) p :=
  if_neg (Bool.eq_false_iff.1 hold)

theorem send_of_hold {b : Body} {p : Packet} (hold : (b.fab.conn (b.connFor p)).hold = true) (beat : Nat) :
    (b.send beat p).fab = b.fab.setConn (b.connFor p)
      { b.fab.conn (b.connFor p) with held := (b.fab.conn (b.connFor p)).held ++ [p] } :=
  congrArg Body.fab (if_pos hold)

/-- Sending a packet changes no connection but its own. -/
theorem conn_send_ne (b : Body) (beat : Nat) (p : Packet) {j : Nat} (h : j ≠ b.connFor p) :
    (b.send beat p).fab.conn j = b.fab.conn j := by
  cases hold : (b.fab.conn (b.connFor p)).hold with
  | true => rw [send_of_hold hold, conn_setConn_ne _ _ h]
  | false => rw [send_of_not_hold hold, conn_inject_ne _ _ _ h]

/-- Behind a hold (R284) a packet waits on its connection. -/
theorem conn_send_of_hold {b : Body} {p : Packet} (hold : (b.fab.conn (b.connFor p)).hold = true) (beat : Nat) :
    (b.send beat p).fab.conn (b.connFor p) =
      { b.fab.conn (b.connFor p) with held := (b.fab.conn (b.connFor p)).held ++ [p] } := by
  rw [send_of_hold hold, conn_setConn_self]

/-- Without a hold a packet leaves on its connection. -/
theorem conn_send_of_not_hold {b : Body} {p : Packet} (hold : (b.fab.conn (b.connFor p)).hold = false) (beat : Nat) :
    (b.send beat p).fab.conn (b.connFor p) = b.connSent beat (b.connFor p) p := by
  rw [send_of_not_hold hold, conn_inject_self]

/-- Settles O55: the class by its definition; the connection that a packet takes is the only one its sending changes, which keeps
the packet behind a hold, and otherwise sends it under its next SEQ. -/
theorem connectionClass : Obligations.ConnectionClass := by
  refine ⟨fun e agent => ⟨connClass_eq_one e agent, connClass_eq_zero_of_ne_one⟩, fun b beat p =>
    ⟨fun j other => conn_send_ne b beat p other, fun hold => conn_send_of_hold hold beat, fun hold => ?_⟩⟩
  have hsent := conn_send_of_not_hold hold beat
  exact ⟨congrArg Conn.txSeq hsent, _, congrArg Conn.unacked hsent, rfl, rfl, rfl⟩

end Sys2Proof.Machine
end

section
/-! The queue and the lease latch (13 R368): no operation on the state that a command is made of changes them, but those of
the latch itself. -/

namespace Sys2Proof.Machine

/-- The queue and the lease latch of a state. -/
def State.ctl (s : State) : List Instr × Latch := (s.pending, s.latch)

@[simp] theorem ctl_body (s : State) (b : Body) : State.ctl { s with body := b } = s.ctl := rfl
@[simp] theorem ctl_alm (s : State) (a : Almanac) : State.ctl { s with alm := a } = s.ctl := rfl
@[simp] theorem ctl_alm_body (s : State) (a : Almanac) (b : Body) : State.ctl { s with alm := a, body := b } = s.ctl := rfl

@[simp] theorem ctl_ite (c : Prop) [Decidable c] (s t : State) : (if c then s else t).ctl = if c then s.ctl else t.ctl :=
  apply_ite _ _ _ _

@[simp] theorem ctl_fst_ite {α : Type} (c : Prop) [Decidable c] (s t : State × α) :
    (if c then s else t).1.ctl = if c then s.1.ctl else t.1.ctl :=
  apply_ite (fun x : State × α => x.1.ctl) _ _ _

theorem ctl_foldl {α : Type} {f : State → α → State} (hf : ∀ s a, (f s a).ctl = s.ctl) (l : List α) (s : State) :
    (l.foldl f s).ctl = s.ctl := by
  induction l generalizing s with
  | nil => rfl
  | cons a l ih => rw [List.foldl_cons, ih, hf]

@[simp] theorem ctl_finish (s : State) : s.finish.ctl = s.ctl := by simp [State.ctl]

theorem ctl_if {c : Prop} [Decidable c] {s t : State} {r : List Instr × Latch} (hs : s.ctl = r) (ht : t.ctl = r) :
    (if c then s else t).ctl = r := by
  split
  · exact hs
  · exact ht

theorem ctl_fst_if {α : Type} {c : Prop} [Decidable c] {s t : State × α} {r : List Instr × Latch} (hs : s.1.ctl = r)
    (ht : t.1.ctl = r) : (if c then s else t).1.ctl = r := by
  split
  · exact hs
  · exact ht

theorem ctl_have {α : Type} {v : α} {f : α → State} {r : List Instr × Latch} (h : (f v).ctl = r) :
    (have x := v; f x).ctl = r := h

@[simp] theorem ctl_post (s : State) (code unit : Nat) (fields : List (Nat × Nat)) :
    (State.post s code unit fields).ctl = s.ctl := rfl

@[simp] theorem ctl_deliver (s : State) (l : Letter) (r : Reply) (dup : Bool) : (deliver s l r dup).ctl = s.ctl := by
  unfold deliver
  dsimp only
  split <;> simp

@[simp] theorem ctl_mg (s : State) (f : Mgmt → Mgmt) : (State.mg s f).ctl = s.ctl := rfl

@[simp] theorem ctl_reply (s : State) (jid : Nat) (res : Res) : (reply s jid res).ctl = s.ctl := by
  unfold reply
  split
  · rfl
  · simp [ctl_foldl]

@[simp] theorem ctl_logDenied (s : State) (l : Letter) (status : Nat) : (logDenied s l status).ctl = s.ctl := by
  simp [logDenied]

/-- A letter's handling does what its effect does. -/
theorem ctl_handle {eff : State → Letter → Nat → State × Res} (heff : ∀ s l j, (eff s l j).1.ctl = s.ctl) (s : State)
    (l : Letter) : (handle s l eff).ctl = s.ctl := by
  unfold handle
  dsimp only
  (repeat' split) <;> simp [heff]

@[simp] theorem ctl_drainBad (n : Nat) (s : State) : (drainBad n s).ctl = s.ctl := by
  induction n generalizing s with
  | zero => rfl
  | succ n ih =>
    unfold drainBad
    split
    · simp [ih, ctl_handle]
    · rfl

@[simp] theorem ctl_ringSlot (s : State) (fn : Fn) (l : Letter) : (ringSlot s fn l).ctl = s.ctl := by
  simp [ringSlot]

@[simp] theorem ctl_takeRings (s : State) : (takeRings s).ctl = s.ctl := by
  refine ctl_foldl (fun s o => ?_) _ s
  dsimp only
  split <;> simp

@[simp] theorem ctl_addEntry (s : State) (l : Letter) (beat : Nat) (kind : SKind) (counts : Bool) : (addEntry s l beat kind counts).1.ctl = s.ctl := by
  simp [addEntry]

@[simp] theorem ctl_schedule (s : State) (l : Letter) (beat o : Nat) (kind : SKind) : (schedule s l beat o kind).1.ctl = s.ctl := by
  unfold schedule
  split <;> simp

@[simp] theorem ctl_dropEntry (s : State) (ticket : Nat) : (dropEntry s ticket).ctl = s.ctl := by
  simp [dropEntry]

@[simp] theorem ctl_letterExecuted (s : State) (e : SEntry) (status : Nat) : (letterExecuted s e status).ctl = s.ctl := by
  simp [letterExecuted]

@[simp] theorem ctl_setAlm (s : State) (a : Almanac) : (State.setAlm s a).ctl = s.ctl := rfl

@[simp] theorem ctl_corrected (s : State) (removed : Int) : (corrected s removed).ctl = s.ctl := by
  simp [corrected]

@[simp] theorem ctl_discipline (s : State) : (discipline s).ctl = s.ctl := rfl

@[simp] theorem ctl_correct (s : State) (off : Int) : (correct s off).ctl = s.ctl := by
  simp [correct]

@[simp] theorem ctl_setCount (s : State) (beat : Nat) : (setCount s beat).ctl = s.ctl := by
  simp [setCount]

@[simp] theorem ctl_followCell (s : State) (port subNs : Nat) : (followCell s port subNs).ctl = s.ctl := by
  unfold followCell
  (repeat' split) <;> simp

@[simp] theorem ctl_discard (s : State) (port reason : Nat) : (discard s port reason).ctl = s.ctl := rfl

@[simp] theorem ctl_effRootFollow (s : State) (_l : Letter) (j : Nat) : (effRootFollow s _l j).1.ctl = s.ctl := by
  simp [effRootFollow]

@[simp] theorem ctl_effRootInternal (s : State) (l : Letter) (j : Nat) : (effRootInternal s l j).1.ctl = s.ctl := by
  simp [effRootInternal]

@[simp] theorem ctl_effRootPps (s : State) (l : Letter) (j : Nat) : (effRootPps s l j).1.ctl = s.ctl := by
  simp [effRootPps]

@[simp] theorem ctl_effStatus (s : State) (_l : Letter) (j : Nat) : (effStatus s _l j).1.ctl = s.ctl := rfl

@[simp] theorem ctl_effScheduleAdd (s : State) (l : Letter) (j : Nat) : (effScheduleAdd s l j).1.ctl = s.ctl := by
  unfold effScheduleAdd
  split <;> simp

@[simp] theorem ctl_effScheduleCancel (s : State) (l : Letter) (j : Nat) : (effScheduleCancel s l j).1.ctl = s.ctl := by
  unfold effScheduleCancel
  split <;> simp

@[simp] theorem ctl_setPw (s : State) (p : Power) : (State.setPw s p).ctl = s.ctl := rfl

@[simp] theorem ctl_almEdge (s : State) : (almEdge s).ctl = s.ctl := by
  unfold almEdge
  dsimp only
  split <;> simp

@[simp] theorem ctl_sendSync (s : State) : (sendSync s).ctl = s.ctl := by
  simp [sendSync]

@[simp] theorem ctl_addBudget (s : State) (watts start dur order : Nat) : (addBudget s watts start dur order).ctl = s.ctl := by
  simp [addBudget]

@[simp] theorem ctl_armBudgets (s : State) : (armBudgets s).ctl = s.ctl := by
  unfold armBudgets
  split
  · rfl
  · exact ctl_foldl (fun s e => by split <;> simp) _ s

@[simp] theorem ctl_newBudget (s : State) (watts start dur : Nat) : (newBudget s watts start dur).ctl = s.ctl := by
  simp [newBudget]

@[simp] theorem ctl_accepted (s : State) : (accepted s).ctl = s.ctl := by
  simp [accepted]

@[simp] theorem ctl_effBudget (s : State) (l : Letter) (j : Nat) : (effBudget s l j).1.ctl = s.ctl := by
  simp [effBudget]

@[simp] theorem ctl_effCap (s : State) (l : Letter) (j : Nat) : (effCap s l j).1.ctl = s.ctl := rfl

@[simp] theorem ctl_effReasonsCurrent (s : State) (_l : Letter) (j : Nat) : (effReasonsCurrent s _l j).1.ctl = s.ctl := rfl

@[simp] theorem ctl_effReasonsHistory (s : State) (l : Letter) (j : Nat) : (effReasonsHistory s l j).1.ctl = s.ctl := rfl

@[simp] theorem ctl_effEnergyContexts (s : State) (l : Letter) (j : Nat) : (effEnergyContexts s l j).1.ctl = s.ctl := rfl

@[simp] theorem ctl_effEnergySample (s : State) (l : Letter) (j : Nat) : (effEnergySample s l j).1.ctl = s.ctl := by
  simp [effEnergySample]

@[simp] theorem ctl_effEnergyRead (s : State) (l : Letter) (j : Nat) : (effEnergyRead s l j).1.ctl = s.ctl := by
  unfold effEnergyRead
  split <;> simp

@[simp] theorem ctl_takeSample (s : State) (slot : Nat) (meas : List Nat) : (takeSample s slot meas).ctl = s.ctl := by
  simp [takeSample]

@[simp] theorem ctl_effIdentify (s : State) (_l : Letter) (j : Nat) : (effIdentify s _l j).1.ctl = s.ctl := rfl

@[simp] theorem ctl_effFloorplan (s : State) (l : Letter) (j : Nat) : (effFloorplan s l j).1.ctl = s.ctl := rfl

@[simp] theorem ctl_effGrade (s : State) (_l : Letter) (j : Nat) : (effGrade s _l j).1.ctl = s.ctl := rfl

@[simp] theorem ctl_standbyLost (s : State) (x : Side) (st : PmState) : (standbyLost s x st).ctl = s.ctl := by
  simp [standbyLost]

@[simp] theorem ctl_effLeaseQuery (s : State) (_l : Letter) (j : Nat) : (effLeaseQuery s _l j).1.ctl = s.ctl := rfl

@[simp] theorem ctl_effHandover (s : State) (_l : Letter) (j : Nat) : (effHandover s _l j).1.ctl = s.ctl := by
  simp [effHandover]

@[simp] theorem ctl_effLogRead (s : State) (l : Letter) (j : Nat) : (effLogRead s l j).1.ctl = s.ctl := rfl

@[simp] theorem ctl_effLogClear (s : State) (l : Letter) (j : Nat) : (effLogClear s l j).1.ctl = s.ctl := rfl

@[simp] theorem ctl_setUpload (s : State) (comp : Nat) (u : Option Upload) : (setUpload s comp u).ctl = s.ctl := by
  simp [setUpload]

@[simp] theorem ctl_beginUp (s : State) (l : Letter) (comp : Nat) : (beginUp s l comp).1.ctl = s.ctl := by
  unfold beginUp
  split <;> simp

@[simp] theorem ctl_dataUp (s : State) (l : Letter) (comp bad : Nat) : (dataUp s l comp bad).1.ctl = s.ctl := by
  unfold dataUp
  split <;> simp

@[simp] theorem ctl_setSlots (s : State) (comp : Nat) (x : Slots) : (setSlots s comp x).ctl = s.ctl := rfl

@[simp] theorem ctl_effFwBegin (s : State) (l : Letter) (j : Nat) : (effFwBegin s l j).1.ctl = s.ctl := by
  simp [effFwBegin]

@[simp] theorem ctl_effFwData (s : State) (l : Letter) (j : Nat) : (effFwData s l j).1.ctl = s.ctl := by
  simp [effFwData]

@[simp] theorem ctl_effFwCommit (v : ImageVerdict) (s : State) (l : Letter) (j : Nat) : (effFwCommit v s l j).1.ctl = s.ctl := by
  unfold effFwCommit
  dsimp only
  split <;> simp

@[simp] theorem ctl_effFwAbort (s : State) (l : Letter) (j : Nat) : (effFwAbort s l j).1.ctl = s.ctl := by
  simp [effFwAbort]

@[simp] theorem ctl_fwActivated (s : State) (c : Nat) (x : Slots) (mode : Nat) : (fwActivated s c x mode).ctl = s.ctl := by
  simp [fwActivated]

@[simp] theorem ctl_effActivateReset (s : State) (l : Letter) (j : Nat) : (effActivateReset s l j).1.ctl = s.ctl := by
  simp [effActivateReset]

@[simp] theorem ctl_effActivateLive (booted : Bool) (s : State) (l : Letter) (j : Nat) : (effActivateLive booted s l j).1.ctl = s.ctl := by
  simp [effActivateLive]

@[simp] theorem ctl_effChallenge (s : State) (_l : Letter) (j : Nat) : (effChallenge s _l j).1.ctl = s.ctl := rfl

@[simp] theorem ctl_effPresent (valid : Bool) (s : State) (l : Letter) (j : Nat) : (effPresent valid s l j).1.ctl = s.ctl := by
  simp [effPresent]

@[simp] theorem ctl_effDbLock (s : State) (_l : Letter) (j : Nat) : (effDbLock s _l j).1.ctl = s.ctl := by
  simp [effDbLock]

@[simp] theorem ctl_effCalSet (s : State) (l : Letter) (j : Nat) : (effCalSet s l j).1.ctl = s.ctl := rfl

@[simp] theorem ctl_effCalQuery (s : State) (l : Letter) (j : Nat) : (effCalQuery s l j).1.ctl = s.ctl := rfl

@[simp] theorem ctl_effTestNow (s : State) (l : Letter) (j : Nat) : (effTestNow s l j).1.ctl = s.ctl := by
  simp [effTestNow]

@[simp] theorem ctl_effSuspects (s : State) (l : Letter) (j : Nat) : (effSuspects s l j).1.ctl = s.ctl := rfl

@[simp] theorem ctl_effPackBegin (s : State) (l : Letter) (j : Nat) : (effPackBegin s l j).1.ctl = s.ctl := by
  simp [effPackBegin]

@[simp] theorem ctl_effPackData (s : State) (l : Letter) (j : Nat) : (effPackData s l j).1.ctl = s.ctl := by
  simp [effPackData]

@[simp] theorem ctl_effPackAbort (s : State) (_l : Letter) (j : Nat) : (effPackAbort s _l j).1.ctl = s.ctl := by
  simp [effPackAbort]

@[simp] theorem ctl_effPackQuery (s : State) (_l : Letter) (j : Nat) : (effPackQuery s _l j).1.ctl = s.ctl := rfl

@[simp] theorem ctl_effPackCommit (v : PackVerdict) (s : State) (_l : Letter) (j : Nat) : (effPackCommit v s _l j).1.ctl = s.ctl := by
  unfold effPackCommit
  split <;> simp

@[simp] theorem ctl_setData (s : State) (d : Data) : (State.setData s d).ctl = s.ctl := rfl

@[simp] theorem ctl_effPlotCreate (s : State) (l : Letter) (j : Nat) : (effPlotCreate s l j).1.ctl = s.ctl := by
  unfold effPlotCreate
  (repeat' split) <;> simp

/-- A letter to a plot does what its effect on the plot does. -/
theorem ctl_onPlot {s : State} {f : Plot → State × Res} (hf : ∀ p, (f p).1.ctl = s.ctl) (n : Nat) :
    (onPlot s n f).1.ctl = s.ctl := by
  unfold onPlot
  split <;> simp [hf]

@[simp] theorem ctl_effDrain (s : State) (l : Letter) (j : Nat) : (effDrain s l j).1.ctl = s.ctl :=
  ctl_onPlot (fun p => by simp) _

@[simp] theorem ctl_effDrainRelease (s : State) (l : Letter) (j : Nat) : (effDrainRelease s l j).1.ctl = s.ctl :=
  ctl_onPlot (fun p => by simp) _

@[simp] theorem ctl_effDrainQuery (s : State) (l : Letter) (j : Nat) : (effDrainQuery s l j).1.ctl = s.ctl :=
  ctl_onPlot (fun p => by simp) _

@[simp] theorem ctl_effPlotDestroy (s : State) (l : Letter) (jid : Nat) : (effPlotDestroy s l jid).1.ctl = s.ctl := by
  unfold effPlotDestroy
  dsimp only
  split <;> simp

@[simp] theorem ctl_withdraw (s : State) (n : Nat) (p : Plot) : (withdraw s n p).ctl = s.ctl := by
  simp [withdraw, ctl_foldl]

@[simp] theorem ctl_effPlot (s : State) (l : Letter) (jid : Nat) : (effPlot s l jid).1.ctl = s.ctl := by
  unfold effPlot
  split <;> simp

@[simp] theorem ctl_plotWaiters (n : Nat) (s : State) : (plotWaiters n s).ctl = s.ctl := by
  induction n generalizing s with
  | zero => rfl
  | succ n ih =>
    unfold plotWaiters
    split
    · rfl
    · split
      · rw [ih, ctl_reply]
      · dsimp only
        split <;> simp [ih]

@[simp] theorem ctl_toreDown (s : State) (n : Nat) (p : Plot) : (toreDown s n p).ctl = s.ctl := by
  unfold toreDown
  extract_lets force s₁ s₂
  have h₂ : s₂.ctl = s.ctl := by
    dsimp only [s₂]
    split
    · exact ctl_mg _ _
    · rfl
  split
  · simp only [ctl_plotWaiters, ctl_reply, h₂]
  · exact h₂

/-- A letter to a context does what its effect on the context does. -/
theorem ctl_onCtx {s : State} {f : Ctx → State × Res} (hf : ∀ c, (f c).1.ctl = s.ctl) (c o : Nat) :
    (onCtx s c o f).1.ctl = s.ctl := by
  unfold onCtx
  (repeat' split) <;> simp [hf]

@[simp] theorem ctl_effCtxCreate (s : State) (l : Letter) (j : Nat) : (effCtxCreate s l j).1.ctl = s.ctl := by
  refine ctl_onPlot (fun p => ?_) _
  iterate 8 refine ctl_fst_if rfl ?_
  split
  · extract_lets d₁ d₂ x d₃ s₁
    exact ctl_setData s d₃
  · rfl

@[simp] theorem ctl_effEventCreate (s : State) (l : Letter) (j : Nat) : (effEventCreate s l j).1.ctl = s.ctl := by
  refine ctl_onCtx (fun c => ?_) _ _
  (repeat' split) <;> rfl

@[simp] theorem ctl_effPigeonholeCreate (s : State) (l : Letter) (j : Nat) : (effPigeonholeCreate s l j).1.ctl = s.ctl := by
  refine ctl_onCtx (fun c => ?_) _ _
  dsimp only
  (repeat' split) <;> rfl

@[simp] theorem ctl_effQueueCreate (s : State) (l : Letter) (j : Nat) : (effQueueCreate s l j).1.ctl = s.ctl := by
  refine ctl_onCtx (fun c => ?_) _ _
  split <;> simp

@[simp] theorem ctl_effMemCreate (s : State) (l : Letter) (j : Nat) : (effMemCreate s l j).1.ctl = s.ctl := by
  refine ctl_onPlot (fun p => ?_) _
  extract_lets pkg step size
  split
  · rfl
  · split
    · rfl
    · split
      · exact ctl_setData _ _
      · rfl

@[simp] theorem ctl_effMemCreateHw (s : State) (l : Letter) (j : Nat) : (effMemCreateHw s l j).1.ctl = s.ctl := by
  refine ctl_onPlot (fun p => ?_) _
  dsimp only
  (repeat' split) <;> simp

@[simp] theorem ctl_effMemInvalidate (s : State) (l : Letter) (j : Nat) : (effMemInvalidate s l j).1.ctl = s.ctl :=
  ctl_onPlot (fun p => by simp) _

@[simp] theorem ctl_countReply (s : State) (kind id base : Nat) : (countReply s kind id base).1.ctl = s.ctl := by
  unfold countReply
  split <;> simp

@[simp] theorem ctl_dropRef (s : State) (kind id base o : Nat) : (dropRef s kind id base o).1.ctl = s.ctl := by
  unfold dropRef
  split <;> simp

@[simp] theorem ctl_effMemRelease (s : State) (l : Letter) (j : Nat) : (effMemRelease s l j).1.ctl = s.ctl := by
  simp [effMemRelease]

@[simp] theorem ctl_effObjRelease (s : State) (l : Letter) (j : Nat) : (effObjRelease s l j).1.ctl = s.ctl := by
  simp [effObjRelease]

@[simp] theorem ctl_effObjRetain (s : State) (l : Letter) (j : Nat) : (effObjRetain s l j).1.ctl = s.ctl := by
  unfold effObjRetain
  dsimp only
  split <;> simp

@[simp] theorem ctl_effCtxRelease (s : State) (l : Letter) (j : Nat) : (effCtxRelease s l j).1.ctl = s.ctl := by
  unfold effCtxRelease
  dsimp only
  split <;> simp

@[simp] theorem ctl_setBody (s : State) (b : Body) : (State.setBody s b).ctl = s.ctl := rfl

@[simp] theorem ctl_dieOut (s : State) (die cause : Nat) : (dieOut s die cause).ctl = s.ctl := by
  simp [dieOut]

@[simp] theorem ctl_chanRetire (s : State) (ch : Nat) : (chanRetire s ch).ctl = s.ctl := by
  simp [chanRetire]

@[simp] theorem ctl_sliceRetire (s : State) (k : Nat) : (sliceRetire s k).ctl = s.ctl := by
  unfold sliceRetire
  dsimp only
  split <;> simp

@[simp] theorem ctl_portDown (s : State) (p : HostPort) (cause : Nat) : (portDown s p cause).ctl = s.ctl := by
  simp [portDown]

@[simp] theorem ctl_linkDown (s : State) (k reason : Nat) : (linkDown s k reason).ctl = s.ctl := by
  simp [linkDown]

@[simp] theorem ctl_ioOut (s : State) (x : Side) (cause : Nat) : (ioOut s x cause).ctl = s.ctl := by
  unfold ioOut
  extract_lets die b
  split
  · rfl
  · split
    simp only [ctl_post, ctl_portDown, ctl_setBody, ctl_foldl (fun s k => ctl_linkDown s k 0)]

@[simp] theorem ctl_moduleFails (s : State) : (moduleFails s).ctl = s.ctl := by
  simp [moduleFails]

@[simp] theorem ctl_modFn (s : State) (f : Fn) (g : FnRegs → FnRegs) : (State.modFn s f g).ctl = s.ctl := by
  simp [State.modFn]

@[simp] theorem ctl_emit (s : State) (o : Output) : (State.emit s o).ctl = s.ctl := by
  simp [State.emit]

@[simp] theorem ctl_resizeBar2 (s : State) (f : Fn) (log2 : Nat) : (resizeBar2 s f log2).ctl = s.ctl := by
  simp [resizeBar2]

@[simp] theorem ctl_unsetPort (s : State) (p : HostPort) : (unsetPort s p).ctl = s.ctl := by
  simp [unsetPort]

@[simp] theorem ctl_setLink (s : State) (k : Nat) (l : LinkSt) : (State.setLink s k l).ctl = s.ctl := by
  simp [State.setLink]

@[simp] theorem ctl_sendSurvey (s : State) (k : Nat) : (sendSurvey s k).ctl = s.ctl := by
  simp [sendSurvey]

@[simp] theorem ctl_startRetrain (s : State) (k : Nat) : (startRetrain s k).ctl = s.ctl := by
  simp [startRetrain]

@[simp] theorem ctl_tooMany (s : State) (k : Nat) : (tooMany s k).ctl = s.ctl := by
  simp [tooMany]

@[simp] theorem ctl_setVerdict (s : State) (k : Nat) (v : Verdict) : (setVerdict s k v).ctl = s.ctl := by
  unfold setVerdict
  split <;> simp

@[simp] theorem ctl_forward (s : State) (p : Packet) : (forward s p).ctl = s.ctl := by
  unfold forward
  dsimp only
  (repeat' split) <;> simp

/-- A packet's transport does what taking the packet does. -/
theorem ctl_transport {f : State → State} (hf : ∀ s, (f s).ctl = s.ctl) (s : State) (p : Packet) :
    (transport s p f).ctl = s.ctl := by
  unfold transport
  dsimp only
  split <;> simp [hf]

@[simp] theorem ctl_refuseRemote (s : State) (p : Packet) : (refuseRemote s p).ctl = s.ctl := by
  unfold refuseRemote
  dsimp only
  split <;> rfl

@[simp] theorem ctl_applyPacket (s : State) (port : Nat) (p : Packet) : (applyPacket s port p).ctl = s.ctl := by
  unfold applyPacket
  refine ctl_have (ctl_have (ctl_have ?_))
  split
  · exact ctl_refuseRemote s p
  · refine ctl_if rfl (ctl_if ?_ ?_)
    · split
      · exact ctl_if rfl (ctl_refuseRemote s p)
      · exact ctl_refuseRemote s p
    · split
      · split <;> rfl
      · exact ctl_refuseRemote s p

@[simp] theorem ctl_takePacket (s : State) (port : Nat) (p : Packet) : (takePacket s port p).ctl = s.ctl :=
  ctl_transport (fun s => ctl_applyPacket s port p) s p

@[simp] theorem ctl_coldDue (s : State) : (coldDue s).ctl = s.ctl := by
  simp [coldDue]

@[simp] theorem ctl_resumeCold (s : State) : (resumeCold s).ctl = s.ctl := by
  simp [resumeCold, ctl_foldl]

@[simp] theorem ctl_effColdResume (s : State) (_l : Letter) (j : Nat) : (effColdResume s _l j).1.ctl = s.ctl := by
  simp [effColdResume]

@[simp] theorem ctl_conflict (s : State) (x : Side) : (conflict s x).ctl = s.ctl := by
  simp [conflict]

@[simp] theorem ctl_surveyAgain (s : State) : (surveyAgain s).ctl = s.ctl :=
  ctl_foldl (fun s k => ctl_sendSurvey s k) _ s

@[simp] theorem ctl_effGraphStore (s : State) (l : Letter) (j : Nat) : (effGraphStore s l j).1.ctl = s.ctl := by
  refine ctl_onCtx (fun c => ?_) _ _
  dsimp only
  (repeat' split) <;> simp

@[simp] theorem ctl_effGraphLaunch (s : State) (l : Letter) (j : Nat) : (effGraphLaunch s l j).1.ctl = s.ctl := by
  unfold effGraphLaunch
  dsimp only
  split
  · rfl
  · split
    · rfl
    · split
      · rfl
      · exact ctl_onCtx (fun c => by simp) _ _

@[simp] theorem ctl_effJournalConfigure (s : State) (l : Letter) (j : Nat) : (effJournalConfigure s l j).1.ctl = s.ctl := by
  refine ctl_onCtx (fun c => ?_) _ _
  dsimp only
  (repeat' split) <;> simp

@[simp] theorem ctl_effJournalRead (s : State) (l : Letter) (j : Nat) : (effJournalRead s l j).1.ctl = s.ctl := by
  unfold effJournalRead
  (repeat' split) <;> simp

@[simp] theorem ctl_effJournalDisable (s : State) (l : Letter) (j : Nat) : (effJournalDisable s l j).1.ctl = s.ctl := by
  simp [effJournalDisable]

@[simp] theorem ctl_effReplay (s : State) (l : Letter) (j : Nat) : (effReplay s l j).1.ctl = s.ctl := by
  refine ctl_onCtx (fun c => ?_) _ _
  (repeat' split) <;> simp

@[simp] theorem ctl_effSurveyQuery (s : State) (l : Letter) (j : Nat) : (effSurveyQuery s l j).1.ctl = s.ctl := rfl

@[simp] theorem ctl_effSetBlock (s : State) (l : Letter) (j : Nat) : (effSetBlock s l j).1.ctl = s.ctl := by
  simp [effSetBlock]

@[simp] theorem ctl_effResurvey (s : State) (l : Letter) (j : Nat) : (effResurvey s l j).1.ctl = s.ctl :=
  ctl_foldl (fun s k => ctl_sendSurvey s k) _ s

@[simp] theorem ctl_stageReply (s : State) : (stageReply s).1.ctl = s.ctl := rfl

@[simp] theorem ctl_effStage (s : State) (l : Letter) (j : Nat) : (effStage s l j).1.ctl = s.ctl := by
  unfold effStage
  dsimp only
  (repeat' split) <;> simp

@[simp] theorem ctl_effDefaultBlock (s : State) (_l : Letter) (j : Nat) : (effDefaultBlock s _l j).1.ctl = s.ctl := by
  simp [effDefaultBlock]

@[simp] theorem ctl_effSwitch (s : State) (l : Letter) (j : Nat) : (effSwitch s l j).1.ctl = s.ctl := by
  unfold effSwitch
  dsimp only
  split <;> simp

@[simp] theorem ctl_effGraft (s : State) (l : Letter) (j : Nat) : (effGraft s l j).1.ctl = s.ctl := by
  simp [effGraft]

@[simp] theorem ctl_effPrune (s : State) (l : Letter) (j : Nat) : (effPrune s l j).1.ctl = s.ctl := by
  simp [effPrune]

@[simp] theorem ctl_doSwitch (s : State) (beat : Nat) : (doSwitch s beat).ctl = s.ctl := by
  simp [doSwitch]

@[simp] theorem ctl_doGraft (s : State) (beat tag : Nat) (nodes : List Nat) : (doGraft s beat tag nodes).1.ctl = s.ctl := by
  unfold doGraft
  dsimp only
  split <;> simp

@[simp] theorem ctl_doPrune (s : State) (beat tag : Nat) (nodes : List Nat) : (doPrune s beat tag nodes).1.ctl = s.ctl := by
  unfold doPrune
  dsimp only
  split <;> simp

@[simp] theorem ctl_drawn (s : State) (k : Nat) : (State.drawn s k).ctl = s.ctl := rfl

@[simp] theorem ctl_effSwitchNow (s : State) (l : Letter) (j : Nat) : (effSwitchNow s l j).1.ctl = s.ctl := by
  simp [effSwitchNow]

@[simp] theorem ctl_effGraftNow (s : State) (l : Letter) (j : Nat) : (effGraftNow s l j).1.ctl = s.ctl := by
  simp [effGraftNow]

@[simp] theorem ctl_effPruneNow (s : State) (l : Letter) (j : Nat) : (effPruneNow s l j).1.ctl = s.ctl := by
  simp [effPruneNow]

@[simp] theorem ctl_effBudgetNow (s : State) (l : Letter) (j : Nat) : (effBudgetNow s l j).1.ctl = s.ctl := by
  simp [effBudgetNow]

@[simp] theorem ctl_effSampleNow (meas : List Nat) (s : State) (l : Letter) (j : Nat) : (effSampleNow meas s l j).1.ctl = s.ctl := by
  simp [effSampleNow]

@[simp] theorem ctl_effDevice (s : State) (l : Letter) (jid : Nat) : (effDevice s l jid).1.ctl = s.ctl := by
  unfold effDevice
  split <;> simp

@[simp] theorem ctl_effAny (s : State) (l : Letter) (jid : Nat) : (effAny s l jid).1.ctl = s.ctl := by
  unfold effAny
  split <;> simp

@[simp] theorem ctl_runWrapped (s : State) (l : Letter) : (runWrapped s l).1.ctl = s.ctl := by
  unfold runWrapped
  dsimp only
  (repeat' split) <;> simp

@[simp] theorem ctl_act (s : State) (e : SEntry) (meas : List Nat) : (act s e meas).1.ctl = s.ctl := by
  unfold act
  split <;> simp

@[simp] theorem ctl_fire (s : State) (e : SEntry) (meas : List Nat) : (fire s e meas).ctl = s.ctl := by
  simp [fire]

@[simp] theorem ctl_answerMoved (s : State) : (answerMoved s).ctl = s.ctl :=
  ctl_foldl (fun s e => by split <;> simp) _ s

@[simp] theorem ctl_takeLetters (s : State) : (takeLetters s).1.ctl = s.ctl := by
  simp [takeLetters, ctl_foldl]

@[simp] theorem ctl_takeEntries (n : Nat) (s : State) : (takeEntries n s).ctl = s.ctl := by
  induction n generalizing s with
  | zero => rfl
  | succ n ih =>
    unfold takeEntries
    split <;> simp [ih]

@[simp] theorem ctl_setMd (s : State) (m : Module) : (State.setMd s m).ctl = s.ctl := rfl

@[simp] theorem ctl_powerDown (s : State) : (powerDown s).ctl = s.ctl := by
  simp [powerDown]

@[simp] theorem ctl_startReset (s : State) : (startReset s).ctl = s.ctl := rfl

@[simp] theorem ctl_bringupDone (s : State) (st : Nat) : (bringupDone s st).ctl = s.ctl := by
  simp [bringupDone]

@[simp] theorem ctl_failUp (s : State) : (failUp s).ctl = s.ctl := by
  simp [failUp]

@[simp] theorem ctl_vioUp (s : State) : (vioUp s).ctl = s.ctl := by
  simp [vioUp]

@[simp] theorem ctl_bootSlot (s : State) (comp : Nat) (r : BringResult) : (bootSlot s comp r).1.ctl = s.ctl := by
  simp [bootSlot]

@[simp] theorem ctl_recover (s : State) : (recover s).ctl = s.ctl := by
  simp [recover]

@[simp] theorem ctl_latchedRecords (s : State) : (latchedRecords s).ctl = s.ctl := by
  unfold latchedRecords
  refine ctl_have ?_
  split <;> split <;> split <;> simp

@[simp] theorem ctl_endStep3 (s : State) (r : BringResult) : (endStep3 s r).1.ctl = s.ctl := by
  simp [endStep3]

@[simp] theorem ctl_loseCores (s : State) (off aoff : List Nat) (cause : Nat) : (loseCores s off aoff cause).ctl = s.ctl := by
  unfold loseCores
  dsimp only
  rw [ctl_foldl, ctl_foldl]
  · exact fun s c => by simp
  · exact fun s c => by simp

@[simp] theorem ctl_loseEngines (s : State) (l : List Nat) (cause : Nat) : (loseEngines s l cause).ctl = s.ctl :=
  ctl_foldl (fun s n => by simp) _ s

@[simp] theorem ctl_loseDispatchers (s : State) (l : List Nat) : (loseDispatchers s l).ctl = s.ctl :=
  ctl_foldl (fun s n => by simp) _ s

@[simp] theorem ctl_endMemtest (s : State) (r : BringResult) : (endMemtest s r).ctl = s.ctl := by
  simp [endMemtest, ctl_foldl]

@[simp] theorem ctl_ready (s : State) : (ready s).ctl = s.ctl := by
  simp [ready]

@[simp] theorem ctl_railEffect (s : State) (r : Rail) : (railEffect s r).ctl = s.ctl := by
  unfold railEffect
  split <;> simp

@[simp] theorem ctl_losePhase (s : State) (r : Rail) (phase : Nat) (sense : Bool) (reading : Nat) :
    (losePhase s r phase sense reading).ctl = s.ctl := by
  simp [losePhase]

@[simp] theorem ctl_upCheck (s : State) : (upCheck s).ctl = s.ctl := by
  simp [upCheck]

@[simp] theorem ctl_holdPorts (s : State) : (holdPorts s).ctl = s.ctl := by
  simp [holdPorts]

@[simp] theorem ctl_setMg (s : State) (m : MgDb) : (State.setMg s m).ctl = s.ctl := rfl

@[simp] theorem ctl_mgSend (s : State) (eid ty : Nat) (body : List Byte) : (mgSend s eid ty body).ctl = s.ctl := by
  simp [mgSend]

@[simp] theorem ctl_mgRefuse (s : State) (eid : Nat) (l : Letter) (status : Nat) : (mgRefuse s eid l status).ctl = s.ctl := by
  simp [mgRefuse]

@[simp] theorem ctl_mctpReply (s : State) (cmd cc : Nat) (data : List Byte) : (mctpReply s cmd cc data).ctl = s.ctl := by
  simp [mctpReply]

@[simp] theorem ctl_pldmReply (s : State) (ty cmd cc : Nat) (data : List Byte) : (pldmReply s ty cmd cc data).ctl = s.ctl := by
  simp [pldmReply]

@[simp] theorem ctl_takeAddr (s : State) (addr : Nat) : (takeAddr s addr).ctl = s.ctl := by
  simp [takeAddr]

@[simp] theorem ctl_tapRun (s : State) (i : Nat) (bits : List Bool) : (tapRun s i bits).ctl = s.ctl := by
  simp [tapRun]

end Sys2Proof.Machine
end

section
/-! The queue and the lease latch over the commands: one rule for each way a command is given, and then every command. -/

namespace Sys2Proof.Machine

theorem ctl_of_run {s t : State} {f : State → State} (h : s.run f = .next t)
    (hf : ∀ s, (f s).ctl = s.ctl) : t.ctl = s.ctl := by
  cases h
  rw [ctl_finish, hf, ctl_finish]

theorem ctl_of_runB {s t : State} {f : Nat → Body → Body} (h : s.runB f = .next t) : t.ctl = s.ctl :=
  ctl_of_run h fun _ => rfl

theorem ctl_of_runD {s t : State} {f : Nat → Data → Data} (h : s.runD f = .next t) : t.ctl = s.ctl := ctl_of_runB h

theorem ctl_of_letterRow {s t : State} {is : Letter → Bool} {eff : State → Letter → Nat → State × Res}
    (h : letterRow s is eff = .next t) (heff : ∀ s l j, (eff s l j).1.ctl = s.ctl) : t.ctl = s.ctl := by
  refine ctl_of_run h fun s => ?_
  dsimp only
  split
  · split
    · simp [ctl_handle heff]
    · simp
  · rfl

theorem ctl_of_mgCmd {s t : State} {f : State → State} (h : mgCmd s f = .next t) (hf : ∀ s, (f s).ctl = s.ctl) :
    t.ctl = s.ctl :=
  ctl_of_run h fun s => by simp [hf]

theorem ctl_of_mgReading {s t : State} {f : State → State} (h : mgReading s f = .next t) (hf : ∀ s, (f s).ctl = s.ctl) :
    t.ctl = s.ctl :=
  ctl_of_run h fun s => by simp [hf]

theorem ctl_of_fireIf {s t : State} {ticket : Nat} {meas : List Nat} {kind : SKind → Bool}
    (h : fireIf s ticket meas kind = .next t) : t.ctl = s.ctl := by
  refine ctl_of_run h fun s => ?_
  split <;> simp


theorem ctl_execHbmRetrainDone {s t : State} {channel : Nat} {trained : Bool} (h : execHbmRetrainDone channel trained s = .next t) :
    t.ctl = s.ctl := by
  refine ctl_of_run h fun s => ?_
  dsimp only
  (repeat' split) <;> simp

theorem ctl_execAlmanacBeatLowRead {s t : State} {rd : AlmRead} (h : execAlmanacBeatLowRead rd s = .next t) :
    t.ctl = s.ctl := by
  refine ctl_of_run h fun s => ?_
  simp

theorem ctl_execAlmStatusW1c {s t : State} {fn : Fn} {value : BitVec 64} (h : execAlmStatusW1c fn value s = .next t) :
    t.ctl = s.ctl := by
  refine ctl_of_run h fun s => ?_
  split <;> simp

theorem ctl_execBar2UnmappedRead {s t : State} {rd : Bar0Read} (h : execBar2UnmappedRead rd s = .next t) : t.ctl = s.ctl := by
  refine ctl_of_run h fun s => ?_
  split <;> simp

theorem ctl_execLinkEventsRead {s t : State} {fn : Fn} (h : execLinkEventsRead fn s = .next t) : t.ctl = s.ctl := by
  refine ctl_of_run h fun s => ?_
  dsimp only
  (repeat' split) <;> simp

theorem ctl_execDoorbellRefusedRead {s t : State} {fn : Fn} (h : execDoorbellRefusedRead fn s = .next t) : t.ctl = s.ctl := by
  refine ctl_of_run h fun s => ?_
  simp

theorem ctl_execRegisterWrite {s t : State} {fn : Fn} {target : RegTarget} {data : List (BitVec 8)} (h : execRegisterWrite fn target data s = .next t) :
    t.ctl = s.ctl := by
  refine ctl_of_run h fun s => ?_
  split <;> simp

theorem ctl_execLetterRing {s t : State} {fn : Fn} {slot : Nat} (h : execLetterRing fn slot s = .next t) : t.ctl = s.ctl := by
  refine ctl_of_run h fun s => ?_
  simp

theorem ctl_execPlotDrainComplete {s t : State} {plot : Nat} (h : execPlotDrainComplete plot s = .next t) : t.ctl = s.ctl := by
  refine ctl_of_run h fun s => ?_
  split <;> simp

theorem ctl_execPlotTeardownFinish {s t : State} {plot : Nat} (h : execPlotTeardownFinish plot s = .next t) :
    t.ctl = s.ctl := by
  refine ctl_of_run h fun s => ?_
  split <;> simp

theorem ctl_execBudgetExpiry {s t : State} (h : execBudgetExpiry s = .next t) : t.ctl = s.ctl := by
  refine ctl_of_run h fun s => ?_
  simp

theorem ctl_execBudgetFallback {s t : State} (h : execBudgetFallback s = .next t) : t.ctl = s.ctl := by
  refine ctl_of_run h fun s => ?_
  simp

theorem ctl_execSyncCellRx {s t : State} {port : Nat} {cell : SyncCell} {subNs : Nat} {consistent : Bool} (h : execSyncCellRx port cell subNs consistent s = .next t) :
    t.ctl = s.ctl := by
  refine ctl_of_run h fun s => ?_
  simp

theorem ctl_execAlmHoldoverTimeout {s t : State} (h : execAlmHoldoverTimeout s = .next t) : t.ctl = s.ctl := by
  refine ctl_of_run h fun s => ?_
  simp

theorem ctl_execPpsEdge {s t : State} {subNs : Nat} (h : execPpsEdge subNs s = .next t) : t.ctl = s.ctl := by
  refine ctl_of_run h fun s => ?_
  simp

theorem ctl_execPpsTimeout {s t : State} (h : execPpsTimeout s = .next t) : t.ctl = s.ctl := by
  refine ctl_of_run h fun s => ?_
  simp

theorem ctl_execTakeover {s t : State} (h : execTakeover s = .next t) : t.ctl = s.ctl := by
  refine ctl_of_run h fun s => ?_
  split <;> simp

theorem ctl_execStandbyResyncDone {s t : State} {side : Side} (h : execStandbyResyncDone side s = .next t) :
    t.ctl = s.ctl := by
  refine ctl_of_run h fun s => ?_
  simp

theorem ctl_execStandbyMirrorTimeout {s t : State} (h : execStandbyMirrorTimeout s = .next t) : t.ctl = s.ctl := by
  refine ctl_of_run h fun s => ?_
  split <;> simp

theorem ctl_execPassDeferralBegin {s t : State} {unit : PassUnit} (h : execPassDeferralBegin unit s = .next t) :
    t.ctl = s.ctl := by
  refine ctl_of_run h fun s => ?_
  dsimp only
  (repeat' split) <;> simp

theorem ctl_execSlicePassEnd {s t : State} {die slice : Nat} {passed : Bool} (h : execSlicePassEnd die slice passed s = .next t) :
    t.ctl = s.ctl := by
  refine ctl_of_run h fun s => ?_
  dsimp only
  split <;> simp

theorem ctl_execRunnerPassStart {s t : State} {port : Nat} (h : execRunnerPassStart port s = .next t) : t.ctl = s.ctl := by
  refine ctl_of_run h fun s => ?_
  split <;> simp

theorem ctl_execRunnerPassEnd {s t : State} {port : Nat} {badLanes : BitVec 8} (h : execRunnerPassEnd port badLanes s = .next t) :
    t.ctl = s.ctl := by
  refine ctl_of_run h fun s => ?_
  split <;> simp

theorem ctl_execRunnerCellRx {s t : State} {port : Nat} {seq : BitVec 12} {cell : Cell} (h : execRunnerCellRx port seq cell s = .next t) :
    t.ctl = s.ctl := by
  refine ctl_of_run h fun s => ?_
  simp

theorem ctl_execRunnerRetrainDone {s t : State} {port : Nat} {lanes : BitVec 8} (h : execRunnerRetrainDone port lanes s = .next t) :
    t.ctl = s.ctl := by
  refine ctl_of_run h fun s => ?_
  dsimp only
  split <;> simp

theorem ctl_execGlFrameRx {s t : State} {port : Nat} {frame : GlFrame} (h : execGlFrameRx port frame s = .next t) :
    t.ctl = s.ctl := by
  refine ctl_of_run h fun s => ?_
  simp

theorem ctl_execLinkTrainingComplete {s t : State} {port : Nat} {lanes : BitVec 8} (h : execLinkTrainingComplete port lanes s = .next t) :
    t.ctl = s.ctl := by
  refine ctl_of_run h fun s => ?_
  simp

theorem ctl_execSurveyRecordRx {s t : State} {port : Nat} {rec : SurveyRec} {t1 t4 : Nat} (h : execSurveyRecordRx port rec t1 t4 s = .next t) :
    t.ctl = s.ctl := by
  refine ctl_of_run h fun s => ?_
  simp

theorem ctl_execFabricPacketRx {s t : State} {port : Nat} {pkt : Packet} (h : execFabricPacketRx port pkt s = .next t) :
    t.ctl = s.ctl := by
  refine ctl_of_run h fun s => ?_
  simp

theorem ctl_execFabricResponseRx {s t : State} {port : Nat} {pkt : Packet} (h : execFabricResponseRx port pkt s = .next t) :
    t.ctl = s.ctl := by
  refine ctl_of_run h fun s => ctl_if rfl (ctl_if (ctl_forward _ _) (ctl_if rfl ?_))
  exact ctl_transport (f := fun s => s.setBody (applyResponse s.body s.alm.beat pkt)) (fun s => rfl) _ _

theorem ctl_execPhaseFailOpen {s t : State} {rail : Rail} {phase : Nat} (h : execPhaseFailOpen rail phase s = .next t) :
    t.ctl = s.ctl := by
  refine ctl_of_run h fun s => ?_
  simp

theorem ctl_execPhaseSenseFail {s t : State} {rail : Rail} {phase reading : Nat} (h : execPhaseSenseFail rail phase reading s = .next t) :
    t.ctl = s.ctl := by
  refine ctl_of_run h fun s => ?_
  simp

theorem ctl_execDieFabricUe {s t : State} {die : Nat} (h : execDieFabricUe die s = .next t) : t.ctl = s.ctl := by
  refine ctl_of_run h fun s => ?_
  simp

theorem ctl_execDroopDetect {s t : State} {die : Nat} (h : execDroopDetect die s = .next t) : t.ctl = s.ctl := by
  refine ctl_of_run h fun s => ?_
  simp

theorem ctl_execDroopRelease {s t : State} {die : Nat} (h : execDroopRelease die s = .next t) : t.ctl = s.ctl := by
  refine ctl_of_run h fun s => ?_
  simp

theorem ctl_execThermalThreshold {s t : State} {sensor tempC : Nat} (h : execThermalThreshold sensor tempC s = .next t) :
    t.ctl = s.ctl := by
  refine ctl_of_run h fun s => ?_
  simp

theorem ctl_execThermtrip {s t : State} {sensor tempC : Nat} (h : execThermtrip sensor tempC s = .next t) : t.ctl = s.ctl := by
  refine ctl_of_run h fun s => ?_
  simp

theorem ctl_execCoolantOkFall {s t : State} (h : execCoolantOkFall s = .next t) : t.ctl = s.ctl := by
  refine ctl_of_run h fun s => ?_
  simp

theorem ctl_execCoolantOkRise {s t : State} (h : execCoolantOkRise s = .next t) : t.ctl = s.ctl := by
  refine ctl_of_run h fun s => ?_
  simp

theorem ctl_execColdStopStart {s t : State} (h : execColdStopStart s = .next t) : t.ctl = s.ctl := by
  refine ctl_of_run h fun s => ?_
  simp

theorem ctl_execUvWarning {s t : State} {mv : Nat} (h : execUvWarning mv s = .next t) : t.ctl = s.ctl := by
  refine ctl_of_run h fun s => ?_
  simp

theorem ctl_execUvRecovery {s t : State} {mv : Nat} (h : execUvRecovery mv s = .next t) : t.ctl = s.ctl := by
  refine ctl_of_run h fun s => ?_
  simp

theorem ctl_execInputRegStop {s t : State} (h : execInputRegStop s = .next t) : t.ctl = s.ctl := by
  refine ctl_of_run h fun s => ?_
  simp

theorem ctl_execInputGood {s t : State} (h : execInputGood s = .next t) : t.ctl = s.ctl := by
  refine ctl_of_run h fun s => ?_
  simp

theorem ctl_execInputOvervoltage {s t : State} {mv : Nat} (h : execInputOvervoltage mv s = .next t) : t.ctl = s.ctl := by
  refine ctl_of_run h fun s => ?_
  simp

theorem ctl_execP3v3SbApply {s t : State} (h : execP3v3SbApply s = .next t) : t.ctl = s.ctl := by
  refine ctl_of_run h fun s => ?_
  simp

theorem ctl_execModPwrEnRise {s t : State} (h : execModPwrEnRise s = .next t) : t.ctl = s.ctl := by
  refine ctl_of_run h fun s => ?_
  simp

theorem ctl_execModPwrEnFall {s t : State} (h : execModPwrEnFall s = .next t) : t.ctl = s.ctl := by
  refine ctl_of_run h fun s => ?_
  dsimp only
  (repeat' split) <;> simp

theorem ctl_execRefclkLoss {s t : State} {ppm : Nat} (h : execRefclkLoss ppm s = .next t) : t.ctl = s.ctl := by
  refine ctl_of_run h fun s => ?_
  simp

theorem ctl_execRefclkRestore {s t : State} (h : execRefclkRestore s = .next t) : t.ctl = s.ctl := by
  refine ctl_of_run h fun s => ?_
  simp

theorem ctl_execPerstAssert {s t : State} {port : HostPort} (h : execPerstAssert port s = .next t) : t.ctl = s.ctl := by
  refine ctl_of_run h fun s => ?_
  simp

theorem ctl_execPerstDeassert {s t : State} {port : HostPort} (h : execPerstDeassert port s = .next t) : t.ctl = s.ctl := by
  refine ctl_of_run h fun s => ?_
  simp

theorem ctl_execPcieHotReset {s t : State} {port : HostPort} (h : execPcieHotReset port s = .next t) : t.ctl = s.ctl := by
  refine ctl_of_run h fun s => ?_
  simp

theorem ctl_execPcieLinkDown {s t : State} {port : HostPort} (h : execPcieLinkDown port s = .next t) : t.ctl = s.ctl := by
  refine ctl_of_run h fun s => ?_
  simp

theorem ctl_execPcieLinkUp {s t : State} {port : HostPort} {rate width : Nat} (h : execPcieLinkUp port rate width s = .next t) :
    t.ctl = s.ctl := by
  refine ctl_of_run h fun s => ?_
  simp

theorem ctl_execPfFlr {s t : State} {port : HostPort} (h : execPfFlr port s = .next t) : t.ctl = s.ctl := by
  refine ctl_of_run h fun s => ?_
  simp

theorem ctl_execVfFlr {s t : State} {port : HostPort} {vf : Nat} (h : execVfFlr port vf s = .next t) : t.ctl = s.ctl := by
  refine ctl_of_run h fun s => ?_
  dsimp only
  (repeat' split) <;> simp

theorem ctl_execVfEnableClear {s t : State} {port : HostPort} (h : execVfEnableClear port s = .next t) : t.ctl = s.ctl := by
  refine ctl_of_run h fun s => ?_
  simp

theorem ctl_execVfEnableSet {s t : State} {port : HostPort} (h : execVfEnableSet port s = .next t) : t.ctl = s.ctl := by
  refine ctl_of_run h fun s => ?_
  simp

theorem ctl_execMgLetterMessage {s t : State} {eid : Nat} {body : List (BitVec 8)} (h : execMgLetterMessage eid body s = .next t) :
    t.ctl = s.ctl := by
  refine ctl_of_run h fun s => ctl_have (ctl_have (ctl_if (ctl_if ?_ rfl) (ctl_if rfl ?_)))
  · exact ctl_mgRefuse _ _ _ _
  · split
    · exact ctl_mgRefuse _ _ _ _
    · exact ctl_have (ctl_have (ctl_if (ctl_drainBad _ _) rfl))

theorem ctl_execI3cSetdasa {s t : State} {static addr : Nat} (h : execI3cSetdasa static addr s = .next t) : t.ctl = s.ctl := by
  refine ctl_of_run h fun s => ?_
  simp

theorem ctl_execI3cEntdaa {s t : State} {addr : Nat} (h : execI3cEntdaa addr s = .next t) : t.ctl = s.ctl := by
  refine ctl_of_run h fun s => ?_
  simp

theorem ctl_execJtagBypass {s t : State} (h : execJtagBypass s = .next t) : t.ctl = s.ctl := by
  refine ctl_of_run h fun s => ?_
  simp

theorem ctl_execJtagIdcode {s t : State} (h : execJtagIdcode s = .next t) : t.ctl = s.ctl := by
  refine ctl_of_run h fun s => ?_
  simp

theorem ctl_execJtagSamplePreload {s t : State} (h : execJtagSamplePreload s = .next t) : t.ctl = s.ctl := by
  refine ctl_of_run h fun s => ?_
  simp

theorem ctl_execJtagExtest {s t : State} (h : execJtagExtest s = .next t) : t.ctl = s.ctl := by
  refine ctl_of_run h fun s => ?_
  simp

theorem ctl_execDbTrstAssert {s t : State} (h : execDbTrstAssert s = .next t) : t.ctl = s.ctl := by
  refine ctl_of_run h fun s => ?_
  simp

theorem ctl_execDbUartRx {s t : State} {byte : BitVec 8} (h : execDbUartRx byte s = .next t) : t.ctl = s.ctl := by
  refine ctl_of_run h fun s => ?_
  simp

theorem ctl_execCblPrsntChange {s t : State} {port : Nat} {present : Bool} (h : execCblPrsntChange port present s = .next t) :
    t.ctl = s.ctl := by
  refine ctl_of_run h fun s => ?_
  simp

theorem ctl_execCablePowerFault {s t : State} {port mA : Nat} (h : execCablePowerFault port mA s = .next t) :
    t.ctl = s.ctl := by
  refine ctl_of_run h fun s => ?_
  simp

theorem ctl_execRecordWindowExpiry {s t : State} {code kind unit : Nat} (h : execRecordWindowExpiry code kind unit s = .next t) :
    t.ctl = s.ctl := by
  refine ctl_of_run h fun s => ctl_have (ctl_have ?_)
  split
  · split
    · exact ctl_if rfl rfl
    · rfl
  · rfl

theorem ctl_execRecordBurstEnd {s t : State} (h : execRecordBurstEnd s = .next t) : t.ctl = s.ctl := by
  refine ctl_of_run h fun s => ?_
  dsimp only
  split <;> simp

theorem ctl_execFlashLogCopy {s t : State} (h : execFlashLogCopy s = .next t) : t.ctl = s.ctl := by
  refine ctl_of_run h fun s => ?_
  simp

theorem ctl_execFecLockLoss {s t : State} {port : Nat} (h : execFecLockLoss port s = .next t) : t.ctl = s.ctl := by
  refine ctl_of_run h fun s => ?_
  simp

theorem ctl_execIoDieFabricUe {s t : State} {side : Side} (h : execIoDieFabricUe side s = .next t) : t.ctl = s.ctl := by
  refine ctl_of_run h fun s => ?_
  simp

theorem ctl_execOscillatorStartupDone {s t : State} (h : execOscillatorStartupDone s = .next t) : t.ctl = s.ctl := by
  refine ctl_of_run h fun s => ?_
  simp

theorem ctl_execVfFlrComplete {s t : State} {port : HostPort} {vf : Nat} (h : execVfFlrComplete port vf s = .next t) :
    t.ctl = s.ctl := by
  refine ctl_of_run h fun s => ?_
  simp

theorem ctl_execPostmasterRestart {s t : State} {side : Side} (h : execPostmasterRestart side s = .next t) :
    t.ctl = s.ctl := by
  refine ctl_of_run h fun s => ?_
  simp

theorem ctl_execRailOutOfRegulation {s t : State} {rail : Rail} (h : execRailOutOfRegulation rail s = .next t) :
    t.ctl = s.ctl := by
  refine ctl_of_run h fun s => ?_
  simp

theorem ctl_execHaltingDebug {s t : State} {side : Side} (h : execHaltingDebug side s = .next t) : t.ctl = s.ctl := by
  refine ctl_of_run h fun s => ?_
  simp

theorem ctl_execScanAccess {s t : State} {die : Nat} (h : execScanAccess die s = .next t) : t.ctl = s.ctl := by
  refine ctl_of_run h fun s => ?_
  simp

/-! ### Every command -/

/-- The commands that the spec does not name for the latch leave queue and latch. -/
theorem ctl_exec {c : Instr} {s t : State} (hc : latchCommand c = false) (h : exec c s = .next t) : t.ctl = s.ctl := by
  cases c <;> simp only [exec] at h
  case nop | bra | brx | call | ret | exit | yieldT | isync | trap | iadd | isub | imulLo | imulHi | imad | iand | ior | ixor
    | shl | shr | sar | imin | imax | popc | clz | brev | fadd | fmul | fma | fmin | fmax | pkAdd | pkMul | pkFma | pkMin
    | pkMax | cvt | cvtMx | icmp | fcmp | pbool | vote | ballot | rcp | rsq | sqrt | ex2 | lg2 | sin | cos | tanh | mov |
    movHi | sel | xlane | rdlane | rdsr | bsel | ld | st | atom | fence | barSync | barArrive | barDieArrive | barDieWait
    | barPkgArrive | barPkgWait | invRemote | mma | accZero | accSt | accLd | accFlags | accClrf | courIssue | gleanIssue
    | rlyIssue | await | ring | rdbeat | rdclk =>
    cases h; rfl
  case activeEntryTimeout | memResponse | lateFaultPark | faultRecordWrite | counterBarrierMet | awaitWake |
    faultDispositionProcess | arrayMmaComplete | satNotice | nanNotice | arrayRampStep | arrayHoldExpiry | hbmScrubRead |
    queueLaunch | queueWait | queueSignal | queueResume | nodeComplete | eventWaiterPoll =>
    exact ctl_of_runD h
  case mgmtParkRequest | mgmtParkRelease | threadBlockPlace | arrayInstrStart | arrayDrainComplete | arrayLeaveIdle |
    homeLineRequest | hbmFillReturn | sliceFlushDone | engineDescStart | engineDescComplete | hostBar2Read | hostBar2Write
    | hostWindowReadCompletion | phRing | ctxFault | phWindowWrite | phWindowRead | queueEntryClaim | nodeDispatch |
    journalWatchDigest | yieldWindowExpiry | maxDeferralExpiry | corePassStart | corePassPhaseEnd | corePassEnd |
    slicePassStart | enginePassStart | enginePassEnd | tackRx | transportResendTimeout | transportAbandon | relayDescStart
    | relayDescComplete | coldStopHalted | scratchCopyDone =>
    exact ctl_of_runB h
  case deviceIdentify | deviceFloorplan | deviceGrade | deviceLeaseQuery | deviceLeaseHandover | plotCreate | plotDestroy |
    plotDrain | plotDrainRelease | plotDrainQuery | ctxCreate | ctxRelease | memCreate | memCreateHostWindow | memRelease
    | queueCreate | eventCreate | graphStore | graphLaunch | pigeonholeCreate | memInvalidate | objRetain | objRelease |
    powerBudget | powerCap | powerReasonsCurrent | powerReasonsHistory | powerEnergyContexts | powerEnergySample |
    powerEnergyReadSample | healthCalendarSet | healthCalendarQuery | healthCalendarTestNow | testpackBegin | testpackData
    | testpackCommit | testpackAbort | testpackQuery | healthSuspectList | logRead | logClear | fwUpdateBegin |
    fwUpdateData | fwUpdateCommit | fwUpdateAbort | fwActivateLive | fwActivateAtReset | coldResume | fabricSurveyQuery |
    fabricSurveySetBlock | fabricSurveyResurvey | routesStageWrite | routesStageDefaultBlock | fabricRoutesSwitch |
    fabricGraft | fabricPrune | almanacRootFollow | almanacRootInternal | almanacRootPps | almanacStatus |
    almanacScheduleAdd | almanacScheduleCancel | journalConfigure | journalRead | journalDisable | replayStep |
    debugChallenge | debugPresent | debugLock =>
    exact ctl_of_letterRow h fun s l j => by simp
  case scheduleEntryFire | budgetTakesEffect | routesSwitchAtBeat | graftAtBeat | pruneAtBeat | telemetrySample |
    wrappedLetterAtBeat =>
    exact ctl_of_fireIf h
  case mctpSetEndpointId | mctpGetEndpointId | mctpGetVersionSupport | mctpGetMessageTypeSupport | mctpGetVendorMsgSupport |
    pldmGetTid | pldmGetPldmVersion | pldmGetPldmTypes | pldmGetPldmCommands | pldmGetPdrRepositoryInfo | pldmGetPdr =>
    exact ctl_of_mgCmd h fun s => by simp
  case pldmGetSensorReading | pldmGetStateSensorReadings =>
    exact ctl_of_mgReading h fun s => by simp
  case beatEdge | epochBoundary | leaseClaim | leaseRenew | leaseRelease | leaseExpiry | latchCopyMismatch | p3v3SbLoss |
    bringupStepEnd =>
    cases hc
  case hbmRetrainDone => exact ctl_execHbmRetrainDone h
  case almanacBeatLowRead => exact ctl_execAlmanacBeatLowRead h
  case almStatusW1c => exact ctl_execAlmStatusW1c h
  case bar2UnmappedRead => exact ctl_execBar2UnmappedRead h
  case linkEventsRead => exact ctl_execLinkEventsRead h
  case doorbellRefusedRead => exact ctl_execDoorbellRefusedRead h
  case registerWrite => exact ctl_execRegisterWrite h
  case letterRing => exact ctl_execLetterRing h
  case plotDrainComplete => exact ctl_execPlotDrainComplete h
  case plotTeardownFinish => exact ctl_execPlotTeardownFinish h
  case budgetExpiry => exact ctl_execBudgetExpiry h
  case budgetFallback => exact ctl_execBudgetFallback h
  case syncCellRx => exact ctl_execSyncCellRx h
  case almHoldoverTimeout => exact ctl_execAlmHoldoverTimeout h
  case ppsEdge => exact ctl_execPpsEdge h
  case ppsTimeout => exact ctl_execPpsTimeout h
  case takeover => exact ctl_execTakeover h
  case standbyResyncDone => exact ctl_execStandbyResyncDone h
  case standbyMirrorTimeout => exact ctl_execStandbyMirrorTimeout h
  case passDeferralBegin => exact ctl_execPassDeferralBegin h
  case slicePassEnd => exact ctl_execSlicePassEnd h
  case runnerPassStart => exact ctl_execRunnerPassStart h
  case runnerPassEnd => exact ctl_execRunnerPassEnd h
  case runnerCellRx => exact ctl_execRunnerCellRx h
  case runnerRetrainDone => exact ctl_execRunnerRetrainDone h
  case glFrameRx => exact ctl_execGlFrameRx h
  case linkTrainingComplete => exact ctl_execLinkTrainingComplete h
  case surveyRecordRx => exact ctl_execSurveyRecordRx h
  case fabricPacketRx => exact ctl_execFabricPacketRx h
  case fabricResponseRx => exact ctl_execFabricResponseRx h
  case phaseFailOpen => exact ctl_execPhaseFailOpen h
  case phaseSenseFail => exact ctl_execPhaseSenseFail h
  case dieFabricUe => exact ctl_execDieFabricUe h
  case droopDetect => exact ctl_execDroopDetect h
  case droopRelease => exact ctl_execDroopRelease h
  case thermalThreshold => exact ctl_execThermalThreshold h
  case thermtrip => exact ctl_execThermtrip h
  case coolantOkFall => exact ctl_execCoolantOkFall h
  case coolantOkRise => exact ctl_execCoolantOkRise h
  case coldStopStart => exact ctl_execColdStopStart h
  case uvWarning => exact ctl_execUvWarning h
  case uvRecovery => exact ctl_execUvRecovery h
  case inputRegStop => exact ctl_execInputRegStop h
  case inputGood => exact ctl_execInputGood h
  case inputOvervoltage => exact ctl_execInputOvervoltage h
  case p3v3SbApply => exact ctl_execP3v3SbApply h
  case modPwrEnRise => exact ctl_execModPwrEnRise h
  case modPwrEnFall => exact ctl_execModPwrEnFall h
  case refclkLoss => exact ctl_execRefclkLoss h
  case refclkRestore => exact ctl_execRefclkRestore h
  case perstAssert => exact ctl_execPerstAssert h
  case perstDeassert => exact ctl_execPerstDeassert h
  case pcieHotReset => exact ctl_execPcieHotReset h
  case pcieLinkDown => exact ctl_execPcieLinkDown h
  case pcieLinkUp => exact ctl_execPcieLinkUp h
  case pfFlr => exact ctl_execPfFlr h
  case vfFlr => exact ctl_execVfFlr h
  case vfEnableClear => exact ctl_execVfEnableClear h
  case vfEnableSet => exact ctl_execVfEnableSet h
  case mgLetterMessage => exact ctl_execMgLetterMessage h
  case i3cSetdasa => exact ctl_execI3cSetdasa h
  case i3cEntdaa => exact ctl_execI3cEntdaa h
  case jtagBypass => exact ctl_execJtagBypass h
  case jtagIdcode => exact ctl_execJtagIdcode h
  case jtagSamplePreload => exact ctl_execJtagSamplePreload h
  case jtagExtest => exact ctl_execJtagExtest h
  case dbTrstAssert => exact ctl_execDbTrstAssert h
  case dbUartRx => exact ctl_execDbUartRx h
  case cblPrsntChange => exact ctl_execCblPrsntChange h
  case cablePowerFault => exact ctl_execCablePowerFault h
  case recordWindowExpiry => exact ctl_execRecordWindowExpiry h
  case recordBurstEnd => exact ctl_execRecordBurstEnd h
  case flashLogCopy => exact ctl_execFlashLogCopy h
  case fecLockLoss => exact ctl_execFecLockLoss h
  case ioDieFabricUe => exact ctl_execIoDieFabricUe h
  case oscillatorStartupDone => exact ctl_execOscillatorStartupDone h
  case vfFlrComplete => exact ctl_execVfFlrComplete h
  case postmasterRestart => exact ctl_execPostmasterRestart h
  case railOutOfRegulation => exact ctl_execRailOutOfRegulation h
  case haltingDebug => exact ctl_execHaltingDebug h
  case scanAccess => exact ctl_execScanAccess h

end Sys2Proof.Machine
end

section
/-! The lease latch stays legal (13 R368): what the commands that change it do to it. -/

namespace Sys2Proof.Machine

/-! ### The latch -/

theorem LatchOk.reset : LatchOk Latch.reset := ⟨nofun, by decide, fun _ => rfl⟩

theorem LatchOk.grant (l : Latch) (x : Side) : LatchOk (l.grant x) := ⟨fun _ h => h, le_refl _, nofun⟩

theorem LatchOk.drop {l : Latch} (h : LatchOk l) (x : Side) : LatchOk (l.drop x) := by
  cases x <;> exact ⟨h.last, h.time, h.idle⟩

theorem LatchOk.expire {l : Latch} (h : LatchOk l) : LatchOk l.expire := by
  unfold Latch.expire
  split
  · next h0 => exact ⟨nofun, h.time, fun _ => h0⟩
  · exact h

theorem LatchOk.renew {l : Latch} (h : LatchOk l) {x : Side} (hx : l.holder = some x) : LatchOk { l with remaining := 50000 } :=
  ⟨h.last, le_refl _, fun hn => nomatch hx.symm.trans hn⟩

theorem LatchOk.release (l : Latch) : LatchOk { l with holder := none, remaining := 0 } := ⟨nofun, Nat.zero_le _, fun _ => rfl⟩

theorem LatchOk.fail {l : Latch} (h : LatchOk l) : LatchOk { l with fault := true } := ⟨h.last, h.time, h.idle⟩

theorem LatchOk.tick {l : Latch} (h : LatchOk l) : LatchOk { l with remaining := l.remaining - 1 } :=
  ⟨h.last, (Nat.sub_le _ _).trans h.time, fun hn => by simp [h.idle hn]⟩

/-! ### The commands that change the latch -/

/-- From `s` to `t` the queue stays, and the latch stays legal. -/
structure LatchSafe (s t : State) : Prop where
  pending : t.pending = s.pending
  latch : LatchOk s.latch → LatchOk t.latch

namespace LatchSafe

variable {s t u : State}

theorem of_ctl (h : t.ctl = s.ctl) : LatchSafe s t :=
  ⟨congrArg Prod.fst h, fun hs => (show t.latch = s.latch from congrArg Prod.snd h) ▸ hs⟩

theorem trans (h : LatchSafe s t) (k : LatchSafe t u) : LatchSafe s u :=
  ⟨k.pending.trans h.pending, fun hs => k.latch (h.latch hs)⟩

theorem setLatch {l : Latch} (h : LatchOk s.latch → LatchOk l) : LatchSafe s (s.setLatch l) := ⟨rfl, h⟩

theorem of_run {f : State → State} (h : s.run f = .next t) (hf : ∀ s, LatchSafe s (f s)) : LatchSafe s t := by
  cases h
  exact (of_ctl (ctl_finish s)).trans ((hf _).trans (of_ctl (ctl_finish _)))

theorem of_if {c : Prop} [Decidable c] (ht : c → LatchSafe s t) (hu : ¬c → LatchSafe s u) : LatchSafe s (if c then t else u) := by
  split
  · next h => exact ht h
  · next h => exact hu h

theorem granted (s : State) (x : Side) : LatchSafe s (granted s x) := by
  have hg : LatchSafe s (s.setLatch (s.latch.grant x)) := setLatch fun _ => .grant _ _
  refine hg.trans (of_ctl ?_)
  unfold Machine.granted
  simp

theorem dropStale (s : State) (x : Side) : LatchSafe s (dropStale s x) := by
  unfold Machine.dropStale
  refine of_if (fun _ => ?_) fun _ => of_ctl rfl
  have hd : LatchSafe s (s.setLatch (s.latch.drop x)) := setLatch fun h => h.drop x
  exact hd.trans (of_ctl (ctl_if rfl (ctl_conflict _ _)))

theorem ctl_chansRetire (l : List Nat) (s : State) : (l.foldl (fun (s : State) c => chanRetire s c) s).ctl = s.ctl :=
  ctl_foldl (fun s c => ctl_chanRetire s c) l s

theorem stepWork {r : BringResult} {x : State × Bool} (h : stepWork s r = some x) : LatchSafe s x.1 := by
  unfold Machine.stepWork at h
  split at h
  case h_2 => cases h; exact setLatch fun _ => .reset
  case h_3 =>
    split at h
    · dsimp only at h
      split at h
      · cases h; exact of_ctl (ctl_endStep3 s r)
      · split at h
        · cases h; exact of_ctl (ctl_endStep3 s r)
        · cases h
    · cases h
  case h_4 =>
    split at h
    · cases h; exact of_ctl rfl
    · cases h
  case h_5 =>
    cases h
    refine of_ctl ((ctl_foldl ?_ _ _).trans ((ctl_foldl ?_ _ _).trans ?_))
    · exact fun s x => ctl_ioOut s x 2
    · exact fun s i => ctl_if (ctl_dieOut s i 4) rfl
    · simp
  case h_6 =>
    cases h
    exact (of_ctl (ctl_setMd s _)).trans (of_ctl (ctl_chansRetire _ _))
  case h_7 => exact Option.some.inj h ▸ of_ctl (ctl_endMemtest s r)
  case h_8 =>
    cases h
    refine of_ctl (ctl_foldl ?_ _ _)
    exact fun s k => ctl_if (ctl_sliceRetire s k) rfl
  case h_9 => cases h; exact of_ctl (by simp)
  case h_10 => cases h; exact of_ctl (ctl_bootSlot s 2 r)
  case h_11 =>
    cases h
    refine of_ctl (ctl_foldl ?_ _ _)
    exact fun s e => by simp
  all_goals cases h; exact of_ctl rfl

theorem leaseClaim {north south : Bool} (h : execLeaseClaim north south s = .next t) : LatchSafe s t := by
  refine of_run h fun s => of_if (fun _ => of_ctl rfl) fun _ => ?_
  split
  · exact granted s _
  · exact of_ctl rfl

theorem leaseRenew {side : Side} (h : execLeaseRenew side s = .next t) : LatchSafe s t := by
  refine of_run h fun s => of_if (fun _ => of_ctl rfl) fun _ => ?_
  have he : LatchSafe s (s.setLatch s.latch.expire) := setLatch fun h => h.expire
  refine he.trans (of_if (fun hx => ?_) fun _ => of_ctl (ctl_conflict _ _))
  exact (setLatch fun h => h.renew hx).trans (of_ctl (ctl_if rfl rfl))

theorem leaseRelease {side : Side} (h : execLeaseRelease side s = .next t) : LatchSafe s t :=
  of_run h fun _ => of_if (fun _ => (setLatch fun _ => .release _).trans (of_ctl (ctl_mg _ _))) fun _ => of_ctl rfl

theorem leaseExpiry (h : execLeaseExpiry s = .next t) : LatchSafe s t :=
  of_run h fun _ => of_if (fun _ => (setLatch fun h => h.expire).trans (of_ctl (ctl_mg _ _))) fun _ => of_ctl rfl

theorem latchCopyMismatch (h : execLatchCopyMismatch s = .next t) : LatchSafe s t :=
  of_run h fun _ => of_if (fun _ => of_ctl rfl) fun _ => (setLatch fun h => h.fail).trans (of_ctl (ctl_post _ _ _ _))

theorem beatEdge {meas : PowerMeas} (h : execBeatEdge meas s = .next t) : LatchSafe s t := by
  refine of_run h fun s => of_if (fun _ => of_ctl rfl) fun _ => ?_
  have ha : LatchSafe s (armBudgets (sendSync (almEdge s))) := of_ctl (by simp)
  refine ha.trans ⟨rfl, fun h => ?_⟩
  dsimp only
  split
  · exact h
  · exact h.tick

theorem epochBoundary {meas : EpochMeas} (h : execEpochBoundary meas s = .next t) : LatchSafe s t := by
  refine of_run h fun s => of_if (fun _ => of_ctl rfl) fun _ => ?_
  refine ((dropStale s .north).trans (dropStale _ .south)).trans (of_ctl ?_)
  simp

theorem bringupStepEnd {res : BringResult} (h : execBringupStepEnd res s = .next t) : LatchSafe s t := by
  refine of_run h fun s => of_if (fun _ => of_ctl rfl) fun _ => ?_
  split
  · exact of_ctl rfl
  · next s' bad hw => exact (stepWork hw).trans (of_ctl (by simp))

theorem p3v3SbLoss (h : execP3v3SbLoss s = .next t) : LatchSafe s t :=
  of_run h fun _ => of_if (fun _ => of_ctl rfl) fun _ => ⟨rfl, fun _ => .reset⟩

end LatchSafe

/-- Every command keeps the queue behind it, and a legal latch legal. -/
theorem latchSafe_exec {c : Instr} {s t : State} (h : exec c s = .next t) : LatchSafe s t := by
  cases hc : latchCommand c with
  | false => exact .of_ctl (ctl_exec hc h)
  | true =>
    cases c
    case leaseClaim => rw [exec] at h; exact .leaseClaim h
    case leaseRenew => rw [exec] at h; exact .leaseRenew h
    case leaseRelease => rw [exec] at h; exact .leaseRelease h
    case leaseExpiry => rw [exec] at h; exact .leaseExpiry h
    case latchCopyMismatch => rw [exec] at h; exact .latchCopyMismatch h
    case beatEdge => rw [exec] at h; exact .beatEdge h
    case epochBoundary => rw [exec] at h; exact .epochBoundary h
    case bringupStepEnd => rw [exec] at h; exact .bringupStepEnd h
    case p3v3SbLoss => rw [exec] at h; exact .p3v3SbLoss h
    all_goals cases hc

/-- Settles O60: the queue by the frame of every command, the latch by the frame of those that the spec does not name. -/
theorem queueAndLatchFrame : Obligations.QueueAndLatchFrame :=
  fun _ _ _ h => ⟨(latchSafe_exec h).pending, fun hc => congrArg Prod.snd (ctl_exec hc h)⟩

/-- Settles O59: a step is the front command, or idles. -/
theorem latchKept : Obligations.LatchKept := by
  intro s t hs h
  unfold step at h
  split at h
  · cases h; exact hs
  · exact (latchSafe_exec h).latch hs

end Sys2Proof.Machine
end

section
/-! The step rule and the state at reset. -/

namespace Sys2Proof.Machine

/-- No word of the table spells a command, so a fetched word leaves the state. -/
theorem withFetchWord_eq (s : State) (n w : Nat) : s.withFetchWord n w = s := rfl

theorem step_of_pending {s : State} {c : Instr} {q : List Instr} (h : s.pending = c :: q) :
    step s = exec c { s with pending := q } := by
  simp [step, h]

theorem step_of_idle {s : State} (h : s.pending = []) : step s = .next s := by simp [step, h]

/-- Settles O57: a step by the two cases of the queue. -/
theorem stepRule : Obligations.StepRule :=
  ⟨fun _ _ _ h => step_of_pending h, fun _ h => step_of_idle h, fun s n w => ⟨rfl, withFetchWord_eq s n w⟩, rfl, rfl⟩

/-- Settles O58: each field of the reset state is the one that its definition gives. -/
theorem resetState : Obligations.ResetState := by
  refine ⟨rfl, rfl, rfl, rfl, LatchOk.reset, rfl, rfl, rfl, rfl, rfl, rfl, rfl, rfl, rfl, rfl, rfl, fun p => ?_, fun f => ⟨rfl, rfl⟩,
    fun k => rfl, rfl, rfl, rfl, rfl⟩
  cases p <;> exact ⟨rfl, rfl, rfl⟩

end Sys2Proof.Machine
end

section
/-! The results of the integer, move, lane, predicate and floating-point instructions: each instruction's effect is the write of
its destination (04 R114, R117-R122). -/

namespace Sys2Proof.Machine

/-! ### A word that is ready -/

theorem Ready.word_eq {sp : OpSpec} {s : State} {x : Issue} {q : GCtx} (h : Ready sp s x q) : q.x = x :=
  (issueCtx_some h.place).2.2.2.2.1

theorem Ready.core_eq {sp : OpSpec} {s : State} {x : Issue} {q : GCtx} (h : Ready sp s x q) : q.c = x.core :=
  (issueCtx_some h.place).1

theorem Ready.slot_eq {sp : OpSpec} {s : State} {x : Issue} {q : GCtx} (h : Ready sp s x q) : q.s = x.slot :=
  (issueCtx_some h.place).2.1

theorem Ready.beat_eq {sp : OpSpec} {s : State} {x : Issue} {q : GCtx} (h : Ready sp s x q) : q.beat = s.alm.beat :=
  (issueCtx_some h.place).2.2.1

theorem Ready.k_eq {sp : OpSpec} {s : State} {x : Issue} {q : GCtx} (h : Ready sp s x q) : q.k = s.body.data.core q.c := by
  rw [h.core_eq]; exact (issueCtx_some h.place).2.2.2.1

theorem Ready.on_eq {sp : OpSpec} {s : State} {x : Issue} {q : GCtx} (h : Ready sp s x q) : q.on = q.g.on (Issue.guard q.x) := by
  rw [h.word_eq]; exact (issueCtx_some h.place).2.2.2.2.2.1

/-- A ready word keeps its instruction's encoding rules. -/
theorem Ready.legal {sp : OpSpec} {s : State} {x : Issue} {q : GCtx} (h : Ready sp s x q) : sp.legal q.x = true := by
  have hw := h.word
  rw [← h.word_eq] at hw
  simp only [illegal, Bool.or_eq_false_iff, Bool.not_eq_false'] at hw
  exact hw.2

/-- A ready word is of a format that its instruction has. -/
theorem Ready.format {sp : OpSpec} {s : State} {x : Issue} {q : GCtx} (h : Ready sp s x q) :
    (if q.x.imm then sp.immOk else sp.regOk) = true := by
  have hw := h.word
  rw [← h.word_eq] at hw
  simp only [illegal, Bool.or_eq_false_iff] at hw
  obtain ⟨⟨⟨-, hf⟩, -⟩, -⟩ := hw
  split_ifs at hf ⊢ <;> simpa using hf

/-- A ready word of an instruction without an IMM format is of the REG format. -/
theorem Ready.reg {sp : OpSpec} {s : State} {x : Issue} {q : GCtx} (h : Ready sp s x q) (hi : sp.immOk = false) :
    q.x.imm = false := by
  have hf := h.format
  rw [hi] at hf
  by_contra hc
  simp [hc] at hf

/-- A ready word of an instruction without a REG format is of the IMM format. -/
theorem Ready.imm {sp : OpSpec} {s : State} {x : Issue} {q : GCtx} (h : Ready sp s x q) (hi : sp.regOk = false) :
    q.x.imm = true := by
  have hf := h.format
  rw [hi] at hf
  by_contra hc
  simp [hc] at hf

/-- What a fetch leaves of the data plane: all but the cores. -/
theorem atIssue_rest (s : State) (q : GCtx) : { atIssue s q with cores := s.body.data.cores } = s.body.data :=
  fetched_rest _ _ _ _ _

@[simp] theorem atIssue_node (s : State) (q : GCtx) : (atIssue s q).node = s.body.data.node := by
  have h := congrArg Data.node (atIssue_rest s q); exact h

@[simp] theorem atIssue_free (s : State) (q : GCtx) : (atIssue s q).free = s.body.data.free := by
  have h := congrArg Data.free (atIssue_rest s q); exact h

@[simp] theorem atIssue_reqs (s : State) (q : GCtx) : (atIssue s q).reqs = s.body.data.reqs := by
  have h := congrArg Data.reqs (atIssue_rest s q); exact h

/-! ### Integer instructions -/

theorem WritesDest.congr {q : GCtx} {g : Group} {f f' : Nat → W32} (h : WritesDest q g f) (hf : ∀ t, f t = f' t) :
    WritesDest q g f' := funext hf ▸ h

/-- An instruction that writes `f` to its destination and does nothing else computes `f`. -/
theorem computes_of_exec {mk : Issue → Instr} {sp : OpSpec} {f : GCtx → Nat → W32} (hi : ∀ x, huvalOf (mk x) = some (sp, x))
    (he : ∀ s x q, Ready sp s x q → sp.exec (atIssue s q) q = .next (atIssue s q) (writeRes q (f q)) none) :
    Computes mk sp f := fun s x q h =>
  ⟨writeRes q (f q), by rw [exec_huval (hi x), issue_next h (he s x q h)], .writeRes q (f q)⟩

/-- The same of an instruction whose values are the rule's in another form. -/
theorem computes_of_eq {mk : Issue → Instr} {sp : OpSpec} {f g : GCtx → Nat → W32} (hi : ∀ x, huvalOf (mk x) = some (sp, x))
    (he : ∀ d q, sp.exec d q = .next d (writeRes q (g q)) none) (hg : ∀ q t, g q t = f q t) : Computes mk sp f :=
  computes_of_exec hi fun s x q _ => by rw [he, funext (hg q)]

theorem ofNat_min_toNat (a b : W32) : BitVec.ofNat 32 (min a.toNat b.toNat) = if b < a then b else a := by
  rcases Nat.lt_or_ge b.toNat a.toNat with hlt | hge
  · simp [BitVec.lt_def, hlt, Nat.min_eq_right hlt.le]
  · simp [BitVec.lt_def, Nat.not_lt.2 hge, Nat.min_eq_left hge]

theorem ofNat_max_toNat (a b : W32) : BitVec.ofNat 32 (max a.toNat b.toNat) = if a < b then b else a := by
  rcases Nat.lt_or_ge a.toNat b.toNat with hlt | hge
  · simp [BitVec.lt_def, hlt, Nat.max_eq_right hlt.le]
  · simp [BitVec.lt_def, Nat.not_lt.2 hge, Nat.max_eq_left hge]

/-- A uniform instruction without a choice of destination writes its u register once. -/
theorem writeRes_uniform {q : GCtx} (h : Issue.dsp q.x = 1) (f : Nat → W32) :
    writeRes q f = q.g.wrU (Issue.dest q.x) (f 0) := if_pos h

/-- The immediate of a word of the REG format is not read. -/
theorem srcVal_reg (g : Group) {x : Issue} (h : x.imm = false) (im im' : W32) (i t : Nat) :
    srcVal g x im i t = srcVal g x im' i t := by
  unfold srcVal; split <;> simp [h]

/-- Settles O1: the effect of each of these instructions is `writeRes` of the rule's value; the uniform ones among them are
legal with a u destination alone. -/
theorem integerAndLaneResults : Obligations.IntegerAndLaneResults := by
  refine ⟨⟨?_, ?_, ?_, ?_, ?_, ?_, ?_, ?_, ?_, ?_, ?_, ?_, ?_, ?_, ?_, ?_, ?_, ?_⟩, ?_, ?_, ?_, ?_, ?_, ?_⟩
  case refine_1 => exact computes_of_exec (fun _ => rfl) fun s x q h => rfl
  case refine_2 => exact computes_of_exec (fun _ => rfl) fun s x q h => rfl
  case refine_3 => exact computes_of_exec (fun _ => rfl) fun s x q h => rfl
  case refine_4 => exact computes_of_eq (fun _ => rfl) (fun _ _ => rfl) fun q t => by simp [mulHi, src]
  case refine_5 => exact computes_of_exec (fun _ => rfl) fun s x q h => rfl
  case refine_6 => exact computes_of_exec (fun _ => rfl) fun s x q h => rfl
  case refine_7 => exact computes_of_exec (fun _ => rfl) fun s x q h => rfl
  case refine_8 => exact computes_of_exec (fun _ => rfl) fun s x q h => rfl
  case refine_9 => exact computes_of_exec (fun _ => rfl) fun s x q h => rfl
  case refine_10 => exact computes_of_exec (fun _ => rfl) fun s x q h => rfl
  case refine_11 => exact computes_of_exec (fun _ => rfl) fun s x q h => rfl
  case refine_12 =>
    refine computes_of_eq (fun _ => rfl) (fun _ _ => rfl) fun q t => ?_
    rw [ofNat_min_toNat]
    by_cases hm : Issue.md q.x = 1
    · rw [if_pos hm]
      exact if_congr (by simp [hm, src, BitVec.slt_iff_toInt_lt]) rfl rfl
    · rw [if_neg hm]
      exact if_congr (by simp [hm, src]) rfl rfl
  case refine_13 =>
    refine computes_of_eq (fun _ => rfl) (fun _ _ => rfl) fun q t => ?_
    rw [ofNat_max_toNat]
    by_cases hm : Issue.md q.x = 1
    · rw [if_pos hm]
      exact if_congr (by simp [hm, src, BitVec.slt_iff_toInt_lt]) rfl rfl
    · rw [if_neg hm]
      exact if_congr (by simp [hm, src]) rfl rfl
  case refine_14 => exact computes_of_exec (fun _ => rfl) fun s x q h => rfl
  case refine_15 => exact computes_of_exec (fun _ => rfl) fun s x q h => rfl
  case refine_16 => exact computes_of_exec (fun _ => rfl) fun s x q h => rfl
  case refine_17 => exact computes_of_exec (fun _ => rfl) fun s x q h => rfl
  case refine_18 =>
    refine computes_of_exec (fun _ => rfl) fun s x q h => ?_
    have : immHigh q.x = BitVec.ofNat 32 (Issue.imm26 q.x) <<< 6 := by
      apply BitVec.eq_of_toNat_eq
      simp [immHigh, Nat.shiftLeft_eq]
    rw [← this]; rfl
  case refine_19 => exact computes_of_exec (fun _ => rfl) fun s x q h => rfl
  case refine_20 =>
    refine computes_of_exec (fun _ => rfl) fun s x q h => ?_
    refine congrArg (fun f => Exec.next (atIssue s q) (writeRes q f) none) (funext fun t => ?_)
    exact apply_ite (fun l : Option Nat => src q 1 (l.getD t)) _ _ _
  case refine_21 =>
    refine computes_of_exec (fun _ => rfl) fun s x q h => ?_
    have hl := h.legal
    simp only [specRdlane, Bool.and_eq_true, beq_iff_eq] at hl
    rw [writeRes_uniform (by tauto)]; rfl
  case refine_22 =>
    refine computes_of_exec (fun _ => rfl) fun s x q h => ?_
    have hl := h.legal
    simp only [specBallot, Bool.and_eq_true, beq_iff_eq] at hl
    rw [writeRes_uniform (by tauto)]; rfl
  case refine_23 =>
    refine computes_of_exec (fun _ => rfl) fun s x q h => ?_
    refine congrArg (fun f => Exec.next (atIssue s q) (writeRes q f) none) (funext fun t => ?_)
    simp only [bselByte, src, srcVal_reg q.g (h.reg rfl) (immInt q.x) 0]
    norm_num
  case refine_24 => 
    intro s x q h
    refine ⟨_, by rw [exec_huval rfl, issue_next h rfl], ?_⟩
    refine (WritesDest.writeRes q fun t => specialReg (atIssue s q) q (Issue.md q.x) t).congr fun t => ?_
    rw [h.word_eq, ← h.core_eq, ← h.slot_eq, ← atIssue_node s q]
    match Issue.md x with
    | 0 | 1 | 2 | 3 => rfl
    | _ + 4 =>
      simp only [specialReg]
      cases q.g.trapNan <;> cases q.g.trapSat <;> rfl

/-! ### Compares and predicates -/

/-- An instruction that writes a predicate in some positions sets those bits. -/
theorem setsBits_of_exec {mk : Issue → Instr} {sp : OpSpec} {m : GCtx → W32} {f : GCtx → Nat → Bool}
    (hi : ∀ x, huvalOf (mk x) = some (sp, x))
    (he : ∀ s x q, Ready sp s x q →
      sp.exec (atIssue s q) q = .next (atIssue s q) (writePred q.g (Issue.dest q.x) (m q) (f q)) none) :
    SetsBits mk sp m f := fun s x q h =>
  ⟨_, by rw [exec_huval (hi x), issue_next h (he s x q h)], by rw [← h.word_eq]; exact .wrP _ _ _⟩

/-- A uniform result is a write of all positions. -/
theorem writePredAll_eq (g : Group) (n : Nat) (b : Bool) : writePredAll g n b = writePred g n (-1) fun _ => b := by
  have hm : (if b then -1 else 0 : W32) = maskOf fun _ => b := by cases b <;> decide
  have hall (x y : W32) : (x &&& ~~~(-1)) ||| (y &&& -1) = y := by
    rw [show (-1 : W32) = BitVec.allOnes 32 from rfl, BitVec.not_allOnes, BitVec.and_zero, BitVec.zero_or, BitVec.and_allOnes]
  rw [writePredAll, writePred, hm, hall]

/-- 04 Table 5's conditions over the numbers that the words stand for. -/
theorem icmpCond_eq (c : Nat) (a b : W32) : icmpCond c a b = match c with
    | 0 => decide (a = b)
    | 1 => decide (a ≠ b)
    | 2 => decide (a.toInt < b.toInt)
    | 3 => decide (a.toInt ≤ b.toInt)
    | 4 => decide (b.toInt < a.toInt)
    | 5 => decide (b.toInt ≤ a.toInt)
    | 6 => decide (a.toNat < b.toNat)
    | 7 => decide (a.toNat ≤ b.toNat)
    | 8 => decide (b.toNat < a.toNat)
    | _ => decide (b.toNat ≤ a.toNat) := by
  match c with
  | 0 | 2 | 3 | 4 | 5 | 6 | 7 | 8 | _ + 9 => rfl
  | 1 => exact (decide_not).symm

/-- Bit `2 a + b` of a truth table. -/
theorem testBit_pair (m : Nat) (a b : Bool) :
    (m / 2 ^ ((if a then 2 else 0) + if b then 1 else 0) % 2 == 1) = m.testBit (2 * a.toNat + b.toNat) := by
  cases a <;> cases b <;> simp [Nat.testBit_eq_decide_div_mod_eq, beq_eq_decide]

/-- Settles O2: the effect of each of these instructions is a write of its predicate's positions; a uniform result is one of
all 32. -/
theorem predicateResults : Obligations.PredicateResults := by
  refine ⟨setsBits_of_exec (fun _ => rfl) fun s x q h => ?_, setsBits_of_exec (fun _ => rfl) fun s x q h => rfl,
    setsBits_of_exec (fun _ => rfl) fun s x q h => ?_, setsBits_of_exec (fun _ => rfl) fun s x q h => ?_⟩
  case refine_1 =>
    refine congrArg (fun g => Exec.next (atIssue s q) g none) ?_
    by_cases hu : icmpUni q.x = true
    · simp only [hu, if_true, writePredAll_eq, icmpCond_eq, src] <;> rfl
    · simp only [hu, icmpCond_eq, src] <;> rfl
  case refine_2 =>
    refine congrArg (fun g => Exec.next (atIssue s q) g none) ?_
    by_cases hu : 16 ≤ Issue.md q.x
    · simp only [hu, if_true, writePredAll_eq, testBit_pair]; rfl
    · simp only [hu, if_false, testBit_pair]
  case refine_3 =>
    refine congrArg (fun r => Exec.next (atIssue s q) (writePred q.g (Issue.dest q.x) q.on fun _ => r) none) ?_
    match Issue.md q.x with
    | 0 => exact (decide_not).symm
    | 1 => rfl
    | _ + 2 => exact (Bool.decide_or _ _).symm

/-! ### Floating-point instructions -/

/-- A ready group whose instruction goes on to the next, having created a NaN. -/
theorem issue_next_nan {sp : OpSpec} {s : State} {x : Issue} {q : GCtx} {d : Data} {g : Group} {i : NanInfo}
    (h : Ready sp s x q) (he : sp.exec (atIssue s q) q = .next d g (some i)) :
    s.issue sp x = issued s (reportNan sp d q g i).1 q (reportNan sp d q g i).2 (q.g.pc + 8) := by
  rw [issue_ready h, he]; rfl

/-- An instruction whose effect is `nanExec` of a function that takes free values from the counter at its issue. -/
theorem floatComputes_of_exec {mk : Issue → Instr} {sp : OpSpec} {unit n : Nat} {f : Nat → GCtx → Nat → W32 × Nat}
    (hi : ∀ x, huvalOf (mk x) = some (sp, x))
    (he : ∀ d q, sp.exec d q = nanExec { d with free := d.free + n } q unit (f d.free q)) :
    FloatComputes mk sp unit n f := by
  intro s x q h
  refine ⟨q.g.wrVs (Issue.dest q.x) q.on fun t => (f s.body.data.free q t).1, h.word_eq ▸ .wrVs _ _ _ _, ?_⟩
  have hf := he (atIssue s q) q
  rw [atIssue_free] at hf
  rw [exec_huval (hi x)]
  cases ho : nanOf q.on unit fun t => (f s.body.data.free q t).2 with
  | none => exact congrArg _ (issue_next h (hf.trans (congrArg _ ho)))
  | some i => exact congrArg _ (issue_next_nan h (hf.trans (congrArg _ ho)))

/-- The same where no free value is taken. -/
theorem floatComputes_of_exec_zero {mk : Issue → Instr} {sp : OpSpec} {unit : Nat} {f : GCtx → Nat → W32 × Nat}
    (hi : ∀ x, huvalOf (mk x) = some (sp, x)) (he : ∀ d q, sp.exec d q = nanExec d q unit (f q)) :
    FloatComputes mk sp unit 0 fun _ => f :=
  floatComputes_of_exec hi fun d q => he d q

/-- The scale of a thread's block, the block as a list of threads. -/
theorem mxScale_eq (q : GCtx) (t : Nat) : mxScale q t = blockScale (Issue.md q.x / 4 % 16)
    ((if mxHalves (Issue.md q.x) then (List.range 16).map fun i => t / 16 * 16 + i else List.range 32).map (mxVal q)) := by
  unfold mxScale
  split_ifs <;> simp [Function.comp_def]

/-- The element of a thread, SR by its encoding rule. -/
theorem mxElem_eq (q : GCtx) (t : Nat) : mxElem q t = BitVec.ofNat 32 (blockElem (Issue.md q.x / 4 % 16)
    (if cvtSr q.x then .sr (srBits (q.g.rd 1 (if Issue.src3 q.x = 255 then 255 else Issue.src3 q.x + 1) t)
      (q.g.rd 1 (if Issue.src3 q.x = 255 then 255 else Issue.src3 q.x + 2) t) (q.g.rd 0 (Issue.src2 q.x) t)) else .rne)
    (mxScale q t).1 (mxVal q t)) :=
  congrArg (fun md => BitVec.ofNat 32 (blockElem _ md (mxScale q t).1 (mxVal q t))) (if_congr beq_iff_eq.symm rfl rfl)

/-- The report code of a thread, its value being an infinity or not. -/
theorem mxCause_eq (q : GCtx) (t : Nat) : mxCause q t = if (match mxVal q t with
    | .inf _ => true
    | _ => false) then (mxScale q t).2 else 0 := by
  unfold mxCause
  cases mxVal q t <;> rfl

/-- The effect of `cvt.mx`: the elements, then the scales. -/
theorem specCvtMx_exec (d : Data) (q : GCtx) : specCvtMx.exec d q = .next d
    ((q.g.wrVs (Issue.dest q.x) q.on (mxElem q)).wrU (Issue.src3 q.x)
      (BitVec.ofNat 32 ((mxScale q 0).1 + if mxHalves (Issue.md q.x) then 256 * (mxScale q 16).1 else 0)))
    (nanOf q.on 2 (mxCause q)) := by
  rw [funext (mxElem_eq q), funext (mxCause_eq q)]
  simp only [mxScale_eq]
  rfl

/-- What the report of a created NaN does to its launch. -/
theorem mget_modLaunch {d : Data} {n : Nat} {l : Launch} (f : Launch → Launch) (h : mget d.launches n = some l) :
    mget (d.modLaunch n f).launches n = some (f l) := by
  simp [Data.modLaunch, mget_mmod, h]

theorem modLaunch_rest (d : Data) (n : Nat) (f : Launch → Launch) :
    { d.modLaunch n f with launches := d.launches, ended := d.ended } = d := rfl

/-- Settles O3: the effect of each of these instructions is `nanExec`, or for `cvt.mx` the writes of its elements and scales;
and the report of a created NaN changes the launch's record and the group's trap alone. -/
theorem floatResults : Obligations.FloatResults := by
  refine ⟨⟨?_, ?_, ?_, ?_, ?_, ?_, ?_, ?_, ?_, ?_, ?_, ?_, ?_, ?_, ?_, ?_, ?_, ?_⟩, ⟨?_, ?_⟩, ?_⟩
  case refine_1 => exact floatComputes_of_exec_zero (fun _ => rfl) fun _ _ => rfl
  case refine_2 => exact floatComputes_of_exec_zero (fun _ => rfl) fun _ _ => rfl
  case refine_3 => exact floatComputes_of_exec_zero (fun _ => rfl) fun _ _ => rfl
  case refine_4 => exact floatComputes_of_exec_zero (fun _ => rfl) fun _ _ => rfl
  case refine_5 => exact floatComputes_of_exec_zero (fun _ => rfl) fun _ _ => rfl
  case refine_6 => exact floatComputes_of_exec_zero (fun _ => rfl) fun _ _ => rfl
  case refine_7 => exact floatComputes_of_exec_zero (fun _ => rfl) fun _ _ => rfl
  case refine_8 => exact floatComputes_of_exec_zero (fun _ => rfl) fun _ _ => rfl
  case refine_9 => exact floatComputes_of_exec_zero (fun _ => rfl) fun _ _ => rfl
  case refine_10 => exact floatComputes_of_exec_zero (fun _ => rfl) fun _ _ => rfl
  case refine_11 => exact floatComputes_of_exec (fun _ => rfl) fun _ _ => rfl
  case refine_12 => exact floatComputes_of_exec (fun _ => rfl) fun _ _ => rfl
  case refine_13 => exact floatComputes_of_exec (fun _ => rfl) fun _ _ => rfl
  case refine_14 => exact floatComputes_of_exec (fun _ => rfl) fun _ _ => rfl
  case refine_15 => exact floatComputes_of_exec (fun _ => rfl) fun _ _ => rfl
  case refine_16 => exact floatComputes_of_exec (fun _ => rfl) fun _ _ => rfl
  case refine_17 => exact floatComputes_of_exec (fun _ => rfl) fun _ _ => rfl
  case refine_18 => exact floatComputes_of_exec (fun _ => rfl) fun _ _ => rfl
  case refine_19 => exact floatComputes_of_exec_zero (fun _ => rfl) fun _ _ => rfl
  case refine_20 =>
    intro s x q h
    refine ⟨_, _, .wrVs _ _ _ _, .wrU _ _ _, ?_⟩
    obtain rfl := h.word_eq
    rw [exec_huval rfl]
    have he := specCvtMx_exec (atIssue s q) q
    cases ho : nanOf q.on 2 (mxCause q) with
    | none => exact congrArg _ (issue_next h (he.trans (congrArg _ ho)))
    | some i => exact congrArg _ (issue_next_nan h (he.trans (congrArg _ ho)))
  case refine_21 =>
    intro sp d q g i
    by_cases ht : q.g.trapNan = true
    · simp only [reportNan, ht, if_true]
      refine ⟨fun l hl => ⟨_, mget_modLaunch _ hl, rfl, rfl, fun hf => if_pos hf⟩, modLaunch_rest _ _ _, nofun,
        fun _ => ⟨_, rfl, rfl, rfl, rfl, rfl⟩⟩
    · simp only [reportNan, ht]
      exact ⟨fun l hl => ⟨_, mget_modLaunch _ hl, rfl, rfl, fun hf => if_pos hf⟩, modLaunch_rest _ _ _, fun _ => rfl, nofun⟩

end Sys2Proof.Machine
end

section
/-! Control instructions: where a group goes on, branches and their stack, exit and yield (03 R70, R78-R80, R103, R107;
04 R116, R135-R137). -/

namespace Sys2Proof.Machine

/-! ### Cores and groups of the data plane -/

@[simp] theorem core_setCore_self (d : Data) (c : Nat) (k : Core) : (d.setCore c k).core c = k := by
  simp [Data.core, Data.setCore, mgetD]

theorem core_setCore_ne (d : Data) {c c' : Nat} (k : Core) (h : c ≠ c') : (d.setCore c k).core c' = d.core c' := by
  simp [Data.core, Data.setCore, mgetD, mget_mput_ne _ _ _ _ h]

@[simp] theorem core_setGroup_self (d : Data) (c k : Nat) (g : Group) :
    (d.setGroup c k g).core c = { d.core c with groups := mput (d.core c).groups k g } := core_setCore_self _ _ _

theorem core_setGroup_ne (d : Data) {c c' : Nat} (k : Nat) (g : Group) (h : c ≠ c') :
    (d.setGroup c k g).core c' = d.core c' := core_setCore_ne _ _ h

@[simp] theorem group_setGroup_self (d : Data) (c k : Nat) (g : Group) : (d.setGroup c k g).group c k = some g := by
  simp [Data.group]

theorem group_setGroup_ne (d : Data) {c k c' k' : Nat} (g : Group) (h : (c', k') ≠ (c, k)) :
    (d.setGroup c k g).group c' k' = d.group c' k' := by
  by_cases hc : c = c'
  · subst hc
    have hk : k ≠ k' := fun hk => h (by rw [hk])
    simp [Data.group, mget_mput_ne _ _ _ _ hk]
  · simp [Data.group, core_setGroup_ne _ _ _ hc]

/-- A fetch leaves a core as it was but for its instruction cache and fetch buffers. -/
theorem core_fetch1 (d : Data) (c s plot a c' : Nat) : ∃ ic fb,
    (d.fetch1 c s plot a).core c' = { d.core c' with icache := ic, fetchBuf := fb } := by
  unfold Data.fetch1
  dsimp only
  by_cases hb : (mget (mgetD (d.core c).fetchBuf s []) a).isSome = true
  · rw [if_pos hb]; exact ⟨_, _, rfl⟩
  · rw [if_neg hb]
    by_cases hc : c = c'
    · subst hc; rw [core_setCore_self]; exact ⟨_, _, rfl⟩
    · rw [core_setCore_ne _ _ hc]; exact ⟨_, _, rfl⟩

theorem core_atIssue (s : State) (q : GCtx) (c : Nat) : ∃ ic fb,
    (atIssue s q).core c = { s.body.data.core c with icache := ic, fetchBuf := fb } := by
  obtain ⟨ic, fb, h⟩ := core_fetch1 s.body.data q.c q.s q.b.plot (q.g.pc.toNat / 64) c
  obtain ⟨ic', fb', h'⟩ :=
    core_fetch1 (s.body.data.fetch1 q.c q.s q.b.plot (q.g.pc.toNat / 64)) q.c q.s q.b.plot ((q.g.pc + 8).toNat / 64) c
  exact ⟨ic', fb', h'.trans (by rw [h])⟩

@[simp] theorem atIssue_pass (s : State) (q : GCtx) (c : Nat) : ((atIssue s q).core c).pass = (s.body.data.core c).pass := by
  obtain ⟨ic, fb, h⟩ := core_atIssue s q c; rw [h]

@[simp] theorem atIssue_clk (s : State) (q : GCtx) (c : Nat) : ((atIssue s q).core c).clk = (s.body.data.core c).clk := by
  obtain ⟨ic, fb, h⟩ := core_atIssue s q c; rw [h]

@[simp] theorem atIssue_groups (s : State) (q : GCtx) (c : Nat) :
    ((atIssue s q).core c).groups = (s.body.data.core c).groups := by
  obtain ⟨ic, fb, h⟩ := core_atIssue s q c; rw [h]

@[simp] theorem atIssue_blocks (s : State) (q : GCtx) (c : Nat) :
    ((atIssue s q).core c).blocks = (s.body.data.core c).blocks := by
  obtain ⟨ic, fb, h⟩ := core_atIssue s q c; rw [h]

@[simp] theorem atIssue_near (s : State) (q : GCtx) (c : Nat) : ((atIssue s q).core c).near = (s.body.data.core c).near := by
  obtain ⟨ic, fb, h⟩ := core_atIssue s q c; rw [h]

@[simp] theorem atIssue_arrQ (s : State) (q : GCtx) (c : Nat) : ((atIssue s q).core c).arrQ = (s.body.data.core c).arrQ := by
  obtain ⟨ic, fb, h⟩ := core_atIssue s q c; rw [h]

@[simp] theorem atIssue_arrOf (s : State) (q : GCtx) (c k : Nat) (g : Group) :
    arrOf ((atIssue s q).core c) k g = arrOf (s.body.data.core c) k g := by simp [arrOf]

@[simp] theorem atIssue_reqsOf (s : State) (q : GCtx) (c k : Nat) (g : Group) :
    (atIssue s q).reqsOf c k g = s.body.data.reqsOf c k g := by simp [Data.reqsOf]

/-! ### An issue by its instruction -/

/-- A ready word whose instruction goes on to the next. -/
theorem exec_next {i : Instr} {sp : OpSpec} {s : State} {x : Issue} {q : GCtx} {d : Data} {g : Group}
    (hi : huvalOf i = some (sp, x)) (h : Ready sp s x q) (he : sp.exec (atIssue s q) q = .next d g none) :
    exec i s = .next (issued s d q g (q.g.pc + 8)) := by rw [exec_huval hi, issue_next h he]

/-- A ready word whose instruction jumps. -/
theorem exec_jump {i : Instr} {sp : OpSpec} {s : State} {x : Issue} {q : GCtx} {d : Data} {g : Group} {pc : W64}
    (hi : huvalOf i = some (sp, x)) (h : Ready sp s x q) (he : sp.exec (atIssue s q) q = .jump d g pc) :
    exec i s = .next (issued s d q g pc) := by rw [exec_huval hi, issue_jump h he]

/-- A ready word whose instruction waits. -/
theorem exec_wait {i : Instr} {sp : OpSpec} {s : State} {x : Issue} {q : GCtx} {d : Data} {g : Group}
    (hi : huvalOf i = some (sp, x)) (h : Ready sp s x q) (he : sp.exec (atIssue s q) q = .wait d g) :
    exec i s = .next (waiting s d q g) := by rw [exec_huval hi, issue_ready h, he]; rfl

/-- A ready word whose instruction gives the data plane itself. -/
theorem exec_raw {i : Instr} {sp : OpSpec} {s : State} {x : Issue} {q : GCtx} {d : Data}
    (hi : huvalOf i = some (sp, x)) (h : Ready sp s x q) (he : sp.exec (atIssue s q) q = .raw d) :
    exec i s = .next (s.setData d) := by rw [exec_huval hi, issue_ready h, he]; rfl

/-! ### Control instructions that go on or jump -/

/-- Settles O4: the effect of each of these instructions is one `next` or `jump`. -/
theorem controlResults : Obligations.ControlResults := by
  refine ⟨fun s x q h => exec_next rfl h rfl, fun s x q h => exec_next rfl h rfl, fun s x q h => ?_, fun s x q h => ?_,
    fun s x q h ha => ?_, fun s x q h => ?_, fun s x q h => ?_⟩
  case refine_1 =>
    obtain rfl := h.word_eq
    refine (exec_next rfl h rfl).trans ?_
    simp [mbit]
  case refine_2 =>
    obtain rfl := h.word_eq
    exact exec_jump rfl h rfl
  case refine_3 =>
    obtain rfl := h.word_eq
    exact exec_jump rfl h (if_neg (not_not.2 ha))
  case refine_4 =>
    obtain rfl := h.word_eq
    rw [← h.beat_eq]
    exact exec_next rfl h rfl
  case refine_5 =>
    obtain rfl := h.word_eq
    refine ⟨1 + Config.freeNat s.body.data.free, by omega, (exec_next rfl h rfl).trans ?_⟩
    rw [atIssue_clk, atIssue_free]

/-! ### Branches -/

theorem maskOf_eq_zero {f : Nat → Bool} (h : ∀ t < 32, f t = false) : maskOf f = 0 := by
  have hf : (List.range 32).foldl (fun a t => if f t then a + 2 ^ t else a) 0 = 0 := by
    refine List.foldlRecOn (motive := fun n => n = 0) (List.range 32) _ rfl fun n hn t ht => ?_
    simp [h t (List.mem_range.1 ht), hn]
  rw [maskOf, hf]; rfl

/-- With room on the stack, a divergent branch leaves the pending threads in a new entry. -/
theorem diverge_of_room {q : GCtx} (d : Data) (rpc pendPc : W64) (pend : W32) (pc : W64) (act : W32)
    (h : q.g.stack.length < 32) : diverge q d rpc pendPc pend pc act = .jump d { q.g with
      active := act
      stack := { rpc := rpc, origMask := q.g.active, pendPc := pendPc, pendMask := pend } :: q.g.stack } pc :=
  if_neg (Nat.not_le.2 h)

/-- `brx` where every active thread's target is aligned. -/
theorem execBrxBody_of_aligned {q : GCtx} (d : Data) {t0 : Nat} {ts : List Nat} (ht : threads q.g.active = t0 :: ts)
    (ha : ∀ t ∈ t0 :: ts, (brxTarget q t).toNat % 8 = 0) :
    let same := maskOf fun t => bit q.g.active t && brxTarget q t == brxTarget q t0
    let rest := q.g.active &&& ~~~same
    let rpc := relTarget q.g.pc 26 (Issue.b q.x 25 0)
    execBrxBody d q = if rest = 0 then .jump d q.g (brxTarget q t0)
      else match q.g.stack with
        | e :: es =>
          if e.pendMask = 0 ∧ e.pendPc = q.g.pc ∧ e.rpc = rpc then
            .jump d { q.g with active := same, stack := { e with pendMask := rest } :: es } (brxTarget q t0)
          else diverge q d rpc q.g.pc rest (brxTarget q t0) same
        | [] => diverge q d rpc q.g.pc rest (brxTarget q t0) same := by
  have hbad : (maskOf fun t => bit q.g.active t && (brxTarget q t).toNat % 8 != 0) = 0 := by
    refine maskOf_eq_zero fun t hlt => ?_
    cases hb : bit q.g.active t with
    | false => rfl
    | true => simpa using ha t (ht ▸ (mem_threads _ _).2 ⟨hlt, hb⟩)
  dsimp only
  rw [execBrxBody, hbad]
  dsimp only
  rw [if_neg (not_not.2 rfl), ht] <;> rfl

/-- Settles O5: `bra` by the threads that its condition takes, `brx` by the threads that share the lowest one's target. -/
theorem branches : Obligations.Branches := by
  constructor
  case left =>
    intro s x q h
    obtain rfl := h.word_eq
    refine ⟨fun hon => ?_, fun hon hrest => ?_, fun hon hrest hroom => ?_⟩
    · refine exec_jump rfl h (if_pos hon)
    · refine exec_jump rfl h ((if_neg hon).trans (if_pos hrest))
    · exact exec_jump rfl h ((if_neg hon).trans ((if_neg hrest).trans (diverge_of_room _ _ _ _ _ _ hroom)))
  case right =>
    intro s x q h t0 ts ht ha
    obtain rfl := h.word_eq
    have he := execBrxBody_of_aligned (atIssue s q) ht ha
    refine ⟨fun hrest => ?_, fun hrest e es hes hp hpc hrpc => ?_, fun hrest hroom hne => ?_⟩
    · exact exec_jump rfl h (he.trans (if_pos hrest))
    · refine exec_jump rfl h (he.trans ((if_neg hrest).trans ?_))
      rw [hes]
      exact if_pos ⟨hp, hpc, hrpc⟩
    · refine exec_jump rfl h (he.trans ((if_neg hrest).trans (Eq.trans ?_ (diverge_of_room _ _ _ _ _ _ hroom))))
      split
      next e es hs => exact if_neg (hne e (by rw [hs]; rfl))
      next => rfl

/-! ### Reconvergence -/

/-- Nothing applies where the group is not at its top entry's RPC and has threads left. -/
theorem reconv_of_stays (n : Nat) {g : Group} (h : ∀ e es, g.stack = e :: es → g.pc ≠ e.rpc ∧ g.active ≠ 0) :
    reconv n g = g := by
  cases n with
  | zero => rfl
  | succ n =>
    rw [reconv]
    cases hs : g.stack with
    | nil => rfl
    | cons e es =>
      obtain ⟨hpc, hact⟩ := h e es hs
      exact if_neg (not_or.2 ⟨hpc, hact⟩)

theorem reconv_switch (n : Nat) {g : Group} {e : StackEntry} {es : List StackEntry} (hs : g.stack = e :: es)
    (h : g.pc = e.rpc ∨ g.active = 0) (hp : e.pendMask ≠ 0) :
    reconv (n + 1) g = reconv n { g with pc := e.pendPc, active := e.pendMask, stack := { e with pendMask := 0 } :: es } := by
  rw [reconv, hs]
  exact (if_pos h).trans (if_pos hp)

theorem reconv_rejoin (n : Nat) {g : Group} {e : StackEntry} {es : List StackEntry} (hs : g.stack = e :: es)
    (h : g.pc = e.rpc ∨ g.active = 0) (hp : e.pendMask = 0) :
    reconv (n + 1) g = reconv n { g with pc := e.rpc, active := e.origMask, stack := es } := by
  rw [reconv, hs]
  exact (if_pos h).trans (if_neg (not_not.2 hp))

/-- Settles O6: one step of reconvergence, after which no other applies. -/
theorem reconvergence : Obligations.Reconvergence := by
  refine ⟨fun g pc h => reconv_of_stays _ h, fun g pc e es hs h hp hpc => ?_, fun g pc e es hs h hp ho hn => ?_⟩
  · refine (reconv_switch (g := { g with pc := pc, iseq := g.iseq + 1 }) 65 hs h hp).trans (reconv_of_stays _ fun f fs hf => ?_)
    cases hf
    exact ⟨hpc, hp⟩
  · exact (reconv_rejoin (g := { g with pc := pc, iseq := g.iseq + 1 }) 65 hs h hp).trans (reconv_of_stays _ fun f fs hf => ⟨hn f fs hf, ho⟩)

/-! ### Exit and yield -/

/-- Settles O7: `exit` goes on or waits by what its group has outstanding; `yield.t` by its core's pass. -/
theorem exitAndYield : Obligations.ExitAndYield := by
  refine ⟨fun s x q h hdone => ?_, fun s x q h hall hbusy => ?_, fun s x q h hd hf => ?_, fun s x q a w h hp => ?_⟩
  case refine_1 =>
    refine exec_jump rfl h (if_neg ?_)
    simpa [and_assoc] using hdone
  case refine_2 =>
    refine exec_wait rfl h (if_pos ?_)
    simp [hall]
    tauto
  case refine_3 =>
    refine exec_next rfl h ?_
    change execYieldBody _ q = _
    rw [execYieldBody, atIssue_pass]
    split
    next a w hp => exact absurd hp (hd a w)
    next a hp => exact absurd hp (hf a)
    next => rfl
  case refine_4 =>
    have he : specYieldT.exec (atIssue s q) q = .raw (((atIssue s q).setCore q.c { (atIssue s q).core q.c with
        pass := .deferral a (some (w.getD q.beat)) }).setGroup q.c q.s
          { (q.g.advance (q.g.pc + 8)) with st := .yieldPark, act := false }) := by
      change execYieldBody _ q = _
      rw [execYieldBody, atIssue_pass, hp]
    refine ⟨_, _, exec_raw rfl h he, group_setGroup_self _ _ _ _, rfl, rfl, rfl, ?_⟩
    simp [h.beat_eq]

end Sys2Proof.Machine
end

section
/-! Loads, stores and atomics: registers written word by word, accesses by thread, line requests (03 R81-R87; 04 R123, R124). -/

namespace Sys2Proof.Machine

/-! ### Registers written word by word -/

/-- One word of a load: a u register with DU, else the thread's v register. -/
def Group.wrWord (g : Group) (du : Bool) (n t : Nat) (w : W32) : Group := if du then g.wrU n w else g.wrV n t w

theorem writeWords_cons (g : Group) (du : Bool) (n t : Nat) (w : W32) (ws : List W32) :
    writeWords g du n t (w :: ws) = writeWords (g.wrWord du n t w) du (if n = 255 then 255 else n + 1) t ws := rfl

/-- The space code of a load's destination. -/
abbrev duSpace (du : Bool) : Nat := if du then 1 else 0

theorem rd_wrWord (g : Group) (du : Bool) (n t : Nat) (w : W32) (k u : Nat) (ht : t < 32) (hu : u < 32) :
    (g.wrWord du n t w).rd (duSpace du) k u =
      if n ≠ 255 ∧ k = n ∧ (du = true ∨ u = t) then w else g.rd (duSpace du) k u := by
  cases du with
  | false => simpa [Group.wrWord, duSpace] using rd_wrV g n t w k u ht hu
  | true =>
    have hw := WritesU.wrU g n w
    by_cases hk : k = n
    · subst hk
      by_cases hn : k = 255
      · simp [hn, Group.rd]
      · simpa [hn, Group.wrWord, Group.rd] using hw.value hn
    · simpa [hk, Group.wrWord, Group.rd] using hw.others k hk

theorem wrWord_rest (g : Group) (du : Bool) (n t : Nat) (w : W32) :
    { g.wrWord du n t w with v := g.v, u := g.u } = g := by
  cases du with
  | false =>
    have h := congrArg (fun k : Group => { k with u := g.u }) (wrV_rest g n t w)
    exact h
  | true =>
    have h := congrArg (fun k : Group => { k with v := g.v }) (WritesU.wrU g n w).rest
    exact h

/-- The words of a load leave what is neither v nor u register. -/
theorem writeWords_rest (g : Group) (du : Bool) (n t : Nat) (ws : List W32) :
    { writeWords g du n t ws with v := g.v, u := g.u } = g := by
  induction ws generalizing g n with
  | nil => rfl
  | cons w ws ih =>
    have h := congrArg (fun k : Group => { k with v := g.v, u := g.u }) (ih (g.wrWord du n t w) (if n = 255 then 255 else n + 1))
    exact h.trans (wrWord_rest g du n t w)

/-- The words of a vector destination leave the u registers too. -/
theorem writeWords_rest_v (g : Group) (n t : Nat) (ws : List W32) : { writeWords g false n t ws with v := g.v } = g := by
  induction ws generalizing g n with
  | nil => rfl
  | cons w ws ih =>
    have h := congrArg (fun k : Group => { k with v := g.v }) (ih (g.wrV n t w) (if n = 255 then 255 else n + 1))
    exact h.trans (wrV_rest g n t w)

/-- Registers below the first that is written keep their value. -/
theorem rd_writeWords_below (g : Group) (du : Bool) (n t : Nat) (ws : List W32) {k u : Nat} (hk : k < n) (hn : n ≤ 255)
    (ht : t < 32) (hu : u < 32) : (writeWords g du n t ws).rd (duSpace du) k u = g.rd (duSpace du) k u := by
  induction ws generalizing g n with
  | nil => rfl
  | cons w ws ih =>
    rw [writeWords_cons, ih _ _ (by split_ifs <;> omega) (by split_ifs <;> omega), rd_wrWord _ _ _ _ _ _ _ ht hu]
    exact if_neg fun h => by omega

/-- The registers of another thread keep their value. -/
theorem rd_writeWords_thread (g : Group) (n t : Nat) (ws : List W32) (k : Nat) {u : Nat} (h : u ≠ t) (ht : t < 32) (hu : u < 32) :
    (writeWords g false n t ws).rd 0 k u = g.rd 0 k u := by
  induction ws generalizing g n with
  | nil => rfl
  | cons w ws ih =>
    rw [writeWords_cons, ih]
    exact (rd_wrWord g false n t w k u ht hu).trans (if_neg fun hc => by simp [h] at hc)

/-- The registers from `n` on hold the words `ws` in thread `t`, register 255 left out. -/
def Group.Holds (g : Group) (du : Bool) (n t : Nat) (ws : List W32) : Prop :=
  ∀ i, i < ws.length → n + i < 255 → some (g.rd (duSpace du) (n + i) t) = ws[i]?

theorem holds_writeWords (g : Group) (du : Bool) (n : Nat) {t : Nat} (ws : List W32) (ht : t < 32) :
    (writeWords g du n t ws).Holds du n t ws := by
  induction ws generalizing g n with
  | nil => exact fun i hi => absurd hi (Nat.not_lt_zero i)
  | cons w ws ih =>
    intro i hi hn
    have hne : n ≠ 255 := by omega
    rw [writeWords_cons, if_neg hne]
    cases i with
    | zero =>
      change some (Group.rd _ (duSpace du) n t) = some w
      rw [rd_writeWords_below _ _ _ _ _ (Nat.lt_add_one n) (by omega) ht ht, rd_wrWord _ _ _ _ _ _ _ ht ht,
        if_pos ⟨hne, rfl, Or.inr rfl⟩]
    | succ i =>
      have h := ih (g.wrWord du n t w) (n + 1) i (by simpa using hi) (by omega)
      rw [Nat.add_assoc, Nat.add_comm 1 i] at h
      exact h

/-- Writes of threads one after another: each thread written holds its words where no other write of its registers differs. -/
theorem holds_foldl {du : Bool} {n : Nat} {W : List (Nat × List W32)} (g : Group) {t : Nat} {ws : List W32}
    (hmem : (t, ws) ∈ W) (hlt : ∀ w ∈ W, w.1 < 32) (hsame : ∀ w ∈ W, du = true ∨ w.1 = t → w = (t, ws)) :
    (W.foldl (fun g w => writeWords g du n w.1 w.2) g).Holds du n t ws := by
  have ht := hlt _ hmem
  have keep (g : Group) (w : Nat × List W32) (hw : w ∈ W) (hg : g.Holds du n t ws) :
      (writeWords g du n w.1 w.2).Holds du n t ws := by
    by_cases hc : du = true ∨ w.1 = t
    · rw [hsame w hw hc]; exact holds_writeWords g du n ws ht
    · obtain ⟨hdu, hne⟩ := not_or.1 hc
      rw [Bool.not_eq_true] at hdu
      subst hdu
      intro i hi hn
      rw [← hg i hi hn]
      exact congrArg some (rd_writeWords_thread g n w.1 w.2 (n + i) (fun h => hne h.symm) (hlt w hw) ht)
  obtain ⟨W1, W2, rfl⟩ := List.append_of_mem hmem
  rw [List.foldl_append, List.foldl_cons]
  exact List.foldlRecOn (motive := fun g : Group => g.Holds du n t ws) W2 _ (holds_writeWords _ du n ws ht) fun g hg w hw =>
    keep g w (List.mem_append_right _ (List.mem_cons_of_mem _ hw)) hg

/-- Writes of threads leave what is neither v nor u register. -/
theorem foldl_writeWords_rest (g : Group) (du : Bool) (n : Nat) (W : List (Nat × List W32)) :
    { W.foldl (fun g w => writeWords g du n w.1 w.2) g with v := g.v, u := g.u } = g := by
  refine List.foldlRecOn (motive := fun k : Group => { k with v := g.v, u := g.u } = g) W _ rfl fun k hk w _ => ?_
  have h := congrArg (fun k : Group => { k with v := g.v, u := g.u }) (writeWords_rest k du n w.1 w.2)
  exact h.trans hk

theorem foldl_writeWords_rest_v (g : Group) (n : Nat) (W : List (Nat × List W32)) :
    { W.foldl (fun g w => writeWords g false n w.1 w.2) g with v := g.v } = g := by
  refine List.foldlRecOn (motive := fun k : Group => { k with v := g.v } = g) W _ rfl fun k hk w _ => ?_
  have h := congrArg (fun k : Group => { k with v := g.v }) (writeWords_rest_v k n w.1 w.2)
  exact h.trans hk

/-! ### Accesses by thread -/

/-- The accesses are one for each thread that takes part, in ascending order. -/
def ByThread (m : W32) (one : Bool) (l : List Acc) : Prop := l.map Acc.t = partThreads m one

theorem ByThread.accesses (d : Data) (q : GCtx) (space n : Nat) (one : Bool) (addr : Nat → Nat) :
    ByThread q.on one (accesses d q space n one addr) := by
  simp [ByThread, Machine.accesses, Function.comp_def]

theorem ByThread.map {m : W32} {one : Bool} {l : List Acc} (h : ByThread m one l) {f : Acc → Acc} (hf : ∀ a, (f a).t = a.t) :
    ByThread m one (l.map f) := by
  rw [ByThread, List.map_map, ← h]
  exact List.map_congr_left fun a _ => hf a

theorem ByThread.placed {m : W32} {one : Bool} {l : List Acc} (h : ByThread m one l) (d : Data) (space : Nat) :
    ByThread m one (placed d space l) := h.map fun _ => rfl

theorem partThreads_sublist (m : W32) (one : Bool) : (partThreads m one).Sublist (List.range 32) := by
  unfold partThreads
  split_ifs
  · exact (List.take_sublist _ _).trans List.filter_sublist
  · exact List.filter_sublist

theorem ByThread.rising {m : W32} {one : Bool} {l : List Acc} (h : ByThread m one l) : l.Pairwise fun a b => a.t < b.t := by
  have hp : (partThreads m one).Pairwise (· < ·) := List.pairwise_lt_range.sublist (partThreads_sublist m one)
  rw [← h] at hp
  exact List.pairwise_map.1 hp

theorem ByThread.lt {m : W32} {one : Bool} {l : List Acc} (h : ByThread m one l) {a : Acc} (ha : a ∈ l) : a.t < 32 := by
  have hm : a.t ∈ partThreads m one := h ▸ List.mem_map_of_mem ha
  exact List.mem_range.1 ((partThreads_sublist m one).subset hm)

/-- Two accesses of one thread are one. -/
theorem ByThread.eq_of_thread {m : W32} {one : Bool} {l : List Acc} (h : ByThread m one l) {a b : Acc} (ha : a ∈ l) (hb : b ∈ l)
    (ht : a.t = b.t) : a = b :=
  List.inj_on_of_nodup_map (f := Acc.t) (List.pairwise_map.2 (h.rising.imp Nat.ne_of_lt)) ha hb ht

/-- With DU there is one access at most. -/
theorem ByThread.eq_of_one {m : W32} {l : List Acc} (h : ByThread m true l) {a b : Acc} (ha : a ∈ l) (hb : b ∈ l) : a = b := by
  have hl : l.length ≤ 1 := by
    rw [← List.length_map (f := Acc.t), h]
    simp [partThreads]
  match l, hl with
  | [c], _ => rw [List.mem_singleton.1 ha, List.mem_singleton.1 hb]

theorem mem_benchAcc {l : List Acc} {e : Nat × Nat} : e ∈ benchAcc l ↔ ∃ a ∈ l, a.t = e.1 ∧ a.at_ = .ok (.bench e.2) := by
  simp only [benchAcc, List.mem_filterMap]
  refine exists_congr fun a => and_congr_right fun _ => ?_
  constructor
  · intro h
    split at h
    next p hp => cases h; exact ⟨rfl, hp⟩
    next => cases h
  · rintro ⟨ht, hp⟩
    rw [hp, ht]

theorem benchAcc_rising {m : W32} {one : Bool} {l : List Acc} (h : ByThread m one l) :
    (benchAcc l).Pairwise fun e f => e.1 < f.1 := by
  refine List.pairwise_filterMap.2 (h.rising.imp fun {a b} hab e he f hf => ?_)
  split at he <;> cases he
  split at hf <;> cases hf
  exact hab

theorem mem_inLine {l : List Acc} {line : Nat} {a : Acc} : a ∈ inLine l line ↔ a ∈ l ∧ ∃ tgt, lineOf a = some (line, tgt) := by
  simp only [inLine, List.mem_filter]
  refine and_congr_right fun _ => ?_
  cases lineOf a with
  | none => simp
  | some e => simp [Prod.ext_iff]

/-- An access of the bench is in no line. -/
theorem lineOf_bench {a : Acc} {p : Nat} (h : a.at_ = .ok (.bench p)) : lineOf a = none := by simp [lineOf, h]

/-! ### Line requests -/

/-- A line request as it enters the fabric engine. -/
def newReq (d : Data) (code : BitVec 10) (q : GCtx) (line : Nat) (tgt : Target) (op : LineOp) (lanes : List Lane) : LineReq where
  id := d.nextId
  core := q.c
  slot := q.s
  iseq := q.g.iseq
  age := q.g.age
  plot := q.b.plot
  pc := q.g.pc
  opcode := code
  addr := line
  tgt := tgt
  op := op
  lanes := lanes
  stage := .waiting
  pre := none
  rem := none
  accepted := none

/-- Requests entered one after another. -/
theorem enters_addReqs (d : Data) (code : BitVec 10) (q : GCtx) (L : List (Nat × Target)) (op : Nat × Target → LineOp)
    (lanes : Nat × Target → List Lane) :
    ∃ new, Enters d (L.foldl (fun d e => d.addReq code q e.1 e.2 (op e) (lanes e)) d) new 0 ∧
      (L.foldl (fun d e => d.addReq code q e.1 e.2 (op e) (lanes e)) d).bench = d.bench ∧ new.map (fun r => (r.addr, r.tgt)) = L ∧
      ∀ r ∈ new, r.core = q.c ∧ r.slot = q.s ∧ r.age = q.g.age ∧ r.iseq = q.g.iseq ∧ r.plot = q.b.plot ∧ r.stage = .waiting ∧
        r.accepted = none ∧ r.op = op (r.addr, r.tgt) ∧ r.lanes = lanes (r.addr, r.tgt) := by
  induction L generalizing d with
  | nil => exact ⟨[], ⟨(List.append_nil _).symm, rfl, rfl, rfl⟩, rfl, rfl, fun r hr => absurd hr List.not_mem_nil⟩
  | cons e L ih =>
    obtain ⟨new, ⟨hreqs, hid, hfree, hrest⟩, hb, hmap, hall⟩ := ih (d.addReq code q e.1 e.2 (op e) (lanes e))
    refine ⟨newReq d code q e.1 e.2 (op e) (lanes e) :: new, ⟨?_, ?_, hfree, ?_⟩, hb, by rw [List.map_cons, hmap]; rfl, ?_⟩
    · rw [List.foldl_cons, hreqs, List.append_cons]; rfl
    · rw [List.foldl_cons, hid, List.length_cons]; exact Nat.add_right_comm _ _ _
    · have h := congrArg (fun k : Data => { k with reqs := d.reqs, nextId := d.nextId, free := d.free, bench := d.bench }) hrest
      exact h
    · intro r hr
      rcases List.mem_cons.1 hr with rfl | hr
      · exact ⟨rfl, rfl, rfl, rfl, rfl, rfl, rfl, rfl, rfl⟩
      · exact hall r hr

end Sys2Proof.Machine
end

section
/-! The effects of `ld`, `st` and `atom` (03 R81-R84; 04 R123, R124, Table 11; 07 R220). -/

namespace Sys2Proof.Machine

/-! ### Near-cache lines given up -/

/-- One line of a near cache is given up and counted. -/
def Data.giveUp (d : Data) (c : Nat) (e : Nat × Target) : Data :=
  (d.setCore c { d.core c with near := mdel (d.core c).near (e.1 / 128) }).count 0x0209 c

theorem giveUp_near (d : Data) (c : Nat) (e : Nat × Target) : ((d.giveUp c e).core c).near = mdel (d.core c).near (e.1 / 128) :=
  congrArg Core.near (core_setCore_self d c { d.core c with near := mdel (d.core c).near (e.1 / 128) })

theorem foldl_giveUp_none (d : Data) (c : Nat) (L : List (Nat × Target)) (k : Nat)
    (h : mget (d.core c).near k = none ∨ ∃ e ∈ L, e.1 / 128 = k) :
    mget ((L.foldl (fun d e => d.giveUp c e) d).core c).near k = none := by
  induction L generalizing d with
  | nil => simpa using h
  | cons e L ih =>
    refine ih (d.giveUp c e) ?_
    rw [giveUp_near]
    by_cases he : e.1 / 128 = k
    · subst he; simp
    · rw [mget_mdel_ne _ _ _ he]
      simpa [he] using h

theorem nearLost_eq (d : Data) (c : Nat) (x : Issue) (lines : List (Nat × Target)) :
    nearLost d c x lines = if x.nearParity then
      (lines.filter fun e => roLine x e.2 && (mget (d.core c).near (e.1 / 128)).isSome).foldl (fun d e => d.giveUp c e) d
    else d := rfl

/-- Lines given up leave what is neither core nor count of corrected errors. -/
theorem nearLost_rest (d : Data) (c : Nat) (x : Issue) (lines : List (Nat × Target)) :
    { nearLost d c x lines with cores := d.cores, corrected := d.corrected } = d := by
  rw [nearLost_eq]
  split_ifs
  · refine List.foldlRecOn (motive := fun k : Data => { k with cores := d.cores, corrected := d.corrected } = d) _ _ rfl
      fun k hk e _ => ?_
    exact hk
  · rfl

theorem nearLost_bench (d : Data) (c : Nat) (x : Issue) (lines : List (Nat × Target)) :
    (nearLost d c x lines).bench = d.bench := by
  have h := congrArg Data.bench (nearLost_rest d c x lines); exact h

/-- After a parity error none of the lines that the load asks for is held. -/
theorem nearLost_near {x : Issue} (hx : x.nearParity = true) (d : Data) (c : Nat) {lines : List (Nat × Target)}
    {e : Nat × Target} (he : e ∈ lines) (hr : roLine x e.2 = true) :
    mget ((nearLost d c x lines).core c).near (e.1 / 128) = none := by
  rw [nearLost_eq, if_pos hx]
  refine foldl_giveUp_none d c _ _ ?_
  cases hm : mget (d.core c).near (e.1 / 128) with
  | none => exact Or.inl rfl
  | some cp => exact Or.inr ⟨e, List.mem_filter.2 ⟨he, by simp [hr, hm]⟩, rfl⟩

/-! ### Loads -/

/-- The near-cache line that serves a line of a load, the line's number in the load given. -/
def loadHit (d : Data) (q : GCtx) (e : (Nat × Target) × Nat) : Option LineCopy :=
  if roLine q.x e.1.2 && !q.x.nearParity then nearHit d q.c e.1.1 e.2 else none

/-- The words that one thread takes from a near-cache line. -/
def hitWords (q : GCtx) (cp : LineCopy) (a : Acc) : Nat × List W32 :=
  (a.t, loadWords (memSize q.x) ((cp.data.drop (a.a % 128)).take (sizeBytes (memSize q.x))))

/-- The words that one thread takes from the bench. -/
def benchWords (d : Data) (q : GCtx) (e : Nat × Nat) : Nat × List W32 :=
  (e.1, loadWords (memSize q.x) ((List.range (sizeBytes (memSize q.x))).map fun i => d.rdB (e.2 + i)))

/-- What a load writes at once: the bench's words, then those of the near cache. -/
def loadWrites (d : Data) (q : GCtx) (l : List Acc) : List (Nat × List W32) :=
  (benchAcc l).map (benchWords d q) ++
    (linesOf l).zipIdx.flatMap fun e => (loadHit d q e).toList.flatMap fun cp => (inLine l e.1.1).map (hitWords q cp)

/-- The lines of a load that the near cache does not serve. -/
def loadMisses (d : Data) (q : GCtx) (l : List Acc) : List (Nat × Target) :=
  ((linesOf l).zipIdx.filter fun e => (loadHit d q e).isNone).map Prod.fst

theorem execLoad_eq {d : Data} {q : GCtx} (hf : accFault (memAcc d q) = none) :
    let l := placed d (memSpace q.x) (memAcc d q)
    execLoad d q = if d.freeEntries q.c < (loadMisses d q l).length then .hold else
      let d1 := (loadMisses d q l).foldl (fun d e => d.addReq 0x120 q e.1 e.2
        (.load (roLine q.x e.2) (memCache q.x == 2) (memSize q.x) (Issue.dest q.x) (memDu q.x))
        ((inLine l e.1).map fun a => { t := a.t, off := a.a % 128, opnd := 0, cmp := 0 })) (nearLost d q.c q.x (linesOf l))
      .next { d1 with free := d1.free + (linesOf l).length }
        ((loadWrites d q l).foldl (fun g w => writeWords g (memDu q.x) (Issue.dest q.x) w.1 w.2) q.g) none := by
  intro l
  have hg (L : List ((Nat × Target) × Nat)) (g : Group) : L.foldl (fun g e => match loadHit d q e with
        | some cp => (inLine l e.1.1).foldl (fun g a => writeWords g (memDu q.x) (Issue.dest q.x) a.t
            (loadWords (memSize q.x) ((cp.data.drop (a.a % 128)).take (sizeBytes (memSize q.x))))) g
        | none => g) g =
      (L.flatMap fun e => (loadHit d q e).toList.flatMap fun cp => (inLine l e.1.1).map (hitWords q cp)).foldl
        (fun g w => writeWords g (memDu q.x) (Issue.dest q.x) w.1 w.2) g := by
    induction L generalizing g with
    | nil => rfl
    | cons e L ih =>
      rw [List.foldl_cons, ih, List.flatMap_cons, List.foldl_append]
      congr 1
      cases loadHit d q e with
      | none => rfl
      | some cp => simp [List.foldl_map, hitWords]
  rw [loadWrites, List.foldl_append, ← hg, List.foldl_map, loadMisses, List.length_map, List.foldl_map,
    ← List.length_zipIdx (l := linesOf l) (i := 0)]
  unfold execLoad
  dsimp only
  split
  next c m a h => exact absurd (h.symm.trans hf) (by simp)
  next => rfl

theorem nodup_eraseDups {α : Type} [BEq α] [LawfulBEq α] (l : List α) : l.eraseDups.Nodup := by
  induction h : l.length using Nat.strong_induction_on generalizing l with
  | _ n ih =>
    cases l with
    | nil => simp
    | cons a l =>
      rw [List.eraseDups_cons, List.nodup_cons, List.mem_eraseDups, List.mem_filter]
      refine ⟨fun hc => by simp at hc, ih _ ?_ _ rfl⟩
      have := List.length_filter_le (fun b => !b == a) l
      simp only [List.length_cons] at h
      omega

/-- The parts of a list without repetition that a test of its numbered entries makes. -/
theorem map_fst_filter_eq {α : Type} [BEq α] [LawfulBEq α] {Z : List (α × Nat)} (h : (Z.map Prod.fst).Nodup)
    (p : α × Nat → Bool) : (Z.filter fun e => !p e).map Prod.fst =
      (Z.map Prod.fst).filter fun a => !((Z.filter p).map Prod.fst).contains a := by
  rw [List.filter_map]
  congr 1
  refine List.filter_congr fun e he => ?_
  simp only [Function.comp_apply]
  congr 1
  rw [Bool.eq_iff_iff, List.contains_iff_mem, List.mem_map]
  constructor
  · exact fun hp => ⟨e, List.mem_filter.2 ⟨he, hp⟩, rfl⟩
  · rintro ⟨f, hf, hfe⟩
    obtain ⟨hfz, hfp⟩ := List.mem_filter.1 hf
    rwa [← List.inj_on_of_nodup_map h hfz he hfe]

/-- The lines of a load that the near cache serves. -/
def loadHits (d : Data) (q : GCtx) (l : List Acc) : List (Nat × Target) :=
  ((linesOf l).zipIdx.filter fun e => (loadHit d q e).isSome).map Prod.fst

theorem loadMisses_eq (d : Data) (q : GCtx) (l : List Acc) :
    loadMisses d q l = (linesOf l).filter fun e => !(loadHits d q l).contains e := by
  have h := map_fst_filter_eq (Z := (linesOf l).zipIdx) (by rw [List.zipIdx_map_fst]; exact nodup_eraseDups _)
    fun e => (loadHit d q e).isSome
  rw [List.zipIdx_map_fst] at h
  rw [loadHits, ← h, loadMisses]
  simp only [Option.not_isSome]

theorem loadHit_some {d : Data} {q : GCtx} {e : (Nat × Target) × Nat} {cp : LineCopy} (h : loadHit d q e = some cp) :
    roLine q.x e.1.2 = true ∧ q.x.nearParity = false ∧ mget (d.core q.c).near (e.1.1 / 128) = some cp := by
  unfold loadHit at h
  split_ifs at h with hc
  unfold nearHit at h
  split_ifs at h
  simp only [Bool.and_eq_true, Bool.not_eq_true'] at hc
  exact ⟨hc.1, hc.2, h⟩

theorem mem_loadHits {d : Data} {q : GCtx} {l : List Acc} {h : Nat × Target} (hm : h ∈ loadHits d q l) :
    ∃ i cp, (h, i) ∈ (linesOf l).zipIdx ∧ loadHit d q (h, i) = some cp := by
  obtain ⟨⟨e, i⟩, he, rfl⟩ := List.mem_map.1 hm
  obtain ⟨hz, hs⟩ := List.mem_filter.1 he
  obtain ⟨cp, hcp⟩ := Option.isSome_iff_exists.1 hs
  exact ⟨i, cp, hz, hcp⟩

theorem roLine_cache {x : Issue} {t : Target} (h : roLine x t = true) : memCache x = 1 := by
  simp only [roLine, Bool.and_eq_true, beq_iff_eq] at h
  exact h.1

/-- What a load writes at once: each entry is of an access to the bench, or of one to a line that the near cache holds. -/
theorem mem_loadWrites {d : Data} {q : GCtx} {l : List Acc} {w : Nat × List W32} (h : w ∈ loadWrites d q l) :
    (∃ e ∈ benchAcc l, w = benchWords d q e) ∨
      ∃ k cp a, mget (d.core q.c).near (k / 128) = some cp ∧ a ∈ inLine l k ∧ w = hitWords q cp a := by
  simp only [loadWrites, List.mem_append, List.mem_map, List.mem_flatMap, Option.mem_toList] at h
  rcases h with ⟨e, he, rfl⟩ | ⟨e, -, cp, hcp, a, ha, rfl⟩
  · exact Or.inl ⟨e, he, rfl⟩
  · exact Or.inr ⟨e.1.1, cp, a, (loadHit_some hcp).2.2, ha, rfl⟩

/-- The writes of a load agree where they are of one thread, or of one u register. -/
theorem loadWrites_agree {d : Data} {q : GCtx} {l : List Acc} {one : Bool} (hl : ByThread q.on one l) {w w' : Nat × List W32}
    (hw : w ∈ loadWrites d q l) (hw' : w' ∈ loadWrites d q l) (h : one = true ∨ w.1 = w'.1) : w = w' := by
  have same {a b : Acc} (ha : a ∈ l) (hb : b ∈ l) (h : one = true ∨ a.t = b.t) : a = b := by
    rcases h with rfl | h
    · exact hl.eq_of_one ha hb
    · exact hl.eq_of_thread ha hb h
  rcases mem_loadWrites hw with ⟨e, he, rfl⟩ | ⟨k, cp, a, hk, ha, rfl⟩ <;>
    rcases mem_loadWrites hw' with ⟨e', he', rfl⟩ | ⟨k', cp', a', hk', ha', rfl⟩
  · obtain ⟨b, hb, hbt, hbp⟩ := mem_benchAcc.1 he
    obtain ⟨b', hb', hbt', hbp'⟩ := mem_benchAcc.1 he'
    obtain rfl := same hb hb' (h.imp_right fun h => hbt.trans (h.trans hbt'.symm))
    have hp : e.2 = e'.2 := by simpa [hbp] using hbp'
    rw [show e = e' from Prod.ext (hbt.symm.trans hbt') hp]
  · obtain ⟨b, hb, hbt, hbp⟩ := mem_benchAcc.1 he
    obtain ⟨ha', tgt, hline⟩ := mem_inLine.1 ha'
    obtain rfl := same hb ha' (h.imp_right fun h => hbt.trans h)
    rw [lineOf_bench hbp] at hline
    cases hline
  · obtain ⟨b, hb, hbt, hbp⟩ := mem_benchAcc.1 he'
    obtain ⟨ha, tgt, hline⟩ := mem_inLine.1 ha
    obtain rfl := same ha hb (h.imp_right fun h => h.trans hbt.symm)
    rw [lineOf_bench hbp] at hline
    cases hline
  · obtain ⟨ha, tgt, hline⟩ := mem_inLine.1 ha
    obtain ⟨ha', tgt', hline'⟩ := mem_inLine.1 ha'
    obtain rfl := same ha ha' h
    rw [hline] at hline'
    cases hline'
    rw [hk] at hk'
    cases hk'
    rfl

/-- A load's write stands in its registers at the end. -/
theorem holds_loadWrites {d : Data} {q : GCtx} {l : List Acc} {du : Bool} (hl : ByThread q.on du l) {w : Nat × List W32}
    (hw : w ∈ loadWrites d q l) (n : Nat) :
    ((loadWrites d q l).foldl (fun g w => writeWords g du n w.1 w.2) q.g).Holds du n w.1 w.2 := by
  refine holds_foldl q.g hw (fun v hv => ?_) fun v hv h => loadWrites_agree hl hv hw h
  rcases mem_loadWrites hv with ⟨e, he, rfl⟩ | ⟨k, cp, a, -, ha, rfl⟩
  · obtain ⟨b, hb, hbt, -⟩ := mem_benchAcc.1 he
    exact hbt ▸ hl.lt hb
  · exact hl.lt (mem_inLine.1 ha).1

theorem loadWords_length (z : Nat) (l : List Byte) : (loadWords z l).length = sizeRegs z := by
  unfold loadWords
  dsimp only
  split
  · rfl
  · rfl
  · simp

@[simp] theorem atIssue_bench (s : State) (q : GCtx) : (atIssue s q).bench = s.body.data.bench := by
  have h := congrArg Data.bench (atIssue_rest s q); exact h

@[simp] theorem atIssue_benchEpoch (s : State) (q : GCtx) : (atIssue s q).benchEpoch = s.body.data.benchEpoch := by
  have h := congrArg Data.benchEpoch (atIssue_rest s q); exact h

@[simp] theorem atIssue_rdB (s : State) (q : GCtx) (a : Nat) : (atIssue s q).rdB a = s.body.data.rdB a := by
  simp [Data.rdB]

theorem ByThread.memAcc (d : Data) (q : GCtx) : ByThread q.on (memDu q.x) (memAcc d q) := .accesses _ _ _ _ _ _

/-- The number of free values that requests take with their instruction. -/
theorem Enters.free_add {d d' : Data} {new : List LineReq} (h : Enters d d' new 0) (n : Nat) :
    Enters d { d' with free := d'.free + n } new n := by
  obtain ⟨hr, hi, hf, hrest⟩ := h
  exact ⟨hr, hi, by rw [← Nat.add_zero d.free, ← hf], hrest⟩

/-- Settles O8: the requests of the lines that miss, in their order, and the words of the bench and of the lines that hit, each
in its own thread's registers. -/
theorem loads : Obligations.Loads := by
  intro s x q h d l n hf hroom
  obtain rfl := h.word_eq
  have hl : ByThread q.on (memDu q.x) l := (ByThread.memAcc d q).placed d _
  have hm := loadMisses_eq d q l
  obtain ⟨new, henter, hbench, hnew, hall⟩ := enters_addReqs (nearLost d q.c q.x (linesOf l)) 0x120 q (loadMisses d q l)
    (fun e => .load (roLine q.x e.2) (memCache q.x == 2) (memSize q.x) (Issue.dest q.x) (memDu q.x))
    fun e => (inLine l e.1).map fun a => { t := a.t, off := a.a % 128, opnd := 0, cmp := 0 }
  have hless : ¬d.freeEntries q.c < (loadMisses d q l).length :=
    Nat.not_lt.2 ((hm ▸ List.length_filter_le _ _ : (loadMisses d q l).length ≤ _).trans hroom)
  refine ⟨_, _, new, loadHits d q l, exec_next rfl h ((execLoad_eq hf).trans (if_neg hless)), henter.free_add _,
    hbench.trans (nearLost_bench _ _ _ _), fun hp => ?_, fun hp => ⟨?_, fun e he hr => nearLost_near hp d q.c he hr⟩,
    foldl_writeWords_rest _ _ _ _, hnew.trans hm, fun r hr => ?_, fun e he i hi hn => ?_, fun hh hmem _ => ?_⟩
  case refine_1 => rw [nearLost_eq, hp]; rfl
  case refine_2 =>
    refine List.eq_nil_iff_forall_not_mem.2 fun e he => ?_
    obtain ⟨i, cp, -, hcp⟩ := mem_loadHits he
    rw [(loadHit_some hcp).2.1] at hp
    cases hp
  case refine_3 =>
    obtain ⟨hc, hs, ha, hi, hp, hst, hac, hop, hlanes⟩ := hall r hr
    exact ⟨⟨⟨hc, hs, ha, hi, hp⟩, ⟨hst, hac⟩, hlanes⟩, _, hop, roLine_cache⟩
  case refine_4 =>
    have hw : benchWords d q e ∈ loadWrites d q l := List.mem_append_left _ (List.mem_map_of_mem he)
    have := holds_loadWrites hl hw (Issue.dest q.x) i (by rw [benchWords, loadWords_length]; exact hi) hn
    simpa [benchWords, d, n] using this
  case refine_5 =>
    obtain ⟨i, cp, hz, hcp⟩ := mem_loadHits hmem
    obtain ⟨hro, -, hnear⟩ := loadHit_some hcp
    refine ⟨roLine_cache hro, cp, (atIssue_near s q q.c) ▸ hnear, fun a ha j hj hn => ?_⟩
    have hw : hitWords q cp a ∈ loadWrites d q l := by
      simp only [loadWrites, List.mem_append, List.mem_flatMap, Option.mem_toList]
      exact Or.inr ⟨_, hz, cp, hcp, List.mem_map_of_mem ha⟩
    exact holds_loadWrites hl hw (Issue.dest q.x) j (by rw [hitWords, loadWords_length]; exact hj) hn

/-! ### Stores -/

section Writes
variable {σ ρ ι : Type} {read : σ → Nat → ρ} {write : σ → ι → σ} {pos : ι → Nat} {n : Nat}

/-- Writes of `n` places each leave what lies outside all of them. -/
theorem foldl_read_outside (hout : ∀ s e k, k < pos e ∨ pos e + n ≤ k → read (write s e) k = read s k) {L : List ι} {k : Nat}
    (h : ∀ e ∈ L, k < pos e ∨ pos e + n ≤ k) (s : σ) : read (L.foldl write s) k = read s k :=
  List.foldlRecOn (motive := fun s' => read s' k = read s k) L write rfl fun s' hs' e he => (hout s' e k (h e he)).trans hs'

/-- Of writes in the order of their keys, the last that covers a place tells what it holds. -/
theorem foldl_read_last (hout : ∀ s e k, k < pos e ∨ pos e + n ≤ k → read (write s e) k = read s k) {key : ι → Nat} {L : List ι}
    (hL : L.Pairwise fun e f => key e < key f) {e : ι} (he : e ∈ L) {k : Nat}
    (h : ∀ f ∈ L, key e < key f → k < pos f ∨ pos f + n ≤ k) (s : σ) :
    ∃ s', read (L.foldl write s) k = read (write s' e) k := by
  obtain ⟨L1, L2, rfl⟩ := List.append_of_mem he
  obtain ⟨-, hL2, -⟩ := List.pairwise_append.1 hL
  refine ⟨L1.foldl write s, ?_⟩
  rw [List.foldl_append, List.foldl_cons]
  refine foldl_read_outside hout (fun f hf => ?_) _
  exact h f (List.mem_append_right _ (List.mem_cons_of_mem _ hf)) ((List.pairwise_cons.1 hL2).1 f hf)

end Writes

/-- A bench byte that was written. -/
theorem rdB_wrBs_inside (l : List Byte) (d : Data) (a : Nat) {i : Nat} (hi : i < l.length) :
    some ((d.wrBs a l).rdB (a + i)) = l[i]? := by
  induction l generalizing d a i with
  | nil => exact absurd hi (Nat.not_lt_zero i)
  | cons b l ih =>
    rw [Data.wrBs]
    cases i with
    | zero => rw [rdB_wrBs_outside _ _ _ _ (by omega)]; simp
    | succ i =>
      have h := ih (d.wrB a b) (a + 1) (Nat.lt_of_succ_lt_succ hi)
      rwa [Nat.add_assoc, Nat.add_comm 1 i] at h

theorem mget_putBytes_outside (l : List Byte) (m : SMap Byte) (off k : Nat) (h : k < off ∨ off + l.length ≤ k) :
    mget (putBytes m off l) k = mget m k := by
  induction l generalizing m off with
  | nil => rfl
  | cons b l ih =>
    simp only [List.length_cons] at h
    rw [putBytes, ih _ _ (by omega), mget_mput_ne _ _ _ _ (by omega)]

theorem mget_putBytes_inside (l : List Byte) (m : SMap Byte) (off : Nat) {i : Nat} (hi : i < l.length) :
    mget (putBytes m off l) (off + i) = l[i]? := by
  induction l generalizing m off i with
  | nil => exact absurd hi (Nat.not_lt_zero i)
  | cons b l ih =>
    rw [putBytes]
    cases i with
    | zero => rw [mget_putBytes_outside _ _ _ _ (by omega)]; simp
    | succ i =>
      have h := ih (mput m off b) (off + 1) (Nat.lt_of_succ_lt_succ hi)
      rwa [Nat.add_assoc, Nat.add_comm 1 i] at h

theorem natLe_length (n x : Nat) : (natLe n x).length = n := by
  induction n generalizing x with
  | zero => rfl
  | succ n ih => simp [natLe, ih]

theorem storeBytes_length (g : Group) (du : Bool) (n z t : Nat) : (storeBytes g du n z t).length = sizeBytes z := natLe_length _ _

/-- Bench bytes written leave what is not of the bench. -/
theorem wrBs_rest (l : List Byte) (d : Data) (a : Nat) : { d.wrBs a l with bench := d.bench } = d := by
  induction l generalizing d a with
  | nil => rfl
  | cons b l ih =>
    have h := congrArg (fun k : Data => { k with bench := d.bench }) (ih (d.wrB a b) (a + 1))
    exact h

/-- The bytes of a store that a thread puts into its line. -/
def storeMask (q : GCtx) (l : List Acc) (line : Nat) : SMap Byte :=
  (inLine l line).foldl (fun m a => putBytes m (a.a % 128) (storeBytes q.g (memDu q.x) (Issue.dest q.x) (memSize q.x) a.t)) []

/-- The bench after a store. -/
def storeBench (d : Data) (q : GCtx) (l : List Acc) : Data :=
  (benchAcc l).foldl (fun d e => d.wrBs e.2 (storeBytes q.g (memDu q.x) (Issue.dest q.x) (memSize q.x) e.1)) d

theorem execStore_eq {d : Data} {q : GCtx} (hf : accFault (storeAcc d q) = none) :
    let l := placed d (memSpace q.x) (storeAcc d q)
    execStore d q = if d.freeEntries q.c < (linesOf l).length then .hold else
      .next ((linesOf l).foldl (fun d e => d.addReq 0x140 q e.1 e.2 (.store (storeMask q l e.1))
        ((inLine l e.1).map fun a => { t := a.t, off := a.a % 128, opnd := 0, cmp := 0 })) (storeBench d q l)) q.g none := by
  intro l
  unfold execStore
  dsimp only
  split
  next c m a h => exact absurd (h.symm.trans hf) (by simp)
  next => rfl

theorem ByThread.storeAcc (d : Data) (q : GCtx) : ByThread q.on (memDu q.x) (storeAcc d q) :=
  (ByThread.memAcc d q).map fun a => by split <;> rfl

theorem storeBench_rest (d : Data) (q : GCtx) (l : List Acc) : { storeBench d q l with bench := d.bench } = d := by
  refine List.foldlRecOn (motive := fun k : Data => { k with bench := d.bench } = d) _ _ rfl fun k hk e _ => ?_
  have h := congrArg (fun k : Data => { k with bench := d.bench })
    (wrBs_rest (storeBytes q.g (memDu q.x) (Issue.dest q.x) (memSize q.x) e.1) k e.2)
  exact h.trans hk

/-- What enters behind a change of the bench enters. -/
theorem Enters.of_bench {d d1 d' : Data} {new : List LineReq} {n : Nat} (h : Enters d1 d' new n)
    (hb : { d1 with bench := d.bench } = d) : Enters d d' new n := by
  obtain ⟨hr, hi, hf, hrest⟩ := h
  have hreqs : d1.reqs = d.reqs := by have h := congrArg Data.reqs hb; exact h
  have hid : d1.nextId = d.nextId := by have h := congrArg Data.nextId hb; exact h
  have hfree : d1.free = d.free := by have h := congrArg Data.free hb; exact h
  have hall := (congrArg (fun k : Data => { k with bench := d.bench }) hrest).trans hb
  rw [hreqs] at hr hall
  rw [hid] at hi hall
  rw [hfree] at hf hall
  exact ⟨hr, hi, hf, hall⟩

/-- Reads of the bench where both the bytes and what is not listed agree. -/
theorem rdB_congr {d d' : Data} (hb : d'.bench = d.bench) (he : d'.benchEpoch = d.benchEpoch) (a : Nat) : d'.rdB a = d.rdB a := by
  rw [Data.rdB, Data.rdB, hb, he]

theorem Enters.benchEpoch {d d' : Data} {new : List LineReq} {n : Nat} (h : Enters d d' new n) :
    d'.benchEpoch = d.benchEpoch := by
  have := congrArg Data.benchEpoch h.2.2.2; exact this

/-- Settles O9: the bench's bytes in the order of the threads, and one request for each line with its masked bytes. -/
theorem stores : Obligations.Stores := by
  intro s x q h d l n val hf hroom
  obtain rfl := h.word_eq
  have hl : ByThread q.on (memDu q.x) l := (ByThread.storeAcc d q).placed d _
  obtain ⟨new, henter, hbench, hnew, hall⟩ := enters_addReqs (storeBench d q l) 0x140 q (linesOf l)
    (fun e => .store (storeMask q l e.1)) fun e => (inLine l e.1).map fun a => { t := a.t, off := a.a % 128, opnd := 0, cmp := 0 }
  have hread (k : Nat) : Data.rdB _ k = (storeBench d q l).rdB k := rdB_congr hbench henter.benchEpoch k
  have houtB (d : Data) (e : Nat × Nat) (k : Nat) (hk : k < e.2 ∨ e.2 + n ≤ k) : (d.wrBs e.2 (val e.1)).rdB k = d.rdB k :=
    rdB_wrBs_outside _ _ _ _ (by rwa [storeBytes_length])
  have houtM (m : SMap Byte) (a : Acc) (k : Nat) (hk : k < a.a % 128 ∨ a.a % 128 + n ≤ k) :
      mget (putBytes m (a.a % 128) (val a.t)) k = mget m k := mget_putBytes_outside _ _ _ _ (by rwa [storeBytes_length])
  refine ⟨_, new, exec_next rfl h ((execStore_eq hf).trans (if_neg (Nat.not_lt.2 hroom))),
    henter.of_bench (storeBench_rest d q l), hnew, fun r hr => ?_, fun k hk => ?_, fun e he i hi hk => ?_⟩
  case refine_1 =>
    obtain ⟨hc, hs, ha, hi, hp, hst, hac, hop, hlanes⟩ := hall r hr
    refine ⟨⟨⟨hc, hs, ha, hi, hp⟩, ⟨hst, hac⟩, hlanes⟩, _, hop, fun k hk => ?_, fun a ha i hi hk => ?_⟩
    · exact foldl_read_outside (read := mget) (pos := fun a : Acc => a.a % 128) houtM hk []
    · obtain ⟨m, hm⟩ := foldl_read_last (read := mget) (pos := fun a : Acc => a.a % 128) houtM (hl.rising.filter _) ha hk []
      exact hm.trans (mget_putBytes_inside _ _ _ (by rwa [storeBytes_length]))
  case refine_2 =>
    rw [hread, ← atIssue_rdB s q]
    exact foldl_read_outside houtB hk d
  case refine_3 =>
    rw [hread]
    obtain ⟨d1, hd1⟩ := foldl_read_last houtB (benchAcc_rising hl) he
      (fun f hf hlt => hk f (List.mem_filter.2 ⟨hf, decide_eq_true hlt⟩)) d
    exact (congrArg some hd1).trans (rdB_wrBs_inside _ _ _ (by rwa [storeBytes_length]))

/-! ### Atomics -/

/-- A fence's conditions change nothing but requests and the counters of what is chosen freely. -/
theorem fenceTry_rest (d : Data) (q : GCtx) (sc : Nat) :
    { (fenceTry d q sc).1 with reqs := d.reqs, nextId := d.nextId, free := d.free } = d := by
  unfold fenceTry
  dsimp only
  split_ifs <;> rfl

theorem fenceTry_bench (d : Data) (q : GCtx) (sc : Nat) : (fenceTry d q sc).1.bench = d.bench := by
  have h := congrArg Data.bench (fenceTry_rest d q sc); exact h

theorem fenceTry_benchEpoch (d : Data) (q : GCtx) (sc : Nat) : (fenceTry d q sc).1.benchEpoch = d.benchEpoch := by
  have h := congrArg Data.benchEpoch (fenceTry_rest d q sc); exact h

theorem fenceTry_node (d : Data) (q : GCtx) (sc : Nat) : (fenceTry d q sc).1.node = d.node := by
  have h := congrArg Data.node (fenceTry_rest d q sc); exact h

theorem placed_fenceTry (d : Data) (q : GCtx) (sc space : Nat) (l : List Acc) :
    placed (fenceTry d q sc).1 space l = placed d space l := by
  simp only [placed, generic, fenceTry_node]

/-- Thread `t`'s operand of an atomic. -/
def atomArg (q : GCtx) (t : Nat) : W64 := atomOpnd q.g (atomType q.x) (Issue.src2 q.x) t

/-- Thread `t`'s new value of an atomic, for a compare-and-swap. -/
def atomArg2 (q : GCtx) (t : Nat) : W64 :=
  if atomAop q.x = 3 then atomOpnd q.g (atomType q.x) (Issue.src3 q.x) t else 0

/-- One bench atomic: the bench after it and the old value in the thread's destination. -/
def benchAtomStep (q : GCtx) (r : Data × Group) (e : Nat × Nat) : Data × Group :=
  let b := benchAtom r.1 e.2 (atomAop q.x) (atomType q.x) (atomArg q e.1) (atomArg2 q e.1)
  (b.1, writeWords r.2 false (Issue.dest q.x) e.1 (atomWords (atomType q.x) b.2))

theorem doAtomBody_eq (d : Data) (q : GCtx) (l : List Acc) :
    doAtomBody d q l = if d.freeEntries q.c < (linesOf l).length then .hold else
      let r := (benchAcc l).foldl (benchAtomStep q) (d, q.g)
      let d1 := (linesOf l).foldl (fun d e => d.addReq 0x160 q e.1 e.2
        (.atom (atomAop q.x) (atomType q.x) (atomScope q.x) (Issue.dest q.x))
        ((inLine l e.1).map fun a => { t := a.t, off := a.a % 128, opnd := atomArg q a.t, cmp := atomArg2 q a.t })) r.1
      .next (if 2 ≤ atomScope q.x ∧ (linesOf l).isEmpty then d1.dropNear q.c else d1) r.2 none := rfl

theorem doAtom_eq {d : Data} {q : GCtx} (hf : accFault (atomAcc d q) = none) (hok : (fenceTry d q (atomScope q.x)).2 = true) :
    doAtom d q = doAtomBody (fenceTry d q (atomScope q.x)).1 q
      (placed (fenceTry d q (atomScope q.x)).1 (atomSpace q.x) (atomAcc d q)) := by
  rw [placed_fenceTry]
  unfold doAtom
  dsimp only
  split
  next c m a h => exact absurd (h.symm.trans hf) (by simp)
  next => rw [hok]; rfl

theorem benchAtomStep_rest (q : GCtx) (r : Data × Group) (e : Nat × Nat) : { (benchAtomStep q r e).1 with bench := r.1.bench } = r.1 :=
  wrBs_rest _ _ _

theorem benchAtomStep_outside (q : GCtx) (r : Data × Group) (e : Nat × Nat) (k : Nat)
    (h : k < e.2 ∨ e.2 + atomSize (atomType q.x) ≤ k) : (benchAtomStep q r e).1.rdB k = r.1.rdB k :=
  rdB_wrBs_outside _ _ _ _ (by rwa [natLe_length])

theorem foldl_benchAtomStep_rest (q : GCtx) (L : List (Nat × Nat)) (d : Data) (g : Group) :
    { (L.foldl (benchAtomStep q) (d, g)).1 with bench := d.bench } = d ∧
      { (L.foldl (benchAtomStep q) (d, g)).2 with v := g.v } = g := by
  refine List.foldlRecOn (motive := fun r : Data × Group => { r.1 with bench := d.bench } = d ∧ { r.2 with v := g.v } = g) L _
    ⟨rfl, rfl⟩ fun r ⟨hd, hg⟩ e _ => ⟨?_, ?_⟩
  · have h := congrArg (fun k : Data => { k with bench := d.bench }) (benchAtomStep_rest q r e)
    exact h.trans hd
  · have h := congrArg (fun k : Group => { k with v := g.v })
      (writeWords_rest_v r.2 (Issue.dest q.x) e.1
        (atomWords (atomType q.x) (benchAtom r.1 e.2 (atomAop q.x) (atomType q.x) (atomArg q e.1) (atomArg2 q e.1)).2))
    exact h.trans hg

theorem ByThread.atomAcc (d : Data) (q : GCtx) : ByThread q.on false (atomAcc d q) :=
  (ByThread.accesses _ _ _ _ _ _).map fun a => by split <;> rfl

/-- The first word of an old value. -/
theorem atomWords_head (ty : Nat) (v : W64) : (atomWords ty v)[0]? = some (v.truncate 32) ∧ 0 < (atomWords ty v).length := by
  unfold atomWords
  split_ifs <;> exact ⟨rfl, Nat.succ_pos _⟩

/-- A 32-bit sum of an atomic, in a register pair's low word. -/
theorem toNat_add_low (old a : W64) :
    (((old.truncate 32 + a.truncate 32 : W32).zeroExtend 64 : W64)).toNat = (old.toNat + a.toNat) % 2 ^ 32 := by
  have hlt : (old.toNat + a.toNat) % 4294967296 < 18446744073709551616 := by omega
  simpa using hlt

/-- Settles O10: the requests of the atomic's lines, its bench atomics, and Table 11's integer functions. -/
theorem atomics : Obligations.Atomics := by
  constructor
  case left =>
    intro s x q h d l ty opnd new hf hok hroom
    obtain rfl := h.word_eq
    have hl : ByThread q.on false l := (ByThread.atomAcc (atIssue s q) q).placed d _
    obtain ⟨hrd, hrg⟩ := foldl_benchAtomStep_rest q (benchAcc l) d q.g
    obtain ⟨rs, henter, hbench, hrs, hall⟩ := enters_addReqs ((benchAcc l).foldl (benchAtomStep q) (d, q.g)).1 0x160 q (linesOf l)
      (fun _ => .atom (atomAop q.x) (atomType q.x) (atomScope q.x) (Issue.dest q.x)) fun e =>
        (inLine l e.1).map fun a => { t := a.t, off := a.a % 128, opnd := atomArg q a.t, cmp := atomArg2 q a.t }
    have hread (k : Nat) : Data.rdB _ k = ((benchAcc l).foldl (benchAtomStep q) (d, q.g)).1.rdB k :=
      rdB_congr hbench henter.benchEpoch k
    have hrd0 (k : Nat) : d.rdB k = s.body.data.rdB k := by
      rw [← atIssue_rdB s q]
      exact rdB_congr (fenceTry_bench _ _ _) (fenceTry_benchEpoch _ _ _) k
    refine ⟨_, _, rs, ?_, henter.of_bench hrd, hrg, hrs, fun r hr => ?_, fun k hk => ?_, fun t a hta => ⟨fun hn => ?_, fun i hi => ?_⟩⟩
    case refine_1 =>
      refine (exec_next rfl h ((doAtom_eq hf hok).trans ((doAtomBody_eq _ _ _).trans (if_neg (Nat.not_lt.2 hroom))))).trans ?_
      simp only [List.isEmpty_iff]
      rfl
    case refine_2 =>
      obtain ⟨hc, hs, ha, hi, hp, hst, hac, hop, hlanes⟩ := hall r hr
      exact ⟨⟨⟨hc, hs, ha, hi, hp⟩, ⟨hst, hac⟩, hlanes⟩, hop⟩
    case refine_3 =>
      rw [hread, ← hrd0]
      exact foldl_read_outside (read := fun r : Data × Group => r.1.rdB) (benchAtomStep_outside q) hk (d, q.g)
    case refine_4 =>
      have ht : t < 32 := by
        obtain ⟨b, hb, hbt, -⟩ := mem_benchAcc.1 (hta ▸ List.mem_singleton.2 rfl : (t, a) ∈ benchAcc l)
        simpa [hbt] using hl.lt hb
      obtain ⟨hhead, hlen⟩ := atomWords_head ty
        (BitVec.ofNat 64 (leNat ((List.range (atomSize ty)).map fun i => d.rdB (a + i))))
      have hw := holds_writeWords q.g false (Issue.dest q.x) (atomWords ty
        (BitVec.ofNat 64 (leNat ((List.range (atomSize ty)).map fun i => d.rdB (a + i))))) ht 0 hlen (by omega)
      rw [hhead] at hw
      simp only [hrd0] at hw
      rw [hta]
      simpa [benchAtomStep, benchAtom, hrd0, ty, duSpace] using hw
    case refine_5 =>
      rw [hread, hta]
      simp only [← hrd0]
      exact rdB_wrBs_inside _ _ _ (by rwa [natLe_length])
  case right =>
    refine ⟨fun old a b => toNat_add_low old a, fun old a b => toNat_add_low old a, fun old a b => BitVec.toNat_add old a,
      fun old a b => BitVec.toNat_add old a, fun old a b => ?_, fun old a b => ?_, fun old a b => ?_, fun old a b => ?_,
      fun old a b => ?_, fun old a b => ?_, fun old a b => ?_, fun old a b => ?_, fun old a b => rfl, fun old a b => rfl⟩
    · simp [atomNew, apply_ite BitVec.toNat, BitVec.lt_def]; split_ifs <;> omega
    · simp [atomNew, apply_ite BitVec.toNat, BitVec.lt_def]; split_ifs <;> omega
    · simp only [atomNew, apply_ite BitVec.toNat, BitVec.lt_def]; split_ifs <;> omega
    · simp only [atomNew, apply_ite BitVec.toNat, BitVec.lt_def]; split_ifs <;> omega
    · simp [atomNew, BitVec.slt_iff_toInt_lt]
    · simp [atomNew, BitVec.slt_iff_toInt_lt]
    · simp only [atomNew, apply_ite BitVec.toInt, BitVec.slt_iff_toInt_lt]; split_ifs <;> omega
    · simp only [atomNew, apply_ite BitVec.toInt, BitVec.slt_iff_toInt_lt]; split_ifs <;> omega

end Sys2Proof.Machine
end

section
/-! Fences, barriers, doorbells, invalidation, and issue to the array and the engines (03 R88-R92; 04 R125-R134). -/

namespace Sys2Proof.Machine

/-! ### Where an issue happens -/

/-- The group and the thread block of an issue are resident, and the group may issue. -/
theorem Ready.resident {sp : OpSpec} {s : State} {x : Issue} {q : GCtx} (h : Ready sp s x q) :
    ∃ g, s.body.data.group q.c q.s = some g ∧ q.g = { g with act := true, waitsOn := [] } ∧
      mget (s.body.data.core q.c).blocks q.g.block = some q.b ∧ canIssue s.body.data (s.body.data.core q.c) g = true := by
  have hp := h.place
  rw [h.core_eq, h.slot_eq]
  unfold issueCtx at hp
  dsimp only at hp
  simp only [Option.bind_eq_some_iff] at hp
  obtain ⟨g, hg, b, hb, hp⟩ := hp
  split_ifs at hp with hc
  cases hp
  exact ⟨g, hg, rfl, hb, hc⟩

/-- A group that may issue is running. -/
theorem Ready.running {sp : OpSpec} {s : State} {x : Issue} {q : GCtx} (h : Ready sp s x q) : q.g.st = .run := by
  obtain ⟨g, -, hq, -, hc⟩ := h.resident
  simp only [canIssue, Bool.and_eq_true, beq_iff_eq] at hc
  obtain ⟨⟨⟨⟨⟨-, hst⟩, -⟩, -⟩, -⟩, -⟩ := hc
  rw [hq]; exact hst

/-- Reconvergence changes a group's PC, active threads and stack alone. -/
theorem reconv_rest (n : Nat) (g : Group) : { reconv n g with pc := g.pc, active := g.active, stack := g.stack } = g := by
  induction n generalizing g with
  | zero => rfl
  | succ n ih =>
    rw [reconv]
    split
    · rfl
    next e es hs =>
      have keep (g' : Group) (hg : { g' with pc := g.pc, active := g.active, stack := g.stack } = g) :
          { reconv n g' with pc := g.pc, active := g.active, stack := g.stack } = g := by
        have h := congrArg (fun k : Group => { k with pc := g.pc, active := g.active, stack := g.stack }) (ih g')
        exact h.trans hg
      split_ifs
      · exact keep _ rfl
      · exact keep _ rfl
      · rfl

/-- What a group keeps when it goes on. -/
theorem advance_rest (g : Group) (pc : W64) :
    { g.advance pc with pc := g.pc, active := g.active, stack := g.stack, iseq := g.iseq } = g := by
  have h := congrArg (fun k : Group => { k with pc := g.pc, active := g.active, stack := g.stack, iseq := g.iseq })
    (reconv_rest 66 { g with pc := pc, iseq := g.iseq + 1 })
  exact h

@[simp] theorem advance_block (g : Group) (pc : W64) : (g.advance pc).block = g.block := by
  have h := congrArg Group.block (advance_rest g pc); exact h

@[simp] theorem advance_st (g : Group) (pc : W64) : (g.advance pc).st = g.st := by
  have h := congrArg Group.st (advance_rest g pc); exact h

/-- A group that goes on with threads left is put back, and its next bundle fetched. -/
theorem putGroup_of_active {d : Data} {c k : Nat} {g : Group} (h : g.active ≠ 0) :
    putGroup d c k g = (d.setGroup c k g).fetchNext c k g := if_neg h

/-- The fetch of a next instruction leaves a core as it was but for its instruction cache and fetch buffers. -/
theorem core_fetchNext (d : Data) (c s : Nat) (g : Group) (c' : Nat) : ∃ ic fb,
    (d.fetchNext c s g).core c' = { d.core c' with icache := ic, fetchBuf := fb } := by
  obtain ⟨ic, fb, h⟩ := core_fetch1 d c s (groupPlot (d.core c) g) (g.pc.toNat / 64) c'
  by_cases hc : c = c'
  · subst hc
    exact ⟨_, _, (core_setCore_self _ _ _).trans (by rw [h])⟩
  · exact ⟨_, _, (core_setCore_ne _ _ hc).trans h⟩

@[simp] theorem fetchNext_groups (d : Data) (c s : Nat) (g : Group) (c' : Nat) :
    ((d.fetchNext c s g).core c').groups = (d.core c').groups := by
  obtain ⟨ic, fb, h⟩ := core_fetchNext d c s g c'; rw [h]

@[simp] theorem fetchNext_blocks (d : Data) (c s : Nat) (g : Group) (c' : Nat) :
    ((d.fetchNext c s g).core c').blocks = (d.core c').blocks := by
  obtain ⟨ic, fb, h⟩ := core_fetchNext d c s g c'; rw [h]

@[simp] theorem atIssue_group (s : State) (q : GCtx) (c k : Nat) : (atIssue s q).group c k = s.body.data.group c k := by
  simp [Data.group]

/-! ### Fences -/

theorem fenceTry_core (d : Data) (q : GCtx) :
    fenceTry d q 1 = (d, fenceCore (d.reqsOf q.c q.s q.g) (d.core q.c) q.s q.g) := by
  unfold fenceTry
  dsimp only
  cases fenceCore (d.reqsOf q.c q.s q.g) (d.core q.c) q.s q.g <;> rfl

/-- The conditions at core scope. -/
theorem fenceCore_iff (rs : List LineReq) (k : Core) (s : Nat) (g : Group) : fenceCore rs k s g = true ↔
    (∀ r ∈ rs, (∃ m, r.op = .store m) ∨ ∃ c n, r.op = .desc c n) ∧ arrOf k s g = [] := by
  simp only [fenceCore, Bool.and_eq_true, List.all_eq_true, List.isEmpty_iff]
  refine and_congr_left fun _ => forall₂_congr fun r _ => ?_
  cases r.op <;> simp

/-- A fence at system scope that waits has the group's posted writes confirmed. -/
theorem fenceTry_sys_wait {d : Data} {q : GCtx} (h : (fenceTry d q 4).2 = false)
    (hc : fenceCore (d.reqsOf q.c q.s q.g) (d.core q.c) q.s q.g = true) : (fenceTry d q 4).1 = d.confirm q.c q.s q.g := by
  unfold fenceTry at h ⊢
  simp only [hc] at h ⊢
  by_cases hp : (fencePkg (d.reqsOf q.c q.s q.g) && fenceSys (d.reqsOf q.c q.s q.g)) = true
  · simp [hp] at h
  · simp [hp]

@[simp] theorem atIssue_fenceCore (s : State) (q : GCtx) (rs : List LineReq) (c k : Nat) (g : Group) :
    fenceCore rs ((atIssue s q).core c) k g = fenceCore rs (s.body.data.core c) k g := by simp [fenceCore]

/-- Settles O11: the fence's effect is the case of its scope's conditions. -/
theorem fences : Obligations.Fences := by
  intro s x q h d
  obtain rfl := h.word_eq
  have he : specFence.exec (atIssue s q) q = if d.2 then .next (acquire d.1 q.c (Issue.b q.x 17 8)) q.g none else .wait d.1 q.g := rfl
  refine ⟨fun hok => exec_next rfl h (he.trans (if_pos hok)), fun hno => exec_wait rfl h (he.trans (if_neg (by simp [hno]))),
    fun hsc => ?_, fun hsc hno hcore => ?_⟩
  · rw [show d = fenceTry (atIssue s q) q 1 from congrArg (fenceTry (atIssue s q) q) hsc, fenceTry_core]
    simpa using fenceCore_iff _ _ _ _
  · have hd : d = fenceTry (atIssue s q) q 4 := congrArg (fenceTry (atIssue s q) q) hsc
    have hc : d.1 = (atIssue s q).confirm q.c q.s q.g := by
      rw [hd] at hno ⊢
      exact fenceTry_sys_wait hno (by simpa using hcore)
    exact ⟨hc, hc ▸ confirm_posted _ _ _ _⟩

/-! ### Barriers -/

/-- Putting an entry in the place of one that a test does not tell from it leaves the count. -/
theorem mcount_mput_same {α : Type} {m : SMap α} (hm : Rising m) {k : Nat} {a b : α} (hk : mget m k = some a) {p : Nat → α → Bool}
    (hp : p k b = p k a) : mcount (mput m k b) p = mcount m p := by
  induction m with
  | nil => simp at hk
  | cons e m ih =>
    obtain ⟨j, y⟩ := e
    obtain ⟨hj, hm⟩ := List.pairwise_cons.1 hm
    have hlt : ¬k < j := fun hlt => by
      rw [mget, if_neg (by omega)] at hk
      have := hj k (List.mem_map.2 ⟨_, mget_mem hk, rfl⟩)
      exact absurd this (by omega)
    rw [mput, if_neg hlt]
    by_cases hjk : j = k
    · subst hjk
      rw [mget, if_pos rfl] at hk
      cases hk
      simp only [mcount, mfilter, if_pos, List.filter_cons, hp]
      split_ifs <;> rfl
    · rw [mget, if_neg hjk] at hk
      have hih := ih hm hk
      simp only [mcount, mfilter] at hih ⊢
      rw [if_neg hjk, List.filter_cons, List.filter_cons]
      split_ifs <;> simp [hih]

/-- The groups of a thread block once a group of it has been put in its own place. -/
theorem liveGroups_setGroup {d : Data} {c k : Nat} {g g' : Group} (hr : Rising (d.core c).groups) (hg : d.group c k = some g)
    (hb : g'.block = g.block) (bs : Nat) : (d.setGroup c k g').liveGroups c bs = d.liveGroups c bs := by
  rw [Data.liveGroups, core_setGroup_self]
  exact mcount_mput_same hr hg (by rw [hb])

/-- A barrier of a thread block. -/
def Data.bar (d : Data) (c bs b : Nat) : Option NamedBarrier := (mget (d.core c).blocks bs).bind fun k => mget k.bars b

theorem bar_arrive {d : Data} {c bs : Nat} {k : Block} (hk : mget (d.core c).blocks bs = some k) (b n : Nat) :
    (d.arrive c bs b n).bar c bs b = some { arrived := (mgetD k.bars b { arrived := 0, need := 0 }).arrived + 1, need := n } := by
  simp [Data.arrive, Data.bar, mget_mmod, hk]

theorem arrive_group (d : Data) (c bs b n c' k : Nat) : (d.arrive c bs b n).group c' k = d.group c' k := by
  by_cases hc : c = c'
  · subst hc; simp [Data.arrive, Data.group]
  · simp [Data.arrive, Data.group, core_setCore_ne _ _ hc]

theorem arrive_liveGroups (d : Data) (c bs b n bs' : Nat) : (d.arrive c bs b n).liveGroups c bs' = d.liveGroups c bs' := by
  simp [Data.arrive, Data.liveGroups]

/-- The arrivals that a barrier needs. -/
def Data.barNeed (d : Data) (c bs : Nat) (n : NamedBarrier) : Nat := if n.need = 0 then d.liveGroups c bs else n.need

theorem releaseBar_waits {d : Data} {c bs b : Nat} {n : NamedBarrier} (hn : d.bar c bs b = some n) (h : n.arrived < d.barNeed c bs n) :
    d.releaseBar c bs b = d := by
  rw [Data.bar] at hn
  unfold Data.releaseBar
  rw [hn]
  exact if_neg fun hc => absurd hc.2 (Nat.not_le.2 h)

/-- The core after the release of a barrier. -/
theorem core_releaseBar {d : Data} {c bs b : Nat} {n : NamedBarrier} (hn : d.bar c bs b = some n) (h0 : 0 < n.arrived)
    (h : d.barNeed c bs n ≤ n.arrived) : (d.releaseBar c bs b).core c = { d.core c with
      blocks := mmod (d.core c).blocks bs fun q => { q with bars := mdel q.bars b }
      groups := mmap (d.core c).groups fun _ g =>
        if g.block = bs ∧ g.st = .barSync b then { g with st := .run }.advance (g.pc + 8) else g } := by
  rw [Data.bar] at hn
  unfold Data.releaseBar
  rw [hn]
  exact (congrArg (fun d : Data => d.core c) (if_pos ⟨h0, h⟩)).trans (core_setCore_self _ _ _)

theorem group_releaseBar {d : Data} {c bs b : Nat} {n : NamedBarrier} (hn : d.bar c bs b = some n) (h0 : 0 < n.arrived)
    (h : d.barNeed c bs n ≤ n.arrived) (k : Nat) : (d.releaseBar c bs b).group c k = (d.group c k).map fun g =>
      if g.block = bs ∧ g.st = .barSync b then { g with st := .run }.advance (g.pc + 8) else g := by
  rw [Data.group, core_releaseBar hn h0 h, mget_mmap]
  rfl

theorem bar_releaseBar {d : Data} {c bs b : Nat} {n : NamedBarrier} (hn : d.bar c bs b = some n) (h0 : 0 < n.arrived)
    (h : d.barNeed c bs n ≤ n.arrived) : (d.releaseBar c bs b).bar c bs b = none := by
  rw [Data.bar, core_releaseBar hn h0 h, mget_mmod, if_pos rfl]
  cases mget (d.core c).blocks bs <;> simp

/-- A counter after an addition to it. -/
theorem counterVal_counterAdd_self (d : Data) (pkg : Bool) (die k : Nat) (n : W32) :
    (d.counterAdd pkg die k n).counterVal pkg die k = d.counterVal pkg die k + n := by
  cases pkg <;> simp [Data.counterAdd, Data.counterVal]

theorem counterVal_counterAdd_ne (d : Data) {pkg p : Bool} {die k e j : Nat} (n : W32)
    (h : (p, (if p then 0 else e), j) ≠ (pkg, (if pkg then 0 else die), k)) (hj : j < 1024) (hk : k < 1024) :
    (d.counterAdd pkg die k n).counterVal p e j = d.counterVal p e j := by
  cases pkg <;> cases p
  · have hne : 1024 * die + k ≠ 1024 * e + j := fun hc => h (by
      rw [show e = die by omega, show j = k by omega])
    exact mgetD_cput_ne _ _ _ _ _ _ hne
  · rfl
  · rfl
  · have hne : k ≠ j := fun hc => h (by rw [hc]; rfl)
    exact mgetD_cput_ne _ _ _ _ _ _ hne

theorem counterVal_congr {d d' : Data} (hp : d'.pkgBar = d.pkgBar) (hd : d'.dieBar = d.dieBar) (pkg : Bool) (die k : Nat) :
    d'.counterVal pkg die k = d.counterVal pkg die k := by
  rw [Data.counterVal, Data.counterVal, hp, hd]

theorem fenceTry_counterVal (d : Data) (q : GCtx) (sc : Nat) (pkg : Bool) (die k : Nat) :
    (fenceTry d q sc).1.counterVal pkg die k = d.counterVal pkg die k :=
  counterVal_congr (by have h := congrArg Data.pkgBar (fenceTry_rest d q sc); exact h)
    (by have h := congrArg Data.dieBar (fenceTry_rest d q sc); exact h) _ _ _

@[simp] theorem atIssue_counterVal (s : State) (q : GCtx) (pkg : Bool) (die k : Nat) :
    (atIssue s q).counterVal pkg die k = s.body.data.counterVal pkg die k :=
  counterVal_congr (by have h := congrArg Data.pkgBar (atIssue_rest s q); exact h)
    (by have h := congrArg Data.dieBar (atIssue_rest s q); exact h) _ _ _

theorem atIssue_liveGroups (s : State) (q : GCtx) (c bs : Nat) : (atIssue s q).liveGroups c bs = s.body.data.liveGroups c bs := by
  simp [Data.liveGroups]

/-- An arrival at a named barrier of its group's thread block, by whether it reaches the count. -/
theorem arrival {d : Data} {c k bs n0 : Nat} {g : Group} {bl : Block} (hg : d.group c k = some g)
    (hb : mget (d.core c).blocks bs = some bl) (hl : d.liveGroups c bs = n0) (b need : Nat) :
    let t := (d.arrive c bs b need).releaseBar c bs b
    let n := (mgetD bl.bars b { arrived := 0, need := 0 }).arrived + 1
    (n < (if need = 0 then n0 else need) → t.group c k = some g ∧ t.bar c bs b = some { arrived := n, need := need }) ∧
      ((if need = 0 then n0 else need) ≤ n → t.bar c bs b = none ∧ t.group c k = some
        (if g.block = bs ∧ g.st = .barSync b then { g with st := .run }.advance (g.pc + 8) else g)) := by
  intro t n
  have hbar : (d.arrive c bs b need).bar c bs b = some { arrived := n, need := need } := bar_arrive hb _ _
  have hneed : (d.arrive c bs b need).barNeed c bs { arrived := n, need := need } = if need = 0 then n0 else need := by
    rw [Data.barNeed, arrive_liveGroups, hl]
  have hgrp : (d.arrive c bs b need).group c k = some g := (arrive_group _ _ _ _ _ _ _).trans hg
  refine ⟨fun hlt => ?_, fun hge => ?_⟩
  · have ht : t = d.arrive c bs b need := releaseBar_waits hbar (hneed ▸ hlt)
    exact ht ▸ ⟨hgrp, hbar⟩
  · have hle : (d.arrive c bs b need).barNeed c bs { arrived := n, need := need } ≤ n := hneed.le.trans hge
    refine ⟨bar_releaseBar hbar (Nat.succ_pos _) hle, ?_⟩
    rw [group_releaseBar hbar (Nat.succ_pos _) hle, hgrp]
    rfl

/-- An arrival at a counter of the plot's grant, its release conditions holding. -/
theorem exec_arriveSpec {i : Instr} {s : State} {x : Issue} {q : GCtx} {pkg : Bool} {code : Nat}
    (hi : huvalOf i = some (arriveSpec code pkg, x)) (h : Ready (arriveSpec code pkg) s x q)
    (hg : (atIssue s q).barGranted q.b.plot pkg (q.g.rd 1 (Issue.src1 x) 0).toNat = true)
    (hok : (fenceTry (atIssue s q) q (if pkg then 3 else 2)).2 = true) :
    exec i s = .next (issued s ((fenceTry (atIssue s q) q (if pkg then 3 else 2)).1.counterAdd pkg (q.c / 84)
      (q.g.rd 1 (Issue.src1 x) 0).toNat (q.g.rd 1 (Issue.src2 x) 0)) q q.g (q.g.pc + 8)) := by
  obtain rfl := h.word_eq
  exact exec_next hi h ((if_neg (by simp [hg])).trans (if_pos hok))

/-- A wait for a counter of the plot's grant: done when it is met, else the group waits. -/
theorem exec_waitSpec {i : Instr} {s : State} {x : Issue} {q : GCtx} {pkg : Bool} {code : Nat}
    (hi : huvalOf i = some (waitSpec code pkg, x)) (h : Ready (waitSpec code pkg) s x q)
    (hg : (atIssue s q).barGranted q.b.plot pkg (q.g.rd 1 (Issue.src1 x) 0).toNat = true) :
    let k := (q.g.rd 1 (Issue.src1 x) 0).toNat
    let v := q.g.rd 1 (Issue.src2 x) 0
    (0 ≤ (s.body.data.counterVal pkg (q.c / 84) k - v).toInt →
      exec i s = .next (issued s ((atIssue s q).dropNear q.c) q q.g (q.g.pc + 8))) ∧
    ((s.body.data.counterVal pkg (q.c / 84) k - v).toInt < 0 →
      exec i s = .next (waiting s (atIssue s q) q { q.g with st := .counter pkg k v, act := false })) := by
  obtain rfl := h.word_eq
  refine ⟨fun hm => exec_next hi h ((if_neg (by simp [hg])).trans (if_pos ?_)),
    fun hm => exec_wait hi h ((if_neg (by simp [hg])).trans (if_neg ?_))⟩
  · simpa [counterMet] using hm
  · simpa [counterMet] using hm

/-- `bar.sync`, its release conditions holding. -/
theorem specBarSync_exec {d : Data} {q : GCtx} (hb : Issue.src1 q.x ≤ 3) (hok : (fenceTry d q 1).2 = true) :
    specBarSync.exec d q = .raw (((d.setGroup q.c q.s { q.g with st := .barSync (Issue.src1 q.x), act := false }).arrive
      q.c q.g.block (Issue.src1 q.x) (Issue.src3 q.x)).releaseBar q.c q.g.block (Issue.src1 q.x)) := by
  rw [fenceTry_core] at hok
  simp only [specBarSync, ctlSpec, if_neg (Nat.not_lt.2 hb), fenceTry_core]
  exact if_pos hok

/-- `bar.arrive`, its release conditions holding, of a group with threads left. -/
theorem specBarArrive_exec {d : Data} {q : GCtx} (hb : Issue.src1 q.x ≤ 3) (hok : (fenceTry d q 1).2 = true)
    (ha : (q.g.advance (q.g.pc + 8)).active ≠ 0) : specBarArrive.exec d q =
      .raw ((((d.setGroup q.c q.s (q.g.advance (q.g.pc + 8))).fetchNext q.c q.s (q.g.advance (q.g.pc + 8))).arrive q.c q.g.block
        (Issue.src1 q.x) (Issue.src3 q.x)).releaseBar q.c q.g.block (Issue.src1 q.x)) := by
  rw [fenceTry_core] at hok
  simp only [specBarArrive, ctlSpec, if_neg (Nat.not_lt.2 hb), fenceTry_core, ← putGroup_of_active ha]
  exact if_pos hok

/-- The data plane at a barrier's arrival: the group is resident, its thread block and the block's groups as at its issue. -/
theorem Ready.at_barrier {sp : OpSpec} {s : State} {x : Issue} {q : GCtx} (h : Ready sp s x q)
    (hr : Rising (s.body.data.core q.c).groups) {g : Group} (hb : g.block = q.g.block) :
    mget (((atIssue s q).setGroup q.c q.s g).core q.c).blocks q.g.block = some q.b ∧
      ((atIssue s q).setGroup q.c q.s g).liveGroups q.c q.g.block = s.body.data.liveGroups q.c q.g.block := by
  obtain ⟨g0, hg0, hq, hblk, -⟩ := h.resident
  refine ⟨by simpa using hblk, ?_⟩
  rw [liveGroups_setGroup (g := g0) (by simpa using hr) (by simpa using hg0) (by rw [hb, hq]), atIssue_liveGroups]

theorem barSync_result {s : State} {q : GCtx} (h : Ready specBarSync s q.x q) (hr : Rising (s.body.data.core q.c).groups)
    (hb : Issue.src1 q.x ≤ 3) (hok : (fenceTry (atIssue s q) q 1).2 = true) :
    ∃ t g, exec (.barSync q.x) s = .next t ∧ t.body.data.group q.c q.s = some g ∧
      let n := (mgetD q.b.bars (Issue.src1 q.x) { arrived := 0, need := 0 }).arrived + 1
      let need := if Issue.src3 q.x = 0 then s.body.data.liveGroups q.c q.g.block else Issue.src3 q.x
      ((n < need → g = { q.g with st := .barSync (Issue.src1 q.x), act := false } ∧
          t.body.data.bar q.c q.g.block (Issue.src1 q.x) = some { arrived := n, need := Issue.src3 q.x }) ∧
        (need ≤ n → g = { q.g with st := .run, act := false }.advance (q.g.pc + 8) ∧
          t.body.data.bar q.c q.g.block (Issue.src1 q.x) = none)) := by
  obtain ⟨hblk, hlive⟩ := h.at_barrier hr (g := { q.g with st := .barSync (Issue.src1 q.x), act := false }) rfl
  obtain ⟨hwaits, hgoes⟩ := arrival (group_setGroup_self (atIssue s q) q.c q.s _) hblk hlive (Issue.src1 q.x) (Issue.src3 q.x)
  have he := exec_raw (i := .barSync q.x) rfl h (specBarSync_exec hb hok)
  generalize Data.releaseBar _ _ _ _ = X at he hwaits hgoes
  rcases Nat.lt_or_ge ((mgetD q.b.bars (Issue.src1 q.x) { arrived := 0, need := 0 }).arrived + 1)
      (if Issue.src3 q.x = 0 then s.body.data.liveGroups q.c q.g.block else Issue.src3 q.x) with hlt | hge
  · obtain ⟨hgrp, hbar⟩ := hwaits hlt
    exact ⟨_, _, he, hgrp, fun _ => ⟨rfl, hbar⟩, fun hge => absurd hge (Nat.not_le.2 hlt)⟩
  · obtain ⟨hbar, hgrp⟩ := hgoes hge
    rw [if_pos ⟨rfl, rfl⟩] at hgrp
    exact ⟨_, _, he, hgrp, fun hlt => absurd hge (Nat.not_le.2 hlt), fun _ => ⟨rfl, hbar⟩⟩

theorem barArrive_result {s : State} {q : GCtx} (h : Ready specBarArrive s q.x q) (hr : Rising (s.body.data.core q.c).groups)
    (hb : Issue.src1 q.x ≤ 3) (hok : (fenceTry (atIssue s q) q 1).2 = true) (ha : (q.g.advance (q.g.pc + 8)).active ≠ 0) :
    ∃ t, exec (.barArrive q.x) s = .next t ∧ t.body.data.group q.c q.s = some (q.g.advance (q.g.pc + 8)) ∧
      let n := (mgetD q.b.bars (Issue.src1 q.x) { arrived := 0, need := 0 }).arrived + 1
      let need := if Issue.src3 q.x = 0 then s.body.data.liveGroups q.c q.g.block else Issue.src3 q.x
      t.body.data.bar q.c q.g.block (Issue.src1 q.x) = if n < need then some { arrived := n, need := Issue.src3 q.x } else none := by
  obtain ⟨hblk, hlive⟩ := h.at_barrier hr (g := q.g.advance (q.g.pc + 8)) (advance_block _ _)
  have hgrp : (((atIssue s q).setGroup q.c q.s (q.g.advance (q.g.pc + 8))).fetchNext q.c q.s
      (q.g.advance (q.g.pc + 8))).group q.c q.s = some (q.g.advance (q.g.pc + 8)) := by
    rw [Data.group, fetchNext_groups, ← Data.group, group_setGroup_self]
  rw [← fetchNext_blocks _ q.c q.s (q.g.advance (q.g.pc + 8))] at hblk
  rw [Data.liveGroups, ← fetchNext_groups _ q.c q.s (q.g.advance (q.g.pc + 8)), ← Data.liveGroups] at hlive
  obtain ⟨hwaits, hgoes⟩ := arrival hgrp hblk hlive (Issue.src1 q.x) (Issue.src3 q.x)
  have he := exec_raw (i := .barArrive q.x) rfl h (specBarArrive_exec hb hok ha)
  generalize Data.releaseBar _ _ _ _ = X at he hwaits hgoes
  rcases Nat.lt_or_ge ((mgetD q.b.bars (Issue.src1 q.x) { arrived := 0, need := 0 }).arrived + 1)
      (if Issue.src3 q.x = 0 then s.body.data.liveGroups q.c q.g.block else Issue.src3 q.x) with hlt | hge
  · obtain ⟨hgrp, hbar⟩ := hwaits hlt
    exact ⟨_, he, hgrp, hbar.trans (if_pos hlt).symm⟩
  · obtain ⟨hbar, hgrp⟩ := hgoes hge
    rw [if_neg (by rw [advance_st, h.running]; simp)] at hgrp
    exact ⟨_, he, hgrp, hbar.trans (if_neg (Nat.not_lt.2 hge)).symm⟩

/-- Settles O12: an arrival at a named barrier by whether it reaches the count; a counter by its sum and its sign. -/
theorem barriers : Obligations.Barriers := by
  refine ⟨⟨fun s x q h hr hb hok => ?_, fun s x q h hr hb hok ha => ?_⟩, fun s x q pkg => ?_⟩
  case refine_1 =>
    obtain rfl := h.word_eq
    exact barSync_result h hr hb hok
  case refine_2 =>
    obtain rfl := h.word_eq
    obtain ⟨t, he, hg, hbar⟩ := barArrive_result h hr hb hok ha
    exact ⟨t, _, he, hg, rfl, hbar⟩
  case refine_3 =>
    intro d k v arrive wait hg
    refine ⟨fun h hok => ⟨(fenceTry d q (if pkg then 3 else 2)).1.counterAdd pkg (q.c / 84) k v, ?_, (counterVal_counterAdd_self _ _ _ _ _).trans ?_, fun p e j hne hj hk =>
      (counterVal_counterAdd_ne _ v hne hj hk).trans ?_⟩, fun h => ?_⟩
    · cases pkg
      · exact exec_arriveSpec rfl h hg hok
      · exact exec_arriveSpec rfl h hg hok
    · rw [fenceTry_counterVal, atIssue_counterVal]
    · rw [fenceTry_counterVal, atIssue_counterVal]
    · cases pkg
      · exact exec_waitSpec rfl h hg
      · exact exec_waitSpec rfl h hg

/-! ### Doorbells and invalidation -/

/-- Addresses of a plot's memory are taken modulo 2^40. -/
theorem add_mod_add (a c i : Nat) : (a + 2 ^ 40 * c + i) % 2 ^ 40 = (a + i) % 2 ^ 40 := by omega

theorem devRead_mod (d : Data) (plot a n : Nat) : d.devRead plot (a % 2 ^ 40) n = d.devRead plot a n := by
  unfold Data.devRead
  simp only [Nat.mod_add_mod]

theorem putBytes_wrap (l : List Byte) (d : Data) (plot a c : Nat) :
    d.putBytes plot (a + 2 ^ 40 * c) l = d.putBytes plot a l := by
  induction l generalizing d a with
  | nil => rfl
  | cons b l ih =>
    have ha : (a + 2 ^ 40 * c) % 2 ^ 40 = a % 2 ^ 40 := add_mod_add a c 0
    have hn : a + 2 ^ 40 * c + 1 = a + 1 + 2 ^ 40 * c := by omega
    simp only [Data.putBytes, ha, hn, ih]

theorem heal_wrap (d : Data) (plot a c n : Nat) : d.heal plot (a + 2 ^ 40 * c) n = d.heal plot a n := by
  unfold Data.heal
  rw [List.foldl_map, List.foldl_map]
  refine congrArg (fun f => List.foldl f d (List.range (n / 128 + 1))) (funext fun d => funext fun i => ?_)
  have hk : (a + 2 ^ 40 * c + 127) / 128 * 128 + 128 * i = (a + 127) / 128 * 128 + 128 * i + 2 ^ 40 * c := by omega
  have hc : (a + 2 ^ 40 * c + n < (a + 127) / 128 * 128 + 128 * i + 2 ^ 40 * c + 128) =
      (a + n < (a + 127) / 128 * 128 + 128 * i + 128) := propext (by omega)
  have hm : ((a + 127) / 128 * 128 + 128 * i + 2 ^ 40 * c) % 2 ^ 40 = ((a + 127) / 128 * 128 + 128 * i) % 2 ^ 40 := add_mod_add _ c 0
  simp only [hk, hc, hm]

theorem touchRange_wrap (d : Data) (plot a c n : Nat) : d.touchRange plot (a + 2 ^ 40 * c) n = d.touchRange plot a n := by
  unfold Data.touchRange
  rw [List.foldl_map, List.foldl_map]
  have hn : (a + 2 ^ 40 * c) % 128 = a % 128 := by omega
  rw [hn]
  refine congrArg (fun f => List.foldl f d (List.range ((a % 128 + n + 127) / 128))) (funext fun d => funext fun i => ?_)
  have hx : ((a + 2 ^ 40 * c) / 128 + i) * 128 = (a / 128 + i) * 128 + 2 ^ 40 * c := by omega
  have hm : ((a / 128 + i) * 128 + 2 ^ 40 * c) % 2 ^ 40 = (a / 128 + i) * 128 % 2 ^ 40 := add_mod_add _ c 0
  simp only [hx, Data.streamAt, hm]

theorem devWrite_mod (d : Data) (plot a : Nat) (l : List Byte) : d.devWrite plot (a % 2 ^ 40) l = d.devWrite plot a l := by
  have ha : a = a % 2 ^ 40 + 2 ^ 40 * (a / 2 ^ 40) := (Nat.mod_add_div a (2 ^ 40)).symm
  conv_rhs => rw [ha]
  simp only [Data.devWrite, heal_wrap, putBytes_wrap, touchRange_wrap]

/-- What a write on the device's own behalf leaves: all but memory, lost lines, postmarks and the cellar. -/
def Data.sameBut (d d' : Data) : Prop :=
  { d' with mem := d.mem, lost := d.lost, objs := d.objs, cellar := d.cellar, copies := d.copies } = d

theorem sameBut_trans {d d1 d2 : Data} (h1 : d.sameBut d1) (h2 : d1.sameBut d2) : d.sameBut d2 := by
  have h := congrArg (fun k : Data => { k with mem := d.mem, lost := d.lost, objs := d.objs, cellar := d.cellar, copies := d.copies }) h2
  exact h.trans h1

theorem heal_same (d : Data) (plot a n : Nat) : d.sameBut (d.heal plot a n) := by
  unfold Data.heal
  refine List.foldlRecOn (motive := d.sameBut) _ _ rfl fun k hk i _ => ?_
  split_ifs
  · exact hk
  · split
    · exact hk
    · exact hk

theorem putBytes_same {l : List Byte} {d d' : Data} {plot a : Nat} (h : d.putBytes plot a l = some d') : d.sameBut d' := by
  induction l generalizing d a with
  | nil => cases h; rfl
  | cons b l ih =>
    rw [Data.putBytes] at h
    split at h
    · cases h
    · split_ifs at h
      refine sameBut_trans ?_ (ih h)
      rfl

theorem makeRoom_same (d : Data) (k line : Nat) : d.sameBut (d.makeRoom k line) := by
  unfold Data.makeRoom
  dsimp only
  split_ifs
  · rfl
  · rfl
  · split
    · rfl
    · split <;> rfl

theorem touch_same (d : Data) (plot p : Nat) (dirty stream : Bool) : d.sameBut (d.touch plot p dirty stream) := by
  unfold Data.touch
  split_ifs
  · split
    next k _ =>
      split_ifs
      · split
        · rfl
        · exact makeRoom_same d k (p / 128)
      · rfl
    · rfl
  · rfl

theorem touchRange_same (d : Data) (plot a n : Nat) : d.sameBut (d.touchRange plot a n) := by
  unfold Data.touchRange
  refine List.foldlRecOn (motive := d.sameBut) _ _ rfl fun k hk i _ => ?_
  split
  · exact sameBut_trans hk (touch_same _ _ _ _ _)
  · exact hk

theorem devWrite_same {d d' : Data} {plot a : Nat} {l : List Byte} (h : d.devWrite plot a l = some d') : d.sameBut d' := by
  obtain ⟨d1, h1, rfl⟩ := Option.map_eq_some_iff.1 h
  exact sameBut_trans (sameBut_trans (heal_same _ _ _ _) (putBytes_same h1)) (touchRange_same _ _ _ _)

/-- A ring of a pigeonhole whose header can be read and written. -/
theorem ringPh_eq {d d' : Data} {h : Nat} {p : Pigeon} {l : List Byte} (hp : mget d.pigeons h = some p)
    (hr : d.devRead (d.ctxPlot p.ctx) (p.ring + 16) 4 = some l)
    (hw : d.devWrite (d.ctxPlot p.ctx) (p.ring + 16) (natLe 4 ((leNat l + 1) % 2 ^ 32)) = some d') : d.ringPh h = d' := by
  have hs : d.sRead p.ctx 4 (p.ring + 16) 4 = (d, some (leNat l)) := by
    simp only [Data.sRead, Data.sBytes, devRead_mod, hr, Option.map_some]
  simp only [Data.ringPh, hp, hs, Data.sWrite, devWrite_mod, hw]

theorem putGroup_abortPend {d : Data} {c k : Nat} {g : Group} (h : g.active ≠ 0) : (putGroup d c k g).abortPend = d.abortPend := by
  rw [putGroup_of_active h]
  have := congrArg Data.abortPend (fetchNext_rest (d.setGroup c k g) c k g); exact this

theorem mget_mfilter_key_none {α : Type} (m : SMap α) (p : Nat → Bool) (k : Nat) (h : p k = false) :
    mget (mfilter m fun c _ => p c) k = none := by
  cases hg : mget (mfilter m fun c _ => p c) k with
  | none => rfl
  | some x =>
    have hm := (List.mem_filter.1 (mget_mem hg)).2
    simp [h] at hm

/-- The bytes that are discarded touch a line. -/
def lineHit (a len line : Nat) : Bool := decide (0 < len) && decide (line * 128 < a + len) && decide (a < line * 128 + 128)

theorem lineHit_iff (a len line : Nat) : lineHit a len line = true ↔ 0 < len ∧ 128 * line < a + len ∧ a < 128 * line + 128 := by
  simp [lineHit, Nat.mul_comm, and_assoc]

theorem invalidate_copies (d : Data) (a len : Nat) :
    (d.invalidate a len none).copies = mfilter d.copies fun l _ => !lineHit a len (l / 64) := by
  simp [Data.invalidate, lineHit]

theorem invalidate_rest (d : Data) (a len : Nat) : { d.invalidate a len none with copies := d.copies, fills := d.fills } = d := rfl

theorem invalidate_fills (d : Data) (a len : Nat) : (d.invalidate a len none).fills =
    d.fills.map fun f => if f.remote.isSome && lineHit a len (f.addr / 128) then { f with install := false } else f := by
  simp [Data.invalidate, lineHit]

/-- `ring` on a pigeonhole of the plot's grant, its release conditions holding. -/
theorem specRing_exec {d : Data} {q : GCtx} (hg : d.phGranted q.b.plot (q.g.rd 1 (Issue.src1 q.x) 0).toNat = true)
    (hok : (fenceTry d q 3).2 = true) : specRing.exec d q =
      .raw ((putGroup ((fenceTry d q 3).1.ringPh (q.g.rd 1 (Issue.src1 q.x) 0).toNat) q.c q.s (q.g.advance (q.g.pc + 8))).runAborts) :=
  (if_neg (by rw [hg]; simp)).trans (if_pos hok)

/-- Settles O13: `await` by the doorbell's number, `ring` by one write of the header, `inv.remote` by the lines it overlaps. -/
theorem doorbellsAndInvalidation : Obligations.DoorbellsAndInvalidation := by
  refine ⟨⟨fun s x q h => ?_, fun s x q h => ?_⟩, fun s x q h => ?_⟩
  case refine_1 =>
    intro ph e hg n hn
    obtain rfl := h.word_eq
    refine ⟨fun hne => exec_next rfl h ((if_neg (by rw [hg]; simp)).trans ?_),
      fun he => exec_wait rfl h ((if_neg (by rw [hg]; simp)).trans ?_)⟩
    · rw [hn]; exact if_neg hne
    · rw [hn]; exact if_pos he
  case refine_2 =>
    intro ph d hg hok hab ha p l d' hp hr hw
    obtain rfl := h.word_eq
    have hpend : (putGroup d' q.c q.s (q.g.advance (q.g.pc + 8))).abortPend = [] := by
      have h1 := congrArg Data.abortPend (devWrite_same hw)
      have h2 := congrArg Data.abortPend (fenceTry_rest (atIssue s q) q 3)
      have h3 := congrArg Data.abortPend (atIssue_rest s q)
      exact (putGroup_abortPend ha).trans (h1.trans (h2.trans (h3.trans hab)))
    refine (exec_raw rfl h (specRing_exec hg hok)).trans ?_
    rw [ringPh_eq hp hr hw, Data.runAborts, if_pos hpend]
    rfl
  case refine_3 =>
    intro a n hit
    obtain rfl := h.word_eq
    have hcop : (atIssue s q).copies = s.body.data.copies := by have h := congrArg Data.copies (atIssue_rest s q); exact h
    refine ⟨(atIssue s q).invalidate a n none, exec_next rfl h rfl, invalidate_rest _ _ _, fun k hk => ?_, fun k hk => ?_, fun f hf hrem hk => ?_⟩
    · rw [invalidate_copies]
      exact mget_mfilter_key_none _ (fun l => !lineHit a n (l / 64)) k (by rw [(lineHit_iff a n _).2 hk]; rfl)
    · rw [invalidate_copies, ← hcop]
      refine mget_mfilter_key _ (fun l => !lineHit a n (l / 64)) k ?_
      rw [Bool.eq_false_iff.2 fun hl => hk ((lineHit_iff a n _).1 hl)]
      rfl
    · rw [invalidate_fills, List.mem_map] at hf
      obtain ⟨f0, -, rfl⟩ := hf
      split_ifs at hrem hk ⊢ with hc
      · rfl
      · exact absurd (by rw [hrem, (lineHit_iff a n _).2 hk]; rfl) hc

end Sys2Proof.Machine
end

section
/-! Issue to the matrix array and to the engines (04 R130-R134; 05 R141, R142; 07 R221; 09 R288). -/

namespace Sys2Proof.Machine

/-! ### The array's queue -/

@[simp] theorem atIssue_claimed (s : State) (q : GCtx) : claimed (atIssue s q) q = claimed s.body.data q := by
  obtain ⟨ic, fb, hc⟩ := core_atIssue s q q.c
  have hs : (atIssue s q).coreSt = s.body.data.coreSt := by have h := congrArg Data.coreSt (atIssue_rest s q); exact h
  have ho : (atIssue s q).dieOut = s.body.data.dieOut := by have h := congrArg Data.dieOut (atIssue_rest s q); exact h
  simp only [claimed, Data.coreState, hs, ho, hc]

/-- A matrix instruction whose checks pass, with room in the queue. -/
theorem mtxChecked_ok {d : Data} {q : GCtx} {descOk : Bool} {ext : List (Nat × Nat)} (o : ArrOp) (hd : descOk = true)
    (hc : claimed d q = true) (he : extentsOk q ext = true) (hroom : (d.core q.c).arrQ.length < 4) :
    mtxChecked d q descOk ext o = .next (d.setCore q.c { d.core q.c with
      arrQ := (d.core q.c).arrQ ++ [o]
      arrSt := if o.kind = .mma then mmaArrives (d.core q.c).arrSt else (d.core q.c).arrSt
      rows := if o.kind = .mma ∧ (d.core q.c).arrSt = .rampDown then min 8 ((d.core q.c).rows + 1) else (d.core q.c).rows })
      q.g none := by
  rw [mtxChecked, hd, hc, he]
  exact if_neg (Nat.not_le.2 hroom)

/-- An instruction whose effect is the checked entry into the array's queue. -/
theorem queuesArr_of_exec {mk : Issue → Instr} {sp : OpSpec} {ok : GCtx → Bool} {ext : GCtx → List (Nat × Nat)} {o : GCtx → ArrOp}
    (hi : ∀ x, huvalOf (mk x) = some (sp, x)) (he : ∀ d q, sp.exec d q = mtxChecked d q (ok q) (ext q) (o q)) :
    QueuesArr mk sp ok ext o := by
  intro s x q h hok hc hext hroom
  have hx := mtxChecked_ok (d := atIssue s q) (o q) hok (by simpa using hc) hext (by simpa using hroom)
  refine ⟨_, exec_next (hi x) h ((he _ _).trans hx), by simp, ?_⟩
  obtain ⟨ic, fb, hk⟩ := core_atIssue s q q.c
  rw [hk]

/-! ### Engines -/

/-- An engine descriptor that lies in the bench, its release conditions holding and its engine with room. -/
theorem execEngIssue_bench {cls n p : Nat} {d d' : Data} {q : GCtx} (ha : (q.g.rdPair 1 (Issue.src1 q.x) 0).toNat % 64 = 0)
    (hp : placeIn d (groupAgent d q) 0 (q.g.rdPair 1 (Issue.src1 q.x) 0).toNat = .ok (.bench p))
    (hf : fenceTry d q (if cls = 2 then 3 else 2) = (d', true)) (hn : d'.pickEngine q.c cls (Issue.src3 q.x) = some n)
    (hroom : (d'.engine n).queue.length < 16) : execEngIssue cls d q =
      .next (d'.enqueue n (groupDesc q.c q.s q.b ((List.range 64).map fun i => d'.rdB (p + i))
        (q.g.rdPair 1 (Issue.src1 q.x) 0).toNat)) q.g none := by
  unfold execEngIssue
  simp only [ha, hp, hf, hn, if_neg (Nat.not_le.2 hroom)]
  rfl

/-- An engine descriptor that lies in memory: the read of its line is requested. -/
theorem execEngIssue_line {cls n : Nat} {d d' : Data} {q : GCtx} {pl : Place} {e : Nat × Target}
    (ha : (q.g.rdPair 1 (Issue.src1 q.x) 0).toNat % 64 = 0)
    (hp : placeIn d (groupAgent d q) 0 (q.g.rdPair 1 (Issue.src1 q.x) 0).toNat = .ok pl)
    (hf : fenceTry d q (if cls = 2 then 3 else 2) = (d', true)) (hn : d'.pickEngine q.c cls (Issue.src3 q.x) = some n)
    (hroom : (d'.engine n).queue.length < 16)
    (hl : lineOf { t := 0, a := (q.g.rdPair 1 (Issue.src1 q.x) 0).toNat, at_ := .ok pl } = some e) (hfree : d'.freeEntries q.c ≠ 0) :
    execEngIssue cls d q = .next (d'.addReq (BitVec.ofNat 10 (0x1C0 + cls)) q e.1 e.2 (.desc cls (Issue.src3 q.x))
      [{ t := ((threads q.on).head?).getD 0, off := (q.g.rdPair 1 (Issue.src1 q.x) 0).toNat % 128, opnd := 0, cmp := 0 }]) q.g none := by
  unfold execEngIssue
  simp only [ha, hp, hf, hn, hl, if_neg (Nat.not_le.2 hroom), if_neg hfree]
  rfl

/-- The instruction that issues to an engine class. -/
theorem huvalOf_engSpec {cls : Nat} (h : cls < 3) (x : Issue) :
    huvalOf (if cls = 0 then .courIssue x else if cls = 1 then .gleanIssue x else .rlyIssue x) = some (engSpec cls, x) := by
  match cls, h with
  | 0, _ => rfl
  | 1, _ => rfl
  | 2, _ => rfl

/-- Settles O14: the array's instructions by their checked entry into the queue, the engines' by where the descriptor lies. -/
theorem matrixAndEngineIssue : Obligations.MatrixAndEngineIssue := by
  refine ⟨⟨queuesArr_of_exec (fun _ => rfl) fun d q => ?_, queuesArr_of_exec (fun _ => rfl) fun _ _ => rfl,
    queuesArr_of_exec (fun _ => rfl) fun _ _ => rfl, queuesArr_of_exec (fun _ => rfl) fun _ _ => rfl,
    queuesArr_of_exec (fun _ => rfl) fun _ _ => rfl, queuesArr_of_exec (fun _ => rfl) fun _ _ => rfl⟩,
    fun s x q cls hcls h => ?_⟩
  case refine_1 =>
    have h0 : mbit (Issue.b q.x 17 8) 0 = (Issue.b q.x 17 8 % 2 == 1) := by simp [mbit]
    rw [← h0]; rfl
  case refine_2 =>
    intro d a i ha hok n hn hroom
    obtain rfl := h.word_eq
    have hf : fenceTry (atIssue s q) q (if cls = 2 then 3 else 2) = (d, true) := Prod.ext rfl hok
    refine ⟨fun p hp => ?_, fun pl e hp hl hfree => ?_⟩
    · exact exec_next (huvalOf_engSpec hcls q.x) h (execEngIssue_bench ha hp hf hn hroom)
    · refine ⟨_, newReq d _ q e.1 e.2 _ _, exec_next (huvalOf_engSpec hcls q.x) h (execEngIssue_line ha hp hf hn hroom hl hfree),
        ⟨rfl, rfl, rfl, rfl⟩, rfl, rfl, rfl, rfl⟩

end Sys2Proof.Machine
end

section
/-! The checks before an instruction's effect (03 R69, R75-R77, R95, R106; 04 R110, R111). -/

namespace Sys2Proof.Machine

/-! ### The active set and the fetch -/

/-- A group without an entry does not issue where an older one is ready for one. -/
theorem canIssue_of_older {d : Data} {k : Core} {g : Group} (ha : g.act = false)
    (h : ∃ e ∈ k.groups, readyPending d e.2 = true ∧ k.rank e.2 < k.rank g) : canIssue d k g = false := by
  obtain ⟨e, he, hr, hlt⟩ := h
  have hany : (k.groups.any fun e => readyPending d e.2 && decide (k.rank e.2 < k.rank g)) = true :=
    List.any_eq_true.2 ⟨e, he, by simp [hr, hlt]⟩
  simp [canIssue, entryFree, ha, hany]

/-- A bundle that has been fetched is not read again. -/
theorem fetch1_of_held {d : Data} {c s : Nat} (plot : Nat) {a : Nat} (h : (mget (mgetD (d.core c).fetchBuf s []) a).isSome = true) :
    d.fetch1 c s plot a = d := if_pos h

/-- After its fetch a bundle is held. -/
theorem fetch1_held (d : Data) (c s plot a : Nat) : (mget (mgetD ((d.fetch1 c s plot a).core c).fetchBuf s []) a).isSome = true := by
  by_cases h : (mget (mgetD (d.core c).fetchBuf s []) a).isSome = true
  · rwa [fetch1_of_held plot h]
  · unfold Data.fetch1
    dsimp only
    rw [if_neg h, core_setCore_self]
    simp [mgetD, mget]

theorem mget_filter_key {α : Type} (m : SMap α) (a : Nat) : mget (m.filter fun e => e.1 == a) a = mget m a :=
  mget_mfilter_key m (fun k => k == a) a (beq_self_eq_true a)

/-- After an instruction the bundle of the group's next one is held. -/
theorem fetchNext_held (d : Data) (c s : Nat) (g : Group) :
    (mget (mgetD ((d.fetchNext c s g).core c).fetchBuf s []) (g.pc.toNat / 64)).isSome = true := by
  have h := fetch1_held d c s (groupPlot (d.core c) g) (g.pc.toNat / 64)
  unfold Data.fetchNext
  dsimp only
  rw [core_setCore_self]
  simp only [mgetD, mget_mmod] at h ⊢
  cases hb : mget ((d.fetch1 c s (groupPlot (d.core c) g) (g.pc.toNat / 64)).core c).fetchBuf s with
  | none => rw [hb] at h; simp at h
  | some b =>
    rw [hb] at h
    simp only [if_true, Option.map_some, Option.getD_some, mget_filter_key] at h ⊢
    exact h

/-! ### The checks of the word -/

/-- A group that has fetched another word does nothing. -/
theorem issue_unfetched {sp : OpSpec} {s : State} {x : Issue} {q : GCtx} (hq : issueCtx s.body.data s.alm.beat x = some q)
    (hf : fetchOk sp (atIssue s q) q = false) : s.issue sp x = s := by
  unfold atIssue at hf
  simp [State.issue, runIssue, hq, hf]

/-- Where the effect of a checked word goes. -/
theorem exec_fetched {i : Instr} {sp : OpSpec} {x : Issue} (hi : huvalOf i = some (sp, x)) {s : State} {q : GCtx}
    (hq : issueCtx s.body.data s.alm.beat x = some q) (hf : fetchOk sp (atIssue s q) q = true) {d : Data}
    (hd : issueWord sp (atIssue s q) q = d) : exec i s = .next (s.setData d) := by
  rw [exec_huval hi, issue_fetched hq hf, hd]
  rfl

theorem issueWord_illegal {sp : OpSpec} {q : GCtx} (d : Data) (h : illegal sp q.x = true) :
    issueWord sp d q = postIssueFault sp d q .illegal q.g.active 0 := if_pos h

theorem issueWord_skipped {sp : OpSpec} {q : GCtx} (d : Data) (hl : illegal sp q.x = false) (hw : sp.wide q.x = true)
    (hon : q.on = 0) (hg : Issue.guard q.x ≠ 0) : issueWord sp d q = putGroup d q.c q.s (q.g.advance (q.g.pc + 8)) := by
  simp [issueWord, hl, hw, hon, hg]

theorem issueWord_held {sp : OpSpec} {q : GCtx} {d : Data} (hl : illegal sp q.x = false)
    (hg : (sp.wide q.x && q.on == 0 && Issue.guard q.x != 0) = false) (hr : (sp.refs q.x).any (refBeyond q.b.regsAlloc) = false)
    (hp : (((sp.refs q.x).any fun r => (d.pending q.c q.s q.k q.g).any (refMeets r)) || (sp.mem && d.acquiring q.c q.s q.g)) = true) :
    issueWord sp d q = if waitsReq sp d q = true then d.stall q.c q.s q.g else d.setGroup q.c q.s q.g := by
  simp only [issueWord, hl, hg, hr, hp, if_true, Bool.false_eq_true, if_false]

@[simp] theorem atIssue_pending (s : State) (q : GCtx) (c k : Nat) (kc : Core) (g : Group) :
    (atIssue s q).pending c k kc g = s.body.data.pending c k kc g := by simp [Data.pending]

@[simp] theorem atIssue_acquiring (s : State) (q : GCtx) (c k : Nat) (g : Group) :
    (atIssue s q).acquiring c k g = s.body.data.acquiring c k g := by simp [Data.acquiring]

/-- Settles O15: the checks, in their order, each with the data plane that it leaves. -/
theorem issueChecks : Obligations.IssueChecks := by
  refine ⟨fun d k g ha h => canIssue_of_older ha h, fun d c s g ha => ?_, fun d c s plot a h => fetch1_of_held plot h,
    fun sp x h => ?_, fun i sp x hi s => ⟨fun hn => ?_, fun q hq hf => ?_, fun q hq hf => ?_⟩⟩
  case refine_1 => rw [putGroup_of_active ha]; exact fetchNext_held _ _ _ _
  case refine_2 => simp [illegal, h]
  case refine_3 => rw [exec_huval hi, issue_none hn]
  case refine_4 => rw [exec_huval hi, issue_unfetched hq hf]
  case refine_5 =>
    obtain ⟨-, -, -, -, rfl, -⟩ := issueCtx_some hq
    refine ⟨fun hl => exec_fetched hi hq hf (issueWord_illegal _ hl),
      fun hl hw hon hg => exec_fetched hi hq hf (issueWord_skipped _ hl hw hon hg),
      fun hl hg => ⟨fun hr => exec_fetched hi hq hf (issueWord_operandRange _ hl hg hr), fun hr hp => ?_⟩⟩
    exact exec_fetched hi hq hf (issueWord_held hl hg hr (by simpa using hp))

end Sys2Proof.Machine
end

section
/-! What a Huval instruction leaves unchanged (03, 04): the ends of groups, and the frame of the computing instructions. -/

namespace Sys2Proof.Machine

/-! ### Operations that leave every core -/

theorem cores_devWrite {d d' : Data} {plot a : Nat} {l : List Byte} (h : d.devWrite plot a l = some d') : d'.cores = d.cores := by
  have hs := congrArg Data.cores (devWrite_same h); exact hs

@[simp] theorem cores_sBytes (d : Data) (ctx st a n : Nat) : (d.sBytes ctx st a n).1.cores = d.cores := by
  unfold Data.sBytes; split <;> rfl

@[simp] theorem cores_sRead (d : Data) (ctx st a n : Nat) : (d.sRead ctx st a n).1.cores = d.cores := cores_sBytes _ _ _ _ _

@[simp] theorem cores_sWrite (d : Data) (ctx st a : Nat) (l : List Byte) : (d.sWrite ctx st a l).cores = d.cores := by
  unfold Data.sWrite
  split
  next d' h => exact cores_devWrite h
  next => rfl

@[simp] theorem cores_sAdd (d : Data) (ctx st a v : Nat) : (d.sAdd ctx st a v).1.cores = d.cores := by
  have hr := cores_sRead d ctx st a 8
  unfold Data.sAdd
  split
  next d1 x h => rw [h] at hr; exact (cores_sWrite _ _ _ _ _).trans hr
  next d1 h => rw [h] at hr; exact hr

@[simp] theorem cores_progress (d : Data) (ctx off : Nat) : (d.progress ctx off).cores = d.cores := by
  unfold Data.progress Data.progressN
  split
  · exact cores_sAdd _ _ _ _ _
  · rfl

@[simp] theorem cores_handNotices (d : Data) (id : Nat) : (d.handNotices id).cores = d.cores := by
  unfold Data.handNotices
  split
  · rfl
  next l _ =>
    exact List.foldlRecOn (motive := fun k : Data => k.cores = d.cores) _ _ rfl fun k hk r _ => hk

@[simp] theorem cores_dropTail (d : Data) (id : Nat) : (d.dropTail id).cores = d.cores := by
  unfold Data.dropTail
  split_ifs
  · rfl
  · exact cores_handNotices d id

theorem cores_wrN (l : List Byte) (d : Data) (p : Nat) : (d.wrN p l).cores = d.cores := by
  induction l generalizing d p with
  | nil => rfl
  | cons b l ih => exact ih _ _

theorem cores_wrMask (l : List (Nat × Byte)) (d : Data) (p : Nat) : (d.wrMask p l).cores = d.cores := by
  induction l generalizing d with
  | nil => rfl
  | cons e l ih => exact ih _

theorem cores_atomAll (l : List Lane) (d : Data) (p aop ty : Nat) : (atomAll d p aop ty l).1.cores = d.cores := by
  induction l generalizing d with
  | nil => rfl
  | cons e l ih => exact (ih _).trans (cores_wrN _ _ _)

theorem cores_applyReq (d : Data) (p : Nat) (r : LineReq) : (applyReq d p r).cores = d.cores := by
  unfold applyReq
  split
  · rfl
  · split
    · rfl
    · rfl
    · refine (cores_wrMask _ _ _).trans ?_
      split <;> rfl
    · exact cores_atomAll _ _ _ _ _

@[simp] theorem cores_clearFrames (d : Data) (l : List Nat) : (d.clearFrames l).cores = d.cores := by
  refine List.foldlRecOn (motive := fun k : Data => k.cores = d.cores) _ _ rfl fun k hk i _ => ?_
  split
  · split
    · exact (cores_applyReq _ _ _).trans hk
    · exact hk
    · exact hk
  · exact hk

theorem cores_releaseOne {d d' : Data} (h : d.releaseOne = some d') : d'.cores = d.cores := by
  unfold Data.releaseOne at h
  split at h
  · cases h; exact cores_clearFrames _ _
  split at h
  · cases h; rfl
  split at h
  · cases h; rfl
  split at h
  · cases h; rfl
  split at h
  · cases h; rfl
  split at h
  · cases h; rfl
  split at h
  · cases h; exact cores_clearFrames _ _
  split at h
  · cases h; rfl
  · cases h

@[simp] theorem cores_reap (d : Data) : d.reap.cores = d.cores := by
  unfold Data.reap
  generalize 2 * d.graphs.length + 3 * d.pigeons.length + 2 * d.ctxs.length + d.events.length + d.objs.length + d.hws.length + 1 = n
  induction n generalizing d with
  | zero => rfl
  | succ n ih =>
    rw [reapN]
    split
    next d' h => exact (ih d').trans (cores_releaseOne h)
    next => rfl

/-! ### The end of a group -/

theorem group_congr {d d' : Data} (h : d'.cores = d.cores) (c k : Nat) : d'.group c k = d.group c k := by
  rw [Data.group, Data.group, Data.core, Data.core, h]

theorem mget_filter_none {α : Type} {m : SMap α} {k : Nat} (h : mget m k = none) (p : Nat × α → Bool) :
    mget (m.filter p) k = none := by
  induction m with
  | nil => rfl
  | cons e m ih =>
    obtain ⟨j, y⟩ := e
    rw [mget] at h
    split_ifs at h with hj
    rw [List.filter_cons]
    split_ifs
    · rw [mget, if_neg hj]; exact ih h
    · exact ih h

theorem group_retireIfEmpty (d : Data) (c c' k : Nat) : (d.retireIfEmpty c).group c' k = d.group c' k := by
  unfold Data.retireIfEmpty
  split
  · rfl
  · by_cases hb : (d.core c).blocks = []
    · rw [if_pos hb]
      refine (group_congr (d := d.setCore c _) rfl c' k).trans ?_
      by_cases hc : c = c'
      · subst hc; simp [Data.group]
      · simp [Data.group, core_setCore_ne _ _ hc]
    · rw [if_neg hb]

/-- The end of a thread block brings no group back. -/
theorem group_endBlock_none {d : Data} {c k : Nat} (h : d.group c k = none) (bs : Nat) : (d.endBlock c bs).group c k = none := by
  unfold Data.endBlock
  dsimp only
  split
  · exact h
  next b _ =>
    refine (group_congr (cores_reap _) c k).trans ((group_retireIfEmpty _ c c k).trans
      ((group_congr (cores_progress _ _ _) c k).trans ((group_congr (cores_dropTail _ _) c k).trans ?_)))
    refine (congrArg (fun x : Core => mget x.groups k) (core_setCore_self _ _ _)).trans ?_
    exact mget_filter_none h _

theorem group_releaseBar_none {d : Data} {c k : Nat} (h : d.group c k = none) (bs b : Nat) : (d.releaseBar c bs b).group c k = none := by
  unfold Data.releaseBar
  split
  · exact h
  next n _ =>
    by_cases hc : 0 < n.arrived ∧ (if n.need = 0 then d.liveGroups c bs else n.need) ≤ n.arrived
    · rw [if_pos hc]
      refine (congrArg (fun x : Core => mget x.groups k) (core_setCore_self _ _ _)).trans ?_
      rw [mget_mmap, show mget (d.core c).groups k = none from h]
      rfl
    · rwa [if_neg hc]

/-- A group that has ended is resident no more. -/
theorem group_endGroup (d : Data) (c k : Nat) : (d.endGroup c k).group c k = none := by
  unfold Data.endGroup
  split
  next h => exact h
  next g h =>
    have hdel : (d.setCore c { d.core c with groups := mdel (d.core c).groups k }).group c k = none := by simp [Data.group]
    dsimp only
    split_ifs
    · exact group_endBlock_none hdel _
    · exact List.foldlRecOn (motive := fun x : Data => x.group c k = none) _ _ hdel fun x hx b _ => group_releaseBar_none hx _ b

/-! ### The frame of a computing instruction -/

/-- `d'` is `d` in memory, benches, requests, objects, engines and barrier counters, and in every group but that of slot `k` of
core `c`. -/
structure Keeps (c k : Nat) (d d' : Data) : Prop where
  mem : d'.mem = d.mem
  bench : d'.bench = d.bench
  reqs : d'.reqs = d.reqs
  objs : d'.objs = d.objs
  engines : d'.engines = d.engines
  dieBar : d'.dieBar = d.dieBar
  pkgBar : d'.pkgBar = d.pkgBar
  others : ∀ c' k', (c', k') ≠ (c, k) → d'.group c' k' = d.group c' k'

theorem Keeps.refl (c k : Nat) (d : Data) : Keeps c k d d := ⟨rfl, rfl, rfl, rfl, rfl, rfl, rfl, fun _ _ _ => rfl⟩

theorem Keeps.trans {c k : Nat} {d d1 d2 : Data} (h1 : Keeps c k d d1) (h2 : Keeps c k d1 d2) : Keeps c k d d2 :=
  ⟨h2.mem.trans h1.mem, h2.bench.trans h1.bench, h2.reqs.trans h1.reqs, h2.objs.trans h1.objs, h2.engines.trans h1.engines,
    h2.dieBar.trans h1.dieBar, h2.pkgBar.trans h1.pkgBar, fun c' k' h => (h2.others c' k' h).trans (h1.others c' k' h)⟩

theorem Keeps.setGroup (c k : Nat) (d : Data) (g : Group) : Keeps c k d (d.setGroup c k g) :=
  ⟨rfl, rfl, rfl, rfl, rfl, rfl, rfl, fun _ _ h => group_setGroup_ne d g h⟩

/-- A change of a core that leaves its groups. -/
theorem Keeps.setCore (c k : Nat) (d : Data) {x : Core} (h : x.groups = (d.core c).groups) : Keeps c k d (d.setCore c x) := by
  refine ⟨rfl, rfl, rfl, rfl, rfl, rfl, rfl, fun c' k' _ => ?_⟩
  by_cases hc : c = c'
  · subst hc; simp [Data.group, h]
  · simp [Data.group, core_setCore_ne _ _ hc]

/-- A change of the cores alone that leaves their groups. -/
theorem Keeps.of_cores {c k : Nat} {d d' : Data} (h : { d' with cores := d.cores } = d)
    (hg : ∀ c, (d'.core c).groups = (d.core c).groups) : Keeps c k d d' := by
  refine ⟨?_, ?_, ?_, ?_, ?_, ?_, ?_, fun c' k' _ => by rw [Data.group, Data.group, hg]⟩
  · have hc := congrArg Data.mem h; exact hc
  · have hc := congrArg Data.bench h; exact hc
  · have hc := congrArg Data.reqs h; exact hc
  · have hc := congrArg Data.objs h; exact hc
  · have hc := congrArg Data.engines h; exact hc
  · have hc := congrArg Data.dieBar h; exact hc
  · have hc := congrArg Data.pkgBar h; exact hc

theorem Keeps.atIssue (s : State) (q : GCtx) : Keeps q.c q.s s.body.data (atIssue s q) :=
  .of_cores (atIssue_rest s q) (atIssue_groups s q)

/-- A group that goes on and stays resident. -/
theorem Keeps.putGroup {c k : Nat} {d : Data} {g : Group} (h : ((putGroup d c k g).group c k).isSome = true) :
    Keeps c k d (putGroup d c k g) := by
  by_cases ha : g.active = 0
  · rw [Machine.putGroup, if_pos ha, group_endGroup] at h
    cases h
  · rw [putGroup_of_active ha]
    exact (Keeps.setGroup c k d g).trans (.of_cores (fetchNext_rest _ _ _ _) (fetchNext_groups _ _ _ _))

theorem Keeps.postIssueFault (sp : OpSpec) (d : Data) (q : GCtx) (cls : FaultClass) (mask : W32) (addr : W64) :
    Keeps q.c q.s d (postIssueFault sp d q cls mask addr) :=
  (Keeps.setGroup q.c q.s d _).trans ⟨rfl, rfl, rfl, rfl, rfl, rfl, rfl, fun _ _ _ => rfl⟩

theorem Keeps.reportNan (sp : OpSpec) (d : Data) (q : GCtx) (g : Group) (i : NanInfo) : Keeps q.c q.s d (reportNan sp d q g i).1 := by
  unfold Machine.reportNan
  dsimp only
  split_ifs <;> exact ⟨rfl, rfl, rfl, rfl, rfl, rfl, rfl, fun _ _ _ => rfl⟩

/-- The effect of an instruction leaves what `Keeps` names. -/
def Exec.keeps (c k : Nat) (d : Data) : Exec → Prop
  | .hold => True
  | .fault .. => True
  | .next d' _ _ => Keeps c k d d'
  | .jump d' _ _ => Keeps c k d d'
  | .wait d' _ => Keeps c k d d'
  | .raw d' => Keeps c k d d'

theorem Keeps.finishExec (sp : OpSpec) {d : Data} {q : GCtx} {e : Exec} (he : e.keeps q.c q.s d)
    (h : ((finishExec sp d q e).group q.c q.s).isSome = true) : Keeps q.c q.s d (finishExec sp d q e) := by
  cases e with
  | hold => exact .refl _ _ _
  | fault cls mask addr => exact .postIssueFault _ _ _ _ _ _
  | next d' g o =>
    cases o with
    | none => exact Keeps.trans he (.putGroup h)
    | some i => exact (Keeps.trans he (.reportNan sp d' q g i)).trans (.putGroup h)
  | jump d' g pc => exact Keeps.trans he (.putGroup h)
  | wait d' g => exact Keeps.trans he (Keeps.setGroup q.c q.s d' _ : Keeps q.c q.s d' (d'.stall q.c q.s g))
  | raw d' => exact he

theorem keeps_diverge (q : GCtx) (d : Data) (rpc pendPc : W64) (pend : W32) (pc : W64) (act : W32) :
    (diverge q d rpc pendPc pend pc act).keeps q.c q.s d := by
  unfold diverge
  split_ifs
  · trivial
  · exact .refl _ _ _

theorem keeps_bra (d : Data) (q : GCtx) : (execBraBody d q).keeps q.c q.s d := by
  unfold execBraBody
  dsimp only
  split_ifs
  · exact .refl _ _ _
  · exact .refl _ _ _
  · exact keeps_diverge _ _ _ _ _ _ _

theorem keeps_brx (d : Data) (q : GCtx) : (execBrxBody d q).keeps q.c q.s d := by
  unfold execBrxBody
  dsimp only
  split_ifs
  · trivial
  · split
    · exact .refl _ _ _
    · split_ifs
      · exact .refl _ _ _
      · split
        · split_ifs
          · exact .refl _ _ _
          · exact keeps_diverge _ _ _ _ _ _ _
        · exact keeps_diverge _ _ _ _ _ _ _

theorem keeps_ret (d : Data) (q : GCtx) : (specRet.exec d q).keeps q.c q.s d := by
  simp only [specRet, ctlSpec]
  split_ifs
  · trivial
  · exact .refl _ _ _

theorem keeps_yield (d : Data) (q : GCtx) : (execYieldBody d q).keeps q.c q.s d := by
  unfold execYieldBody
  split
  · refine Keeps.trans ?_ (.setGroup _ _ _ _)
    exact .setCore _ _ _ rfl
  · exact .setGroup _ _ _ _
  · exact .refl _ _ _

theorem keeps_sfu (code fn : Nat) (d : Data) (q : GCtx) : ((sfuSpec code fn).exec d q).keeps q.c q.s d :=
  ⟨rfl, rfl, rfl, rfl, rfl, rfl, rfl, fun _ _ _ => rfl⟩

theorem keeps_rdclk (d : Data) (q : GCtx) : (specRdclk.exec d q).keeps q.c q.s d :=
  Keeps.trans (Keeps.setCore q.c q.s d
      (x := { d.core q.c with clk := (d.core q.c).clk + BitVec.ofNat 64 (1 + Config.freeNat d.free) }) rfl)
    ⟨rfl, rfl, rfl, rfl, rfl, rfl, rfl, fun _ _ _ => rfl⟩

/-- The effect of every computing instruction: most change nothing of the data plane themselves. -/
theorem keeps_exec {i : Instr} {sp : OpSpec} {x : Issue} (hi : huvalOf i = some (sp, x)) (hc : computing sp = true) (d : Data)
    (q : GCtx) : (sp.exec d q).keeps q.c q.s d := by
  unfold huvalOf at hi
  split at hi <;> cases hi
  all_goals try exact absurd hc Bool.false_ne_true
  all_goals try exact Keeps.refl q.c q.s d
  all_goals try exact keeps_sfu _ _ d q
  · exact keeps_bra d q
  · exact keeps_brx d q
  · exact keeps_ret d q
  · exact keeps_yield d q
  · exact Keeps.setCore q.c q.s d rfl
  · exact keeps_rdclk d q

/-- Settles O17: an issue changes the data plane alone, and a computing instruction's effect, the put of its group and the report
of a NaN each leave what the frame names. -/
theorem huvalFrames : Obligations.HuvalFrames := by
  refine ⟨fun i sp x hi s => ⟨_, exec_huval hi s⟩, fun i sp x hi hc s q t h ht hg => ?_⟩
  rw [exec_huval hi, issue_ready h] at ht
  cases ht
  obtain ⟨h1, h2, h3, h4, h5, h6, h7, h8⟩ :=
    (Keeps.atIssue s q).trans (Keeps.finishExec sp (keeps_exec hi hc (atIssue s q) q) hg)
  exact ⟨h1, h2, h3, h4, h5, h6, h7, h8⟩

end Sys2Proof.Machine
end

section
/-! Commands that work on the data plane alone: what they leave does not depend on the records and counted errors that wait. -/

namespace Sys2Proof.Machine

/-- `e` is `d` but for the records and the counted errors that wait to be handed on. -/
def Data.Mute (d e : Data) : Prop := ∃ ps cs, e = { d with posts := ps, corrected := cs }

namespace Data.Mute

theorem refl (d : Data) : d.Mute d := ⟨_, _, rfl⟩

theorem symm {d e : Data} (h : d.Mute e) : e.Mute d := by
  obtain ⟨ps, cs, rfl⟩ := h
  exact ⟨d.posts, d.corrected, rfl⟩

theorem trans {d e f : Data} (h : d.Mute e) (k : e.Mute f) : d.Mute f := by
  obtain ⟨ps, cs, rfl⟩ := h
  obtain ⟨ps', cs', rfl⟩ := k
  exact ⟨ps', cs', rfl⟩

theorem reqs {d e : Data} (h : d.Mute e) : e.reqs = d.reqs := by obtain ⟨ps, cs, rfl⟩ := h; rfl

theorem cores {d e : Data} (h : d.Mute e) : e.cores = d.cores := by obtain ⟨ps, cs, rfl⟩ := h; rfl

theorem ctxs {d e : Data} (h : d.Mute e) : e.ctxs = d.ctxs := by obtain ⟨ps, cs, rfl⟩ := h; rfl

theorem core {d e : Data} (h : d.Mute e) (c : Nat) : e.core c = d.core c := by simp only [Data.core, h.cores]

theorem group {d e : Data} (h : d.Mute e) (c i : Nat) : e.group c i = d.group c i := by simp only [Data.group, h.core]

/-- An update that neither reads nor writes what waits. -/
theorem of_comm {d e : Data} {f : Data → Data} (h : d.Mute e)
    (hf : ∀ ps cs, f { d with posts := ps, corrected := cs } = { f d with posts := ps, corrected := cs }) : (f d).Mute (f e) := by
  obtain ⟨ps, cs, rfl⟩ := h
  exact ⟨ps, cs, hf ps cs⟩

theorem foldl {α : Type} {f : Data → α → Data} (hf : ∀ d e x, d.Mute e → (f d x).Mute (f e x)) (l : List α) :
    ∀ {d e : Data}, d.Mute e → (l.foldl f d).Mute (l.foldl f e) := by
  induction l with
  | nil => exact fun h => h
  | cons x l ih => exact fun h => ih (hf _ _ x h)

end Data.Mute

theorem acts_of_mute {c : Instr} {s : State} {d : Data} {f : Nat → Data → Data} (he : exec c s = s.runD f)
    (hf : ∀ e, s.body.data.Mute e → d.Mute (f s.alm.beat e)) : Acts c s d :=
  acts_of_runD he fun ps cs => hf _ ⟨ps, cs, rfl⟩

/-- A command's step from a quiet body, where what it does to the data plane leaves the body quiet. -/
theorem runD_next {c : Instr} {s : State} {f : Nat → Data → Data} {d : Data} (he : exec c s = s.runD f)
    (hq : s.body.quiet = true) (hf : ∀ e, s.body.data.Mute e → d.Mute (f s.alm.beat e))
    (hp : d.abortPend = []) (hi : d.irqs = [])
    (hl : ∀ e ∈ d.launches, s.body.iterOver e.2 = false ∧ (e.2.open_ = true ∨ e.2.aborted = false) ∧
      (mget s.body.data.ctxs e.2.ctx).isSome = true ∧ (mget d.ctxs e.2.ctx).isSome = true) :
    ∃ t, exec c s = .next t ∧ d.Mute t.body.data := by
  obtain ⟨t, ht, hk⟩ := acts_of_mute he hf hq (by
    refine (quiet_iff _).2 ⟨hp, hi, fun e he => ?_⟩
    obtain ⟨h1, h2, h3, h4⟩ := hl e he
    refine ⟨?_, h2, h4⟩
    rw [← h1]
    refine iterOver_congr e.2 ?_
    simp only [Body.journalOf]
    rw [mget_mfilter_key s.body.sj (fun c => (mget s.body.data.ctxs c).isSome) e.2.ctx h3])
  exact ⟨t, ht, hk.data⟩

/-- The same where the launches and contexts stay. -/
theorem runD_next_of_same {c : Instr} {s : State} {f : Nat → Data → Data} {d : Data} (he : exec c s = s.runD f)
    (hq : s.body.quiet = true) (hf : ∀ e, s.body.data.Mute e → d.Mute (f s.alm.beat e))
    (hp : d.abortPend = s.body.data.abortPend) (hi : d.irqs = s.body.data.irqs) (hl : d.launches = s.body.data.launches)
    (hc : d.ctxs = s.body.data.ctxs) : ∃ t, exec c s = .next t ∧ d.Mute t.body.data := by
  obtain ⟨h1, h2, h3⟩ := (quiet_iff _).1 hq
  refine runD_next he hq hf (hp.trans h1) (hi.trans h2) fun e he => ?_
  obtain ⟨a, b, c⟩ := h3 e (hl ▸ he)
  exact ⟨a, b, c, hc ▸ c⟩

/-- A command that changes the data plane alone changes it in one way. -/
theorem Acts.unique {c : Instr} {s : State} {d e : Data} (h : Acts c s d) (k : Acts c s e) (hq : s.body.quiet = true)
    (hd : ({ s.body with data := d, sj := mfilter s.body.sj fun c _ => (mget s.body.data.ctxs c).isSome } : Body).quiet = true)
    (he : ({ s.body with data := e, sj := mfilter s.body.sj fun c _ => (mget s.body.data.ctxs c).isSome } : Body).quiet = true) :
    d.Mute e := by
  obtain ⟨t, ht, h1⟩ := h hq hd
  obtain ⟨t', ht', h2⟩ := k hq he
  rw [ht] at ht'
  cases ht'
  exact Data.Mute.trans h1.data (Data.Mute.symm h2.data)

theorem heal_said (d : Data) (plot a n : Nat) (ps : List Post) (cs : SMap (Nat × Option Nat)) :
    ({ d with posts := ps, corrected := cs } : Data).heal plot a n = { d.heal plot a n with posts := ps, corrected := cs } := by
  unfold Data.heal
  generalize (List.range (n / 128 + 1)).map (fun i => (a + 127) / 128 * 128 + 128 * i) = l
  induction l generalizing d with
  | nil => rfl
  | cons k l ih =>
    simp only [List.foldl_cons]
    rw [← ih]
    congr 1
    split
    · rfl
    · change (match d.physAt plot (k % 2 ^ 40) with
        | some p => _
        | none => _) = _
      cases d.physAt plot (k % 2 ^ 40) <;> rfl

theorem putBytes_said (l : List Byte) (d : Data) (plot a : Nat) (ps : List Post) (cs : SMap (Nat × Option Nat)) :
    ({ d with posts := ps, corrected := cs } : Data).putBytes plot a l =
      (d.putBytes plot a l).map fun d => { d with posts := ps, corrected := cs } := by
  induction l generalizing d a with
  | nil => rfl
  | cons b l ih =>
    rw [Data.putBytes, Data.putBytes]
    change (match d.physAt plot (a % 2 ^ 40) with
      | none => none
      | some p => if d.isLost p then none else _) = _
    cases d.physAt plot (a % 2 ^ 40) with
    | none => rfl
    | some p =>
      by_cases h : d.isLost p = true
      · simp only [if_pos h]; rfl
      · simp only [if_neg h]
        exact ih ((d.wr p b).unmark plot (a % 2 ^ 40)) (a + 1)

theorem makeRoom_said (d : Data) (k line : Nat) (ps : List Post) (cs : SMap (Nat × Option Nat)) :
    ({ d with posts := ps, corrected := cs } : Data).makeRoom k line = { d.makeRoom k line with posts := ps, corrected := cs } := by
  unfold Data.makeRoom
  dsimp only
  split
  · rfl
  · split
    · rfl
    · split
      · rfl
      · split <;> rfl

theorem touch_said (d : Data) (plot p : Nat) (x y : Bool) (ps : List Post) (cs : SMap (Nat × Option Nat)) :
    ({ d with posts := ps, corrected := cs } : Data).touch plot p x y = { d.touch plot p x y with posts := ps, corrected := cs } := by
  unfold Data.touch
  split
  · change (match d.homeSlice plot p with
      | some k => _
      | none => _) = _
    cases d.homeSlice plot p with
    | none => rfl
    | some k =>
      dsimp only
      split
      · split
        · rfl
        · rw [makeRoom_said]
      · rfl
  · rfl

theorem touchRange_said (d : Data) (plot a n : Nat) (ps : List Post) (cs : SMap (Nat × Option Nat)) :
    ({ d with posts := ps, corrected := cs } : Data).touchRange plot a n = { d.touchRange plot a n with posts := ps, corrected := cs } := by
  unfold Data.touchRange
  generalize (List.range ((a % 128 + n + 127) / 128)).map (fun i => (a / 128 + i) * 128) = l
  induction l generalizing d with
  | nil => rfl
  | cons k l ih =>
    simp only [List.foldl_cons]
    rw [← ih]
    congr 1
    change (match d.physAt plot (k % 2 ^ 40) with
        | some p => Data.touch { d with posts := ps, corrected := cs } plot p true (d.streamAt plot k)
        | none => _) = _
    cases d.physAt plot (k % 2 ^ 40) with
    | none => rfl
    | some p => exact touch_said ..

theorem devWrite_said (d : Data) (plot a : Nat) (l : List Byte) (ps : List Post) (cs : SMap (Nat × Option Nat)) :
    ({ d with posts := ps, corrected := cs } : Data).devWrite plot a l =
      (d.devWrite plot a l).map fun d => { d with posts := ps, corrected := cs } := by
  unfold Data.devWrite
  rw [heal_said, putBytes_said]
  cases (d.heal plot a l.length).putBytes plot a l with
  | none => rfl
  | some e => exact congrArg some (touchRange_said e plot a l.length ps cs)

namespace Data.Mute
variable {d e : Data}

theorem structLost (h : d.Mute e) (ctx st a : Nat) : (d.structLost ctx st a).Mute (e.structLost ctx st a) := by
  obtain ⟨ps, cs, rfl⟩ := h
  exact ⟨_, cs, rfl⟩

theorem sBytes (h : d.Mute e) (ctx st a n : Nat) :
    (d.sBytes ctx st a n).1.Mute (e.sBytes ctx st a n).1 ∧ (e.sBytes ctx st a n).2 = (d.sBytes ctx st a n).2 := by
  obtain ⟨ps, cs, rfl⟩ := h
  have hr : ({ d with posts := ps, corrected := cs } : Data).devRead (({ d with posts := ps, corrected := cs } : Data).ctxPlot ctx)
    (a % 2 ^ 40) n = d.devRead (d.ctxPlot ctx) (a % 2 ^ 40) n := rfl
  unfold Data.sBytes
  rw [hr]
  cases d.devRead (d.ctxPlot ctx) (a % 2 ^ 40) n with
  | some l => exact ⟨⟨ps, cs, rfl⟩, rfl⟩
  | none => exact ⟨⟨_, cs, rfl⟩, rfl⟩

theorem sRead (h : d.Mute e) (ctx st a n : Nat) :
    (d.sRead ctx st a n).1.Mute (e.sRead ctx st a n).1 ∧ (e.sRead ctx st a n).2 = (d.sRead ctx st a n).2 :=
  ⟨(h.sBytes ctx st a n).1, by simp only [Data.sRead, (h.sBytes ctx st a n).2]⟩

theorem ctxPlot (h : d.Mute e) (ctx : Nat) : e.ctxPlot ctx = d.ctxPlot ctx := by simp only [Data.ctxPlot, h.ctxs]

theorem devWrite (h : d.Mute e) (plot a : Nat) (l : List Byte) :
    (d.devWrite plot a l = none ∧ e.devWrite plot a l = none) ∨
      ∃ d' e', d.devWrite plot a l = some d' ∧ e.devWrite plot a l = some e' ∧ d'.Mute e' := by
  obtain ⟨ps, cs, rfl⟩ := h
  rw [devWrite_said d plot a l ps cs]
  cases d.devWrite plot a l with
  | none => exact .inl ⟨rfl, rfl⟩
  | some d' => exact .inr ⟨d', _, rfl, rfl, ps, cs, rfl⟩

theorem lostAt_heal (h : d.Mute e) (ctx plot a n b m : Nat) :
    (e.heal plot a n).lostAt ctx b m = (d.heal plot a n).lostAt ctx b m := by
  obtain ⟨ps, cs, rfl⟩ := h
  rw [heal_said d plot a n ps cs]
  rfl

theorem sWrite (h : d.Mute e) (ctx st a : Nat) (l : List Byte) : (d.sWrite ctx st a l).Mute (e.sWrite ctx st a l) := by
  unfold Data.sWrite
  rw [h.ctxPlot, h.lostAt_heal]
  obtain ⟨hd, he⟩ | ⟨d', e', hd, he, hm⟩ := h.devWrite (d.ctxPlot ctx) (a % 2 ^ 40) l
  · rw [hd, he]; exact h.structLost _ _ _
  · rw [hd, he]; exact hm

theorem sAdd (h : d.Mute e) (ctx st a v : Nat) :
    (d.sAdd ctx st a v).1.Mute (e.sAdd ctx st a v).1 ∧ (e.sAdd ctx st a v).2 = (d.sAdd ctx st a v).2 := by
  obtain ⟨hm, hv⟩ := h.sRead ctx st a 8
  unfold Data.sAdd
  generalize d.sRead ctx st a 8 = x at hm hv
  generalize e.sRead ctx st a 8 = y at hm hv
  obtain ⟨d', o⟩ := x
  obtain ⟨e', o'⟩ := y
  obtain rfl : o' = o := hv
  cases o' with
  | none => exact ⟨hm, rfl⟩
  | some v => exact ⟨sWrite hm .., rfl⟩

theorem evalIrq (h : d.Mute e) (ev old : Nat) : (d.evalIrq ev old).Mute (e.evalIrq ev old) := by
  have he : e.events = d.events := by obtain ⟨ps, cs, rfl⟩ := h; rfl
  have hs (x : Event) : e.eventStruct ev x.ctx = d.eventStruct ev x.ctx := by obtain ⟨ps, cs, rfl⟩ := h; rfl
  unfold Data.evalIrq
  rw [he]
  cases hx : mget d.events ev with
  | none => exact h
  | some x =>
    dsimp only
    rw [hs x]
    obtain ⟨hm, hv⟩ := h.sRead x.ctx (d.eventStruct ev x.ctx) x.addr 8
    generalize d.eventStruct ev x.ctx = st at hm hv ⊢
    generalize d.sRead x.ctx st x.addr 8 = r at hm hv ⊢
    generalize e.sRead x.ctx st x.addr 8 = r' at hm hv ⊢
    obtain ⟨d₁, o⟩ := r
    obtain ⟨e₁, o'⟩ := r'
    obtain rfl : o' = o := hv
    cases o' with
    | none => exact hm
    | some v =>
      obtain ⟨hm, hv⟩ := Data.Mute.sRead hm x.ctx st (x.addr + 8) 8
      dsimp only at hm hv ⊢
      generalize d₁.sRead x.ctx st (x.addr + 8) 8 = r at hm hv ⊢
      generalize e₁.sRead x.ctx st (x.addr + 8) 8 = r' at hm hv ⊢
      obtain ⟨d₂, o⟩ := r
      obtain ⟨e₂, o'⟩ := r'
      obtain rfl : o' = o := hv
      cases o' with
      | none => exact hm
      | some irq =>
        obtain ⟨ps, cs, rfl⟩ := hm
        dsimp only
        split
        · exact ⟨ps, cs, rfl⟩
        · exact ⟨ps, cs, rfl⟩

theorem eventAdd (h : d.Mute e) (ev v : Nat) : (d.eventAdd ev v).Mute (e.eventAdd ev v) := by
  have he : e.events = d.events := by obtain ⟨ps, cs, rfl⟩ := h; rfl
  have hs (x : Event) : e.eventStruct ev x.ctx = d.eventStruct ev x.ctx := by obtain ⟨ps, cs, rfl⟩ := h; rfl
  unfold Data.eventAdd
  rw [he]
  cases hx : mget d.events ev with
  | none => exact h
  | some x =>
    dsimp only
    rw [hs x]
    obtain ⟨hm, hv⟩ := h.sAdd x.ctx (d.eventStruct ev x.ctx) x.addr v
    generalize d.sAdd x.ctx (d.eventStruct ev x.ctx) x.addr v = r at hm hv ⊢
    generalize e.sAdd x.ctx (d.eventStruct ev x.ctx) x.addr v = r' at hm hv ⊢
    obtain ⟨d₁, o⟩ := r
    obtain ⟨e₁, o'⟩ := r'
    obtain rfl : o' = o := hv
    cases o' with
    | none => exact hm
    | some p => exact evalIrq hm ev p.1

end Data.Mute
end Sys2Proof.Machine
end

section
/-! Groups between their instructions: late faults, fault records and their dispositions, and waits that end. -/

namespace Sys2Proof.Machine

/-- A thread block of one group. -/
def strayBlock : Block :=
  { launch := 0, node := 0, index := 0, grid := 1, groups := 1, regsAlloc := 16, bench := [], usesArray := false, entry := 0,
    slip := 0, ctx := 0, plot := 0, traps := 0, detached := false, age := 0, bars := [] }

/-- Its group, in a core that no AX8 has: with its store, acknowledged, the counterexample to O19. -/
def strayGroup : Group := startGroup strayBlock 0 0 0

/-- Its request. -/
def strayReq : LineReq :=
  { id := 0, core := 672, slot := 0, iseq := 0, age := 0, plot := 0, pc := 0, opcode := 0, addr := 0, tgt := .host false 0,
    op := .store [], lanes := [], stage := .acked, pre := none, rem := none, accepted := none }

/-- A module at reset but for that group and its request. -/
def strayState : State :=
  { State.reset with body := { Body.reset with data := { Data.reset with
    cores := [(672, { Core.empty with groups := [(0, strayGroup)] })], reqs := [strayReq] } } }

/-- No answer reaches a core beyond the last. -/
theorem acts_stray : Acts (.memResponse 0) strayState strayState.body.data := by
  refine acts_of_mute (f := fun beat d => match d.req 0 with
    | some r => if r.core < 672 then land d beat r else d
    | none => d) rfl fun e he => ?_
  obtain ⟨ps, cs, rfl⟩ := he
  exact ⟨ps, cs, rfl⟩

/-- Refutes O19: the answer of a request from a core beyond 671 does not land, though a group of such a core, which the
statement does not exclude, issued it. -/
theorem not_coreEvents : ¬ Obligations.CoreEvents := by
  unfold Obligations.CoreEvents
  rintro ⟨-, -, -, -, -, hacked, -⟩
  have h := hacked strayState 0 strayReq strayGroup rfl rfl rfl
  exact absurd (Acts.unique h acts_stray rfl rfl rfl).reqs (by decide)

/-! ### Late faults park -/

/-- Several records join a context's records. -/
def Data.holdRecs (d : Data) (ctx launch : Nat) (l : List FaultRec) : Data := l.foldl (fun d r => d.holdRec ctx launch r) d

theorem holdRecs_rest (ctx launch : Nat) (l : List FaultRec) (d : Data) :
    { d.holdRecs ctx launch l with ctxs := d.ctxs, launches := d.launches } = d := by
  induction l generalizing d with
  | nil => rfl
  | cons r l ih => exact congrArg (fun e : Data => { e with ctxs := d.ctxs, launches := d.launches }) (ih (d.holdRec ctx launch r))

theorem mget_ctxs_holdRecs (ctx launch : Nat) (l : List FaultRec) (d : Data) (c : Ctx) (h : mget d.ctxs ctx = some c) :
    mget (d.holdRecs ctx launch l).ctxs ctx = some { c with held := c.held ++ l } := by
  induction l generalizing d c with
  | nil => simpa [Data.holdRecs] using h
  | cons r l ih =>
    refine (ih (d.holdRec ctx launch r) { c with held := c.held ++ [r] } ?_).trans (by simp)
    simp only [Data.holdRec, mget_mmod, if_pos, h, Option.map_some]

theorem isSome_ctxs_holdRecs (ctx launch n : Nat) (l : List FaultRec) (d : Data) :
    (mget (d.holdRecs ctx launch l).ctxs n).isSome = (mget d.ctxs n).isSome := by
  induction l generalizing d with
  | nil => rfl
  | cons r l ih =>
    refine (ih (d.holdRec ctx launch r)).trans ?_
    simp only [Data.holdRec, mget_mmod]
    split_ifs <;> simp

/-- `l'` is `l` but for its count of faults. -/
def SameButFaults (l l' : Launch) : Prop := { l' with faults := l.faults } = l

theorem mem_launches_holdRecs (ctx launch : Nat) (l : List FaultRec) (d : Data) :
    ∀ e ∈ (d.holdRecs ctx launch l).launches, ∃ e' ∈ d.launches, SameButFaults e'.2 e.2 := by
  induction l generalizing d with
  | nil => exact fun e he => ⟨e, he, rfl⟩
  | cons r l ih =>
    intro e he
    obtain ⟨e₁, he₁, h₁⟩ := ih (d.holdRec ctx launch r) e he
    simp only [Data.holdRec, mmod, List.mem_map] at he₁
    obtain ⟨e₂, he₂, rfl⟩ := he₁
    refine ⟨e₂, he₂, ?_⟩
    unfold SameButFaults at h₁ ⊢
    split at h₁
    · exact congrArg (fun l : Launch => { l with faults := e₂.2.faults }) h₁
    · exact h₁

theorem holdRecs_mute {d e : Data} (h : d.Mute e) (ctx launch : Nat) (l : List FaultRec) :
    (d.holdRecs ctx launch l).Mute (e.holdRecs ctx launch l) :=
  Data.Mute.foldl (fun _ _ r h => h.of_comm (f := fun d => d.holdRec ctx launch r) fun _ _ => rfl) l h

/-- The record of a late fault. -/
def lateRec (core slot : Nat) (g : Group) (b : Block) (f : LateFault) : FaultRec :=
  recOf core slot g b f.beat f.cls f.sub f.pc (lateResume f g.pc) f.addr f.mask f.opcode (lateMode f) f.detail false f.ops

/-- Those of a group, in program order. -/
def lateRecs (core slot : Nat) (g : Group) (b : Block) : List FaultRec :=
  (g.late.foldl (fun l f => insLate f l) []).map (lateRec core slot g b)

/-- The group, parked. -/
def Group.parkedLate (g : Group) : Group := { g with st := .faultPark, act := false, stop := false, late := [] }

/-- The data plane once a group has parked on its late faults. -/
def parkedLate (d : Data) (core slot : Nat) (g : Group) (b : Block) : Data :=
  (d.setGroup core slot g.parkedLate).holdRecs b.ctx b.launch (lateRecs core slot g b)

theorem parkedLate_mute {d e : Data} (h : d.Mute e) (core slot : Nat) (g : Group) (b : Block) :
    (parkedLate d core slot g b).Mute (parkedLate e core slot g b) :=
  holdRecs_mute (h.of_comm (f := fun d => d.setGroup core slot g.parkedLate) fun _ _ => rfl) _ _ _

theorem unarrive_of_not_barSync (d : Data) (c : Nat) (g : Group) (h : ∀ n, g.st ≠ .barSync n) : d.unarrive c g = d := by
  unfold Data.unarrive
  split
  · next b e => exact absurd e (h b)
  · rfl

/-- A group may park on its late faults: it has some, and nothing of it is outstanding. -/
structure ParksLate (d : Data) (core slot : Nat) (g : Group) (b : Block) : Prop where
  group : d.group core slot = some g
  late : g.late ≠ []
  reqs : d.reqsOf core slot g = []
  arr : arrOf (d.core core) slot g = []
  bar : ∀ n, g.st ≠ .barSync n
  block : mget (d.core core).blocks g.block = some b

theorem ParksLate.of_mute {d e : Data} {core slot : Nat} {g : Group} {b : Block} (h : ParksLate d core slot g b) (hm : d.Mute e) :
    ParksLate e core slot g b :=
  ⟨(hm.group core slot).trans h.group, h.late, by rw [Data.reqsOf, hm.reqs]; exact h.reqs, by rw [hm.core]; exact h.arr, h.bar,
    by rw [hm.core]; exact h.block⟩

theorem lateFaultPark_runs (s : State) (core slot : Nat) : ∃ f, execLateFaultPark core slot s = s.runD f ∧
    ∀ beat d g b, ParksLate d core slot g b → f beat d = parkedLate d core slot g b := by
  refine ⟨_, rfl, fun beat d g b h => ?_⟩
  have ho : d.openReqs core slot g = [] := by rw [Data.openReqs, h.reqs]; rfl
  rw [h.group]
  dsimp only
  rw [if_pos ⟨h.late, ho, h.arr⟩, h.block]
  dsimp only
  rw [unarrive_of_not_barSync d core g h.bar, parkedLate, Data.holdRecs, lateRecs, List.foldl_map]
  exact Eq.refl _

theorem lateFaultPark_records (s : State) (core slot : Nat) (g : Group) (b : Block) (c : Ctx)
    (h : ParksLate s.body.data core slot g b) (hc : mget s.body.data.ctxs b.ctx = some c) (hq : s.body.quiet = true) :
    ∃ t rs c', exec (.lateFaultPark core slot) s = .next t ∧
      t.body.data.group core slot = some { g with st := .faultPark, act := false, stop := false, late := [] } ∧
      mget t.body.data.ctxs b.ctx = some c' ∧ c'.held = c.held ++ rs ∧
      rs.map (fun r => (r.cls, r.pc, r.mask, r.addr, r.resume)) =
        (g.late.foldl (fun l f => insLate f l) []).map fun f =>
          (f.cls, f.pc, f.mask, f.addr, if f.cls = .satTrap then f.pc else g.pc) := by
  obtain ⟨f, hf, hd⟩ := lateFaultPark_runs s core slot
  obtain ⟨h1, h2, h3⟩ := (quiet_iff _).1 hq
  obtain ⟨t, ht, hm⟩ := runD_next (c := .lateFaultPark core slot) (d := parkedLate s.body.data core slot g b) hf hq
    (fun e he => hd _ e g b (h.of_mute he) ▸ parkedLate_mute he core slot g b)
    ((congrArg Data.abortPend (holdRecs_rest b.ctx b.launch _ _)).trans h1)
    ((congrArg Data.irqs (holdRecs_rest b.ctx b.launch _ _)).trans h2)
    (fun e he => by
      obtain ⟨e', he', hs⟩ := mem_launches_holdRecs b.ctx b.launch _ _ e he
      obtain ⟨a₁, a₂, a₃⟩ := h3 e' he'
      unfold SameButFaults at hs
      rw [← hs] at a₁ a₂ a₃
      exact ⟨a₁, a₂, a₃, (isSome_ctxs_holdRecs b.ctx b.launch e.2.ctx _ _).trans a₃⟩)
  refine ⟨t, lateRecs core slot g b, _, ht, ?_, (congrArg (fun m => mget m b.ctx) hm.ctxs).trans (mget_ctxs_holdRecs _ _ _ _ c hc), rfl, ?_⟩
  · have h := congrArg (fun d : Data => d.group core slot)
      (holdRecs_rest b.ctx b.launch (lateRecs core slot g b) (s.body.data.setGroup core slot g.parkedLate))
    exact (hm.group core slot).trans (h.trans (group_setGroup_self _ _ _ _))
  · rw [lateRecs, List.map_map]
    exact List.map_congr_left fun f _ => rfl


/-- The context once its first held record is counted as written. -/
def Ctx.wrote (c : Ctx) (r : FaultRec) (rest : List FaultRec) : Ctx :=
  { c with held := rest, writeSeq := c.writeSeq + 1, posted := mput c.posted c.writeSeq r }

/-- The data plane with it. -/
def Data.wrote (d : Data) (ctx : Nat) (c : Ctx) (r : FaultRec) (rest : List FaultRec) : Data :=
  { d with ctxs := mput d.ctxs ctx (c.wrote r rest) }

theorem writeRecord_runs (s : State) (ctx : Nat) : ∃ f, execFaultRecordWrite ctx s = s.runD f ∧
    ∀ beat d c r rest, mget d.ctxs ctx = some c → c.held = r :: rest →
      (c.writeSeq % 2 ^ 32 + 2 ^ 32 - c.freeSeq % 2 ^ 32) % 2 ^ 32 < 2 ^ c.ringLog2 →
      f beat d = (((d.wrote ctx c r rest).sWrite ctx 1 (recAddr c c.writeSeq) (faultBytes c.writeSeq r)).sWrite ctx 1 c.ring (natLe 4 (c.writeSeq + 1))).eventAdd c.faultEvent 1 := by
  refine ⟨_, rfl, fun beat d c r rest hc hh hroom => ?_⟩
  rw [hc]
  dsimp only
  rw [hh]
  dsimp only
  rw [if_pos hroom, Data.wrote, Ctx.wrote]

theorem sWrite_of_devWrite {d d' : Data} {ctx st a plot : Nat} {l : List Byte} (hp : d.ctxPlot ctx = plot)
    (h : d.devWrite plot (a % 2 ^ 40) l = some d') : d.sWrite ctx st a l = d' := by
  unfold Data.sWrite
  rw [hp, h]

theorem faultRecord_written (s : State) (ctx : Nat) (c : Ctx) (r : FaultRec) (rest : List FaultRec) (d₂ d₃ : Data)
    (hc : mget s.body.data.ctxs ctx = some c) (hh : c.held = r :: rest)
    (hroom : (c.writeSeq % 2 ^ 32 + 2 ^ 32 - c.freeSeq % 2 ^ 32) % 2 ^ 32 < 2 ^ c.ringLog2)
    (h₂ : (s.body.data.wrote ctx c r rest).devWrite c.plot
      ((c.ring + 64 * (1 + c.writeSeq % 2 ^ c.ringLog2)) % 2 ^ 40) (faultBytes c.writeSeq r) = some d₂)
    (h₃ : d₂.devWrite c.plot (c.ring % 2 ^ 40) (natLe 4 (c.writeSeq + 1)) = some d₃) :
    Acts (.faultRecordWrite ctx) s (d₃.eventAdd c.faultEvent 1) := by
  obtain ⟨f, hf, hd⟩ := writeRecord_runs s ctx
  have hp : (s.body.data.wrote ctx c r rest).ctxPlot ctx = c.plot := by
    simp only [Data.wrote, Ctx.wrote, Data.ctxPlot, mget_mput_self, Option.map_some, Option.getD_some]
  have hp₂ : d₂.ctxPlot ctx = c.plot := by
    have h := congrArg Data.ctxs (devWrite_same h₂)
    rw [← hp, Data.ctxPlot, Data.ctxPlot]
    exact congrArg (fun m => ((mget m ctx).map fun c => c.plot).getD 64) h
  refine acts_of_mute hf fun e he => ?_
  rw [hd _ e c r rest (he.ctxs ▸ hc) hh hroom, ← sWrite_of_devWrite (st := 1) hp₂ h₃, ← sWrite_of_devWrite (a := recAddr c c.writeSeq) (st := 1) hp h₂]
  refine Data.Mute.eventAdd (Data.Mute.sWrite (Data.Mute.sWrite ?_ _ _ _ _) _ _ _ _) _ _
  obtain ⟨ps, cs, rfl⟩ := he
  exact ⟨ps, cs, rfl⟩

/-- Settles O20: a park adds the late faults' records in program order, and the ring takes the first that is held. -/
theorem faultRecords : Obligations.FaultRecords := by
  unfold Obligations.FaultRecords
  refine ⟨?_, ?_⟩
  · intro s core slot g b c d hg hl hr ha hs hb hc hq
    exact lateFaultPark_records s core slot g b c ⟨hg, hl, hr, ha, hs, hb⟩ hc hq
  · intro s ctx c r rest d₂ d₃ hc hh hroom c₁ d₁ h₂ h₃
    exact faultRecord_written s ctx c r rest d₂ d₃ hc hh hroom h₂ h₃

/-! ### Waits that end -/

/-- A group past the wait that it stood at. -/
def Group.woken (g : Group) : Group := { g with st := .run }.advance (g.pc + 8)

theorem woken_st (g : Group) : g.woken.st = .run := advance_st _ _

theorem core_dropNear_self (d : Data) (c : Nat) : (d.dropNear c).core c = { d.core c with near := [] } := core_setCore_self _ _ _

theorem core_dropNear_ne (d : Data) {c c' : Nat} (h : c ≠ c') : (d.dropNear c).core c' = d.core c' :=
  core_setCore_ne d _ h

/-- A core whose groups that `p` names go on. -/
def wokenCore (k : Core) (p : Group → Bool) : Core :=
  { k with groups := mmap k.groups fun _ g => if p g && !g.mgmt && !g.stop then g.woken else g }

theorem wake_eq (d : Data) (c : Nat) (p : Group → Bool) : wake d c p =
    if inPass (d.core c) || !((d.core c).groups.any fun e => p e.2 && !e.2.mgmt && !e.2.stop) then d
    else (d.setCore c (wokenCore (d.core c) p)).dropNear c := rfl

theorem wake_rest (d : Data) (c : Nat) (p : Group → Bool) : { wake d c p with cores := d.cores, reqs := d.reqs } = d := by
  rw [wake_eq]
  split <;> rfl

theorem wake_core_ne (d : Data) (p : Group → Bool) {c c' : Nat} (h : c ≠ c') : (wake d c p).core c' = d.core c' := by
  rw [wake_eq]
  split
  · rfl
  · rw [core_dropNear_ne _ h, core_setCore_ne _ _ h]

theorem core_wake_hit {d : Data} {p : Group → Bool} {c : Nat}
    (h : ¬(inPass (d.core c) || !((d.core c).groups.any fun e => p e.2 && !e.2.mgmt && !e.2.stop)) = true) :
    (wake d c p).core c = { wokenCore (d.core c) p with near := [] } := by
  rw [wake_eq, if_neg h, core_dropNear_self, core_setCore_self]

theorem wake_near (d : Data) (p : Group → Bool) (c c' : Nat) (h : (d.core c').near = []) : ((wake d c p).core c').near = [] := by
  by_cases hc : c = c'
  · subst hc
    by_cases hk : (inPass (d.core c) || !((d.core c).groups.any fun e => p e.2 && !e.2.mgmt && !e.2.stop)) = true
    · rw [wake_eq, if_pos hk, h]
    · rw [core_wake_hit hk]
  · rw [wake_core_ne d p hc, h]

/-- A group that `p` does not name goes on waiting. -/
theorem wake_group_of_not (d : Data) (p : Group → Bool) (c : Nat) {c' i : Nat} {h : Group} (hg : d.group c' i = some h)
    (hp : p h = false) : (wake d c p).group c' i = some h := by
  rw [Data.group] at hg ⊢
  by_cases hc : c = c'
  · subst hc
    by_cases hk : (inPass (d.core c) || !((d.core c).groups.any fun e => p e.2 && !e.2.mgmt && !e.2.stop)) = true
    · rw [wake_eq, if_pos hk, hg]
    · rw [core_wake_hit hk, wokenCore, mget_mmap, hg, Option.map_some, hp]
      rfl
  · rw [wake_core_ne d p hc, hg]

theorem wake_group_hit {d : Data} {p : Group → Bool} {c i : Nat} {g : Group} (hg : d.group c i = some g) (hp : p g = true)
    (hm : g.mgmt = false) (hs : g.stop = false) (hk : inPass (d.core c) = false) :
    (wake d c p).group c i = some g.woken ∧ ((wake d c p).core c).near = [] := by
  rw [Data.group] at hg ⊢
  have hgo : (p g && !g.mgmt && !g.stop) = true := by simp [hp, hm, hs]
  have hh : ((d.core c).groups.any fun e => p e.2 && !e.2.mgmt && !e.2.stop) = true :=
    List.any_eq_true.2 ⟨_, mget_mem hg, hgo⟩
  rw [core_wake_hit (by simp [hk, hh])]
  exact ⟨by rw [wokenCore, mget_mmap, hg, Option.map_some, if_pos hgo], rfl⟩

theorem wake_mute {d e : Data} (h : d.Mute e) (c : Nat) (p : Group → Bool) : (wake d c p).Mute (wake e c p) := by
  refine h.of_comm (f := fun d => wake d c p) fun ps cs => ?_
  unfold wake
  dsimp only
  change (if inPass (d.core c) || !((d.core c).groups.any fun e => p e.2 && !e.2.mgmt && !e.2.stop) then _ else _) = _
  split <;> rfl

/-- Several cores' groups go on. -/
def wakeAll (d : Data) (p : Group → Bool) (l : List Nat) : Data := l.foldl (fun d c => wake d c p) d

theorem wakeAll_rest (p : Group → Bool) (l : List Nat) (d : Data) : { wakeAll d p l with cores := d.cores, reqs := d.reqs } = d := by
  induction l generalizing d with
  | nil => rfl
  | cons c l ih =>
    exact (congrArg (fun e : Data => { e with cores := d.cores, reqs := d.reqs }) (ih (wake d c p))).trans (wake_rest d c p)

theorem wakeAll_group_of_not (p : Group → Bool) (l : List Nat) (d : Data) {c i : Nat} {h : Group} (hg : d.group c i = some h)
    (hp : p h = false) : (wakeAll d p l).group c i = some h := by
  induction l generalizing d with
  | nil => exact hg
  | cons k l ih => exact ih (wake d k p) (wake_group_of_not d p k hg hp)

theorem wakeAll_near (p : Group → Bool) (l : List Nat) (d : Data) (c : Nat) (h : (d.core c).near = []) :
    ((wakeAll d p l).core c).near = [] := by
  induction l generalizing d with
  | nil => exact h
  | cons k l ih => exact ih (wake d k p) (wake_near d p k c h)

theorem wakeAll_group_hit (p : Group → Bool) (l : List Nat) (d : Data) {c i : Nat} {g : Group} (hc : c ∈ l)
    (hg : d.group c i = some g) (hp : p g = true) (hw : p g.woken = false) (hm : g.mgmt = false) (hs : g.stop = false)
    (hk : inPass (d.core c) = false) :
    (wakeAll d p l).group c i = some g.woken ∧ ((wakeAll d p l).core c).near = [] := by
  induction l generalizing d with
  | nil => exact absurd hc List.not_mem_nil
  | cons k l ih =>
    by_cases hkc : k = c
    · subst hkc
      obtain ⟨h1, h2⟩ := wake_group_hit hg hp hm hs hk
      exact ⟨wakeAll_group_of_not p l _ h1 hw, wakeAll_near p l _ k h2⟩
    · have hcore := wake_core_ne d p hkc
      refine ih (wake d k p) ?_ (by rw [Data.group, hcore]; exact hg) (by rw [hcore]; exact hk)
      exact (List.mem_cons.1 hc).resolve_left fun h => hkc h.symm

theorem wakeAll_mute {d e : Data} (h : d.Mute e) (p : Group → Bool) (l : List Nat) : (wakeAll d p l).Mute (wakeAll e p l) :=
  Data.Mute.foldl (fun _ _ c h => wake_mute h c p) l h

/-- A command that works on the cores and their requests alone. -/
theorem runD_next_of_cores {c : Instr} {s : State} {f : Nat → Data → Data} {d : Data} (he : exec c s = s.runD f)
    (hq : s.body.quiet = true) (hf : ∀ e, s.body.data.Mute e → d.Mute (f s.alm.beat e))
    (hr : { d with cores := s.body.data.cores, reqs := s.body.data.reqs } = s.body.data) :
    ∃ t, exec c s = .next t ∧ d.Mute t.body.data := by
  have h₁ := congrArg Data.abortPend hr
  have h₂ := congrArg Data.irqs hr
  have h₃ := congrArg Data.launches hr
  have h₄ := congrArg Data.ctxs hr
  exact runD_next_of_same he hq hf h₁ h₂ h₃ h₄

/-- A group waits on a counter that has reached its value. -/
def metBy (d : Data) (pkg : Bool) (die k : Nat) (g : Group) : Bool :=
  match g.st with
  | .counter p n v => p == pkg && n == k && counterMet (d.counterVal pkg die k) v
  | _ => false

theorem counterBarrierMet_runs (s : State) (pkg : Bool) (die k : Nat) : execCounterBarrierMet pkg die k s =
    s.runD fun _ d => wakeAll d (metBy d pkg die k) ((d.cores.map fun e => e.1).filter fun c => pkg || c / 84 == die) := rfl

theorem metBy_of_not {d : Data} {pkg : Bool} {die k : Nat} {g : Group} (h : ∀ n w, g.st ≠ .counter pkg n w) :
    metBy d pkg die k g = false := by
  unfold metBy
  split
  · next p n v e =>
    rw [Bool.and_eq_false_iff, Bool.and_eq_false_iff]
    refine .inl (.inl (beq_eq_false_iff_ne.2 ?_))
    rintro rfl
    exact h n v e
  · rfl

theorem mem_cores_of_group {d : Data} {c i : Nat} {g : Group} (h : d.group c i = some g) : c ∈ d.cores.map fun e => e.1 := by
  rw [Data.group, Data.core, mgetD] at h
  cases hc : mget d.cores c with
  | none => rw [hc] at h; simp [Core.empty] at h
  | some k => exact List.mem_map.2 ⟨_, mget_mem hc, rfl⟩

theorem counterBarrierMet_wakes (s : State) (pkg : Bool) (die k c slot : Nat) (g : Group) (v : W32)
    (hg : s.body.data.group c slot = some g) (hst : g.st = .counter pkg k v) (hm : g.mgmt = false) (hs : g.stop = false)
    (hk : inPass (s.body.data.core c) = false) (hc : pkg = true ∨ c / 84 = die)
    (hv : 0 ≤ (s.body.data.counterVal pkg die k - v).toInt) (hq : s.body.quiet = true) :
    ∃ t, exec (.counterBarrierMet pkg die k) s = .next t ∧
      t.body.data.group c slot = some g.woken ∧ (t.body.data.core c).near = [] ∧
      (∀ c' i h, s.body.data.group c' i = some h → (∀ n w, h.st ≠ .counter pkg n w) → t.body.data.group c' i = some h) := by
  have hrest := wakeAll_rest (metBy s.body.data pkg die k) ((s.body.data.cores.map fun e => e.1).filter fun c => pkg || c / 84 == die)
    s.body.data
  obtain ⟨t, ht, hmute⟩ := runD_next_of_cores (c := .counterBarrierMet pkg die k) (counterBarrierMet_runs s pkg die k) hq
    (d := wakeAll s.body.data (metBy s.body.data pkg die k) ((s.body.data.cores.map fun e => e.1).filter fun c => pkg || c / 84 == die))
    (fun e he => by
      obtain ⟨ps, cs, rfl⟩ := he
      exact wakeAll_mute ⟨ps, cs, rfl⟩ _ _)
    hrest
  have hmet : metBy s.body.data pkg die k g = true := by
    simp only [metBy, hst, beq_self_eq_true, counterMet, hv, decide_true, Bool.and_self]
  have hmem : c ∈ (s.body.data.cores.map fun e => e.1).filter fun c => pkg || c / 84 == die :=
    List.mem_filter.2 ⟨mem_cores_of_group hg, by simpa using hc⟩
  obtain ⟨h1, h2⟩ := wakeAll_group_hit _ _ _ hmem hg hmet (metBy_of_not fun n w => by rw [woken_st]; exact nofun) hm hs hk
  refine ⟨t, ht, (hmute.group c slot).trans h1, by rw [hmute.core]; exact h2, fun c' i h hg' hst' => ?_⟩
  exact (hmute.group c' i).trans (wakeAll_group_of_not _ _ _ hg' (metBy_of_not hst'))

/-- A group awaits pigeonhole `ph`, whose doorbell sequence is not the one it knows. -/
def rungBy (ph : Nat) (q : W32) (g : Group) : Bool :=
  match g.st with
  | .await h e => h == ph && q != e
  | _ => false

theorem rungBy_of_not {ph : Nat} {q : W32} {g : Group} (h : ∀ x, g.st ≠ .await ph x) : rungBy ph q g = false := by
  unfold rungBy
  split
  · next k e he =>
    rw [Bool.and_eq_false_iff]
    refine .inl (beq_eq_false_iff_ne.2 ?_)
    rintro rfl
    exact h e he
  · rfl

theorem awaitWake_runs (s : State) (core ph : Nat) : ∃ f, execAwaitWake core ph s = s.runD f ∧
    ∀ beat d q, d.doorbellSeq ph = some q → f beat d = wake d core (rungBy ph q) := by
  refine ⟨_, rfl, fun beat d q h => ?_⟩
  rw [h]
  exact Eq.refl _

theorem awaitWake_wakes (s : State) (core ph slot : Nat) (g : Group) (e q : W32) (hd : s.body.data.doorbellSeq ph = some q)
    (hg : s.body.data.group core slot = some g) (hst : g.st = .await ph e) (hne : q ≠ e) (hm : g.mgmt = false) (hs : g.stop = false)
    (hk : inPass (s.body.data.core core) = false) (hq : s.body.quiet = true) :
    ∃ t, exec (.awaitWake core ph) s = .next t ∧
      t.body.data.group core slot = some g.woken ∧ (t.body.data.core core).near = [] ∧
      (∀ c' i h, s.body.data.group c' i = some h → (∀ x, h.st ≠ .await ph x) → t.body.data.group c' i = some h) := by
  obtain ⟨f, hf, hfd⟩ := awaitWake_runs s core ph
  have hrest := wake_rest s.body.data core (rungBy ph q)
  obtain ⟨t, ht, hmute⟩ := runD_next_of_cores (c := .awaitWake core ph) hf hq (d := wake s.body.data core (rungBy ph q))
    (fun e he => by
      have hde : e.doorbellSeq ph = some q := by obtain ⟨ps, cs, rfl⟩ := he; exact hd
      rw [hfd _ e q hde]
      exact wake_mute he _ _)
    hrest
  have hhit : rungBy ph q g = true := by simp [rungBy, hst, hne]
  obtain ⟨h1, h2⟩ := wake_group_hit hg hhit hm hs hk
  refine ⟨t, ht, (hmute.group core slot).trans h1, by rw [hmute.core]; exact h2, fun c' i h hg' hst' => ?_⟩
  exact (hmute.group c' i).trans (wake_group_of_not _ _ _ hg' (rungBy_of_not hst'))

/-! ### Management parks -/

theorem parkReason_congr {a b : Body} (hd : a.data.Mute b.data) (hp : b.pw = a.pw) (c plot : Nat) :
    parkReason b c plot = parkReason a c plot := by
  obtain ⟨ps, cs, hd⟩ := hd
  unfold parkReason
  rw [hd, hp]
  rfl

/-- A group's park as the management plane's reason stands. -/
def parkedFor (b : Body) (c : Nat) (on : Bool) (g : Group) : Group :=
  let why := parkReason b c (((mget (b.data.core c).blocks g.block).map fun x => x.plot).getD 64)
  if on then (if why then { g with mgmt := true, act := false } else g) else (if why then g else { g with mgmt := false })

/-- A core with its groups' parks so. -/
def parkedCore (b : Body) (c : Nat) (on : Bool) : Core :=
  { b.data.core c with groups := mmap (b.data.core c).groups fun _ g => parkedFor b c on g }

theorem parkCore_eq {b : Body} {c i : Nat} {g : Group} (on : Bool) (hg : b.data.group c i = some g) :
    parkCore b c on = { b with data := b.data.setCore c (parkedCore b c on) } := by
  have h : (b.data.core c).groups ≠ [] := by
    intro h
    rw [Data.group, h] at hg
    exact absurd hg (by simp)
  unfold parkCore
  dsimp only
  rw [if_neg h]
  rfl

theorem parkCore_group {b : Body} {c i : Nat} {g : Group} (on : Bool) (hg : b.data.group c i = some g) :
    (parkCore b c on).data.group c i = some (parkedFor b c on g) := by
  have hc : (parkCore b c on).data.core c = parkedCore b c on := by
    rw [parkCore_eq on hg]
    exact core_setCore_self _ _ _
  rw [Data.group] at hg
  rw [Data.group, hc, parkedCore, mget_mmap, hg, Option.map_some]

theorem quiet_parkCore {b : Body} {c i : Nat} {g : Group} (on : Bool) (hg : b.data.group c i = some g) :
    (parkCore b c on).quiet = b.quiet := by
  rw [parkCore_eq on hg]
  exact quiet_congr rfl rfl rfl rfl rfl

theorem parkedFor_congr {a b : Body} (hd : a.data.Mute b.data) (hp : b.pw = a.pw) (c : Nat) (on : Bool) (g : Group) :
    parkedFor b c on g = parkedFor a c on g := by
  simp only [parkedFor, hd.core, parkReason_congr hd hp]

theorem park_group (s : State) (core slot : Nat) (g : Group) (on : Bool) (hg : s.body.data.group core slot = some g)
    (hq : s.body.quiet = true) : ∃ t, (s.runB fun _ b => parkCore b core on) = .next t ∧
      t.body.data.group core slot = some (parkedFor s.body core on g) := by
  have hl := like_finish hq
  have hg₁ : s.finish.body.data.group core slot = some g := (Data.Mute.group hl.data core slot).trans hg
  have hq₁ : (parkCore s.finish.body core on).quiet = true := (quiet_parkCore on hg₁).trans (finish_quiet hq)
  have hl₂ := like_finish (s := { s.finish with body := parkCore s.finish.body core on }) hq₁
  refine ⟨_, rfl, (Data.Mute.group hl₂.data core slot).trans ((parkCore_group on hg₁).trans ?_)⟩
  rw [parkedFor_congr hl.data hl.pw]

/-- Settles O21: a wait that has ended lets its groups go on, and parks follow the management plane's reasons. -/
theorem waitsThatEnd : Obligations.WaitsThatEnd := by
  unfold Obligations.WaitsThatEnd
  refine ⟨?_, ?_, ?_⟩
  · intro s pkg die k c slot g v d hg hst hm hs hk hc hv hq
    exact counterBarrierMet_wakes s pkg die k c slot g v hg hst hm hs hk hc hv hq
  · intro s core ph slot g e q d hd hg hst hne hm hs hk hq
    exact awaitWake_wakes s core ph slot g e q hd hg hst hne hm hs hk hq
  · intro s core slot g hg hq why
    exact ⟨park_group s core slot g true hg hq, park_group s core slot g false hg hq⟩

/-! ### Dispositions -/

theorem mget_of_mem {α : Type} {m : SMap α} (hr : Rising m) {k : Nat} {x : α} (h : (k, x) ∈ m) : mget m k = some x := by
  induction m with
  | nil => exact absurd h List.not_mem_nil
  | cons e m ih =>
    obtain ⟨hlt, hr'⟩ := List.pairwise_cons.1 hr
    obtain rfl | hm := List.mem_cons.1 h
    · simp [mget]
    · have hk := hlt k (List.mem_map.2 ⟨_, hm, rfl⟩)
      rw [mget, if_neg (Nat.ne_of_lt hk)]
      exact ih hr' hm

theorem mmod_congr_of_rising {α : Type} {m : SMap α} {k : Nat} {x : α} {f g : α → α} (hr : Rising m) (h : mget m k = some x)
    (hfg : f x = g x) : mmod m k f = mmod m k g := by
  unfold mmod
  refine List.map_congr_left fun e he => ?_
  by_cases hk : e.1 = k
  · rw [if_pos hk, if_pos hk]
    have : e.2 = x := Option.some.inj ((mget_of_mem hr (hk ▸ he)).symm.trans h)
    rw [this, hfg]
  · rw [if_neg hk, if_neg hk]

theorem mmod_mmod {α : Type} (m : SMap α) (k : Nat) (f g : α → α) : mmod (mmod m k f) k g = mmod m k fun x => g (f x) := by
  unfold mmod
  rw [List.map_map]
  refine List.map_congr_left fun e _ => ?_
  by_cases hk : e.1 = k <;> simp [hk]

/-- A context has one record in its ring, of an issue-time fault, no notice, of a group that is there; its disposition is `x`. -/
structure OneRecord (d : Data) (ctx : Nat) (c : Ctx) (q : Nat) (r : FaultRec) (g : Group) (x : Byte) : Prop where
  rising : Rising d.ctxs
  here : mget d.ctxs ctx = some c
  posted : c.posted = [(q, r)]
  held : c.held = []
  notice : r.notice = false
  mode : r.mode = .instr
  fresh : c.writeSeq ≤ q + 2 ^ c.ringLog2
  group : d.recGroup r = some g
  read : d.devRead (d.ctxPlot ctx) ((c.ring + 64 * (1 + q % 2 ^ c.ringLog2) + 55) % 2 ^ 40) 1 = some [x]

section Dispositions

variable {d : Data} {ctx : Nat} {c : Ctx} {q : Nat} {r : FaultRec} {g : Group} {x : Byte}

theorem OneRecord.of_mute {e : Data} (h : OneRecord d ctx c q r g x) (hm : d.Mute e) : OneRecord e ctx c q r g x := by
  obtain ⟨ps, cs, rfl⟩ := hm
  exact ⟨h.rising, h.here, h.posted, h.held, h.notice, h.mode, h.fresh, h.group, h.read⟩

theorem OneRecord.reads (h : OneRecord d ctx c q r g x) :
    readDisps d ctx c c.posted = (d, [{ seq := q, rec_ := r, disp := x.toNat }]) := by
  have hr := h.read
  rw [h.posted, readDisps, if_pos h.fresh]
  simp only [Data.sRead, Data.sBytes, recAddr, hr, readDisps, Option.map_some, Option.getD_some, leNat, Nat.mul_zero, Nat.add_zero]

/-- The record with the disposition `n`. -/
def disposed (q : Nat) (r : FaultRec) (n : Nat) : Disposed := { seq := q, rec_ := r, disp := n }

/-- Which group a record names. -/
def FaultRec.key (r : FaultRec) : Nat × Nat × Nat := (r.core, r.slot, r.age)

theorem resetNotices_of_not (d : Data) (ctx : Nat) (c : Ctx) (n : Nat) (h : r.notice = false) :
    resetNotices d ctx c [disposed q r n] = d := by
  simp [resetNotices, disposed, h]

theorem blocksOf_of_ne (d : Data) {n k : Nat} (h : n ≠ k) : blocksOf d [disposed q r n] k = [] := by
  simp [blocksOf, disposed, h]

theorem replayable_one (h : c.held = []) (hm : r.mode = .instr) (n : Nat) :
    replayable c [disposed q r n] = if n = 1 then [r.key] else [] := by
  have he : [r.key].eraseDups = [r.key] := by simp [List.eraseDups_cons]
  simp only [replayable, disposed, List.map_cons, List.map_nil, h, List.all_nil, Bool.and_true]
  rw [show (r.core, r.slot, r.age) = r.key from rfl, he]
  by_cases hn : n = 1
  · subst hn
    simp [refusedDisp, hm, FaultRec.key]
  · simp [hn, FaultRec.key]

theorem filter_one {α : Type} {p : α → Bool} {x : α} (h : p x = true) : [x].filter p = [x] := by simp [h]

theorem filter_none {α : Type} {p : α → Bool} {x : α} (h : p x = false) : [x].filter p = [] := by simp [h]

theorem replayFits_one (d : Data) (k : Nat) (hm : r.mode = .instr) : replayFits d k [r] = true := by
  simp [replayFits, hm]

theorem replayGroup_one (hg : d.recGroup r = some g) (hm : r.mode = .instr) :
    replayGroup d r.core r.slot [r] = d.setGroup r.core r.slot { g with st := .run } := by
  obtain ⟨g', hg', h⟩ := Option.bind_eq_some_iff.1 hg
  obtain rfl : g' = g := by
    split at h
    · exact Option.some.inj h
    · exact absurd h nofun
  simp [replayGroup, hg', hm]

theorem OneRecord.posted_kept (h : OneRecord d ctx c q r g x) (e : Data) (he : (e.recGroup r).isSome = true) :
    (mfilter c.posted fun q r => if r.notice then decide (c.writeSeq ≤ q + 2 ^ c.ringLog2) else (e.recGroup r).isSome) = c.posted := by
  rw [h.posted]
  exact filter_one (by simp [h.notice, he])

theorem filter_there {d : Data} (hs : (d.recGroup r).isSome = true) (n : Nat) :
    [disposed q r n].filter (fun x => (d.recGroup x.rec_).isSome) = [disposed q r n] := filter_one hs

theorem filter_noRestart {n : Nat} (h : n ≠ 2) :
    [disposed q r n].filter (fun x => x.disp != 2) = [disposed q r n] := filter_one (bne_iff_ne.2 h)

theorem filter_noNotice (h : r.notice = false) (n : Nat) :
    [disposed q r n].filter (fun x => !x.rec_.notice) = [disposed q r n] := filter_one (by simp [disposed, h])

theorem filter_key (n : Nat) :
    [disposed q r n].filter (fun x => (x.rec_.core, x.rec_.slot, x.rec_.age) == r.key) = [disposed q r n] :=
  filter_one (by simp [disposed, FaultRec.key])

theorem OneRecord.dispose_zero (h : OneRecord d ctx c q r g 0) :
    disposeAll d ctx c = { d with ctxs := mmod d.ctxs ctx fun y => { y with rung := false } } := by
  have hs : (d.recGroup r).isSome = true := by rw [h.group]; rfl
  have hl : readDisps d ctx c c.posted = (d, [disposed q r 0]) := h.reads
  unfold disposeAll
  rw [hl]
  dsimp only
  rw [resetNotices_of_not d ctx c 0 h.notice, filter_noNotice h.notice, if_neg (by simp [disposed]),
    blocksOf_of_ne d (by decide), List.foldl_nil, blocksOf_of_ne d (by decide), List.foldl_nil]
  dsimp only
  rw [filter_there hs, filter_noRestart (by decide), replayable_one h.held h.mode, if_neg (by decide), List.foldl_nil]
  dsimp only
  rw [filter_none (by simp [refusedDisp, disposed]), List.foldl_nil]
  refine congrArg (fun m : SMap Ctx => ({ d with ctxs := m } : Data)) (mmod_congr_of_rising h.rising h.here ?_)
  exact congrArg (fun m => ({ c with rung := false, posted := m } : Ctx)) (h.posted_kept d hs)

theorem OneRecord.dispose_one (h : OneRecord d ctx c q r g 1) :
    disposeAll d ctx c =
      { d.setGroup r.core r.slot { g with st := .run } with ctxs := mmod d.ctxs ctx fun y => { y with rung := false, posted := [] } } := by
  have hs : (d.recGroup r).isSome = true := by rw [h.group]; rfl
  have hl : readDisps d ctx c c.posted = (d, [disposed q r 1]) := h.reads
  unfold disposeAll
  rw [hl]
  dsimp only
  rw [resetNotices_of_not d ctx c 1 h.notice, filter_noNotice h.notice, if_neg (by simp [disposed]),
    blocksOf_of_ne d (by decide), List.foldl_nil, blocksOf_of_ne d (by decide), List.foldl_nil]
  dsimp only
  rw [filter_there hs, filter_noRestart (by decide), replayable_one h.held h.mode, if_pos rfl, List.foldl_cons, List.foldl_nil]
  rw [if_neg (by simp [disposed]), filter_key, List.map_cons, List.map_nil]
  have hfit : replayFits d r.key.1 [(disposed q r 1).rec_] = true := replayFits_one d _ h.mode
  rw [if_neg (by rw [hfit]; decide)]
  dsimp only
  rw [filter_none (by simp [refusedDisp, disposed, h.mode]), List.foldl_nil]
  have hr : replayGroup d r.key.1 r.key.2.1 [(disposed q r 1).rec_] = d.setGroup r.core r.slot { g with st := .run } :=
    replayGroup_one h.group h.mode
  rw [hr, mmod_mmod]
  refine congrArg (fun m : SMap Ctx => ({ d.setGroup r.core r.slot { g with st := .run } with ctxs := m } : Data))
    (mmod_congr_of_rising h.rising h.here ?_)
  refine congrArg (fun m => ({ c with rung := false, posted := m } : Ctx)) ?_
  simp [mfilter, h.posted, h.notice, FaultRec.key]

end Dispositions

theorem disposition_runs (s : State) (ctx : Nat) : ∃ f, execFaultDispositionProcess ctx s = s.runD f ∧
    ∀ beat d c, mget d.ctxs ctx = some c → c.rung = true → d.halted = false → f beat d = disposeAll d ctx c := by
  refine ⟨_, rfl, fun beat d c hc hr hh => ?_⟩
  rw [hc]
  dsimp only
  rw [if_pos (by simp [hr, hh])]

/-- Settles O22: a replay lets the group issue again, and a record without a disposition stays in the ring. -/
theorem dispositions : Obligations.Dispositions := by
  unfold Obligations.Dispositions
  intro s ctx c q r g x d hrise hc hrung hhalt hposted hheld hnot hmode hfresh hgroup hread hq
  have hone : OneRecord d ctx c q r g x := ⟨hrise, hc, hposted, hheld, hnot, hmode, hfresh, hgroup, hread⟩
  obtain ⟨f, hf, hd⟩ := disposition_runs s ctx
  have he (e : Data) (hm : d.Mute e) : f s.alm.beat e = disposeAll e ctx c := by
    obtain ⟨ps, cs, rfl⟩ := hm
    exact hd _ _ c hc hrung hhalt
  refine ⟨?_, ?_⟩
  · rintro rfl
    refine acts_of_mute hf fun e hm => ?_
    rw [he e hm, (hone.of_mute hm).dispose_one]
    obtain ⟨ps, cs, rfl⟩ := hm
    exact ⟨ps, cs, rfl⟩
  · rintro rfl
    refine acts_of_mute hf fun e hm => ?_
    rw [he e hm, (hone.of_mute hm).dispose_zero]
    obtain ⟨ps, cs, rfl⟩ := hm
    exact ⟨ps, cs, rfl⟩

end Sys2Proof.Machine
end

section
/-! The matrix array: its ramp, notices, and what its queued instructions leave. -/

namespace Sys2Proof.Machine

/-! ### Updates that leave a quiet body quiet -/

/-- `l'` is as `l` in all that says whether its iteration is over. -/
structure Launch.Steady (l l' : Launch) : Prop where
  open_ : l'.open_ = l.open_
  aborted : l'.aborted = l.aborted
  nodes : l'.nodes = l.nodes
  digests : l'.digests = l.digests
  ctx : l'.ctx = l.ctx
  jgen : l'.jgen = l.jgen

theorem Launch.Steady.refl (l : Launch) : l.Steady l := ⟨rfl, rfl, rfl, rfl, rfl, rfl⟩

theorem Launch.Steady.trans {a b c : Launch} (h : a.Steady b) (k : b.Steady c) : a.Steady c :=
  ⟨k.open_.trans h.open_, k.aborted.trans h.aborted, k.nodes.trans h.nodes, k.digests.trans h.digests, k.ctx.trans h.ctx,
    k.jgen.trans h.jgen⟩

/-- Nothing falls due from `d` to `e`. -/
structure Data.Calm (d e : Data) : Prop where
  abort : e.abortPend = d.abortPend
  irqs : e.irqs = d.irqs
  ctxs : ∀ n, (mget e.ctxs n).isSome = (mget d.ctxs n).isSome
  launches : ∀ x ∈ e.launches, ∃ y ∈ d.launches, y.2.Steady x.2

namespace Data.Calm

theorem of_same {d e : Data} (ha : e.abortPend = d.abortPend) (hi : e.irqs = d.irqs) (hc : e.ctxs = d.ctxs)
    (hl : e.launches = d.launches) : d.Calm e :=
  ⟨ha, hi, fun n => by rw [hc], fun x hx => ⟨x, hl ▸ hx, Launch.Steady.refl _⟩⟩

theorem refl (d : Data) : d.Calm d := of_same rfl rfl rfl rfl

theorem trans {a b c : Data} (h : a.Calm b) (k : b.Calm c) : a.Calm c :=
  ⟨k.abort.trans h.abort, k.irqs.trans h.irqs, fun n => (k.ctxs n).trans (h.ctxs n), fun x hx => by
    obtain ⟨y, hy, h₁⟩ := k.launches x hx
    obtain ⟨z, hz, h₂⟩ := h.launches y hy
    exact ⟨z, hz, h₂.trans h₁⟩⟩

theorem of_mute {d e : Data} (h : d.Mute e) : d.Calm e := by
  obtain ⟨ps, cs, rfl⟩ := h
  exact of_same rfl rfl rfl rfl

theorem setCore (d : Data) (c : Nat) (k : Core) : d.Calm (d.setCore c k) := of_same rfl rfl rfl rfl

theorem modLaunch {d : Data} (n : Nat) {f : Launch → Launch} (hf : ∀ l : Launch, l.Steady (f l)) : d.Calm (d.modLaunch n f) := by
  refine ⟨rfl, rfl, fun _ => rfl, fun x hx => ?_⟩
  simp only [Data.modLaunch, mmod, List.mem_map] at hx
  obtain ⟨y, hy, rfl⟩ := hx
  refine ⟨y, hy, ?_⟩
  split
  · exact hf y.2
  · exact Launch.Steady.refl _

theorem holdRec (d : Data) (ctx launch : Nat) (r : FaultRec) : d.Calm (d.holdRec ctx launch r) := by
  refine ⟨rfl, rfl, fun n => ?_, fun x hx => ?_⟩
  · simp only [Data.holdRec, mget_mmod]
    split_ifs <;> simp
  · simp only [Data.holdRec, mmod, List.mem_map] at hx
    obtain ⟨y, hy, rfl⟩ := hx
    refine ⟨y, hy, ?_⟩
    split
    · exact ⟨rfl, rfl, rfl, rfl, rfl, rfl⟩
    · exact Launch.Steady.refl _

theorem quiet {a b : Body} (h : a.data.Calm b.data) (hj : b.sj = a.sj) (hq : a.quiet = true) : b.quiet = true := by
  obtain ⟨h1, h2, h3⟩ := (quiet_iff a).1 hq
  refine (quiet_iff b).2 ⟨h.abort.trans h1, h.irqs.trans h2, fun e he => ?_⟩
  obtain ⟨y, hy, hs⟩ := h.launches e he
  obtain ⟨b₁, b₂, b₃⟩ := h3 y hy
  refine ⟨?_, by rw [hs.open_, hs.aborted]; exact b₂, by rw [hs.ctx, h.ctxs]; exact b₃⟩
  have hjo : b.journalOf e.2 = a.journalOf y.2 := by simp only [Body.journalOf, hj, hs.ctx, hs.jgen]
  rw [← b₁]
  simp only [Body.iterOver, Body.digestsDue, hjo, hs.open_, hs.aborted, hs.nodes, hs.digests]

end Data.Calm

/-- A command's step from a quiet body, where nothing falls due by what it does. -/
theorem runB_next {c : Instr} {s : State} {f : Nat → Body → Body} {P : Data → Prop} (he : exec c s = s.runB f)
    (hq : s.body.quiet = true)
    (hf : ∀ s' : State, Like s s' → s'.body.data.Calm (f s.alm.beat s'.body).data ∧ (f s.alm.beat s'.body).sj = s'.body.sj ∧
      P (f s.alm.beat s'.body).data)
    (hP : ∀ d e : Data, d.Mute e → P d → P e) : ∃ t, exec c s = .next t ∧ P t.body.data := by
  have hl := like_finish hq
  obtain ⟨h1, h2, h3⟩ := hf s.finish hl
  have hq' : (f s.alm.beat s.finish.body).quiet = true := h1.quiet h2 (finish_quiet hq)
  have ha : s.finish.alm = s.alm := hl.alm
  refine ⟨({ s.finish with body := f s.alm.beat s.finish.body } : State).finish, ?_, ?_⟩
  · rw [he]
    show Host.Outcome.next ({ s.finish with body := f s.finish.alm.beat s.finish.body } : State).finish = _
    rw [ha]
  · exact hP _ _ (finish_data (s := { s.finish with body := f s.alm.beat s.finish.body }) hq') h3

/-- The same of a command that works on the data plane alone. -/
theorem runD_next_of_calm {c : Instr} {s : State} {f : Nat → Data → Data} {d : Data} (he : exec c s = s.runD f)
    (hq : s.body.quiet = true) (hf : ∀ e, s.body.data.Mute e → d.Mute (f s.alm.beat e)) (hc : s.body.data.Calm d) :
    ∃ t, exec c s = .next t ∧ d.Mute t.body.data := by
  refine runB_next (f := fun n b => { b with data := f n b.data }) (P := d.Mute) he hq (fun s' hl => ?_) fun _ _ h k => k.trans h
  have hm := hf _ hl.data
  exact ⟨(Data.Calm.of_mute (Data.Mute.symm hl.data)).trans (hc.trans (.of_mute hm)), rfl, hm⟩

/-- A command that works on the body and changes the data plane alone. -/
theorem acts_of_runB {c : Instr} {s : State} {f : Nat → Body → Body} {d : Data} (he : exec c s = s.runB f)
    (hf : ∀ s' : State, Like s s' → ∃ e, f s.alm.beat s'.body = { s'.body with data := e } ∧ d.Mute e) : Acts c s d := by
  refine does_of_run (f := fun s => { s with body := f s.alm.beat s.body }) he fun s' hs => ?_
  obtain ⟨e, h, hm⟩ := hf s' hs
  have h' : f s'.alm.beat s'.body = { s'.body with data := e } := by rw [hs.alm]; exact h
  rw [h']
  exact ⟨⟨hs.pending, hs.alm, hs.latch, hs.mg, hs.host, hs.mgdb, hs.fab, hs.pw, hs.replay, hm, hs.md, hs.hl⟩, rfl⟩

/-! ### The ramp -/

theorem Data.Mute.setCore {d e : Data} (h : d.Mute e) (c : Nat) (k : Core) : (d.setCore c k).Mute (e.setCore c k) :=
  h.of_comm (f := fun d => d.setCore c k) fun _ _ => rfl

theorem Data.Mute.halted {d e : Data} (h : d.Mute e) : e.halted = d.halted := by obtain ⟨ps, cs, rfl⟩ := h; rfl

theorem Like.uv {s t : State} (h : Like s t) : t.body.md.uv = s.body.md.uv := by obtain ⟨_, _, _, _, _, e⟩ := h.md; rw [e]

theorem arrayLeaveIdle_acts (s : State) (core : Nat) (hi : (s.body.data.core core).arrSt = .idle)
    (hm : mmaNext (s.body.data.core core) = true) (hh : s.body.data.halted = false) (hp : inPass (s.body.data.core core) = false)
    (hu : s.body.md.uv = false) (hs : s.body.pw.mask = 0x3FF) : Acts (.arrayLeaveIdle core) s
      (s.body.data.setCore core { s.body.data.core core with arrSt := .rampUp, rows := 1, rampWait := false }) := by
  refine acts_of_runB (f := fun _ b =>
    let d := b.data
    let k := d.core core
    if k.arrSt == .idle && mmaNext k && !d.halted && !inPass k && !b.md.uv then
      let open_ := b.pw.mask == 0x3FF || (b.pw.mask != 0 && Config.freeBool d.free)
      let d := if b.pw.mask = 0x3FF then d else { d with free := d.free + 1 }
      if open_ then { b with data := d.setCore core { k with arrSt := .rampUp, rows := 1, rampWait := false } }
      else if k.rampWait then { b with data := d }
      else { b with data := d.setCore core { k with rampWait := true }, pw := { b.pw with rampN := mput b.pw.rampN (core / 84) (mgetD b.pw.rampN (core / 84) 0 + 1) } }
    else b) rfl fun s' hl => ?_
  have hd : s.body.data.Mute s'.body.data := hl.data
  have hpw := hl.pw
  refine ⟨_, ?_, hd.setCore _ _⟩
  dsimp only
  rw [if_pos (by simp [hd.core, hd.halted, hl.uv, hi, hm, hh, hp, hu])]
  rw [hpw, hs, if_pos rfl, if_pos (by simp), hd.core]

theorem arrayRampStep_runs (s : State) (core : Nat) : ∃ f, execArrayRampStep core s = s.runD f ∧ ∀ beat d,
    ((d.core core).arrSt = .rampUp → f beat d = d.setCore core (if 8 ≤ (d.core core).rows
      then { d.core core with arrSt := if (d.core core).arrQ.any fun o => o.kind == .mma then .active else .hold }
      else { d.core core with rows := (d.core core).rows + 1 })) ∧
    ((d.core core).arrSt = .rampDown → f beat d = d.setCore core (if (d.core core).rows = 0
      then { d.core core with arrSt := .idle } else { d.core core with rows := (d.core core).rows - 1 })) := by
  refine ⟨_, rfl, fun beat d => ⟨fun h => ?_, fun h => ?_⟩⟩ <;>
  · dsimp only
    rw [h]

theorem arrayHoldExpiry_runs (s : State) (core : Nat) : ∃ f, execArrayHoldExpiry core s = s.runD f ∧ ∀ beat d,
    (d.core core).arrSt = .hold → f beat d = d.setCore core { d.core core with arrSt := .rampDown, rows := 7 } := by
  refine ⟨_, rfl, fun beat d h => ?_⟩
  dsimp only
  rw [if_pos h]

/-- A command that replaces a core, by what the core holds. -/
theorem acts_of_setCore {c : Instr} {s : State} {f : Nat → Data → Data} {core : Nat} {k : Core} (he : exec c s = s.runD f)
    (hf : ∀ d : Data, d.core core = s.body.data.core core → f s.alm.beat d = d.setCore core k) :
    Acts c s (s.body.data.setCore core k) :=
  acts_of_mute he fun e hm => by
    rw [hf e (hm.core core)]
    exact hm.setCore core k

theorem ramp (s : State) (core : Nat) : let k := s.body.data.core core
    (k.arrSt = .rampUp → k.rows < 8 → Acts (.arrayRampStep core) s (s.body.data.setCore core { k with rows := k.rows + 1 })) ∧
    (k.arrSt = .rampUp → 8 ≤ k.rows → Acts (.arrayRampStep core) s (s.body.data.setCore core
      { k with arrSt := if k.arrQ.any (fun o => o.kind == .mma) = true then .active else .hold })) ∧
    (k.arrSt = .rampDown → 0 < k.rows → Acts (.arrayRampStep core) s (s.body.data.setCore core { k with rows := k.rows - 1 })) ∧
    (k.arrSt = .rampDown → k.rows = 0 → Acts (.arrayRampStep core) s (s.body.data.setCore core { k with arrSt := .idle })) ∧
    (k.arrSt = .hold → Acts (.arrayHoldExpiry core) s (s.body.data.setCore core { k with arrSt := .rampDown, rows := 7 })) := by
  intro k
  obtain ⟨f, hf, hs⟩ := arrayRampStep_runs s core
  obtain ⟨g, hg, hh⟩ := arrayHoldExpiry_runs s core
  refine ⟨fun h hr => ?_, fun h hr => ?_, fun h hr => ?_, fun h hr => ?_, fun h => ?_⟩
  · refine acts_of_setCore (c := .arrayRampStep core) hf fun d hd => ?_
    rw [(hs _ d).1 (hd ▸ h), hd, if_neg (Nat.not_le.2 hr)]
  · refine acts_of_setCore (c := .arrayRampStep core) hf fun d hd => ?_
    rw [(hs _ d).1 (hd ▸ h), hd, if_pos hr]
  · refine acts_of_setCore (c := .arrayRampStep core) hf fun d hd => ?_
    rw [(hs _ d).2 (hd ▸ h), hd, if_neg (Nat.ne_of_gt hr)]
  · refine acts_of_setCore (c := .arrayRampStep core) hf fun d hd => ?_
    rw [(hs _ d).2 (hd ▸ h), hd, if_pos hr]
  · refine acts_of_setCore (c := .arrayHoldExpiry core) hg fun d hd => ?_
    rw [hh _ d (hd ▸ h), hd]

/-! ### Notices -/

/-- A notice of a launch becomes a record: `f` takes it from the launch. -/
def Data.noticed (d : Data) (launch ctx : Nat) (f : Launch → Launch) (r : FaultRec) : Data :=
  (d.modLaunch launch f).holdRec ctx launch r

theorem noticed_next {c : Instr} {s : State} {g : Nat → Data → Data} {launch : Nat} {l : Launch} {x : Ctx} {r : FaultRec}
    {f : Launch → Launch} (he : exec c s = s.runD g) (hl : mget s.body.data.launches launch = some l)
    (hx : mget s.body.data.ctxs l.ctx = some x) (hq : s.body.quiet = true) (hf : ∀ l : Launch, l.Steady (f l))
    (hg : ∀ d : Data, d.anyLaunch launch = some l → g s.alm.beat d = d.noticed launch l.ctx f r) :
    ∃ t c' l', exec c s = .next t ∧ mget t.body.data.ctxs l.ctx = some c' ∧ c'.held = x.held ++ [r] ∧
      mget t.body.data.launches launch = some l' ∧ l' = { f l with faults := (f l).faults + 1 } := by
  obtain ⟨t, ht, hm⟩ := runD_next_of_calm (d := s.body.data.noticed launch l.ctx f r) he hq (fun e hm => by
      obtain ⟨ps, cs, rfl⟩ := hm
      have ha : ({ s.body.data with posts := ps, corrected := cs } : Data).anyLaunch launch = some l := by
        simp only [Data.anyLaunch, hl]
      rw [hg _ ha]
      exact ⟨ps, cs, rfl⟩) ((Data.Calm.modLaunch launch hf).trans (.holdRec _ _ _ _))
  obtain ⟨ps, cs, ht'⟩ := hm
  refine ⟨t, { x with held := x.held ++ [r] }, _, ht, ?_, rfl, ?_, rfl⟩
  · rw [ht']
    simp only [Data.noticed, Data.holdRec, Data.modLaunch, mget_mmod, if_pos, hx, Option.map_some]
  · rw [ht']
    simp only [Data.noticed, Data.holdRec, Data.modLaunch, mget_mmod, if_pos, hl, Option.map_some]

theorem satNotice_runs (s : State) (launch : Nat) : ∃ f, execSatNotice launch s = s.runD f ∧ ∀ beat d l r,
    d.anyLaunch launch = some l → l.satNotice = some r →
      f beat d = d.noticed launch l.ctx (fun l => { l with satNotice := none }) r := by
  refine ⟨_, rfl, fun beat d l r hl hr => ?_⟩
  rw [hl]
  dsimp only
  rw [hr]
  exact Eq.refl _

theorem nanNotice_runs (s : State) (launch : Nat) : ∃ f, execNanNotice launch s = s.runD f ∧ ∀ beat d l r,
    d.anyLaunch launch = some l → l.nanNotice = some r →
      f beat d = d.noticed launch l.ctx (fun l => { l with nanNotice := none }) r := by
  refine ⟨_, rfl, fun beat d l r hl hr => ?_⟩
  rw [hl]
  dsimp only
  rw [hr]
  exact Eq.refl _

/-- Settles O24: the array's activity goes through its ramp, and a launch's notice becomes a record. -/
theorem rampAndNotices : Obligations.RampAndNotices := by
  unfold Obligations.RampAndNotices
  refine ⟨⟨?_, ramp⟩, ?_⟩
  · intro s core k hi hm hh hp hu hs
    exact arrayLeaveIdle_acts s core hi hm hh hp hu hs
  intro s launch l c r hl hc hq
  obtain ⟨f, hf, hs⟩ := satNotice_runs s launch
  obtain ⟨g, hg, hn⟩ := nanNotice_runs s launch
  refine ⟨fun hr => ?_, fun hr => ?_⟩
  · exact noticed_next (c := .satNotice launch) (f := fun l => { l with satNotice := none }) hf hl hc hq (fun l => ⟨rfl, rfl, rfl, rfl, rfl, rfl⟩)
      fun d hd => hs _ d l r hd hr
  · exact noticed_next (c := .nanNotice launch) (f := fun l => { l with nanNotice := none }) hg hl hc hq (fun l => ⟨rfl, rfl, rfl, rfl, rfl, rfl⟩)
      fun d hd => hn _ d l r hd hr

/-! ### The array's queue and sets -/

@[simp] theorem set_setAcc (k : Core) (n : Nat) (a : AccSet) : (k.setAcc n a).set n = a := by
  simp [Core.set, Core.setAcc, mgetD]

theorem arrQ_setAcc (k : Core) (n : Nat) (a : AccSet) : (k.setAcc n a).arrQ = k.arrQ := rfl

theorem arrQ_dequeue (k : Core) (pos : Nat) : (k.dequeue pos).arrQ = k.arrQ.eraseIdx pos := rfl

theorem set_dequeue (k : Core) (pos n : Nat) : (k.dequeue pos).set n = k.set n := rfl

/-! ### The bench region of a thread block -/

theorem benchWr_cons (d : Data) (c : Nat) (bench : List Nat) (x : Nat) (b : Byte) (l : List Byte) :
    d.benchWr c bench x (b :: l) = (match bench[x / 1024]? with
      | some g => d.wrB (c * 2 ^ 19 + g * 1024 + x % 1024) b
      | none => d).benchWr c bench (x + 1) l := by
  unfold Data.benchWr
  rw [List.zipIdx_cons, List.foldl_cons, List.zipIdx_succ, List.foldl_map]
  simp only [Nat.add_zero, Nat.add_assoc, Nat.add_comm 1] <;> rfl

theorem benchWr_rest (c : Nat) (bench : List Nat) (l : List Byte) (d : Data) (x : Nat) :
    { d.benchWr c bench x l with bench := d.bench } = d := by
  induction l generalizing d x with
  | nil => rfl
  | cons b l ih =>
    rw [benchWr_cons]
    split
    · exact congrArg (fun e : Data => { e with bench := d.bench }) (ih (d.wrB _ b) (x + 1))
    · exact ih d (x + 1)

/-- An update beside the bench, before or after a write to it. -/
theorem benchWr_comm {u : Data → Data} (hu : ∀ d a b, (u d).wrB a b = u (d.wrB a b)) (c : Nat) (bench : List Nat) (l : List Byte)
    (d : Data) (x : Nat) : (u d).benchWr c bench x l = u (d.benchWr c bench x l) := by
  induction l generalizing d x with
  | nil => rfl
  | cons b l ih =>
    rw [benchWr_cons, benchWr_cons]
    split
    · rw [hu, ih]
    · rw [ih]

theorem drainRowsSt_comm {u : Data → Data} (hu : ∀ d a b, (u d).wrB a b = u (d.wrB a b)) (core : Nat) (bench : List Nat) (a : AccSet)
    (l : List W32) (lo hi : Nat) (d : Data) : drainRowsSt (u d) core bench a l lo hi = u (drainRowsSt d core bench a l lo hi) := by
  unfold drainRowsSt
  exact List.foldl_hom (H := fun d e => (benchWr_comm hu core bench _ d _).symm ▸ rfl) ..

theorem drainRowsSt_rest (core : Nat) (bench : List Nat) (a : AccSet) (l : List W32) (lo hi : Nat) (d : Data) :
    { drainRowsSt d core bench a l lo hi with bench := d.bench } = d := by
  unfold drainRowsSt
  generalize (drainCells l).filter _ = cells
  induction cells generalizing d with
  | nil => rfl
  | cons e cells ih =>
    rw [List.foldl_cons]
    exact (congrArg (fun x : Data => { x with bench := d.bench }) (ih _)).trans (benchWr_rest core bench _ d _)

/-- Two bytes of a bench region, by the granules that it lies in. -/
theorem bench_address_inj {bench : List Nat} (hn : bench.Nodup) {x y g h : Nat} (hx : bench[x / 1024]? = some g)
    (hy : bench[y / 1024]? = some h) (c : Nat) (he : c * 2 ^ 19 + g * 1024 + x % 1024 = c * 2 ^ 19 + h * 1024 + y % 1024) : x = y := by
  have hg : g = h := by omega
  subst hg
  obtain ⟨hx₁, hx₂⟩ := List.getElem?_eq_some_iff.1 hx
  obtain ⟨hy₁, hy₂⟩ := List.getElem?_eq_some_iff.1 hy
  have hi : x / 1024 = y / 1024 := (List.Nodup.getElem_inj_iff hn).1 (hx₂.trans hy₂.symm)
  omega

theorem benchRd_benchWr_outside {bench : List Nat} (hn : bench.Nodup) (c : Nat) (l : List Byte) (d : Data) (x y : Nat)
    (h : y < x ∨ x + l.length ≤ y) : (d.benchWr c bench x l).benchRd c bench y = d.benchRd c bench y := by
  induction l generalizing d x with
  | nil => rfl
  | cons b l ih =>
    rw [benchWr_cons, ih _ _ (by simp only [List.length_cons] at h; omega)]
    split
    · next g hg =>
      unfold Data.benchRd
      split
      · next g' hg' =>
        refine rdB_wrB_ne d _ _ b fun he => ?_
        have := bench_address_inj hn hg hg' c he
        simp only [List.length_cons] at h
        omega
      · rfl
    · rfl

theorem benchRd_benchWr_inside {bench : List Nat} (hn : bench.Nodup) (c : Nat) (l : List Byte) (d : Data) (x n : Nat)
    (hl : x + l.length ≤ 1024 * bench.length) (h : n < l.length) :
    some ((d.benchWr c bench x l).benchRd c bench (x + n)) = l[n]? := by
  induction l generalizing d x n with
  | nil => exact absurd h (Nat.not_lt_zero n)
  | cons b l ih =>
    simp only [List.length_cons] at hl h
    rw [benchWr_cons]
    cases n with
    | zero =>
      rw [benchRd_benchWr_outside hn c l _ _ _ (.inl (by omega))]
      have hx : x / 1024 < bench.length := by omega
      have hg := List.getElem?_eq_getElem hx
      rw [Nat.add_zero, List.getElem?_cons_zero, Data.benchRd, hg]
      dsimp only
      rw [rdB_wrB_self]
    | succ n =>
      rw [List.getElem?_cons_succ, show x + (n + 1) = x + 1 + n by omega]
      exact ih _ _ _ (by omega) (by omega)

/-! ### Instructions that start -/

theorem drainRowsSt_mute {d e : Data} (h : d.Mute e) (core : Nat) (bench : List Nat) (a : AccSet) (l : List W32) (lo hi : Nat) :
    (drainRowsSt d core bench a l lo hi).Mute (drainRowsSt e core bench a l lo hi) :=
  h.of_comm (f := fun d => drainRowsSt d core bench a l lo hi) fun ps cs =>
    drainRowsSt_comm (u := fun d => { d with posts := ps, corrected := cs }) (fun _ _ _ => rfl) core bench a l lo hi d

theorem Data.Mute.free {d e : Data} (h : d.Mute e) : e.free = d.free := by obtain ⟨ps, cs, rfl⟩ := h; rfl

/-- The core in which the instruction at a position runs, `n` of its rows being written. -/
def Core.runs (k : Core) (pos : Nat) (o : ArrOp) (n : Nat) : Core := { k with arrQ := k.arrQ.set pos { o with started := true, drained := n } }

/-- A core replaced, and a free value taken. -/
def Data.putDrawn (d : Data) (core : Nat) (k : Core) : Data := { d.setCore core k with free := d.free + 1 }

theorem arrAtOnce_accSt (d : Data) (core pos : Nat) (o : ArrOp) (g : Group) (b : Block) (h : o.kind = .accSt) :
    arrAtOnce d core pos o g b =
      drainRowsSt (d.putDrawn core ((d.core core).runs pos o (Config.freeNat d.free % 65))) core b.bench ((d.core core).set o.set) o.desc 0
        (Config.freeNat d.free % 65) := by
  obtain ⟨kind⟩ := o
  obtain rfl : kind = .accSt := h
  rfl

theorem arrAtOnce_mute {d e : Data} (h : d.Mute e) (core pos : Nat) (o : ArrOp) (g : Group) (b : Block) :
    (arrAtOnce d core pos o g b).Mute (arrAtOnce e core pos o g b) := by
  unfold arrAtOnce
  simp only [h.core, h.free]
  cases o.kind with
  | accSt => exact drainRowsSt_mute (by obtain ⟨ps, cs, rfl⟩ := h; exact ⟨ps, cs, rfl⟩) ..
  | mma | accZero | accLd | accClrf => exact h.setCore ..
  | accFlags => obtain ⟨ps, cs, rfl⟩ := h; exact ⟨ps, cs, rfl⟩

theorem drainRowsSt_calm (d : Data) (core : Nat) (bench : List Nat) (a : AccSet) (l : List W32) (lo hi : Nat) :
    d.Calm (drainRowsSt d core bench a l lo hi) := by
  have h := drainRowsSt_rest core bench a l lo hi d
  have h₁ := congrArg Data.abortPend h
  have h₂ := congrArg Data.irqs h
  have h₃ := congrArg Data.ctxs h
  have h₄ := congrArg Data.launches h
  exact .of_same h₁ h₂ h₃ h₄

theorem arrAtOnce_calm (d : Data) (core pos : Nat) (o : ArrOp) (g : Group) (b : Block) : d.Calm (arrAtOnce d core pos o g b) := by
  by_cases ho : o.kind = .accSt
  · rw [arrAtOnce_accSt d core pos o g b ho]
    refine Data.Calm.trans (b := d.putDrawn core ((d.core core).runs pos o (Config.freeNat d.free % 65))) (.of_same rfl rfl rfl rfl) ?_
    exact drainRowsSt_calm ..
  unfold arrAtOnce
  cases hk : o.kind with
  | accSt => exact absurd hk ho
  | mma | accZero | accLd | accClrf => exact .setCore ..
  | accFlags => exact .of_same rfl rfl rfl rfl

/-- What lets the queued instruction at a position start. -/
structure ArrStarts (b : Body) (core pos : Nat) (o : ArrOp) (g : Group) (blk : Block) : Prop where
  at_ : (b.data.core core).arrQ[pos]? = some o
  running : b.data.halted = false
  pass : inPass (b.data.core core) = false
  fresh : o.started = false
  clear : ∀ e ∈ (b.data.core core).arrQ.take pos, arrWaits b.data core e o = false
  free : arrFree (b.data.core core) o = true
  power : o.kind = .mma → b.md.uv = false
  owner : b.data.arrOwner core o = some (g, blk)

theorem arrayInstrStart_runs (s : State) (core pos : Nat) : ∃ f, execArrayInstrStart core pos s = s.runB f ∧
    ∀ beat b o g blk, ArrStarts b core pos o g blk → f beat b = { b with data := arrAtOnce b.data core pos o g blk } := by
  refine ⟨_, rfl, fun beat b o g blk h => ?_⟩
  have hw : ((b.data.core core).arrQ.take pos).any (fun e => arrWaits b.data core e o) = false :=
    List.any_eq_false.2 fun e he => by simp [h.clear e he]
  have hu : (b.md.uv && o.kind == .mma) = false := by
    by_cases hk : o.kind = .mma
    · simp [h.power hk]
    · simp [hk]
  dsimp only
  rw [h.at_]
  dsimp only
  rw [if_neg (by simp [h.running, h.pass, h.fresh, hw, h.free, hu]), h.owner]

theorem arrayInstrStart_next {s : State} {core pos : Nat} {o : ArrOp} {g : Group} {blk : Block} (h : ArrStarts s.body core pos o g blk)
    (hq : s.body.quiet = true) : ∃ t, exec (.arrayInstrStart core pos) s = .next t ∧
      (arrAtOnce s.body.data core pos o g blk).Mute t.body.data := by
  obtain ⟨f, hf, hs⟩ := arrayInstrStart_runs s core pos
  refine runB_next (c := .arrayInstrStart core pos) hf hq (fun s' hl => ?_) fun _ _ h k => k.trans h
  have hm : s.body.data.Mute s'.body.data := hl.data
  have hst : ArrStarts s'.body core pos o g blk := by
    obtain ⟨ps, cs, e⟩ := hm
    exact ⟨by rw [e]; exact h.at_, by rw [e]; exact h.running, by rw [e]; exact h.pass, h.fresh, by rw [e]; exact h.clear,
      by rw [e]; exact h.free, fun hk => hl.uv.trans (h.power hk), by rw [e]; exact h.owner⟩
  rw [hs _ _ o g blk hst]
  exact ⟨arrAtOnce_calm .., rfl, arrAtOnce_mute hm ..⟩

/-- What has started, by its kind. -/
theorem arrAtOnce_cases (d : Data) (core pos : Nat) (o : ArrOp) (g : Group) (b : Block) : let k := d.core core
    let e := arrAtOnce d core pos o g b
    (o.kind = .accZero → (e.core core).set o.set = AccSet.empty ∧ (e.core core).arrQ = k.arrQ.eraseIdx pos) ∧
    (o.kind = .accClrf → (e.core core).set o.set = { k.set o.set with sat := false } ∧ (e.core core).arrQ = k.arrQ.eraseIdx pos) ∧
    (o.kind = .accFlags → e.group core o.slot = some (g.wrU o.dest (if (k.set o.set).sat then 1 else 0)) ∧
      (e.core core).arrQ = k.arrQ.eraseIdx pos ∧ (e.core core).set o.set = k.set o.set) ∧
    (o.kind = .mma ∨ o.kind = .accLd →
      (e.core core).arrQ = k.arrQ.set pos { o with started := true } ∧ e.bench = d.bench ∧ (e.core core).acc = k.acc) ∧
    (o.kind = .accSt → (e.core core).acc = k.acc ∧ ∃ n, n ≤ 64 ∧
      (e.core core).arrQ = k.arrQ.set pos { o with started := true, drained := n } ∧
      e.bench = (drainRowsSt d core b.bench (k.set o.set) o.desc 0 n).bench) := by
  intro k e
  refine ⟨fun h => ?_, fun h => ?_, fun h => ?_, fun h => ?_, fun h => ?_⟩
  · have he : e = d.setCore core ((k.dequeue pos).setAcc o.set AccSet.empty) := by simp only [e, arrAtOnce, h]; rfl
    rw [he, core_setCore_self]
    exact ⟨set_setAcc _ _ _, rfl⟩
  · have he : e = d.setCore core ((k.dequeue pos).setAcc o.set { k.set o.set with sat := false }) := by simp only [e, arrAtOnce, h]; rfl
    rw [he, core_setCore_self]
    exact ⟨set_setAcc _ _ _, rfl⟩
  · have he : e = (d.setCore core (k.dequeue pos)).setGroup core o.slot (g.wrU o.dest (if (k.set o.set).sat then 1 else 0)) := by
      simp only [e, arrAtOnce, h]; rfl
    have hc := core_setGroup_self (d.setCore core (k.dequeue pos)) core o.slot (g.wrU o.dest (if (k.set o.set).sat then 1 else 0))
    rw [he, group_setGroup_self, hc, core_setCore_self]
    exact ⟨rfl, rfl, rfl⟩
  · have he : e = d.setCore core { k with arrQ := k.arrQ.set pos { o with started := true } } := by
      rcases h with h | h <;> (simp only [e, arrAtOnce, h]; rfl)
    rw [he, core_setCore_self]
    exact ⟨rfl, rfl, rfl⟩
  · have he : e = drainRowsSt (d.putDrawn core (k.runs pos o (Config.freeNat d.free % 65))) core b.bench (k.set o.set) o.desc 0
        (Config.freeNat d.free % 65) := arrAtOnce_accSt d core pos o g b h
    have hcomm := drainRowsSt_comm (u := fun x : Data => { x with cores := (d.setCore core (k.runs pos o (Config.freeNat d.free % 65))).cores, free := d.free + 1 })
      (fun _ _ _ => rfl) core b.bench (k.set o.set) o.desc 0 (Config.freeNat d.free % 65) d
    have hc : e.core core = k.runs pos o (Config.freeNat d.free % 65) := by
      rw [he]
      exact (congrArg (fun x : Data => x.core core) hcomm).trans (core_setCore_self d core _)
    refine ⟨by rw [hc]; rfl, Config.freeNat d.free % 65, by omega, by rw [hc]; rfl, ?_⟩
    rw [he]
    have hb := congrArg Data.bench hcomm
    exact hb

/-! ### Instructions that complete -/

/-- A core's queue and sets, and all memory, as they were, and nothing falls due. -/
structure ArrKept (c : Nat) (d e : Data) : Prop where
  acc : (e.core c).acc = (d.core c).acc
  arrQ : (e.core c).arrQ = (d.core c).arrQ
  bench : e.bench = d.bench
  benchEpoch : e.benchEpoch = d.benchEpoch
  mem : e.mem = d.mem
  calm : d.Calm e

namespace ArrKept

theorem refl (c : Nat) (d : Data) : ArrKept c d d := ⟨rfl, rfl, rfl, rfl, rfl, .refl d⟩

theorem trans {c : Nat} {d e f : Data} (h : ArrKept c d e) (k : ArrKept c e f) : ArrKept c d f :=
  ⟨k.acc.trans h.acc, k.arrQ.trans h.arrQ, k.bench.trans h.bench, k.benchEpoch.trans h.benchEpoch, k.mem.trans h.mem, h.calm.trans k.calm⟩

theorem of_mute {d e : Data} (c : Nat) (h : d.Mute e) : ArrKept c d e := by
  have hc := Data.Calm.of_mute h
  obtain ⟨ps, cs, rfl⟩ := h
  exact ⟨rfl, rfl, rfl, rfl, rfl, hc⟩

theorem setGroup (c : Nat) (d : Data) (slot : Nat) (g : Group) : ArrKept c d (d.setGroup c slot g) := by
  have hc := core_setGroup_self d c slot g
  exact ⟨by rw [hc], by rw [hc], rfl, rfl, rfl, .setCore ..⟩

theorem modLaunch (c : Nat) (d : Data) (n : Nat) {f : Launch → Launch} (hf : ∀ l : Launch, l.Steady (f l)) : ArrKept c d (d.modLaunch n f) :=
  ⟨rfl, rfl, rfl, rfl, rfl, .modLaunch n hf⟩

theorem countNan (c : Nat) (d : Data) (n : Nat) (r : Option FaultRec) : ArrKept c d (d.countNan n r) :=
  modLaunch c d n fun _ => ⟨rfl, rfl, rfl, rfl, rfl, rfl⟩

theorem countSat (c : Nat) (d : Data) (n : Nat) (r : Option FaultRec) : ArrKept c d (d.countSat n r) :=
  modLaunch c d n fun _ => ⟨rfl, rfl, rfl, rfl, rfl, rfl⟩

theorem arrNan (d : Data) (c beat : Nat) (o : ArrOp) (g : Group) (b : Block) (i : NanInfo) : ArrKept c d (arrNan d c beat o g b i) := by
  unfold Machine.arrNan
  dsimp only
  split
  · exact (countNan ..).trans (setGroup ..)
  · exact countNan ..

theorem arrSat (d : Data) (c beat : Nat) (o : ArrOp) (g : Group) (b : Block) (k i j : Nat) : ArrKept c d (arrSat d c beat o g b k i j) := by
  unfold Machine.arrSat
  split
  · exact (countSat ..).trans (setGroup ..)
  · exact countSat ..

end ArrKept

/-- The accumulator set once an `mma` is done. -/
def mmaSet (d : Data) (core : Nat) (o : ArrOp) (b : Block) : AccSet :=
  let r := mmaRun (d.benchRd core b.bench) o (d.tallyOn b.plot) ((d.core core).set o.set)
  { r.acc with sat := r.acc.sat || !r.sats.isEmpty }

/-- The report of the NaNs that an `mma` created. -/
def mmaNans (d : Data) (beat core : Nat) (o : ArrOp) (l : List (Nat × Nat × Nat)) : Data :=
  match firstCell l, d.arrOwner core o with
  | some (kp, i, j), some (g, b) => arrNan d core beat o g b
      { mask := 0, multi := decide (1 < l.length), unit := 3, cause := 1, kpos := kp, e0 := i, e1 := j, set := o.set }
  | _, _ => d

/-- The report of its saturations. -/
def mmaSats (d : Data) (beat core : Nat) (o : ArrOp) (clean : Bool) (l : List (Nat × Nat × Nat)) : Data :=
  match firstSat l, d.arrOwner core o with
  | some (kp, i, j), some (g, b) => if clean then arrSat d core beat o g b kp i j else d
  | _, _ => d

theorem mmaNans_kept (d : Data) (beat core : Nat) (o : ArrOp) (l : List (Nat × Nat × Nat)) : ArrKept core d (mmaNans d beat core o l) := by
  unfold mmaNans
  split
  · exact .arrNan ..
  · exact .refl ..

theorem mmaSats_kept (d : Data) (beat core : Nat) (o : ArrOp) (clean : Bool) (l : List (Nat × Nat × Nat)) :
    ArrKept core d (mmaSats d beat core o clean l) := by
  unfold mmaSats
  split
  · split
    · exact .arrSat ..
    · exact .refl ..
  · exact .refl ..

theorem mmaDone_kept {d : Data} {core pos : Nat} {o : ArrOp} {g : Group} {b : Block} (beat : Nat)
    (hs : startedAt (d.core core) (fun e => e.kind == .mma) = some (pos, o)) (ho : d.arrOwner core o = some (g, b)) :
    ArrKept core (d.setCore core (((d.core core).dequeue pos).setAcc o.set (mmaSet d core o b))) (mmaDone d beat core []) := by
  have he : mmaDone d beat core [] = mmaSats (mmaNans (d.setCore core (((d.core core).dequeue pos).setAcc o.set (mmaSet d core o b))) beat core o
      (mmaRun (d.benchRd core b.bench) o (d.tallyOn b.plot) ((d.core core).set o.set)).nans) beat core o
      (!(mmaBegin o (d.tallyOn b.plot) ((d.core core).set o.set)).sat)
      (mmaRun (d.benchRd core b.bench) o (d.tallyOn b.plot) ((d.core core).set o.set)).sats := by
    unfold mmaDone
    dsimp only
    rw [hs]
    dsimp only
    rw [ho]
    rfl
  rw [he]
  exact (mmaNans_kept ..).trans (mmaSats_kept ..)

theorem arrayMmaComplete_runs (s : State) (core : Nat) : ∃ f, execArrayMmaComplete core [] s = s.runD f ∧
    ∀ beat d, inPass (d.core core) = false → f beat d = mmaDone d beat core [] := by
  refine ⟨_, rfl, fun beat d h => ?_⟩
  rw [if_neg (by rw [h]; decide)]

/-- A command that completes an instruction, taking it off its core's queue and leaving `a` in its set: `e` is the data plane
before the core is replaced. -/
theorem complete_next {c : Instr} {s : State} {f : Nat → Body → Body} {core pos : Nat} {o : ArrOp} {a : AccSet} {e : Data}
    (he : exec c s = s.runB f) (hq : s.body.quiet = true) (hk : (e.core core) = s.body.data.core core) (hc : s.body.data.Calm e)
    (hf : ∀ s' : State, Like s s' → (f s.alm.beat s'.body).sj = s'.body.sj ∧ ∃ e', e.Mute e' ∧
      ArrKept core (e'.setCore core (((e'.core core).dequeue pos).setAcc o.set a)) (f s.alm.beat s'.body).data) :
    ∃ t, exec c s = .next t ∧ (t.body.data.core core).set o.set = a ∧
      (t.body.data.core core).arrQ = (s.body.data.core core).arrQ.eraseIdx pos ∧ t.body.data.bench = e.bench ∧
      t.body.data.benchEpoch = e.benchEpoch ∧ t.body.data.mem = e.mem := by
  refine runB_next (f := f) (P := fun x => (x.core core).set o.set = a ∧ (x.core core).arrQ = (s.body.data.core core).arrQ.eraseIdx pos ∧
    x.bench = e.bench ∧ x.benchEpoch = e.benchEpoch ∧ x.mem = e.mem) he hq (fun s' hl => ?_) fun d x hm h => ?_
  · obtain ⟨hj, e', hm, hkept⟩ := hf s' hl
    refine ⟨?_, hj, ?_, ?_, hkept.bench.trans ?_, hkept.benchEpoch.trans ?_, hkept.mem.trans ?_⟩
    · exact (Data.Calm.of_mute (Data.Mute.symm hl.data)).trans (hc.trans ((Data.Calm.of_mute hm).trans
        ((Data.Calm.setCore ..).trans hkept.calm)))
    · have h := hkept.acc
      rw [core_setCore_self] at h
      rw [Core.set, h]
      exact set_setAcc _ _ _
    · rw [hkept.arrQ, core_setCore_self, arrQ_setAcc, arrQ_dequeue, hm.core, hk]
    all_goals (obtain ⟨ps, cs, rfl⟩ := hm; rfl)
  · obtain ⟨ps, cs, rfl⟩ := hm
    exact h

theorem arrayMmaComplete_next {s : State} {core pos : Nat} {o : ArrOp} {g : Group} {b : Block}
    (hp : inPass (s.body.data.core core) = false) (hs : startedAt (s.body.data.core core) (fun e => e.kind == .mma) = some (pos, o))
    (ho : s.body.data.arrOwner core o = some (g, b)) (hq : s.body.quiet = true) :
    ∃ t, exec (.arrayMmaComplete core []) s = .next t ∧ (t.body.data.core core).set o.set = mmaSet s.body.data core o b ∧
      (t.body.data.core core).arrQ = (s.body.data.core core).arrQ.eraseIdx pos ∧ t.body.data.bench = s.body.data.bench ∧
      t.body.data.benchEpoch = s.body.data.benchEpoch ∧ t.body.data.mem = s.body.data.mem := by
  obtain ⟨f, hf, hd⟩ := arrayMmaComplete_runs s core
  refine complete_next (c := .arrayMmaComplete core []) (f := fun n b => { b with data := f n b.data }) hf hq rfl (.refl _) fun s' hl => ⟨rfl, s'.body.data, hl.data, ?_⟩
  have hm : s.body.data.Mute s'.body.data := hl.data
  have ha : mmaSet s'.body.data core o b = mmaSet s.body.data core o b := by
    obtain ⟨ps, cs, e⟩ := hm
    rw [e]
    rfl
  dsimp only
  rw [hd _ _ (by rw [hm.core]; exact hp), ← ha]
  refine mmaDone_kept (g := g) _ (by rw [hm.core]; exact hs) ?_
  obtain ⟨ps, cs, e⟩ := hm
  rw [e]
  exact ho

/-! ### Drains and loads -/

/-- The set once an `acc.ld` is done. -/
def loadedSet (d : Data) (core : Nat) (o : ArrOp) (blk : Block) : AccSet :=
  let a : AccSet := { AccSet.empty with c := (drainCells o.desc).foldl (fun (m : SMap W32) e =>
    cput 0 m (64 * e.1 + e.2) (BitVec.ofNat 32 (leNat ((List.range 4).map fun i => d.benchRd core blk.bench (drainAddr o.desc e.1 e.2 4 + i))))) [] }
  if d.tallyOn blk.plot then a.reinit else a

theorem drainLd_eq (d : Data) (core pos : Nat) (o : ArrOp) (blk : Block) :
    drainLd d core pos o (d.core core) blk = d.setCore core (((d.core core).dequeue pos).setAcc o.set (loadedSet d core o blk)) := rfl

theorem loadedSet_int (d : Data) (core : Nat) (o : ArrOp) (blk : Block) : (loadedSet d core o blk).int = false := by
  unfold loadedSet
  dsimp only
  split <;> rfl

theorem loadedSet_sat (d : Data) (core : Nat) (o : ArrOp) (blk : Block) : (loadedSet d core o blk).sat = false := by
  unfold loadedSet
  dsimp only
  split <;> rfl

theorem loadedSet_c (d : Data) (core : Nat) (o : ArrOp) (blk : Block) : (loadedSet d core o blk).c =
    (drainCells o.desc).foldl (fun (m : SMap W32) e =>
      cput 0 m (64 * e.1 + e.2) (BitVec.ofNat 32 (leNat ((List.range 4).map fun i => d.benchRd core blk.bench (drainAddr o.desc e.1 e.2 4 + i))))) [] := by
  unfold loadedSet
  dsimp only
  split <;> rfl

theorem mem_drainCells (l : List W32) (i j : Nat) : (i, j) ∈ drainCells l ↔ i < dw l 6 % 128 ∧ j < dw l 6 / 256 % 128 := by
  simp [drainCells]

/-- A table filled in cell by cell. -/
theorem mgetD_foldl_cput (f : Nat × Nat → W32) (cells : List (Nat × Nat)) (hc : ∀ e ∈ cells, e.2 < 64) (m : SMap W32) (i j : Nat) (hj : j < 64) :
    mgetD (cells.foldl (fun m e => cput 0 m (64 * e.1 + e.2) (f e)) m) (64 * i + j) 0 =
      if (i, j) ∈ cells then f (i, j) else mgetD m (64 * i + j) 0 := by
  induction cells generalizing m with
  | nil => simp
  | cons e cells ih =>
    have he := hc e List.mem_cons_self
    rw [List.foldl_cons, ih (fun x hx => hc x (List.mem_cons_of_mem _ hx))]
    by_cases hm : (i, j) ∈ cells
    · rw [if_pos hm, if_pos (List.mem_cons_of_mem _ hm)]
    · rw [if_neg hm]
      by_cases hij : (i, j) = e
      · subst hij
        rw [if_pos List.mem_cons_self, mgetD_cput_self]
      · rw [if_neg (by simp [hij, hm]), mgetD_cput_ne]
        rintro h
        exact hij (Prod.ext (by omega) (by omega))

theorem loadedSet_cell {d : Data} {core : Nat} {o : ArrOp} {blk : Block} (hd : drainDescOk o.desc true = true) (i j : Nat) (hj : j < 64) :
    mgetD (loadedSet d core o blk).c (64 * i + j) 0 = if i < dw o.desc 6 % 128 ∧ j < dw o.desc 6 / 256 % 128 then
      BitVec.ofNat 32 (leNat ((List.range 4).map fun n =>
        d.benchRd core blk.bench (dw o.desc 0 + i * (dw o.desc 5 % 2 ^ 19) + 4 * j + n))) else 0 := by
  have hcols : dw o.desc 6 / 256 % 128 ≤ 64 := by
    simp only [drainDescOk, Bool.and_eq_true, decide_eq_true_eq] at hd
    exact hd.1.2
  rw [loadedSet_c, mgetD_foldl_cput (fun e => BitVec.ofNat 32 (leNat ((List.range 4).map fun n =>
    d.benchRd core blk.bench (drainAddr o.desc e.1 e.2 4 + n)))) _ (fun e he => by have := (mem_drainCells _ e.1 e.2).1 he; omega) _ i j hj]
  simp only [mem_drainCells, drainAddr, Nat.mul_comm j 4]
  rfl

/-- The set once an `acc.st` is done. -/
def drainedSet (d : Data) (o : ArrOp) (a : AccSet) (blk : Block) : AccSet :=
  let a' := if d.tallyOn blk.plot then a.reinit else a
  if dw o.desc 1 / 64 % 2 = 1 then a'.clear else a'

/-- The report of the NaNs that a drain created. -/
def drainNans (d : Data) (core beat : Nat) (o : ArrOp) (g : Group) (blk : Block) (a : AccSet) : Data :=
  let nans := (drainCells o.desc).filter fun e => (drainElem a o.desc e.1 e.2).2 != 0
  match nans.head? with
  | some (i, j) => arrNan d core beat o g blk
      { mask := 0, multi := decide (1 < nans.length), unit := 4, cause := (drainElem a o.desc i j).2, kpos := 0, e0 := i, e1 := j, set := o.set }
  | none => d

theorem drainNans_kept (d : Data) (core beat : Nat) (o : ArrOp) (g : Group) (blk : Block) (a : AccSet) :
    ArrKept core d (drainNans d core beat o g blk a) := by
  unfold drainNans
  dsimp only
  split
  · exact .arrNan ..
  · exact .refl ..

/-- The data plane once an `acc.st` is done, but for the tally's record. -/
def drained (d : Data) (core beat pos : Nat) (o : ArrOp) (g : Group) (blk : Block) : Data :=
  let a := (d.core core).set o.set
  let e := drainRowsSt d core blk.bench a o.desc o.drained 64
  drainNans (e.setCore core (((d.core core).dequeue pos).setAcc o.set (drainedSet e o a blk))) core beat o g blk a

/-- The tally's record of a drain. -/
def drainTally (d : Data) (core : Nat) (o : ArrOp) (a : AccSet) : Data :=
  postTally d core o.set 1 a.pair o.ctx o.pc.toNat (dw o.desc 0) a.nRound (tallyCheck a)

theorem drainSt_eq (b : Body) (beat core pos : Nat) (o : ArrOp) (g : Group) (blk : Block) :
    drainSt b beat core pos o g (b.data.core core) blk =
      if (drainRowsSt b.data core blk.bench ((b.data.core core).set o.set) o.desc o.drained 64).tallyOn blk.plot &&
          (tallyCheck ((b.data.core core).set o.set)).bad then
        markSuspect { b with data := drainTally (drained b.data core beat pos o g blk) core o ((b.data.core core).set o.set) } beat core
      else { b with data := drained b.data core beat pos o g blk } := rfl

theorem drainSt_kept (b : Body) (beat core pos : Nat) (o : ArrOp) (g : Group) (blk : Block) :
    (drainSt b beat core pos o g (b.data.core core) blk).sj = b.sj ∧
      (drained b.data core beat pos o g blk).Mute (drainSt b beat core pos o g (b.data.core core) blk).data := by
  rw [drainSt_eq]
  split
  · exact ⟨rfl, _, _, rfl⟩
  · exact ⟨rfl, .refl _⟩

theorem drained_kept {d e : Data} {core : Nat} (beat pos : Nat) {o : ArrOp} (g : Group) {blk : Block}
    (he : drainRowsSt d core blk.bench ((d.core core).set o.set) o.desc o.drained 64 = e) :
    ArrKept core (e.setCore core (((d.core core).dequeue pos).setAcc o.set (drainedSet e o ((d.core core).set o.set) blk)))
      (drained d core beat pos o g blk) := by
  subst he
  exact drainNans_kept ..

theorem arrayDrainComplete_runs (s : State) (core : Nat) : ∃ f, execArrayDrainComplete core s = s.runB f ∧
    ∀ beat (b : Body) pos o g blk, inPass (b.data.core core) = false →
      startedAt (b.data.core core) (fun e => e.kind == .accSt || e.kind == .accLd) = some (pos, o) → b.data.arrOwner core o = some (g, blk) →
      f beat b = if o.kind = .accSt then drainSt b beat core pos o g (b.data.core core) blk
        else { b with data := drainLd b.data core pos o (b.data.core core) blk } := by
  refine ⟨_, rfl, fun beat b pos o g blk hp hs ho => ?_⟩
  dsimp only
  rw [if_neg (by rw [hp]; decide), hs]
  dsimp only
  rw [ho]

theorem core_drainRowsSt (d : Data) (core : Nat) (bench : List Nat) (a : AccSet) (l : List W32) (lo hi c : Nat) :
    (drainRowsSt d core bench a l lo hi).core c = d.core c := by
  have h := congrArg Data.cores (drainRowsSt_rest core bench a l lo hi d)
  exact congrArg (fun m => mgetD m c Core.empty) h

/-- What completes: the drain or load that runs, and whose it is. -/
structure Drains (d : Data) (core pos : Nat) (o : ArrOp) (g : Group) (blk : Block) : Prop where
  pass : inPass (d.core core) = false
  started : startedAt (d.core core) (fun e => e.kind == .accSt || e.kind == .accLd) = some (pos, o)
  owner : d.arrOwner core o = some (g, blk)

theorem Drains.of_mute {d e : Data} {core pos : Nat} {o : ArrOp} {g : Group} {blk : Block} (h : Drains d core pos o g blk) (hm : d.Mute e) :
    Drains e core pos o g blk := by
  obtain ⟨ps, cs, rfl⟩ := hm
  exact ⟨h.pass, h.started, h.owner⟩

section Complete

variable {s : State} {core pos : Nat} {o : ArrOp} {g : Group} {blk : Block} (h : Drains s.body.data core pos o g blk)

include h

theorem Drains.load_next (hk : o.kind = .accLd) (hq : s.body.quiet = true) :
    ∃ t, exec (.arrayDrainComplete core) s = .next t ∧ (t.body.data.core core).set o.set = loadedSet s.body.data core o blk ∧
      (t.body.data.core core).arrQ = (s.body.data.core core).arrQ.eraseIdx pos ∧ t.body.data.bench = s.body.data.bench ∧
      t.body.data.benchEpoch = s.body.data.benchEpoch ∧ t.body.data.mem = s.body.data.mem := by
  obtain ⟨f, hf, hd⟩ := arrayDrainComplete_runs s core
  refine complete_next (c := .arrayDrainComplete core) hf hq rfl (.refl _) fun s' hl => ?_
  have hm : s.body.data.Mute s'.body.data := hl.data
  have h' := h.of_mute hm
  rw [hd _ _ pos o g blk h'.pass h'.started h'.owner, if_neg (by rw [hk]; decide), drainLd_eq]
  refine ⟨rfl, s'.body.data, hm, ?_⟩
  have hset : loadedSet s'.body.data core o blk = loadedSet s.body.data core o blk := by
    obtain ⟨ps, cs, e⟩ := hm
    rw [e]
    rfl
  rw [hset]
  exact .refl _ _

theorem Drains.store_next (hk : o.kind = .accSt) (hq : s.body.quiet = true) :
    let e := drainRowsSt s.body.data core blk.bench ((s.body.data.core core).set o.set) o.desc o.drained 64
    ∃ t, exec (.arrayDrainComplete core) s = .next t ∧
      (t.body.data.core core).arrQ = (s.body.data.core core).arrQ.eraseIdx pos ∧ t.body.data.bench = e.bench ∧
      t.body.data.benchEpoch = e.benchEpoch ∧ t.body.data.mem = s.body.data.mem := by
  intro e
  obtain ⟨f, hf, hd⟩ := arrayDrainComplete_runs s core
  obtain ⟨t, ht, -, hq, hb, hbe, hmem⟩ := complete_next (c := .arrayDrainComplete core)
      (a := drainedSet e o ((s.body.data.core core).set o.set) blk) hf hq (core_drainRowsSt ..)
      (drainRowsSt_calm s.body.data core blk.bench ((s.body.data.core core).set o.set) o.desc o.drained 64) fun s' hl => by
    have hm : s.body.data.Mute s'.body.data := hl.data
    have h' := h.of_mute hm
    rw [hd _ _ pos o g blk h'.pass h'.started h'.owner, if_pos hk]
    obtain ⟨hj, hmu⟩ := drainSt_kept s'.body s.alm.beat core pos o g blk
    refine ⟨hj, drainRowsSt s'.body.data core blk.bench ((s'.body.data.core core).set o.set) o.desc o.drained 64, ?_, ?_⟩
    · rw [hm.core]
      exact drainRowsSt_mute hm ..
    · refine ArrKept.trans ?_ (.of_mute core hmu)
      have hset : drainedSet (drainRowsSt s'.body.data core blk.bench ((s'.body.data.core core).set o.set) o.desc o.drained 64) o
          ((s'.body.data.core core).set o.set) blk = drainedSet e o ((s.body.data.core core).set o.set) blk := by
        obtain ⟨ps, cs, hx⟩ : e.Mute (drainRowsSt s'.body.data core blk.bench ((s'.body.data.core core).set o.set) o.desc o.drained 64) := by
          rw [hm.core]
          exact drainRowsSt_mute hm ..
        rw [hx, hm.core]
        rfl
      rw [core_drainRowsSt, ← hset]
      exact drained_kept s.alm.beat pos g rfl
  have hr := congrArg Data.mem (drainRowsSt_rest core blk.bench ((s.body.data.core core).set o.set) o.desc o.drained 64 s.body.data)
  exact ⟨t, ht, hq, hb, hbe, hmem.trans hr⟩

end Complete

/-- One element of a drain, read back from the bench. -/
theorem benchRd_drain_one (d : Data) (core : Nat) {bench : List Nat} (hn : bench.Nodup) (a : AccSet) {l : List W32}
    (hr : dw l 6 % 128 = 1) (hc : dw l 6 / 256 % 128 = 1) (hx : dw l 0 + 4 ≤ 1024 * bench.length) (n : Nat) (h : n < outW (dw l 1 % 16)) :
    some ((drainRowsSt d core bench a l 0 64).benchRd core bench (dw l 0 + n)) = (natLe (outW (dw l 1 % 16)) (drainElem a l 0 0).1)[n]? := by
  have hcells : drainCells l = [(0, 0)] := by simp [drainCells, hr, hc]
  have hw : outW (dw l 1 % 16) ≤ 4 := by unfold outW; split_ifs <;> omega
  have hlen : (natLe (outW (dw l 1 % 16)) (drainElem a l 0 0).1).length = outW (dw l 1 % 16) := natLe_length _ _
  have he : drainRowsSt d core bench a l 0 64 = d.benchWr core bench (dw l 0) (natLe (outW (dw l 1 % 16)) (drainElem a l 0 0).1) := by
    unfold drainRowsSt
    rw [hcells, filter_one (by decide), List.foldl_cons, List.foldl_nil, drainAddr, Nat.zero_mul, Nat.zero_mul, Nat.add_zero]
  rw [he]
  exact benchRd_benchWr_inside hn core _ d _ n (by omega) (by omega)

/-! ### A disabled tally lane -/

/-- The tally's sums and count of roundings of two sets are the same. -/
def AccSet.SameTally (a b : AccSet) : Prop := b.tSum = a.tSum ∧ b.vSum = a.vSum ∧ b.nRound = a.nRound

theorem AccSet.SameTally.trans {a b c : AccSet} (h : a.SameTally b) (k : b.SameTally c) : a.SameTally c :=
  ⟨k.1.trans h.1, k.2.1.trans h.2.1, k.2.2.trans h.2.2⟩

theorem mmaCell_tally (rd : Nat → Byte) (o : ArrOp) (m : MmaOut) (i j : Nat) : m.acc.SameTally (mmaCell rd o false m i j).acc :=
  ⟨rfl, rfl, rfl⟩

theorem mmaCells_tally (rd : Nat → Byte) (o : ArrOp) (i : Nat) (cols : List Nat) (m : MmaOut) :
    m.acc.SameTally (cols.foldl (fun m j => mmaCell rd o false m i j) m).acc := by
  induction cols generalizing m with
  | nil => exact ⟨rfl, rfl, rfl⟩
  | cons j cols ih => exact (mmaCell_tally rd o m i j).trans (ih _)

theorem mmaRows_tally (rd : Nat → Byte) (o : ArrOp) (rows cols : List Nat) (m : MmaOut) :
    m.acc.SameTally (rows.foldl (fun m i => cols.foldl (fun m j => mmaCell rd o false m i j) m) m).acc := by
  induction rows generalizing m with
  | nil => exact ⟨rfl, rfl, rfl⟩
  | cons i rows ih => exact (mmaCells_tally rd o i cols m).trans (ih _)

theorem mmaBegin_tally (o : ArrOp) (a : AccSet) : (if o.zero then a.clear else a).SameTally (mmaBegin o false a) := by
  unfold mmaBegin
  dsimp only
  generalize (if o.zero = true then a.clear else a) = a₀
  rw [if_neg Bool.false_ne_true]
  split <;> exact ⟨rfl, rfl, rfl⟩

theorem mmaRun_tally (rd : Nat → Byte) (o : ArrOp) (a : AccSet) :
    (mmaRun rd o false a).acc.tSum = (if o.zero then [] else a.tSum) ∧ (mmaRun rd o false a).acc.vSum = (if o.zero then [] else a.vSum) ∧
      (mmaRun rd o false a).acc.nRound = if o.zero then 0 else a.nRound := by
  obtain ⟨h1, h2, h3⟩ : (if o.zero then a.clear else a).SameTally (mmaRun rd o false a).acc :=
    (mmaBegin_tally o a).trans (mmaRows_tally rd o _ _ { acc := mmaBegin o false a, nans := [], sats := [] })
  rw [h1, h2, h3]
  cases o.zero <;> exact ⟨rfl, rfl, rfl⟩

/-- Settles O23: what starts, what completes, and what a disabled tally lane leaves. -/
theorem arrayOperations : Obligations.ArrayOperations := by
  unfold Obligations.ArrayOperations
  refine ⟨?_, ⟨?_, ?_, ?_, ?_⟩, mmaRun_tally⟩
  · intro s core pos o g b k hat hrun hpass hfresh hclear hfree hpow howner hq
    obtain ⟨t, ht, ps, cs, hm⟩ := arrayInstrStart_next ⟨hat, hrun, hpass, hfresh, hclear, hfree, hpow, howner⟩ hq
    refine ⟨t, ht, ?_⟩
    rw [hm]
    exact arrAtOnce_cases s.body.data core pos o g b
  · intro s core pos o g b k hp hs ho hq
    obtain ⟨t, ht, hset, hqueue, hb, -, hmem⟩ := arrayMmaComplete_next hp hs ho hq
    exact ⟨t, ht, hset, hqueue, hb, hmem⟩
  · intro s core pos o g b k hp hs hk hd ho hq
    obtain ⟨t, ht, hset, hqueue, hb, -, hmem⟩ := Drains.load_next ⟨hp, hs, ho⟩ hk hq
    refine ⟨t, ht, ?_, hqueue, hb, hmem⟩
    rw [hset]
    exact ⟨loadedSet_int .., loadedSet_sat .., fun i _ j hj => loadedSet_cell hd i j hj⟩
  · intro s core pos o g b k hp hs hk ho hr hc hn hx hz hq
    obtain ⟨t, ht, hqueue, hb, hbe, hmem⟩ := Drains.store_next ⟨hp, hs, ho⟩ hk hq
    refine ⟨t, ht, fun n hw => ?_, hqueue, hmem⟩
    rw [hz] at hb hbe
    have hrd : ∀ y, t.body.data.benchRd core b.bench y =
        (drainRowsSt s.body.data core b.bench (k.set o.set) o.desc 0 64).benchRd core b.bench y := fun y => by
      simp only [Data.benchRd, Data.rdB, hb, hbe]
      rfl
    rw [hrd]
    exact benchRd_drain_one s.body.data core hn _ hr hc hx n hw
  · intro s core pos o g b k hp hs hk ho hq
    obtain ⟨t, ht, -, hb, -, -⟩ := Drains.store_next ⟨hp, hs, ho⟩ hk hq
    exact ⟨t, ht, hb⟩

end Sys2Proof.Machine
end

section
/-! Line requests at their homes, fills that return, and reads of host windows that complete. -/

namespace Sys2Proof.Machine

/-! ### A request served at its home -/

theorem makeRoom_rest (d : Data) (k line : Nat) : { d.makeRoom k line with cellar := d.cellar, copies := d.copies } = d := by
  unfold Data.makeRoom
  dsimp only
  split_ifs
  · rfl
  · rfl
  · split
    · rfl
    · split <;> rfl

theorem touch_rest (d : Data) (plot p : Nat) (dirty stream : Bool) :
    { d.touch plot p dirty stream with cellar := d.cellar, copies := d.copies } = d := by
  unfold Data.touch
  split
  · split
    · next k _ =>
      split
      · split
        · rfl
        · exact makeRoom_rest d k (p / 128)
      · rfl
    · rfl
  · rfl

/-- `e` is `d` but for requests and what memory and the cellar hold. -/
def Data.AtHome (d e : Data) : Prop :=
  { e with mem := d.mem, lost := d.lost, objs := d.objs, cellar := d.cellar, copies := d.copies, reqs := d.reqs } = d

namespace Data.AtHome

theorem trans {a b c : Data} (h : a.AtHome b) (k : b.AtHome c) : a.AtHome c := by
  unfold Data.AtHome at h k ⊢
  rw [← h, ← k]

theorem of_sameBut {d e : Data} (h : d.sameBut e) : d.AtHome e := by
  have h' := congrArg (fun x : Data => { x with reqs := d.reqs }) h
  exact h'

theorem calm {d e : Data} (h : d.AtHome e) : d.Calm e := by
  have h₁ := congrArg Data.abortPend h
  have h₂ := congrArg Data.irqs h
  have h₃ := congrArg Data.ctxs h
  have h₄ := congrArg Data.launches h
  exact .of_same h₁ h₂ h₃ h₄

theorem wrN (l : List Byte) (d : Data) (p : Nat) : d.AtHome (d.wrN p l) := by
  induction l generalizing d p with
  | nil => rfl
  | cons b l ih => exact trans (b := d.wr p b) rfl (ih _ _)

theorem wrMask (l : List (Nat × Byte)) (d : Data) (p : Nat) : d.AtHome (d.wrMask p l) := by
  induction l generalizing d with
  | nil => rfl
  | cons b l ih => exact trans (b := d.wr (p + b.1) b.2) rfl (ih _)

theorem atomAll (l : List Lane) (d : Data) (p aop ty : Nat) : d.AtHome (atomAll d p aop ty l).1 := by
  induction l generalizing d with
  | nil => rfl
  | cons l ls ih => exact (wrN _ _ _).trans (ih (atomOne d p aop ty l).1)

theorem applyReq (d : Data) (p : Nat) (r : LineReq) : d.AtHome (applyReq d p r) := by
  unfold Machine.applyReq
  split
  · rfl
  · cases r.op with
    | load | desc => rfl
    | store bs =>
      dsimp only
      split
      · exact trans (b := (d.unlose p).wrMask p bs) (trans (b := d.unlose p) rfl (wrMask ..)) rfl
      · exact trans (b := d.wrMask p bs) (wrMask ..) rfl
    | atom aop ty sc dest => exact trans (b := (Machine.atomAll d p aop ty r.lanes).1) (atomAll ..) rfl

theorem served (d : Data) (p : Nat) (r : LineReq) : d.AtHome (d.served p r) := of_sameBut (touch_same ..)

end Data.AtHome

theorem served_mem (d : Data) (p : Nat) (r : LineReq) : (d.served p r).mem = d.mem := by
  have h := touch_rest d r.plot p (writes r.op) (d.streamAt r.plot r.addr)
  have hm := congrArg Data.mem h
  exact hm

theorem served_reqs (d : Data) (p : Nat) (r : LineReq) : (d.served p r).reqs = d.reqs := by
  have h := touch_rest d r.plot p (writes r.op) (d.streamAt r.plot r.addr)
  have hm := congrArg Data.reqs h
  exact hm

theorem served_lost (d : Data) (p : Nat) (r : LineReq) : (d.served p r).lost = d.lost := by
  have h := touch_rest d r.plot p (writes r.op) (d.streamAt r.plot r.addr)
  have hm := congrArg Data.lost h
  exact hm

/-- The request that another state of it replaces is found again. -/
theorem req_setReq {d : Data} {n : Nat} {r q : LineReq} (h : d.req n = some r) (hq : q.id = r.id) : (d.setReq q).req n = some q := by
  have hn : r.id = n := by simpa using List.find?_some h
  unfold Data.req Data.setReq at *
  dsimp only at *
  generalize d.reqs = l at h
  induction l with
  | nil => exact absurd h (by simp)
  | cons x l ih =>
    rw [List.map_cons]
    by_cases hx : x.id = n
    · rw [List.find?_cons_of_pos (by simpa using hx)] at h
      obtain rfl := Option.some.inj h
      rw [if_pos hq.symm, List.find?_cons_of_pos (by simpa [hq] using hx)]
    · rw [List.find?_cons_of_neg (by simpa using hx)] at h
      have hne : ¬ x.id = q.id := fun e => hx (by omega)
      rw [if_neg hne, List.find?_cons_of_neg (by simpa using hx)]
      exact ih h

theorem req_congr {d e : Data} (h : e.reqs = d.reqs) (n : Nat) : e.req n = d.req n := by simp only [Data.req, h]

theorem rd_congr {d e : Data} (h : e.mem = d.mem) (a : Nat) : e.rd a = d.rd a := by simp only [Data.rd, h]

theorem reqs_wrMask (l : List (Nat × Byte)) (d : Data) (p : Nat) : (d.wrMask p l).reqs = d.reqs := by
  induction l generalizing d with
  | nil => rfl
  | cons b l ih => exact ih (d.wr (p + b.1) b.2)

theorem lost_wrMask (l : List (Nat × Byte)) (d : Data) (p : Nat) : (d.wrMask p l).lost = d.lost := by
  induction l generalizing d with
  | nil => rfl
  | cons b l ih => exact ih (d.wr (p + b.1) b.2)

theorem reqs_wrN (l : List Byte) (d : Data) (p : Nat) : (d.wrN p l).reqs = d.reqs := by
  induction l generalizing d p with
  | nil => rfl
  | cons b l ih => exact ih (d.wr p b) (p + 1)

theorem reqs_atomAll (l : List Lane) (d : Data) (p aop ty : Nat) : (atomAll d p aop ty l).1.reqs = d.reqs := by
  induction l generalizing d with
  | nil => rfl
  | cons l ls ih => exact (ih (atomOne d p aop ty l).1).trans (reqs_wrN _ _ _)

/-- What a masked write leaves at every address. -/
theorem rd_wrMask {bs : List (Nat × Byte)} (hr : Rising bs) (d : Data) (p a : Nat) :
    (d.wrMask p bs).rd a = if p ≤ a then mgetD bs (a - p) (d.rd a) else d.rd a := by
  induction bs generalizing d with
  | nil => simp [Data.wrMask, mgetD]
  | cons b bs ih =>
    obtain ⟨hlt, hr'⟩ := List.pairwise_cons.1 hr
    refine (ih hr' (d.wr (p + b.1) b.2)).trans ?_
    by_cases ha : p ≤ a
    · rw [if_pos ha, if_pos ha, mgetD, mgetD, mget]
      by_cases hb : b.1 = a - p
      · have hnone : mget bs (a - p) = none := by
          by_contra hc
          obtain ⟨x, hx⟩ := Option.ne_none_iff_exists'.1 hc
          have := hlt (a - p) (List.mem_map.2 ⟨_, mget_mem hx, rfl⟩)
          omega
        rw [hnone, if_pos hb, Option.getD_none, Option.getD_some, show a = p + b.1 by omega, rd_wr_self]
      · rw [if_neg hb, rd_wr_ne _ _ _ _ (by omega)]
    · rw [if_neg ha, if_neg ha, rd_wr_ne _ _ _ _ (by omega)]

theorem mgetD_of_bound {bs : List (Nat × Byte)} (h : ∀ x ∈ bs, x.1 < 128) {i : Nat} (hi : 128 ≤ i) (y : Byte) : mgetD bs i y = y := by
  rw [mgetD]
  cases hm : mget bs i with
  | none => rfl
  | some x => exact absurd (h _ (mget_mem hm)) (by simpa using hi)

section Served

variable {d : Data} {p n : Nat} {r : LineReq}

theorem applyReq_load (hl : d.isLost p = false) (hr : d.req n = some r) {ro vol : Bool} {size dest : Nat} {du : Bool}
    (ho : r.op = .load ro vol size dest du) :
    (applyReq d p r).req n = some { r with stage := .returned (d.rdN p 128) [] } ∧ (applyReq d p r).mem = d.mem := by
  unfold applyReq
  rw [if_neg (by simp [hl]), ho]
  exact ⟨req_setReq hr rfl, rfl⟩

theorem applyReq_atom (hl : d.isLost p = false) (hr : d.req n = some r) {aop ty sc dest : Nat} (ho : r.op = .atom aop ty sc dest) :
    (applyReq d p r).req n = some { r with stage := .returned [] (atomAll d p aop ty r.lanes).2 } ∧
      (applyReq d p r).mem = (atomAll d p aop ty r.lanes).1.mem := by
  unfold applyReq
  rw [if_neg (by simp [hl]), ho]
  refine ⟨req_setReq (d := (atomAll d p aop ty r.lanes).1.unmark r.plot (r.addr % 2 ^ 40)) (r := r) ?_ rfl, rfl⟩
  exact (req_congr (reqs_atomAll ..) n).trans hr

theorem applyReq_store (hl : d.isLost p = false) (hr : d.req n = some r) {bs : List (Nat × Byte)} (ho : r.op = .store bs)
    (hrise : Rising bs) (hb : ∀ x ∈ bs, x.1 < 128) :
    (applyReq d p r).req n = some { r with stage := .acked } ∧
      ∀ a, (applyReq d p r).rd a = if p ≤ a ∧ a < p + 128 then mgetD bs (a - p) (d.rd a) else d.rd a := by
  obtain ⟨d₀, h₁, h₂, he⟩ : ∃ d₀ : Data, d₀.reqs = d.reqs ∧ d₀.mem = d.mem ∧
      applyReq d p r = ((d₀.wrMask p bs).unmark r.plot (r.addr % 2 ^ 40)).setReq { r with stage := .acked } := by
    unfold applyReq
    rw [if_neg (by simp [hl]), ho]
    dsimp only
    split
    · exact ⟨d.unlose p, rfl, rfl, rfl⟩
    · exact ⟨d, rfl, rfl, rfl⟩
  rw [he]
  refine ⟨req_setReq (d := (d₀.wrMask p bs).unmark r.plot (r.addr % 2 ^ 40)) (r := r) ?_ rfl, fun a => ?_⟩
  · exact (req_congr ((reqs_wrMask bs d₀ p).trans h₁) n).trans hr
  · have hrd := rd_wrMask hrise d₀ p a
    rw [rd_congr h₂] at hrd
    refine hrd.trans ?_
    by_cases ha : p ≤ a
    · rw [if_pos ha]
      by_cases hb' : a < p + 128
      · rw [if_pos ⟨ha, hb'⟩]
      · rw [if_neg (by tauto), mgetD_of_bound hb (by omega)]
    · rw [if_neg ha, if_neg (by tauto)]

/-- What a request's operation leaves at its home: the answer of `n`, and memory. -/
def Answers (d : Data) (p n : Nat) (r : LineReq) (e : Data) : Prop :=
  (∀ ro vol size dest du, r.op = .load ro vol size dest du →
    e.req n = some { r with stage := .returned (d.rdN p 128) [] } ∧ e.mem = d.mem) ∧
  (∀ bs, r.op = .store bs → Rising bs → (∀ x ∈ bs, x.1 < 128) → e.req n = some { r with stage := .acked } ∧
    (∀ a, e.rd a = if p ≤ a ∧ a < p + 128 then mgetD bs (a - p) (d.rd a) else d.rd a)) ∧
  (∀ aop ty sc dest, r.op = .atom aop ty sc dest →
    e.req n = some { r with stage := .returned [] (atomAll d p aop ty r.lanes).2 } ∧ e.mem = (atomAll d p aop ty r.lanes).1.mem)

theorem applyReq_answers (hl : d.isLost p = false) (hr : d.req n = some r) : Answers d p n r (applyReq d p r) :=
  ⟨fun _ _ _ _ _ ho => applyReq_load hl hr ho, fun _ ho h1 h2 => applyReq_store hl hr ho h1 h2, fun _ _ _ _ ho => applyReq_atom hl hr ho⟩

theorem Answers.congr {e e' : Data} (h : Answers d p n r e) (hr : e'.reqs = e.reqs) (hm : e'.mem = e.mem) : Answers d p n r e' := by
  unfold Answers at *
  simpa only [req_congr hr, hm, rd_congr hm] using h

end Served

/-- A line that its cellar slice, in service, holds. -/
structure HeldLine (d : Data) (plot p k : Nat) (c : CellarLine) : Prop where
  hbm : p < 2 ^ 39
  slice : d.sliceOf plot p = some k
  up : mgetD d.slices k .inService = .inService
  line : mget d.cellar (p / 128) = some c

theorem serveLocal_held {d : Data} {p k : Nat} {r : LineReq} {c : CellarLine} (h : HeldLine d r.plot p k c) (beat : Nat) :
    serveLocal d beat p r .plain = (applyReq d p r).served p r := by
  unfold serveLocal
  rw [h.slice]
  dsimp only
  rw [h.up]
  dsimp only
  rw [if_neg (Nat.not_le.2 h.hbm), atSlice, h.line]

theorem held_answers {d : Data} {p k n : Nat} {r : LineReq} {c : CellarLine} (h : HeldLine d r.plot p k c) (beat : Nat)
    (hl : d.isLost p = false) (hr : d.req n = some r) : Answers d p n r (serveLocal d beat p r .plain) := by
  rw [serveLocal_held h]
  exact (applyReq_answers hl hr).congr (served_reqs ..) (served_mem ..)

/-! ### Lost lines -/

theorem serveLocal_lost {d : Data} {p : Nat} {r : LineReq} (beat : Nat) (hp : p < 2 ^ 39) (hl : d.isLost p = true)
    (hb : lineBusy d r.plot p = false) (ht : ((mget d.channels (physChan p)).bind fun c => c.training) = none) :
    serveLocal d beat p r .plain = applyReq d p r ∨ serveLocal d beat p r .plain = (applyReq d p r).served p r := by
  have hs : d.scratchHome p = p := by unfold Data.scratchHome; rw [if_pos hp]
  have hfill : d.filling p = false := by
    unfold lineBusy at hb
    simp only [hs, Bool.or_eq_false_iff] at hb
    exact hb.1.1
  have hfind : (d.fills.find? fun f => f.remote.isNone && f.line == p / 128) = none := by
    rw [List.find?_eq_none]
    intro f hf
    exact (List.any_eq_false.1 hfill) f hf
  have hhold : holdAt d (physChan p) r = none := by
    unfold holdAt
    cases hc : mget d.channels (physChan p) with
    | none => rfl
    | some c =>
      rw [hc] at ht
      have ht' : c.training = none := ht
      simp [ht']
  have hch (k : Option Nat) : atChannel d beat p k r .plain = applyReq d p r := by
    unfold atChannel
    rw [hhold]
    dsimp only
    split
    · rfl
    · rw [if_neg (by simp [parityFails]), hfind, if_pos (by simp [hl])]
  unfold serveLocal
  cases hk : d.sliceOf r.plot p with
  | none => exact .inl (hch none)
  | some k =>
    dsimp only
    cases hsl : mgetD d.slices k .inService with
    | flushing | returning =>
      unfold lineBusy at hb
      simp [hk, hsl] at hb
    | bypassed | out =>
      dsimp only
      rw [hs, if_pos hp]
      exact .inl (hch none)
    | inService =>
      dsimp only
      rw [if_neg (Nat.not_le.2 hp)]
      unfold atSlice
      cases mget d.cellar (p / 128) with
      | some c => exact .inr rfl
      | none =>
        dsimp only
        split
        · exact .inr rfl
        · exact .inl (hch _)

/-- What a request to a lost line leaves: DATA_LOST, or, of a store of all its bytes where the line is in service, no loss. -/
def LostAnswers (d : Data) (p n : Nat) (r : LineReq) (e : Data) : Prop :=
  (fullMask r.op = false → e.req n = some { r with stage := .failed .dataLost } ∧ e.mem = d.mem) ∧
  (fullMask r.op = true → d.lost.contains (p / 128) = true → d.dieOut.contains (physDie p) = false →
    d.chanOut.contains (physChan p) = false → e.req n = some { r with stage := .acked } ∧ e.lost = srem d.lost (p / 128))

theorem LostAnswers.congr {d : Data} {p n : Nat} {r : LineReq} {e e' : Data} (h : LostAnswers d p n r e) (hr : e'.reqs = e.reqs)
    (hm : e'.mem = e.mem) (hl : e'.lost = e.lost) : LostAnswers d p n r e' := by
  unfold LostAnswers at *
  simpa only [req_congr hr, hm, hl] using h

theorem applyReq_lost {d : Data} {p n : Nat} {r : LineReq} (hl : d.isLost p = true) (hr : d.req n = some r) :
    LostAnswers d p n r (applyReq d p r) := by
  refine ⟨fun hf => ?_, fun hf h1 h2 h3 => ?_⟩
  · unfold applyReq
    rw [if_pos (by simp [hl, hf])]
    exact ⟨req_setReq hr rfl, rfl⟩
  · unfold applyReq
    rw [if_neg (by rw [hl, hf, h1, h2, h3, Bool.and_false]; exact Bool.false_ne_true)]
    cases ho : r.op with
    | store bs =>
      dsimp only
      have hf' : fullMask (.store bs) = true := ho ▸ hf
      rw [if_pos hf', ← ho]
      refine ⟨req_setReq (d := ((d.unlose p).wrMask p bs).unmark r.plot (r.addr % 2 ^ 40)) (r := r) ?_ rfl, lost_wrMask bs (d.unlose p) p⟩
      exact (req_congr (reqs_wrMask bs (d.unlose p) p) n).trans hr
    | load | atom | desc =>
      rw [ho] at hf
      exact absurd hf (by simp [fullMask])

/-! ### Who waits -/

/-- Every request is a group's, and none of the host waits. -/
def Body.Ours (b : Body) : Prop := (∀ q ∈ b.data.reqs, q.rem = none ∧ q.core < 672) ∧ b.host.ops = []

theorem Body.Ours.setReqs {b : Body} (h : b.Ours) {d : Data} (hd : ∀ q ∈ d.reqs, ∃ q' ∈ b.data.reqs, q.rem = q'.rem ∧ q.core = q'.core) :
    Body.Ours { b with data := d } :=
  ⟨fun q hq => by
    obtain ⟨q', hq', hr, hc⟩ := hd q hq
    obtain ⟨h1, h2⟩ := h.1 q' hq'
    exact ⟨hr.trans h1, hc ▸ h2⟩, h.2⟩

theorem answerRemote_ours {b : Body} (h : b.Ours) (beat : Nat) : answerRemote b beat = b := by
  have hd : (b.data.reqs.filter fun r => r.rem.isSome && r.over) = [] := by
    rw [List.filter_eq_nil_iff]
    intro r hr
    simp [(h.1 r hr).1]
  unfold answerRemote
  rw [hd]
  simp

theorem recordsOver_ours {b : Body} (h : b.Ours) : b.data.recordsOver = b.data := by
  have hd : (b.data.reqs.filter fun r => r.ofDisp && writes r.op && r.over) = [] := by
    rw [List.filter_eq_nil_iff]
    intro r hr
    have := (h.1 r hr).2
    have hn : r.ofDisp = false := by
      simp only [LineReq.ofDisp, Bool.and_eq_false_iff, decide_eq_false_iff_not]
      exact .inl (.inr (by omega))
    simp [hn]
  unfold Data.recordsOver
  rw [hd]
  rfl

/-- Nobody waits for what no one else has asked. -/
theorem answerAll_ours {b : Body} (h : b.Ours) (beat : Nat) : answerAll b beat = b := by
  have he : (b.data.reqs.any fun r => r.ofEngine && r.over) = false := by
    rw [List.any_eq_false]
    intro r hr
    have := (h.1 r hr).2
    have hn : r.ofEngine = false := by
      simp only [LineReq.ofEngine, Bool.and_eq_false_iff, decide_eq_false_iff_not]
      exact .inl (.inr (by omega))
    simp [hn]
  simp only [answerAll, answerRemote_ours h, recordsOver_ours h, he, h.2, if_true, Bool.false_eq_true, if_false]

theorem mem_setReq {d : Data} {r q : LineReq} (h : q ∈ (d.setReq r).reqs) : q = r ∨ q ∈ d.reqs := by
  simp only [Data.setReq, List.mem_map] at h
  obtain ⟨x, hx, rfl⟩ := h
  split
  · exact .inl rfl
  · exact .inr hx

/-- A request applied is answered, and no other request changes. -/
theorem mem_applyReq {d : Data} {p : Nat} {r q : LineReq} (h : q ∈ (applyReq d p r).reqs) :
    (q.rem = r.rem ∧ q.core = r.core) ∨ q ∈ d.reqs := by
  unfold applyReq at h
  split at h
  · exact (mem_setReq h).imp_left (by rintro rfl; exact ⟨rfl, rfl⟩)
  · split at h
    · exact (mem_setReq h).imp_left (by rintro rfl; exact ⟨rfl, rfl⟩)
    · exact (mem_setReq h).imp_left (by rintro rfl; exact ⟨rfl, rfl⟩)
    · dsimp only at h
      refine (mem_setReq h).imp (by rintro rfl; exact ⟨rfl, rfl⟩) fun h => ?_
      have he := reqs_wrMask ‹_› (if fullMask r.op = true then d.unlose p else d) p
      have h' : q ∈ (if fullMask r.op = true then d.unlose p else d).reqs := he ▸ h
      split at h' <;> exact h'
    · dsimp only at h
      refine (mem_setReq h).imp (by rintro rfl; exact ⟨rfl, rfl⟩) fun h => ?_
      have h' : q ∈ (atomAll d p _ _ r.lanes).1.reqs := h
      rwa [reqs_atomAll] at h'

theorem Body.Ours.applyReq {b : Body} (h : b.Ours) {n p : Nat} {r : LineReq} (hr : b.data.req n = some r) {e : Data}
    (he : e.reqs = (applyReq b.data p r).reqs) : Body.Ours { b with data := e } :=
  h.setReqs fun q hq => by
    rw [he] at hq
    rcases mem_applyReq hq with hq | hq
    · exact ⟨r, List.mem_of_find?_eq_some hr, hq⟩
    · exact ⟨q, hq, rfl, rfl⟩

theorem homeLineRequest_runs (s : State) (req : Nat) (ev : HomeEvent) : ∃ f, execHomeLineRequest req ev s = s.runB f ∧
    ∀ beat (b : Body) r p, b.data.req req = some r → mayServe b.data r = true → serving b = true → r.tgt = .local p →
      f beat b = answerAll { b with data := serveLocal b.data beat p r ev } beat := by
  refine ⟨_, rfl, fun beat b r p hr hm hs ht => ?_⟩
  rw [hr]
  dsimp only
  rw [if_pos (by rw [hm, hs]; rfl), ht]

theorem mayServe_of {d : Data} {r : LineReq} (hs : r.stage = .waiting) (hm : mayArrive d r = true) : mayServe d r = true := by
  simp [mayServe, hs, hm]

/-- A request of a group at a local line: the step of its home. -/
structure AtItsHome (s : State) (n : Nat) (r : LineReq) (p : Nat) : Prop where
  req : s.body.data.req n = some r
  waits : r.stage = .waiting
  tgt : r.tgt = .local p
  arrives : mayArrive s.body.data r = true
  serving : serving s.body = true
  ours : s.body.Ours
  quiet : s.body.quiet = true

theorem serving_like {s s' : State} (h : Like s s') : serving s'.body = serving s.body := by
  obtain ⟨ps, cs, hd⟩ := h.data
  unfold serving
  rw [hd, h.pw]

theorem ours_like {s s' : State} (h : Like s s') (ho : s.body.Ours) : s'.body.Ours := by
  obtain ⟨ps, cs, hd⟩ := h.data
  exact ⟨by rw [hd]; exact ho.1, by rw [h.host]; exact ho.2⟩

theorem AtItsHome.next {s : State} {n p : Nat} {r : LineReq} (h : AtItsHome s n r p) {P : Data → Prop}
    (hP : ∀ d e : Data, d.Mute e → P d → P e)
    (hs : ∀ d, s.body.data.Mute d → d.req n = some r ∧ (serveLocal d s.alm.beat p r .plain = applyReq d p r ∨
      serveLocal d s.alm.beat p r .plain = (applyReq d p r).served p r) ∧ P (serveLocal d s.alm.beat p r .plain)) :
    ∃ t, exec (.homeLineRequest n .plain) s = .next t ∧ P t.body.data := by
  obtain ⟨f, hf, hd⟩ := homeLineRequest_runs s n .plain
  refine runB_next (c := .homeLineRequest n .plain) hf h.quiet (fun s' hl => ?_) hP
  have hm : s.body.data.Mute s'.body.data := hl.data
  obtain ⟨hr, he, hp⟩ := hs _ hm
  have ha : mayServe s'.body.data r = true := by
    obtain ⟨ps, cs, e⟩ := hm
    rw [e]
    exact mayServe_of h.waits h.arrives
  have hreqs : (serveLocal s'.body.data s.alm.beat p r .plain).reqs = (applyReq s'.body.data p r).reqs := by
    rcases he with he | he
    · rw [he]
    · rw [he, served_reqs]
  have hhome : s'.body.data.AtHome (serveLocal s'.body.data s.alm.beat p r .plain) := by
    rcases he with he | he
    · rw [he]; exact .applyReq ..
    · rw [he]; exact (Data.AtHome.applyReq ..).trans (.served ..)
  rw [hd _ _ r p hr ha ((serving_like hl).trans h.serving) h.tgt, answerAll_ours ((ours_like hl h.ours).applyReq hr hreqs)]
  exact ⟨hhome.calm, rfl, hp⟩

theorem Answers.of_mute {d : Data} {p n : Nat} {r : LineReq} {x e : Data} (h : x.Mute e) (k : Answers d p n r x) : Answers d p n r e := by
  refine k.congr h.reqs ?_
  obtain ⟨ps, cs, rfl⟩ := h
  rfl

theorem LostAnswers.of_mute {d : Data} {p n : Nat} {r : LineReq} {x e : Data} (h : x.Mute e) (k : LostAnswers d p n r x) :
    LostAnswers d p n r e := by
  obtain ⟨ps, cs, rfl⟩ := h
  exact k

theorem wrN_said (l : List Byte) (d : Data) (p : Nat) (ps : List Post) (cs : SMap (Nat × Option Nat)) :
    ({ d with posts := ps, corrected := cs } : Data).wrN p l = { d.wrN p l with posts := ps, corrected := cs } := by
  induction l generalizing d p with
  | nil => rfl
  | cons b l ih => exact ih (d.wr p b) (p + 1)

theorem atomAll_said (ls : List Lane) (d : Data) (p aop ty : Nat) (ps : List Post) (cs : SMap (Nat × Option Nat)) :
    atomAll { d with posts := ps, corrected := cs } p aop ty ls =
      ({ (atomAll d p aop ty ls).1 with posts := ps, corrected := cs }, (atomAll d p aop ty ls).2) := by
  induction ls generalizing d with
  | nil => rfl
  | cons l ls ih =>
    have h₁ : atomOne { d with posts := ps, corrected := cs } p aop ty l =
        ({ (atomOne d p aop ty l).1 with posts := ps, corrected := cs }, (atomOne d p aop ty l).2) := by
      unfold atomOne
      dsimp only
      rw [wrN_said]
      rfl
    rw [atomAll, atomAll, h₁]
    dsimp only
    rw [ih (atomOne d p aop ty l).1]

theorem Answers.of_said {d d' : Data} (h : d.Mute d') {p n : Nat} {r : LineReq} {e : Data} (k : Answers d' p n r e) : Answers d p n r e := by
  obtain ⟨ps, cs, rfl⟩ := h
  unfold Answers at *
  simp only [atomAll_said] at k
  exact k

theorem isLost_mute {d e : Data} (h : d.Mute e) (p : Nat) : e.isLost p = d.isLost p := by obtain ⟨ps, cs, rfl⟩ := h; rfl

theorem HeldLine.of_mute {d e : Data} {plot p k : Nat} {c : CellarLine} (h : HeldLine d plot p k c) (hm : d.Mute e) : HeldLine e plot p k c := by
  obtain ⟨ps, cs, rfl⟩ := hm
  exact ⟨h.hbm, h.slice, h.up, h.line⟩

theorem homeLine_held {s : State} {n p k : Nat} {r : LineReq} {c : CellarLine} (h : AtItsHome s n r p) (hl : s.body.data.isLost p = false)
    (hh : HeldLine s.body.data r.plot p k c) :
    ∃ t, exec (.homeLineRequest n .plain) s = .next t ∧ Answers s.body.data p n r t.body.data :=
  h.next (fun _ _ hm k => k.of_mute hm) fun d hm => by
    have hr : d.req n = some r := (req_congr hm.reqs n).trans h.req
    have hh' := hh.of_mute hm
    exact ⟨hr, .inr (serveLocal_held hh' _), (held_answers hh' _ ((isLost_mute hm p).trans hl) hr).of_said hm⟩

theorem homeLine_lost {s : State} {n p : Nat} {r : LineReq} (h : AtItsHome s n r p) (hp : p < 2 ^ 39) (hl : s.body.data.isLost p = true)
    (hb : lineBusy s.body.data r.plot p = false) (ht : ((mget s.body.data.channels (physChan p)).bind fun c => c.training) = none) :
    ∃ t, exec (.homeLineRequest n .plain) s = .next t ∧ LostAnswers s.body.data p n r t.body.data :=
  h.next (fun _ _ hm k => k.of_mute hm) fun d hm => by
    have hr : d.req n = some r := (req_congr hm.reqs n).trans h.req
    have he : serveLocal d s.alm.beat p r .plain = applyReq d p r ∨ serveLocal d s.alm.beat p r .plain = (applyReq d p r).served p r := by
      obtain ⟨ps, cs, rfl⟩ := hm
      exact serveLocal_lost _ hp hl hb ht
    refine ⟨hr, he, ?_⟩
    have ha : LostAnswers d p n r (serveLocal d s.alm.beat p r .plain) := by
      have hx := applyReq_lost (p := p) ((isLost_mute hm p).trans hl) hr
      rcases he with he | he
      · rw [he]; exact hx
      · rw [he]; exact hx.congr (served_reqs ..) (served_mem ..) (served_lost ..)
    obtain ⟨ps, cs, rfl⟩ := hm
    exact ha

theorem homeLine_leaves {s : State} {n p : Nat} {r : LineReq} (ev : HomeEvent) (hr : s.body.data.req n = some r) (hw : r.stage = .waiting)
    (ht : r.tgt = .local p) (ha : mayArrive s.body.data r = true) (hs : serving s.body = true) :
    Leaves (.homeLineRequest n ev) s
      (s.setBody (answerAll { s.body with data := serveLocal s.body.data s.alm.beat p r ev } s.alm.beat)) := by
  intro hf
  obtain ⟨f, he, hd⟩ := homeLineRequest_runs s n ev
  have hx := hd s.alm.beat s.body r p hr (mayServe_of hw ha) hs ht
  rw [← hx]
  have hexec : exec (.homeLineRequest n ev) s = s.runB f := he
  rw [hexec, State.runB, State.run, hf]
  rfl

theorem serveLocal_moving {d : Data} (beat : Nat) {p k t : Nat} (ev : HomeEvent) {r : LineReq} (hk : d.sliceOf r.plot p = some k)
    (h : mgetD d.slices k .inService = .flushing t ∨ mgetD d.slices k .inService = .returning t) : serveLocal d beat p r ev = d := by
  unfold serveLocal
  rw [hk]
  dsimp only
  rcases h with h | h <;> rw [h]

theorem serveLocal_training {d : Data} (beat : Nat) {p t : Nat} (ev : HomeEvent) {r : LineReq} {c : Channel} (hk : d.sliceOf r.plot p = none)
    (hc : mget d.channels (physChan p) = some c) (ht : c.training = some t) :
    serveLocal d beat p r ev = { d with channels := mput d.channels (physChan p) { c with held := sadd c.held r.id } } := by
  unfold serveLocal
  rw [hk]
  dsimp only
  unfold atChannel holdAt
  rw [hc]
  dsimp only
  rw [if_pos (by simp [ht])]

/-- Settles O25: a line's home serves one request at a time, fails what is lost and holds what must wait. -/
theorem homeRequests : Obligations.HomeRequests := by
  unfold Obligations.HomeRequests
  refine ⟨?_, ?_, ?_, ?_, ?_⟩
  · intro s req r p ev hr hw ht ha hs
    exact homeLine_leaves ev hr hw ht ha hs
  · intro d beat p k c r hp hl hk hu hc hr
    exact held_answers ⟨hp, hk, hu, hc⟩ beat hl hr
  · intro s req r p k c d hr hw ht hp ha hs ho hl hk hu hc hq
    exact homeLine_held ⟨hr, hw, ht, ha, hs, ho, hq⟩ hl ⟨hp, hk, hu, hc⟩
  · intro s req r p d hr hw ht hp ha hs ho hl hb htr hq
    exact homeLine_lost ⟨hr, hw, ht, ha, hs, ho, hq⟩ hp hl hb htr
  · intro d beat p ev r
    exact ⟨fun k t hk h => serveLocal_moving beat ev hk h, fun c t hk hc ht => serveLocal_training beat ev hk hc ht⟩

/-! ### Fills that return -/

/-- A request whose fill has come, with the answer it has waited for. -/
def LineReq.filled (r : LineReq) (f : Fill) : LineReq :=
  if f.reqs.contains r.id then { r with stage := r.pre.getD r.stage, pre := none } else r

/-- A request whose fill has failed. -/
def LineReq.spoilt (r : LineReq) (f : Fill) : LineReq :=
  if f.reqs.contains r.id then { r with stage := .failed .dataLost, pre := none } else r

/-- The data plane once a fill has come whole. -/
def Data.filledBy (d : Data) (fill : Nat) (f : Fill) : Data :=
  let e := { d with fills := d.fills.filter fun g => g.id != fill, reqs := d.reqs.map fun r => r.filled f }
  if d.physAt f.plot (f.addr % 2 ^ 40) = some (f.line * 128) then
    e.touch f.plot (f.line * 128) ((d.reqs.filter fun r => f.reqs.contains r.id).any fun r => writes r.op) (d.streamAt f.plot f.addr)
  else e

/-- The data plane once it has failed. -/
def Data.spoiltBy (d : Data) (fill : Nat) (f : Fill) : Data :=
  let e := lineUe { d with fills := d.fills.filter fun g => g.id != fill } (f.line * 128)
  { e with reqs := e.reqs.map fun r => r.spoilt f }

/-- A fill of a local line that may return. -/
structure Returns (b : Body) (fill : Nat) (f : Fill) : Prop where
  find : (b.data.fills.find? fun f => f.id == fill && f.remote.isNone) = some f
  serving : serving b = true
  trained : ((mget b.data.channels (physChan (f.line * 128))).bind fun c => c.training) = none

theorem hbmFillReturn_runs (s : State) (fill : Nat) (res : CodewordResult) : ∃ g, execHbmFillReturn fill res s = s.runB g ∧
    ∀ beat (b : Body) f, Returns b fill f →
      (res = .ok → g beat b = answerAll { b with data := settleFrames (b.data.filledBy fill f) } beat) ∧
      (res = .uncorrectable → g beat b = answerAll { b with data := settleFrames (b.data.spoiltBy fill f) } beat) := by
  refine ⟨_, rfl, fun beat b f h => ⟨fun hr => ?_, fun hr => ?_⟩⟩ <;>
  · subst hr
    dsimp only
    rw [h.find]
    dsimp only
    rw [if_neg (by rw [h.serving, h.trained]; decide)]
    exact Eq.refl _

theorem settleFrames_of_none {d : Data} (h : d.framePend = []) : settleFrames d = d := by
  unfold settleFrames
  rw [h]
  rfl

/-- What frames that retire leave: requests, lost lines, and nothing falls due. -/
structure FramesKept (d e : Data) : Prop where
  reqs : e.reqs = d.reqs
  lost : e.lost = d.lost
  calm : d.Calm e

theorem FramesKept.trans {a b c : Data} (h : FramesKept a b) (k : FramesKept b c) : FramesKept a c :=
  ⟨k.reqs.trans h.reqs, k.lost.trans h.lost, h.calm.trans k.calm⟩

theorem lost_wrN (l : List Byte) (d : Data) (p : Nat) : (d.wrN p l).lost = d.lost := by
  induction l generalizing d p with
  | nil => rfl
  | cons b l ih => exact ih (d.wr p b) (p + 1)

theorem FramesKept.wrN (d : Data) (p : Nat) (l : List Byte) : FramesKept d (d.wrN p l) :=
  ⟨reqs_wrN l d p, lost_wrN l d p, (Data.AtHome.wrN l d p).calm⟩

theorem FramesKept.of_rfl {d e : Data} (h₁ : e.reqs = d.reqs) (h₂ : e.lost = d.lost) (ha : e.abortPend = d.abortPend) (hi : e.irqs = d.irqs)
    (hc : e.ctxs = d.ctxs) (hl : e.launches = d.launches) : FramesKept d e := ⟨h₁, h₂, .of_same ha hi hc hl⟩

theorem FramesKept.saveArea (d : Data) (m : SMap (List Nat)) : FramesKept d { d with saveArea := m } := .of_rfl rfl rfl rfl rfl rfl rfl

theorem FramesKept.retired (d : Data) (p o : List Nat) : FramesKept d { d with framePend := p, frameOut := o } :=
  .of_rfl rfl rfl rfl rfl rfl rfl

/-- The contents of a frame that retires, in the frame that takes its place in a save area. -/
def Data.copyFrame (d : Data) (f : Nat) : Option Nat → Data
  | some g => d.wrN (framePhys g) (d.rdN (framePhys f) 65536)
  | none => d

/-- One frame that retires. -/
def Data.retireFrame (d : Data) (f : Nat) : Data :=
  let d := { d with framePend := srem d.framePend f, frameOut := sadd d.frameOut f }
  match d.saveArea.find? fun a => a.2.contains f with
  | none => d
  | some (die, fs) =>
    let e := d.copyFrame f ((placeSave d die).find? fun g => !fs.contains g)
    { e with saveArea := mput e.saveArea die (placeSave d die) }

theorem settleFrames_eq (d : Data) : settleFrames d = (d.framePend.filter fun f => frameFree d f).foldl Data.retireFrame d :=
  rfl

theorem copyFrame_kept (d : Data) (f : Nat) (o : Option Nat) : FramesKept d (d.copyFrame f o) := by
  cases o with
  | none => exact .of_rfl rfl rfl rfl rfl rfl rfl
  | some g => exact .wrN ..

theorem retireFrame_kept (d : Data) (f : Nat) : FramesKept d (d.retireFrame f) := by
  unfold Data.retireFrame
  have k := FramesKept.retired d (srem d.framePend f) (sadd d.frameOut f)
  dsimp only
  split
  · exact k
  · exact (k.trans (copyFrame_kept _ f _)).trans (.saveArea ..)

theorem settleFrames_kept (d : Data) : FramesKept d (settleFrames d) := by
  rw [settleFrames_eq]
  generalize d.framePend.filter _ = l
  induction l generalizing d with
  | nil => exact .of_rfl rfl rfl rfl rfl rfl rfl
  | cons f l ih => exact (retireFrame_kept d f).trans (ih _)

theorem lineUe_kept (d : Data) (p : Nat) : FramesKept (d.lose p) (lineUe d p) := by
  unfold lineUe rowPending
  dsimp only
  split <;> exact .of_rfl rfl rfl rfl rfl rfl rfl

theorem spoiltBy_lost (d : Data) (fill : Nat) (f : Fill) : (d.spoiltBy fill f).lost = sadd d.lost f.line := by
  have h := (lineUe_kept { d with fills := d.fills.filter fun g => g.id != fill } (f.line * 128)).lost
  refine Eq.trans h ?_
  simp [Data.lose]

theorem spoiltBy_reqs (d : Data) (fill : Nat) (f : Fill) : (d.spoiltBy fill f).reqs = d.reqs.map fun r => r.spoilt f :=
  congrArg (fun l => l.map fun r => LineReq.spoilt r f)
    (lineUe_kept { d with fills := d.fills.filter fun g => g.id != fill } (f.line * 128)).reqs

theorem spoiltBy_calm (d : Data) (fill : Nat) (f : Fill) : d.Calm (d.spoiltBy fill f) :=
  Data.Calm.trans (b := ({ d with fills := d.fills.filter fun g => g.id != fill } : Data).lose (f.line * 128)) (.of_same rfl rfl rfl rfl)
    ((lineUe_kept _ _).calm.trans (.of_same rfl rfl rfl rfl))

/-- A fill that has come leaves memory, and what it leaves of fills and requests. -/
theorem filledBy_spec (d : Data) (fill : Nat) (f : Fill) : (d.filledBy fill f).mem = d.mem ∧
    (d.filledBy fill f).fills = d.fills.filter (fun g => g.id != fill) ∧ (d.filledBy fill f).reqs = (d.reqs.map fun r => r.filled f) ∧
    (d.filledBy fill f).framePend = d.framePend ∧ d.Calm (d.filledBy fill f) := by
  unfold Data.filledBy
  dsimp only
  split
  · have h := touch_rest { d with fills := d.fills.filter fun g => g.id != fill, reqs := d.reqs.map fun r => r.filled f } f.plot
      (f.line * 128) ((d.reqs.filter fun r => f.reqs.contains r.id).any fun r => writes r.op) (d.streamAt f.plot f.addr)
    have h₁ := congrArg Data.mem h
    have h₂ := congrArg Data.fills h
    have h₃ := congrArg Data.reqs h
    have h₄ := congrArg Data.framePend h
    exact ⟨h₁, h₂, h₃, h₄, Data.Calm.trans (b := { d with fills := d.fills.filter fun g => g.id != fill, reqs := d.reqs.map fun r => r.filled f })
      (.of_same rfl rfl rfl rfl) (Data.AtHome.of_sameBut (touch_same ..)).calm⟩
  · exact ⟨rfl, rfl, rfl, rfl, .of_same rfl rfl rfl rfl⟩

theorem filled_who (r : LineReq) (f : Fill) : (r.filled f).rem = r.rem ∧ (r.filled f).core = r.core := by
  unfold LineReq.filled; split <;> exact ⟨rfl, rfl⟩

theorem spoilt_who (r : LineReq) (f : Fill) : (r.spoilt f).rem = r.rem ∧ (r.spoilt f).core = r.core := by
  unfold LineReq.spoilt; split <;> exact ⟨rfl, rfl⟩

theorem Body.Ours.mapReqs {b : Body} (h : b.Ours) {d : Data} {g : LineReq → LineReq} (hd : d.reqs = b.data.reqs.map g)
    (hg : ∀ r, (g r).rem = r.rem ∧ (g r).core = r.core) : Body.Ours { b with data := d } :=
  h.setReqs fun q hq => by
    rw [hd] at hq
    obtain ⟨x, hx, rfl⟩ := List.mem_map.1 hq
    exact ⟨x, hx, hg x⟩

theorem Returns.of_like {s s' : State} {fill : Nat} {f : Fill} (h : Returns s.body fill f) (hl : Like s s') : Returns s'.body fill f := by
  obtain ⟨ps, cs, hd⟩ := hl.data
  exact ⟨by rw [hd]; exact h.find, (serving_like hl).trans h.serving, by rw [hd]; exact h.trained⟩

theorem hbmFillReturn_ok {s : State} {fill : Nat} {f : Fill} (h : Returns s.body fill f) (ho : s.body.Ours)
    (hfp : s.body.data.framePend = []) (hq : s.body.quiet = true) :
    ∃ t, exec (.hbmFillReturn fill .ok) s = .next t ∧ t.body.data.mem = s.body.data.mem ∧
      t.body.data.fills = s.body.data.fills.filter (fun g => g.id != fill) ∧ t.body.data.reqs = s.body.data.reqs.map fun r => r.filled f := by
  obtain ⟨g, hg, hs⟩ := hbmFillReturn_runs s fill .ok
  refine runB_next (c := .hbmFillReturn fill .ok) (P := fun e => e.mem = s.body.data.mem ∧
    e.fills = s.body.data.fills.filter (fun g => g.id != fill) ∧ e.reqs = s.body.data.reqs.map fun r => r.filled f) hg hq
    (fun s' hl => ?_) (by rintro d e ⟨ps, cs, rfl⟩ h; exact h)
  obtain ⟨h₁, h₂, h₃, h₄, h₅⟩ := filledBy_spec s'.body.data fill f
  rw [(hs _ _ f (h.of_like hl)).1 rfl]
  obtain ⟨ps, cs, hd⟩ := hl.data
  rw [settleFrames_of_none (by rw [h₄, hd]; exact hfp), answerAll_ours ((ours_like hl ho).mapReqs h₃ fun r => filled_who r f)]
  refine ⟨h₅, rfl, ?_⟩
  dsimp only
  rw [h₁, h₂, h₃, hd]
  exact ⟨rfl, rfl, rfl⟩

theorem hbmFillReturn_uncorrectable {s : State} {fill : Nat} {f : Fill} (h : Returns s.body fill f) (ho : s.body.Ours)
    (hq : s.body.quiet = true) :
    ∃ t, exec (.hbmFillReturn fill .uncorrectable) s = .next t ∧ t.body.data.lost = sadd s.body.data.lost f.line ∧
      t.body.data.reqs = s.body.data.reqs.map fun r => r.spoilt f := by
  obtain ⟨g, hg, hs⟩ := hbmFillReturn_runs s fill .uncorrectable
  refine runB_next (c := .hbmFillReturn fill .uncorrectable) (P := fun e => e.lost = sadd s.body.data.lost f.line ∧
    e.reqs = s.body.data.reqs.map fun r => r.spoilt f) hg hq (fun s' hl => ?_) (by rintro d e ⟨ps, cs, rfl⟩ h; exact h)
  have hk := settleFrames_kept (s'.body.data.spoiltBy fill f)
  have hr := hk.reqs.trans (spoiltBy_reqs s'.body.data fill f)
  rw [(hs _ _ f (h.of_like hl)).2 rfl, answerAll_ours ((ours_like hl ho).mapReqs hr fun r => spoilt_who r f)]
  obtain ⟨ps, cs, hd⟩ := hl.data
  refine ⟨(spoiltBy_calm ..).trans hk.calm, rfl, (hk.lost.trans (spoiltBy_lost ..)).trans ?_, hr.trans ?_⟩
  · rw [hd]
  · rw [hd]

/-! ### Reads of host windows that complete -/

/-- The body once a read of a host window is over, its request in the stage `st`. -/
def Body.hostReadOver (b : Body) (req : Nat) (h : HostReq) (st : ReqStage) : Body :=
  { b with host := { b.host with reqs := b.host.reqs.filter fun q => q.id != req }, data := b.data.endReq (h.id % 2 ^ 32) st }

/-- The record and the error message of a poisoned completion. -/
def Body.poisoned (b : Body) (h : HostReq) : Body :=
  ({ b with data := b.data.post 0x0403 (7 + 256 * fnStamp h.fn) [(if h.hb then 1 else 0, 1), (fnStamp h.fn, 1), (2, 1), (0, 5), (h.bus, 8)] } : Body).emit
    (.aer h.fn)

theorem hostReadCompletion_runs (s : State) (req : Nat) (res : CplStatus) (data : List Byte) : ∃ g,
    execHostWindowReadCompletion req res data s = s.runB g ∧
    ∀ beat (b : Body) h r, (b.host.reqs.find? fun r => r.id == req) = some h → b.data.req h.id = some r → data.length = h.len →
      (res = .ok → g beat b = answerAll (b.hostReadOver req h (if writes r.op then .acked else .returned data [])) beat) ∧
      (res = .timeout → g beat b = answerAll (b.hostReadOver req h (.failed .fabricLost)) beat) ∧
      (res = .poisoned → writes r.op = false → g beat b = answerAll ((b.hostReadOver req h (.failed .dataLost)).poisoned h) beat) := by
  refine ⟨_, rfl, fun beat b h r hh hr hlen => ⟨fun he => ?_, fun he => ?_, fun he hw => ?_⟩⟩
  · subst he
    dsimp only
    rw [hh]
    dsimp only
    rw [if_neg (by simp [hlen]), hr]
    cases hw : writes r.op <;> simp [Body.hostReadOver, hw]
  · subst he
    dsimp only
    rw [hh]
    dsimp only
    rw [if_neg (by simp), hr]
    cases hw : writes r.op <;> simp [Body.hostReadOver, hw]
  · subst he
    dsimp only
    rw [hh]
    dsimp only
    rw [if_neg (by simp), hr]
    simp [Body.hostReadOver, Body.poisoned, hw]

/-- A request of a stage that the number picks is given another. -/
def LineReq.ended (r : LineReq) (n : Nat) (st : ReqStage) : LineReq := if r.id % 2 ^ 32 = n ∧ r.stage = .attached then { r with stage := st } else r

theorem endReq_reqs (d : Data) (n : Nat) (st : ReqStage) : (d.endReq n st).reqs = d.reqs.map fun r => r.ended n st := rfl

theorem ended_who (r : LineReq) (n : Nat) (st : ReqStage) : (r.ended n st).rem = r.rem ∧ (r.ended n st).core = r.core := by
  unfold LineReq.ended; split <;> exact ⟨rfl, rfl⟩

theorem req_endReq {d : Data} {n : Nat} {r : LineReq} (st : ReqStage) (h : d.req n = some r) (hs : r.stage = .attached) :
    (d.endReq (n % 2 ^ 32) st).req n = some { r with stage := st } := by
  have hid : r.id = n := by simpa using List.find?_some h
  have hcomp : ((fun (q : LineReq) => q.id == n) ∘ fun (q : LineReq) => q.ended (n % 2 ^ 32) st) = fun (q : LineReq) => q.id == n := by
    funext q
    show ((q.ended (n % 2 ^ 32) st).id == n) = (q.id == n)
    unfold LineReq.ended
    split <;> rfl
  rw [Data.req, endReq_reqs, List.find?_map, hcomp]
  have h' : d.reqs.find? (fun q => q.id == n) = some r := h
  rw [h', Option.map_some, LineReq.ended, if_pos ⟨by rw [hid], hs⟩]

theorem hostReadOver_ours {b : Body} (h : b.Ours) (req : Nat) (hr : HostReq) (st : ReqStage) : (b.hostReadOver req hr st).Ours :=
  ⟨(h.mapReqs (endReq_reqs b.data (hr.id % 2 ^ 32) st) fun r => ended_who r _ _).1, h.2⟩

theorem poisoned_ours {b : Body} (h : b.Ours) (hr : HostReq) : (b.poisoned hr).Ours := ⟨h.1, h.2⟩

/-- A read of a host window whose completion comes, and its request. -/
structure Completes (b : Body) (req : Nat) (h : HostReq) (r : LineReq) (data : List Byte) : Prop where
  find : (b.host.reqs.find? fun r => r.id == req) = some h
  req : b.data.req h.id = some r
  waits : r.stage = .attached
  len : data.length = h.len

theorem Completes.of_like {s s' : State} {req : Nat} {h : HostReq} {r : LineReq} {data : List Byte} (hc : Completes s.body req h r data)
    (hl : Like s s') : Completes s'.body req h r data :=
  ⟨by rw [hl.host]; exact hc.find, (req_congr (Data.Mute.reqs hl.data) _).trans hc.req, hc.waits, hc.len⟩

/-- A completion that leaves the request in the stage `st`, the host's state but for what is emitted as it says. -/
theorem hostRead_next {c : Instr} {s : State} {g : Nat → Body → Body} {req : Nat} {h : HostReq} {r : LineReq} {st : ReqStage}
    (he : exec c s = s.runB g) (hr : s.body.data.req h.id = some r) (hw : r.stage = .attached) (hq : s.body.quiet = true)
    (hg : ∀ s', Like s s' → ∃ b : Body, g s.alm.beat s'.body = b ∧ b.sj = s'.body.sj ∧ b.host.reqs = (s.body.host.reqs.filter fun q => q.id != req) ∧
      (s'.body.data.endReq (h.id % 2 ^ 32) st).Mute b.data) :
    ∃ t, exec c s = .next t ∧ t.body.data.req h.id = some { r with stage := st } ∧
      t.body.host.reqs = s.body.host.reqs.filter fun q => q.id != req := by
  have hl := like_finish hq
  obtain ⟨b, hb, hj, hh, hm⟩ := hg s.finish hl
  have hcalm : s.finish.body.data.Calm b.data := Data.Calm.trans (.of_same (d := s.finish.body.data) (e := s.finish.body.data.endReq (h.id % 2 ^ 32) st) rfl rfl rfl rfl) (.of_mute hm)
  have hbq : b.quiet = true := hcalm.quiet hj (finish_quiet hq)
  have hx : exec c s = .next ({ s.finish with body := b } : State).finish := by
    rw [he]
    show Host.Outcome.next ({ s.finish with body := g s.finish.alm.beat s.finish.body } : State).finish = _
    rw [hl.alm, hb]
  have hl₂ := like_finish (s := { s.finish with body := b }) hbq
  refine ⟨_, hx, ?_, by rw [hl₂.host]; exact hh⟩
  rw [req_congr (Data.Mute.reqs hl₂.data), req_congr hm.reqs]
  exact req_endReq st ((req_congr (Data.Mute.reqs hl.data) _).trans hr) hw

section Complete

variable {s : State} {req : Nat} {h : HostReq} {r : LineReq} {data : List Byte} (hc : Completes s.body req h r data) (ho : s.body.Ours)
  (hq : s.body.quiet = true)

include hc ho hq

theorem Completes.ok : ∃ t, exec (.hostWindowReadCompletion req .ok data) s = .next t ∧
    t.body.data.req h.id = some { r with stage := if writes r.op then .acked else .returned data [] } ∧
      t.body.host.reqs = s.body.host.reqs.filter fun q => q.id != req := by
  obtain ⟨g, hg, hs⟩ := hostReadCompletion_runs s req .ok data
  refine hostRead_next (c := .hostWindowReadCompletion req .ok data) hg hc.req hc.waits hq fun s' hl => ?_
  have hc' := hc.of_like hl
  refine ⟨_, (hs _ _ h r hc'.find hc'.req hc'.len).1 rfl, ?_⟩
  rw [answerAll_ours (hostReadOver_ours (ours_like hl ho) ..)]
  exact ⟨rfl, by rw [← hl.host]; rfl, .refl _⟩

theorem Completes.timeout : ∃ t, exec (.hostWindowReadCompletion req .timeout data) s = .next t ∧
    t.body.data.req h.id = some { r with stage := .failed .fabricLost } ∧
      t.body.host.reqs = s.body.host.reqs.filter fun q => q.id != req := by
  obtain ⟨g, hg, hs⟩ := hostReadCompletion_runs s req .timeout data
  refine hostRead_next (c := .hostWindowReadCompletion req .timeout data) hg hc.req hc.waits hq fun s' hl => ?_
  have hc' := hc.of_like hl
  refine ⟨_, (hs _ _ h r hc'.find hc'.req hc'.len).2.1 rfl, ?_⟩
  rw [answerAll_ours (hostReadOver_ours (ours_like hl ho) ..)]
  exact ⟨rfl, by rw [← hl.host]; rfl, .refl _⟩

theorem Completes.poisoned (hw : writes r.op = false) : ∃ t, exec (.hostWindowReadCompletion req .poisoned data) s = .next t ∧
    t.body.data.req h.id = some { r with stage := .failed .dataLost } ∧
      t.body.host.reqs = s.body.host.reqs.filter fun q => q.id != req := by
  obtain ⟨g, hg, hs⟩ := hostReadCompletion_runs s req .poisoned data
  refine hostRead_next (c := .hostWindowReadCompletion req .poisoned data) hg hc.req hc.waits hq fun s' hl => ?_
  have hc' := hc.of_like hl
  refine ⟨_, (hs _ _ h r hc'.find hc'.req hc'.len).2.2 rfl hw, ?_⟩
  rw [answerAll_ours (poisoned_ours (hostReadOver_ours (ours_like hl ho) ..) h)]
  exact ⟨rfl, by rw [← hl.host]; rfl, _, _, rfl⟩

end Complete

/-- Settles O26: fills and completions answer the requests that have waited for them. -/
theorem fillReturns : Obligations.FillReturns := by
  unfold Obligations.FillReturns
  refine ⟨?_, ?_⟩
  · intro s fill f d hf hs ht ho hfp hq
    have hret : Returns s.body fill f := ⟨hf, hs, ht⟩
    refine ⟨hbmFillReturn_ok hret ho hfp hq, ?_⟩
    obtain ⟨t, hx, hlost, hreqs⟩ := hbmFillReturn_uncorrectable hret ho hq
    refine ⟨t, hx, hlost, fun r hr hin => ?_⟩
    rw [hreqs] at hr
    obtain ⟨q, -, rfl⟩ := List.mem_map.1 hr
    by_cases hq : f.reqs.contains q.id = true
    · rw [LineReq.spoilt, if_pos hq]
    · rw [LineReq.spoilt, if_neg hq] at hin
      exact absurd hin hq
  · intro s req h r data hf hid hr hw hlen ho hq
    have hc : Completes s.body req h r data := ⟨hf, hr, hw, hlen⟩
    refine ⟨fun hop => ?_, ?_, fun hop => ?_, fun hop => ?_⟩
    · obtain ⟨t, hx, h₁, h₂⟩ := hc.ok ho hq
      exact ⟨t, hx, by rw [h₁, hop]; rfl, h₂⟩
    · obtain ⟨t, hx, h₁, -⟩ := hc.timeout ho hq
      exact ⟨t, hx, h₁⟩
    · obtain ⟨t, hx, h₁, -⟩ := hc.poisoned ho hq hop
      exact ⟨t, hx, h₁⟩
    · obtain ⟨t, hx, h₁, -⟩ := hc.ok ho hq
      exact ⟨t, hx, by rw [h₁, hop]; rfl⟩

end Sys2Proof.Machine
end

section
/-! A descriptor that names a barrier of which its plot has no grant. -/

namespace Sys2Proof.Machine

/-- A descriptor that names package barrier 0, of which its plot has no grant. -/
def ungrantedDesc : EngDesc :=
  { bytes := [1, 0, 0, 3, 0, 0, 1, 0], addr := 0, plot := 0, ctx := 0, owner := .group 0 0, own := none }

/-- It has ended with CARVE_OUT, and writes no status record. -/
def ungrantedRun : EngRun := { EngRun.fresh ungrantedDesc 0 with status := 1, phase := 1 }

/-- The data plane in which that is what the first courier of die 0 runs. -/
def ungrantedData : Data := { Data.reset with halted := false, engines := [(0, { queue := [], running := [ungrantedRun] })] }

/-- A module that has nothing else. -/
def ungrantedState : State := { State.reset with body := { Body.reset with data := ungrantedData } }

theorem engineDescComplete_ungranted (beat : Nat) (b : Body) (ps : List Post) (cs : SMap (Nat × Option Nat))
    (h : b.data = { ungrantedData with posts := ps, corrected := cs }) : endRun b beat 0 ungrantedRun = { b with data := b.data.dropRun 0 0 } := by
  obtain ⟨data⟩ := b
  obtain rfl : data = _ := h
  rfl

theorem pkgBar_of_mute {d e : Data} (h : d.Mute e) : e.pkgBar = d.pkgBar := by
  obtain ⟨ps, cs, rfl⟩ := h
  rfl

theorem engineDescComplete_runs (s : State) : ∃ f, execEngineDescComplete (.courier 0 0) s = s.runB f ∧
    ∀ beat (b : Body) (ps : List Post) (cs : SMap (Nat × Option Nat)), b.data = { ungrantedData with posts := ps, corrected := cs } →
      f beat b = { b with data := b.data.dropRun 0 0 } := by
  refine ⟨_, rfl, fun beat b ps cs hd => ?_⟩
  have he := engineDescComplete_ungranted beat b ps cs hd
  have hr : (b.data.engine (engNo (.courier 0 0))).running = [ungrantedRun] := by rw [hd]; rfl
  have hh : b.data.halted = false := by rw [hd]; rfl
  dsimp only
  rw [hr]
  dsimp only
  rw [if_neg (by rw [hh]; decide), if_pos (by decide), if_pos (c := ungrantedRun.outs = []) rfl]
  exact he

/-- Nothing is signalled: the run leaves its engine, and that is all. -/
theorem acts_ungranted : Acts (.engineDescComplete (.courier 0 0)) ungrantedState (ungrantedData.dropRun 0 0) := by
  obtain ⟨f, hf, hs⟩ := engineDescComplete_runs ungrantedState
  refine acts_of_runB (c := .engineDescComplete (.courier 0 0)) hf fun s' hl => ?_
  obtain ⟨ps, cs, hd⟩ := hl.data
  exact ⟨_, hs _ _ ps cs hd, ps, cs, by rw [hd]; rfl⟩

/-- Refutes O28: a descriptor that names a barrier its plot has no grant of signals nothing when it completes, where the statement has
the barrier count an arrival. -/
theorem not_engineDescriptors : ¬ Obligations.EngineDescriptors := by
  unfold Obligations.EngineDescriptors
  rintro ⟨-, hdone, -⟩
  have h := hdone ungrantedState (.courier 0 0) ungrantedRun [] rfl (by decide) rfl rfl (by decide) (.inr ⟨rfl, by decide, rfl⟩)
  have hm := Acts.unique h acts_ungranted rfl rfl rfl
  have hp : (ungrantedData.dropRun 0 0).pkgBar = _ := pkgBar_of_mute hm
  exact absurd hp (by decide)

end Sys2Proof.Machine
end

section
/-! What the host does through its ports: BAR2, doorbells and registers. -/

namespace Sys2Proof.Machine

/-! ### Commands that change the host's side alone -/

/-- The state with its host side changed by `F`. -/
def State.hostBy (s : State) (F : HostSt → HostSt) : State := { s with body := { s.body with host := F s.body.host } }

theorem does_host_of_run {c : Instr} {s : State} {f : State → State} {F : HostSt → HostSt} (he : exec c s = s.run f)
    (hf : ∀ s' : State, Like s s' → f s' = s'.hostBy F) : Does c s (s.hostBy F) := by
  refine does_of_run he fun s' hl => ?_
  rw [hf s' hl]
  exact ⟨⟨hl.pending, hl.alm, hl.latch, hl.mg, congrArg F hl.host, hl.mgdb, hl.fab, hl.pw, hl.replay, hl.data, hl.md, hl.hl⟩, rfl⟩

theorem does_host_of_runB {c : Instr} {s : State} {f : Nat → Body → Body} {F : HostSt → HostSt} (he : exec c s = s.runB f)
    (hf : ∀ s' : State, Like s s' → ∃ e, f s.alm.beat s'.body = { s'.body with host := F s'.body.host, data := e } ∧ s'.body.data.Mute e) :
    Does c s (s.hostBy F) := by
  refine does_of_run (f := fun s => { s with body := f s.alm.beat s.body }) he fun s' hl => ?_
  obtain ⟨e, hfe, hm⟩ := hf s' hl
  rw [hl.alm, hfe]
  exact ⟨⟨hl.pending, rfl, hl.latch, hl.mg, congrArg F hl.host, hl.mgdb, hl.fab, hl.pw, hl.replay, Data.Mute.trans hl.data hm, hl.md, hl.hl⟩, rfl⟩

/-! ### What the end of a command leaves of what the host sees -/

theorem Data.Mute.busyAt {d e : Data} (h : d.Mute e) (plot a n : Nat) : e.busyAt plot a n = d.busyAt plot a n := by
  obtain ⟨ps, cs, rfl⟩ := h
  rfl

theorem Data.Mute.bar2Bytes {d e : Data} (h : d.Mute e) (o : MemObj) (x n : Nat) : bar2Bytes e o x n = bar2Bytes d o x n := by
  obtain ⟨ps, cs, rfl⟩ := h
  rfl

theorem Data.Mute.pigeons {d e : Data} (h : d.Mute e) : e.pigeons = d.pigeons := by
  obtain ⟨ps, cs, rfl⟩ := h
  rfl

theorem Data.Mute.mayRing {d e : Data} (h : d.Mute e) (f : Fn) (p : Nat) : mayRing e f p = mayRing d f p := by
  obtain ⟨ps, cs, rfl⟩ := h
  rfl

theorem Data.Mute.doorbellSeq {d e : Data} (h : d.Mute e) (n : Nat) : e.doorbellSeq n = d.doorbellSeq n := by
  obtain ⟨ps, cs, rfl⟩ := h
  rfl

theorem Data.Mute.devRead {d e : Data} (h : d.Mute e) (p a n : Nat) : e.devRead p a n = d.devRead p a n := by
  obtain ⟨ps, cs, rfl⟩ := h
  rfl

theorem Data.Mute.ringPh {d e : Data} (h : d.Mute e) (n : Nat) : (d.ringPh n).Mute (e.ringPh n) := by
  unfold Data.ringPh
  rw [h.pigeons]
  cases mget d.pigeons n with
  | none => exact h
  | some p =>
    obtain ⟨hd, hx⟩ := h.sRead p.ctx 4 (p.ring + 16) 4
    generalize he : e.sRead p.ctx 4 (p.ring + 16) 4 = y at hd hx
    generalize hd' : d.sRead p.ctx 4 (p.ring + 16) 4 = z at hd hx
    obtain ⟨e', ye⟩ := y
    obtain ⟨d', yd⟩ := z
    obtain rfl : ye = yd := hx
    dsimp only
    rw [he, hd']
    cases ye with
    | none => exact hd
    | some x => exact Data.Mute.sWrite hd ..

theorem Like.live {s s' : State} (h : Like s s') (f : Fn) : s'.body.host.live f = s.live f := by rw [h.host]; rfl

theorem Like.bar2At {s s' : State} (h : Like s s') (f : Fn) (x : Nat) : bar2At s'.body f x = bar2At s.body f x := by
  obtain ⟨ps, cs, hd⟩ := h.data
  unfold Machine.bar2At
  rw [h.host, hd]
  rfl

theorem Like.bar2Range {s s' : State} (h : Like s s') (f : Fn) (off len : Nat) : bar2Range s'.body f off len = bar2Range s.body f off len := by
  simp only [Machine.bar2Range, h.bar2At]

/-! ### Requests that take effect at once, or wait -/

theorem waits_nil (o : HostOp) : o.waits [] = false := by
  unfold HostOp.waits
  split <;> rfl

theorem hostAsk_of_done {b b' : Body} {o : HostOp} (hops : b.host.ops = []) (h : b.hostDo o = some b') : b.hostAsk o = b' := by
  unfold Body.hostAsk
  rw [hops, waits_nil, h]
  rfl

/-- One more access of BAR2 that nothing maps. -/
def HostSt.countUnmapped (h : HostSt) (f : Fn) : HostSt := h.setFn f { h.fn f with unmapped := (h.fn f).unmapped + 1 }

/-- One more ring that is refused. -/
def HostSt.countRefused (h : HostSt) (f : Fn) : HostSt := h.setFn f { h.fn f with refused := (h.fn f).refused + 1 }

/-- A request that waits. -/
def Body.queueOp (b : Body) (o : HostOp) : Body := { b with host := { b.host with ops := b.host.ops ++ [o] } }

theorem hostAsk_of_waits {b : Body} {o : HostOp} (h : o.waits b.host.ops = true ∨ b.hostDo o = none) : b.hostAsk o = b.queueOp o := by
  unfold Body.hostAsk
  by_cases hw : o.waits b.host.ops = true
  · rw [if_pos hw]
    rfl
  · rw [if_neg hw, h.resolve_left hw]
    rfl

/-! ### BAR2 -/

section Bar2

variable {s : State} {fn : Fn} {off : Nat}

theorem hostBar2Read_runs (s : State) (fn : Fn) (off len : Nat) : ∃ f, execHostBar2Read fn off len s = s.runB f ∧
    ∀ beat (b : Body), b.host.live fn = true → (bar2Range b fn off len = none → f beat b = (b.unmapped fn).emit (.unsupported fn)) ∧
      ∀ x, bar2Range b fn off len = some x → f beat b = b.hostAsk ⟨fn, off, len, .read⟩ := by
  refine ⟨_, rfl, fun beat b h => ⟨fun hr => ?_, fun x hr => ?_⟩⟩ <;>
  · rw [h, hr]
    rfl

theorem hostDo_read {b : Body} {len x : Nat} {o : MemObj} (hl : b.host.live fn = true) (hr : bar2Range b fn off len = some (o, x))
    (hb : b.data.busyAt o.plot (o.base + x) len = false) :
    b.hostDo ⟨fn, off, len, .read⟩ = some (b.emit (.readData fn (bar2Bytes b.data o x len).1 (bar2Bytes b.data o x len).2)) := by
  unfold Body.hostDo
  dsimp only
  rw [hl, hr]
  dsimp only
  rw [hb]
  rfl

theorem hostBar2Read_mapped {len x : Nat} {o : MemObj} (h : s.live fn = true) (hr : bar2Range s.body fn off len = some (o, x))
    (hops : s.body.host.ops = []) (hb : s.body.data.busyAt o.plot (o.base + x) len = false) : Does (.hostBar2Read fn off len) s
      (s.emit (.readData fn (bar2Bytes s.body.data o x len).1 (bar2Bytes s.body.data o x len).2)) := by
  obtain ⟨f, hf, hs⟩ := hostBar2Read_runs s fn off len
  refine does_host_of_runB (F := fun h => h.emit (.readData fn (bar2Bytes s.body.data o x len).1 (bar2Bytes s.body.data o x len).2)) (c := .hostBar2Read fn off len) hf fun s' hl => ⟨s'.body.data, ?_, .refl _⟩
  have hm : s.body.data.Mute s'.body.data := hl.data
  have hr' := (hl.bar2Range fn off len).trans hr
  rw [(hs _ _ ((hl.live fn).trans h)).2 _ hr', hostAsk_of_done (by rw [hl.host, hops])
    (hostDo_read ((hl.live fn).trans h) hr' ((hm.busyAt _ _ _).trans hb)), hm.bar2Bytes]
  rfl

theorem hostBar2Read_unmapped {len : Nat} (h : s.live fn = true) (hr : bar2Range s.body fn off len = none) :
    Does (.hostBar2Read fn off len) s ((s.modFn fn fun r => { r with unmapped := r.unmapped + 1 }).emit (.unsupported fn)) := by
  obtain ⟨f, hf, hs⟩ := hostBar2Read_runs s fn off len
  refine does_host_of_runB (F := fun h => (h.countUnmapped fn).emit (.unsupported fn)) (c := .hostBar2Read fn off len) hf fun s' hl => ⟨s'.body.data, ?_, .refl _⟩
  rw [(hs _ _ ((hl.live fn).trans h)).1 ((hl.bar2Range fn off len).trans hr)]
  rfl

theorem hostBar2Write_runs (s : State) (fn : Fn) (off : Nat) (l : List Byte) (p : Bool) : ∃ f, execHostBar2Write fn off l p s = s.runB f ∧
    ∀ beat (b : Body), b.host.live fn = true →
      (p = true → f beat b = (b.post 0x0403 (7 + 256 * fnStamp fn) (hostFields fn 1 off)).emit (.aer fn)) ∧
      (p = false → bar2Range b fn off l.length = none → f beat b = b.unmapped fn) ∧
      ∀ o x, p = false → bar2Range b fn off l.length = some (o, x) → l ≠ [] → f beat b =
        (hostParts b.data o x l).foldl (fun (b : Body) k => b.hostStore fn o x l k)
          (b.queueOp ⟨fn, off, l.length, .write (hostIds b.data o x l)⟩) := by
  refine ⟨_, rfl, fun beat b h => ⟨fun hp => ?_, fun hp hr => ?_, fun o x hp hr hne => ?_⟩⟩ <;> subst hp <;> dsimp only <;> rw [h]
  · rfl
  · rw [hr]
    rfl
  · rw [hr]
    dsimp only
    rw [if_neg hne]
    rfl

theorem hostBar2Write_unmapped {l : List Byte} (h : s.live fn = true) (hr : bar2Range s.body fn off l.length = none) :
    Does (.hostBar2Write fn off l false) s (s.modFn fn fun r => { r with unmapped := r.unmapped + 1 }) := by
  obtain ⟨f, hf, hs⟩ := hostBar2Write_runs s fn off l false
  refine does_host_of_runB (F := fun h => h.countUnmapped fn) (c := .hostBar2Write fn off l false) hf fun s' hl => ⟨s'.body.data, ?_, .refl _⟩
  rw [(hs _ _ ((hl.live fn).trans h)).2.1 rfl ((hl.bar2Range fn off l.length).trans hr)]
  rfl

theorem hostBar2Write_poisoned {l : List Byte} (h : s.live fn = true) : Does (.hostBar2Write fn off l true) s (s.emit (.aer fn)) := by
  obtain ⟨f, hf, hs⟩ := hostBar2Write_runs s fn off l true
  refine does_host_of_runB (F := fun h => h.emit (.aer fn)) (c := .hostBar2Write fn off l true) hf fun s' hl =>
    ⟨s'.body.data.post 0x0403 (7 + 256 * fnStamp fn) (hostFields fn 1 off), ?_, _, _, rfl⟩
  rw [(hs _ _ ((hl.live fn).trans h)).1 rfl]
  rfl

end Bar2

/-! ### The parts of a write -/

theorem mem_parts {u a k : Nat} (hu : 0 < u) {y : Nat × Nat} (h : y ∈ parts u a k) :
    a ≤ y.1 ∧ y.1 + y.2 ≤ a + k ∧ y.1 % u + y.2 ≤ u := by
  unfold parts at h
  split at h
  · simp at h
  · next hk =>
    obtain ⟨i, hi, rfl⟩ := List.mem_map.1 h
    have hi' : (i + 1) * u ≤ a % u + k + u - 1 := (Nat.le_div_iff_mul_le hu).1 (List.mem_range.1 hi)
    have ha : a / u * u + a % u = a := by rw [Nat.mul_comm]; exact Nat.div_add_mod a u
    have hr : a % u < u := Nat.mod_lt _ hu
    dsimp only
    have hlo : (a / u + i) * u = a / u * u + i * u := Nat.add_mul ..
    have hhi : (a / u + i + 1) * u = a / u * u + i * u + u := by rw [Nat.add_mul, hlo, Nat.one_mul]
    rw [Nat.add_mul, Nat.one_mul] at hi'
    by_cases h0 : i = 0
    · subst h0
      rw [if_pos rfl, hhi]
      omega
    · have h1 : u ≤ i * u := Nat.le_mul_of_pos_left u (Nat.pos_of_ne_zero h0)
      have hz : (a / u + i) * u % u = 0 := Nat.mul_mod_left ..
      rw [if_neg h0, hhi, hz, hlo]
      omega

theorem parts_cover {u a k j : Nat} (hu : 0 < u) (h₁ : a ≤ j) (h₂ : j < a + k) :
    ∃ y ∈ parts u a k, y.1 ≤ j ∧ j < y.1 + y.2 := by
  have ha : a / u * u + a % u = a := by rw [Nat.mul_comm]; exact Nat.div_add_mod a u
  have hj : j / u * u + j % u = j := by rw [Nat.mul_comm]; exact Nat.div_add_mod j u
  have hjr : j % u < u := Nat.mod_lt _ hu
  have har : a % u < u := Nat.mod_lt _ hu
  have hq : a / u ≤ j / u := Nat.div_le_div_right h₁
  obtain ⟨i, hi⟩ := Nat.exists_eq_add_of_le hq
  have hm : j / u * u = a / u * u + i * u := by rw [hi, Nat.add_mul]
  have hlo : (a / u + i) * u = a / u * u + i * u := Nat.add_mul ..
  have hhi : (a / u + i + 1) * u = a / u * u + i * u + u := by rw [Nat.add_mul, hlo, Nat.one_mul]
  unfold parts
  rw [if_neg (by omega)]
  refine ⟨_, List.mem_map.2 ⟨i, List.mem_range.2 ((Nat.le_div_iff_mul_le hu).2 ?_), rfl⟩, ?_⟩
  · rw [Nat.succ_mul]
    omega
  · dsimp only
    rw [hhi]
    split
    · next h0 => subst h0; omega
    · rw [hlo]
      omega

theorem mem_hostParts {d : Data} {o : MemObj} {x : Nat} {l : List Byte} {k : Nat × Nat} (h : k ∈ hostParts d o x l) :
    x ≤ k.1 ∧ k.1 + k.2 ≤ x + l.length ∧ k.1 % 128 + k.2 ≤ 128 ∧ (k.2 ≤ 8 ∨ k.2 = 128) := by
  obtain ⟨y, hy, hk⟩ := List.mem_flatMap.1 h
  obtain ⟨h₁, h₂, h₃⟩ := mem_parts (by decide) hy
  split at hk
  · next hc =>
    obtain rfl := List.mem_singleton.1 hk
    exact ⟨h₁, h₂, h₃, .inr hc.1⟩
  · obtain ⟨k₁, k₂, k₃⟩ := mem_parts (by decide) hk
    omega

theorem hostParts_cover {d : Data} {o : MemObj} {x j : Nat} {l : List Byte} (h₁ : x ≤ j) (h₂ : j < x + l.length) :
    ∃ k ∈ hostParts d o x l, k.1 ≤ j ∧ j < k.1 + k.2 := by
  obtain ⟨y, hy, hy₁, hy₂⟩ := parts_cover (u := 128) (by decide) h₁ h₂
  by_cases hc : y.2 = 128 ∧ ((objPhys o y.1).map d.isLost) = some true
  · exact ⟨y, List.mem_flatMap.2 ⟨y, hy, by rw [if_pos hc]; exact List.mem_singleton_self y⟩, hy₁, hy₂⟩
  · obtain ⟨k, hk, hk₁, hk₂⟩ := parts_cover (u := 8) (by decide) hy₁ hy₂
    exact ⟨k, List.mem_flatMap.2 ⟨y, hy, by rw [if_neg hc]; exact hk⟩, hk₁, hk₂⟩

/-- The request number `n`, of part `k` of a write. -/
def Data.storeReq (d : Data) (f : Fn) (o : MemObj) (x : Nat) (l : List Byte) (n : Nat) (k : Nat × Nat) : LineReq :=
  { id := n, core := fnCore (fnKey f), slot := 0, iseq := 0, age := 0, plot := o.plot, pc := 0, opcode := 0,
    addr := d.node * 2 ^ 40 + o.base + k.1 / 128 * 128, tgt := .local ((objPhys o (k.1 / 128 * 128)).getD 0),
    op := .store ((List.range k.2).map fun i => ((k.1 + i) % 128, l.getD (k.1 + i - x) 0)), lanes := [],
    stage := .waiting, pre := none, rem := none, accepted := none }

/-- The requests of the parts `ks`, numbered from `n` on. -/
def Data.storeReqs (d : Data) (f : Fn) (o : MemObj) (x : Nat) (l : List Byte) (n : Nat) (ks : List (Nat × Nat)) : List LineReq :=
  (ks.zipIdx n).map fun e => d.storeReq f o x l e.2 e.1

theorem hostStore_foldl (f : Fn) (o : MemObj) (x : Nat) (l : List Byte) (ks : List (Nat × Nat)) (b : Body) :
    ks.foldl (fun (b : Body) k => b.hostStore f o x l k) b = { b with data := { b.data with
      nextId := b.data.nextId + ks.length
      reqs := b.data.reqs ++ b.data.storeReqs f o x l b.data.nextId ks } } := by
  induction ks generalizing b with
  | nil => simp [Data.storeReqs]
  | cons k ks ih =>
    rw [List.foldl_cons, ih]
    have hlen : b.data.nextId + 1 + ks.length = b.data.nextId + (ks.length + 1) := by omega
    have hreqs : b.data.reqs ++ [b.data.storeReq f o x l b.data.nextId k] ++ b.data.storeReqs f o x l (b.data.nextId + 1) ks =
        b.data.reqs ++ b.data.storeReqs f o x l b.data.nextId (k :: ks) := by
      rw [List.append_assoc]
      rfl
    rw [← hreqs, List.length_cons, ← hlen]
    rfl

theorem storeReqs_ids (d : Data) (f : Fn) (o : MemObj) (x : Nat) (l : List Byte) (n : Nat) (ks : List (Nat × Nat)) :
    (d.storeReqs f o x l n ks).map (fun r => r.id) = (List.range ks.length).map fun i => n + i := by
  rw [Data.storeReqs, List.map_map]
  show (ks.zipIdx n).map Prod.snd = _
  rw [List.zipIdx_map_snd, List.range'_eq_map_range]

theorem storeReqs_length (d : Data) (f : Fn) (o : MemObj) (x : Nat) (l : List Byte) (n : Nat) (ks : List (Nat × Nat)) :
    (d.storeReqs f o x l n ks).length = ks.length := by
  rw [Data.storeReqs, List.length_map, List.length_zipIdx]

theorem mem_storeReqs {d : Data} {f : Fn} {o : MemObj} {x n : Nat} {l : List Byte} {ks : List (Nat × Nat)} {r : LineReq}
    (h : r ∈ d.storeReqs f o x l n ks) : ∃ k ∈ ks, ∃ i, r = d.storeReq f o x l i k := by
  obtain ⟨e, he, rfl⟩ := List.mem_map.1 h
  exact ⟨e.1, List.fst_mem_of_mem_zipIdx he, e.2, rfl⟩

theorem storeReqs_of_mem (d : Data) (f : Fn) (o : MemObj) (x n : Nat) (l : List Byte) {ks : List (Nat × Nat)} {k : Nat × Nat}
    (h : k ∈ ks) : ∃ i, d.storeReq f o x l i k ∈ d.storeReqs f o x l n ks := by
  rw [← List.zipIdx_map_fst n ks] at h
  obtain ⟨e, he, rfl⟩ := List.mem_map.1 h
  exact ⟨e.2, List.mem_map.2 ⟨e, he, rfl⟩⟩

/-- What one part of a write asks for. -/
theorem storeReq_spec {d d' : Data} {f : Fn} {o : MemObj} {x n : Nat} {l : List Byte} {k : Nat × Nat} (hk : k ∈ hostParts d' o x l) :
    ∃ j bs, (d.storeReq f o x l n k).op = .store bs ∧ 128 ∣ j ∧ (d.storeReq f o x l n k).addr = d.node * 2 ^ 40 + o.base + j ∧
      (d.storeReq f o x l n k).tgt = .local ((objPhys o j).getD 0) ∧ (bs.length ≤ 8 ∨ fullMask (d.storeReq f o x l n k).op = true) ∧
      ∀ y ∈ bs, y.1 < 128 ∧ x ≤ j + y.1 ∧ j + y.1 < x + l.length ∧ some y.2 = l[j + y.1 - x]? := by
  obtain ⟨h₁, h₂, h₃, h₄⟩ := mem_hostParts hk
  refine ⟨k.1 / 128 * 128, (List.range k.2).map fun i => ((k.1 + i) % 128, l.getD (k.1 + i - x) 0), rfl, Dvd.intro_left _ rfl, rfl, rfl, ?_,
    fun y hy => ?_⟩
  · rcases h₄ with h₄ | h₄
    · exact .inl (by rw [List.length_map, List.length_range]; exact h₄)
    · refine .inr (List.all_eq_true.2 fun i hi => List.any_eq_true.2 ⟨_, List.mem_map.2 ⟨i, ?_, rfl⟩, ?_⟩)
      · rw [List.mem_range] at hi ⊢
        omega
      · rw [List.mem_range] at hi
        rw [beq_iff_eq]
        dsimp only
        omega
  · obtain ⟨i, hi, rfl⟩ := List.mem_map.1 hy
    rw [List.mem_range] at hi
    have hj : k.1 / 128 * 128 + (k.1 + i) % 128 = k.1 + i := by omega
    dsimp only
    rw [hj, List.getElem?_eq_getElem (by omega), List.getD_eq_getElem _ _ (by omega)]
    exact ⟨by omega, by omega, by omega, rfl⟩

/-- Every byte of a write is in one of its parts. -/
theorem storeReqs_cover (d d' : Data) (f : Fn) (o : MemObj) (x n : Nat) (l : List Byte) {i : Nat} (hi : i < l.length) :
    ∃ r ∈ d.storeReqs f o x l n (hostParts d' o x l), ∃ bs, r.op = .store bs ∧ ∃ y ∈ bs, y.1 = (x + i) % 128 ∧
      r.addr = d.node * 2 ^ 40 + o.base + (x + i) / 128 * 128 := by
  obtain ⟨k, hk, h₁, h₂⟩ := hostParts_cover (d := d') (o := o) (x := x) (j := x + i) (l := l) (by omega) (by omega)
  obtain ⟨-, -, h₃, -⟩ := mem_hostParts hk
  obtain ⟨m, hm⟩ := storeReqs_of_mem d f o x n l hk
  refine ⟨_, hm, _, rfl, _, List.mem_map.2 ⟨x + i - k.1, List.mem_range.2 (by omega), rfl⟩, ?_, ?_⟩
  · dsimp only
    rw [Nat.add_sub_cancel' h₁]
  · have : k.1 / 128 = (x + i) / 128 := by omega
    rw [← this]
    rfl

theorem hostBar2Write_mapped {s : State} {fn : Fn} {off x : Nat} {l : List Byte} {o : MemObj} (h : s.live fn = true) (hne : l ≠ [])
    (hr : bar2Range s.body fn off l.length = some (o, x)) : Makes (.hostBar2Write fn off l false) s fun u =>
      ∃ new, u.body.data = { s.body.data with nextId := s.body.data.nextId + new.length, reqs := s.body.data.reqs ++ new } ∧
        u.body.host.ops = s.body.host.ops ++ [⟨fn, off, l.length, .write (new.map fun r => r.id)⟩] ∧
        (∀ r ∈ new, r.core = fnCore (fnKey fn) ∧ r.stage = .waiting ∧ r.plot = o.plot ∧ ∃ k bs, r.op = .store bs ∧ 128 ∣ k ∧
          r.addr = s.body.data.node * 2 ^ 40 + o.base + k ∧ r.tgt = .local ((objPhys o k).getD 0) ∧ (bs.length ≤ 8 ∨ fullMask r.op = true) ∧
          ∀ y ∈ bs, y.1 < 128 ∧ x ≤ k + y.1 ∧ k + y.1 < x + l.length ∧ some y.2 = l[k + y.1 - x]?) ∧
        (∀ i < l.length, ∃ r ∈ new, ∃ bs, r.op = .store bs ∧ ∃ y ∈ bs, y.1 = (x + i) % 128 ∧
          r.addr = s.body.data.node * 2 ^ 40 + o.base + (x + i) / 128 * 128) := by
  intro hset
  obtain ⟨f, hf, hs⟩ := hostBar2Write_runs s fn off l false
  refine ⟨{ s with body := f s.alm.beat s.body }, ?_, s.body.data.storeReqs fn o x l s.body.data.nextId (hostParts s.body.data o x l), ?_⟩
  · show execHostBar2Write fn off l false s = _
    rw [hf, State.runB, State.run, hset]
  · show (f s.alm.beat s.body).data = _ ∧ (f s.alm.beat s.body).host.ops = _ ∧ _
    rw [(hs _ _ h).2.2 o x rfl hr hne, hostStore_foldl, storeReqs_length, storeReqs_ids]
    refine ⟨rfl, rfl, fun r hmem => ?_, fun i hi => storeReqs_cover _ _ _ _ _ _ _ hi⟩
    obtain ⟨k, hk, n, rfl⟩ := mem_storeReqs hmem
    exact ⟨rfl, rfl, rfl, storeReq_spec hk⟩

/-! ### Doorbells -/

section Rings

variable {s : State} {fn : Fn}

theorem phRing_runs (s : State) (fn : Fn) (v : BitVec 32) : ∃ f, execPhRing fn v s = s.runB f ∧ ∀ beat (b : Body), b.host.live fn = true →
    (4096 ≤ v.toNat → f beat b = b.refuseRing fn) ∧ (v.toNat < 4096 → f beat b = b.hostAsk ⟨fn, 0, 0, .ring v.toNat⟩) := by
  refine ⟨_, rfl, fun beat b h => ⟨fun hv => ?_, fun hv => ?_⟩⟩ <;> rw [h]
  · exact if_pos hv
  · exact if_neg (Nat.not_le.2 hv)

theorem ctxFault_runs (s : State) (fn : Fn) (v : BitVec 32) : ∃ f, execCtxFault fn v s = s.runB f ∧ ∀ beat (b : Body), b.host.live fn = true →
    f beat b = b.hostAsk ⟨fn, 0, 0, .fault v.toNat⟩ := by
  refine ⟨_, rfl, fun beat b h => ?_⟩
  rw [h]
  rfl

theorem phWindowWrite_runs (s : State) (p : HostPort) (n : Nat) : ∃ f, execPhWindowWrite (.pf p) n s = s.runB f ∧
    ∀ beat (b : Body), b.host.live (.pf p) = true → n < 4096 → f beat b = b.hostAsk ⟨.pf p, 0, 0, .ring n⟩ := by
  refine ⟨_, rfl, fun beat b h hn => ?_⟩
  rw [h, decide_eq_true hn]
  rfl

theorem phWindowRead_runs (s : State) (p : HostPort) (n : Nat) : ∃ f, execPhWindowRead (.pf p) n s = s.runB f ∧
    ∀ beat (b : Body), b.host.live (.pf p) = true → n < 4096 → f beat b = b.hostAsk ⟨.pf p, 0, 0, .window n⟩ := by
  refine ⟨_, rfl, fun beat b h hn => ?_⟩
  rw [h, decide_eq_true hn]
  rfl

/-- A ring of a pigeonhole that the function may make now. -/
theorem hostDo_ring {b : Body} {n : Nat} {h : Pigeon} (hl : b.host.live fn = true) (hp : mget b.data.pigeons n = some h)
    (hm : mayRing b.data fn (b.data.ctxPlot h.ctx) = true) (hb : b.data.busyAt (b.data.ctxPlot h.ctx) (h.ring + 16) 4 = false) :
    b.hostDo ⟨fn, 0, 0, .ring n⟩ = some { b with data := b.data.ringPh n } := by
  unfold Body.hostDo hostRing
  dsimp only
  rw [hl, hp]
  dsimp only
  rw [hm, hb]
  rfl

theorem hostDo_ring_none {b : Body} {n : Nat} (hl : b.host.live fn = true) (hp : mget b.data.pigeons n = none) :
    b.hostDo ⟨fn, 0, 0, .ring n⟩ = some (b.refuseRing fn) := by
  unfold Body.hostDo hostRing
  dsimp only
  rw [hl, hp]
  rfl

theorem hostDo_fault_none {b : Body} {n : Nat} (hl : b.host.live fn = true) (hp : mget b.data.ctxs n = none) :
    b.hostDo ⟨fn, 0, 0, .fault n⟩ = some (b.refuseRing fn) := by
  unfold Body.hostDo hostFault
  dsimp only
  rw [hl, hp]
  rfl

/-- A context whose fault doorbell has been rung, FREE_SEQ being `l`. -/
def Ctx.rungWith (c : Ctx) (l : List Byte) : Ctx := { c with rung := true, freeSeq := leNat l }

theorem hostDo_fault {b : Body} {n : Nat} {c : Ctx} {l : List Byte} (hl : b.host.live fn = true) (hc : mget b.data.ctxs n = some c)
    (hm : mayRing b.data fn c.plot = true) (hr : b.data.devRead c.plot ((c.ring + 4) % 2 ^ 40) 4 = some l)
    (hb : b.data.busyAt c.plot (c.ring + 4) 4 = false) :
    b.hostDo ⟨fn, 0, 0, .fault n⟩ = some { b with data := { b.data with ctxs := mmod b.data.ctxs n fun y => y.rungWith l } } := by
  have hplot : b.data.ctxPlot n = c.plot := by
    unfold Data.ctxPlot
    rw [hc]
    rfl
  have hread : b.data.sRead n 1 (c.ring + 4) 4 = (b.data, some (leNat l)) := by
    unfold Data.sRead Data.sBytes
    rw [hplot, hr]
    rfl
  unfold Body.hostDo hostFault
  dsimp only
  rw [hl, hc]
  dsimp only
  rw [hm, hb, hread]
  rfl

theorem hostDo_window {b : Body} {p : HostPort} {n : Nat} {h : Pigeon} {q : W32} (hl : b.host.live (.pf p) = true)
    (hp : mget b.data.pigeons n = some h) (hb : b.data.busyAt (b.data.ctxPlot h.ctx) h.ring 128 = false) (hq : b.data.doorbellSeq n = some q) :
    b.hostDo ⟨.pf p, 0, 0, .window n⟩ = some (b.emit (.readData (.pf p) (natLe 8 q.toNat) false)) := by
  unfold Body.hostDo
  dsimp only
  rw [hl, hp]
  dsimp only
  rw [hb, hq]
  rfl

theorem acts_ringPh {c : Instr} {n : Nat} {f : Nat → Body → Body} {h : Pigeon} (he : exec c s = s.runB f)
    (hs : ∀ s', Like s s' → f s.alm.beat s'.body = s'.body.hostAsk ⟨fn, 0, 0, .ring n⟩) (hlive : s.live fn = true)
    (hp : mget s.body.data.pigeons n = some h) (hm : mayRing s.body.data fn (s.body.data.ctxPlot h.ctx) = true) (hops : s.body.host.ops = [])
    (hb : s.body.data.busyAt (s.body.data.ctxPlot h.ctx) (h.ring + 16) 4 = false) : Acts c s (s.body.data.ringPh n) := by
  refine acts_of_runB he fun s' hl => ⟨s'.body.data.ringPh n, ?_, Data.Mute.ringPh hl.data n⟩
  have hmute : s.body.data.Mute s'.body.data := hl.data
  rw [hs s' hl, hostAsk_of_done (by rw [hl.host, hops]) (hostDo_ring (h := h) ((hl.live fn).trans hlive) (by rw [hmute.pigeons, hp])
    (by rw [hmute.ctxPlot, hmute.mayRing, hm]) (by rw [hmute.ctxPlot, hmute.busyAt, hb]))]

theorem phRing_refused {v : BitVec 32} (hlive : s.live fn = true)
    (h : mget s.body.data.pigeons v.toNat = none ∧ s.body.host.ops = [] ∨ 4096 ≤ v.toNat) :
    Does (.phRing fn v) s (s.modFn fn fun r => { r with refused := r.refused + 1 }) := by
  obtain ⟨f, hf, hs⟩ := phRing_runs s fn v
  refine does_host_of_runB (F := fun h => h.countRefused fn) (c := .phRing fn v) hf fun s' hl => ⟨s'.body.data, ?_, .refl _⟩
  have hl' := (hl.live fn).trans hlive
  by_cases hv : 4096 ≤ v.toNat
  · rw [(hs _ _ hl').1 hv]
    rfl
  · obtain ⟨hp, hops⟩ := h.resolve_right hv
    rw [(hs _ _ hl').2 (Nat.lt_of_not_le hv), hostAsk_of_done (by rw [hl.host, hops])
      (hostDo_ring_none hl' (by rw [Data.Mute.pigeons hl.data, hp]))]
    rfl

theorem ctxFault_refused {v : BitVec 32} (hlive : s.live fn = true) (hc : mget s.body.data.ctxs v.toNat = none)
    (hops : s.body.host.ops = []) : Does (.ctxFault fn v) s (s.modFn fn fun r => { r with refused := r.refused + 1 }) := by
  obtain ⟨f, hf, hs⟩ := ctxFault_runs s fn v
  refine does_host_of_runB (F := fun h => h.countRefused fn) (c := .ctxFault fn v) hf fun s' hl => ⟨s'.body.data, ?_, .refl _⟩
  have hl' := (hl.live fn).trans hlive
  rw [hs _ _ hl', hostAsk_of_done (by rw [hl.host, hops]) (hostDo_fault_none hl' (by rw [Data.Mute.ctxs hl.data, hc]))]
  rfl

theorem ctxFault_acts {v : BitVec 32} {c : Ctx} {l : List Byte} (hlive : s.live fn = true) (hc : mget s.body.data.ctxs v.toNat = some c)
    (hm : mayRing s.body.data fn c.plot = true) (hr : s.body.data.devRead c.plot ((c.ring + 4) % 2 ^ 40) 4 = some l)
    (hops : s.body.host.ops = []) (hb : s.body.data.busyAt c.plot (c.ring + 4) 4 = false) : Acts (.ctxFault fn v) s
      { s.body.data with ctxs := mmod s.body.data.ctxs v.toNat fun y => y.rungWith l } := by
  obtain ⟨f, hf, hs⟩ := ctxFault_runs s fn v
  refine acts_of_runB (c := .ctxFault fn v) hf fun s' hl => ?_
  have hl' := (hl.live fn).trans hlive
  have hmute : s.body.data.Mute s'.body.data := hl.data
  refine ⟨{ s'.body.data with ctxs := mmod s'.body.data.ctxs v.toNat fun y => y.rungWith l }, ?_, ?_⟩
  · rw [hs _ _ hl', hostAsk_of_done (by rw [hl.host, hops]) (hostDo_fault (c := c) (l := l) hl' (by rw [hmute.ctxs, hc])
      ((hmute.mayRing ..).trans hm) ((hmute.devRead ..).trans hr) ((hmute.busyAt ..).trans hb))]
  · obtain ⟨ps, cs, e⟩ := hmute
    rw [e]
    exact ⟨ps, cs, rfl⟩

theorem phWindowRead_does {p : HostPort} {n : Nat} {h : Pigeon} {q : W32} (hlive : s.live (.pf p) = true) (hn : n < 4096)
    (hp : mget s.body.data.pigeons n = some h) (hq : s.body.data.doorbellSeq n = some q) (hops : s.body.host.ops = [])
    (hb : s.body.data.busyAt (s.body.data.ctxPlot h.ctx) h.ring 128 = false) :
    Does (.phWindowRead (.pf p) n) s (s.emit (.readData (.pf p) (natLe 8 q.toNat) false)) := by
  obtain ⟨f, hf, hs⟩ := phWindowRead_runs s p n
  refine does_host_of_runB (F := fun h => h.emit (.readData (.pf p) (natLe 8 q.toNat) false)) (c := .phWindowRead (.pf p) n) hf fun s' hl =>
    ⟨s'.body.data, ?_, .refl _⟩
  have hmute : s.body.data.Mute s'.body.data := hl.data
  have hl' := (hl.live (.pf p)).trans hlive
  rw [hs _ _ hl' hn, hostAsk_of_done (by rw [hl.host, hops]) (hostDo_window (h := h) hl' (by rw [hmute.pigeons, hp])
    (by rw [hmute.ctxPlot, hmute.busyAt, hb]) ((hmute.doorbellSeq n).trans hq))]
  rfl

end Rings

/-! ### Registers -/

section Registers

variable {s : State} {fn : Fn}

theorem takeRings_nil {s : State} (h : s.body.host.ops = []) : takeRings s = s := by
  unfold takeRings
  rw [h]
  rfl

theorem Like.bound {s s' : State} (h : Like s s') (f : Fn) : s'.bound f = s.bound f := by
  obtain ⟨ps, cs, hd⟩ := h.data
  unfold State.bound
  rw [hd]

theorem Like.portWord {s s' : State} (h : Like s s') (f : Fn) : s'.portWord f = s.portWord f := by
  obtain ⟨ps, cs, hd⟩ := h.data
  unfold State.portWord
  rw [h.bound, h.mgdb, hd]
  rfl

theorem Like.bar0Byte {s s' : State} (h : Like s s') (f : Fn) (a : Nat) : s'.bar0Byte f a = s.bar0Byte f a := by
  unfold State.bar0Byte
  rw [h.bound, h.portWord, h.host]

theorem bar2UnmappedRead_runs (s : State) (fn : Fn) : (∀ off len, ∃ f, execBar2UnmappedRead ⟨fn, some (off, len)⟩ s = s.run f ∧
      ∀ s' : State, s'.live fn = true → f s' = (takeRings s').emit (.readData fn ((List.range len).map fun i => (takeRings s').bar0Byte fn (off + i)) false)) ∧
    ∃ f, execBar2UnmappedRead ⟨fn, none⟩ s = s.run f ∧ ∀ s' : State, s'.live fn = true →
      f s' = (s'.modFn fn fun r => { r with unmapped := 0 }).emit (.readData fn (natLe 4 (s'.body.host.fn fn).unmapped) false) := by
  refine ⟨fun off len => ⟨_, rfl, fun s' h => ?_⟩, _, rfl, fun s' h => ?_⟩ <;> dsimp only <;> rw [h] <;> rfl

theorem bar0Read_does {off len : Nat} (h : s.live fn = true) (hops : s.body.host.ops = []) : Does (.bar2UnmappedRead ⟨fn, some (off, len)⟩) s
    (s.emit (.readData fn ((List.range len).map fun i => s.bar0Byte fn (off + i)) false)) := by
  obtain ⟨f, hf, hs⟩ := (bar2UnmappedRead_runs s fn).1 off len
  refine does_host_of_run (F := fun h => h.emit (.readData fn ((List.range len).map fun i => s.bar0Byte fn (off + i)) false))
    (c := .bar2UnmappedRead ⟨fn, some (off, len)⟩) hf fun s' hl => ?_
  rw [hs s' ((hl.live fn).trans h), takeRings_nil (by rw [hl.host, hops])]
  simp only [hl.bar0Byte]
  rfl

theorem unmappedRead_does (h : s.live fn = true) : Does (.bar2UnmappedRead ⟨fn, none⟩) s
    ((s.modFn fn fun r => { r with unmapped := 0 }).emit (.readData fn (natLe 4 (s.body.host.fn fn).unmapped) false)) := by
  obtain ⟨f, hf, hs⟩ := (bar2UnmappedRead_runs s fn).2
  refine does_host_of_run (F := fun h => (h.setFn fn { h.fn fn with unmapped := 0 }).emit (.readData fn (natLe 4 (h.fn fn).unmapped) false))
    (c := .bar2UnmappedRead ⟨fn, none⟩) hf fun s' hl => ?_
  rw [hs s' ((hl.live fn).trans h)]
  rfl

theorem doorbellRefusedRead_runs (s : State) (fn : Fn) : ∃ f, execDoorbellRefusedRead fn s = s.run f ∧ ∀ s' : State, s'.live fn = true →
    f s' = (s'.modFn fn fun r => { r with refused := 0 }).emit (.readData fn (natLe 4 (s'.body.host.fn fn).refused) false) :=
  ⟨_, rfl, fun _ h => if_pos h⟩

theorem doorbellRefusedRead_does (h : s.live fn = true) : Does (.doorbellRefusedRead fn) s
    ((s.modFn fn fun r => { r with refused := 0 }).emit (.readData fn (natLe 4 (s.body.host.fn fn).refused) false)) := by
  obtain ⟨f, hf, hs⟩ := doorbellRefusedRead_runs s fn
  refine does_host_of_run (F := fun h => (h.setFn fn { h.fn fn with refused := 0 }).emit (.readData fn (natLe 4 (h.fn fn).refused) false))
    (c := .doorbellRefusedRead fn) hf fun s' hl => ?_
  rw [hs s' ((hl.live fn).trans h)]
  rfl

theorem almanacBeatLowRead_runs (s : State) (fn : Fn) (part : AlmPart) : ∃ f, execAlmanacBeatLowRead ⟨fn, part⟩ s = s.run f ∧
    ∀ s' : State, s'.live fn = true →
      (s'.bound fn = false → f s' = s'.emit (.readData fn ((s'.alm.readReg (s'.body.host.fn fn).beatHigh part).1.map fun _ => 0) false)) ∧
      (s'.bound fn = true → f s' = (s'.modFn fn fun r => { r with beatHigh := (s'.alm.readReg r.beatHigh part).2 }).emit
        (.readData fn (s'.alm.readReg (s'.body.host.fn fn).beatHigh part).1 false)) := by
  refine ⟨_, rfl, fun s' h => ⟨fun hb => ?_, fun hb => ?_⟩⟩ <;>
  · dsimp only
    rw [if_pos (show s'.body.host.live fn = true from h), hb]
    rfl

theorem almanac_unbound (h : s.live fn = true) (hb : s.bound fn = false) (part : AlmPart) : Does (.almanacBeatLowRead ⟨fn, part⟩) s
    (s.emit (.readData fn ((s.alm.readReg (s.body.host.fn fn).beatHigh part).1.map fun _ => 0) false)) := by
  obtain ⟨f, hf, hs⟩ := almanacBeatLowRead_runs s fn part
  refine does_host_of_run (F := fun h => h.emit (.readData fn ((s.alm.readReg (h.fn fn).beatHigh part).1.map fun _ => 0) false))
    (c := .almanacBeatLowRead ⟨fn, part⟩) hf fun s' hl => ?_
  rw [(hs s' ((hl.live fn).trans h)).1 ((hl.bound fn).trans hb), hl.alm]
  rfl

/-- A bound function reads a part of the Almanac's registers, and latches what that part does. -/
theorem almanac_bound (h : s.live fn = true) (hb : s.bound fn = true) (part : AlmPart) : Does (.almanacBeatLowRead ⟨fn, part⟩) s
    ((s.modFn fn fun r => { r with beatHigh := (s.alm.readReg r.beatHigh part).2 }).emit
      (.readData fn (s.alm.readReg (s.body.host.fn fn).beatHigh part).1 false)) := by
  obtain ⟨f, hf, hs⟩ := almanacBeatLowRead_runs s fn part
  refine does_host_of_run (F := fun h => (h.setFn fn { h.fn fn with beatHigh := (s.alm.readReg (h.fn fn).beatHigh part).2 }).emit
    (.readData fn (s.alm.readReg (h.fn fn).beatHigh part).1 false)) (c := .almanacBeatLowRead ⟨fn, part⟩) hf fun s' hl => ?_
  rw [(hs s' ((hl.live fn).trans h)).2 ((hl.bound fn).trans hb), hl.alm]
  rfl

theorem errBound_lt (a : Almanac) : a.errBound < 65536 := Nat.lt_succ_of_le (Nat.min_le_left ..)

theorem natLe_four_of_lt {n : Nat} (h : n < 65536) : natLe 4 n = natLe 2 n ++ natLe 2 0 := by
  have h₂ : n / 256 / 256 = 0 := by omega
  show [BitVec.ofNat 8 n, BitVec.ofNat 8 (n / 256), BitVec.ofNat 8 (n / 256 / 256), BitVec.ofNat 8 (n / 256 / 256 / 256)] = _
  rw [h₂]
  rfl

/-- The offset and the error bound, which is at most 65,535. -/
theorem readReg_offset (a : Almanac) (l : Option Nat) :
    (a.readReg l .offset).1 = natLe 4 (BitVec.ofInt 32 a.offset).toNat ++ natLe 4 a.errBound := by
  rw [natLe_four_of_lt (errBound_lt a)]
  exact List.append_assoc ..

theorem registerWrite_size_runs (s : State) (fn : Fn) (l : List Byte) : ∃ f, execRegisterWrite fn .bar2Size l s = s.run f ∧
    ∀ s' : State, s'.live fn = true → f s' = resizeBar2 s' fn (leNat l + 20) := ⟨_, rfl, fun _ h => if_pos h⟩

theorem bar2Size_does (h : s.live fn = true) {n : Nat} (h₁ : 30 ≤ n) (h₂ : n ≤ 40) (hpf : isPfFn fn = true) :
    Does (.registerWrite fn .bar2Size [BitVec.ofNat 8 (n - 20)]) s (s.setBody { s.body with
      host := s.body.host.setPort (fnPort fn) { s.body.host.port (fnPort fn) with pfBar2Log2 := n } }) := by
  obtain ⟨f, hf, hs⟩ := registerWrite_size_runs s fn [BitVec.ofNat 8 (n - 20)]
  refine does_host_of_run (F := fun h => h.setPort (fnPort fn) { h.port (fnPort fn) with pfBar2Log2 := n })
    (c := .registerWrite fn .bar2Size [BitVec.ofNat 8 (n - 20)]) hf fun s' hl => ?_
  have hn : leNat [BitVec.ofNat 8 (n - 20)] + 20 = n := by
    show (BitVec.ofNat 8 (n - 20)).toNat + 256 * 0 + 20 = n
    rw [BitVec.toNat_ofNat]
    omega
  rw [hs s' ((hl.live fn).trans h), hn, resizeBar2, hpf, decide_eq_true h₁, decide_eq_true h₂]
  rfl

theorem byteWrite_low {pf known : Bool} {r : FnRegs} {a : Nat} {x : Byte} (h : a < 0x1000) : byteWrite pf known r a x = r := by
  cases pf
  · show (if 0x1000 ≤ a ∧ a < 0x1000 + 0x1000 then _ else if known ∧ 0x4000 ≤ a ∧ a < 0x4000 + 0x200 then _ else r) = r
    rw [if_neg (by omega), if_neg (by omega)]
  · show (if 0x10000 ≤ a ∧ a < 0x10000 + 0x1000 then _ else if known ∧ 0x200000 ≤ a ∧ a < 0x200000 + 0x8000 then _ else r) = r
    rw [if_neg (by omega), if_neg (by omega)]

theorem fn_setFn (h : HostSt) (f : Fn) (r : FnRegs) : (h.setFn f r).fn f = r := by
  unfold HostSt.fn HostSt.setFn mgetD
  rw [mget_mput_self]
  rfl

theorem unmask_of_none {h : HostSt} {f : Fn} (hp : (h.fn f).pba = []) : (h.unmask f).fn f = h.fn f := by
  unfold HostSt.unmask
  dsimp only
  rw [hp]
  show (h.setFn f { h.fn f with pba := [] }).fn f = h.fn f
  rw [fn_setFn, ← hp]

theorem overlay_vector (old : Nat) (a b : Byte) : overlay 0x10 2 old 0x10 [a, b] = some (a.toNat + 256 * b.toNat) := by
  unfold overlay
  rw [if_pos ⟨by decide, by rw [List.length_cons]; omega⟩]
  rfl

theorem registerWrite_vector_runs (s : State) (fn : Fn) (a b : Byte) : ∃ f, execRegisterWrite fn (.bar0 0x10) [a, b] s = s.run f ∧
    ∀ s' : State, s'.live fn = true → (s'.body.host.fn fn).pba = [] →
      (a.toNat + 256 * b.toNat) % 4096 < 32 ∨ (a.toNat + 256 * b.toNat) % 4096 = 0xFFF →
      ((f s').body.host.fn fn).replyVector = (a.toNat + 256 * b.toNat) % 4096 ∧ (f s').body.data = s'.body.data ∧ (f s').body.sj = s'.body.sj := by
  refine ⟨_, rfl, fun s' h hp hv => ?_⟩
  have hv' : (a.toNat + 256 * b.toNat) % 4096 = 0xFFF ∨ (a.toNat + 256 * b.toNat) % 4096 < (if isPfFn fn then 2048 else 32) := by
    split <;> omega
  dsimp only
  rw [h, overlay_vector]
  dsimp only
  rw [if_pos hv']
  refine ⟨?_, rfl, rfl⟩
  simp only [List.zipIdx_cons, List.zipIdx_nil, List.foldl_cons, List.foldl_nil]
  rw [byteWrite_low (by decide), byteWrite_low (by decide)]
  refine (congrArg FnRegs.replyVector (unmask_of_none ?_)).trans ?_
  · rw [fn_setFn]
    exact hp
  · rw [fn_setFn]

end Registers

section Registers

variable {s : State} {fn : Fn}

theorem vector_written {a b : Byte} (h : s.live fn = true) (hp : (s.body.host.fn fn).pba = [])
    (hv : (a.toNat + 256 * b.toNat) % 4096 < 32 ∨ (a.toNat + 256 * b.toNat) % 4096 = 0xFFF) (hq : s.body.quiet = true) :
    ∃ t, exec (.registerWrite fn (.bar0 0x10) [a, b]) s = .next t ∧ (t.body.host.fn fn).replyVector = (a.toNat + 256 * b.toNat) % 4096 := by
  obtain ⟨f, hf, hs⟩ := registerWrite_vector_runs s fn a b
  have hl := like_finish hq
  obtain ⟨hr, hd, hj⟩ := hs s.finish ((hl.live fn).trans h) (by rw [hl.host, hp]) hv
  have hq' : (f s.finish).body.quiet = true := by
    rw [← finish_quiet hq]
    exact quiet_congr (by rw [hd]) (by rw [hd]) (by rw [hd]) (by rw [hd]) hj
  exact ⟨_, hf, by rw [(like_finish hq').host, hr]⟩

theorem linkEventsRead_runs (s : State) (p : HostPort) : ∃ f, execLinkEventsRead (.pf p) s = s.run f ∧ ∀ s' : State, s'.live (.pf p) = true →
    ((f s').body.host.port p).linkEvents = 0 ∧ (f s').body.data = s'.body.data ∧ (f s').body.sj = s'.body.sj := by
  refine ⟨_, rfl, fun s' h => ?_⟩
  dsimp only
  rw [h]
  cases p <;> exact ⟨rfl, rfl, rfl⟩

theorem linkEvents_read {p : HostPort} (h : s.live (.pf p) = true) (hq : s.body.quiet = true) :
    ∃ t, exec (.linkEventsRead (.pf p)) s = .next t ∧ (t.body.host.port p).linkEvents = 0 := by
  obtain ⟨f, hf, hs⟩ := linkEventsRead_runs s p
  have hl := like_finish hq
  obtain ⟨hr, hd, hj⟩ := hs s.finish ((hl.live _).trans h)
  have hq' : (f s.finish).body.quiet = true := by
    rw [← finish_quiet hq]
    exact quiet_congr (by rw [hd]) (by rw [hd]) (by rw [hd]) (by rw [hd]) hj
  exact ⟨_, hf, by rw [(like_finish hq').host, hr]⟩

/-- The Almanac once the bits of `v` have cleared LATE_SEEN and ROOT_CONFLICT. -/
def Almanac.cleared (a : Almanac) (v : BitVec 64) : Almanac :=
  { a with lateSeen := a.lateSeen && !v.getLsbD 6, conflict := a.conflict && !v.getLsbD 7 }

theorem almStatusW1c_runs (s : State) (p : HostPort) (v : BitVec 64) : ∃ f, execAlmStatusW1c (.pf p) v s = s.run f ∧
    ∀ s' : State, s'.live (.pf p) = true → f s' = s'.setAlm (s'.alm.cleared v) := ⟨_, rfl, fun _ h => if_pos h⟩

theorem almStatusW1c_does {p : HostPort} (h : s.live (.pf p) = true) (v : BitVec 64) :
    Does (.almStatusW1c (.pf p) v) s { s with alm := s.alm.cleared v } := by
  obtain ⟨f, hf, hs⟩ := almStatusW1c_runs s p v
  refine does_of_run (c := .almStatusW1c (.pf p) v) hf fun s' hl => ?_
  rw [hs s' ((hl.live _).trans h), hl.alm]
  exact ⟨⟨hl.pending, rfl, hl.latch, hl.mg, hl.host, hl.mgdb, hl.fab, hl.pw, hl.replay, hl.data, hl.md, hl.hl⟩, rfl⟩

theorem bar0Byte_portWord (s : State) (fn : Fn) {n : Nat} (h : n < 4) : (s.bar0Byte fn n).toNat = s.portWord fn / 256 ^ n % 256 := by
  unfold State.bar0Byte
  dsimp only
  rw [if_pos h, BitVec.toNat_ofNat]

theorem bound_vf (s : State) (p : HostPort) (n : Nat) : s.bound (.vf p n) = (vfPlot s.body.data p n).isSome := by
  unfold State.bound vfPlot
  rw [Option.isSome_map, Bool.eq_iff_iff, List.find?_isSome]
  exact List.any_eq_true

theorem portWord_vf (s : State) (p : HostPort) (n : Nat) : s.portWord (.vf p n) = 0x40 + n + 2 ^ 8 * (vfPlot s.body.data p n).getD 255 +
    (if (vfPlot s.body.data p n).isSome then 2 ^ 16 else 0) + (if s.body.mgdb.grants ≠ 0 then 2 ^ 17 else 0) := by
  rw [← bound_vf]
  rfl

theorem bar0Byte_unbound {p : HostPort} {n a : Nat} (h : vfPlot s.body.data p n = none) (ha : 0x3000 ≤ a) :
    s.bar0Byte (.vf p n) a = 0 := by
  have hb : s.bound (.vf p n) = false := by rw [bound_vf, h]; rfl
  unfold State.bar0Byte
  dsimp only [isPfFn]
  rw [if_neg (by omega), if_neg (by omega), if_neg (by omega), if_neg (by simp; omega), if_neg (by simp; omega), hb]
  rfl

/-- A request that waits leaves nothing but itself in the queue. -/
theorem leaves_queueOp {c : Instr} {f : Nat → Body → Body} {o : HostOp} (he : exec c s = s.runB f)
    (hs : f s.alm.beat s.body = s.body.hostAsk o) (hw : o.waits s.body.host.ops = true ∨ s.body.hostDo o = none) :
    Leaves c s (s.setBody { s.body with host := { s.body.host with ops := s.body.host.ops ++ [o] } }) := by
  intro hset
  rw [he, State.runB, State.run, hset, hs, hostAsk_of_waits hw]
  rfl

end Registers

/-- Settles O29: clause by clause, the host's side changes, the data plane does, or the request waits. -/
theorem hostRegisters : Obligations.HostRegisters := by
  unfold Obligations.HostRegisters
  refine ⟨?_, ?_, ?_, ?_, fun s fn n hn => bar0Byte_portWord s fn hn, ?_, ?_, ?_⟩
  · intro s fn off h
    exact ⟨fun len o x hr hops hb => hostBar2Read_mapped h hr hops hb, fun len hr => hostBar2Read_unmapped h hr,
      fun l o x hne hr => hostBar2Write_mapped h hne hr, fun l hr => hostBar2Write_unmapped h hr, fun l => hostBar2Write_poisoned h⟩
  · intro s fn v h
    refine ⟨fun p hv hp hm hops hb => ?_, phRing_refused h, fun c l hc hm hr hops hb => ctxFault_acts h hc hm hr hops hb,
      fun hc hops => ctxFault_refused h hc hops⟩
    obtain ⟨f, hf, hs⟩ := phRing_runs s fn v
    exact acts_ringPh (c := .phRing fn v) hf (fun s' hl => (hs _ _ ((hl.live fn).trans h)).2 hv) h hp hm hops hb
  · intro s p n w h hn hp
    refine ⟨fun hops hb => ?_, fun q hq hops hb => phWindowRead_does h hn hp hq hops hb⟩
    obtain ⟨f, hf, hs⟩ := phWindowWrite_runs s p n
    exact acts_ringPh (c := .phWindowWrite (.pf p) n) hf (fun s' hl => hs _ _ ((hl.live _).trans h) hn) h hp rfl hops hb
  · intro s fn h
    refine ⟨fun off len hops => bar0Read_does h hops, fun n h₁ h₂ hpf => bar2Size_does h h₁ h₂ hpf, unmappedRead_does h, doorbellRefusedRead_does h,
      fun hb part => almanac_unbound h hb part, fun hb => ⟨almanac_bound h hb .low, fun w hw => ?_⟩,
      fun hb => ⟨almanac_bound h hb .whole, almanac_bound h hb .status, ?_⟩, fun a b hv hp hq => vector_written h hp hv hq⟩
    · have hhigh := almanac_bound h hb .high
      rw [show (s.alm.readReg (s.body.host.fn fn).beatHigh .high).1 = natLe 4 w by rw [hw]; rfl] at hhigh
      exact hhigh
    · have hoff := almanac_bound h hb .offset
      rw [readReg_offset] at hoff
      exact hoff
  · intro s p n
    refine ⟨rfl, fun hn => ⟨?_, fun a ha => bar0Byte_unbound hn ha⟩, fun plot hn => ?_⟩
    · rw [portWord_vf, hn]
      rfl
    · rw [portWord_vf, hn]
      rfl
  · rintro s fn o h hw rfl
    refine ⟨?_, ?_, ?_⟩
    · rintro v ho hv
      obtain ⟨f, hf, hs⟩ := phRing_runs s o.fn v
      exact leaves_queueOp (c := .phRing o.fn v) hf (((hs _ _ h).2 hv).trans (by rw [← ho])) hw
    · rintro n p hp hn ho
      obtain ⟨f, hf, hs⟩ := phWindowRead_runs s p n
      rw [hp] at h ho ⊢
      exact leaves_queueOp (c := .phWindowRead (.pf p) n) hf ((hs _ _ h hn).trans (by rw [← ho])) hw
    · rintro off len x ho hr
      obtain ⟨f, hf, hs⟩ := hostBar2Read_runs s o.fn off len
      exact leaves_queueOp (c := .hostBar2Read o.fn off len) hf (((hs _ _ h).2 x hr).trans (by rw [← ho])) hw
  · exact fun s p h => ⟨linkEvents_read h, fun v => almStatusW1c_does h v⟩

end Sys2Proof.Machine
end

section
/-! Letters: rings, replies, sequence numbers and the order of the checks. -/

namespace Sys2Proof.Machine

/-! ### The commands that carry letters -/

/-- A letter's command takes the letters that are its own, for an effect of its own. -/
theorem exec_letter {i : Instr} {l : Letter} (h : letterIs i l = true) : ∃ is eff, is l = true ∧ ∀ s, exec i s = letterRow s is eff := by
  unfold letterIs at h
  split at h
  any_goals exact ⟨_, _, h, fun s => rfl⟩
  exact absurd h Bool.false_ne_true

theorem drainBad_of_rows {s : State} (h : ∀ l ∈ s.body.mg.accept.head?, hasRow l = true) (n : Nat) : drainBad n s = s := by
  cases n with
  | zero => rfl
  | succ n =>
    unfold drainBad
    split
    · next l rest ha => exact if_pos (h l (by rw [ha]; rfl))
    · rfl

theorem mg_congr {s : State} {f g : Mgmt → Mgmt} (h : f s.body.mg = g s.body.mg) : s.mg f = s.mg g := by
  unfold State.mg
  rw [h]

/-- The front letter is handled, if the letters behind it are the table's. -/
theorem letterRow_front {s : State} {l : Letter} {rest : List Letter} {is : Letter → Bool} {eff : State → Letter → Nat → State × Res}
    (hs : s.finish = s) (ha : s.acting = true) (hf : s.body.mg.accept = l :: rest) (hk : hasRow l = true) (hi : is l = true)
    (hrest : ∀ x ∈ (handle (s.mg fun m => { m with accept := m.accept.tail }) l eff).body.mg.accept.head?, hasRow x = true) :
    letterRow s is eff = .next (handle (s.mg fun m => { m with accept := m.accept.tail }) l eff).finish := by
  unfold letterRow State.run
  have ht : (s.mg fun m => { m with accept := m.accept.tail }) = s.mg fun m => { m with accept := rest } :=
    mg_congr (by rw [hf]; rfl)
  rw [ht] at hrest ⊢
  rw [hs]
  dsimp only
  rw [if_pos ha, if_neg (by rw [hf]; exact List.cons_ne_nil _ _), hf]
  dsimp only
  rw [if_pos (by rw [hk, hi]; rfl), drainBad_of_rows hrest]

/-! ### What a reply changes -/

/-- Bytes listed one after another from key `b + n` on, zero bytes not being listed. -/
theorem mgetD_cputs (l : List Byte) (m : SMap Byte) (b n i : Nat) :
    mgetD ((l.zipIdx n).foldl (fun (m : SMap Byte) p => cput 0 m (b + p.2) p.1) m) (b + i) 0 =
      if n ≤ i ∧ i < n + l.length then l.getD (i - n) 0 else mgetD m (b + i) 0 := by
  induction l generalizing m n with
  | nil => rw [if_neg (by simp)]; rfl
  | cons x l ih =>
    rw [List.zipIdx_cons, List.foldl_cons, ih, List.length_cons]
    by_cases hi : i = n
    · subst hi
      rw [if_neg (by omega), if_pos (by omega), mgetD_cput_self, Nat.sub_self]
      rfl
    · rw [mgetD_cput_ne _ _ _ _ _ _ (by omega)]
      by_cases h : n + 1 ≤ i ∧ i < n + 1 + l.length
      · rw [if_pos h, if_pos (by omega), show i - n = i - (n + 1) + 1 by omega, List.getD_cons_succ]
      · rw [if_neg h, if_neg (by omega)]

theorem replies_setReply (r : FnRegs) (slot : Nat) (l : List Byte) (i : Nat) :
    mgetD (r.setReply slot l).replies (256 * slot + i) 0 = if i < l.length then l.getD i 0 else mgetD r.replies (256 * slot + i) 0 := by
  have h := mgetD_cputs l r.replies (256 * slot) 0 i
  simp only [Nat.zero_le, true_and, Nat.zero_add, Nat.sub_zero] at h
  exact h

theorem length_natLe (n x : Nat) : (natLe n x).length = n := by
  induction n generalizing x with
  | zero => rfl
  | succ n ih => rw [natLe, List.length_cons, ih]

theorem length_replyBytes (l : Letter) (r : Reply) (dup : Bool) (st h n : Nat) :
    (replyBytes l r dup st h n).length = 32 + r.data.length + (224 - r.data.length) := by
  unfold replyBytes
  simp only [List.length_append, length_natLe, List.length_replicate]

theorem replies_msix (h : HostSt) (f : Fn) (v : Nat) (g : Fn) : ((h.msix f v).fn g).replies = (h.fn g).replies := by
  unfold HostSt.msix
  dsimp only
  split_ifs
  · by_cases hg : fnKey f = fnKey g
    · unfold HostSt.fn HostSt.setFn mgetD
      rw [hg, mget_mput_self]
      rfl
    · unfold HostSt.fn HostSt.setFn mgetD
      rw [mget_mput_ne _ _ _ _ hg]
  · rfl
  · rfl

theorem reqs_msix (h : HostSt) (f : Fn) (v : Nat) : (h.msix f v).reqs = h.reqs := by
  unfold HostSt.msix
  dsimp only
  split_ifs <;> rfl

/-- What a reply leaves as it was: all but the host's side, and MG's where the letter came through it. -/
structure Delivered (s t : State) : Prop where
  pending : t.pending = s.pending
  alm : t.alm = s.alm
  latch : t.latch = s.latch
  reqs : t.body.host.reqs = s.body.host.reqs
  rest : { t.body with host := s.body.host, mgdb := s.body.mgdb } = s.body

theorem Delivered.refl (s : State) : Delivered s s := ⟨rfl, rfl, rfl, rfl, rfl⟩

theorem Delivered.trans {s t u : State} (h : Delivered s t) (k : Delivered t u) : Delivered s u := by
  refine ⟨k.pending.trans h.pending, k.alm.trans h.alm, k.latch.trans h.latch, k.reqs.trans h.reqs, ?_⟩
  refine Eq.trans ?_ h.rest
  have := congrArg (fun b : Body => ({ b with host := s.body.host, mgdb := s.body.mgdb } : Body)) k.rest
  exact this

theorem delivered (s : State) (l : Letter) (r : Reply) (dup : Bool) : Delivered s (deliver s l r dup) := by
  unfold deliver
  split
  · split
    · refine ⟨rfl, rfl, rfl, ?_, rfl⟩
      dsimp only
      split
      · rfl
      · exact reqs_msix ..
    · exact .refl s
  · refine ⟨rfl, rfl, rfl, ?_, rfl⟩
    dsimp only
    split <;> rfl

theorem Delivered.mg {s t : State} (h : Delivered s t) : t.body.mg = s.body.mg := by
  have := congrArg Body.mg h.rest
  exact this

theorem Delivered.data {s t : State} (h : Delivered s t) : t.body.data = s.body.data := by
  have := congrArg Body.data h.rest
  exact this

theorem delivered_foldl (ls : List Letter) (s : State) (r : Reply) (dup : Bool) :
    Delivered s (ls.foldl (fun (s : State) l => deliver s l r dup) s) := by
  induction ls generalizing s with
  | nil => exact .refl s
  | cons l ls ih => exact (delivered s l r dup).trans (ih _)

/-- The reply of a letter of a port stands in its slot. -/
theorem replies_deliver {s : State} {l : Letter} {f : Fn} (hf : l.fn = some f) (hc : canReply s l = true) (r : Reply) (dup : Bool) :
    ((deliver s l r dup).body.host.fn f).replies =
      ((s.body.host.fn f).setReply l.slot (replyBytes l r dup 2 (holderCode s) s.alm.beat)).replies := by
  unfold deliver
  rw [hf]
  dsimp only
  rw [if_pos hc]
  dsimp only
  split
  · rw [fn_setFn]
  · rw [replies_msix, fn_setFn]

/-! ### Replies and the journal -/

/-- The reply kept with a journal entry. -/
def JEntry.replyFor (e : JEntry) (res : Res) : Reply :=
  { stamp := e.letter.stamp, seq := e.letter.seq, status := res.status, fieldOff := res.fieldOff,
    data := res.data.take 224, acceptBeat := e.acceptBeat, reexec := e.reexec }

/-- A journal entry once entry `jid` has its reply. -/
def JEntry.replied (jid ticket : Nat) (r : Reply) (x : JEntry) : JEntry :=
  if x.jid = jid then { x with reply := some r, ticket := ticket, waiters := [] } else x

/-- The management plane once entry `jid` has its reply. -/
def Mgmt.replied (m : Mgmt) (jid ticket : Nat) (r : Reply) : Mgmt := Mgmt.retire { m with journal := m.journal.map (JEntry.replied jid ticket r) }

theorem reply_of_none {s : State} {jid : Nat} (res : Res) (h : (s.body.mg.journal.find? fun e => e.jid == jid) = none) : reply s jid res = s := by
  unfold reply
  rw [h]

theorem reply_of_some {s : State} {jid : Nat} {e : JEntry} (res : Res) (h : (s.body.mg.journal.find? fun e => e.jid == jid) = some e) :
    reply s jid res = (e.waiters.foldl (fun (s : State) l => deliver s l (e.replyFor res) true) (deliver s e.letter (e.replyFor res) false)).mg
      fun m => m.replied jid res.ticket (e.replyFor res) := by
  unfold reply
  rw [h]
  rfl

theorem reply_accept (s : State) (jid : Nat) (res : Res) : (reply s jid res).body.mg.accept = s.body.mg.accept := by
  cases h : s.body.mg.journal.find? fun e => e.jid == jid with
  | none => rw [reply_of_none res h]
  | some e =>
    rw [reply_of_some res h]
    have hd := ((delivered s e.letter (e.replyFor res) false).trans (delivered_foldl e.waiters _ (e.replyFor res) true)).mg
    have ha := congrArg Mgmt.accept hd
    exact ha

theorem not_mem_journal_replied {m : Mgmt} {jid : Nat} {r : Reply} {x : JEntry} (h : x ∈ (m.replied jid 0 r).journal) : x.jid ≠ jid := by
  obtain ⟨hm, hl⟩ := List.mem_filter.1 h
  obtain ⟨y, hy, rfl⟩ := List.mem_map.1 hm
  unfold JEntry.replied at hl ⊢
  split at hl
  · exact absurd hl Bool.false_ne_true
  · next hne =>
    rw [if_neg hne]
    exact hne

theorem mem_journal_replied {m : Mgmt} {jid ticket : Nat} {r : Reply} {e : JEntry} (hf : (m.journal.find? fun e => e.jid == jid) = some e)
    (ht : ticket ≠ 0) (hs : (m.schedule.any fun x => x.ticket == ticket) = true) :
    ∃ x ∈ (m.replied jid ticket r).journal, x.jid = jid ∧ x.reply = some r := by
  have hid : e.jid = jid := by simpa using List.find?_some hf
  have hr : e.replied jid ticket r = { e with reply := some r, ticket := ticket, waiters := [] } := if_pos hid
  refine ⟨e.replied jid ticket r, List.mem_filter.2 ⟨List.mem_map.2 ⟨e, List.mem_of_find?_eq_some hf, rfl⟩, ?_⟩, ?_, ?_⟩
  · rw [hr]
    dsimp only
    rw [hs, bne_iff_ne.2 ht]
    rfl
  · rw [hr]
    exact hid
  · rw [hr]

/-! ### Rings -/

theorem takeRings_of_none {s : State} (h : ∀ o ∈ s.body.host.ops, o.kind.isLetter = false) : takeRings s = s := by
  unfold takeRings
  generalize s.body.host.ops = l at h
  induction l with
  | nil => rfl
  | cons o l ih =>
    rw [List.foldl_cons]
    have ho := h o (List.mem_cons_self ..)
    obtain ⟨fn, off, len, kind⟩ := o
    cases kind with
    | letter l => exact Bool.noConfusion ho
    | write ids => exact ih fun o ho => h o (List.mem_cons_of_mem _ ho)
    | read => exact ih fun o ho => h o (List.mem_cons_of_mem _ ho)
    | window n => exact ih fun o ho => h o (List.mem_cons_of_mem _ ho)
    | ring n => exact ih fun o ho => h o (List.mem_cons_of_mem _ ho)
    | fault n => exact ih fun o ho => h o (List.mem_cons_of_mem _ ho)

/-- The copy of a letter slot that a ring takes. -/
def State.rung (s : State) (fn : Fn) (slot : Nat) : Letter :=
  { bytes := (s.body.host.fn fn).slotBytes slot, stamp := fnStamp fn, fn := some fn, slot := slot, gen := (s.body.host.fn fn).gen, ringBeat := s.alm.beat }

section Ring

variable {s : State} {fn : Fn} {slot : Nat}

/-- A ring waits for what its function asked for before, or takes effect. -/
theorem letterRing_exec (hs : s.finish = s) (hslot : slot < 16) (hl : s.body.host.live fn = true)
    (ho : ∀ o ∈ s.body.host.ops, o.kind.isLetter = false) : exec (.letterRing fn slot) s = .next
      (if HostOp.waits ⟨fn, 0, 0, .letter (s.rung fn slot)⟩ s.body.host.ops then
        { s with body := { s.body with host := { s.body.host with ops := s.body.host.ops ++ [⟨fn, 0, 0, .letter (s.rung fn slot)⟩] } } }
      else ringSlot s fn (s.rung fn slot)).finish := by
  show execLetterRing fn slot s = _
  unfold execLetterRing State.run
  rw [hs]
  dsimp only
  rw [takeRings_of_none ho]
  rw [if_neg (by rw [hl]; simp; omega)]
  rfl

theorem ring_waits (h : ∃ x ∈ s.body.host.ops, x.fn = fn ∧ x.kind.isRead = false) (l : Letter) :
    HostOp.waits ⟨fn, 0, 0, .letter l⟩ s.body.host.ops = true := by
  obtain ⟨x, hx, hf, hr⟩ := h
  exact List.any_eq_true.2 ⟨x, hx, by rw [hf, hr, beq_self_eq_true]; rfl⟩

theorem ring_goes (h : ∀ x ∈ s.body.host.ops, x.fn = fn → x.kind.isRead = true) (l : Letter) :
    HostOp.waits ⟨fn, 0, 0, .letter l⟩ s.body.host.ops = false := by
  refine List.any_eq_false.2 fun x hx => ?_
  by_cases hf : x.fn = fn
  · simp [h x hx hf]
  · simp [hf]

variable {l : Letter}

/-- The reply slot says BUSY. -/
def State.busySlot (s : State) (fn : Fn) (slot : Nat) : Prop := mgetD (s.body.host.fn fn).replies (256 * slot + 13) 0 = 1

theorem ringSlot_busy (h : s.busySlot fn l.slot) : ringSlot s fn l = { s with body := { s.body with
    host := s.body.host.setFn fn { s.body.host.fn fn with dropped := (s.body.host.fn fn).dropped + 1 }
    log := s.body.log.tally s.alm.beat 0x0509 (7 + 256 * fnStamp fn) [(fnStamp fn, 1), (l.slot, 1), (0, 2), (0, 104)] } } := if_pos h

theorem ringSlot_unbound (h : ¬ s.busySlot fn l.slot) (hb : s.bound fn = false) : ringSlot s fn l = deliver s l (plain l 5 0xFFFF) false := by
  unfold State.busySlot at h
  unfold ringSlot
  dsimp only
  rw [if_neg h, hb]
  rfl

theorem ringSlot_fault (h : ¬ s.busySlot fn l.slot) (hb : s.bound fn = true) (hf : s.latch.fault = true) :
    ringSlot s fn l = deliver s l (plain l 0x0D 0xFFFF) false := by
  unfold State.busySlot at h
  unfold ringSlot
  dsimp only
  rw [if_neg h, hb, hf]
  rfl

/-- The state once a ring has been accepted. -/
def State.accepted (s : State) (fn : Fn) (l : Letter) : State :=
  { s with body := { s.body with
    host := s.body.host.setFn fn ((s.body.host.fn fn).setReply l.slot ((replyBytes l { (plain l 0 0) with fieldOff := 0 } false 1 0 0).take 32))
    mg := { s.body.mg with accept := s.body.mg.accept ++ [l] } } }

theorem ringSlot_accepted (h : ¬ s.busySlot fn l.slot) (hb : s.bound fn = true) (hf : s.latch.fault = false)
    (hrow : ∀ l' ∈ (s.body.mg.accept ++ [l]).head?, hasRow l' = true) : ringSlot s fn l = s.accepted fn l := by
  unfold State.busySlot at h
  unfold ringSlot
  dsimp only
  rw [if_neg h, hb, hf]
  refine Eq.trans (b := if (s.accepted fn l).acting then drainBad (s.accepted fn l).body.mg.accept.length (s.accepted fn l) else s.accepted fn l) rfl ?_
  rw [drainBad_of_rows hrow]
  split <;> rfl

theorem busy_accepted (s : State) (fn : Fn) (l : Letter) : (s.accepted fn l).busySlot fn l.slot := by
  unfold State.busySlot State.accepted
  dsimp only
  rw [fn_setFn, replies_setReply]
  rfl

end Ring

/-- Settles O30: a ring takes effect or waits, and a reply is written to its letter's slot. -/
theorem letterRing : Obligations.LetterRing := by
  unfold Obligations.LetterRing
  refine ⟨?_, ?_⟩
  · intro s fn slot hslot hlive hops
    refine ⟨fun hw hs => ?_, fun hg => ⟨fun hb hs => ?_, fun hb hbound hs => ?_, fun hb hbound hf hs => ?_, fun hb hbound hf hs hrow => ?_⟩⟩ <;>
      rw [letterRing_exec hs hslot hlive hops]
    · rw [if_pos (ring_waits hw _)]
      rfl
    · rw [if_neg (by rw [ring_goes hg]; decide), ringSlot_busy (l := s.rung fn slot) hb]
      rfl
    · rw [if_neg (by rw [ring_goes hg]; decide), ringSlot_unbound (l := s.rung fn slot) hb hbound]
      rfl
    · rw [if_neg (by rw [ring_goes hg]; decide), ringSlot_fault (l := s.rung fn slot) hb hbound hf]
      rfl
    · rw [if_neg (by rw [ring_goes hg]; decide), ringSlot_accepted (l := s.rung fn slot) hb hbound hf hrow]
      exact ⟨_, rfl, rfl, busy_accepted s fn _, rfl, rfl⟩
  · intro s jid e f res he hf hc hw r t
    have ht : t = (deliver s e.letter r false).mg fun m => m.replied jid res.ticket r := by
      show reply s jid res = _
      rw [reply_of_some res he, hw]
      rfl
    have hd := delivered s e.letter r false
    have hlen : (replyBytes e.letter r false 2 (holderCode s) s.alm.beat).length = 256 := by
      rw [length_replyBytes]
      have : r.data.length ≤ 224 := List.length_take_le ..
      omega
    have hmg : t.body.mg = s.body.mg.replied jid res.ticket r := by
      rw [ht]
      exact congrArg (fun m : Mgmt => m.replied jid res.ticket r) hd.mg
    refine ⟨fun i hi => ?_, hlen, fun h0 x hx => ?_, fun h0 hany => ?_, ?_, ?_, ?_, ?_, ?_, ?_⟩
    · have hrep : (t.body.host.fn f).replies = ((s.body.host.fn f).setReply e.letter.slot
          (replyBytes e.letter r false 2 (holderCode s) s.alm.beat)).replies := by
        rw [ht]
        exact replies_deliver hf hc r false
      rw [hrep, replies_setReply, if_pos (by rw [hlen]; exact hi)]
    · rw [hmg, h0] at hx
      exact not_mem_journal_replied hx
    · rw [hmg]
      exact mem_journal_replied he h0 hany
    · rw [hmg]
      rfl
    · rw [hmg]
      rfl
    · rw [ht]
      exact hd.data
    · rw [ht]
      exact hd.reqs
    · rw [ht]
      exact hd.alm
    · rw [ht]
      exact hd.latch

/-! ### The order of letters -/

/-- The front letter has left the acceptance queue. -/
def State.popped (s : State) : State := s.mg fun m => { m with accept := m.accept.tail }

section Order

variable {i : Instr} {s : State} {l : Letter}

/-- What a letter's command leaves: the letter handled with an effect that is the command's own. -/
theorem AtFront.exec (h : AtFront i s l) : ∃ eff : State → Letter → Nat → State × Res,
    (handle s.popped l eff).body.mg.accept = s.body.mg.accept.tail → exec i s = .next (handle s.popped l eff).finish := by
  obtain ⟨is, eff, hi, he⟩ := exec_letter h.own
  obtain ⟨rest, hf, hrest⟩ := h.front
  refine ⟨eff, fun ha => ?_⟩
  rw [he]
  refine letterRow_front h.settled h.acting hf h.known hi fun x hx => hrest x ?_
  have ha' : (handle s.popped l eff).body.mg.accept = rest := by rw [ha, hf]; rfl
  rw [← ha']
  exact hx

theorem handle_out {eff : State → Letter → Nat → State × Res} {n : BitVec 32} (hn : mget s.body.mg.nextSeq l.stamp = some n)
    (hd : 0 < (l.seq - n).toInt ∨ (l.seq - n).toInt < -256) : handle s l eff = deliver s l (plain l 4 0xFFFF) false := by
  unfold handle
  dsimp only
  rw [hn]
  dsimp only
  rw [if_neg (by omega), if_neg (by omega)]

/-- A duplicate of a letter that is under way. -/
def JEntry.isFor (m : Mgmt) (l : Letter) (e : JEntry) : Bool := m.current e && e.letter.stamp == l.stamp && e.letter.seq == l.seq && e.reply.isNone

theorem handle_waits {eff : State → Letter → Nat → State × Res} {n : BitVec 32} {e : JEntry} (hn : mget s.body.mg.nextSeq l.stamp = some n)
    (h₁ : (l.seq - n).toInt < 0) (h₂ : -256 ≤ (l.seq - n).toInt) (he : (s.body.mg.journal.find? (JEntry.isFor s.body.mg l)) = some e) :
    handle s l eff = s.mg fun m => { m with journal := m.journal.map fun x => if x.jid = e.jid then { x with waiters := x.waiters ++ [l] } else x } := by
  unfold handle
  dsimp only
  rw [hn]
  dsimp only
  rw [if_neg (by omega), if_pos ⟨h₂, by omega⟩]
  have he' : (s.body.mg.journal.find? fun e => s.body.mg.current e && e.letter.stamp == l.stamp && e.letter.seq == l.seq && e.reply.isNone) = some e := he
  rw [he']

theorem handle_again {eff : State → Letter → Nat → State × Res} {n : BitVec 32} (hn : mget s.body.mg.nextSeq l.stamp = some n)
    (h₁ : (l.seq - n).toInt < 0) (h₂ : -256 ≤ (l.seq - n).toInt) (he : ∀ e ∈ s.body.mg.journal, e.isFor s.body.mg l = false) :
    (∀ r, s.body.mg.kept l.stamp l.seq = some r → handle s l eff = deliver s l r true) ∧
      (s.body.mg.kept l.stamp l.seq = none → handle s l eff = deliver s l (plain l 4 0xFFFF) false) := by
  have he' : (s.body.mg.journal.find? fun e => s.body.mg.current e && e.letter.stamp == l.stamp && e.letter.seq == l.seq && e.reply.isNone) = none :=
    List.find?_eq_none.2 fun e hm => by rw [show (_ && _) = false from he e hm]; decide
  unfold handle
  dsimp only
  rw [hn]
  dsimp only
  rw [if_neg (by omega), if_pos ⟨h₂, by omega⟩, he']
  dsimp only
  constructor
  · intro r hr
    rw [hr]
  · intro hr
    rw [hr]


theorem handle_refused {eff : State → Letter → Nat → State × Res} {st f : Nat}
    (hs : mget s.body.mg.nextSeq l.stamp = none ∨ mget s.body.mg.nextSeq l.stamp = some l.seq)
    (hr : refusal (s.mg fun m => m.journalIt l s.alm.beat) l = some (st, f)) : handle s l eff =
      reply (logDenied (s.mg fun m => m.journalIt l s.alm.beat) l st) s.body.mg.nextJid (Res.at_ st f) := by
  unfold handle
  dsimp only
  rcases hs with hs | hs
  · rw [hs]
    dsimp only
    rw [if_pos rfl, hr]
  · rw [hs]
    dsimp only
    rw [if_pos (by rw [BitVec.sub_self]; rfl), hr]

theorem logDenied_mg (s : State) (l : Letter) (st : Nat) : (logDenied s l st).body.mg = s.body.mg := by
  unfold logDenied
  dsimp only
  split <;> rfl

theorem popped_accept (s : State) : s.popped.body.mg.accept = s.body.mg.accept.tail := rfl

end Order

/-! ### The checks of a letter -/

section Checks

variable {s : State} {l : Letter} {m : Nat}

theorem refusal_of_none (h : argBytes l.op = none) : refusal s l = some (2, 0xFFFF) := by
  unfold refusal stepChecks
  rw [h]

theorem refusal_of_long (h : argBytes l.op = some m) (hm : m ≤ 224) (hl : m < field l.bytes 4 2) : refusal s l = some (3, 0xFFFF) := by
  have hlen : m < if 224 < field l.bytes 4 2 then 225 else l.len := by
    split
    · omega
    · exact hl
  unfold refusal stepChecks
  rw [h]
  dsimp only
  rw [if_pos hlen]

theorem refusal_of_length (h : argBytes l.op = some m) (hm : m ≤ 224) (hl : field l.bytes 4 2 ≤ m) : refusal s l =
    if portOk l.stamp l.op l.args = false then some (6, 0xFFFF)
    else if ownerOk s.body.data l.stamp l.op l.args = false then some (7, 0xFFFF)
    else match firstBad (headChecks l ++ argChecks s.body.data l.op l.args) with
      | some x => some x
      | none => (stateRefuses s l.op l.args).map fun st => (st, 0xFFFF) := by
  have hlen : ¬ m < if 224 < field l.bytes 4 2 then 225 else l.len := by
    rw [if_neg (by omega)]
    exact Nat.not_lt.2 hl
  unfold refusal stepChecks
  rw [h]
  dsimp only
  rw [if_neg hlen]
  cases portOk l.stamp l.op l.args
  · rfl
  · cases ownerOk s.body.data l.stamp l.op l.args <;> rfl

theorem firstBad_append {before after : List Chk} {c : Chk} (hb : ∀ b ∈ before, b.ok = true) (hc : c.ok = false) :
    firstBad (before ++ c :: after) = some (if c.rsv then 8 else 9, c.off) := by
  unfold firstBad
  rw [List.find?_append, List.find?_eq_none.2 fun b h => by rw [hb b h]; decide, Option.none_or, List.find?_cons_of_pos (by rw [hc]; rfl)]
  rfl

theorem firstBad_of_ok {cs : List Chk} (h : ∀ c ∈ cs, c.ok = true) : firstBad cs = none := by
  unfold firstBad
  rw [List.find?_eq_none.2 fun b hb => by rw [h b hb]; decide]
  rfl

end Checks

/-- Settles O31: a letter is answered, waits or becomes a journal entry by its sequence number, and is refused by its first failed check. -/
theorem letterOrder : Obligations.LetterOrder := by
  unfold Obligations.LetterOrder
  refine ⟨?_, ?_, ?_⟩
  · intro i s l n hf hn t d
    obtain ⟨eff, he⟩ := hf.exec
    have hn' : mget s.popped.body.mg.nextSeq l.stamp = some n := hn
    refine ⟨fun hd => ?_, fun h₁ h₂ e hfind => ?_, fun h₁ h₂ hnone => ?_⟩
    · have hh := handle_out (eff := eff) hn' hd
      rw [hh] at he
      exact he (congrArg Mgmt.accept (delivered s.popped l _ _).mg)
    · have hh := handle_waits (eff := eff) hn' h₁ h₂ hfind
      rw [hh] at he
      exact he rfl
    · obtain ⟨hk, hk'⟩ := handle_again (eff := eff) hn' h₁ h₂ hnone
      refine ⟨fun r hr => ?_, fun hr => ?_⟩
      · rw [hk r hr] at he
        exact he (congrArg Mgmt.accept (delivered s.popped l _ _).mg)
      · rw [hk' hr] at he
        exact he (congrArg Mgmt.accept (delivered s.popped l _ _).mg)
  · intro i s l st f hf hs hr
    obtain ⟨eff, he⟩ := hf.exec
    have hh := handle_refused (s := s.popped) (eff := eff) hs hr
    rw [hh] at he
    refine he ?_
    rw [reply_accept, logDenied_mg]
    rfl
  · intro s l
    refine ⟨refusal_of_none, fun m hm hle => ⟨refusal_of_long hm hle, fun hl hp => ?_, fun hl hp ho => ?_, fun hl hp ho before c after hc hb hbad => ?_,
      fun hl hp ho hok => ?_⟩⟩ <;> rw [refusal_of_length hm hle hl, hp]
    · rfl
    · rw [ho]
      rfl
    · rw [ho, hc, firstBad_append hb hbad]
      rfl
    · rw [ho, firstBad_of_ok hok]
      rfl

end Sys2Proof.Machine
end

section
/-! Letters over contexts, events, pigeonholes, queues, memory objects and host counts. -/

namespace Sys2Proof.Machine

/-! ### Letters that pass every check -/

theorem Front.handle {i : Instr} {s : State} {l : Letter} {eff : State → Letter → Nat → State × Res} {u : State} {r : Res} (h : Front i s l)
    (hu : eff (taken s l) l s.body.mg.nextJid = (u, r)) :
    handle s.popped l eff = if r.later then u else reply u s.body.mg.nextJid r := by
  have hr : refusal (s.popped.mg fun m => m.journalIt l s.popped.alm.beat) l = none := h.checks
  have hb : s.popped.body.mg.plotBusy l = false := h.free
  have he : eff (s.popped.mg fun m => m.journalIt l s.popped.alm.beat) l s.popped.body.mg.nextJid = (u, r) := hu
  have hs : mget s.popped.body.mg.nextSeq l.stamp = none ∨ mget s.popped.body.mg.nextSeq l.stamp = some l.seq := h.seq
  unfold Machine.handle
  dsimp only
  rcases hs with hs | hs
  · rw [hs]
    dsimp only
    rw [if_pos rfl, hr]
    dsimp only
    rw [hb, he]
    rfl
  · rw [hs]
    dsimp only
    rw [if_pos (by rw [BitVec.sub_self]; rfl), hr]
    dsimp only
    rw [hb, he]
    rfl

/-- A letter that passes every check has its effect, and is answered unless its reply comes later. -/
theorem Front.run {i : Instr} {s : State} {l : Letter} {is : Letter → Bool} {eff : State → Letter → Nat → State × Res} {u : State} {r : Res}
    (h : Front i s l) (he : exec i s = letterRow s is eff) (hi : is l = true) (hu : eff (taken s l) l s.body.mg.nextJid = (u, r))
    (ha : u.body.mg.accept = s.body.mg.accept.tail) : exec i s = .next (if r.later then u else reply u s.body.mg.nextJid r).finish := by
  obtain ⟨rest, hf, hrest⟩ := h.front
  have hh := h.handle hu
  have hacc : (if r.later then u else reply u s.body.mg.nextJid r).body.mg.accept = rest := by
    rw [hf] at ha
    split
    · exact ha
    · rw [reply_accept]
      exact ha
  rw [he, letterRow_front h.settled h.acting hf h.known hi]
  · exact congrArg (fun t : State => Host.Outcome.next t.finish) hh
  · intro x hx
    have hx' : x ∈ (Machine.handle s.popped l eff).body.mg.accept.head? := hx
    rw [hh, hacc] at hx'
    exact hrest x hx'

theorem Front.answered {i : Instr} {s : State} {l : Letter} {is : Letter → Bool} {eff : State → Letter → Nat → State × Res} {u : State} {r : Res}
    {P : State → Res → Prop} (h : Front i s l) (he : exec i s = letterRow s is eff) (hi : is l = true)
    (hu : eff (taken s l) l s.body.mg.nextJid = (u, r)) (ha : u.body.mg.accept = s.body.mg.accept.tail) (hr : r.status = 0) (hp : P u r) :
    Answered i s P := ⟨u, r, hp, hr, h.run he hi hu ha⟩

/-- A letter whose effect is known to change the state by `f` and to be answered at once. -/
theorem replies_of_eff {i : Instr} {is : Letter → Bool} {eff : State → Letter → Nat → State × Res} {ok : State → Letter → Prop}
    {f : State → Letter → State} {data : State → Letter → List Byte} (he : ∀ s, exec i s = letterRow s is eff)
    (hi : ∀ l, letterIs i l = is l) (hu : ∀ s l jid, ok s l → eff s l jid = (f s l, Res.ok (data s l)))
    (ha : ∀ s l, ok s l → (f s l).body.mg.accept = s.body.mg.accept) : Replies i ok f data := by
  intro s l h hok
  exact h.run (he s) ((hi l).symm.trans h.own) (hu _ _ _ hok) (ha _ _ hok)

theorem refuses_of_eff {i : Instr} {is : Letter → Bool} {eff : State → Letter → Nat → State × Res} {ok : State → Letter → Prop}
    {st o : Nat} (he : ∀ s, exec i s = letterRow s is eff) (hi : ∀ l, letterIs i l = is l)
    (hu : ∀ s l jid, ok s l → eff s l jid = (s, Res.at_ st o)) : Refuses i st o ok := by
  intro s l h hok
  exact h.run (he s) ((hi l).symm.trans h.own) (hu _ _ _ hok) rfl

/-! ### Letters on a plot and on a context -/

theorem onPlot_eq {s : State} {n : Nat} {p : Plot} (hp : mget s.body.data.plots n = some p) (h : p.st ≠ .destroying) (f : Plot → State × Res) :
    onPlot s n f = f p := by
  unfold onPlot
  rw [hp]
  exact if_neg h

theorem onPlot_none {s : State} {n : Nat} (hp : mget s.body.data.plots n = none) (f : Plot → State × Res) : onPlot s n f = (s, Res.at_ 0x41 0) := by
  unfold onPlot
  rw [hp]

theorem onCtx_eq {s : State} {c o : Nat} {x : Ctx} {p : Plot} (hc : mget s.body.data.ctxs c = some x) (hx : x.hostCount ≠ 0)
    (hp : mget s.body.data.plots x.plot = some p) (h : p.st ≠ .destroying) (f : Ctx → State × Res) : onCtx s c o f = f x := by
  unfold onCtx
  rw [hc]
  dsimp only
  rw [if_neg hx, hp]
  exact if_neg h

theorem onCtx_none {s : State} {c o : Nat} (hc : mget s.body.data.ctxs c = none) (f : Ctx → State × Res) : onCtx s c o f = (s, Res.at_ 0x10 o) := by
  unfold onCtx
  rw [hc]

/-! ### Letters on contexts, events, pigeonholes and queues -/

theorem initBytes_same (d : Data) (plot a : Nat) (l : List Byte) : d.sameBut (initBytes d plot a l) := by
  unfold initBytes
  cases h : d.devWrite plot (a % 2 ^ 40) l with
  | none => exact rfl
  | some e => exact devWrite_same h

/-- The context that `ctx.create` makes. -/
def ctxMade (s : State) (l : Letter) (e : Nat) : Ctx :=
  { plot := l.arg 0 1, forerunner := l.arg 1 1 == 1, wdAction := l.arg 2 1 == 1, wdEpochs := l.arg 4 4, ringLog2 := l.arg 3 1, ring := l.arg 8 8,
    progress := l.arg 16 8, faultEvent := e, hostCount := 1, writeSeq := 0, freeSeq := 0, rung := false, held := [], posted := [],
    launchSeq := 0, sample := [0, 0, 0, 0, 0], still := 0, lastAdvance := s.alm.beat, stalled := false }

/-- The memory of a new context: its ring's header, its progress line and its event's record. -/
def ctxMem (d : Data) (l : Letter) : Data :=
  initBytes (initBytes (initBytes d (l.arg 0 1) (l.arg 8 8) (natLe 4 0 ++ natLe 4 0 ++ natLe 8 (l.arg 3 1) ++ List.replicate 48 0)) (l.arg 0 1) (l.arg 16 8)
    (List.replicate 64 0)) (l.arg 0 1) (l.arg 24 8) eventInit

theorem ctxMem_same (d : Data) (l : Letter) : d.sameBut (ctxMem d l) :=
  sameBut_trans (initBytes_same _ _ _ _) (sameBut_trans (initBytes_same _ _ _ _) (initBytes_same _ _ _ _))

/-- A new context and a new event. -/
def Data.withCtx (d : Data) (c e : Nat) (x : Ctx) (y : Event) : Data := { d with ctxs := mput d.ctxs c x, events := mput d.events e y }

/-- The state once `ctx.create` has made context `c` and event `e`. -/
def ctxCreated (s : State) (l : Letter) (c e : Nat) : State :=
  { s with body := { s.body with
    data := (ctxMem s.body.data l).withCtx c e (ctxMade s l e) { ctx := c, addr := l.arg 24 8, vector := l.arg 32 2, hostCount := 1, fired := none }
    pw := { s.body.pw with ctxMj := mput s.body.pw.ctxMj c (l.arg 0 1, 0) } } }

theorem effCtxCreate_ok {s : State} {l : Letter} {p : Plot} {c e : Nat} (jid : Nat) (hp : mget s.body.data.plots (l.arg 0 1) = some p)
    (hst : p.st ≠ .destroying) (h₁ : (s.body.data.ctxs.filter fun c => c.2.plot == l.arg 0 1).length < p.maxCtx)
    (h₂ : plotEvents s.body.data (l.arg 0 1) < p.events) (h₃ : coversObj s.body.data (l.arg 0 1) (l.arg 8 8) (64 * (2 ^ l.arg 3 1 + 1)) = true)
    (h₄ : coversObj s.body.data (l.arg 0 1) (l.arg 16 8) 64 = true) (h₅ : coversObj s.body.data (l.arg 0 1) (l.arg 24 8) 16 = true)
    (h₆ : writable s.body.data (l.arg 0 1) (l.arg 8 8) 64 = true) (h₇ : writable s.body.data (l.arg 0 1) (l.arg 16 8) 64 = true)
    (h₈ : writable s.body.data (l.arg 0 1) (l.arg 24 8) 16 = true) (hc : freeKey s.body.data.ctxs 4096 = some c)
    (he : freeKey s.body.data.events 65536 = some e) : effCtxCreate s l jid = (ctxCreated s l c e, Res.ok (natLe 2 c ++ natLe 2 e)) := by
  unfold effCtxCreate
  dsimp only
  rw [onPlot_eq hp hst, if_neg (Nat.not_le.2 h₁), if_neg (Nat.not_le.2 h₂), h₃, h₄, h₅, h₆, h₇, h₈, hc, he]
  rfl

theorem effEventCreate_ok {s : State} {l : Letter} {p : Plot} {x : Ctx} {e : Nat} (jid : Nat) (hx : mget s.body.data.ctxs (l.arg 0 2) = some x)
    (h₀ : x.hostCount ≠ 0) (hp : mget s.body.data.plots x.plot = some p) (hst : p.st ≠ .destroying) (h₁ : plotEvents s.body.data x.plot < p.events)
    (h₂ : coversObj s.body.data x.plot (l.arg 8 8) 16 = true) (h₃ : writable s.body.data x.plot (l.arg 8 8) 16 = true)
    (he : freeKey s.body.data.events 65536 = some e) : effEventCreate s l jid = (s.setData { initBytes s.body.data x.plot (l.arg 8 8) eventInit with
      events := mput (initBytes s.body.data x.plot (l.arg 8 8) eventInit).events e
        { ctx := l.arg 0 2, addr := l.arg 8 8, vector := l.arg 2 2, hostCount := 1, fired := none } }, Res.ok (natLe 2 e)) := by
  unfold effEventCreate
  dsimp only
  rw [onCtx_eq hx h₀ hp hst, hp, Option.map_some, Option.getD_some, if_neg (Nat.not_le.2 h₁), h₂, h₃, he]
  rfl

theorem effPigeonholeCreate_ok {s : State} {l : Letter} {p : Plot} {x : Ctx} {i : Nat} (jid : Nat) (hx : mget s.body.data.ctxs (l.arg 0 2) = some x)
    (h₀ : x.hostCount ≠ 0) (hp : mget s.body.data.plots x.plot = some p) (hst : p.st ≠ .destroying) (h₁ : l.arg 8 8 % 4096 = 0)
    (h₂ : coversObj s.body.data x.plot (l.arg 8 8) (64 * (2 ^ l.arg 2 1 + 1)) = true)
    (h₃ : writable s.body.data x.plot (l.arg 8 8) (64 * (2 ^ l.arg 2 1 + 1)) = true)
    (hi : ((List.range p.ph.2).find? fun i => (mget s.body.data.pigeons (p.ph.1 + i)).isNone) = some i) : effPigeonholeCreate s l jid =
      (s.setData { initBytes s.body.data x.plot (l.arg 8 8) (ringInit (l.arg 2 1)) with
        pigeons := mput (initBytes s.body.data x.plot (l.arg 8 8) (ringInit (l.arg 2 1))).pigeons (p.ph.1 + i)
          { ctx := l.arg 0 2, ring := l.arg 8 8, log2 := l.arg 2 1, hostCount := 1, queue := none } }, Res.ok (natLe 2 (p.ph.1 + i))) := by
  unfold effPigeonholeCreate
  dsimp only
  rw [onCtx_eq hx h₀ hp hst, if_neg (not_not.2 h₁), h₂, h₃, hp, Option.map_some, Option.getD_some, hi]
  rfl

/-- A pigeonhole with a new queue. -/
def Pigeon.withQueue (g : Pigeon) (n : Nat) : Pigeon := { g with queue := some { disp := n, hostCount := 1, running := true, entry := none, launch := none } }

/-- The Dispatcher that a new queue goes to. -/
def queueDisp (s : State) (l : Letter) (x : Ctx) : Nat :=
  if l.arg 4 1 = 255 then fewestQueues s.body (match (mget s.body.data.plots x.plot).bind fun q => q.vf with
    | some (hb, _) => hb
    | none => false) else l.arg 4 1

theorem effQueueCreate_ok {s : State} {l : Letter} {p : Plot} {x : Ctx} {g : Pigeon} (jid : Nat) (hx : mget s.body.data.ctxs (l.arg 0 2) = some x)
    (h₀ : x.hostCount ≠ 0) (hp : mget s.body.data.plots x.plot = some p) (hst : p.st ≠ .destroying)
    (hg : mget s.body.data.pigeons (l.arg 2 2) = some g) (h₁ : g.hostCount ≠ 0) (h₂ : g.ctx = l.arg 0 2) (h₃ : g.queue = none) :
    effQueueCreate s l jid = (s.setData { s.body.data with pigeons := mput s.body.data.pigeons (l.arg 2 2) (g.withQueue (queueDisp s l x)) },
      Res.ok (natLe 1 (queueDisp s l x))) := by
  unfold effQueueCreate
  dsimp only
  rw [onCtx_eq hx h₀ hp hst, hg]
  dsimp only
  rw [if_neg h₁, if_neg (by rw [h₂, h₃]; simp)]
  rfl

theorem ctxs_initBytes (d : Data) (plot a : Nat) (l : List Byte) : (initBytes d plot a l).ctxs = d.ctxs := by
  have h := congrArg Data.ctxs (initBytes_same d plot a l)
  exact h

theorem ctxs_ctxMem (d : Data) (l : Letter) : (ctxMem d l).ctxs = d.ctxs := by
  have h := congrArg Data.ctxs (ctxMem_same d l)
  exact h

theorem events_ctxMem (d : Data) (l : Letter) : (ctxMem d l).events = d.events := by
  have h := congrArg Data.events (ctxMem_same d l)
  exact h

/-! ### The Dispatcher with the fewest queues -/

/-- The first of a list with the least value of `n`, or `a`. -/
def leastBy (n : Nat → Nat) (a : Option Nat) (l : List Nat) : Option Nat :=
  l.foldl (fun (a : Option Nat) i => match a with
    | none => some i
    | some j => if n i < n j then some i else a) a

theorem leastBy_spec (n : Nat → Nat) (l : List Nat) (j : Nat) : ∃ k, leastBy n (some j) l = some k ∧ (k = j ∨ k ∈ l) ∧ n k ≤ n j ∧ ∀ i ∈ l, n k ≤ n i := by
  induction l generalizing j with
  | nil => exact ⟨j, rfl, .inl rfl, le_refl _, fun i hi => absurd hi List.not_mem_nil⟩
  | cons i l ih =>
    have hstep : leastBy n (some j) (i :: l) = leastBy n (if n i < n j then some i else some j) l := rfl
    rw [hstep]
    by_cases h : n i < n j
    · rw [if_pos h]
      obtain ⟨k, hk, hm, hle, hall⟩ := ih i
      refine ⟨k, hk, .inr ?_, by omega, fun x hx => ?_⟩
      · rcases hm with rfl | hm
        · exact List.mem_cons_self ..
        · exact List.mem_cons_of_mem _ hm
      · rcases List.mem_cons.1 hx with rfl | hx
        · exact hle
        · exact hall x hx
    · rw [if_neg h]
      obtain ⟨k, hk, hm, hle, hall⟩ := ih j
      refine ⟨k, hk, hm.imp_right (List.mem_cons_of_mem _), hle, fun x hx => ?_⟩
      rcases List.mem_cons.1 hx with rfl | hx
      · omega
      · exact hall x hx

/-- The queues that a Dispatcher has. -/
def Data.queuesOf (d : Data) (i : Nat) : Nat := mcount d.pigeons fun _ p => (p.queue.map fun (q : Queue) => q.disp) == some i

theorem fewestQueues_eq (b : Body) (south : Bool) (h : b.md.dispOut = []) : fewestQueues b south =
    (leastBy b.data.queuesOf none ((List.range 4).map fun i => (if south then 4 else 0) + i)).getD (if south then 4 else 0) := by
  unfold fewestQueues
  dsimp only
  rw [h]
  rfl

theorem fewestQueues_spec (b : Body) (south : Bool) (h : b.md.dispOut = []) {m : Nat} (h₁ : m / 4 = fewestQueues b south / 4) (h₂ : m < 8) :
    b.data.queuesOf (fewestQueues b south) ≤ b.data.queuesOf m := by
  rw [fewestQueues_eq b south h] at h₁ ⊢
  have hl : leastBy b.data.queuesOf none ((List.range 4).map fun i => (if south then 4 else 0) + i) =
      leastBy b.data.queuesOf (some ((if south then 4 else 0) + 0)) ((List.range' 1 3).map fun i => (if south then 4 else 0) + i) := rfl
  obtain ⟨k, hk, hm, hle, hall⟩ := leastBy_spec b.data.queuesOf ((List.range' 1 3).map fun i => (if south then 4 else 0) + i) ((if south then 4 else 0) + 0)
  rw [hl, hk, Option.getD_some] at h₁ ⊢
  have hrange : ∀ x, (x = (if south then 4 else 0) + 0 ∨ x ∈ (List.range' 1 3).map fun i => (if south then 4 else 0) + i) →
      x / 4 = (if south then 4 else 0) / 4 := by
    rintro x (rfl | hx)
    · rfl
    · obtain ⟨i, hi, rfl⟩ := List.mem_map.1 hx
      have := List.mem_range'_1.1 hi
      cases south <;> simp only [if_true, Bool.false_eq_true, if_false] <;> omega
  rw [hrange k hm] at h₁
  by_cases h0 : m = (if south then 4 else 0) + 0
  · rw [h0]
    exact hle
  · refine hall m (List.mem_map.2 ⟨m - (if south then 4 else 0), ?_, ?_⟩)
    · rw [List.mem_range'_1]
      cases south <;> simp only [if_true, Bool.false_eq_true, if_false] at h₁ h0 ⊢ <;> omega
    · cases south <;> simp only [if_true, Bool.false_eq_true, if_false] at h₁ h0 ⊢ <;> omega

/-! ### Memory objects -/

/-- The bytes of a plot's BAR2 that its objects take. -/
def Data.taken (d : Data) (n : Nat) : List (Nat × Nat) :=
  (d.apertures.filter fun x => x.1 == n).map fun x => (x.2.2, ((d.objs.find? fun o => o.base == x.2.1).map fun o => o.size).getD 0)

/-- The place of a new object in its VF's BAR2, where it has one. -/
def apertureFor (s : State) (p : Plot) (n size step : Nat) : Option Nat :=
  (match p.vf with
    | some (hb, _) => some (2 ^ (s.body.host.port (if hb then .hb else .ha)).vfBar2Log2)
    | none => none).bind fun top => lowestFit (s.body.data.taken n) size step 0 top

/-- The stripe of an object: 4 MiB, or 32 MiB across the package. -/
def Letter.step (l : Letter) : Nat := if l.arg 2 1 == 1 then 2 ^ 25 else 2 ^ 22

/-- A size rounded up to whole stripes. -/
def Letter.size (l : Letter) : Nat := (l.arg 8 8 + l.step - 1) / l.step * l.step

/-- The object that `mem.create` makes without a side table. -/
def objMade (l : Letter) (base : Nat) (st : List (List Nat)) : MemObj :=
  { base := base, plot := l.arg 0 1, size := l.size, package := l.arg 2 1 == 1, nearDie := l.arg 3 1, postmark := l.arg 4 1 == 1, stream := l.arg 5 1 == 1,
    stripes := st, side := [], marks := [], hostCount := 1 }

/-- The data plane with a new object, and its aperture where it has one. -/
def Data.withObj (d : Data) (n : Nat) (o : MemObj) (k : Nat) (ap : Option Nat) : Data :=
  match ap with
  | some a => { d with objs := d.objs ++ [o], free := k, apertures := d.apertures ++ [(n, o.base, a)] }
  | none => { d with objs := d.objs ++ [o], free := k }

theorem withObj_spec (d : Data) (n : Nat) (o : MemObj) (k : Nat) (ap : Option Nat) : (d.withObj n o k ap).objs = d.objs ++ [o] ∧
    (d.withObj n o k ap).mem = d.mem ∧ (d.withObj n o k ap).plots = d.plots := by
  cases ap <;> exact ⟨rfl, rfl, rfl⟩

theorem effMemCreate_ok {s : State} {l : Letter} {p : Plot} {st : List (List Nat)} {t : Taking} {sub base : Nat} (jid : Nat)
    (hp : mget s.body.data.plots (l.arg 0 1) = some p) (hst : p.st ≠ .destroying) (hdie : l.arg 2 1 = 1 ∨ l.arg 3 1 ∉ s.body.data.dieOut) (hpm : l.arg 4 1 = 0)
    (hs : takeStripes s.body.data p (l.arg 2 1 == 1) (l.arg 3 1) (l.size / l.step) { used := usedFrames s.body.data, subs := [], k := s.body.data.free } =
      some (st, t, sub))
    (hb : lowestFit (s.body.data.objs.map fun o => (o.base, o.size)) l.size l.step 0 (2 ^ 39) = some base) : effMemCreate s l jid =
      (s.setData (s.body.data.withObj (l.arg 0 1) (objMade l base st) t.k (apertureFor s p (l.arg 0 1) l.size l.step)),
        Res.ok (natLe 8 (s.body.data.node * 2 ^ 40 + base) ++ natLe 8 l.size ++ natLe 8 ((apertureFor s p (l.arg 0 1) l.size l.step).getD (2 ^ 64 - 1)) ++
          natLe 4 sub ++ natLe 4 0)) := by
  have hdie' : (!(l.arg 2 1 == 1) && s.body.data.dieOut.contains (l.arg 3 1)) = false := by
    rcases hdie with h | h
    · rw [h]; rfl
    · rw [Bool.eq_false_iff.2 fun hc => h (List.contains_iff_mem.1 hc), Bool.and_false]
  unfold effMemCreate
  dsimp only
  rw [onPlot_eq hp hst, hdie', if_neg Bool.false_ne_true]
  rw [show (if (l.arg 2 1 == 1) = true then 2 ^ 25 else 2 ^ 22) = l.step from rfl, show (l.arg 8 8 + l.step - 1) / l.step * l.step = l.size from rfl, hs]
  dsimp only
  rw [if_neg (show ¬ l.arg 4 1 = 1 by omega), hb]
  dsimp only [takeSide]
  unfold apertureFor
  cases p.vf with
  | none => rfl
  | some v =>
    obtain ⟨hb, n⟩ := v
    dsimp only [Option.bind_some]
    change _ = (s.setData (s.body.data.withObj (l.arg 0 1) (objMade l base st) t.k
      (lowestFit (s.body.data.taken (l.arg 0 1)) l.size l.step 0 (2 ^ (s.body.host.port (if hb then .hb else .ha)).vfBar2Log2))), _)
    unfold Data.taken
    cases lowestFit _ l.size l.step 0 (2 ^ (s.body.host.port (if hb then .hb else .ha)).vfBar2Log2) <;> rfl

/-- The pages that a list of a plot names. -/
def Data.pagesAt (d : Data) (n a k : Nat) : List Nat := (List.range k).map fun i => leNat ((d.devRead n ((a + 8 * i) % 2 ^ 40) 8).getD [])

/-- The base of the host windows of a port. -/
def windowBase (hb : Bool) : Nat := if hb then 0xE000000000 else 0xC000000000

/-- The host-window object that `mem.create` makes. -/
def windowMade (d : Data) (l : Letter) (base : Nat) : HwObj :=
  { base := base, plot := l.arg 0 1, hb := l.arg 24 1 == 1, write := true, pages := d.pagesAt (l.arg 0 1) (l.arg 16 8) (l.arg 8 8 / 2 ^ 21), hostCount := 1 }

theorem effMemCreateHw_ok {s : State} {l : Letter} {p : Plot} {base : Nat} (jid : Nat) (hp : mget s.body.data.plots (l.arg 0 1) = some p)
    (hst : p.st ≠ .destroying) (hvf : p.vf = none) (h₁ : coversObj s.body.data (l.arg 0 1) (l.arg 16 8) (8 * (l.arg 8 8 / 2 ^ 21)) = true)
    (h₂ : readable s.body.data (l.arg 0 1) (l.arg 16 8) (8 * (l.arg 8 8 / 2 ^ 21)) = true)
    (h₃ : ∀ b ∈ s.body.data.pagesAt (l.arg 0 1) (l.arg 16 8) (l.arg 8 8 / 2 ^ 21), b % 4096 = 0)
    (hb : lowestFit (s.body.data.hws.map fun o => (o.base, o.pages.length * 2 ^ 21)) (l.arg 8 8) (2 ^ 21) (windowBase (l.arg 24 1 == 1))
      (windowBase (l.arg 24 1 == 1) + 2 ^ 37) = some base) : effMemCreateHw s l jid = (s.setData { s.body.data with hws := s.body.data.hws ++ [windowMade s.body.data l base] },
        Res.ok (natLe 8 (s.body.data.node * 2 ^ 40 + base) ++ natLe 8 (l.arg 8 8) ++ List.replicate 8 255 ++ natLe 4 0 ++ natLe 4 0)) := by
  have h₃' : ((s.body.data.pagesAt (l.arg 0 1) (l.arg 16 8) (l.arg 8 8 / 2 ^ 21)).any fun b => b % 4096 != 0) = false :=
    List.any_eq_false.2 fun b hb => by rw [h₃ b hb]; decide
  unfold effMemCreateHw
  dsimp only
  rw [onPlot_eq hp hst, hvf, h₁, h₂]
  dsimp only
  rw [if_neg Bool.false_ne_true, if_neg (by decide), if_neg (by decide)]
  unfold Data.pagesAt at h₃'
  unfold windowBase at hb
  rw [h₃', if_neg Bool.false_ne_true, hb]
  rfl

theorem countReply_fst (s : State) (kind id base : Nat) : (countReply s kind id base).1 = s := by
  unfold countReply
  split <;> rfl

theorem countReply_snd (s : State) (kind id base : Nat) : (countReply s kind id base).2 = Res.ok (countReply s kind id base).2.data := by
  unfold countReply
  split <;> rfl

theorem countReply_eq (s : State) (kind id base : Nat) : countReply s kind id base = (s, Res.ok (countReply s kind id base).2.data) :=
  Prod.ext (countReply_fst ..) (countReply_snd ..)

theorem effObjRetain_ok {s : State} {l : Letter} {h dv : Nat} {set : Nat → Data} (jid : Nat)
    (hc : objCounts s.body.data (l.arg 0 1) (l.arg 4 4) (l.arg 8 8) = some (h, dv, set)) (h₀ : 0 < h) (h₁ : h < 65535)
    (hg : objGone s.body.data (l.arg 0 1) (l.arg 4 4) (l.arg 8 8) = false) :
    effObjRetain s l jid = countReply (s.setData (set (h + 1))) (l.arg 0 1) (l.arg 4 4) (l.arg 8 8) := by
  unfold effObjRetain
  dsimp only
  rw [hc]
  dsimp only
  rw [hg, if_neg Bool.false_ne_true, if_neg (by omega), if_neg (by omega)]

theorem dropRef_ok {s : State} {kind id base h dv : Nat} {set : Nat → Data} (o : Nat) (hc : objCounts s.body.data kind id base = some (h, dv, set))
    (h₀ : 0 < h) (hg : objGone s.body.data kind id base = false) :
    dropRef s kind id base o = countReply (s.setData (set (h - 1)).reap) kind id base := by
  unfold dropRef
  rw [hc]
  dsimp only
  rw [hg, if_neg Bool.false_ne_true, if_neg (by omega)]

theorem effObjRetain_gone {s : State} {l : Letter} (jid : Nat) (hk : l.arg 0 1 ≠ 2)
    (hc : (objCounts s.body.data (l.arg 0 1) (l.arg 4 4) (l.arg 8 8)).isSome = true)
    (hg : objGone s.body.data (l.arg 0 1) (l.arg 4 4) (l.arg 8 8) = true) : effObjRetain s l jid = (s, Res.at_ 0x42 4) := by
  obtain ⟨⟨h, dv, set⟩, hc⟩ := Option.isSome_iff_exists.1 hc
  unfold effObjRetain
  dsimp only
  rw [hc]
  dsimp only
  rw [hg, if_pos rfl, if_neg hk]

theorem effObjRetain_released {s : State} {l : Letter} {dv : Nat} {set : Nat → Data} (jid : Nat) (hk : l.arg 0 1 ≠ 2)
    (hg : objGone s.body.data (l.arg 0 1) (l.arg 4 4) (l.arg 8 8) = false)
    (hc : objCounts s.body.data (l.arg 0 1) (l.arg 4 4) (l.arg 8 8) = some (0, dv, set)) : effObjRetain s l jid = (s, Res.at_ 0x11 4) := by
  unfold effObjRetain
  dsimp only
  rw [hc]
  dsimp only
  rw [hg, if_neg Bool.false_ne_true, if_pos rfl, if_neg hk]

/-- The data plane in which the host counts of a context and of its objects are zero. -/
def Data.letGo (d : Data) (c : Nat) : Data :=
  { d with
    ctxs := mmod d.ctxs c fun y => { y with hostCount := 0 }
    pigeons := mmap d.pigeons fun _ y => if y.ctx == c then { y with hostCount := 0, queue := y.queue.map fun (q : Queue) => { q with hostCount := 0 } } else y
    events := mmap d.events fun _ y => if y.ctx == c then { y with hostCount := 0 } else y
    graphs := mmap d.graphs fun _ y => if y.ctx == c then { y with hostCount := 0 } else y }

theorem effCtxRelease_ok {s : State} {l : Letter} {x : Ctx} (jid : Nat) (hx : mget s.body.data.ctxs (l.arg 4 4) = some x) (h₀ : x.hostCount ≠ 0)
    (hg : objGone s.body.data 1 (l.arg 4 4) 0 = false) (ha : l.arg 1 1 = 0) :
    effCtxRelease s l jid = countReply (s.setData (s.body.data.letGo (l.arg 4 4)).reap) 1 (l.arg 4 4) 0 := by
  unfold effCtxRelease
  dsimp only
  rw [hx]
  dsimp only
  rw [hg, if_neg Bool.false_ne_true, if_neg h₀, if_neg (show ¬ l.arg 1 1 = 1 by omega)]
  rfl

theorem effCtxRelease_none {s : State} {l : Letter} (jid : Nat) (hx : mget s.body.data.ctxs (l.arg 4 4) = none) :
    effCtxRelease s l jid = (s, Res.at_ 0x10 4) := by
  unfold effCtxRelease
  dsimp only
  rw [hx]

/-- A data plane that holds one context, and nothing that belongs to one. -/
structure Data.Lone (d : Data) (n : Nat) (c : Ctx) : Prop where
  graphs : d.graphs = []
  pigeons : d.pigeons = []
  events : d.events = []
  launches : d.launches = []
  cores : d.cores = []
  objs : d.objs = []
  hws : d.hws = []
  ctxs : d.ctxs = [(n, c)]

section Lone

variable {d : Data} {n : Nat} {c : Ctx}

theorem Data.Lone.refs (h : d.Lone n c) : d.ctxRefs n = 0 := by
  unfold Data.ctxRefs Data.launchesOf Data.launchRefs Data.detachedOf
  rw [h.launches, h.pigeons, h.cores]
  rfl

theorem Data.Lone.objects (h : d.Lone n c) : d.ctxObjects n = 0 := by
  unfold Data.ctxObjects
  rw [h.graphs, h.pigeons, h.events]
  rfl

theorem mput_single {α : Type} (k : Nat) (x y : α) : mput [(k, x)] k y = [(k, y)] := by
  simp only [mput, Nat.lt_irrefl, if_false, if_true]

/-- A context without host references is released. -/
theorem Data.Lone.releases (h : d.Lone n c) (h₀ : c.hostCount = 0) (hr : c.released = false) :
    ∃ e, d.releaseOne = some e ∧ e.Lone n { c with released := true } := by
  unfold Data.releaseOne
  rw [h.graphs, h.pigeons, h.events, h.objs, h.hws, h.ctxs]
  dsimp only [List.find?_nil]
  rw [List.find?_cons, h.refs, h₀, hr]
  exact ⟨_, rfl, rfl, rfl, rfl, h.launches, h.cores, rfl, rfl, (mput_single n c _).trans (by rw [h₀])⟩

/-- The number of a released context comes back if no record of it is left. -/
theorem Data.Lone.returns (h : d.Lone n c) (h₀ : c.hostCount = 0) (hr : c.released = true) (hh : c.held = []) :
    ∃ e, d.releaseOne = some e ∧ e.ctxs = [] ∧ e.releaseOne = none := by
  unfold Data.releaseOne
  rw [h.graphs, h.pigeons, h.events, h.objs, h.hws, h.ctxs]
  dsimp only [List.find?_nil]
  rw [List.find?_cons, List.find?_cons, h.refs, h.objects, h₀, hr, hh]
  exact ⟨_, rfl, if_pos rfl, by simp [mdel]⟩

theorem Data.Lone.stays (h : d.Lone n c) (h₀ : c.hostCount = 0) (hr : c.released = true) (hh : c.held ≠ []) : d.releaseOne = none := by
  unfold Data.releaseOne
  rw [h.graphs, h.pigeons, h.events, h.objs, h.hws, h.ctxs]
  dsimp only [List.find?_nil]
  rw [List.find?_cons, List.find?_cons, h.refs, h.objects, h₀, hr, List.isEmpty_eq_false_iff.2 hh]
  rfl

theorem reapN_of_none {d : Data} (h : d.releaseOne = none) (k : Nat) : reapN k d = d := by
  cases k with
  | zero => rfl
  | succ k => rw [reapN, h]

theorem Data.Lone.reap (h : d.Lone n c) (h₀ : c.hostCount = 0) (hr : c.released = false) :
    mget d.reap.ctxs n = if c.held = [] then none else some { c with released := true } := by
  obtain ⟨e, he, hl⟩ := h.releases h₀ hr
  have hn : d.reap = reapN 2 e := by
    unfold Data.reap
    rw [h.graphs, h.pigeons, h.events, h.objs, h.hws, h.ctxs]
    show reapN 3 d = _
    rw [reapN, he]
  rw [hn]
  by_cases hh : c.held = []
  · obtain ⟨f, hf, hc, hnone⟩ := hl.returns h₀ rfl hh
    rw [if_pos hh, reapN, hf]
    dsimp only
    rw [reapN_of_none hnone, hc]
    rfl
  · rw [if_neg hh, reapN_of_none (hl.stays h₀ rfl hh), hl.ctxs]
    exact if_pos rfl

end Lone

theorem ringHead_eq (k : Nat) : natLe 4 0 ++ natLe 4 0 ++ natLe 8 k ++ List.replicate 48 (0 : Byte) = natLe 8 0 ++ natLe 8 k ++ List.replicate 48 0 := rfl

theorem ctxMem_eq (d : Data) (l : Letter) : ctxMem d l =
    initBytes (initBytes (initBytes d (l.arg 0 1) (l.arg 8 8) (natLe 8 0 ++ natLe 8 (l.arg 3 1) ++ List.replicate 48 0)) (l.arg 0 1) (l.arg 16 8)
      (List.replicate 64 0)) (l.arg 0 1) (l.arg 24 8) (natLe 8 0 ++ List.replicate 8 255) := by
  unfold ctxMem eventInit
  rw [ringHead_eq]

theorem withCtx_mem (d : Data) (c e : Nat) (x : Ctx) (y : Event) : (d.withCtx c e x y).mem = d.mem := rfl

section Created

variable (s : State) (l : Letter) (c e : Nat)

theorem ctxCreated_ctx : mget (ctxCreated s l c e).body.data.ctxs c = some (ctxMade s l e) := mget_mput_self _ _ _

theorem ctxCreated_event : mget (ctxCreated s l c e).body.data.events e =
    some { ctx := c, addr := l.arg 24 8, vector := l.arg 32 2, hostCount := 1, fired := none } := mget_mput_self _ _ _

theorem ctxCreated_ctxs {j : Nat} (h : j ≠ c) : mget (ctxCreated s l c e).body.data.ctxs j = mget s.body.data.ctxs j :=
  (mget_mput_ne _ _ _ _ (Ne.symm h)).trans (congrArg (mget · j) (ctxs_ctxMem s.body.data l))

theorem ctxCreated_events {j : Nat} (h : j ≠ e) : mget (ctxCreated s l c e).body.data.events j = mget s.body.data.events j :=
  (mget_mput_ne _ _ _ _ (Ne.symm h)).trans (congrArg (mget · j) (events_ctxMem s.body.data l))

theorem ctxCreated_mem : (ctxCreated s l c e).body.data.mem = (ctxMem s.body.data l).mem := withCtx_mem ..

end Created

/-- Settles O33: each letter has the effect of its row, and its reply. -/
theorem objectLetters : Obligations.ObjectLetters := by
  unfold Obligations.ObjectLetters
  refine ⟨?_, ?_, ?_, ?_, ?_, ?_, ?_, ?_, ?_, ?_, ?_, ?_, ?_, ?_, ?_, ?_, ?_⟩
  case refine_1 =>
    intro s l p c e d n ring prog rec_ k hf hp hst h₁ h₂ h₃ h₄ h₅ h₆ h₇ h₈ hc he
    have hmem := ctxCreated_mem (taken s l) l c e
    rw [ctxMem_eq] at hmem
    exact hf.answered rfl hf.own (effCtxCreate_ok (s := taken s l) _ hp hst h₁ h₂ h₃ h₄ h₅ h₆ h₇ h₈ hc he) rfl rfl
      ⟨⟨_, ctxCreated_ctx .., rfl, rfl, rfl, rfl, rfl, rfl, rfl, rfl, rfl, rfl, rfl⟩, ctxCreated_event .., fun j hj => ctxCreated_ctxs _ _ _ _ hj,
        fun j hj => ctxCreated_events _ _ _ _ hj, hmem, rfl, rfl⟩
  case refine_2 =>
    intro s l p x e d c hf hx h₀ hp hst h₁ h₂ h₃ he y w
    exact hf.answered rfl hf.own (effEventCreate_ok (s := taken s l) _ hx h₀ hp hst h₁ h₂ h₃ he) rfl rfl ⟨rfl, rfl⟩
  case refine_3 =>
    intro s l p x i d c k hf hx h₀ hp hst h₁ h₂ h₃ hi y w
    exact hf.answered rfl hf.own (effPigeonholeCreate_ok (s := taken s l) _ hx h₀ hp hst h₁ h₂ h₃ hi) rfl rfl ⟨rfl, rfl⟩
  case refine_4 =>
    intro s l p x g d c hf hx h₀ hp hst hg h₁ h₂ h₃
    refine hf.answered rfl hf.own (effQueueCreate_ok (s := taken s l) _ hx h₀ hp hst hg h₁ h₂ h₃) rfl rfl
      ⟨queueDisp (taken s l) l x, fun h => if_neg h, fun h hout m hm hlt => ?_, rfl, rfl⟩
    have hq : queueDisp (taken s l) l x = fewestQueues (taken s l).body _ := if_pos h
    rw [hq] at hm ⊢
    exact fewestQueues_spec (taken s l).body _ hout hm hlt
  case refine_5 =>
    intro s l p d step size hf hp hst hdie hpm st t n base hs hb
    have hstep : step = l.step := by
      show (if l.arg 2 1 = 1 then _ else _) = if (l.arg 2 1 == 1) = true then _ else _
      simp only [beq_iff_eq]
    have hsize : size = l.size := by
      show (l.arg 8 8 + step - 1) / step * step = _
      rw [hstep]
      rfl
    rw [hsize, hstep] at hs hb
    obtain ⟨ho, hm, hpl⟩ := withObj_spec d (l.arg 0 1) (objMade l base st) t.k (apertureFor (taken s l) p (l.arg 0 1) l.size l.step)
    refine hf.answered rfl hf.own (effMemCreate_ok (s := taken s l) _ hp hst hdie hpm hs hb) rfl rfl
      ⟨_, ho, rfl, hsize.symm, rfl, rfl, rfl, rfl, rfl, rfl, hm, hpl, ?_⟩
    rw [hsize]
    rfl
  case refine_6 =>
    intro s l p base d n k lo pages hf hp hst hvf h₁ h₂ h₃ hb
    have hlo : lo = windowBase (l.arg 24 1 == 1) := by
      show (if l.arg 24 1 = 1 then _ else _) = if (l.arg 24 1 == 1) = true then _ else _
      simp only [beq_iff_eq]
    rw [hlo] at hb
    exact hf.answered rfl hf.own (effMemCreateHw_ok (s := taken s l) _ hp hst hvf h₁ h₂ h₃ hb) rfl rfl ⟨rfl, rfl⟩
  case refine_7 =>
    exact fun p => replies_of_eff (fun _ => rfl) (fun _ => rfl) (fun s l jid h => onPlot_eq h.1 h.2 _) (fun _ _ _ => rfl)
  case refine_8 =>
    exact fun h dv set => replies_of_eff (fun _ => rfl) (fun _ => rfl)
      (fun s l jid ⟨hc, h₀, h₁, hg⟩ => (effObjRetain_ok jid hc h₀ h₁ hg).trans (countReply_eq ..)) (fun _ _ _ => rfl)
  case refine_9 =>
    exact fun h dv set => replies_of_eff (fun _ => rfl) (fun _ => rfl)
      (fun s l jid ⟨hc, h₀, hg⟩ => (dropRef_ok _ hc h₀ hg).trans (countReply_eq ..)) (fun _ _ _ => rfl)
  case refine_10 =>
    exact fun h dv set => replies_of_eff (fun _ => rfl) (fun _ => rfl)
      (fun s l jid ⟨hc, h₀, hg⟩ => (dropRef_ok _ hc h₀ hg).trans (countReply_eq ..)) (fun _ _ _ => rfl)
  case refine_11 =>
    intro s l x d c hf hx h₀ hg ha cs ps es gs
    refine hf.answered rfl hf.own ((effCtxRelease_ok (s := taken s l) _ hx h₀ hg ha).trans (countReply_eq ..)) rfl rfl ⟨rfl, ?_⟩
    exact (countReply_snd ..).symm
  case refine_12 =>
    exact refuses_of_eff (fun _ => rfl) (fun _ => rfl) fun s l jid h => onPlot_none h _
  case refine_13 =>
    exact refuses_of_eff (fun _ => rfl) (fun _ => rfl) fun s l jid h => onCtx_none h _
  case refine_14 =>
    exact refuses_of_eff (fun _ => rfl) (fun _ => rfl) fun s l jid h => effCtxRelease_none jid h
  case refine_15 =>
    exact refuses_of_eff (fun _ => rfl) (fun _ => rfl) fun s l jid ⟨hk, hc, hg⟩ => effObjRetain_gone jid hk hc hg
  case refine_16 =>
    intro d n c h₁ h₂ h₃ h₄ h₅ h₆ h₇ h₈ h₀ hr
    exact Data.Lone.reap ⟨h₁, h₂, h₃, h₄, h₅, h₆, h₇, h₈⟩ h₀ hr
  case refine_17 =>
    exact refuses_of_eff (fun _ => rfl) (fun _ => rfl) fun s l jid ⟨hk, hg, dv, set, hc⟩ => effObjRetain_released jid hk hg hc

end Sys2Proof.Machine
end

section
/-! A live activation whose standby does not boot the new image. -/

namespace Sys2Proof.Machine

/-- `fw.activate` LIVE of Polmen, in the first letter of the PF of HA. -/
def liveLetter : Letter :=
  { bytes := [2, 7, 0, 0, 8] ++ List.replicate 27 0 ++ [1, 1] ++ List.replicate 6 0, stamp := 1, fn := none, slot := 0, gen := 0, ringBeat := 0 }

/-- Both slots of Polmen hold a valid image, of one journal. -/
def twoImages : Flash := { Flash.factory with polmen := { Slots.factory with aValid := true, bValid := true, sameJournal := true } }

/-- North holds the lease, South is in standby, and that letter stands at the front. -/
def standbyMgmt : Mgmt := { Mgmt.reset with nSt := .holder, sSt := .standbyReady, accept := [liveLetter] }

/-- A module in which nothing else is due. -/
def liveState : State :=
  { State.reset with
    latch := { Latch.reset with holder := some .north, last := some .north }
    body := { Body.reset with mg := standbyMgmt, flash := twoImages, md := { Module.reset with plan := List.replicate 9 [] } } }

theorem liveState_settled : liveState.finish = liveState := finish_settled rfl rfl rfl rfl rfl

theorem liveState_front : Front (.fwActivateLive false) liveState liveLetter where
  settled := liveState_settled
  acting := rfl
  front := ⟨[], rfl, by simp⟩
  own := rfl
  known := rfl
  seq := .inl rfl
  checks := by decide
  free := rfl

/-- Refutes O34: of a live activation whose standby did not boot it has a reply with status 0x61 be one of status OK. -/
theorem not_deviceLetters : ¬ Obligations.DeviceLetters := by
  unfold Obligations.DeviceLetters
  rintro ⟨-, -, -, -, -, -, -, -, -, -, -, -, -, -, -, -, -, -, -, -, -, hlive, -⟩
  obtain ⟨u, r, ⟨hr, -⟩, hok, -⟩ := hlive liveState liveLetter liveState_front rfl rfl rfl rfl rfl
  rw [hr] at hok
  exact absurd hok (by decide)

end Sys2Proof.Machine
end

section
/-! A power budget whose order is taken. -/

namespace Sys2Proof.Machine

/-- A reply leaves the power state. -/
theorem reply_pw (s : State) (jid : Nat) (res : Res) : (reply s jid res).body.pw = s.body.pw := by
  cases h : s.body.mg.journal.find? fun e => e.jid == jid with
  | none => rw [reply_of_none res h]
  | some e =>
    rw [reply_of_some res h]
    have := congrArg Body.pw ((delivered s e.letter (e.replyFor res) false).trans (delivered_foldl e.waiters _ (e.replyFor res) true)).rest
    exact this

/-- `power.budget` of 900 W for the next beat, in the first letter of the PF of HA. -/
def budgetLetter : Letter :=
  { bytes := [1, 4, 0, 0, 16] ++ List.replicate 27 0 ++ [0x84, 3] ++ List.replicate 14 0, stamp := 1, fn := none, slot := 0, gen := 0, ringBeat := 0 }

/-- A budget is in force that carries the order that the next letter takes. -/
def orderedPower : Power := { Power.reset with budgets := [⟨0, 0, 0, 0⟩] }

/-- North holds the lease, and that letter stands at the front. -/
def budgetMgmt : Mgmt := { Mgmt.reset with nSt := .holder, accept := [budgetLetter] }

def budgetState : State :=
  { State.reset with
    latch := { Latch.reset with holder := some .north, last := some .north }
    body := { Body.reset with mg := budgetMgmt, pw := orderedPower, md := { Module.reset with plan := List.replicate 9 [] } } }

theorem budgetState_settled : budgetState.finish = budgetState := finish_settled rfl rfl rfl rfl rfl

theorem budgetState_front : Front .powerBudget budgetState budgetLetter where
  settled := budgetState_settled
  acting := rfl
  front := ⟨[], rfl, by simp⟩
  own := rfl
  known := rfl
  seq := .inl rfl
  checks := by decide
  free := rfl

theorem effBudget_now {s : State} {l : Letter} (jid : Nat) (h : l.arg 8 8 = 0) :
    effBudget s l jid = (accepted (newBudget s (l.arg 0 2) (s.alm.beat + 1) (l.arg 4 4)), Res.ok (natLe 4 0)) := by
  unfold effBudget
  exact if_pos h

/-- A budget of an order that is in force is not added. -/
theorem newBudget_of_any {s : State} (watts start dur : Nat) (h : (s.body.pw.budgets.any fun q => q.order == s.body.mg.nextOrder) = true) :
    newBudget s watts start dur = s.mg fun m => { m with nextOrder := m.nextOrder + 1 } := by
  unfold newBudget addBudget
  dsimp only
  rw [if_pos h]

/-- The letter adds no budget. -/
theorem budgetState_exec : ∃ t, exec .powerBudget budgetState = .next t ∧ t.body.pw.budgets = [⟨0, 0, 0, 0⟩] := by
  have hu := effBudget_now (s := taken budgetState budgetLetter) budgetState.body.mg.nextJid (l := budgetLetter) (by decide)
  rw [newBudget_of_any _ _ _ (by decide)] at hu
  refine ⟨_, budgetState_front.run (is := fun l => l.op == 0x0401) rfl budgetState_front.own hu rfl, ?_⟩
  rw [finish_pw, if_neg (by decide), reply_pw]
  rfl

/-- Refutes O35: a budget that is in force under the order of the next letter keeps `power.budget` from adding one. -/
theorem not_almanacPowerAndFabricLetters : ¬ Obligations.AlmanacPowerAndFabricLetters := by
  unfold Obligations.AlmanacPowerAndFabricLetters
  rintro ⟨-, hbudget, -⟩
  obtain ⟨u, r, ⟨hu, -⟩, -, he⟩ := hbudget budgetState budgetLetter budgetState_front rfl
  obtain ⟨t, ht, hb⟩ := budgetState_exec
  have hpw : (if r.later then u else reply u budgetState.body.mg.nextJid r).body.pw = u.body.pw := by
    split
    · rfl
    · exact reply_pw _ _ _
  rw [ht, Host.Outcome.next.injEq] at he
  rw [he, finish_pw, hpw, hu] at hb
  exact absurd (congrArg List.length hb) (by decide)

end Sys2Proof.Machine
end

section
/-! The lease latch and the Postmasters' states. -/

namespace Sys2Proof.Machine

/-! ### What a command that runs leaves -/

theorem leaves_of_run {c : Instr} {s u : State} {f : State → State} (he : exec c s = s.run f) (h : f s = u) : Leaves c s u := by
  intro hs
  rw [he, State.run, hs, h]

theorem makes_of_run {c : Instr} {s : State} {f : State → State} {P : State → Prop} (he : exec c s = s.run f) (h : P (f s)) : Makes c s P := by
  intro hs
  exact ⟨f s, by rw [he, State.run, hs], h⟩

/-! ### The states of the Postmasters -/

theorem pmOf_setPm (m : Mgmt) (x : Side) (st : PmState) : pmOf (setPm m x st) x = st := by
  cases x <;> rfl

theorem pmOf_setPm_other (m : Mgmt) (x : Side) (st : PmState) : pmOf (setPm m (otherSide x) st) x = pmOf m x := by
  cases x <;> rfl

/-- What setting a Postmaster's state leaves. -/
structure PmOnly (m n : Mgmt) : Prop where
  rest : { n with nSt := m.nSt, sSt := m.sSt } = m

theorem setPm_pmOnly (m : Mgmt) (x : Side) (st : PmState) : PmOnly m (setPm m x st) := by
  cases x <;> exact ⟨rfl⟩

theorem PmOnly.trans {a b c : Mgmt} (h : PmOnly a b) (k : PmOnly b c) : PmOnly a c := by
  refine ⟨Eq.trans ?_ h.rest⟩
  have := congrArg (fun m : Mgmt => ({ m with nSt := a.nSt, sSt := a.sSt } : Mgmt)) k.rest
  exact this

theorem PmOnly.takeDue {m n : Mgmt} (h : PmOnly m n) : n.takeDue = m.takeDue := by
  have := congrArg Mgmt.takeDue h.rest
  exact this

theorem PmOnly.journal {m n : Mgmt} (h : PmOnly m n) : n.journal = m.journal := by
  have := congrArg Mgmt.journal h.rest
  exact this

theorem PmOnly.halted {m n : Mgmt} (h : PmOnly m n) : n.halted = m.halted := by
  have := congrArg Mgmt.halted h.rest
  exact this

/-- The Postmasters' states once side `x` has been granted the lease. -/
def grantPm (m : Mgmt) (x : Side) : Mgmt :=
  if pmOf (setPm m x .holder) (otherSide x) == .booting then setPm (setPm m x .holder) (otherSide x) .syncing else setPm m x .holder

theorem pmOf_grantPm (m : Mgmt) (x : Side) : pmOf (grantPm m x) x = .holder := by
  unfold grantPm
  split
  · rw [pmOf_setPm_other, pmOf_setPm]
  · rw [pmOf_setPm]

theorem grantPm_pmOnly (m : Mgmt) (x : Side) : PmOnly m (grantPm m x) := by
  unfold grantPm
  split
  · exact (setPm_pmOnly _ _ _).trans (setPm_pmOnly _ _ _)
  · exact setPm_pmOnly _ _ _

/-- A side that boots is granted the lease. -/
theorem granted_booting {s : State} {x : Side} (h : pmOf s.body.mg x = .booting) :
    granted s x = (s.setLatch (s.latch.grant x)).mg fun m => { grantPm m x with lastRenewal := s.alm.beat } := by
  unfold granted
  dsimp only
  rw [h, if_pos (by decide)]
  rfl

/-- A standby is granted the lease outside of a handover. -/
theorem granted_standby {s : State} {x : Side} (h : pmOf s.body.mg x = .standbyReady) (hh : s.body.mg.handover = 0) :
    granted s x = (s.setLatch (s.latch.grant x)).mg fun m => { grantPm m x with takeDue := true } := by
  unfold granted
  dsimp only
  rw [h, if_neg (by decide), if_neg (fun k => k hh)]
  rfl

theorem leaseClaim_granted {s : State} {n t : Bool} {x : Side} {P : State → Prop} (hf : s.latch.fault = false) (hn : s.latch.holder = none)
    (hw : s.latch.winner (n && mayClaim s .north) (t && mayClaim s .south) = some x) (h : P (granted s x)) : Makes (.leaseClaim n t) s P := by
  refine makes_of_run (show _ = execLeaseClaim n t s from rfl) ?_
  rw [hf, hn, if_neg (by decide), hw]
  exact h

theorem leaseClaim_idle {s : State} (n t : Bool) (h : s.latch.fault = true ∨ s.latch.holder ≠ none) : Leaves (.leaseClaim n t) s s := by
  refine leaves_of_run (show _ = execLeaseClaim n t s from rfl) ?_
  refine if_pos ?_
  rcases h with h | h
  · rw [h, Bool.true_or]
  · rw [Option.isSome_iff_ne_none.2 h, Bool.or_true]

theorem winner_cases (l : Latch) : l.winner true true ≠ none ∧ (l.last = some .north → l.winner true true = some .south) ∧
    (l.last = some .south → l.winner true true = some .north) ∧ (l.last = none → l.winner true true = some .north) ∧
    l.winner true false = some .north ∧ l.winner false true = some .south ∧ l.winner false false = none := by
  have hw : l.winner true true = if l.last = some .north then some .south else some .north := rfl
  refine ⟨?_, fun h => ?_, fun h => ?_, fun h => ?_, rfl, rfl, rfl⟩
  · rw [hw]
    split
    · simp
    · simp
  · rw [hw, if_pos h]
  · rw [hw, if_neg (by rw [h]; decide)]
  · rw [hw, if_neg (by rw [h]; decide)]

/-! ### Renewal, release and expiry -/

theorem Latch.expire_of_ne {l : Latch} (h : l.remaining ≠ 0) : l.expire = l := if_neg h

theorem conflict_eq (s : State) (x : Side) : conflict s x =
    (s.mg fun m => setPm m x .syncing).post 0x0504 (sideSource x) [(sideNo x, 0), (s.latch.gen.toNat, 0), (s.latch.droppedOf x, 0)] := rfl

theorem leaseRenew_held {s : State} {x : Side} (hf : s.latch.fault = false) (hp : pmOf s.body.mg x = .holder) (hr : pmRuns s x = true)
    (hx : s.latch.holder = some x) (h0 : s.latch.remaining ≠ 0) : Makes (.leaseRenew x) s fun u => u.latch = { s.latch with remaining := 50000 } ∧
      u.body.data = s.body.data ∧ (s.body.mg.takeDue = false → u.body.mg.lastRenewal = s.alm.beat) := by
  refine makes_of_run (show _ = execLeaseRenew x s from rfl) ?_
  rw [if_neg (by simp [hf, hp, hr]), Latch.expire_of_ne h0, if_pos (c := (s.setLatch s.latch).latch.holder = some x) hx]
  dsimp only
  split
  · next ht => exact ⟨rfl, rfl, fun h => absurd (ht.symm.trans h) (by decide)⟩
  · exact ⟨rfl, rfl, fun _ => rfl⟩

theorem leaseRenew_refused {s : State} {x : Side} (hf : s.latch.fault = false) (hp : pmOf s.body.mg x = .holder) (hr : pmRuns s x = true)
    (hx : s.latch.holder ≠ some x) (h0 : s.latch.remaining ≠ 0) : Makes (.leaseRenew x) s fun u => u.latch = s.latch ∧
      pmOf u.body.mg x = .syncing ∧ u.body.data = s.body.data.post 0x0504 (sideSource x) [(sideNo x, 0), (s.latch.gen.toNat, 0), (s.latch.droppedOf x, 0)] := by
  refine makes_of_run (show _ = execLeaseRenew x s from rfl) ?_
  rw [if_neg (by simp [hf, hp, hr]), Latch.expire_of_ne h0, if_neg (c := (s.setLatch s.latch).latch.holder = some x) hx]
  exact ⟨rfl, pmOf_setPm _ _ _, rfl⟩

theorem leaseRelease_held {s : State} {x : Side} (hf : s.latch.fault = false) (hx : s.latch.holder = some x) (hr : pmRuns s x = true) :
    Makes (.leaseRelease x) s fun u =>
      u.latch = { s.latch with holder := none, remaining := 0 } ∧ pmOf u.body.mg x = .syncing ∧ u.body.data = s.body.data := by
  refine makes_of_run (show _ = execLeaseRelease x s from rfl) ?_
  dsimp only
  rw [if_pos (by simp [hf, hx, hr])]
  refine ⟨rfl, ?_, rfl⟩
  have h := pmOf_setPm s.body.mg x .syncing
  cases x
  · exact h
  · exact h

theorem leaseExpiry_due {s : State} {x : Side} (hf : s.latch.fault = false) (hx : s.latch.holder = some x) (h0 : s.latch.remaining = 0) :
    Makes .leaseExpiry s fun u =>
      u.latch = { s.latch with holder := none } ∧ u.body.mg = { s.body.mg with handover := 0, takeDue := false } ∧ u.body.data = s.body.data := by
  refine makes_of_run (show _ = execLeaseExpiry s from rfl) ?_
  dsimp only
  rw [if_pos (by simp [hf, hx, h0])]
  exact ⟨if_pos h0, rfl, rfl⟩

theorem leaseExpiry_early {s : State} (h : s.latch.remaining ≠ 0) : Leaves .leaseExpiry s s := by
  refine leaves_of_run (show _ = execLeaseExpiry s from rfl) ?_
  refine if_neg ?_
  simp [h]

theorem latchCopyMismatch_found {s : State} (hf : s.latch.fault = false) (hp : s.body.md.p3v3 = true) : Leaves .latchCopyMismatch s
    ((s.setLatch { s.latch with fault := true }).post 0x0508 0 [(s.alm.beat, 0), (s.latch.gen.toNat, 0)]) := by
  refine leaves_of_run (show _ = execLatchCopyMismatch s from rfl) ?_
  exact if_neg (by simp [hf, hp])

/-! ### Takeover -/

/-- What answering letters leaves: everything but the host's side, the management port and the journal. -/
structure Told (s t : State) : Prop where
  alm : t.alm = s.alm
  latch : t.latch = s.latch
  data : t.body.data = s.body.data
  mg : { t.body.mg with journal := s.body.mg.journal, archive := s.body.mg.archive } = s.body.mg

theorem Told.refl (s : State) : Told s s := ⟨rfl, rfl, rfl, rfl⟩

theorem Told.trans {s t u : State} (h : Told s t) (k : Told t u) : Told s u := by
  refine ⟨k.alm.trans h.alm, k.latch.trans h.latch, k.data.trans h.data, Eq.trans ?_ h.mg⟩
  have := congrArg (fun m : Mgmt => ({ m with journal := s.body.mg.journal, archive := s.body.mg.archive } : Mgmt)) k.mg
  exact this

theorem Delivered.told {s t : State} (h : Delivered s t) : Told s t := ⟨h.alm, h.latch, h.data, by rw [h.mg]⟩

theorem told_reply (s : State) (jid : Nat) (r : Res) : Told s (reply s jid r) := by
  cases h : s.body.mg.journal.find? fun e => e.jid == jid with
  | none =>
    rw [reply_of_none r h]
    exact .refl s
  | some e =>
    rw [reply_of_some r h]
    have hd := (delivered s e.letter (e.replyFor r) false).trans (delivered_foldl e.waiters _ (e.replyFor r) true)
    exact hd.told.trans ⟨rfl, rfl, rfl, rfl⟩

theorem told_foldl {α : Type} {f : State → α → State} (h : ∀ s a, Told s (f s a)) (l : List α) (s : State) : Told s (l.foldl f s) := by
  induction l generalizing s with
  | nil => exact .refl s
  | cons a l ih => exact (h s a).trans (ih _)

theorem told_answerMoved (s : State) : Told s (answerMoved s) := by
  refine told_foldl (fun s e => ?_) _ s
  split
  · exact told_reply _ _ _
  · exact .refl s

theorem Told.emptied {s t : State} (h : Told s t) : Told (s.mg fun m => { m with accept := [] }) (t.mg fun m => { m with accept := [] }) := by
  refine ⟨h.alm, h.latch, h.data, ?_⟩
  have := congrArg (fun m : Mgmt => ({ m with accept := [] } : Mgmt)) h.mg
  exact this

/-- The letters' side of a takeover. -/
theorem takeLetters_told {s t : State} {n k : Nat} (h : takeLetters s = (t, n, k)) : Told (s.mg fun m => { m with accept := [] }) t ∧
    n = (openEntries s.body.mg).length ∧ k = s.body.mg.accept.length := by
  obtain ⟨ht, hn, hk⟩ : _ = t ∧ _ = n ∧ _ = k := by
    have := h
    unfold takeLetters at this
    exact ⟨congrArg Prod.fst this, congrArg (fun p => p.2.1) this, congrArg (fun p => p.2.2) this⟩
  subst ht hn hk
  let s' := s.mg fun m => { m with journal := m.journal.map fun (e : JEntry) => if e.reply.isNone then { e with reexec := true } else e }
  have hm := told_answerMoved s'
  refine ⟨?_, rfl, ?_⟩
  · have hs : Told (s.mg fun m => { m with accept := [] }) (s'.mg fun m => { m with accept := [] }) := ⟨rfl, rfl, rfl, rfl⟩
    have hj := hs.trans hm.emptied
    exact hj.trans (told_foldl (fun s l => (delivered s l _ false).told) _ _)
  · have ha := congrArg Mgmt.accept hm.mg
    exact congrArg List.length ha

theorem takeover_due {s : State} {x : Side} (hx : s.latch.holder = some x) (ht : s.body.mg.takeDue = true) (hf : s.latch.fault = false)
    (hp : pmOf s.body.mg x = .holder) (hr : pmRuns s x = true) (hs : s.body.mg.schedule = []) : Makes .takeover s fun u =>
      u.body.mg.takeDue = false ∧ u.body.mg.handover = 0 ∧ u.body.mg.accept = [] ∧
      u.body.mg.takeovers = s.body.mg.takeovers + 1 ∧ u.body.mg.retries = s.body.mg.retries + s.body.mg.accept.length ∧
      u.body.mg.lastTakeover = s.alm.beat ∧ u.latch = s.latch ∧ u.body.data.mem = s.body.data.mem ∧
      u.body.data.posts = s.body.data.posts ++ [⟨0x0502, sideSource x, [(s.latch.gen.toNat, 0), (s.body.mg.lastRenewal, 0),
        ((openEntries s.body.mg).length, 0), (s.body.mg.accept.length, 0)], none⟩] := by
  refine makes_of_run (show _ = execTakeover s from rfl) ?_
  rw [hx]
  dsimp only
  rw [if_pos (by simp [ht, hf, hp, hr])]
  obtain ⟨⟨t, n, k⟩, hl⟩ : ∃ p, takeLetters s = p := ⟨_, rfl⟩
  rw [hl]
  obtain ⟨⟨halm, hlatch, hdata, hmg⟩, rfl, rfl⟩ := takeLetters_told hl
  have hsch : t.body.mg.schedule = [] := by
    have := congrArg Mgmt.schedule hmg
    exact this.trans hs
  have hbeat : t.alm.beat = s.alm.beat := congrArg Almanac.beat halm
  have hmem : t.body.data.mem = s.body.data.mem := congrArg Data.mem hdata
  dsimp only
  rw [show (t.mg fun m => { m with takeDue := false, handover := 0 }).body.mg.schedule.length = 0 from congrArg List.length hsch]
  refine ⟨rfl, rfl, ?_, ?_, ?_, hbeat, hlatch, hmem, ?_⟩
  · have := congrArg Mgmt.accept hmg
    exact this
  · have := congrArg (fun m : Mgmt => m.takeovers + 1) hmg
    exact this
  · have := congrArg (fun m : Mgmt => m.retries + s.body.mg.accept.length) hmg
    exact this
  · have hg : t.latch.gen = s.latch.gen := congrArg Latch.gen hlatch
    have ho : t.body.mg.lastRenewal = s.body.mg.lastRenewal := by
      have := congrArg Mgmt.lastRenewal hmg
      exact this
    have hps : t.body.data.posts = s.body.data.posts := congrArg Data.posts hdata
    rw [← hg, ← ho, ← hps]
    rfl

/-! ### Standbys -/

theorem standbyResyncDone_done {s : State} {x : Side} (hp : pmOf s.body.mg x = .syncing) (hr : pmRuns s x = true) (ha : s.acting = true)
    (hx : s.latch.holder ≠ some x) : Leaves (.standbyResyncDone x) s
      ((s.mg fun m => setPm m x .standbyReady).post 0x0507 (sideSource x) [(sideNo x, 0), (s.body.mg.nextJid, 0)]) := by
  refine leaves_of_run (show _ = execStandbyResyncDone x s from rfl) ?_
  exact if_pos (by simp [hp, hr, ha, hx])

theorem standbyMirrorTimeout_lost {s : State} {x : Side} (hx : s.latch.holder = some x) (hf : s.latch.fault = false) (hr : pmRuns s x = true)
    (hp : pmOf s.body.mg (otherSide x) = .standbyReady) : Leaves .standbyMirrorTimeout s
      ((s.mg fun m => setPm m (otherSide x) .fault).post 0x0506 (sideSource (otherSide x)) [(sideNo (otherSide x), 0)]) := by
  have hg : s.gate = true := by simp [State.gate, hx, hf]
  refine leaves_of_run (show _ = execStandbyMirrorTimeout s from rfl) ?_
  rw [hx]
  exact if_pos (by simp [hg, hr, hp])

theorem postmasterRestart_boots {s : State} {x : Side} (ho : pmOf s.body.mg x ≠ .off) (hn : pmOf s.body.mg x ≠ .standbyReady)
    (hd : sideDie x ∉ s.body.data.dieOut) (hv : s.body.md.recovery = false) : Makes (.postmasterRestart x) s fun u =>
      pmOf u.body.mg x = (if s.latch.holder = some (otherSide x) then .syncing else .booting) ∧
      x ∉ u.body.mg.halted ∧ u.body.data = s.body.data ∧ u.latch = s.latch := by
  refine makes_of_run (show _ = execPostmasterRestart x s from rfl) ?_
  dsimp only
  rw [if_neg (by simp [ho, hd, hv]), if_neg hn]
  refine ⟨pmOf_setPm _ _ _, ?_, rfl, rfl⟩
  show x ∉ (setPm _ x _).halted
  rw [(setPm_pmOnly _ _ _).halted]
  simp

theorem haltingDebug_granted {s : State} {x : Side} (hg : s.body.mgdb.grants / 2 % 2 = 1) (hx : x ∉ s.body.mg.halted) :
    Leaves (.haltingDebug x) s (s.mg fun m => { m with halted := x :: m.halted }) := by
  refine leaves_of_run (show _ = execHaltingDebug x s from rfl) ?_
  exact if_pos (by simp [hg, hx])

theorem haltingDebug_closed {s : State} (x : Side) (hg : s.body.mgdb.grants / 2 % 2 = 0) : Leaves (.haltingDebug x) s s := by
  refine leaves_of_run (show _ = execHaltingDebug x s from rfl) ?_
  exact if_neg (by simp [hg])

/-- Settles O41, by the branch of each command. -/
theorem lease : Obligations.Lease := by
  unfold Obligations.Lease
  refine ⟨fun s n t x hf hn hw hp => ?_, fun s n t x hf hn hw hp hh => ?_, winner_cases, fun s n t h => leaseClaim_idle n t h,
    fun s x hf hp hr => ⟨leaseRenew_held hf hp hr, leaseRenew_refused hf hp hr⟩, fun s x hf hx hr => leaseRelease_held hf hx hr,
    fun s x hf hx h0 => leaseExpiry_due hf hx h0, fun s h => leaseExpiry_early h, fun s hf hp => latchCopyMismatch_found hf hp,
    fun s x hx ht hf hp hr hs => takeover_due hx ht hf hp hr hs, fun s x hp hr ha hx => standbyResyncDone_done hp hr ha hx,
    fun s x hx hf hr hp => standbyMirrorTimeout_lost hx hf hr hp, fun s x ho hn hd hv => postmasterRestart_boots ho hn hd hv,
    fun s x hg hx => haltingDebug_granted hg hx, fun s x hg => haltingDebug_closed x hg⟩
  · refine leaseClaim_granted hf hn hw ?_
    rw [granted_booting hp]
    exact ⟨rfl, pmOf_grantPm s.body.mg x, (grantPm_pmOnly s.body.mg x).takeDue, rfl⟩
  · refine leaseClaim_granted hf hn hw ?_
    rw [granted_standby hp hh]
    exact ⟨rfl, pmOf_grantPm s.body.mg x, rfl, (grantPm_pmOnly s.body.mg x).journal, rfl⟩

end Sys2Proof.Machine
end

section
/-! Sync cells, pulses and holdover. -/

namespace Sys2Proof.Machine

/-! ### Corrections -/

/-- What following a source leaves of a package that has yielded, and of its posts. -/
structure Yields (s t : State) : Prop where
  lost : t.alm.rootLost = s.alm.rootLost
  conflict : t.alm.conflict = s.alm.conflict
  posts : ∀ p ∈ s.body.data.posts, p ∈ t.body.data.posts

theorem Yields.trans {s t u : State} (h : Yields s t) (k : Yields t u) : Yields s u :=
  ⟨k.lost.trans h.lost, k.conflict.trans h.conflict, fun p hp => k.posts p (h.posts p hp)⟩

theorem yields_corrected (s : State) (n : Int) : Yields s (corrected s n) := ⟨rfl, rfl, fun _ hp => List.mem_append_left _ hp⟩

theorem yields_correct (s : State) (off : Int) : Yields s (correct s off) := by
  unfold correct
  dsimp only
  split
  · split
    · refine Yields.trans ?_ (yields_corrected _ _)
      exact ⟨rfl, rfl, fun _ hp => hp⟩
    · split
      · exact ⟨rfl, rfl, fun _ hp => hp⟩
      · exact ⟨rfl, rfl, fun _ hp => hp⟩
  · split
    · exact ⟨rfl, rfl, fun _ hp => hp⟩
    · exact ⟨rfl, rfl, fun _ hp => hp⟩

theorem yields_setCount (s : State) (beat : Nat) : Yields s (setCount s beat) := ⟨rfl, rfl, fun _ hp => hp⟩

theorem yields_followCell (s : State) (port sub : Nat) : Yields s (followCell s port sub) := by
  have hs (a : Almanac) (h : a.rootLost = s.alm.rootLost) (h' : a.conflict = s.alm.conflict) : Yields s (s.setAlm a) := ⟨h, h', fun _ hp => hp⟩
  unfold followCell
  split
  · exact hs s.alm rfl rfl
  · dsimp only
    split
    · split
      · refine Yields.trans ?_ (yields_setCount _ _)
        exact hs _ rfl rfl
      · exact hs _ rfl rfl
    · split
      · refine Yields.trans ?_ (yields_setCount _ _)
        exact hs _ rfl rfl
      · exact hs _ rfl rfl
    · split
      · refine Yields.trans ?_ (yields_correct _ _)
        exact hs _ rfl rfl
      · exact hs s.alm rfl rfl
    · split
      · refine Yields.trans ?_ (yields_correct _ _)
        exact hs _ rfl rfl
      · exact hs _ rfl rfl
    · split
      · refine Yields.trans ?_ (yields_correct _ _)
        exact hs _ rfl rfl
      · exact hs _ rfl rfl

/-- An offset within the bound, of a locked package. -/
theorem correct_locked_small {s : State} {off : Int} (h : off.natAbs ≤ s.alm.bound) (hs : s.alm.st = .locked) :
    correct s off = { s with
      alm := { s.alm with offset := off, freqPpb := Config.freqTrim s.body.data.free }
      body := { s.body with data := { s.body.data with free := s.body.data.free + 1 } } } := by
  unfold correct
  dsimp only
  rw [if_pos (c := off.natAbs ≤ Almanac.bound { s.alm with offset := off }) h, if_neg (by rw [hs]; decide), if_pos hs]
  rfl

theorem correct_slew {s : State} {off : Int} (h : s.alm.bound < off.natAbs) (h' : -1000000 ≤ off) :
    ∃ since slewFrom, correct s off =
      s.setAlm { s.alm with offset := off, st := .slewing, since := since, slew := off * 10, slewFrom := slewFrom, step := none } := by
  unfold correct
  dsimp only
  rw [if_neg (c := off.natAbs ≤ Almanac.bound { s.alm with offset := off }) (Nat.not_le.2 h), if_pos h']
  exact ⟨_, _, rfl⟩

theorem correct_step {s : State} {off : Int} (h : s.alm.bound < off.natAbs) (h' : off < -1000000) :
    correct s off = s.setAlm { s.alm with offset := off, step := some (((-off) / 1000).toNat, off) } := by
  unfold correct
  dsimp only
  rw [if_neg (c := off.natAbs ≤ Almanac.bound { s.alm with offset := off }) (Nat.not_le.2 h), if_neg (by omega)]

/-! ### One source -/

/-- The candidate that a cell makes of one heard before. -/
def heardCell (s : State) (port : Nat) (cell : SyncCell) (sub : Nat) (c : Bool) (old : SyncSrc) : SyncSrc :=
  ⟨cell, s.alm.beat, if c = true ∧ s.alm.beat < old.at_ + 64 then old.run + 1 else 1,
    ((s.alm.beat * 1000 + sub : Nat) : Int) - ((cell.beat * 1000 + (s.body.fab.link port).delayNs : Nat) : Int)⟩

/-- The state once that candidate is the only one. -/
def State.heard (s : State) (port : Nat) (x : SyncSrc) : State := s.setAlm { s.alm with srcs := [(port, x)] }

/-- The state once a follower has taken that candidate for its source. -/
def State.adopted (s : State) (port : Nat) (x : SyncSrc) : State := (s.heard port x).setAlm ((s.heard port x).alm.adopt port x.cell)

theorem best_single {a : Almanac} {ok : Nat → Bool} {port : Nat} {x : SyncSrc} (hs : a.srcs = [(port, x)]) (ht : x.at_ = a.beat) (hok : ok port = true) :
    a.best ok = some (port, x) := by
  unfold Almanac.best
  rw [hs, List.foldl_cons, List.foldl_nil, if_neg]
  simp [ht, hok]

theorem mput_only {α : Type} (k : Nat) (x y : α) : mput [(k, x)] k y = [(k, y)] := by
  simp [mput]

theorem syncCellRx_discards {s : State} {port sub : Nat} {cell : SyncCell} {c : Bool} (hz : cell.zero = false) (hp : 16 ≤ port) :
    Leaves (.syncCellRx port cell sub c) s (discard s port 4) := by
  refine leaves_of_run (show _ = execSyncCellRx port cell sub c s from rfl) ?_
  exact if_pos (by simp [hz, hp])

theorem good_cell {cell : SyncCell} {port : Nat} (hz : cell.zero = true ∨ port < 16) : (!cell.zero && decide (16 ≤ port)) = false := by
  rcases hz with hz | hz
  · simp [hz]
  · simp [Nat.not_le.2 hz]

theorem syncCellRx_closed {s : State} {port sub : Nat} {cell : SyncCell} {c : Bool} (hz : cell.zero = true ∨ port < 16)
    (hc : (s.body.fab.link port).carries = false) : Leaves (.syncCellRx port cell sub c) s s := by
  refine leaves_of_run (show _ = execSyncCellRx port cell sub c s from rfl) ?_
  rw [good_cell hz, if_neg (by decide), hc]
  rfl

/-- What a cell does on a port that carries them, with one candidate. -/
theorem syncCellRx_runs {s : State} {port : Nat} {old : SyncSrc} {cell : SyncCell} (sub : Nat) (c : Bool) (hz : cell.zero = true ∨ port < 16)
    (hc : (s.body.fab.link port).carries = true) (hs : s.alm.srcs = [(port, old)]) :
    ∃ f, exec (.syncCellRx port cell sub c) s = s.run f ∧ f s = (let t := s.heard port (heardCell s port cell sub c old)
      if s.alm.isRoot then
        if cell.rootSerial ≠ s.body.md.serial ∧ lexLt [cell.priority, cell.rootSerial] [s.alm.priority, s.body.md.serial] then
          followCell ((t.setAlm { t.alm with rootLost := true, conflict := true, listenFrom := t.alm.beat }).post 0x0103 0
            [(cell.rootSerial, 0), (cell.priority, 0)]) port sub
        else t
      else followCell t port sub) := by
  refine ⟨_, (show _ = execSyncCellRx port cell sub c s from rfl), ?_⟩
  have hget : mget s.alm.srcs port = some old := by rw [hs]; simp [mget]
  have hput (y : SyncSrc) : mput s.alm.srcs port y = [(port, y)] := by rw [hs, mput_only]
  rw [good_cell hz, if_neg (by decide), hc, if_neg (by decide)]
  dsimp only
  rw [hget, hput]
  simp only [Bool.and_eq_true, decide_eq_true_eq]
  rfl

/-! ### Following one source -/

theorem followCell_sets {s : State} {port sub : Nat} {x : SyncSrc} (hb : (s.alm.best fun k => (s.body.fab.link k).carries) = some (port, x))
    (hst : s.alm.st = .free ∨ s.alm.st = .acquiring) (hr : 4 ≤ x.run) : followCell s port sub =
      setCount (s.setAlm (s.alm.adopt port x.cell)) (((((s.alm.beat * 1000 + sub : Nat) : Int)) - x.offset) / 1000).toNat := by
  unfold followCell
  rw [hb]
  dsimp only
  rcases hst with hst | hst
  · rw [hst]
    exact if_pos hr
  · rw [hst]
    exact if_pos hr

theorem followCell_waits {s : State} {port sub : Nat} {x : SyncSrc} (hb : (s.alm.best fun k => (s.body.fab.link k).carries) = some (port, x))
    (hst : s.alm.st = .free ∨ s.alm.st = .acquiring) (hr : ¬4 ≤ x.run) : ∃ since, followCell s port sub =
      s.setAlm { s.alm with st := .acquiring, since := since } := by
  unfold followCell
  rw [hb]
  dsimp only
  rcases hst with hst | hst
  · rw [hst]
    exact ⟨_, if_neg hr⟩
  · rw [hst]
    exact ⟨_, if_neg hr⟩

theorem followCell_locked {s : State} {port sub : Nat} {x : SyncSrc} (hb : (s.alm.best fun k => (s.body.fab.link k).carries) = some (port, x))
    (hst : s.alm.st = .locked) (hp : s.alm.source = port) : followCell s port sub = correct (s.setAlm (s.alm.adopt port x.cell)) x.offset := by
  unfold followCell
  rw [hb]
  dsimp only
  rw [hst]
  dsimp only
  rw [if_pos (by simp [hp])]

section
variable {s : State} {port sub : Nat} {old : SyncSrc} {cell : SyncCell}

/-- The only candidate is the best one. -/
theorem best_heard (hc : (s.body.fab.link port).carries = true) (c : Bool) :
    ((s.heard port (heardCell s port cell sub c old)).alm.best fun k => ((s.heard port (heardCell s port cell sub c old)).body.fab.link k).carries) =
      some (port, heardCell s port cell sub c old) :=
  best_single rfl rfl hc

theorem makes_heard {c : Bool} {P : State → Prop} (hz : cell.zero = true ∨ port < 16) (hc : (s.body.fab.link port).carries = true)
    (hs : s.alm.srcs = [(port, old)]) (hr : s.alm.isRoot = false) (h : P (followCell (s.heard port (heardCell s port cell sub c old)) port sub)) :
    Makes (.syncCellRx port cell sub c) s P := by
  obtain ⟨f, he, hf⟩ := syncCellRx_runs sub c hz hc hs
  refine makes_of_run he ?_
  rw [hf]
  dsimp only
  rw [hr, if_neg Bool.false_ne_true]
  exact h

theorem syncCellRx_root (hz : cell.zero = true ∨ port < 16) (hc : (s.body.fab.link port).carries = true) (hs : s.alm.srcs = [(port, old)])
    (hr : s.alm.isRoot = true) (hl : cell.rootSerial = s.body.md.serial ∨ lexLt [cell.priority, cell.rootSerial] [s.alm.priority, s.body.md.serial] = false)
    (c : Bool) : Leaves (.syncCellRx port cell sub c) s (s.heard port (heardCell s port cell sub c old)) := by
  obtain ⟨f, he, hf⟩ := syncCellRx_runs sub c hz hc hs
  refine leaves_of_run he ?_
  rw [hf]
  dsimp only
  rw [hr, if_pos rfl, if_neg]
  rintro ⟨h, h'⟩
  rcases hl with hl | hl
  · exact h hl
  · exact absurd (hl.symm.trans h') (by decide)

theorem syncCellRx_yields (hz : cell.zero = true ∨ port < 16) (hc : (s.body.fab.link port).carries = true) (hs : s.alm.srcs = [(port, old)])
    (hr : s.alm.isRoot = true) (hn : cell.rootSerial ≠ s.body.md.serial)
    (hl : lexLt [cell.priority, cell.rootSerial] [s.alm.priority, s.body.md.serial] = true) (c : Bool) :
    Makes (.syncCellRx port cell sub c) s fun u => u.alm.rootLost = true ∧ u.alm.conflict = true ∧
      ⟨0x0103, 0, [(cell.rootSerial, 0), (cell.priority, 0)], none⟩ ∈ u.body.data.posts := by
  obtain ⟨f, he, hf⟩ := syncCellRx_runs sub c hz hc hs
  refine makes_of_run he ?_
  rw [hf]
  dsimp only
  rw [hr, if_pos rfl, if_pos ⟨hn, hl⟩]
  obtain ⟨h₁, h₂, h₃⟩ := yields_followCell (((s.heard port (heardCell s port cell sub c old)).setAlm
    { (s.heard port (heardCell s port cell sub c old)).alm with
      rootLost := true, conflict := true, listenFrom := (s.heard port (heardCell s port cell sub c old)).alm.beat }).post 0x0103 0
    [(cell.rootSerial, 0), (cell.priority, 0)]) port sub
  exact ⟨h₁, h₂, h₃ _ (List.mem_append_right _ (List.mem_singleton.2 rfl))⟩

theorem syncCellRx_locks (hz : cell.zero = true ∨ port < 16) (hc : (s.body.fab.link port).carries = true) (hs : s.alm.srcs = [(port, old)])
    (hr : s.alm.isRoot = false) (hst : s.alm.st = .free ∨ s.alm.st = .acquiring) (h3 : 3 ≤ old.run) (ht : s.alm.beat < old.at_ + 64) :
    Makes (.syncCellRx port cell sub true) s fun u => u.alm.st = .locked ∧ u.alm.source = port ∧
        u.alm.hops = cell.hops + 1 ∧ u.alm.rootSerial = cell.rootSerial ∧
        u.alm.beat = (cell.beat * 1000 + (s.body.fab.link port).delayNs) / 1000 ∧
        u.body = { s.body.rebase s.alm.beat ((cell.beat * 1000 + (s.body.fab.link port).delayNs) / 1000) with mg := u.body.mg } := by
  refine makes_heard hz hc hs hr ?_
  have hrun : 4 ≤ (heardCell s port cell sub true old).run := by
    show 4 ≤ if true = true ∧ s.alm.beat < old.at_ + 64 then old.run + 1 else 1
    rw [if_pos ⟨rfl, ht⟩]
    omega
  rw [followCell_sets (best_heard hc true) hst hrun]
  have hcount : (((((s.heard port (heardCell s port cell sub true old)).alm.beat * 1000 + sub : Nat) : Int) -
      (heardCell s port cell sub true old).offset) / 1000).toNat = (cell.beat * 1000 + (s.body.fab.link port).delayNs) / 1000 := by
    show (((((s.alm.beat * 1000 + sub : Nat) : Int)) -
      (((s.alm.beat * 1000 + sub : Nat) : Int) - ((cell.beat * 1000 + (s.body.fab.link port).delayNs : Nat) : Int))) / 1000).toNat = _
    omega
  rw [hcount]
  exact ⟨rfl, rfl, rfl, rfl, rfl, rfl⟩

theorem syncCellRx_acquires (hz : cell.zero = true ∨ port < 16) (hc : (s.body.fab.link port).carries = true) (hs : s.alm.srcs = [(port, old)])
    (hr : s.alm.isRoot = false) (hst : s.alm.st = .free ∨ s.alm.st = .acquiring) : Makes (.syncCellRx port cell sub false) s fun u =>
      u.alm.st = .acquiring ∧ u.alm.beat = s.alm.beat ∧ u.body = s.body := by
  refine makes_heard hz hc hs hr ?_
  obtain ⟨since, h⟩ := followCell_waits (sub := sub) (best_heard (cell := cell) (old := old) hc false) hst (by
    show ¬4 ≤ if false = true ∧ s.alm.beat < old.at_ + 64 then old.run + 1 else 1
    rw [if_neg (fun h => Bool.false_ne_true h.1)]
    decide)
  rw [h]
  exact ⟨rfl, rfl, rfl⟩

/-- What a locked follower does with the offset of its source's cell. -/
theorem syncCellRx_corrects {c : Bool} {off : Int} {bound : Nat} (hz : cell.zero = true ∨ port < 16)
    (hc : (s.body.fab.link port).carries = true) (hs : s.alm.srcs = [(port, old)]) (hr : s.alm.isRoot = false) (hst : s.alm.st = .locked)
    (hp : s.alm.source = port) (hoff : (heardCell s port cell sub c old).offset = off)
    (hbound : bound = if port = 254 ∨ (port < 16 ∧ cell.hops = 0) then 20 else 250) : Makes (.syncCellRx port cell sub c) s fun u =>
      u.alm.beat = s.alm.beat ∧ u.alm.offset = off ∧
      (off.natAbs ≤ bound → u.alm.st = .locked ∧ u.alm.slew = s.alm.slew ∧ u.alm.step = s.alm.step ∧
        u.alm.freqPpb = Config.freqTrim s.body.data.free ∧ u.body = { s.body with data := { s.body.data with free := s.body.data.free + 1 } }) ∧
      (bound < off.natAbs → u.body = s.body ∧ u.alm.freqPpb = s.alm.freqPpb) ∧
      (bound < off.natAbs → -1000000 ≤ off → u.alm.st = .slewing ∧ u.alm.slew = 10 * off) ∧
      (off < -1000000 → u.alm.step = some (((-off) / 1000).toNat, off)) := by
  refine makes_heard hz hc hs hr ?_
  have hfollow : followCell (s.heard port (heardCell s port cell sub c old)) port sub =
      correct (s.adopted port (heardCell s port cell sub c old)) off := hoff ▸ followCell_locked (best_heard hc c) hst hp
  rw [hfollow]
  have hst' : (s.adopted port (heardCell s port cell sub c old)).alm.st = .locked := hst
  have hb : (s.adopted port (heardCell s port cell sub c old)).alm.bound = bound := by
    show (if port = 254 ∨ (port < 16 ∧ cell.hops + 1 ≤ 1) then 20 else 250) = bound
    rw [hbound]
    simp
  rcases Nat.lt_or_ge bound off.natAbs with h | h
  · rcases Int.lt_or_le off (-1000000) with h' | h'
    · rw [correct_step (hb.symm ▸ h) h']
      exact ⟨rfl, rfl, fun k => absurd h (Nat.not_lt.2 k), fun _ => ⟨rfl, rfl⟩, fun _ k => absurd h' (Int.not_lt.2 k), fun _ => rfl⟩
    · obtain ⟨since, from_, hcor⟩ := correct_slew (hb.symm ▸ h) h'
      rw [hcor]
      exact ⟨rfl, rfl, fun k => absurd h (Nat.not_lt.2 k), fun _ => ⟨rfl, rfl⟩, fun _ _ => ⟨rfl, Int.mul_comm _ _⟩, fun k => absurd k (Int.not_lt.2 h')⟩
  · rw [correct_locked_small (hb.symm ▸ h) hst']
    have hsmall : bound ≤ 250 := by
      rw [hbound]
      split
      · decide
      · decide
    exact ⟨rfl, rfl, fun _ => ⟨hst, rfl, rfl, rfl, rfl⟩, fun k => absurd k (Nat.not_lt.2 h), fun k => absurd k (Nat.not_lt.2 h), fun k => by omega⟩

end

/-! ### Without cells, and pulses -/

theorem almHoldoverTimeout_due {s : State} (hr : s.alm.isRoot = false) (hst : s.alm.st = .locked ∨ s.alm.st = .slewing)
    (hl : s.alm.listenFrom + 64 ≤ s.alm.beat) (ha : ∀ p ∈ s.alm.srcs, p.2.at_ + 64 ≤ s.alm.beat) : Makes .almHoldoverTimeout s fun u =>
      u.alm.st = .holdover ∧ u.alm.since = s.alm.beat ∧ u.alm.beat = s.alm.beat ∧ u.alm.holdBound = s.alm.errBound ∧
      (∀ p ∈ u.alm.srcs, p.2.run = 0) ∧ u.body.data = s.body.data.post 0x0101 0 [(s.alm.beat, 0)] := by
  refine makes_of_run (show _ = execAlmHoldoverTimeout s from rfl) ?_
  have hs : (s.alm.st == .locked || s.alm.st == .slewing) = true := by
    rcases hst with h | h
    · rw [h]; rfl
    · rw [h]; rfl
  dsimp only
  rw [if_pos (by simpa [hr, hs, hl] using ha)]
  refine ⟨rfl, rfl, rfl, rfl, fun p hp => ?_, rfl⟩
  obtain ⟨q, -, rfl⟩ := List.mem_map.1 (show p ∈ mmap s.alm.srcs fun _ (x : SyncSrc) => { x with run := 0 } from hp)
  rfl

theorem almHoldoverTimeout_heard {s : State} {p : Nat × SyncSrc} (hp : p ∈ s.alm.srcs) (h : s.alm.beat < p.2.at_ + 64) :
    Leaves .almHoldoverTimeout s s := by
  refine leaves_of_run (show _ = execAlmHoldoverTimeout s from rfl) ?_
  refine if_neg fun k => ?_
  have hall := List.all_eq_true.1 (Bool.and_eq_true_iff.1 k).2 p hp
  exact absurd (of_decide_eq_true hall) (Nat.not_le.2 h)

theorem ppsEdge_off {s : State} (sub : Nat) (h : s.alm.mode ≠ .pps ∨ s.alm.rootLost = true) : Leaves (.ppsEdge sub) s s := by
  refine leaves_of_run (show _ = execPpsEdge sub s from rfl) ?_
  refine if_pos ?_
  rcases h with h | h
  · simp [h]
  · simp [h]

theorem ppsEdge_first {s : State} {sub : Nat} (hm : s.alm.mode = .pps) (hl : s.alm.rootLost = false) (hp : s.alm.ppsSeen = false)
    (hst : s.alm.st = .free) : Makes (.ppsEdge sub) s fun u => u.alm.st = .locked ∧ u.alm.beat = s.alm.ppsNext ∧
      u.alm.ppsSeen = true ∧ u.alm.ppsPresent = true ∧ u.alm.ppsLast = s.alm.ppsNext ∧
      u.body = { s.body.rebase s.alm.beat s.alm.ppsNext with mg := u.body.mg } := by
  refine makes_of_run (show _ = execPpsEdge sub s from rfl) ?_
  dsimp only
  rw [if_neg (by simp [hm, hl]), if_pos (by simp [hp]), if_neg (by simp [Almanac.started, hst])]
  refine ⟨rfl, rfl, rfl, ?_, rfl, rfl⟩
  show decide (s.alm.ppsNext < s.alm.ppsNext + 1500000) = true
  simp

/-- The offset of a pulse. -/
def pulseOff (s : State) (sub : Nat) : Int := ((s.alm.beat * 1000 + sub : Nat) : Int) - (ppsNearest s.alm.ppsNext s.alm.beat * 1000 : Nat)

/-- What a later pulse does to a locked package. -/
theorem ppsEdge_runs {s : State} (sub : Nat) (hm : s.alm.mode = .pps) (hl : s.alm.rootLost = false) (hp : s.alm.ppsSeen = true)
    (hst : s.alm.st = .locked) : ∃ f, exec (.ppsEdge sub) s = s.run f ∧ f s =
      if 1000 < (pulseOff s sub - s.alm.offset).natAbs then
        if s.alm.outliers = 2 then s.setAlm { Almanac.holdoverNow { s.alm with ppsLast := s.alm.beat } with outliers := 3 }
        else s.setAlm { s.alm with ppsLast := s.alm.beat, outliers := s.alm.outliers + 1 }
      else correct (s.setAlm { s.alm with outliers := 0, ppsLast := s.alm.beat, ppsGood := some s.alm.beat }) (pulseOff s sub) := by
  refine ⟨_, (show _ = execPpsEdge sub s from rfl), ?_⟩
  have he : s.alm.expected = s.alm.offset := if_neg (by rw [hst]; decide)
  dsimp only
  rw [if_neg (by simp [hm, hl]), if_neg (by simp [hp]), he]
  exact if_congr (by simp [hst, pulseOff]) rfl rfl

theorem ppsEdge_later {s : State} {sub : Nat} (hm : s.alm.mode = .pps) (hl : s.alm.rootLost = false) (hp : s.alm.ppsSeen = true)
    (hst : s.alm.st = .locked) :
    (1000 < (pulseOff s sub - s.alm.offset).natAbs → s.alm.outliers < 2 → Leaves (.ppsEdge sub) s (s.setAlm { s.alm with
        ppsLast := s.alm.beat, outliers := s.alm.outliers + 1 })) ∧
      (1000 < (pulseOff s sub - s.alm.offset).natAbs → s.alm.outliers = 2 → Makes (.ppsEdge sub) s fun u => u.alm.st = .holdover ∧ u.body = s.body) ∧
      ((pulseOff s sub - s.alm.offset).natAbs ≤ 1000 → (pulseOff s sub).natAbs ≤ s.alm.bound → Leaves (.ppsEdge sub) s { s with
        alm := { s.alm with
          outliers := 0, ppsLast := s.alm.beat, ppsGood := some s.alm.beat, offset := pulseOff s sub, freqPpb := Config.freqTrim s.body.data.free }
        body := { s.body with data := { s.body.data with free := s.body.data.free + 1 } } }) := by
  obtain ⟨f, he, hf⟩ := ppsEdge_runs sub hm hl hp hst
  refine ⟨fun h ho => leaves_of_run he ?_, fun h ho => makes_of_run he ?_, fun h hb => leaves_of_run he ?_⟩
  · rw [hf, if_pos h, if_neg (Nat.ne_of_lt ho)]
  · rw [hf, if_pos h, if_pos ho]
    exact ⟨rfl, rfl⟩
  · rw [hf, if_neg (Nat.not_lt.2 h)]
    exact correct_locked_small (s := s.setAlm { s.alm with outliers := 0, ppsLast := s.alm.beat, ppsGood := some s.alm.beat }) hb hst

theorem ppsTimeout_due {s : State} (hm : s.alm.mode = .pps) (hl : s.alm.rootLost = false) (ht : s.alm.ppsLast + 1500000 ≤ s.alm.beat) :
    Makes .ppsTimeout s fun u => u.alm.ppsPresent = false ∧ u.body = s.body ∧ u.alm.beat = s.alm.beat ∧
      (s.alm.st = .locked ∨ s.alm.st = .slewing → u.alm.st = .holdover) ∧ (s.alm.st = .free → u.alm.st = .free) := by
  refine makes_of_run (show _ = execPpsTimeout s from rfl) ?_
  dsimp only
  rw [if_pos (by simp [hm, hl, ht])]
  refine ⟨rfl, rfl, ?_, fun h => ?_, fun h => ?_⟩
  · show (if _ then s.alm.holdoverNow else s.alm).beat = s.alm.beat
    split
    · rfl
    · rfl
  · show (if _ then s.alm.holdoverNow else s.alm).st = _
    rw [if_pos]
    · rfl
    · simpa using h
  · show (if _ then s.alm.holdoverNow else s.alm).st = _
    rw [if_neg (by simp [h]), h]

/-- Settles O40: a cell makes one candidate, and the branches of what follows it; pulses by what was seen before. -/
theorem synchronisation : Obligations.Synchronisation := by
  unfold Obligations.Synchronisation
  refine ⟨fun s port cell sub c hz hp => syncCellRx_discards hz hp, fun s port cell sub c hz hc => syncCellRx_closed hz hc,
    fun s port cell sub old hz hc hs => ?_, fun s hr hst hl ha => almHoldoverTimeout_due hr hst hl ha,
    fun s p hp h => almHoldoverTimeout_heard hp h, fun s sub h => ppsEdge_off sub h, fun s sub hm hl => ⟨fun hp hst => ppsEdge_first hm hl hp hst,
      fun hp => fun hst => ppsEdge_later hm hl hp hst⟩, fun s hm hl ht => ppsTimeout_due hm hl ht⟩
  intro ns off bound
  exact ⟨fun hr hl c => syncCellRx_root hz hc hs hr hl c, fun hr hn hl c => syncCellRx_yields hz hc hs hr hn hl c,
    fun hr hst => ⟨fun h3 ht => syncCellRx_locks hz hc hs hr hst h3 ht, syncCellRx_acquires hz hc hs hr hst⟩,
    fun hr hst hp c => syncCellRx_corrects hz hc hs hr hst hp rfl rfl⟩

end Sys2Proof.Machine
end

section
/-! The error record ring, its windows and bursts. -/

namespace Sys2Proof.Machine

/-! ### Writing records -/

/-- The last `n` of a list. -/
def lastN {α : Type} (n : Nat) (l : List α) : List α := l.drop (l.length - n)

theorem lastN_length {α : Type} (n : Nat) (l : List α) : (lastN n l).length ≤ n := by
  unfold lastN
  rw [List.length_drop]
  omega

theorem lastN_of_le {α : Type} {n : Nat} {l : List α} (h : l.length ≤ n) : lastN n l = l := by
  unfold lastN
  rw [Nat.sub_eq_zero_of_le h, List.drop_zero]

/-- An element with fewer than `n` behind it is one of the last `n`. -/
theorem lastN_append {α : Type} {n : Nat} (pre post : List α) (x : α) (h : post.length < n) :
    ∃ pre', lastN n (pre ++ x :: post) = pre' ++ x :: post := by
  refine ⟨pre.drop ((pre ++ x :: post).length - n), ?_⟩
  unfold lastN
  rw [List.drop_append_of_le_length]
  rw [List.length_append, List.length_cons]
  omega

theorem write_eq (l : Log) (now : Nat) (r : Rec) : l.write now r = { l with
    ring := lastN 4096 (l.ring ++ [{ r with seq := l.nextSeq }])
    nextSeq := l.nextSeq + 1
    windows := mput l.windows (srcKey r.code r.source) { last := now, n := 0, latest := none } } := rfl

theorem write_ring (l : Log) (now : Nat) (r : Rec) : (l.write now r).ring = lastN 4096 (l.ring ++ [{ r with seq := l.nextSeq }]) := by
  rw [write_eq]

theorem write_ring_length (l : Log) (now : Nat) (r : Rec) : (l.write now r).ring.length ≤ 4096 := by
  rw [write_ring]
  exact lastN_length _ _

/-- The ring ends with its newest record. -/
theorem write_ring_snoc (l : Log) (now : Nat) (r : Rec) : ∃ pre, (l.write now r).ring = pre ++ [{ r with seq := l.nextSeq }] := by
  rw [write_ring]
  exact lastN_append _ _ _ (by decide)

theorem write_ring_last (l : Log) (now : Nat) (r : Rec) : (l.write now r).ring.getLast? = some { r with seq := l.nextSeq } := by
  obtain ⟨pre, h⟩ := write_ring_snoc l now r
  rw [h, List.getLast?_append, List.getLast?_singleton, Option.some_or]

theorem write_nextSeq (l : Log) (now : Nat) (r : Rec) : (l.write now r).nextSeq = l.nextSeq + 1 := by
  rw [write_eq]

theorem write_burst (l : Log) (now : Nat) (r : Rec) : (l.write now r).burst = l.burst := by
  rw [write_eq]

/-- Writing records one after another. -/
def Log.writeAll (l : Log) (now : Nat) (rs : List Rec) : Log := rs.foldl (fun (l : Log) r => l.write now r) l

theorem writeAll_cons (l : Log) (now : Nat) (r : Rec) (rs : List Rec) : l.writeAll now (r :: rs) = (l.write now r).writeAll now rs := by
  rw [Log.writeAll, List.foldl_cons, Log.writeAll]

theorem writeAll_nextSeq (rs : List Rec) (l : Log) (now : Nat) : (l.writeAll now rs).nextSeq = l.nextSeq + rs.length := by
  induction rs generalizing l with
  | nil => rfl
  | cons r rs ih =>
    rw [writeAll_cons, ih, write_nextSeq, List.length_cons]
    omega

theorem writeAll_burst (rs : List Rec) (l : Log) (now : Nat) : (l.writeAll now rs).burst = l.burst := by
  induction rs generalizing l with
  | nil => rfl
  | cons r rs ih => rw [writeAll_cons, ih, write_burst]

/-- A record with `n` others behind it stays in the ring while fewer than 4,096 follow. -/
theorem writeAll_keeps (rs : List Rec) (l : Log) (now : Nat) {x : Rec} {pre post : List Rec} (h : l.ring = pre ++ x :: post)
    (hn : post.length + rs.length < 4096) : x ∈ (l.writeAll now rs).ring := by
  induction rs generalizing l pre post with
  | nil =>
    rw [Log.writeAll, List.foldl_nil, h]
    exact List.mem_append_right _ List.mem_cons_self
  | cons r rs ih =>
    rw [List.length_cons] at hn
    have hr : (post ++ [{ r with seq := l.nextSeq }]).length = post.length + 1 := by rw [List.length_append, List.length_singleton]
    obtain ⟨pre', hp⟩ := lastN_append (n := 4096) pre (post ++ [{ r with seq := l.nextSeq }]) x (by omega)
    rw [writeAll_cons]
    refine ih (l.write now r) (pre := pre') (post := post ++ [{ r with seq := l.nextSeq }]) ?_ (by omega)
    rw [write_ring, h, List.append_assoc, List.cons_append, hp]

theorem insertRec_length (r : Rec) (l : List Rec) : (insertRec r l).length = l.length + 1 := by
  induction l with
  | nil => rfl
  | cons q qs ih =>
    unfold insertRec
    split
    · rfl
    · rw [List.length_cons, ih, List.length_cons]

theorem insertRecs_length (rs l : List Rec) : (rs.foldl (fun a r => insertRec r a) l).length = l.length + rs.length := by
  induction rs generalizing l with
  | nil => rfl
  | cons r rs ih =>
    rw [List.foldl_cons, ih, insertRec_length, List.length_cons]
    omega

/-! ### Records that arrive -/

theorem not_full {l : Log} (hb : l.burst = none) (hu : l.uncopied < 4096) : ¬(l.burst.isSome = true ∨ 4096 ≤ l.uncopied) := by
  rintro (h | h)
  · rw [hb] at h
    cases h
  · exact absurd hu (Nat.not_lt.2 h)

theorem arrive_unwindowed {l : Log} {now : Nat} {r : Rec} (hb : l.burst = none) (hu : l.uncopied < 4096)
    (h : mget l.windows (srcKey r.code r.source) = none) : l.arrive now r = l.write now r := by
  unfold Log.arrive
  rw [if_neg (not_full hb hu), h]

theorem arrive_windowed {l : Log} {now : Nat} {r : Rec} {w : Window} (hb : l.burst = none) (hu : l.uncopied < 4096)
    (h : mget l.windows (srcKey r.code r.source) = some w) (hn : ¬(now < w.last + 1000 ∨ 0 < w.n)) : l.arrive now r = l.write now r := by
  unfold Log.arrive
  rw [if_neg (not_full hb hu), h]
  dsimp only
  rw [if_neg hn]

theorem window_over {w : Window} {now : Nat} (h : w.n = 0 ∧ w.last + 1000 ≤ now) : ¬(now < w.last + 1000 ∨ 0 < w.n) := by
  omega

theorem arrive_writes {l : Log} {now : Nat} {r : Rec} (hb : l.burst = none) (hu : l.uncopied < 4096)
    (hw : ∀ w, mget l.windows (srcKey r.code r.source) = some w → w.n = 0 ∧ w.last + 1000 ≤ now) : l.arrive now r = l.write now r := by
  cases h : mget l.windows (srcKey r.code r.source) with
  | none => exact arrive_unwindowed hb hu h
  | some w =>
    exact arrive_windowed hb hu h (window_over (hw w h))

theorem arrive_counts {l : Log} {now : Nat} {r : Rec} {w : Window} (hb : l.burst = none) (hu : l.uncopied < 4096)
    (hw : mget l.windows (srcKey r.code r.source) = some w) (h : now < w.last + 1000 ∨ 0 < w.n) : l.arrive now r =
      { l with windows := mput l.windows (srcKey r.code r.source) { w with n := w.n + 1, latest := some r } } := by
  unfold Log.arrive
  rw [if_neg (not_full hb hu), hw]
  exact if_pos h

/-! ### Windows, bursts and copies to flash -/

theorem Makes.mono {c : Instr} {s : State} {P Q : State → Prop} (h : Makes c s P) (hpq : ∀ u, P u → Q u) : Makes c s Q := by
  intro hs
  obtain ⟨u, he, hu⟩ := h hs
  exact ⟨u, he, hpq u hu⟩

theorem recordWindowExpiry_log {s : State} {code kind unit : Nat} {w : Window} {r : Rec}
    (hw : mget s.body.log.windows (srcKey code (kind + 256 * unit)) = some w) (hr : w.latest = some r) (ht : w.last + 1000 ≤ s.alm.beat)
    (hb : s.body.log.burst = none) (hu : s.body.log.uncopied < 4096) : Makes (.recordWindowExpiry code kind unit) s fun u =>
      u.body.log = s.body.log.write s.alm.beat { r with suppressed := w.n - 1 } ∧ u.body.data = s.body.data := by
  refine makes_of_run (show _ = execRecordWindowExpiry code kind unit s from rfl) ?_
  dsimp only
  rw [hw]
  dsimp only
  rw [hr]
  dsimp only
  rw [if_pos ⟨ht, by rw [hb]; rfl⟩]
  have h : ¬4096 ≤ s.body.log.uncopied := Nat.not_le.2 hu
  simp only [h, if_false, true_and]

theorem recordWindowExpiry_writes {s : State} {code kind unit : Nat} {w : Window} {r : Rec}
    (hw : mget s.body.log.windows (srcKey code (kind + 256 * unit)) = some w) (hr : w.latest = some r) (ht : w.last + 1000 ≤ s.alm.beat)
    (hb : s.body.log.burst = none) (hu : s.body.log.uncopied < 4096) : Makes (.recordWindowExpiry code kind unit) s fun u =>
      u.body.log.ring.getLast? = some { r with suppressed := w.n - 1, seq := s.body.log.nextSeq } ∧ u.body.log.nextSeq = s.body.log.nextSeq + 1 ∧
      u.body.data = s.body.data := by
  refine (recordWindowExpiry_log hw hr ht hb hu).mono fun u h => ?_
  rw [h.1]
  exact ⟨write_ring_last _ _ _, write_nextSeq _ _ _, h.2⟩

theorem recordWindowExpiry_not {s : State} {code kind unit : Nat}
    (h : (∀ w, mget s.body.log.windows (srcKey code (kind + 256 * unit)) = some w → w.latest = none ∨ s.alm.beat < w.last + 1000) ∨
      s.body.log.burst.isSome = true) : Leaves (.recordWindowExpiry code kind unit) s s := by
  refine leaves_of_run (show _ = execRecordWindowExpiry code kind unit s from rfl) ?_
  dsimp only
  cases hw : mget s.body.log.windows (srcKey code (kind + 256 * unit)) with
  | none => rfl
  | some w =>
    dsimp only
    cases hl : w.latest with
    | none => rfl
    | some r =>
      refine if_neg fun hc => ?_
      rcases h with h | h
      · rcases h w hw with h | h
        · rw [hl] at h
          cases h
        · omega
      · rw [Option.isNone_iff_eq_none.1 hc.2] at h
        cases h

/-- DROP_SUMMARY of a burst. -/
def burstSum (s : State) (b : Burst) : Rec := recOfPost s.alm.beat s.body.md.uv
  { code := 0x0707, unit := 0, fields := [(b.first, 8), (b.last, 8), (b.total, 4), (b.held.length, 2), (0, 2), (b.overflow, 4), (0, 4)], beat := none }

theorem recordBurstEnd_ends {s : State} {b : Burst} (hb : s.body.log.burst = some b) (hu : s.body.log.uncopied + 64 ≤ 4096) :
    Makes .recordBurstEnd s fun u => u.body.log.burst = none ∧
    let recs := b.held.flatMap fun h => heldRecs h.2
    u.body.log.nextSeq = s.body.log.nextSeq + 1 + recs.length ∧
    (recs.length < 4096 → ∃ x ∈ u.body.log.ring, x.code = 0x0707 ∧ x.seq = s.body.log.nextSeq ∧ x.beat = s.alm.beat) ∧ u.body.data = s.body.data := by
  refine makes_of_run (show _ = execRecordBurstEnd s from rfl) ?_
  dsimp only
  rw [hb]
  dsimp only
  rw [if_pos hu]
  have hlen := insertRecs_length (b.held.flatMap fun h => heldRecs h.2) []
  rw [List.length_nil, Nat.zero_add] at hlen
  refine ⟨writeAll_burst _ _ _, ?_, fun hn => ?_, rfl⟩
  · exact (writeAll_nextSeq _ _ _).trans (by rw [hlen, write_nextSeq])
  · obtain ⟨pre, hp⟩ := write_ring_snoc { s.body.log with burst := none } s.alm.beat (burstSum s b)
    exact ⟨_, writeAll_keeps _ _ _ hp (by rw [hlen]; simpa using hn), rfl, rfl, rfl⟩

theorem recordBurstEnd_none {s : State} (hb : s.body.log.burst = none) : Leaves .recordBurstEnd s s := by
  refine leaves_of_run (show _ = execRecordBurstEnd s from rfl) ?_
  dsimp only
  rw [hb]

theorem recordBurstEnd_full {s : State} (hu : 4096 < s.body.log.uncopied + 64) : Leaves .recordBurstEnd s s := by
  refine leaves_of_run (show _ = execRecordBurstEnd s from rfl) ?_
  dsimp only
  split
  · exact if_neg (Nat.not_le.2 hu)
  · rfl

theorem flashLogCopy_copies {s : State} (hg : s.gate = true) (ht : s.body.log.lastCopy + 100000 ≤ s.alm.beat) : Makes .flashLogCopy s fun u =>
    let f := s.body.log.flash ++ s.body.log.ring.filter fun r => decide (s.body.log.copied ≤ r.seq)
    u.body.log = { s.body.log with flash := f.drop (f.length - 262144), copied := s.body.log.nextSeq, lastCopy := s.alm.beat } ∧
      u.body.data = s.body.data := by
  refine makes_of_run (show _ = execFlashLogCopy s from rfl) ?_
  dsimp only
  rw [if_pos (by simp [hg, ht])]
  exact ⟨rfl, rfl⟩

theorem flashLogCopy_not {s : State} (h : s.gate = false ∨ s.alm.beat < s.body.log.lastCopy + 100000) : Leaves .flashLogCopy s s := by
  refine leaves_of_run (show _ = execFlashLogCopy s from rfl) ?_
  refine if_neg ?_
  rcases h with h | h
  · simp [h]
  · simp [Nat.not_le.2 h]

/-- Settles O53: what a written record does to the ring, then each command by its branches. -/
theorem recordRing : Obligations.RecordRing := by
  unfold Obligations.RecordRing
  refine ⟨fun l now r hb hu hw => ?_, fun l now r w hb hu hw h => ?_, fun s code kind unit w r hw hr ht hb hu => recordWindowExpiry_writes hw hr ht hb hu,
    fun s code kind unit h => recordWindowExpiry_not h, fun s b hb hu => recordBurstEnd_ends hb hu, fun s hb => recordBurstEnd_none hb,
    fun s hu => recordBurstEnd_full hu, fun s hg ht => flashLogCopy_copies hg ht, fun s h => flashLogCopy_not h⟩
  · rw [arrive_writes hb hu hw]
    refine ⟨write_nextSeq _ _ _, write_ring_last _ _ _, fun h => ?_, fun _ => write_ring_length _ _ _, by rw [write_eq]⟩
    rw [write_ring, lastN_of_le]
    rw [List.length_append, List.length_singleton]
    omega
  · rw [arrive_counts hb hu hw h]
    exact ⟨rfl, rfl, mget_mput_self _ _ _⟩

end Sys2Proof.Machine
end

section
/-! What engines and packets leave unchanged: of the data plane only what a later request may see, of the fabric only links and connections. -/

namespace Sys2Proof.Machine

/-! ### What engines and packets leave of the data plane -/

/-- What an engine's or a packet's work leaves of the data plane: all but memory, copies, fills, requests, counters, engines,
launches, records and free values. -/
def Data.fabricBut (d d' : Data) : Prop :=
  { d' with
    mem := d.mem, lost := d.lost, objs := d.objs, cellar := d.cellar, copies := d.copies, fills := d.fills, reqs := d.reqs, nextId := d.nextId
    dieBar := d.dieBar, pkgBar := d.pkgBar, engines := d.engines, launches := d.launches, posts := d.posts, abortPend := d.abortPend
    free := d.free } = d

theorem Data.fabricBut.trans {a b c : Data} (h : a.fabricBut b) (k : b.fabricBut c) : a.fabricBut c := by
  have := congrArg (fun d : Data => { d with
    mem := a.mem, lost := a.lost, objs := a.objs, cellar := a.cellar, copies := a.copies, fills := a.fills, reqs := a.reqs, nextId := a.nextId
    dieBar := a.dieBar, pkgBar := a.pkgBar, engines := a.engines, launches := a.launches, posts := a.posts, abortPend := a.abortPend
    free := a.free }) k
  exact this.trans h

theorem fabricBut_of_sameBut {d d' : Data} (h : d.sameBut d') : d.fabricBut d' := by
  have := congrArg (fun k : Data => { k with
    mem := d.mem, lost := d.lost, objs := d.objs, cellar := d.cellar, copies := d.copies, fills := d.fills, reqs := d.reqs, nextId := d.nextId
    dieBar := d.dieBar, pkgBar := d.pkgBar, engines := d.engines, launches := d.launches, posts := d.posts, abortPend := d.abortPend
    free := d.free }) h
  exact this

/-- The same, no record being taken away. -/
structure Data.Driven (d d' : Data) : Prop where
  rest : d.fabricBut d'
  posts : d.posts <+: d'.posts

namespace Data.Driven

theorem refl (d : Data) : d.Driven d := ⟨rfl, List.prefix_rfl⟩

theorem trans {a b c : Data} (h : a.Driven b) (k : b.Driven c) : a.Driven c := ⟨h.rest.trans k.rest, h.posts.trans k.posts⟩

theorem foldl {α β : Type} (g : α → Data) {f : α → β → α} (h : ∀ x y, (g x).Driven (g (f x y))) (l : List β) (x : α) :
    (g x).Driven (g (l.foldl f x)) := by
  induction l generalizing x with
  | nil => exact refl _
  | cons y l ih => exact (h x y).trans (ih _)

theorem of_sameBut {d d' : Data} (h : d.sameBut d') : d.Driven d' := by
  refine ⟨fabricBut_of_sameBut h, ?_⟩
  have hp : d'.posts = d.posts := by
    have := congrArg Data.posts h
    exact this
  rw [hp]

theorem structLost (d : Data) (ctx st a : Nat) : d.Driven (d.structLost ctx st a) := ⟨rfl, List.prefix_append _ _⟩

theorem sRead (d : Data) (ctx st a n : Nat) : d.Driven (d.sRead ctx st a n).1 := by
  unfold Data.sRead Data.sBytes
  split
  · exact refl _
  · exact structLost ..

theorem sWrite (d : Data) (ctx st a : Nat) (l : List Byte) : d.Driven (d.sWrite ctx st a l) := by
  unfold Data.sWrite
  split
  · next h => exact of_sameBut (devWrite_same h)
  · exact structLost ..

theorem sAdd (d : Data) (ctx st a v : Nat) : d.Driven (d.sAdd ctx st a v).1 := by
  unfold Data.sAdd
  split
  · next h => exact (congrArg Prod.fst h ▸ sRead d ctx st a 8).trans (sWrite ..)
  · next h => exact congrArg Prod.fst h ▸ sRead d ctx st a 8

theorem progress (d : Data) (ctx off : Nat) : d.Driven (d.progress ctx off) := by
  unfold Data.progress Data.progressN
  split
  · split
    · exact refl _
    · exact sAdd ..
  · exact refl _

theorem ringPh (d : Data) (h : Nat) : d.Driven (d.ringPh h) := by
  unfold Data.ringPh
  split
  · exact refl _
  · split
    · next p _ _ _ _ hr =>
      have h := sRead d p.ctx 4 (p.ring + 16) 4
      rw [hr] at h
      exact h.trans (sWrite ..)
    · next p _ _ _ hr =>
      have h := sRead d p.ctx 4 (p.ring + 16) 4
      rw [hr] at h
      exact h

theorem doorbellLost (d : Data) (h : Nat) : d.Driven (d.doorbellLost h) := by
  unfold Data.doorbellLost
  split
  · exact structLost ..
  · exact refl _

theorem freeLost (d : Data) (r : EngRun) : d.Driven (freeLost d r) := by
  unfold Machine.freeLost
  dsimp only
  split
  · exact doorbellLost ..
  · exact refl _

theorem counterAdd (d : Data) (pkg : Bool) (die k : Nat) (n : W32) : d.Driven (d.counterAdd pkg die k n) := by
  unfold Data.counterAdd
  split
  · exact ⟨rfl, List.prefix_rfl⟩
  · exact ⟨rfl, List.prefix_rfl⟩

theorem dropCopies (d : Data) (line : Nat) : d.Driven (d.dropCopies line) := ⟨rfl, List.prefix_rfl⟩

theorem engAnswer (d : Data) (id st : Nat) (l : List Byte) : d.Driven (d.engAnswer id st l) := ⟨rfl, List.prefix_rfl⟩

theorem absorb (d : Data) : d.Driven d.absorb := by
  unfold Data.absorb
  have h : d.Driven { d with reqs := d.reqs.filter fun r => !(r.ofEngine && r.over) } := ⟨rfl, List.prefix_rfl⟩
  refine h.trans (foldl id (fun d r => ?_) _ _)
  dsimp only [id]
  split
  · exact engAnswer ..
  · exact engAnswer ..
  · exact engAnswer ..

theorem setRun (d : Data) (n : Nat) (r : EngRun) : d.Driven (d.setRun n r) := ⟨rfl, List.prefix_rfl⟩

theorem dropRun (d : Data) (n id : Nat) : d.Driven (d.dropRun n id) := ⟨rfl, List.prefix_rfl⟩

theorem tellNode (d : Data) (e : EngDesc) (st : Nat) : d.Driven (tellNode d e st) := by
  unfold Machine.tellNode
  split
  · exact ⟨rfl, List.prefix_rfl⟩
  · exact refl _

theorem blur (d : Data) (e : EngDesc) (srcs : List (Place × Nat × Nat)) (own : Bool) (a : Nat) (l : List Byte) :
    d.Driven (blur d e srcs own a l).1 := by
  unfold Machine.blur
  dsimp only
  split
  · exact ⟨rfl, List.prefix_rfl⟩
  · exact refl _

theorem storeMarks (d : Data) (r : EngRun) : d.Driven (storeMarks d r) := by
  unfold Machine.storeMarks
  refine foldl id (fun d m => ?_) _ _
  exact ⟨rfl, List.prefix_rfl⟩

theorem endReq (d : Data) (id : Nat) (st : ReqStage) : d.Driven (d.endReq id st) := ⟨rfl, List.prefix_rfl⟩

theorem recordsOver (d : Data) : d.Driven d.recordsOver := by
  unfold Data.recordsOver
  dsimp only
  split
  · exact refl _
  · have h : d.Driven { d with reqs := d.reqs.filter fun r => !(r.ofDisp && writes r.op && r.over) } := ⟨rfl, List.prefix_rfl⟩
    refine h.trans (foldl id (fun d r => ?_) _ _)
    dsimp only [id]
    split
    · exact structLost ..
    · exact refl _

end Data.Driven

/-! ### What links and engines leave of the body -/

/-- What an item that leaves or waits changes of a link. -/
def LinkSt.sentBut (l l' : LinkSt) : Prop := { l' with txSeq := l.txSeq, txBuf := l.txBuf, credits := l.credits, waiting := l.waiting } = l

theorem LinkSt.sentBut.trans {a b c : LinkSt} (h : a.sentBut b) (k : b.sentBut c) : a.sentBut c := by
  have := congrArg (fun l : LinkSt => { l with txSeq := a.txSeq, txBuf := a.txBuf, credits := a.credits, waiting := a.waiting }) k
  exact this.trans h

/-- What an engine's or a packet's work leaves of the body: the management plane, power, flash, log, module; the host's side but for
what goes out; of the fabric all but the connections and what waits on links; of health all is open. -/
structure Body.Driven (b b' : Body) : Prop where
  rest : { b' with data := b.data, host := b.host, fab := b.fab, hl := b.hl } = b
  data : b.data.Driven b'.data
  host : { b'.host with out := b.host.out } = b.host
  out : b.host.out <+: b'.host.out
  fab : { b'.fab with links := b.fab.links, conns := b.fab.conns } = b.fab
  links : ∀ k, (b.fab.link k).sentBut (b'.fab.link k)

namespace Body.Driven

theorem refl (b : Body) : b.Driven b := ⟨rfl, .refl _, rfl, List.prefix_rfl, rfl, fun _ => rfl⟩

theorem trans {a b c : Body} (h : a.Driven b) (k : b.Driven c) : a.Driven c := by
  refine ⟨?_, h.data.trans k.data, ?_, h.out.trans k.out, ?_, fun n => (h.links n).trans (k.links n)⟩
  · have := congrArg (fun x : Body => { x with data := a.data, host := a.host, fab := a.fab, hl := a.hl }) k.rest
    exact this.trans h.rest
  · have := congrArg (fun x : HostSt => { x with out := a.host.out }) k.host
    exact this.trans h.host
  · have := congrArg (fun x : Fabric => { x with links := a.fab.links, conns := a.fab.conns }) k.fab
    exact this.trans h.fab

theorem of_data {b : Body} {d : Data} (h : b.data.Driven d) : b.Driven { b with data := d } :=
  ⟨rfl, h, rfl, List.prefix_rfl, rfl, fun _ => rfl⟩

theorem foldl {α β : Type} (g : α → Body) {f : α → β → α} (h : ∀ x y, (g x).Driven (g (f x y))) (l : List β) (x : α) :
    (g x).Driven (g (l.foldl f x)) := by
  induction l generalizing x with
  | nil => exact refl _
  | cons y l ih => exact (h x y).trans (ih _)

theorem post (b : Body) (code unit : Nat) (fs : List (Nat × Nat)) : b.Driven (b.post code unit fs) :=
  of_data ⟨rfl, List.prefix_append _ _⟩

theorem emit (b : Body) (o : Output) : b.Driven (b.emit o) := ⟨rfl, .refl _, rfl, List.prefix_append _ _, rfl, fun _ => rfl⟩

theorem setConn (b : Body) (k : Nat) (c : Conn) : b.Driven { b with fab := b.fab.setConn k c } :=
  ⟨rfl, .refl _, rfl, List.prefix_rfl, rfl, fun _ => rfl⟩


end Body.Driven

theorem link_setLink_self (b : Body) (k : Nat) (l : LinkSt) : (b.setLink k l).fab.link k = l := by
  show mgetD (mput b.fab.links k l) k LinkSt.reset = l
  rw [mgetD, mget_mput_self, Option.getD_some]

theorem link_setLink_ne (b : Body) {k j : Nat} (h : j ≠ k) (l : LinkSt) : (b.setLink k l).fab.link j = b.fab.link j := by
  show mgetD (mput b.fab.links k l) j LinkSt.reset = mgetD b.fab.links j LinkSt.reset
  rw [mgetD, mget_mput_ne, mgetD]
  exact h.symm

namespace Body.Driven

theorem setLink {b : Body} {k : Nat} {l : LinkSt} (h : (b.fab.link k).sentBut l) : b.Driven (b.setLink k l) := by
  refine ⟨rfl, .refl _, rfl, List.prefix_rfl, rfl, fun j => ?_⟩
  by_cases hj : j = k
  · rw [hj, link_setLink_self]
    exact h
  · rw [link_setLink_ne b hj]
    rfl

theorem linkPut (b : Body) (k : Nat) (i : LinkItem) : b.Driven (b.linkPut k i) := by
  unfold Body.linkPut
  refine trans ?_ (emit _ _)
  exact setLink rfl

theorem linkPacket (b : Body) (k : Nat) (p : Packet) : b.Driven (b.linkPacket k p) := by
  unfold Body.linkPacket
  dsimp only
  split
  · refine trans ?_ (linkPut ..)
    exact setLink rfl
  · exact setLink rfl

theorem emitOn (b : Body) (q : Option Nat) (p : Packet) : b.Driven (b.emitOn q p) := by
  unfold Body.emitOn
  split
  · split
    · exact linkPacket ..
    · exact refl _
  · exact refl _

theorem inject (b : Body) (beat k : Nat) (p : Packet) : b.Driven (b.inject beat k p) := by
  unfold Body.inject
  refine trans ?_ (emitOn ..)
  exact setConn ..

theorem send (b : Body) (beat : Nat) (p : Packet) : b.Driven (b.send beat p) := by
  unfold Body.send
  dsimp only
  split
  · exact setConn ..
  · exact inject ..

theorem unhold (b : Body) (beat k : Nat) : b.Driven (b.unhold beat k) := by
  unfold Body.unhold
  dsimp only
  split
  · refine trans ?_ (foldl id (fun b p => inject b beat k p) _ _)
    exact setConn ..
  · exact refl _

theorem leavePort (b : Body) (beat port k : Nat) : b.Driven (b.leavePort beat port k) := by
  unfold Body.leavePort
  dsimp only
  refine trans ?_ (foldl id (fun b (s : SentPkt) => emitOn b _ s.pkt) _ _)
  exact setConn ..

theorem failover (b : Body) (beat port : Nat) : b.Driven (b.failover beat port) := by
  unfold Body.failover
  dsimp only
  have h : b.Driven (b.setLink port { b.fab.link port with waiting := [] }) := setLink rfl
  split
  · refine trans h ?_
    exact foldl id (fun b k => leavePort b beat port k) _ _
  · refine trans ?_ (post ..)
    refine trans h ?_
    exact foldl id (fun b k => leavePort b beat port k) _ _

theorem comeBack (b : Body) (beat port : Nat) : b.Driven (b.comeBack beat port) := by
  unfold Body.comeBack
  dsimp only
  refine foldl id (fun b k => ?_) _ _
  refine trans ?_ (unhold ..)
  exact setConn ..

theorem sendTack (b : Body) (p : Packet) : b.Driven (b.sendTack p) := by
  unfold Body.sendTack
  exact emitOn ..

/-! #### Requests of engines -/

theorem askLine (b : Body) (n : Nat) (run : EngRun) (key a : Nat) (p : Place) (op : LineOp) : b.Driven (askLine b n run key a p op).1 :=
  of_data ⟨rfl, List.prefix_rfl⟩

theorem sendFor (b : Body) (beat : Nat) (run : EngRun) (key : Nat) (p : Packet) : b.Driven (sendFor b beat run key p).1 := by
  have h : b.Driven { b with data := { b.data with nextId := b.data.nextId + 1 } } := of_data ⟨rfl, List.prefix_rfl⟩
  exact h.trans (send ..)

theorem askUnit (beat n : Nat) (r : Body × EngRun) (x : Nat × Nat × Bool) : r.1.Driven (askUnit beat n r x).1 := by
  unfold Machine.askUnit
  dsimp only
  split
  · exact refl _
  · split
    · exact askLine ..
    · split
      · exact refl _
      · exact sendFor ..
  · exact askLine ..

theorem askAll (b : Body) (beat n : Nat) (run : EngRun) (l : List (Nat × Nat × Bool)) : b.Driven (askAll b beat n run l).1 :=
  foldl (fun r : Body × EngRun => r.1) (fun r x => askUnit beat n r x) _ (b, run)

theorem countPostmark (b : Body) (beat : Nat) (e : EngineId) (chan : Nat) : b.Driven (countPostmark b beat e chan) :=
  ⟨rfl, .refl _, rfl, List.prefix_rfl, rfl, fun _ => rfl⟩

theorem postMismatch (b : Body) (beat n plot ctx a : Nat) (k : Mark) (r : W32 × W32) (desc : Nat) :
    b.Driven (postMismatch b beat n plot ctx a k r desc) := by
  unfold Machine.postMismatch
  refine trans ?_ (countPostmark ..)
  exact post ..

theorem readMarks (b : Body) (beat n : Nat) (run : EngRun) (a : Nat) (l : List Byte) : b.Driven (readMarks b beat n run a l).1 := by
  unfold Machine.readMarks
  refine foldl (fun r : Body × EngRun => r.1) (fun r x => ?_) _ (b, run)
  dsimp only
  split
  · exact refl _
  · exact postMismatch ..
  · exact refl _

theorem writeRange (b : Body) (beat n : Nat) (run : EngRun) (i : Nat) (own : Bool) (a : Nat) (src : Option Nat) (l : List Byte) :
    b.Driven (writeRange b beat n run i own a src l).1 := by
  unfold Machine.writeRange
  dsimp only
  split
  · refine trans ?_ (sendFor ..)
    exact of_data (Data.Driven.foldl id (fun d (x : Nat × Nat) => Data.Driven.dropCopies d _) _ _)
  · refine foldl (fun r : Body × EngRun => r.1) (fun r x => ?_) _ (b, run)
    split
    · exact askLine ..
    · exact refl _

end Body.Driven

namespace Body.Driven

/-! #### Rows and copies -/

theorem writeRange_of_data {b : Body} {d : Data} (h : b.data.Driven d) (beat n : Nat) (run : EngRun) (i : Nat) (own : Bool) (a : Nat)
    (src : Option Nat) (l : List Byte) : b.Driven (Machine.writeRange { b with data := d } beat n run i own a src l).1 :=
  (of_data h).trans (writeRange ..)

theorem runRow (b : Body) (beat n : Nat) (srcs : List (Place × Nat × Nat)) (run : EngRun) (i : Nat) (r : Row) :
    b.Driven (runRow b beat n srcs run i r).1 := by
  have hfree (d : Data) : d.Driven { d with free := d.free + 1 } := ⟨rfl, List.prefix_rfl⟩
  unfold Machine.runRow
  dsimp only
  split
  · exact refl _
  · split
    · exact refl _
    · split
      · split
        · exact (readMarks ..).trans (writeRange_of_data (Data.Driven.blur ..) ..)
        · exact (readMarks ..).trans (writeRange_of_data ((hfree _).trans (Data.Driven.blur ..)) ..)
      · split
        · exact writeRange_of_data (Data.Driven.blur ..) ..
        · exact writeRange_of_data ((hfree _).trans (Data.Driven.blur ..)) ..

theorem runRows (b : Body) (beat n : Nat) (srcs : List (Place × Nat × Nat)) (run : EngRun) (rs : List (Row × Nat)) :
    b.Driven (runRows b beat n srcs run rs).1 := by
  induction rs generalizing b run with
  | nil => exact refl _
  | cons x rs ih =>
    obtain ⟨r, i⟩ := x
    unfold Machine.runRows
    dsimp only
    split
    · exact (runRow ..).trans (ih _ _)
    · exact runRow ..

theorem copyGo (b : Body) (beat n : Nat) (run : EngRun) : b.Driven (copyGo b beat n run).1 := by
  unfold Machine.copyGo
  dsimp only
  split
  · exact (askAll ..).trans (runRows ..)
  · exact askAll ..

theorem setRun (b : Body) (n : Nat) (r : EngRun) : b.Driven { b with data := b.data.setRun n r } := of_data (Data.Driven.setRun ..)

theorem pumpCopies (b : Body) (beat : Nat) : b.Driven (pumpCopies b beat) := by
  unfold Machine.pumpCopies
  split
  · exact refl _
  · refine foldl id (fun b e => ?_) _ _
    refine foldl id (fun b r => ?_) _ _
    dsimp only [id]
    split
    · exact (copyGo ..).trans (setRun ..)
    · exact refl _

/-! #### Collectives -/

theorem sendColl (b : Body) (beat n : Nat) (run : EngRun) (k : Coll) (rank kind num key : Nat) (l : List Byte) :
    b.Driven (sendColl b beat n run k rank kind num key l).1 := by
  unfold Machine.sendColl
  dsimp only
  split
  · exact refl _
  · exact foldl (fun r : Body × EngRun => r.1) (fun r p => sendFor ..) _ (b, run)

theorem putUnits (b : Body) (beat n : Nat) (run : EngRun) (u : Nat) (own : Bool) (a o : Nat) (l : List Byte) :
    b.Driven (putUnits b beat n run u own a o l).1 := by
  unfold Machine.putUnits
  refine foldl (fun r : Body × EngRun => r.1) (fun r x => ?_) _ (b, run)
  dsimp only
  split
  · exact refl _
  · split
    · exact refl _
    · exact writeRange ..

theorem eachWell {α : Type} {f : Body → EngRun → α → Body × EngRun} (h : ∀ (b : Body) run x, b.Driven (f b run x).1) (l : List α) (b : Body)
    (run : EngRun) : b.Driven (eachWell l f b run).1 := by
  unfold Machine.eachWell
  refine foldl (fun r : Body × EngRun => r.1) (fun r x => ?_) _ (b, run)
  split
  · exact h ..
  · exact refl _

theorem reduceGo (b : Body) (beat n : Nat) (run : EngRun) (k : Coll) : b.Driven (reduceGo b beat n run k).1 := by
  unfold Machine.reduceGo
  dsimp only
  split
  · refine eachWell (fun b run r => ?_) _ _ _
    split
    · exact refl _
    · exact sendColl ..
  · refine eachWell (fun b run c => ?_) _ _ _
    split
    · exact refl _
    · split
      · exact sendColl ..
      · split
        · exact sendColl ..
        · exact refl _

theorem ownResult (b : Body) (n : Nat) (run : EngRun) (k : Coll) : b.Driven (ownResult b n run k).1 := by
  unfold Machine.ownResult
  dsimp only
  split
  · exact refl _
  · split
    · exact refl _
    · split
      · exact refl _
      · split
        · split
          · exact of_data ⟨rfl, List.prefix_rfl⟩
          · exact refl _
        · split
          · exact refl _
          · exact refl _

theorem putResult (b : Body) (beat n : Nat) (run : EngRun) (k : Coll) (o : Nat) (l : List Byte) :
    b.Driven (putResult b beat n run k o l).1 := by
  unfold Machine.putResult
  exact putUnits ..

theorem resultsGo (b : Body) (beat n : Nat) (run : EngRun) (k : Coll) : b.Driven (resultsGo b beat n run k).1 := by
  unfold Machine.resultsGo
  refine eachWell (fun b run c => ?_) _ _ _
  have hs (l : List Byte) (rs : List Nat) (b : Body) (run : EngRun) : b.Driven (Machine.eachWell rs (fun b run r =>
      if run.ready r ∧ !run.has 41 (4096 * c.1 + r) then
        Machine.sendColl b beat n (run.mark 41 (4096 * c.1 + r)) k r 3 c.1 (collKey 41 (4096 * c.1 + r)) l
      else (b, run)) b run).1 := by
    refine eachWell (fun b run r => ?_) _ _ _
    split
    · exact sendColl ..
    · exact refl _
  dsimp only
  split
  · exact refl _
  · split
    · split
      · exact refl _
      · exact hs ..
    · split
      · exact putResult ..
      · exact (putResult ..).trans (hs ..)

theorem ringSend (b : Body) (beat n : Nat) (k : Coll) (run : EngRun) (s : Nat) : b.Driven (ringSend b beat n k run s).1 := by
  unfold Machine.ringSend
  dsimp only
  split
  · split
    · exact (readMarks ..).trans (sendColl ..)
    · exact readMarks ..
  · exact askAll ..

end Body.Driven

/-! #### A step of a RING_PASS, in its parts -/

/-- A FREE_PH that cannot be read is told. -/
def ringFree (k : Coll) (b : Body) (run : EngRun) (s : Nat) : Body :=
  if run.ready ((k.me + k.n - 1) % k.n) ∧ !run.has 50 s then { b with data := freeLost b.data run } else b

/-- The credit to the rank before. -/
def ringCredit (beat n : Nat) (k : Coll) (b : Body) (run : EngRun) (s : Nat) : Body × EngRun :=
  if run.ready ((k.me + k.n - 1) % k.n) ∧ !run.has 50 s ∧ s - 1 ≤ freed b.data run ∧
      (s < 2 || (run.has 51 (s - 1) && !run.outs.any fun o => o.2 == collKey 51 (s - 1))) then
    sendColl b beat n (run.mark 50 s) k ((k.me + k.n - 1) % k.n) 7 s (collKey 50 s) [] else (b, run)

/-- The own block to the next rank. -/
def ringOwn (beat n : Nat) (k : Coll) (b : Body) (run : EngRun) (s : Nat) : Body × EngRun :=
  if run.status = 0 ∧ run.has 7 s ∧ !run.has 51 s ∧ (s = 1 || run.has 52 (s - 1)) then ringSend b beat n k run s else (b, run)

/-- The block that has come. -/
def ringTake (beat n : Nat) (e : EngDesc) (b : Body) (run : EngRun) (s : Nat) : Body × EngRun :=
  if run.status = 0 ∧ run.has 50 s ∧ !run.has 52 s then
    match run.bytesOf 8 s (e.f 24 4) with
    | some x =>
      let r := putUnits b beat n ((run.mark 52 s).forget (bufOf e s) (e.f 24 4)) ((s - 1) * blockUnits e) (ownNamed b.data (bufOf e s)) (bufOf e s) 0 x
      (r.1, if r.2.status = 0 then { r.2 with done := r.2.done + blockUnits e } else r.2)
    | none => (b, run)
  else (b, run)

/-- Its ring. -/
def ringBell (e : EngDesc) (b : Body) (run : EngRun) (s : Nat) : Body × EngRun :=
  if run.status = 0 ∧ blockIn run s ∧ !run.has 53 s ∧ s + 1 < e.f 30 2 then ({ b with data := b.data.ringPh (e.f 4 2) }, run.mark 53 s)
  else (b, run)

theorem ringStep_eq (beat n : Nat) (k : Coll) (b : Body) (run : EngRun) (s : Nat) : ringStep beat n k b run s =
    (let r₁ := ringCredit beat n k (ringFree k b run s) run s
    let r₂ := ringOwn beat n k r₁.1 r₁.2 s
    let r₃ := ringTake beat n run.desc r₂.1 r₂.2 s
    ringBell run.desc r₃.1 r₃.2 s) := rfl

/-! #### Completions -/

/-- What COMP_KIND names is signalled. -/
def completed (beat n : Nat) (e : EngDesc) (b : Body) : Body :=
  match e.f 3 1 with
  | 1 => { b with data := b.data.ringPh (e.f 4 2) }
  | 2 => { b with data := b.data.counterAdd false (n / 16) (e.f 4 2) (BitVec.ofNat 32 (e.f 6 2)) }
  | 3 => { b with data := b.data.counterAdd true 0 (e.f 4 2) (BitVec.ofNat 32 (e.f 6 2)) }
  | 4 =>
    let node := e.f 16 8 / 2 ^ 40 % 4096
    if node = b.data.node then { b with data := b.data.ringPh (e.f 4 2) }
    else if (b.sendFault e.plot node false).isSome then b
    else b.send beat { mkPkt 11 node (b.data.tagOf e.plot) (e.f 4 2) (engAgent n) 0 [] with flag := true }
  | _ => b

/-- The last ring of a RING_PASS. -/
def lastRing (n : Nat) (run : EngRun) (b : Body) : Body :=
  if engClass n = 2 ∧ run.desc.f 0 1 = 8 ∧ run.desc.f 3 1 ≠ 1 ∧ run.status = 0 then { b with data := b.data.ringPh (run.desc.f 4 2) } else b

theorem signal_eq (b : Body) (beat n : Nat) (run : EngRun) : signal b beat n run =
    if !(if engClass n = 2 then relayComp run.desc else compOk run.desc) || !compGranted b.data n run.desc then b
    else completed beat n run.desc (lastRing n run b) := rfl

namespace Body.Driven

theorem ringFree (k : Coll) (b : Body) (run : EngRun) (s : Nat) : b.Driven (ringFree k b run s) := by
  unfold Machine.ringFree
  split
  · exact of_data (Data.Driven.freeLost ..)
  · exact refl _

theorem ringCredit (beat n : Nat) (k : Coll) (b : Body) (run : EngRun) (s : Nat) : b.Driven (ringCredit beat n k b run s).1 := by
  unfold Machine.ringCredit
  split
  · exact sendColl ..
  · exact refl _

theorem ringOwn (beat n : Nat) (k : Coll) (b : Body) (run : EngRun) (s : Nat) : b.Driven (ringOwn beat n k b run s).1 := by
  unfold Machine.ringOwn
  split
  · exact ringSend ..
  · exact refl _

theorem ringTake (beat n : Nat) (e : EngDesc) (b : Body) (run : EngRun) (s : Nat) : b.Driven (ringTake beat n e b run s).1 := by
  unfold Machine.ringTake
  split
  · split
    · exact putUnits ..
    · exact refl _
  · exact refl _

theorem ringBell (e : EngDesc) (b : Body) (run : EngRun) (s : Nat) : b.Driven (ringBell e b run s).1 := by
  unfold Machine.ringBell
  split
  · exact of_data (Data.Driven.ringPh ..)
  · exact refl _

theorem ringStep (beat n : Nat) (k : Coll) (b : Body) (run : EngRun) (s : Nat) : b.Driven (ringStep beat n k b run s).1 := by
  have h₁ := (ringFree k b run s).trans (ringCredit beat n k _ run s)
  have h₂ := h₁.trans (ringOwn beat n k _ (Machine.ringCredit beat n k (Machine.ringFree k b run s) run s).2 s)
  rw [ringStep_eq]
  exact h₂.trans ((ringTake ..).trans (ringBell ..))

theorem collGo (b : Body) (beat n : Nat) (run : EngRun) (k : Coll) : b.Driven (collGo b beat n run k).1 := by
  unfold Machine.collGo
  dsimp only
  split
  · exact refl _
  · split
    · exact eachWell (fun b run s => ringStep ..) _ _ _
    · split
      · split
        · exact (reduceGo ..).trans ((ownResult ..).trans (resultsGo ..))
        · exact (reduceGo ..).trans (resultsGo ..)
      · split
        · exact (ownResult ..).trans (resultsGo ..)
        · exact resultsGo ..

theorem collStart (b : Body) (beat n : Nat) (run : EngRun) (k : Coll) : b.Driven (collStart b beat n run k).1 := by
  unfold Machine.collStart
  dsimp only
  split
  · exact readMarks ..
  · split
    · refine trans ?_ (collGo ..)
      refine trans ?_ (eachWell (fun b run r => sendColl ..) _ _ _)
      refine trans ?_ (of_data (Data.Driven.freeLost ..))
      exact readMarks ..
    · refine trans ?_ (collGo ..)
      refine trans ?_ (eachWell (fun b run r => sendColl ..) _ _ _)
      exact readMarks ..

theorem collPump (b : Body) (beat n : Nat) (run : EngRun) : b.Driven (collPump b beat n run).1 := by
  unfold Machine.collPump
  dsimp only
  split
  · exact askAll ..
  · split
    · exact refl _
    · exact refl _
    · split
      · exact collGo ..
      · split
        · exact collStart ..
        · exact askAll ..

theorem pumpColls (b : Body) (beat : Nat) : b.Driven (pumpColls b beat) := by
  unfold Machine.pumpColls
  split
  · exact refl _
  · refine foldl id (fun b e => ?_) _ _
    refine foldl id (fun b r => ?_) _ _
    dsimp only [id]
    split
    · exact (collPump ..).trans (setRun ..)
    · exact refl _

theorem pump (b : Body) (beat : Nat) : b.Driven (pump b beat) := by
  unfold Machine.pump
  refine trans ?_ (pumpColls ..)
  refine trans ?_ (pumpCopies ..)
  exact of_data (Data.Driven.absorb _)

/-! #### Runs that end -/

theorem putStatus (b : Body) (beat n : Nat) (run : EngRun) : b.Driven (putStatus b beat n run).1 := by
  unfold Machine.putStatus
  dsimp only
  split
  · exact refl _
  · exact writeRange ..

theorem completed (beat n : Nat) (e : EngDesc) (b : Body) : b.Driven (completed beat n e b) := by
  unfold Machine.completed
  dsimp only
  split
  · exact of_data (Data.Driven.ringPh ..)
  · exact of_data (Data.Driven.counterAdd ..)
  · exact of_data (Data.Driven.counterAdd ..)
  · split
    · exact of_data (Data.Driven.ringPh ..)
    · split
      · exact refl _
      · exact send ..
  · exact refl _

theorem lastRing (n : Nat) (run : EngRun) (b : Body) : b.Driven (lastRing n run b) := by
  unfold Machine.lastRing
  split
  · exact of_data (Data.Driven.ringPh ..)
  · exact refl _

theorem signal (b : Body) (beat n : Nat) (run : EngRun) : b.Driven (signal b beat n run) := by
  rw [signal_eq]
  generalize (!(if engClass n = 2 then relayComp run.desc else compOk run.desc) || !compGranted b.data n run.desc) = c
  cases c with
  | true => exact refl _
  | false => exact (lastRing n run b).trans (completed ..)

theorem closeRun (b : Body) (beat n : Nat) (run : EngRun) : b.Driven (closeRun b beat n run) := by
  unfold Machine.closeRun
  dsimp only
  refine trans ?_ (of_data ((Data.Driven.progress ..).trans (Data.Driven.tellNode ..)))
  refine trans ?_ (signal ..)
  exact of_data (Data.Driven.dropRun ..)

theorem killRun (b : Body) (beat n : Nat) (run : EngRun) (st : Nat) : b.Driven (killRun b beat n run st) := by
  unfold Machine.killRun
  exact (putStatus ..).trans (closeRun ..)

theorem endRun (b : Body) (beat n : Nat) (run : EngRun) : b.Driven (endRun b beat n run) := by
  unfold Machine.endRun
  dsimp only
  split
  · exact closeRun ..
  · split
    · exact (of_data (Data.Driven.storeMarks ..)).trans ((putStatus ..).trans (closeRun ..))
    · exact (of_data (Data.Driven.storeMarks ..)).trans ((putStatus ..).trans (setRun ..))

theorem killEngine (b : Body) (beat n st : Nat) : b.Driven (killEngine b beat n st) := by
  unfold Machine.killEngine
  dsimp only
  refine trans ?_ (of_data ⟨rfl, List.prefix_rfl⟩)
  refine trans ?_ (foldl id (fun b q => killRun ..) _ _)
  exact foldl id (fun b r => killRun ..) _ _

end Body.Driven

end Sys2Proof.Machine
end

section
/-! Host ports, links, supplies and the debug port. -/

namespace Sys2Proof.Machine

/-! ### Host ports and links that go down -/

/-- The host's side without the reads that `mine` picks. -/
def HostSt.without (h : HostSt) (mine : HostReq → Bool) : HostSt := { h with reqs := h.reqs.filter fun r => !mine r }

/-- A port after its link has gone: its pin and its count of link events stay. -/
def HostPortSt.down (x : HostPortSt) : HostPortSt :=
  { HostPortSt.reset with perst := x.perst, linkEvents := if x.up then x.linkEvents + 1 else x.linkEvents }

/-- The host's side once the port and its functions are reset; what they asked for is void. -/
def HostSt.portReset (h : HostSt) (p : HostPort) : HostSt :=
  { h.setPort p (h.port p).down with fns := mmap (h.setPort p (h.port p).down).fns fun k r => if onPortFn p k then r.again else r }.dropOps
    fun f => fnPort f == p

/-- The host's side after the link of a port has gone. -/
def HostSt.portGone (h : HostSt) (p : HostPort) : HostSt := (h.portReset p).without fun r => r.hb == (p == HostPort.hb)

theorem hostLost_driven (b : Body) (beat : Nat) (mine : HostReq → Bool) :
    ({ b with host := b.host.without mine } : Body).Driven (hostLost b beat mine) := by
  have hd : b.data.Driven ((b.host.reqs.filter mine).foldl (fun (d : Data) r => d.endReq (r.id % 2 ^ 32) (.failed .fabricLost)) b.data) :=
    Data.Driven.foldl id (fun d r => Data.Driven.endReq ..) _ _
  exact (Body.Driven.of_data (b := { b with host := b.host.without mine }) (hd.trans (Data.Driven.recordsOver _))).trans (Body.Driven.pump ..)

/-- The body once a port has gone, before the record of it. -/
def Body.portGone (b : Body) (beat : Nat) (p : HostPort) : Body :=
  hostLost { b with host := b.host.portReset p } beat fun r => r.hb == (p == .hb)

theorem portDown_eq (s : State) (p : HostPort) (cause : Nat) : portDown s p cause =
    if (s.body.host.port p).up then
      s.setBody ((s.body.portGone s.alm.beat p).post 0x0401 (7 + 256 * (portNo p + 1)) [(portNo p, 1), (cause, 1), (0, 6), (s.alm.beat, 8)])
    else s.setBody (s.body.portGone s.alm.beat p) := rfl

theorem portGone_driven (b : Body) (beat : Nat) (p : HostPort) : ({ b with host := b.host.portGone p } : Body).Driven (b.portGone beat p) :=
  hostLost_driven { b with host := b.host.portReset p } ..

theorem portDown_state (s : State) (p : HostPort) (cause : Nat) : portDown s p cause = s.setBody (portDown s p cause).body := by
  rw [portDown_eq]
  split
  · rfl
  · rfl

theorem portDown_driven (s : State) (p : HostPort) (cause : Nat) :
    ({ s.body with host := s.body.host.portGone p } : Body).Driven (portDown s p cause).body := by
  rw [portDown_eq]
  split
  · exact (portGone_driven ..).trans (Body.Driven.post ..)
  · exact portGone_driven ..

theorem portDown_post (s : State) (p : HostPort) (cause : Nat) (h : (s.body.host.port p).up = true) :
    ⟨0x0401, 7 + 256 * (portNo p + 1), [(portNo p, 1), (cause, 1), (0, 6), (s.alm.beat, 8)], none⟩ ∈ (portDown s p cause).body.data.posts := by
  rw [portDown_eq, if_pos h]
  exact List.mem_append_right _ (List.mem_singleton_self _)

/-- A link after its loss. -/
def LinkSt.down (l : LinkSt) : LinkSt :=
  { l with verdict := .noPeer, trained := false, lanes := 0, training := none, events := l.events + 1, txBuf := [], waiting := [], surveyDue := false }

theorem linkDown_eq (s : State) (k reason : Nat) : linkDown s k reason = s.setBody (linkDown s k reason).body := by
  unfold linkDown
  dsimp only
  split
  · rfl
  · rfl

theorem linkDown_driven (s : State) (k reason : Nat) : (s.body.setLink k (s.body.fab.link k).down).Driven (linkDown s k reason).body := by
  unfold linkDown
  dsimp only
  split
  · exact Body.Driven.trans (Body.Driven.post (s.body.setLink k (s.body.fab.link k).down) ..) (Body.Driven.failover ..)
  · exact Body.Driven.refl _

theorem linkDown_post (s : State) (k reason : Nat) (h : (s.body.fab.link k).trained = true) :
    ⟨0x0302, 7 + 256 * (0x80 + k), [(k, 0), (reason, 0), (s.alm.beat, 0)], none⟩ ∈ (linkDown s k reason).body.data.posts := by
  unfold linkDown
  dsimp only
  rw [h, Bool.true_or, if_pos rfl]
  exact (Body.Driven.failover ..).data.posts.subset (List.mem_append_right _ (List.mem_singleton_self _))

namespace Body.Driven

variable {b b' : Body}

theorem mg (h : b.Driven b') : b'.mg = b.mg := by
  have := congrArg Body.mg h.rest
  exact this

theorem mgdb (h : b.Driven b') : b'.mgdb = b.mgdb := by
  have := congrArg Body.mgdb h.rest
  exact this

theorem md (h : b.Driven b') : b'.md = b.md := by
  have := congrArg Body.md h.rest
  exact this

theorem pw (h : b.Driven b') : b'.pw = b.pw := by
  have := congrArg Body.pw h.rest
  exact this

theorem flash (h : b.Driven b') : b'.flash = b.flash := by
  have := congrArg Body.flash h.rest
  exact this

theorem log (h : b.Driven b') : b'.log = b.log := by
  have := congrArg Body.log h.rest
  exact this

theorem port (h : b.Driven b') (p : HostPort) : b'.host.port p = b.host.port p := by
  have := congrArg (HostSt.port · p) h.host
  cases p
  · exact this
  · exact this

theorem fns (h : b.Driven b') : b'.host.fns = b.host.fns := by
  have := congrArg HostSt.fns h.host
  exact this

theorem reqs (h : b.Driven b') : b'.host.reqs = b.host.reqs := by
  have := congrArg HostSt.reqs h.host
  exact this

theorem ops (h : b.Driven b') : b'.host.ops = b.host.ops := by
  have := congrArg HostSt.ops h.host
  exact this

theorem mem_posts (h : b.Driven b') {p : Post} (hp : p ∈ b.data.posts) : p ∈ b'.data.posts := h.data.posts.subset hp

theorem trained (h : b.Driven b') (k : Nat) : (b'.fab.link k).trained = (b.fab.link k).trained := by
  have := congrArg LinkSt.trained (h.links k)
  exact this

theorem verdict (h : b.Driven b') (k : Nat) : (b'.fab.link k).verdict = (b.fab.link k).verdict := by
  have := congrArg LinkSt.verdict (h.links k)
  exact this

theorem cable (h : b.Driven b') (k : Nat) : (b'.fab.link k).cable = (b.fab.link k).cable := by
  have := congrArg LinkSt.cable (h.links k)
  exact this

theorem cablePower (h : b.Driven b') (k : Nat) : (b'.fab.link k).cablePower = (b.fab.link k).cablePower := by
  have := congrArg LinkSt.cablePower (h.links k)
  exact this

theorem linkEvents (h : b.Driven b') (k : Nat) : (b'.fab.link k).events = (b.fab.link k).events := by
  have := congrArg LinkSt.events (h.links k)
  exact this

end Body.Driven

namespace HostSt

theorem port_setPort_self (h : HostSt) (p : HostPort) (x : HostPortSt) : (h.setPort p x).port p = x := by
  cases p
  · rfl
  · rfl

theorem port_setPort_ne (h : HostSt) {p q : HostPort} (hq : q ≠ p) (x : HostPortSt) : (h.setPort p x).port q = h.port q := by
  cases p <;> cases q
  · exact absurd rfl hq
  · rfl
  · rfl
  · exact absurd rfl hq

theorem setPort_fns (h : HostSt) (p : HostPort) (x : HostPortSt) : (h.setPort p x).fns = h.fns := by
  cases p
  · rfl
  · rfl

theorem setPort_reqs (h : HostSt) (p : HostPort) (x : HostPortSt) : (h.setPort p x).reqs = h.reqs := by
  cases p
  · rfl
  · rfl

theorem portGone_port (h : HostSt) (p : HostPort) : (h.portGone p).port p = (h.port p).down := port_setPort_self h p _

theorem portGone_port_ne (h : HostSt) {p q : HostPort} (hq : q ≠ p) : (h.portGone p).port q = h.port q := port_setPort_ne h hq _

theorem portGone_fns (h : HostSt) (p : HostPort) : (h.portGone p).fns = mmap h.fns fun k r => if onPortFn p k then r.again else r := by
  unfold portGone portReset dropOps without
  dsimp only
  rw [setPort_fns]

theorem portGone_reqs (h : HostSt) (p : HostPort) : (h.portGone p).reqs = h.reqs.filter fun r => !(r.hb == (p == .hb)) := by
  unfold portGone portReset dropOps without
  dsimp only
  rw [setPort_reqs]

end HostSt

/-! ### Cables and the debug port -/

theorem failover_no_conns {b : Body} (h : b.fab.conns = []) (beat port : Nat) :
    b.failover beat port = b.setLink port { b.fab.link port with waiting := [] } := by
  have hc : (b.setLink port { b.fab.link port with waiting := [] }).fab.conns = [] := h
  unfold Body.failover
  dsimp only
  rw [hc]
  rfl

theorem linkDown_link_of_no_conns {s : State} (h : s.body.fab.conns = []) {k j : Nat} (hj : j ≠ k) (reason : Nat) :
    (linkDown s k reason).body.fab.link j = s.body.fab.link j := by
  have hd := link_setLink_ne s.body hj (s.body.fab.link k).down
  unfold linkDown
  dsimp only
  split
  · have hf := failover_no_conns (b := (s.body.setLink k (s.body.fab.link k).down).post 0x0302 (7 + 256 * (0x80 + k))
      [(k, 0), (reason, 0), (s.alm.beat, 0)]) h s.alm.beat k
    refine (congrArg (fun b : Body => b.fab.link j) hf).trans ?_
    exact (link_setLink_ne _ hj _).trans hd
  · exact hd

/-- What is true of a link that has gone down. -/
structure Downed (s u : State) (k : Nat) : Prop where
  trained : (u.body.fab.link k).trained = false
  verdict : (u.body.fab.link k).verdict = .noPeer
  cable : (u.body.fab.link k).cable = (s.body.fab.link k).cable
  power : (u.body.fab.link k).cablePower = (s.body.fab.link k).cablePower
  events : (u.body.fab.link k).events = (s.body.fab.link k).events + 1

theorem linkDown_downed (s : State) (k reason : Nat) : Downed s (linkDown s k reason) k := by
  have h := linkDown_driven s k reason
  have hl := link_setLink_self s.body k (s.body.fab.link k).down
  refine ⟨?_, ?_, ?_, ?_, ?_⟩
  · rw [h.trained, hl]
    rfl
  · rw [h.verdict, hl]
    rfl
  · rw [h.cable, hl]
    rfl
  · rw [h.cablePower, hl]
    rfl
  · rw [h.linkEvents, hl]
    rfl

theorem cable_present {s : State} {k : Nat} (hk : k < 18) (h : (s.body.fab.link k).cable = false) :
    Leaves (.cblPrsntChange k true) s (s.setLink k { s.body.fab.link k with cable := true, events := (s.body.fab.link k).events + 1 }) := by
  refine leaves_of_run (show _ = execCblPrsntChange k true s from rfl) ?_
  dsimp only
  rw [h, decide_eq_false (Nat.not_le.2 hk)]
  rfl

theorem cable_unchanged {s : State} {k : Nat} {p : Bool} (h : 18 ≤ k ∨ (s.body.fab.link k).cable = p) : Leaves (.cblPrsntChange k p) s s := by
  refine leaves_of_run (show _ = execCblPrsntChange k p s from rfl) ?_
  dsimp only
  rw [if_pos]
  rcases h with h | h
  · rw [decide_eq_true h, Bool.true_or]
  · rw [h, beq_self_eq_true, Bool.or_true]

theorem cable_gone {s : State} {k : Nat} (hk : k < 18) (h : (s.body.fab.link k).cable = true) :
    Makes (.cblPrsntChange k false) s fun u => (u.body.fab.link k).cable = false ∧ (u.body.fab.link k).trained = false ∧
      (u.body.fab.link k).verdict = .noPeer ∧ (u.body.fab.link k).events = (s.body.fab.link k).events + 1 ∧
      (s.body.fab.conns = [] → ∀ j, j ≠ k → u.body.fab.link j = s.body.fab.link j) ∧
      ((s.body.fab.link k).trained = true → ⟨0x0302, 7 + 256 * (0x80 + k), [(k, 0), (3, 0), (s.alm.beat, 0)], none⟩ ∈ u.body.data.posts) := by
  refine makes_of_run (show _ = execCblPrsntChange k false s from rfl) ?_
  dsimp only
  rw [h, decide_eq_false (Nat.not_le.2 hk), if_neg (by decide), if_neg (by decide)]
  have hl : (s.setLink k { s.body.fab.link k with cable := false }).body.fab.link k = { s.body.fab.link k with cable := false } :=
    link_setLink_self s.body k _
  have hd := linkDown_downed (s.setLink k { s.body.fab.link k with cable := false }) k 3
  refine ⟨?_, hd.trained, hd.verdict, ?_, fun hc j hj => ?_, fun ht => ?_⟩
  · rw [hd.cable, hl]
  · rw [hd.events, hl]
  · exact (linkDown_link_of_no_conns (s := s.setLink k { s.body.fab.link k with cable := false }) hc hj 3).trans (link_setLink_ne s.body hj _)
  · exact linkDown_post _ k 3 ((congrArg LinkSt.trained hl).trans ht)

theorem cablePower_lost {s : State} {k mA : Nat} (hk : k = 16 ∨ k = 17) (h : (s.body.fab.link k).cablePower = true) :
    Makes (.cablePowerFault k mA) s fun u => (u.body.fab.link k).cablePower = false ∧ (u.body.fab.link k).trained = false ∧
      (u.body.fab.link k).verdict = .noPeer ∧ ⟨0x0711, 7 + 256 * (0x80 + k), [(k, 0), (mA, 0)], none⟩ ∈ u.body.data.posts := by
  refine makes_of_run (show _ = execCablePowerFault k mA s from rfl) ?_
  dsimp only
  rw [if_pos ⟨hk, h⟩]
  have hl : (s.setLink k { s.body.fab.link k with cablePower := false }).body.fab.link k = { s.body.fab.link k with cablePower := false } :=
    link_setLink_self s.body k _
  have hd := linkDown_downed (s.setLink k { s.body.fab.link k with cablePower := false }) k 4
  refine ⟨?_, hd.trained, hd.verdict, List.mem_append_right _ (List.mem_singleton_self _)⟩
  exact hd.power.trans (congrArg LinkSt.cablePower hl)

theorem console_input (s : State) (b : Byte) :
    (s.body.mgdb.grants % 2 = 1 → Leaves (.dbUartRx b) s (s.setMg { s.body.mgdb with consoleIn := s.body.mgdb.consoleIn ++ [b] })) ∧
    (s.body.mgdb.grants % 2 = 0 → Leaves (.dbUartRx b) s s) := by
  refine ⟨fun h => leaves_of_run (show _ = execDbUartRx b s from rfl) ?_, fun h => leaves_of_run (show _ = execDbUartRx b s from rfl) ?_⟩
  · dsimp only
    rw [if_pos h]
  · dsimp only
    rw [if_neg (by omega)]

theorem scan_access (s : State) (die : Nat) : (s.body.mgdb.grants / 4 % 2 = 0 ∨ 8 ≤ die → Leaves (.scanAccess die) s s) ∧
    (s.body.mgdb.grants / 4 % 2 = 1 → die < 8 →
      Leaves (.scanAccess die) s ((s.emit (.scan die (Config.scanned die s.body.data.free))).drawn 1)) := by
  refine ⟨fun h => leaves_of_run (show _ = execScanAccess die s from rfl) ?_, fun h hd => leaves_of_run (show _ = execScanAccess die s from rfl) ?_⟩
  · rw [if_neg (by omega)]
  · rw [if_pos ⟨h, hd⟩]

/-- Settles O52: each TAP command shifts out its own bits, and a link whose cable or cable power goes is taken down. -/
theorem debugPortAndCables : Obligations.DebugPortAndCables := by
  unfold Obligations.DebugPortAndCables
  refine ⟨fun s => ⟨?_, ?_, ?_, ?_, ?_⟩, console_input, scan_access, fun s k p => cable_unchanged, fun s k hk => ⟨cable_present hk, cable_gone hk⟩,
    fun s k mA => cablePower_lost, fun s k mA h => leaves_of_run (show _ = execCablePowerFault k mA s from rfl) ?_⟩
  · exact leaves_of_run (show _ = execJtagBypass s from rfl) rfl
  · refine makes_of_run (show _ = execJtagIdcode s from rfl) ⟨rfl, rfl, _, rfl, ?_, fun i hi => ?_⟩
    · rw [List.length_map, List.length_range]
    · rw [List.getElem?_map, List.getElem?_range hi]
      rfl
  · exact leaves_of_run (show _ = execJtagSamplePreload s from rfl) rfl
  · exact leaves_of_run (show _ = execJtagExtest s from rfl) rfl
  · exact leaves_of_run (show _ = execDbTrstAssert s from rfl) rfl
  · dsimp only
    rw [if_neg]
    rintro ⟨hk, hp⟩
    rcases h with ⟨h16, h17⟩ | h
    · exact hk.elim h16 h17
    · rw [h] at hp
      cases hp

/-! ### Memory, where no engine runs anything -/

/-- No engine has a descriptor under way. -/
def Data.enginesIdle (d : Data) : Prop := ∀ e ∈ d.engines, e.2.running = []

/-- Memory stays, and engines that have nothing under way go on so. -/
structure Data.StaysIdle (d d' : Data) : Prop where
  mem : d'.mem = d.mem
  idle : d.enginesIdle → d'.enginesIdle

namespace Data.StaysIdle

theorem refl (d : Data) : d.StaysIdle d := ⟨rfl, id⟩

theorem trans {a b c : Data} (h : a.StaysIdle b) (k : b.StaysIdle c) : a.StaysIdle c := ⟨k.mem.trans h.mem, k.idle ∘ h.idle⟩

theorem foldl {β : Type} {f : Data → β → Data} (h : ∀ (d : Data) y, d.StaysIdle (f d y)) (l : List β) (d : Data) : d.StaysIdle (l.foldl f d) := by
  induction l generalizing d with
  | nil => exact refl _
  | cons y l ih => exact (h d y).trans (ih _)

theorem endReq (d : Data) (id : Nat) (st : ReqStage) : d.StaysIdle (d.endReq id st) := ⟨rfl, fun h => h⟩

theorem structLost (d : Data) (ctx st a : Nat) : d.StaysIdle (d.structLost ctx st a) := ⟨rfl, fun h => h⟩

theorem engAnswer (d : Data) (id st : Nat) (l : List Byte) : d.StaysIdle (d.engAnswer id st l) := by
  refine ⟨rfl, fun h e he => ?_⟩
  obtain ⟨x, hx, rfl⟩ := List.mem_map.1 he
  show x.2.running.map _ = []
  rw [h x hx]
  rfl

theorem recordsOver (d : Data) : d.StaysIdle d.recordsOver := by
  unfold Data.recordsOver
  dsimp only
  split
  · exact refl _
  · have h : d.StaysIdle { d with reqs := d.reqs.filter fun r => !(r.ofDisp && writes r.op && r.over) } := ⟨rfl, fun h => h⟩
    refine h.trans (foldl (fun d r => ?_) _ _)
    split
    · exact structLost ..
    · exact refl _

theorem absorb (d : Data) : d.StaysIdle d.absorb := by
  unfold Data.absorb
  have h : d.StaysIdle { d with reqs := d.reqs.filter fun r => !(r.ofEngine && r.over) } := ⟨rfl, fun h => h⟩
  refine h.trans (foldl (fun d r => ?_) _ _)
  split
  · exact engAnswer ..
  · exact engAnswer ..
  · exact engAnswer ..

end Data.StaysIdle

theorem foldl_of_nil {α β γ : Type} (g : β → List γ) (f : α → β → γ → α) {l : List β} (h : ∀ x ∈ l, g x = []) (a : α) :
    l.foldl (fun a x => (g x).foldl (fun a r => f a x r) a) a = a := by
  induction l with
  | nil => rfl
  | cons x l ih =>
    rw [List.foldl_cons, h x List.mem_cons_self]
    exact ih fun y hy => h y (List.mem_cons_of_mem _ hy)

theorem pumpCopies_idle {b : Body} (h : b.data.enginesIdle) (beat : Nat) : pumpCopies b beat = b := by
  unfold pumpCopies
  split
  · rfl
  · exact foldl_of_nil (fun e : Nat × Engine => e.2.running) _ h b

theorem pumpColls_idle {b : Body} (h : b.data.enginesIdle) (beat : Nat) : pumpColls b beat = b := by
  unfold pumpColls
  split
  · rfl
  · exact foldl_of_nil (fun e : Nat × Engine => e.2.running) _ h b

theorem pump_idle {b : Body} (h : b.data.enginesIdle) (beat : Nat) : pump b beat = { b with data := b.data.absorb } := by
  have hi := (Data.StaysIdle.absorb b.data).idle h
  unfold pump
  rw [pumpCopies_idle hi, pumpColls_idle hi]

theorem hostLost_mem {b : Body} (h : b.data.enginesIdle) (beat : Nat) (mine : HostReq → Bool) : (hostLost b beat mine).data.mem = b.data.mem := by
  have hs := (Data.StaysIdle.foldl (fun d (r : HostReq) => Data.StaysIdle.endReq d (r.id % 2 ^ 32) (.failed .fabricLost)) (b.host.reqs.filter mine)
    b.data).trans (Data.StaysIdle.recordsOver _)
  unfold hostLost
  dsimp only
  rw [pump_idle (hs.idle h)]
  exact (Data.StaysIdle.absorb _).mem.trans hs.mem

/-! ### The host ports -/

/-- What is true of a port whose link has gone. -/
structure PortDown (s u : State) (p : HostPort) (cause : Nat) : Prop where
  port : ∃ pin, u.body.host.port p = { (s.body.host.port p).down with perst := pin }
  fns : u.body.host.fns = mmap s.body.host.fns fun k r => if onPortFn p k then r.again else r
  others : ∀ q, q ≠ p → u.body.host.port q = s.body.host.port q
  post : (s.body.host.port p).up = true →
    ⟨0x0401, 7 + 256 * (portNo p + 1), [(portNo p, 1), (cause, 1), (0, 6), (s.alm.beat, 8)], none⟩ ∈ u.body.data.posts
  reqs : u.body.host.reqs = s.body.host.reqs.filter fun r => !(r.hb == (p == .hb))
  mem : s.body.data.enginesIdle → u.body.data.mem = s.body.data.mem

theorem portGone_mem {b : Body} (h : b.data.enginesIdle) (beat : Nat) (p : HostPort) : (b.portGone beat p).data.mem = b.data.mem :=
  hostLost_mem (b := { b with host := b.host.portReset p }) h ..

theorem portDown_mem {s : State} (h : s.body.data.enginesIdle) (p : HostPort) (cause : Nat) :
    (portDown s p cause).body.data.mem = s.body.data.mem := by
  rw [portDown_eq]
  split
  · exact portGone_mem h ..
  · exact portGone_mem h ..

theorem portDown_portDown (s : State) (p : HostPort) (cause : Nat) : PortDown s (portDown s p cause) p cause := by
  have h := portDown_driven s p cause
  refine ⟨?_, ?_, fun q hq => ?_, portDown_post s p cause, ?_, fun hi => portDown_mem hi p cause⟩
  · exact ⟨_, (h.port p).trans (HostSt.portGone_port ..)⟩
  · exact h.fns.trans (HostSt.portGone_fns ..)
  · exact (h.port q).trans (HostSt.portGone_port_ne _ hq)
  · exact h.reqs.trans (HostSt.portGone_reqs ..)

theorem PortDown.facts {s u : State} {p : HostPort} {cause : Nat} (h : PortDown s u p cause) :
    (u.body.host.port p).up = false ∧ (u.body.host.port p).vfEnable = false ∧ (u.body.host.port p).vfBar2Log2 = 33 ∧
      (∀ k r, onPortFn p k = true → mget s.body.host.fns k = some r → mget u.body.host.fns k = some r.again) ∧
      (∀ k, onPortFn p k = false → mget u.body.host.fns k = mget s.body.host.fns k) ∧ (∀ q, q ≠ p → u.body.host.port q = s.body.host.port q) ∧
      ((s.body.host.port p).up = true → (u.body.host.port p).linkEvents = (s.body.host.port p).linkEvents + 1 ∧
        ⟨0x0401, 7 + 256 * (portNo p + 1), [(portNo p, 1), (cause, 1), (0, 6), (s.alm.beat, 8)], none⟩ ∈ u.body.data.posts) ∧
      ((∀ e ∈ s.body.data.engines, e.2.running = []) → (∀ x, x ∈ u.body.host.reqs ↔ x ∈ s.body.host.reqs ∧ x.hb ≠ (p == .hb)) ∧
        u.body.data.mem = s.body.data.mem) := by
  obtain ⟨pin, hp⟩ := h.port
  refine ⟨?_, ?_, ?_, fun k r hk hr => ?_, fun k hk => ?_, h.others, fun hu => ⟨?_, h.post hu⟩, fun hi => ⟨fun x => ?_, h.mem hi⟩⟩
  · rw [hp]
    rfl
  · rw [hp]
    rfl
  · rw [hp]
    rfl
  · rw [h.fns, mget_mmap, hr, Option.map_some, if_pos hk]
  · rw [h.fns, mget_mmap, hk]
    exact Option.map_id'
  · rw [hp]
    exact if_pos hu
  · rw [h.reqs, List.mem_filter]
    simp

/-! ### Sequence numbers that are unset -/

theorem unset_self (m : Mgmt) (k : Nat) : mget (m.unset k).nextSeq k = none := mget_mdel_self _ _

theorem unset_ne (m : Mgmt) {k j : Nat} (h : k ≠ j) : mget (m.unset k).nextSeq j = mget m.nextSeq j := mget_mdel_ne _ _ _ h

theorem unset_none {m : Mgmt} {j : Nat} (h : mget m.nextSeq j = none) (k : Nat) : mget (m.unset k).nextSeq j = none := by
  by_cases hk : k = j
  · rw [hk]
    exact unset_self m j
  · rw [unset_ne m hk, h]

theorem foldl_unset_none {l : List Nat} {m : Mgmt} {j : Nat} (h : mget m.nextSeq j = none ∨ ∃ n ∈ l, 0x40 + n = j) :
    mget (l.foldl (fun (m : Mgmt) n => m.unset (0x40 + n)) m).nextSeq j = none := by
  induction l generalizing m with
  | nil =>
    rcases h with h | ⟨n, hn, _⟩
    · exact h
    · cases hn
  | cons x l ih =>
    refine ih ?_
    rcases h with h | ⟨n, hn, rfl⟩
    · exact .inl (unset_none h _)
    · rcases List.mem_cons.1 hn with rfl | hn
      · exact .inl (unset_self ..)
      · exact .inr ⟨n, hn, rfl⟩

theorem unsetPort_pf (s : State) (p : HostPort) : mget (unsetPort s p).body.mg.nextSeq (fnStamp (.pf p)) = none :=
  foldl_unset_none (.inl (unset_self ..))

theorem unsetPort_none {s : State} {j : Nat} (h : mget s.body.mg.nextSeq j = none) (p : HostPort) :
    mget (unsetPort s p).body.mg.nextSeq j = none :=
  foldl_unset_none (.inl (unset_none h _))

theorem unsetPort_vf {s : State} {p : HostPort} {n : Nat} (h : n ∈ portVfs s.body.data p) :
    mget (unsetPort s p).body.mg.nextSeq (0x40 + n) = none :=
  foldl_unset_none (.inr ⟨n, h, rfl⟩)

namespace Data.fabricBut

theorem plots {d d' : Data} (h : d.fabricBut d') : d'.plots = d.plots := by
  have := congrArg Data.plots h
  exact this

end Data.fabricBut

theorem portDown_plots (s : State) (p : HostPort) (cause : Nat) : (portDown s p cause).body.data.plots = s.body.data.plots :=
  (portDown_driven s p cause).data.rest.plots

/-! ### Resets of functions -/

theorem vfLost_driven (b : Body) (beat : Nat) (p : HostPort) (vf : Nat → Bool) : ∃ mine : HostReq → Bool,
    ({ b with host := b.host.without mine } : Body).Driven (vfLost b beat p vf) := ⟨_, hostLost_driven b beat _⟩

theorem vfLost_port (b : Body) (beat : Nat) (p : HostPort) (vf : Nat → Bool) (q : HostPort) :
    (vfLost b beat p vf).host.port q = b.host.port q := by
  obtain ⟨mine, h⟩ := vfLost_driven b beat p vf
  exact h.port q

theorem vfLost_fns (b : Body) (beat : Nat) (p : HostPort) (vf : Nat → Bool) : (vfLost b beat p vf).host.fns = b.host.fns := by
  obtain ⟨mine, h⟩ := vfLost_driven b beat p vf
  exact h.fns

theorem vfLost_plots (b : Body) (beat : Nat) (p : HostPort) (vf : Nat → Bool) : (vfLost b beat p vf).data.plots = b.data.plots := by
  obtain ⟨mine, h⟩ := vfLost_driven b beat p vf
  exact h.data.rest.plots

theorem vfPlot_of_plots {d d' : Data} (h : d'.plots = d.plots) (p : HostPort) (n : Nat) : vfPlot d' p n = vfPlot d p n := by
  unfold vfPlot
  rw [h]

theorem vfLost_mg (b : Body) (beat : Nat) (p : HostPort) (vf : Nat → Bool) : (vfLost b beat p vf).mg = b.mg := by
  obtain ⟨mine, h⟩ := vfLost_driven b beat p vf
  exact h.mg

theorem clearVfEnable_port (b : Body) (beat : Nat) (p : HostPort) :
    (clearVfEnable b beat p).host.port p = { b.host.port p with vfEnable := false } := by
  refine (HostSt.port_setPort_self _ p _).trans ?_
  rw [vfLost_port]

theorem clearVfEnable_fns (b : Body) (beat : Nat) (p : HostPort) : (clearVfEnable b beat p).host.fns = b.host.fns :=
  (HostSt.setPort_fns ..).trans (vfLost_fns ..)

theorem clearVfEnable_mg (b : Body) (beat : Nat) (p : HostPort) : (clearVfEnable b beat p).mg = b.mg := vfLost_mg ..

theorem live_vf_of_not_vfEnable {h : HostSt} {p : HostPort} (hv : (h.port p).vfEnable = false) (n : Nat) : h.live (.vf p n) = false := by
  unfold HostSt.live
  dsimp only
  rw [hv, Bool.false_and, Bool.and_false]

theorem live_vf_of_inFlr {h : HostSt} {p : HostPort} {n : Nat} (hv : (h.fn (.vf p n)).inFlr = true) : h.live (.vf p n) = false := by
  unfold HostSt.live
  dsimp only
  rw [hv, Bool.not_true, Bool.and_false, Bool.and_false]

theorem port_setFn (h : HostSt) (f : Fn) (r : FnRegs) (p : HostPort) : (h.setFn f r).port p = h.port p := by
  cases p
  · rfl
  · rfl

theorem fn_of_fns {h h' : HostSt} (e : h'.fns = h.fns) (f : Fn) : h'.fn f = h.fn f := by
  unfold HostSt.fn
  rw [e]

theorem perst_assert (s : State) (p : HostPort) : Makes (.perstAssert p) s fun u => PortDown s u p 1 ∧
    (u.body.host.port p).perst = true ∧ mget u.body.mg.nextSeq (fnStamp (.pf p)) = none ∧
      ∀ n ∈ portVfs s.body.data p, mget u.body.mg.nextSeq (0x40 + n) = none := by
  have h := portDown_portDown s p 1
  refine makes_of_run (show _ = execPerstAssert p s from rfl) ⟨⟨⟨true, ?_⟩, ?_, fun q hq => ?_, h.post, ?_, h.mem⟩, ?_, unsetPort_pf .., fun n hn => ?_⟩
  · obtain ⟨pin, hp⟩ := h.port
    refine (HostSt.port_setPort_self _ p _).trans ?_
    exact congrArg (fun x : HostPortSt => { x with perst := true }) hp
  · exact (HostSt.setPort_fns ..).trans h.fns
  · exact (HostSt.port_setPort_ne _ hq _).trans (h.others q hq)
  · exact (HostSt.setPort_reqs ..).trans h.reqs
  · exact congrArg HostPortSt.perst (HostSt.port_setPort_self _ p _)
  · refine unsetPort_vf (s := portDown s p 1) ?_
    unfold portVfs
    rw [portDown_plots]
    exact hn

theorem link_lost {s : State} {p : HostPort} {c : Instr} {cause : Nat} (h : (s.body.host.port p).up = true)
    (hc : (c = .pcieHotReset p ∧ cause = 2) ∨ (c = .pcieLinkDown p ∧ cause = 3)) : Makes c s fun u => u = portDown s p cause := by
  rcases hc with ⟨rfl, rfl⟩ | ⟨rfl, rfl⟩
  · exact makes_of_run (show _ = execPcieHotReset p s from rfl) (if_pos h)
  · exact makes_of_run (show _ = execPcieLinkDown p s from rfl) (if_pos h)

theorem link_lost_facts (s : State) (p : HostPort) (cause : Nat) : PortDown s (portDown s p cause) p cause ∧
    ((portDown s p cause).body.host.port p).perst = (s.body.host.port p).perst ∧ (portDown s p cause).body.mg = s.body.mg := by
  have h := portDown_driven s p cause
  refine ⟨portDown_portDown s p cause, ?_, h.mg⟩
  have hp : _ = (s.body.host.port p).down := (h.port p).trans (HostSt.portGone_port s.body.host p)
  rw [hp]
  rfl

theorem port_is_down {s : State} {p : HostPort} (h : (s.body.host.port p).up = false) :
    Leaves (.pcieHotReset p) s s ∧ Leaves (.pcieLinkDown p) s s ∧ Leaves (.pfFlr p) s s ∧ Leaves (.vfEnableClear p) s s ∧
      Leaves (.vfEnableSet p) s s := by
  have hn : ¬(s.body.host.port p).up = true := by rw [h]; exact Bool.false_ne_true
  exact ⟨leaves_of_run (show _ = execPcieHotReset p s from rfl) (if_neg hn), leaves_of_run (show _ = execPcieLinkDown p s from rfl) (if_neg hn),
    leaves_of_run (show _ = execPfFlr p s from rfl) (if_neg hn), leaves_of_run (show _ = execVfEnableClear p s from rfl) (if_neg hn),
    leaves_of_run (show _ = execVfEnableSet p s from rfl) (if_neg hn)⟩

theorem portMayTrain_iff (b : Body) (p : HostPort) : portMayTrain b p = true ↔ (b.host.port p).perst = false ∧ (b.host.port p).up = false ∧
    b.md.modPg = true ∧ b.md.refclk = true ∧ 8 + portNo p ∉ b.data.dieOut := by
  unfold portMayTrain
  simp [and_assoc]

theorem pcie_linkUp {s : State} {p : HostPort} {rate width : Nat} (h : portMayTrain s.body p = true) (hr : rate ∈ [16, 32, 64])
    (hw : width ∈ [8, 16]) : Makes (.pcieLinkUp p rate width) s fun u =>
    u.body.host.port p = { s.body.host.port p with up := true, rate := rate, width := width } ∧ u.body.host.fns = s.body.host.fns ∧
    ⟨0x0402, 7 + 256 * (portNo p + 1), [(portNo p, 1), (rate, 1), (width, 1), (if rate = 64 then 1 else 0, 1)], none⟩ ∈ u.body.data.posts := by
  refine makes_of_run (show _ = execPcieLinkUp p rate width s from rfl) ?_
  dsimp only
  rw [h, List.contains_iff_mem.2 hr, List.contains_iff_mem.2 hw, if_pos (by decide)]
  exact ⟨HostSt.port_setPort_self _ p _, HostSt.setPort_fns .., List.mem_append_right _ (List.mem_singleton_self _)⟩

theorem pcie_linkUp_refused {s : State} {p : HostPort} {rate width : Nat}
    (h : portMayTrain s.body p = false ∨ rate ∉ [16, 32, 64] ∨ width ∉ [8, 16]) : Leaves (.pcieLinkUp p rate width) s s := by
  refine leaves_of_run (show _ = execPcieLinkUp p rate width s from rfl) ?_
  dsimp only
  rw [if_neg]
  rw [Bool.and_eq_true, Bool.and_eq_true, List.contains_iff_mem, List.contains_iff_mem]
  rintro ⟨⟨hm, hr⟩, hw⟩
  rcases h with h | h | h
  · rw [h] at hm
    cases hm
  · exact h hr
  · exact h hw

theorem pf_flr {s : State} {p : HostPort} (h : (s.body.host.port p).up = true) : Makes (.pfFlr p) s fun u =>
    (u.body.host.port p).vfEnable = false ∧ (u.body.host.port p).vfBar2Log2 = 33 ∧
    (u.body.host.port p).up = true ∧ u.body.host.fn (.pf p) = (s.body.host.fn (.pf p)).again ∧ mget u.body.mg.nextSeq (fnStamp (.pf p)) = none ∧
    ∀ k, k ≠ fnStamp (.pf p) → mget u.body.mg.nextSeq k = mget s.body.mg.nextSeq k := by
  refine makes_of_run (show _ = execPfFlr p s from rfl) ?_
  dsimp only
  rw [if_pos h]
  have hp : ∀ (r : FnRegs) (gone : Fn → Bool) (k : HostPortSt),
      ((((clearVfEnable s.body s.alm.beat p).host.setPort p k).dropOps gone).setFn (.pf p) r).port p = k := fun r gone k =>
    (port_setFn _ _ r p).trans (HostSt.port_setPort_self (clearVfEnable s.body s.alm.beat p).host p k)
  have hc := clearVfEnable_port s.body s.alm.beat p
  refine ⟨?_, ?_, ?_, ?_, unset_self .., fun k hk => ?_⟩
  · exact (congrArg HostPortSt.vfEnable (hp _ _ _)).trans (congrArg HostPortSt.vfEnable hc)
  · exact congrArg HostPortSt.vfBar2Log2 (hp _ _ _)
  · exact (congrArg HostPortSt.up (hp _ _ _)).trans ((congrArg HostPortSt.up hc).trans h)
  · refine (fn_setFn _ _ _).trans (congrArg FnRegs.again (fn_of_fns ?_ _))
    exact (HostSt.setPort_fns ..).trans (clearVfEnable_fns ..)
  · exact (unset_ne _ hk.symm).trans (congrArg (fun m : Mgmt => mget m.nextSeq k) (clearVfEnable_mg ..))

theorem vf_flr {s : State} {p : HostPort} {vf : Nat} (hv : vf < 64) (hu : (s.body.host.port p).up = true)
    (he : (s.body.host.port p).vfEnable = true) : Makes (.vfFlr p vf) s fun u =>
    (u.body.host.fn (.vf p vf)) = { (s.body.host.fn (.vf p vf)).again with inFlr := true } ∧ u.body.host.live (.vf p vf) = false ∧
    ((vfPlot s.body.data p vf).isSome = true → mget u.body.mg.nextSeq (0x40 + vf) = none) ∧ u.body.host.port p = s.body.host.port p := by
  have hf : ∀ gone, (((vfLost s.body s.alm.beat p fun n => n == vf).host.dropOps gone).setFn (.vf p vf)
      { ((vfLost s.body s.alm.beat p fun n => n == vf).host.fn (.vf p vf)).again with inFlr := true }).fn (.vf p vf) =
      { (s.body.host.fn (.vf p vf)).again with inFlr := true } := fun gone => by
    rw [fn_setFn, fn_of_fns (vfLost_fns ..)]
  have hp : ∀ gone r, (((vfLost s.body s.alm.beat p fun n => n == vf).host.dropOps gone).setFn (.vf p vf) r).port p = s.body.host.port p :=
    fun gone r => (port_setFn _ _ r p).trans (vfLost_port s.body s.alm.beat p _ p)
  refine makes_of_run (show _ = execVfFlr p vf s from rfl) ?_
  dsimp only
  rw [decide_eq_true hv, hu, he, if_pos (by decide)]
  split
  · exact ⟨hf _, live_vf_of_inFlr (congrArg FnRegs.inFlr (hf _)), fun _ => unset_self .., hp _ _⟩
  · next hn =>
    refine ⟨hf _, live_vf_of_inFlr (congrArg FnRegs.inFlr (hf _)), fun h => absurd ?_ hn, hp _ _⟩
    rw [← vfPlot_of_plots (vfLost_plots s.body s.alm.beat p fun n => n == vf)] at h
    exact h

theorem vf_flr_refused {s : State} {p : HostPort} {vf : Nat}
    (h : 64 ≤ vf ∨ (s.body.host.port p).up = false ∨ (s.body.host.port p).vfEnable = false) : Leaves (.vfFlr p vf) s s := by
  refine leaves_of_run (show _ = execVfFlr p vf s from rfl) ?_
  dsimp only
  rw [if_neg]
  rw [Bool.and_eq_true, Bool.and_eq_true, decide_eq_true_iff]
  rintro ⟨⟨hv, hu⟩, he⟩
  rcases h with h | h | h
  · omega
  · rw [h] at hu
    cases hu
  · rw [h] at he
    cases he

theorem vf_flr_complete (s : State) (p : HostPort) (vf : Nat) :
    ((s.body.host.fn (.vf p vf)).inFlr = false → Leaves (.vfFlrComplete p vf) s s) ∧
    ((s.body.host.fn (.vf p vf)).inFlr = true → Makes (.vfFlrComplete p vf) s fun u =>
      u.body.host.fn (.vf p vf) = { s.body.host.fn (.vf p vf) with inFlr := false } ∧ u.body.data = s.body.data) := by
  refine ⟨fun h => leaves_of_run (show _ = execVfFlrComplete p vf s from rfl) ?_,
    fun h => makes_of_run (show _ = execVfFlrComplete p vf s from rfl) ?_⟩
  · dsimp only
    rw [h, if_neg Bool.false_ne_true]
  · dsimp only
    rw [if_pos h]
    exact ⟨fn_setFn .., rfl⟩

theorem vfEnable_cleared {s : State} {p : HostPort} (h : (s.body.host.port p).up = true) : Makes (.vfEnableClear p) s fun u =>
    (u.body.host.port p).vfEnable = false ∧ (∀ n, u.body.host.live (.vf p n) = false) ∧ u.body.mg = s.body.mg := by
  refine makes_of_run (show _ = execVfEnableClear p s from rfl) ?_
  rw [if_pos h]
  have hv := congrArg HostPortSt.vfEnable (clearVfEnable_port s.body s.alm.beat p)
  exact ⟨hv, live_vf_of_not_vfEnable hv, clearVfEnable_mg ..⟩

/-- Settles O50: each reset changes its own port and functions; what it ends for the rest is only what waited on them. -/
theorem hostLinks : Obligations.HostLinks := by
  unfold Obligations.HostLinks
  refine ⟨⟨fun s p => ?_, fun s p c cause hu hc => ?_⟩, fun s p => port_is_down, fun s p => leaves_of_run (show _ = execPerstDeassert p s from rfl) rfl,
    fun s p rate width => pcie_linkUp, fun s p rate width => pcie_linkUp_refused, portMayTrain_iff, fun s p => pf_flr, fun s p vf => vf_flr,
    fun s p vf => vf_flr_refused, vf_flr_complete, fun s p hu => ⟨vfEnable_cleared hu, leaves_of_run (show _ = execVfEnableSet p s from rfl) (if_pos hu)⟩⟩
  · exact (perst_assert s p).mono fun u hd => ⟨hd.1.facts, hd.2⟩
  · refine (link_lost hu hc).mono fun u hd => ?_
    rw [hd]
    have hl := link_lost_facts s p cause
    exact ⟨hl.1.facts, hl.2⟩

/-! ### Rails off -/

/-- What is true once every rail but standby has gone. -/
structure RailsOff (s u : State) : Prop where
  state : u.body.md.state = 0
  modPg : u.body.md.modPg = false
  data : u.body.data = Data.reset
  mg : u.body.mg = Mgmt.reset
  flash : u.body.flash = s.body.flash
  kept : u.body.log.flash = s.body.log.flash
  ring : u.body.log.ring = []
  ha : u.body.host.ha.up = false
  hb : u.body.host.hb.up = false
  coolant : u.body.pw.coolantOk = s.body.pw.coolantOk
  budgets : u.body.pw.budgets = []
  trained : ∀ k, (u.body.fab.link k).trained = false
  pending : u.pending = s.pending

theorem off_trained (f : Fabric) (k : Nat) : (f.off.link k).trained = false := by
  show (mgetD (mmap f.links fun _ l => { LinkSt.reset with cable := l.cable }) k LinkSt.reset).trained = false
  rw [mgetD, mget_mmap]
  cases mget f.links k with
  | none => rfl
  | some l => rfl

theorem powerDown_off (s : State) (m : Module) : RailsOff s (powerDown (s.setMd m)) :=
  ⟨rfl, rfl, rfl, rfl, rfl, rfl, rfl, rfl, rfl, rfl, rfl, off_trained _, rfl⟩

theorem RailsOff.facts {s u : State} (h : RailsOff s u) : u.body.md.state = 0 ∧ u.body.md.modPg = false ∧ u.body.data = Data.reset ∧
    u.body.mg = Mgmt.reset ∧ u.body.flash = s.body.flash ∧ u.body.log.flash = s.body.log.flash ∧ u.body.log.ring = [] ∧
    u.body.host.ha.up = false ∧ u.body.host.hb.up = false ∧ u.body.pw.coolantOk = s.body.pw.coolantOk ∧ u.body.pw.budgets = [] ∧
    (∀ k, (u.body.fab.link k).trained = false) ∧ u.pending = s.pending :=
  ⟨h.state, h.modPg, h.data, h.mg, h.flash, h.kept, h.ring, h.ha, h.hb, h.coolant, h.budgets, h.trained, h.pending⟩

/-! ### The input and the undervoltage warning -/

theorem uv_ignored {s : State} {mv : Nat} (h : s.body.md.uv = true ∨ s.body.md.state = 0 ∨ 38000 ≤ mv) : Leaves (.uvWarning mv) s s := by
  refine leaves_of_run (show _ = execUvWarning mv s from rfl) (if_pos ?_)
  rcases h with h | h | h
  · rw [h, Bool.true_or, Bool.true_or]
  · rw [h, beq_self_eq_true, Bool.or_true, Bool.true_or]
  · rw [decide_eq_true h, Bool.or_true]

theorem uv_warned {s : State} {mv : Nat} (hu : s.body.md.uv = false) (hs : s.body.md.state ≠ 0) (hv : mv < 38000) :
    Makes (.uvWarning mv) s fun u =>
    let f := s.body.log.flash ++ flushRecs s.body.log
    u.body.md = { s.body.md with uv := true, latchPower := some s.alm.beat } ∧ u.body.pw.steps = List.replicate 8 16 ∧
    u.body.pw.duty = List.replicate 8 1 ∧ u.body.log.flash = f.drop (f.length - 262144) ∧ u.body.log.copied = s.body.log.nextSeq ∧
    ⟨0x0709, 0, [(s.alm.beat, 0), (mv, 0), ((flushRecs s.body.log).length, 0)], none⟩ ∈ u.body.data.posts ∧ u.body.data.mem = s.body.data.mem := by
  refine makes_of_run (show _ = execUvWarning mv s from rfl) ?_
  dsimp only
  rw [hu, beq_false_of_ne hs, decide_eq_false (Nat.not_le.2 hv), if_neg (by decide)]
  dsimp only [State.post, State.setBody]
  exact ⟨rfl, rfl, rfl, rfl, rfl, List.mem_append_right _ (List.mem_singleton_self _), rfl⟩

theorem uv_recovery (s : State) (mv : Nat) :
    (s.body.md.uv = true → 40000 < mv → Leaves (.uvRecovery mv) s (s.setMd { s.body.md with uv := false, latchPower := none })) ∧
    (s.body.md.uv = false ∨ mv ≤ 40000 → Leaves (.uvRecovery mv) s s) := by
  refine ⟨fun hu hm => leaves_of_run (show _ = execUvRecovery mv s from rfl) (if_pos ⟨hu, hm⟩),
    fun h => leaves_of_run (show _ = execUvRecovery mv s from rfl) (if_neg ?_)⟩
  rintro ⟨hu, hm⟩
  rcases h with h | h
  · rw [h] at hu
    cases hu
  · omega

theorem input_stopped {s : State} (hi : s.body.md.inputGood = true) (hs : s.body.md.state ≠ 0) : Makes .inputRegStop s fun u =>
    RailsOff s u ∧ u.body.md.inputGood = false ∧ u.body.md.latchPower = some (s.body.md.latchPower.getD s.alm.beat) := by
  refine makes_of_run (show _ = execInputRegStop s from rfl) ?_
  dsimp only
  rw [hi, if_neg (by decide), if_neg hs, if_neg hs]
  exact ⟨powerDown_off s _, rfl, rfl⟩

theorem input_over {s : State} {mv : Nat} (h : 62000 < mv) : Makes (.inputOvervoltage mv) s fun u => u.body.md.inputGood = false ∧
    (s.body.md.state ≠ 0 → RailsOff s u) ∧ u.body.md.latchOver =
      if s.body.md.p3v3 then some (max mv ((s.body.md.latchOver.map fun x => x.1).getD 0), (s.body.md.latchOver.map fun x => x.2).getD s.alm.beat)
      else none := by
  refine makes_of_run (show _ = execInputOvervoltage mv s from rfl) ?_
  dsimp only
  rw [if_neg (Nat.not_le.2 h)]
  split
  · next hs => exact ⟨rfl, fun hn => absurd hs hn, rfl⟩
  · exact ⟨rfl, fun _ => powerDown_off s _, rfl⟩

/-- A latched overvoltage keeps its first beat and its highest value. -/
theorem over_peak (l : Option (Nat × Nat)) (mv beat : Nat) : ∃ p b,
    some (max mv ((l.map fun x => x.1).getD 0), (l.map fun x => x.2).getD beat) = some (p, b) ∧ mv ≤ p ∧ ∀ p' b', l = some (p', b') → p' ≤ p ∧ b = b' := by
  refine ⟨_, _, rfl, Nat.le_max_left .., ?_⟩
  rintro p' b' rfl
  exact ⟨Nat.le_max_right .., rfl⟩

/-! ### Standby power, MOD_PWR_EN and the oscillator -/

theorem standby_lost {s : State} (h : s.body.md.p3v3 = true) : Makes .p3v3SbLoss s fun u => RailsOff s u ∧
    u.body.md.p3v3 = false ∧ u.body.md.oscOk = false ∧ u.body.md.standbyBeats = 0 ∧ u.alm = Almanac.reset ∧ u.latch = Latch.reset ∧
    u.body.md.latchTherm = none ∧ u.body.md.latchOver = none ∧ u.body.md.latchPower = none := by
  refine makes_of_run (show _ = execP3v3SbLoss s from rfl) ?_
  dsimp only
  rw [h, if_neg (by decide)]
  exact ⟨⟨rfl, rfl, rfl, rfl, rfl, rfl, rfl, rfl, rfl, rfl, rfl, off_trained _, rfl⟩, rfl, rfl, rfl, rfl, rfl, rfl, rfl, rfl⟩

theorem pwrEn_fell {s : State} (h : s.body.md.pwrEn = true) (hs : s.body.md.state ≠ 0) : Makes .modPwrEnFall s fun u =>
    RailsOff s u ∧ u.body.md.pwrEn = false ∧ u.alm = s.alm := by
  refine makes_of_run (show _ = execModPwrEnFall s from rfl) ?_
  dsimp only
  rw [if_pos h, if_neg (show ¬(s.setMd { s.body.md with pwrEn := false }).body.md.state = 0 from hs)]
  exact ⟨powerDown_off s _, rfl, rfl⟩

/-- What a module reset begins with. -/
structure Starts (s u : State) : Prop where
  state : u.body.md.state = 1
  step : u.body.md.step = 1
  slot : u.body.md.slotId = s.body.md.slotPins
  pwrEn : u.body.md.pwrEn = true
  therm : u.body.md.thermtrip = false
  alm : u.alm = Almanac.reset
  latch : u.latch = s.latch
  data : u.body.data = Data.reset
  flash : u.body.flash = s.body.flash
  cause : u.body.md.latchTherm = s.body.md.latchTherm
  mg : u.body.mg = Mgmt.reset

theorem Starts.facts {s u : State} (h : Starts s u) : u.body.md.state = 1 ∧ u.body.md.step = 1 ∧ u.body.md.slotId = s.body.md.slotPins ∧
    u.body.md.pwrEn = true ∧ u.body.md.thermtrip = false ∧ u.alm = Almanac.reset ∧ u.latch = s.latch ∧ u.body.data = Data.reset ∧
    u.body.flash = s.body.flash ∧ u.body.md.latchTherm = s.body.md.latchTherm ∧ u.body.mg = Mgmt.reset :=
  ⟨h.state, h.step, h.slot, h.pwrEn, h.therm, h.alm, h.latch, h.data, h.flash, h.cause, h.mg⟩

theorem pwrEn_waits {s : State} (h : s.body.md.pwrEn = false) (hp : s.body.md.p3v3 = false ∨ s.body.md.oscOk = false) :
    Leaves .modPwrEnRise s (s.setMd { s.body.md with pwrEn := true }) := by
  refine leaves_of_run (show _ = execModPwrEnRise s from rfl) ?_
  dsimp only
  rw [h, if_neg Bool.false_ne_true, if_neg]
  rw [Bool.and_eq_true]
  rintro ⟨h3, ho⟩
  rcases hp with hp | hp
  · rw [hp] at h3
    cases h3
  · rw [hp] at ho
    cases ho

theorem pwrEn_starts {s : State} (h : s.body.md.pwrEn = false) (h3 : s.body.md.p3v3 = true) (ho : s.body.md.oscOk = true) :
    Makes .modPwrEnRise s (Starts s) := by
  refine makes_of_run (show _ = execModPwrEnRise s from rfl) ?_
  dsimp only
  rw [h, if_neg Bool.false_ne_true, h3, ho, if_pos (by decide)]
  exact ⟨rfl, rfl, rfl, rfl, rfl, rfl, rfl, rfl, rfl, rfl, rfl⟩

theorem oscillator_ignored {s : State} (h : s.body.md.p3v3 = false ∨ s.body.md.oscOk = true) : Leaves .oscillatorStartupDone s s := by
  refine leaves_of_run (show _ = execOscillatorStartupDone s from rfl) (if_neg ?_)
  rw [Bool.and_eq_true, Bool.not_eq_true']
  rintro ⟨h3, ho⟩
  rcases h with h | h
  · rw [h] at h3
    cases h3
  · rw [h] at ho
    cases ho

theorem oscillator_started {s : State} (h3 : s.body.md.p3v3 = true) (ho : s.body.md.oscOk = false) :
    (s.body.md.pwrEn = false → Leaves .oscillatorStartupDone s (s.setMd { s.body.md with oscOk := true })) ∧
    (s.body.md.pwrEn = true → Makes .oscillatorStartupDone s fun u => Starts s u ∧ u.body.md.oscOk = true) := by
  refine ⟨fun h => leaves_of_run (show _ = execOscillatorStartupDone s from rfl) ?_,
    fun h => makes_of_run (show _ = execOscillatorStartupDone s from rfl) ?_⟩
  · dsimp only
    rw [h3, ho, if_pos (by decide), h, if_neg Bool.false_ne_true]
  · dsimp only
    rw [h3, ho, if_pos (by decide), if_pos h]
    exact ⟨⟨rfl, rfl, rfl, h, rfl, rfl, rfl, rfl, rfl, rfl, rfl⟩, rfl⟩

/-! ### The reference clock -/

theorem refclk_lost {s : State} {ppm : Nat} (h : s.body.md.refclk = true) (hs : s.body.md.state ≠ 0) : Makes (.refclkLoss ppm) s fun u =>
    u.body.md = { s.body.md with refclk := false, refLost := s.alm.beat } ∧ u.body.host.ha.up = false ∧ u.body.host.hb.up = false ∧
    ⟨0x070F, 0, [(s.alm.beat, 0), (ppm, 0)], none⟩ ∈ u.body.data.posts ∧ u.body.mg = s.body.mg := by
  refine makes_of_run (show _ = execRefclkLoss ppm s from rfl) ?_
  dsimp only
  rw [h, if_neg (by decide), if_neg hs]
  have h₁ := portDown_driven (s.setMd { s.body.md with refclk := false, refLost := s.alm.beat }) .ha 4
  have h₂ := portDown_driven (portDown (s.setMd { s.body.md with refclk := false, refLost := s.alm.beat }) .ha 4) .hb 4
  have ha : _ = (s.body.host.port .ha).down := (h₁.port .ha).trans (HostSt.portGone_port s.body.host .ha)
  have hb := (h₂.port .hb).trans (HostSt.portGone_port _ .hb)
  have hk := (h₂.port .ha).trans (HostSt.portGone_port_ne _ (by decide))
  refine ⟨h₂.md.trans h₁.md, ?_, congrArg HostPortSt.up hb, List.mem_append_right _ ?_, h₂.mg.trans h₁.mg⟩
  · exact (congrArg HostPortSt.up hk).trans (congrArg HostPortSt.up ha)
  · exact List.mem_singleton_self _

theorem refclk_restored {s : State} (h : s.body.md.refclk = false) (hs : s.body.md.state ≠ 0) : Leaves .refclkRestore s
    ((s.setMd { s.body.md with refclk := true }).post 0x0710 0 [(s.alm.beat, 0), (s.alm.beat - s.body.md.refLost, 0)]) := by
  refine leaves_of_run (show _ = execRefclkRestore s from rfl) ?_
  dsimp only
  rw [h, if_neg Bool.false_ne_true, if_neg hs]
  rfl

/-- Settles O48: a rail that goes leaves what `Body.off` leaves, and a module reset begins from there. -/
theorem supplies : Obligations.Supplies := by
  unfold Obligations.Supplies
  have hf {b : Bool} (h : b = false) : ¬b = true := by rw [h]; exact Bool.false_ne_true
  refine ⟨fun s mv => uv_ignored, fun s mv => uv_warned, uv_recovery, ⟨fun s => ⟨fun h => ?_, fun hi hs => ?_⟩, fun s mv => ⟨fun h => ?_, fun h => ?_⟩,
    fun s => ⟨fun h => ?_, fun h => ?_⟩, fun s => ⟨fun h => ?_, fun h hs => ?_⟩, fun s => ⟨fun h => ?_, pwrEn_waits, fun h h3 ho => ?_⟩,
    fun s => ⟨oscillator_ignored, fun h3 ho => (oscillator_started h3 ho).1, fun h3 ho h => ?_⟩⟩, fun s => ⟨fun h => ?_, fun h => ?_⟩,
    fun s ppm => ⟨fun h => ?_, refclk_lost⟩, fun s => ⟨fun h => ?_, refclk_restored⟩⟩
  · refine leaves_of_run (show _ = execInputRegStop s from rfl) (if_pos ?_)
    rw [h, Bool.not_false]
  · exact (input_stopped hi hs).mono fun u hu => ⟨hu.1.facts, hu.2⟩
  · exact leaves_of_run (show _ = execInputOvervoltage mv s from rfl) (if_pos h)
  · refine (input_over h).mono fun u hu => ⟨hu.1, fun hs => (hu.2.1 hs).facts, fun h3 => ?_⟩
    rw [hu.2.2, if_pos h3]
    exact over_peak ..
  · refine leaves_of_run (show _ = execP3v3SbLoss s from rfl) (if_pos ?_)
    rw [h, Bool.not_false]
  · exact (standby_lost h).mono fun u hu => ⟨hu.1.facts, hu.2⟩
  · exact leaves_of_run (show _ = execModPwrEnFall s from rfl) (if_neg (hf h))
  · exact (pwrEn_fell h hs).mono fun u hu => ⟨hu.1.facts, hu.2⟩
  · exact leaves_of_run (show _ = execModPwrEnRise s from rfl) (if_pos h)
  · exact (pwrEn_starts h h3 ho).mono fun u hu => hu.facts
  · exact ((oscillator_started h3 ho).2 h).mono fun u hu => ⟨hu.1.facts, hu.2⟩
  · exact leaves_of_run (show _ = execP3v3SbApply s from rfl) (if_pos h)
  · exact leaves_of_run (show _ = execP3v3SbApply s from rfl) (if_neg (hf h))
  · refine leaves_of_run (show _ = execRefclkLoss ppm s from rfl) (if_pos ?_)
    rw [h, Bool.not_false]
  · exact leaves_of_run (show _ = execRefclkRestore s from rfl) (if_pos h)

end Sys2Proof.Machine
end

section
/-! Units that leave service: dies, channels, slices and I/O dies; phases and droop. -/

namespace Sys2Proof.Machine

/-! ### Sets kept as sorted lists -/

theorem mem_sadd {l : List Nat} {x y : Nat} : y ∈ sadd l x ↔ y = x ∨ y ∈ l := by
  induction l with
  | nil => simp [sadd]
  | cons a l ih =>
    unfold sadd
    split
    · exact List.mem_cons
    · split
      · next h =>
        subst h
        simp
      · rw [List.mem_cons, List.mem_cons, ih]
        tauto

theorem mem_foldl_sadd {l m : List Nat} {x : Nat} : x ∈ l.foldl sadd m ↔ x ∈ l ∨ x ∈ m := by
  induction l generalizing m with
  | nil => simp
  | cons y l ih =>
    rw [List.foldl_cons, ih, mem_sadd, List.mem_cons]
    tauto

/-! ### The end of thread blocks -/

theorem Data.Driven.of_atHome {d e : Data} (h : d.AtHome e) : d.fabricBut e := by
  have := congrArg (fun k : Data => { k with
    fills := d.fills, nextId := d.nextId, dieBar := d.dieBar, pkgBar := d.pkgBar, engines := d.engines, launches := d.launches, posts := d.posts
    abortPend := d.abortPend, free := d.free }) h
  exact this

theorem Data.AtHome.posts {d e : Data} (h : d.AtHome e) : e.posts = d.posts := by
  have := congrArg Data.posts h
  exact this

/-- What the end of thread blocks on a die's cores leaves of the units: they stay as they are, but for frames that are retired and
that die's own cores. -/
structure Data.BlocksEnd (die : Nat) (d d' : Data) : Prop where
  posts : d.posts <+: d'.posts
  dies : d'.dieOut = d.dieOut
  chans : d'.chanOut = d.chanOut
  engs : d'.engOut = d.engOut
  slices : d'.slices = d.slices
  halted : d'.halted = d.halted
  frames : ∀ f ∈ d.frameOut, f ∈ d'.frameOut
  cores : ∀ c, c / 84 ≠ die → mget d'.coreSt c = mget d.coreSt c

namespace Data.BlocksEnd

variable {die : Nat}

theorem refl (d : Data) : d.BlocksEnd die d := ⟨List.prefix_rfl, rfl, rfl, rfl, rfl, rfl, fun _ h => h, fun _ _ => rfl⟩

theorem trans {a b c : Data} (h : a.BlocksEnd die b) (k : b.BlocksEnd die c) : a.BlocksEnd die c :=
  ⟨h.posts.trans k.posts, k.dies.trans h.dies, k.chans.trans h.chans, k.engs.trans h.engs, k.slices.trans h.slices, k.halted.trans h.halted,
    fun f hf => k.frames f (h.frames f hf), fun c hc => (k.cores c hc).trans (h.cores c hc)⟩

theorem foldl {β : Type} {f : Data → β → Data} {l : List β} (h : ∀ (d : Data), ∀ y ∈ l, d.BlocksEnd die (f d y)) (d : Data) :
    d.BlocksEnd die (l.foldl f d) := by
  induction l generalizing d with
  | nil => exact refl _
  | cons y l ih => exact (h d y List.mem_cons_self).trans (ih (fun d z hz => h d z (List.mem_cons_of_mem _ hz)) _)

theorem of_fabricBut {d d' : Data} (h : d.fabricBut d') (hp : d.posts <+: d'.posts) : d.BlocksEnd die d' := by
  have h₁ : d'.dieOut = d.dieOut := by
    have := congrArg Data.dieOut h
    exact this
  have h₂ : d'.chanOut = d.chanOut := by
    have := congrArg Data.chanOut h
    exact this
  have h₃ : d'.engOut = d.engOut := by
    have := congrArg Data.engOut h
    exact this
  have h₄ : d'.slices = d.slices := by
    have := congrArg Data.slices h
    exact this
  have h₅ : d'.halted = d.halted := by
    have := congrArg Data.halted h
    exact this
  have h₆ : d'.frameOut = d.frameOut := by
    have := congrArg Data.frameOut h
    exact this
  have h₇ : d'.coreSt = d.coreSt := by
    have := congrArg Data.coreSt h
    exact this
  exact ⟨hp, h₁, h₂, h₃, h₄, h₅, fun f hf => h₆ ▸ hf, fun c _ => by rw [h₇]⟩

theorem of_driven {d d' : Data} (h : d.Driven d') : d.BlocksEnd die d' := of_fabricBut h.rest h.posts

theorem post (d : Data) (code unit : Nat) (fs : List (Nat × Nat)) : d.BlocksEnd die (d.post code unit fs) :=
  of_driven ⟨rfl, List.prefix_append _ _⟩

theorem flushFrames (d : Data) (fs : List Nat) : d.BlocksEnd die (d.flushFrames fs) := by
  have h (l : List Nat) : d.BlocksEnd die (l.foldl (fun d i => match d.req i with
      | some r => match r.tgt, r.pre with
        | .local p, none => applyReq d p r
        | _, some st => d.setReq { r with stage := st }
        | _, none => d
      | none => d) d) := by
    refine foldl (fun d i _ => ?_) d
    split
    · split
      · next p _ _ =>
        have ha := AtHome.applyReq d p ‹_›
        exact of_fabricBut (Data.Driven.of_atHome ha) (ha.posts ▸ List.prefix_rfl)
      · exact of_driven ⟨rfl, List.prefix_rfl⟩
      · exact refl _
    · exact refl _
  exact (h _).trans (of_driven ⟨rfl, List.prefix_rfl⟩)

theorem clearFrames (d : Data) (fs : List Nat) : d.BlocksEnd die (d.clearFrames fs) := by
  have h := flushFrames (die := die) d fs
  exact ⟨h.posts, h.dies, h.chans, h.engs, h.slices, h.halted, fun f hf => mem_foldl_sadd.2 (.inr (h.frames f hf)), h.cores⟩

theorem released (d : Data) (kind plot id base : Nat) : d.BlocksEnd die (d.released kind plot id base) := post ..

theorem of_parts {d d' : Data} (hp : d.posts <+: d'.posts) (h₁ : d'.dieOut = d.dieOut) (h₂ : d'.chanOut = d.chanOut) (h₃ : d'.engOut = d.engOut)
    (h₄ : d'.slices = d.slices) (h₅ : d'.halted = d.halted) (h₆ : d'.frameOut = d.frameOut) (h₇ : d'.coreSt = d.coreSt) : d.BlocksEnd die d' :=
  ⟨hp, h₁, h₂, h₃, h₄, h₅, fun f hf => h₆ ▸ hf, fun c _ => by rw [h₇]⟩

theorem same {d d' : Data} (hp : d'.posts = d.posts) (h₁ : d'.dieOut = d.dieOut) (h₂ : d'.chanOut = d.chanOut) (h₃ : d'.engOut = d.engOut)
    (h₄ : d'.slices = d.slices) (h₅ : d'.halted = d.halted) (h₆ : d'.frameOut = d.frameOut) (h₇ : d'.coreSt = d.coreSt) : d.BlocksEnd die d' :=
  of_parts (hp ▸ List.prefix_rfl) h₁ h₂ h₃ h₄ h₅ h₆ h₇

theorem releaseOne {d d' : Data} (h : d.releaseOne = some d') : d.BlocksEnd die d' := by
  unfold Data.releaseOne at h
  split at h
  · next n g _ =>
    cases h
    have hs : d.BlocksEnd die { d with graphs := mdel d.graphs n } := same rfl rfl rfl rfl rfl rfl rfl rfl
    exact (hs.trans (clearFrames ..)).trans (released ..)
  split at h
  · next n p _ =>
    cases h
    have hs : d.BlocksEnd die { d with pigeons := mput d.pigeons n { p with queue := none } } := same rfl rfl rfl rfl rfl rfl rfl rfl
    exact hs.trans (released ..)
  split at h
  · next n p _ =>
    cases h
    have hs : d.BlocksEnd die { d with pigeons := mdel d.pigeons n } := same rfl rfl rfl rfl rfl rfl rfl rfl
    exact hs.trans (released ..)
  split at h
  · next n c _ =>
    cases h
    have hs : d.BlocksEnd die { d with ctxs := mput d.ctxs n { c with released := true } } := same rfl rfl rfl rfl rfl rfl rfl rfl
    exact hs.trans (released ..)
  split at h
  · cases h
    exact same rfl rfl rfl rfl rfl rfl rfl rfl
  split at h
  · next n e _ =>
    cases h
    have hs : d.BlocksEnd die { d with events := mdel d.events n } := same rfl rfl rfl rfl rfl rfl rfl rfl
    exact hs.trans (released ..)
  split at h
  · next o _ =>
    cases h
    have hs : d.BlocksEnd die { d with objs := d.objs.filter fun q => q.base != o.base, apertures := d.apertures.filter fun x => x.2.1 != o.base } :=
      same rfl rfl rfl rfl rfl rfl rfl rfl
    exact (hs.trans (clearFrames ..)).trans (released ..)
  split at h
  · next o _ =>
    cases h
    have hs : d.BlocksEnd die { d with hws := d.hws.filter fun q => q.base != o.base } := same rfl rfl rfl rfl rfl rfl rfl rfl
    exact hs.trans (released ..)
  · cases h

theorem reap (d : Data) : d.BlocksEnd die d.reap := by
  unfold Data.reap
  generalize 2 * d.graphs.length + 3 * d.pigeons.length + 2 * d.ctxs.length + d.events.length + d.objs.length + d.hws.length + 1 = n
  induction n generalizing d with
  | zero => exact refl _
  | succ n ih =>
    rw [reapN]
    split
    · next d' h => exact (releaseOne h).trans (ih d')
    · exact refl _

theorem handNotices (d : Data) (id : Nat) : d.BlocksEnd die (d.handNotices id) := by
  unfold Data.handNotices
  split
  · exact refl _
  · next l _ =>
    have h := foldl (die := die) (f := fun d r => d.holdRec l.ctx id r) (l := l.nanNotice.toList ++ l.satNotice.toList)
      (fun d r _ => same rfl rfl rfl rfl rfl rfl rfl rfl) d
    exact h.trans (same rfl rfl rfl rfl rfl rfl rfl rfl)

theorem dropTail (d : Data) (id : Nat) : d.BlocksEnd die (d.dropTail id) := by
  unfold Data.dropTail
  split
  · exact refl _
  · exact (handNotices d id).trans (same rfl rfl rfl rfl rfl rfl rfl rfl)

theorem retireIfEmpty (d : Data) {c : Nat} (hc : c / 84 = die) : d.BlocksEnd die (d.retireIfEmpty c) := by
  unfold Data.retireIfEmpty
  split
  · exact refl _
  · dsimp only
    split
    · refine trans ?_ (post ..)
      refine ⟨List.prefix_rfl, rfl, rfl, rfl, rfl, rfl, fun f hf => hf, fun k hk => ?_⟩
      refine mget_mput_ne _ _ _ _ ?_
      rintro rfl
      exact hk hc
    · exact refl _

theorem endBlock (d : Data) {c : Nat} (hc : c / 84 = die) (bs : Nat) : d.BlocksEnd die (d.endBlock c bs) := by
  unfold Data.endBlock
  dsimp only
  split
  · exact refl _
  · refine trans ?_ (reap _)
    refine trans ?_ (retireIfEmpty _ hc)
    refine trans ?_ (of_driven (Data.Driven.progress ..))
    refine trans ?_ (dropTail ..)
    exact same rfl rfl rfl rfl rfl rfl rfl rfl

theorem abortBlock (d : Data) {c : Nat} (hc : c / 84 = die) (bs : Nat) : d.BlocksEnd die (abortBlock d c bs) := by
  unfold Machine.abortBlock
  split
  · exact refl _
  · refine trans ?_ (endBlock _ hc bs)
    exact same rfl rfl rfl rfl rfl rfl rfl rfl

end Data.BlocksEnd

/-! ### Units that leave service -/

/-- What a unit that leaves service leaves of the state: the Almanac, the latch, the queue, power, the module and the log; no unit
comes back, and no record is taken away. -/
structure Outage (s u : State) : Prop where
  state : u = s.setBody u.body
  body : { u.body with
    data := s.body.data, mg := s.body.mg, host := s.body.host, fab := s.body.fab, hl := s.body.hl, flash := s.body.flash } = s.body
  flash : { u.body.flash with channels := s.body.flash.channels, slices := s.body.flash.slices } = s.body.flash
  posts : s.body.data.posts <+: u.body.data.posts
  halted : u.body.data.halted = s.body.data.halted
  dies : ∀ i ∈ s.body.data.dieOut, i ∈ u.body.data.dieOut
  chans : ∀ i ∈ s.body.data.chanOut, i ∈ u.body.data.chanOut
  frames : ∀ i ∈ s.body.data.frameOut, i ∈ u.body.data.frameOut
  engs : ∀ i ∈ s.body.data.engOut, i ∈ u.body.data.engOut
  slices : ∀ k, mgetD s.body.data.slices k .inService = .out → mgetD u.body.data.slices k .inService = .out
  cores : ∀ c, s.body.data.coreState c = .off → u.body.data.coreState c = .off

namespace Outage

theorem refl (s : State) : Outage s s :=
  ⟨rfl, rfl, rfl, List.prefix_rfl, rfl, fun _ h => h, fun _ h => h, fun _ h => h, fun _ h => h, fun _ h => h, fun _ h => h⟩

theorem trans {a b c : State} (h : Outage a b) (k : Outage b c) : Outage a c := by
  refine ⟨?_, ?_, ?_, h.posts.trans k.posts, k.halted.trans h.halted, fun i hi => k.dies i (h.dies i hi), fun i hi => k.chans i (h.chans i hi),
    fun i hi => k.frames i (h.frames i hi), fun i hi => k.engs i (h.engs i hi), fun i hi => k.slices i (h.slices i hi),
    fun i hi => k.cores i (h.cores i hi)⟩
  · have := congrArg (fun s : State => s.setBody c.body) h.state
    exact k.state.trans this
  · have := congrArg (fun b : Body => { b with
      data := a.body.data, mg := a.body.mg, host := a.body.host, fab := a.body.fab, hl := a.body.hl, flash := a.body.flash }) k.body
    exact this.trans h.body
  · have := congrArg (fun f : Flash => { f with channels := a.body.flash.channels, slices := a.body.flash.slices }) k.flash
    exact this.trans h.flash

theorem foldl {β : Type} {f : State → β → State} (h : ∀ (s : State) y, Outage s (f s y)) (l : List β) (s : State) : Outage s (l.foldl f s) := by
  induction l generalizing s with
  | nil => exact refl _
  | cons y l ih => exact (h s y).trans (ih _)

/-- Nothing of the units changes. -/
theorem of_units {s : State} {b : Body}
    (hb : { b with data := s.body.data, mg := s.body.mg, host := s.body.host, fab := s.body.fab, hl := s.body.hl } = s.body)
    (hd : s.body.data.fabricBut b.data) (hp : s.body.data.posts <+: b.data.posts) : Outage s (s.setBody b) := by
  have h₁ : b.data.dieOut = s.body.data.dieOut := by
    have := congrArg Data.dieOut hd
    exact this
  have h₂ : b.data.chanOut = s.body.data.chanOut := by
    have := congrArg Data.chanOut hd
    exact this
  have h₃ : b.data.engOut = s.body.data.engOut := by
    have := congrArg Data.engOut hd
    exact this
  have h₄ : b.data.slices = s.body.data.slices := by
    have := congrArg Data.slices hd
    exact this
  have h₅ : b.data.halted = s.body.data.halted := by
    have := congrArg Data.halted hd
    exact this
  have h₆ : b.data.frameOut = s.body.data.frameOut := by
    have := congrArg Data.frameOut hd
    exact this
  have h₇ : b.data.coreSt = s.body.data.coreSt := by
    have := congrArg Data.coreSt hd
    exact this
  have h₈ : b.flash = s.body.flash := by
    have := congrArg Body.flash hb
    exact this
  have hb' := congrArg (fun x : Body => { x with flash := s.body.flash }) hb
  refine ⟨rfl, hb', by rw [show (s.setBody b).body.flash = s.body.flash from h₈], hp, h₅, fun i hi => ?_, fun i hi => ?_, fun i hi => ?_, fun i hi => ?_, fun k hk => ?_, fun c hc => ?_⟩
  · show i ∈ b.data.dieOut
    rwa [h₁]
  · show i ∈ b.data.chanOut
    rwa [h₂]
  · show i ∈ b.data.frameOut
    rwa [h₆]
  · show i ∈ b.data.engOut
    rwa [h₃]
  · show mgetD b.data.slices k .inService = .out
    rwa [h₄]
  · show b.data.coreState c = .off
    unfold Data.coreState at *
    rwa [h₁, h₇]

theorem of_driven {s : State} {b b' : Body} (hb : { s.body with data := b.data, mg := b.mg, host := b.host, fab := b.fab, hl := b.hl } = b)
    (hd : b.data = s.body.data) (h : b.Driven b') : Outage s (s.setBody b') := by
  refine of_units ?_ (hd ▸ h.data.rest) (hd ▸ h.data.posts)
  have hr := congrArg (fun x : Body => { x with
    data := s.body.data, mg := s.body.mg, host := s.body.host, fab := s.body.fab, hl := s.body.hl }) (h.rest.trans hb.symm)
  exact hr

theorem post (s : State) (code unit : Nat) (fs : List (Nat × Nat)) : Outage s (s.post code unit fs) :=
  of_driven (b := s.body) rfl rfl (Body.Driven.post ..)

theorem portDown (s : State) (p : HostPort) (cause : Nat) : Outage s (portDown s p cause) := by
  rw [portDown_state]
  exact of_driven (b := { s.body with host := s.body.host.portGone p }) rfl rfl (portDown_driven s p cause)

theorem linkDown (s : State) (k reason : Nat) : Outage s (linkDown s k reason) := by
  rw [linkDown_eq]
  exact of_driven (b := s.body.setLink k (s.body.fab.link k).down) rfl rfl (linkDown_driven s k reason)

variable {s u : State}

theorem alm (h : Outage s u) : u.alm = s.alm := by
  have := congrArg State.alm h.state
  exact this

theorem latch (h : Outage s u) : u.latch = s.latch := by
  have := congrArg State.latch h.state
  exact this

theorem md (h : Outage s u) : u.body.md = s.body.md := by
  have := congrArg Body.md h.body
  exact this

theorem pw (h : Outage s u) : u.body.pw = s.body.pw := by
  have := congrArg Body.pw h.body
  exact this

theorem log (h : Outage s u) : u.body.log = s.body.log := by
  have := congrArg Body.log h.body
  exact this

theorem mem_posts (h : Outage s u) {p : Post} (hp : p ∈ s.body.data.posts) : p ∈ u.body.data.posts := h.posts.subset hp

end Outage

/-! ### Compute dies -/

/-- The data plane once a compute die has left it, before its engines' descriptors end. -/
def Data.dieGone (d : Data) (die : Nat) : Data :=
  let d := (dieBlocks d die).foldl (fun (d : Data) x => abortBlock d x.1 x.2) d
  failFills { d with
    dieOut := sadd d.dieOut die
    cores := mfilter d.cores fun c _ => c / 84 != die
    retiring := mfilter d.retiring fun c _ => c / 84 != die
    plots := mmap d.plots fun _ (p : Plot) => { p with cores := p.cores.filter fun c => c / 84 != die }
    copies := mfilter d.copies fun _ c => c.die != die
    reqs := d.reqs.filter fun r => !(r.rem.isNone && r.die == die)
    cellar := mfilter d.cellar fun l _ => physDie (l * 128) != die } fun p => physDie p == die

/-- Every descriptor of some engines ends with a status. -/
def Body.enginesKilled (b : Body) (beat status : Nat) (l : List Nat) : Body := l.foldl (fun (b : Body) n => killEngine b beat n status) b

theorem enginesKilled_driven (b : Body) (beat status : Nat) (l : List Nat) : b.Driven (b.enginesKilled beat status l) :=
  Body.Driven.foldl id (fun b n => Body.Driven.killEngine b beat n status) l b

/-- The units of a compute die that have passes. -/
def ofDie (die k : Nat) : Bool := (k / 2 ^ 16 == 1 || k / 2 ^ 16 == 2 || (k / 2 ^ 16 == 4 && k % 2 ^ 16 / 16 % 16 < 2)) && k % 16 == die

/-- A die leaves, and takes with it its engines' descriptors, and the passes of its units. -/
def Body.dieKilled (b : Body) (beat die : Nat) : Body :=
  let b' := { b with data := b.data.dieGone die }.enginesKilled beat 2 ((List.range 16).map fun i => 16 * die + i)
  { b' with hl := b'.hl.forget (ofDie die) }

theorem dieOut_eq (s : State) (die cause : Nat) : dieOut s die cause =
    if s.body.data.dieOut.contains die then s
    else s.setBody
      (if cause = 1 then (s.body.dieKilled s.alm.beat die).post 0x0603 (8 + 256 * die)
        [(die, 0), ((s.body.data.cores.map fun c => if c.1 / 84 = die then c.2.groups.length else 0).sum, 0),
          ((((dieBlocks s.body.data die).filterMap fun x => (mget (s.body.data.core x.1).blocks x.2).map fun k => k.launch).eraseDups).length, 0)]
      else (s.body.dieKilled s.alm.beat die).post 0x0705 (2 + 256 * die)
        [(die, 0), (cause, 0), ((s.body.data.cores.map fun c => if c.1 / 84 = die then c.2.groups.length else 0).sum, 0),
          ((((dieBlocks s.body.data die).filterMap fun x => (mget (s.body.data.core x.1).blocks x.2).map fun k => k.launch).eraseDups).length, 0)]) := by
  unfold Body.dieKilled Body.enginesKilled
  rw [List.foldl_map]
  rfl

theorem mem_dieBlocks {d : Data} {die : Nat} {x : Nat × Nat} (h : x ∈ dieBlocks d die) : x.1 / 84 = die := by
  obtain ⟨c, _, hc⟩ := List.mem_flatMap.1 h
  split at hc
  · next hd =>
    obtain ⟨b, _, rfl⟩ := List.mem_map.1 hc
    exact hd
  · cases hc

theorem dieGone_dieOut (d : Data) (die i : Nat) : i ∈ (d.dieGone die).dieOut ↔ i = die ∨ i ∈ d.dieOut := by
  have h := Data.BlocksEnd.foldl (die := die) (fun d x hx => Data.BlocksEnd.abortBlock d (mem_dieBlocks hx) x.2) d (l := dieBlocks d die)
  refine mem_sadd.trans ?_
  rw [h.dies]

theorem dieGone_plots {d : Data} {die n : Nat} {p : Plot} (h : mget (d.dieGone die).plots n = some p) : ∀ c ∈ p.cores, c / 84 ≠ die := by
  have h' : (mget (mmap ((dieBlocks d die).foldl (fun (d : Data) x => abortBlock d x.1 x.2) d).plots fun _ (p : Plot) =>
    { p with cores := p.cores.filter fun c => c / 84 != die }) n) = some p := h
  rw [mget_mmap] at h'
  obtain ⟨q, _, rfl⟩ := Option.map_eq_some_iff.1 h'
  intro c hc
  have := (List.mem_filter.1 hc).2
  simpa using this

theorem Body.Driven.of_hl (b : Body) (h : Health) : b.Driven { b with hl := h } := ⟨rfl, .refl _, rfl, List.prefix_rfl, rfl, fun _ => rfl⟩

theorem dieKilled_driven (b : Body) (beat die : Nat) : ({ b with data := b.data.dieGone die } : Body).Driven (b.dieKilled beat die) := by
  exact (enginesKilled_driven { b with data := b.data.dieGone die } beat 2 _).trans (Body.Driven.of_hl ..)

theorem dieOut_driven {s : State} {die : Nat} (h : die ∉ s.body.data.dieOut) (cause : Nat) :
    ({ s.body with data := s.body.data.dieGone die } : Body).Driven (dieOut s die cause).body := by
  rw [dieOut_eq, if_neg (by simpa using h)]
  refine (dieKilled_driven s.body s.alm.beat die).trans ?_
  show Body.Driven _ (ite _ _ _)
  split
  · exact Body.Driven.post ..
  · exact Body.Driven.post ..

theorem dieOut_state (s : State) (die cause : Nat) : dieOut s die cause = s.setBody (dieOut s die cause).body := by
  rw [dieOut_eq]
  split
  · rfl
  · rfl

theorem mem_dieOut_dieOut (s : State) (die cause : Nat) : die ∈ (dieOut s die cause).body.data.dieOut := by
  by_cases h : die ∈ s.body.data.dieOut
  · rw [dieOut_eq, if_pos (by simpa using h)]
    exact h
  · have hd := congrArg Data.dieOut (dieOut_driven h cause).data.rest
    have hm := (dieGone_dieOut s.body.data die die).2 (.inl rfl)
    rw [← show (dieOut s die cause).body.data.dieOut = (s.body.data.dieGone die).dieOut from hd] at hm
    exact hm

theorem dieGone_outage {s : State} (die : Nat) : Outage s (s.setBody { s.body with data := s.body.data.dieGone die }) := by
  have h := Data.BlocksEnd.foldl (die := die) (fun d x hx => Data.BlocksEnd.abortBlock d (mem_dieBlocks hx) x.2) s.body.data
    (l := dieBlocks s.body.data die)
  refine ⟨rfl, rfl, rfl, h.posts, h.halted, fun i hi => (dieGone_dieOut ..).2 (.inr hi), fun i hi => h.chans.symm ▸ hi, h.frames,
    fun i hi => h.engs.symm ▸ hi, fun k hk => ?_, fun c hc => ?_⟩
  · refine Eq.trans ?_ hk
    exact congrArg (fun m => mgetD m k SliceState.inService) h.slices
  · unfold Data.coreState at hc ⊢
    by_cases hd : 672 ≤ c ∨ s.body.data.dieOut.contains (c / 84) = true ∨ c / 84 = die
    · rw [if_pos]
      rcases hd with hd | hd | hd
      · exact .inl hd
      · exact .inr (List.contains_iff_mem.2 ((dieGone_dieOut ..).2 (.inr (List.contains_iff_mem.1 hd))))
      · exact .inr (List.contains_iff_mem.2 ((dieGone_dieOut ..).2 (.inl hd)))
    · rw [not_or, not_or] at hd
      obtain ⟨h₁, h₂, h₃⟩ := hd
      rw [if_neg (by tauto)] at hc
      split
      · rfl
      · refine Eq.trans ?_ hc
        exact congrArg (fun o => Option.getD o CoreState.full) (h.cores c h₃)

theorem Outage.dieOut (s : State) (die cause : Nat) : Outage s (dieOut s die cause) := by
  by_cases h : die ∈ s.body.data.dieOut
  · rw [dieOut_eq, if_pos (by simpa using h)]
    exact refl s
  · rw [dieOut_state]
    exact (dieGone_outage die).trans (of_driven (s := s.setBody { s.body with data := s.body.data.dieGone die }) rfl rfl (dieOut_driven h cause))

/-! ### Channels and slices -/

/-- The state once a channel has left, before its die does. -/
def chanGone (s : State) (ch : Nat) : State :=
  let b := s.body
  let mine (l : Nat) : Bool := decide (l * 128 < 2 ^ 39) && physChan (l * 128) == ch
  let dirty := (b.data.cellar.filter fun e => mine e.1 && e.2.dirty).length
  let d := failFills { b.data with
    chanOut := sadd b.data.chanOut ch
    cellar := mfilter b.data.cellar fun l _ => !mine l
    channels := mdel b.data.channels ch } fun p => decide (p < 2 ^ 39) && physChan p == ch
  s.setBody { b with data := d.post 0x0204 (5 + 256 * ch) [(ch, 0), (dirty, 0)], flash := { b.flash with channels := sadd b.flash.channels ch } }

theorem chanRetire_eq (s : State) (ch : Nat) : chanRetire s ch =
    if s.body.data.chanOut.contains ch then s
    else if 16 < ((chanGone s ch).body.data.chanOut.filter fun c => c / 64 == ch / 64).length then dieOut (chanGone s ch) (ch / 64) 2
    else chanGone s ch := rfl

theorem Outage.chanGone (s : State) (ch : Nat) : Outage s (chanGone s ch) :=
  ⟨rfl, rfl, rfl, List.prefix_append _ _, rfl, fun _ h => h, fun _ h => mem_sadd.2 (.inr h), fun _ h => h, fun _ h => h, fun _ h => h, fun _ h => h⟩

theorem Outage.chanRetire (s : State) (ch : Nat) : Outage s (chanRetire s ch) := by
  rw [chanRetire_eq]
  split
  · exact refl s
  · split
    · exact (chanGone s ch).trans (dieOut ..)
    · exact chanGone s ch

theorem mem_chanRetire (s : State) (ch : Nat) : ch ∈ (chanRetire s ch).body.data.chanOut := by
  have hc : ch ∈ (chanGone s ch).body.data.chanOut := mem_sadd.2 (.inl rfl)
  rw [chanRetire_eq]
  split
  · next h => exact List.contains_iff_mem.1 h
  · split
    · exact (Outage.dieOut ..).chans ch hc
    · exact hc

/-- The state once a slice has left, before its die does. -/
def sliceGone (s : State) (k : Nat) : State :=
  let b := s.body
  let d := { b.data with slices := mput b.data.slices k .out }
  s.setBody { b with data := retiredPost d 2 (unitCode (.slice (k / 56) (k % 56))) 2 413, flash := { b.flash with slices := sadd b.flash.slices k } }

theorem sliceRetire_eq (s : State) (k : Nat) : sliceRetire s k =
    if ((List.range 56).filter fun n => sliceUp (sliceGone s k).body.data (56 * (k / 56) + n)).length < 8 then dieOut (sliceGone s k) (k / 56) 3
    else sliceGone s k := rfl

theorem sliceGone_slices (s : State) (k : Nat) : mgetD (sliceGone s k).body.data.slices k .inService = .out := by
  show mgetD (mput s.body.data.slices k SliceState.out) k .inService = .out
  rw [mgetD, mget_mput_self, Option.getD_some]

theorem Outage.sliceGone (s : State) (k : Nat) : Outage s (sliceGone s k) := by
  refine ⟨rfl, rfl, rfl, List.prefix_append _ _, rfl, fun _ h => h, fun _ h => h, fun _ h => h, fun _ h => h, fun j hj => ?_, fun _ h => h⟩
  by_cases h : k = j
  · rw [← h]
    exact sliceGone_slices s k
  · show mgetD (mput s.body.data.slices k SliceState.out) j .inService = .out
    rw [mgetD, mget_mput_ne _ _ _ _ h]
    exact hj

theorem Outage.sliceRetire (s : State) (k : Nat) : Outage s (sliceRetire s k) := by
  rw [sliceRetire_eq]
  split
  · exact (sliceGone s k).trans (dieOut ..)
  · exact sliceGone s k

theorem sliceRetire_slices (s : State) (k : Nat) : mgetD (sliceRetire s k).body.data.slices k .inService = .out := by
  rw [sliceRetire_eq]
  split
  · exact (Outage.dieOut ..).slices k (sliceGone_slices s k)
  · exact sliceGone_slices s k

/-! ### I/O dies -/

theorem stopQueue_blocksEnd (die : Nat) (d : Data) (h cause seq : Nat) : d.BlocksEnd die (d.stopQueue h cause seq) := by
  unfold Data.stopQueue
  split
  · split
    · split
      · exact .of_parts (List.prefix_append _ _) rfl rfl rfl rfl rfl rfl rfl
      · exact .refl _
    · exact .refl _
  · exact .refl _

theorem rebind_blocksEnd (die : Nat) (d : Data) (lo : Nat) : d.BlocksEnd die (rebind d lo).1 := by
  unfold rebind
  refine .foldl (fun d p _ => ?_) d
  have h := stopQueue_blocksEnd die d p.1 3
    (((p.2.queue.bind fun q => q.launch).bind fun i => (mget d.launches i).map fun l => l.seq).getD 0)
  exact h.trans (.same rfl rfl rfl rfl rfl rfl rfl rfl)

/-- The data plane once an I/O die has left it. -/
def Data.sideGone (d : Data) (x : Side) : Data :=
  let d := (rebind d (if x = .north then 0 else 4)).1
  { d with dieOut := sadd d.dieOut (sideDie x) }

/-- The engines of a side's I/O die. -/
@[irreducible] def sideEngines (x : Side) : List Nat := (List.range 8).map fun i => 128 + (if x = .north then 0 else 8) + i

/-- The units of an I/O die that have passes. -/
def ofSide (x : Side) (k : Nat) : Bool :=
  (k / 2 ^ 16 == 3 && decide (k % 2 ^ 16 / 8 = (if x = .north then 0 else 1))) || (k / 2 ^ 16 == 4 && k % 16 == sideDie x)

/-- An I/O die leaves, and takes with it its engines' descriptors, the passes of its units and its Postmaster. -/
def Body.sideKilled (b : Body) (beat : Nat) (x : Side) : Body :=
  let b' := { b with data := b.data.sideGone x }.enginesKilled beat 4 (sideEngines x)
  let standby := pmOf b'.mg x == .standbyReady || pmOf b'.mg x == .syncing
  let b' := { b' with hl := b'.hl.forget (ofSide x) }
  let b' := { b' with mg := setPm b'.mg x .off }
  if standby then b'.post 0x0506 (9 + 256 * (sideCode (some x) - 1)) [(sideCode (some x) - 1, 0)] else b'

/-- The ports of an I/O die's links. -/
@[irreducible] def sidePorts (x : Side) : List Nat := (List.range 8).map (fun i => (if x = .north then 0 else 8) + i) ++ [if x = .north then 16 else 17]

/-- The links of an I/O die are down, and its cable has no power. -/
def sideDark (s : State) (x : Side) : State :=
  let s := (sidePorts x).foldl (fun s k => linkDown s k 0) s
  s.setBody { s.body with fab := { s.body.fab with
    links := mmod s.body.fab.links (if x = .north then 16 else 17) fun l => { l with cablePower := false } } }

/-- The host port of an I/O die. -/
def sideHost (x : Side) : HostPort := if x = .north then .ha else .hb

theorem ioOut_eq (s : State) (x : Side) (cause : Nat) : ioOut s x cause =
    if s.body.data.dieOut.contains (sideDie x) then s
    else (portDown (sideDark (s.setBody (s.body.sideKilled s.alm.beat x)) x) (sideHost x) 5).post 0x0706 (3 + 256 * sideDie x)
      [(sideDie x, 0), (cause, 0), ((rebind s.body.data (if x = .north then 0 else 4)).2, 0),
        (((sideEngines x).map fun n => ((rebind s.body.data (if x = .north then 0 else 4)).1.engine n).running.length +
          ((rebind s.body.data (if x = .north then 0 else 4)).1.engine n).queue.length).sum, 0)] := by
  unfold ioOut sideDark Body.sideKilled ofSide Body.enginesKilled sideEngines sidePorts sideHost Data.sideGone
  dsimp only

theorem Body.Driven.with_mg {b b' : Body} (h : b.Driven b') (m : Mgmt) : ({ b with mg := m } : Body).Driven { b' with mg := m } :=
  ⟨congrArg (fun x : Body => { x with mg := m }) h.rest, h.data, h.host, h.out, h.fab, h.links⟩

theorem Body.Driven.side {b b' : Body} (h : b.Driven b') (x : Side) (l : Health) (c : Bool) (code unit : Nat) (fs : List (Nat × Nat)) :
    ({ b with mg := setPm b.mg x .off } : Body).Driven
      (if c then Body.post { b' with hl := l, mg := setPm b'.mg x .off } code unit fs else { b' with hl := l, mg := setPm b'.mg x .off }) := by
  have hm := (h.with_mg (setPm b.mg x .off)).trans (.of_hl _ l)
  rw [h.mg]
  cases c
  · exact hm
  · exact hm.trans (.post ..)

theorem sideKilled_driven (b : Body) (beat : Nat) (x : Side) :
    ({ b with data := b.data.sideGone x, mg := setPm b.mg x .off } : Body).Driven (b.sideKilled beat x) :=
  (enginesKilled_driven { b with data := b.data.sideGone x } beat 4 (sideEngines x)).side ..

theorem Outage.of_fab (s : State) (f : Fabric) : Outage s (s.setBody { s.body with fab := f }) := of_units rfl rfl List.prefix_rfl

theorem sideGone_outage (s : State) (x : Side) (m : Mgmt) : Outage s (s.setBody { s.body with data := s.body.data.sideGone x, mg := m }) := by
  have h := rebind_blocksEnd 100 s.body.data (if x = .north then 0 else 4)
  have hd (i : Nat) (hi : i ∈ s.body.data.dieOut) : i ∈ (s.body.data.sideGone x).dieOut := mem_sadd.2 (.inr (h.dies.symm ▸ hi))
  refine ⟨rfl, rfl, rfl, h.posts, h.halted, hd, fun i hi => h.chans.symm ▸ hi, h.frames, fun i hi => h.engs.symm ▸ hi, fun k hk => ?_, fun c hc => ?_⟩
  · refine Eq.trans ?_ hk
    exact congrArg (fun m => mgetD m k SliceState.inService) h.slices
  · unfold Data.coreState at hc ⊢
    by_cases hk : 672 ≤ c ∨ s.body.data.dieOut.contains (c / 84) = true
    · rw [if_pos]
      exact hk.imp id fun hk => List.contains_iff_mem.2 (hd _ (List.contains_iff_mem.1 hk))
    · rw [if_neg hk] at hc
      split
      · rfl
      · refine Eq.trans ?_ hc
        exact congrArg (fun o => Option.getD o CoreState.full) (h.cores c (by omega))

theorem Outage.sideKilled (s : State) (x : Side) : Outage s (s.setBody (s.body.sideKilled s.alm.beat x)) :=
  (sideGone_outage s x (setPm s.body.mg x .off)).trans
    (of_driven (s := s.setBody { s.body with data := s.body.data.sideGone x, mg := setPm s.body.mg x .off }) rfl rfl (sideKilled_driven ..))

theorem Outage.sideDark (s : State) (x : Side) : Outage s (sideDark s x) := by
  have h := foldl (fun (s : State) k => linkDown s k 0) (sidePorts x) s
  exact h.trans (of_fab _ _)

theorem Outage.ioOut (s : State) (x : Side) (cause : Nat) : Outage s (ioOut s x cause) := by
  rw [ioOut_eq]
  split
  · exact refl s
  · exact ((sideKilled s x).trans (sideDark ..)).trans ((portDown ..).trans (post ..))

/-! #### What an I/O die's loss does to its side -/

theorem linkDown_mg (s : State) (k r : Nat) : (linkDown s k r).body.mg = s.body.mg := (linkDown_driven s k r).mg

theorem linkDown_untrained {s : State} {k : Nat} (h : (s.body.fab.link k).trained = false) (j r : Nat) :
    ((linkDown s j r).body.fab.link k).trained = false := by
  rw [(linkDown_driven s j r).trained]
  by_cases hj : k = j
  · rw [hj, link_setLink_self]
    rfl
  · rw [link_setLink_ne _ hj, h]

theorem foldl_linkDown_untrained {l : List Nat} {s : State} {k : Nat} (h : k ∈ l ∨ (s.body.fab.link k).trained = false) :
    ((l.foldl (fun s k => linkDown s k 0) s).body.fab.link k).trained = false := by
  induction l generalizing s with
  | nil => exact h.resolve_left (by simp)
  | cons j l ih =>
    refine ih ?_
    rcases h with h | h
    · rcases List.mem_cons.1 h with rfl | h
      · exact .inr (linkDown_downed s k 0).trained
      · exact .inl h
    · exact .inr (linkDown_untrained h j 0)

theorem foldl_linkDown_mg (l : List Nat) (s : State) : (l.foldl (fun s k => linkDown s k 0) s).body.mg = s.body.mg := by
  induction l generalizing s with
  | nil => rfl
  | cons j l ih => exact (ih _).trans (linkDown_mg ..)

theorem sideDark_mg (s : State) (x : Side) : (sideDark s x).body.mg = s.body.mg := foldl_linkDown_mg (sidePorts x) s

theorem mem_sidePorts {x : Side} {k : Nat} : k ∈ sidePorts x ↔ match x with
    | .north => k < 8 ∨ k = 16
    | .south => (8 ≤ k ∧ k < 16) ∨ k = 17 := by
  unfold sidePorts
  cases x
  · simp
  · simp only [List.mem_append, List.mem_map, List.mem_range, List.mem_singleton, reduceCtorEq, if_false]
    constructor
    · rintro (⟨i, hi, rfl⟩ | rfl)
      · exact .inl ⟨by omega, by omega⟩
      · exact .inr rfl
    · rintro (⟨h₁, h₂⟩ | rfl)
      · exact .inl ⟨k - 8, by omega, by omega⟩
      · exact .inr rfl

theorem sideDark_untrained {s : State} {x : Side} {k : Nat} (h : k ∈ sidePorts x) : ((sideDark s x).body.fab.link k).trained = false := by
  have ht := foldl_linkDown_untrained (s := s) (.inl h)
  have hm : ∀ (m : SMap LinkSt) (j : Nat), (mgetD (mmod m j fun l => { l with cablePower := false }) k LinkSt.reset).trained =
      (mgetD m k LinkSt.reset).trained := fun m j => by
    rw [mgetD, mget_mmod, mgetD]
    cases mget m k with
    | none =>
      split
      · rfl
      · rfl
    | some l =>
      split
      · rfl
      · rfl
  exact (hm ..).trans ht

/-- What is true once an I/O die has left. -/
structure SideGone (s u : State) (x : Side) (cause : Nat) : Prop where
  die : sideDie x ∈ u.body.data.dieOut
  mg : u.body.mg = setPm s.body.mg x .off
  host : (u.body.host.port (sideHost x)).up = false
  trained : ∀ k ∈ sidePorts x, (u.body.fab.link k).trained = false
  post : ∃ q n, ⟨0x0706, 3 + 256 * sideDie x, [(sideDie x, 0), (cause, 0), (q, 0), (n, 0)], none⟩ ∈ u.body.data.posts

theorem ioOut_sideGone {s : State} {x : Side} (h : sideDie x ∉ s.body.data.dieOut) (cause : Nat) : SideGone s (ioOut s x cause) x cause := by
  rw [ioOut_eq, if_neg (by simpa using h)]
  have hd : sideDie x ∈ (s.body.data.sideGone x).dieOut := mem_sadd.2 (.inl rfl)
  have hp := portDown_driven (sideDark (s.setBody (s.body.sideKilled s.alm.beat x)) x) (sideHost x) 5
  have hk := sideKilled_driven s.body s.alm.beat x
  refine ⟨?_, ?_, ?_, fun k hk => ?_, _, _, List.mem_append_right _ (List.mem_singleton_self _)⟩
  · have ho := ((Outage.of_driven (s := s.setBody { s.body with data := s.body.data.sideGone x, mg := setPm s.body.mg x .off }) rfl rfl hk).trans
      (Outage.sideDark (s.setBody (s.body.sideKilled s.alm.beat x)) x)).trans (Outage.portDown (sideDark (s.setBody (s.body.sideKilled s.alm.beat x)) x) (sideHost x) 5)
    exact ho.dies _ hd
  · exact (hp.mg.trans (sideDark_mg ..)).trans hk.mg
  · exact (congrArg HostPortSt.up (hp.port (sideHost x))).trans (congrArg HostPortSt.up (HostSt.portGone_port ..))
  · exact (hp.trained k).trans (sideDark_untrained hk)

/-! ### A module that fails -/

/-- `u` is `s`, perhaps FAILED, its data plane halted and the records of it posted. -/
structure Failing (s u : State) : Prop where
  state : u = s.setBody u.body
  body : { u.body with
    md := { u.body.md with state := s.body.md.state }
    data := { u.body.data with halted := s.body.data.halted, posts := s.body.data.posts } } = s.body
  posts : s.body.data.posts <+: u.body.data.posts

namespace Failing

variable {s u : State}

theorem refl (s : State) : Failing s s := ⟨rfl, rfl, List.prefix_rfl⟩

theorem moduleFails (s : State) : Failing s (moduleFails s) := ⟨rfl, rfl, List.prefix_rfl⟩

theorem failUp (s : State) : Failing s (failUp s) := ⟨rfl, rfl, List.prefix_append _ _⟩

theorem upCheck (s : State) : Failing s (upCheck s) := by
  unfold Machine.upCheck
  split
  · exact failUp s
  · exact refl s

theorem trans {a b c : State} (h : Failing a b) (k : Failing b c) : Failing a c := by
  refine ⟨?_, ?_, h.posts.trans k.posts⟩
  · have := congrArg (fun s : State => s.setBody c.body) h.state
    exact k.state.trans this
  · have := congrArg (fun b : Body => { b with
      md := { b.md with state := a.body.md.state }
      data := { b.data with halted := a.body.data.halted, posts := a.body.data.posts } }) k.body
    exact this.trans h.body

theorem alm (h : Failing s u) : u.alm = s.alm := by
  have := congrArg State.alm h.state
  exact this

theorem latch (h : Failing s u) : u.latch = s.latch := by
  have := congrArg State.latch h.state
  exact this

theorem pw (h : Failing s u) : u.body.pw = s.body.pw := by
  have := congrArg Body.pw h.body
  exact this

theorem mg (h : Failing s u) : u.body.mg = s.body.mg := by
  have := congrArg Body.mg h.body
  exact this

theorem flash (h : Failing s u) : u.body.flash = s.body.flash := by
  have := congrArg Body.flash h.body
  exact this

theorem host (h : Failing s u) : u.body.host = s.body.host := by
  have := congrArg Body.host h.body
  exact this

theorem fab (h : Failing s u) : u.body.fab = s.body.fab := by
  have := congrArg Body.fab h.body
  exact this

theorem dieOut (h : Failing s u) : u.body.data.dieOut = s.body.data.dieOut := by
  have := congrArg (fun b : Body => b.data.dieOut) h.body
  exact this

theorem plots (h : Failing s u) : u.body.data.plots = s.body.data.plots := by
  have := congrArg (fun b : Body => b.data.plots) h.body
  exact this

theorem mem_posts (h : Failing s u) {p : Post} (hp : p ∈ s.body.data.posts) : p ∈ u.body.data.posts := h.posts.subset hp

end Failing

theorem upCheck_failed {s : State} (h : s.body.md.state = 4 ∧ s.body.data.halted = true ∨ s.body.md.state = 1 ∧ mustFail s.body = true) :
    (upCheck s).body.md.state = 4 ∧ (upCheck s).body.data.halted = true := by
  unfold upCheck
  rcases h with ⟨h4, hh⟩ | h
  · rw [if_neg fun h => absurd (h4.symm.trans h.1) (by decide)]
    exact ⟨h4, hh⟩
  · rw [if_pos h]
    exact ⟨rfl, rfl⟩

/-! ### Power phases -/

/-- The state once a phase is lost, before what its rail does. -/
def phaseLost (s : State) (r : Rail) (phase : Nat) (sense : Bool) (reading : Nat) : State :=
  let k := railNo r * 64 + phase
  let b := s.body
  let b := { b with
    pw := { b.pw with phases := mput b.pw.phases k sense }
    flash := { b.flash with phases := mput b.flash.phases k sense } }
  let live := b.pw.live (railNo r)
  let failed := railPhases (railNo r) - live
  let s := s.setBody b
  let src := 8 + 256 * railNo r
  if sense then s.post 0x0602 src [(railNo r, 0), (phase, 0), (reading, 0), (failed, 0)]
    else s.post 0x0601 src [(railNo r, 0), (phase, 0), (failed, 0), (railLimit (railNo r) live, 0)]

theorem losePhase_eq (s : State) (r : Rail) (phase : Nat) (sense : Bool) (reading : Nat) : losePhase s r phase sense reading =
    if !railLoaded s r || decide (railPhases (railNo r) ≤ phase) || (mget s.body.pw.phases (railNo r * 64 + phase)).isSome then s
    else upCheck (railEffect (phaseLost s r phase sense reading) r) := rfl

variable {s : State} {r : Rail} {phase reading : Nat} {sense : Bool}

/-- The power state once a phase is lost. -/
def lostPw (s : State) (r : Rail) (phase : Nat) (sense : Bool) : Power :=
  { s.body.pw with phases := mput s.body.pw.phases (railNo r * 64 + phase) sense }

theorem phaseLost_pw : (phaseLost s r phase sense reading).body.pw = lostPw s r phase sense := by
  unfold phaseLost
  dsimp only
  split
  · rfl
  · rfl

theorem phaseLost_flash : (phaseLost s r phase sense reading).body.flash.phases = mput s.body.flash.phases (railNo r * 64 + phase) sense := by
  unfold phaseLost
  dsimp only
  split
  · rfl
  · rfl

theorem phaseLost_dieOut : (phaseLost s r phase sense reading).body.data.dieOut = s.body.data.dieOut := by
  unfold phaseLost
  dsimp only
  split
  · rfl
  · rfl

theorem phaseLost_md : (phaseLost s r phase sense reading).body.md = s.body.md := by
  unfold phaseLost
  dsimp only
  split
  · rfl
  · rfl

theorem phaseLost_sensed (h : sense = true) : ⟨0x0602, 8 + 256 * railNo r, [(railNo r, 0), (phase, 0), (reading, 0),
    (railPhases (railNo r) - (lostPw s r phase sense).live (railNo r), 0)], none⟩ ∈ (phaseLost s r phase sense reading).body.data.posts := by
  unfold phaseLost
  dsimp only
  rw [if_pos h]
  exact List.mem_append_right _ (List.mem_singleton_self _)

theorem phaseLost_open (h : sense = false) : ⟨0x0601, 8 + 256 * railNo r, [(railNo r, 0), (phase, 0),
    (railPhases (railNo r) - (lostPw s r phase sense).live (railNo r), 0),
    (railLimit (railNo r) ((lostPw s r phase sense).live (railNo r)), 0)], none⟩ ∈ (phaseLost s r phase sense reading).body.data.posts := by
  unfold phaseLost
  dsimp only
  rw [if_neg (by rw [h]; exact Bool.false_ne_true)]
  exact List.mem_append_right _ (List.mem_singleton_self _)

theorem mem_of_mget {α : Type} {m : SMap α} {k : Nat} {x : α} (h : mget m k = some x) : (k, x) ∈ m := by
  induction m with
  | nil => cases h
  | cons e m ih =>
    obtain ⟨a, y⟩ := e
    rw [mget] at h
    split at h
    · next hk =>
      cases h
      exact hk ▸ List.mem_cons_self
    · exact List.mem_cons_of_mem _ (ih h)

/-- A rail of a die that has lost a phase has at most five left. -/
theorem lostPw_live_le {d : Nat} (hd : d < 8) (hp : phase < 64) : (lostPw s (.vcore d) phase sense).live d ≤ 5 := by
  have hm : (d * 64 + phase, sense) ∈ (mput s.body.pw.phases (d * 64 + phase) sense).filter fun e => e.1 / 64 == d := by
    refine List.mem_filter.2 ⟨mem_of_mget (mget_mput_self ..), ?_⟩
    rw [beq_iff_eq]
    show (d * 64 + phase) / 64 = d
    omega
  have hl := List.length_pos_of_mem hm
  show railPhases d - ((mput s.body.pw.phases (d * 64 + phase) sense).filter fun e => e.1 / 64 == d).length ≤ 5
  unfold railPhases
  rw [if_pos hd]
  omega

theorem railLimit_vcore {d live : Nat} (hd : d < 8) (h : 3 < live) (h5 : live ≤ 5) : railLimit d live = 60 * live := by
  unfold railLimit
  rw [if_pos hd]
  obtain rfl | rfl : live = 4 ∨ live = 5 := by omega
  · rfl
  · rfl

theorem vcore_loaded {d : Nat} (h : railLoaded s (.vcore d) = true) : d < 8 ∧ d ∉ s.body.data.dieOut := by
  unfold railLoaded at h
  simp at h
  exact h.2

theorem vio_loaded_north (h : railLoaded s .vioN = true) : 8 ∉ s.body.data.dieOut := by
  unfold railLoaded at h
  simp at h
  exact h.2

theorem vio_loaded_south (h : railLoaded s .vioS = true) : 9 ∉ s.body.data.dieOut := by
  unfold railLoaded at h
  simp at h
  exact h.2

/-- What a rail does takes units away, or fails the module. -/
theorem railEffect_kept (s : State) (r : Rail) : Outage s (railEffect s r) ∨ Failing s (railEffect s r) := by
  unfold railEffect
  cases r with
  | vcore d =>
    dsimp only
    split
    · exact .inl (.dieOut ..)
    · exact .inl (.refl _)
  | vsram =>
    dsimp only
    split
    · exact .inr (.moduleFails _)
    · exact .inl (.refl _)
  | vhbm =>
    dsimp only
    split
    · exact .inr (.moduleFails _)
    · exact .inl (.refl _)
  | vioN =>
    dsimp only
    split
    · exact .inl (.ioOut ..)
    · exact .inl (.refl _)
  | vioS =>
    dsimp only
    split
    · exact .inl (.ioOut ..)
    · exact .inl (.refl _)

theorem railEffect_pw (s : State) (r : Rail) : (railEffect s r).body.pw = s.body.pw := by
  rcases railEffect_kept s r with h | h
  · exact h.pw
  · exact h.pw

theorem railEffect_flash (s : State) (r : Rail) : (railEffect s r).body.flash.phases = s.body.flash.phases := by
  rcases railEffect_kept s r with h | h
  · have := congrArg Flash.phases h.flash
    exact this
  · rw [h.flash]

theorem railEffect_posts {s : State} {p : Post} (hp : p ∈ s.body.data.posts) (r : Rail) : p ∈ (railEffect s r).body.data.posts := by
  rcases railEffect_kept s r with h | h
  · exact h.mem_posts hp
  · exact h.mem_posts hp

theorem rail_fails {s : State} (hr : (r = .vsram ∧ s.body.pw.live 8 < 11) ∨ (r = .vhbm ∧ s.body.pw.live 9 < 5)) :
    (upCheck (railEffect s r)).body.md.state = 4 ∧ (upCheck (railEffect s r)).body.data.halted = true := by
  refine upCheck_failed ?_
  by_cases h1 : s.body.md.state = 1
  · have he : railEffect s r = s := by
      unfold railEffect
      rcases hr with ⟨rfl, _⟩ | ⟨rfl, _⟩
      · exact if_neg fun h => h.2 h1
      · exact if_neg fun h => h.2 h1
    have hm : mustFail s.body = true := by
      unfold mustFail
      rcases hr with ⟨_, h⟩ | ⟨_, h⟩
      · simp [h]
      · simp [h]
    rw [he]
    exact .inr ⟨h1, hm⟩
  · have he : railEffect s r = moduleFails s := by
      unfold railEffect
      rcases hr with ⟨rfl, h⟩ | ⟨rfl, h⟩
      · exact if_pos ⟨h, h1⟩
      · exact if_pos ⟨h, h1⟩
    rw [he]
    exact .inl ⟨rfl, rfl⟩

/-! ### Phases, dies and droop -/

section
variable {s : State} {r : Rail} {phase reading : Nat} {c : Instr} {sense : Bool}

theorem phase_run (hc : (c = .phaseFailOpen r phase ∧ sense = false) ∨ (c = .phaseSenseFail r phase reading ∧ sense = true)) :
    ∃ n, (sense = true → n = reading) ∧ exec c s = s.run fun s => losePhase s r phase sense n := by
  rcases hc with ⟨rfl, rfl⟩ | ⟨rfl, rfl⟩
  · exact ⟨0, fun h => (by cases h), rfl⟩
  · exact ⟨reading, fun _ => rfl, rfl⟩

theorem phase_ignored (hc : (c = .phaseFailOpen r phase ∧ sense = false) ∨ (c = .phaseSenseFail r phase reading ∧ sense = true))
    (h : railLoaded s r = false ∨ railPhases (railNo r) ≤ phase ∨ (mget s.body.pw.phases (railNo r * 64 + phase)).isSome = true) :
    Leaves c s s := by
  obtain ⟨n, _, he⟩ := phase_run (s := s) hc
  refine leaves_of_run he ?_
  rw [losePhase_eq, if_pos]
  rcases h with h | h | h
  · rw [h, Bool.not_false, Bool.true_or, Bool.true_or]
  · rw [decide_eq_true h, Bool.or_true, Bool.true_or]
  · rw [h, Bool.or_true]

/-- The facts of a lost phase of a rail whose load is in service. -/
theorem phase_lost (hc : (c = .phaseFailOpen r phase ∧ sense = false) ∨ (c = .phaseSenseFail r phase reading ∧ sense = true))
    (hl : railLoaded s r = true) (hp : phase < railPhases (railNo r)) (hn : mget s.body.pw.phases (railNo r * 64 + phase) = none) :
    Makes c s fun u => ∃ n, (sense = true → n = reading) ∧ u = upCheck (railEffect (phaseLost s r phase sense n) r) := by
  obtain ⟨n, hr, he⟩ := phase_run (s := s) hc
  refine makes_of_run he ⟨n, hr, ?_⟩
  rw [losePhase_eq, if_neg]
  rw [hl, decide_eq_false (Nat.not_le.2 hp), hn]
  decide

theorem phaseEffect_pw (n : Nat) : (upCheck (railEffect (phaseLost s r phase sense n) r)).body.pw = lostPw s r phase sense :=
  (Failing.upCheck _).pw.trans ((railEffect_pw ..).trans phaseLost_pw)

theorem phaseEffect_flash (n : Nat) : (upCheck (railEffect (phaseLost s r phase sense n) r)).body.flash.phases =
    mput s.body.flash.phases (railNo r * 64 + phase) sense := by
  rw [(Failing.upCheck _).flash]
  exact (railEffect_flash ..).trans phaseLost_flash

theorem phaseEffect_posts {n : Nat} {p : Post} (hp : p ∈ (phaseLost s r phase sense n).body.data.posts) :
    p ∈ (upCheck (railEffect (phaseLost s r phase sense n) r)).body.data.posts :=
  (Failing.upCheck _).mem_posts (railEffect_posts hp r)

theorem phaseEffect_dies (n : Nat) : (upCheck (railEffect (phaseLost s r phase sense n) r)).body.data.dieOut =
    (railEffect (phaseLost s r phase sense n) r).body.data.dieOut := (Failing.upCheck _).dieOut

theorem railEffect_die {s : State} {d : Nat} (h : s.body.pw.live d ≤ 3) : d ∈ (railEffect s (.vcore d)).body.data.dieOut := by
  rw [show railEffect s (.vcore d) = dieOut s d 1 from if_pos h]
  exact mem_dieOut_dieOut ..

theorem railEffect_limited {s : State} {d : Nat} (h : 3 < s.body.pw.live d) : railEffect s (.vcore d) = s := if_neg (Nat.not_le.2 h)

theorem railEffect_north {s : State} (h : s.body.pw.live 10 < 3) (hd : 8 ∉ s.body.data.dieOut) :
    8 ∈ (upCheck (railEffect s .vioN)).body.data.dieOut ∧ (upCheck (railEffect s .vioN)).body.mg.nSt = .off := by
  rw [(Failing.upCheck _).dieOut, (Failing.upCheck _).mg, show railEffect s .vioN = ioOut s .north 1 from if_pos h]
  have hg := ioOut_sideGone (x := .north) hd 1
  exact ⟨hg.die, congrArg Mgmt.nSt hg.mg⟩

theorem railEffect_south {s : State} (h : s.body.pw.live 11 < 3) (hd : 9 ∉ s.body.data.dieOut) :
    9 ∈ (upCheck (railEffect s .vioS)).body.data.dieOut ∧ (upCheck (railEffect s .vioS)).body.mg.sSt = .off := by
  rw [(Failing.upCheck _).dieOut, (Failing.upCheck _).mg, show railEffect s .vioS = ioOut s .south 1 from if_pos h]
  have hg := ioOut_sideGone (x := .south) hd 1
  exact ⟨hg.die, congrArg Mgmt.sSt hg.mg⟩

end

/-! ### Fabrics that fail, droop and rails out of regulation -/

theorem dieOut_posted {s : State} {die : Nat} (h : die ∉ s.body.data.dieOut) : ∃ groups fails,
    ⟨0x0705, 2 + 256 * die, [(die, 0), (4, 0), (groups, 0), (fails, 0)], none⟩ ∈ (dieOut s die 4).body.data.posts := by
  rw [dieOut_eq, if_neg (by simpa using h), if_neg (by decide)]
  exact ⟨_, _, List.mem_append_right _ (List.mem_singleton_self _)⟩

theorem die_fabric {s : State} {die : Nat} (hl : railLoaded s (.vcore die) = true) : Makes (.dieFabricUe die) s fun u =>
    die ∈ u.body.data.dieOut ∧ (∀ n p, mget u.body.data.plots n = some p → ∀ c ∈ p.cores, c / 84 ≠ die) ∧
    (∃ groups fails, ⟨0x0705, 2 + 256 * die, [(die, 0), (4, 0), (groups, 0), (fails, 0)], none⟩ ∈ u.body.data.posts) ∧
    u.body.pw = s.body.pw ∧ u.body.mg = s.body.mg := by
  obtain ⟨hd, ho⟩ := vcore_loaded hl
  refine makes_of_run (show _ = execDieFabricUe die s from rfl) ?_
  rw [if_pos ⟨hd, hl⟩]
  have hf := Failing.upCheck (dieOut s die 4)
  have hv := dieOut_driven ho 4
  obtain ⟨groups, fails, hp⟩ := dieOut_posted ho
  refine ⟨?_, fun n p hn => ?_, ⟨groups, fails, hf.mem_posts hp⟩, hf.pw.trans hv.pw, hf.mg.trans hv.mg⟩
  · rw [hf.dieOut]
    exact mem_dieOut_dieOut ..
  · rw [hf.plots, hv.data.rest.plots] at hn
    exact dieGone_plots hn

theorem die_fabric_ignored {s : State} {die : Nat} (h : 8 ≤ die ∨ railLoaded s (.vcore die) = false) : Leaves (.dieFabricUe die) s s := by
  refine leaves_of_run (show _ = execDieFabricUe die s from rfl) (if_neg ?_)
  rintro ⟨hd, hl⟩
  rcases h with h | h
  · omega
  · rw [hl] at h
    cases h

theorem io_fabric_ignored {s : State} {x : Side} (h : 8 + (if x = .north then 0 else 1) ∈ s.body.data.dieOut) : Leaves (.ioDieFabricUe x) s s := by
  refine leaves_of_run (show _ = execIoDieFabricUe x s from rfl) (if_neg ?_)
  intro hl
  cases x with
  | north => exact vio_loaded_north hl h
  | south => exact vio_loaded_south hl h

theorem SideGone.failing {s u v : State} {x : Side} {cause : Nat} (h : SideGone s u x cause) (k : Failing u v) : SideGone s v x cause := by
  obtain ⟨q, n, hp⟩ := h.post
  refine ⟨?_, k.mg.trans h.mg, ?_, fun j hj => ?_, q, n, k.mem_posts hp⟩
  · rw [k.dieOut]
    exact h.die
  · rw [k.host]
    exact h.host
  · rw [k.fab]
    exact h.trained j hj

/-- The rail of an I/O die. -/
def sideRail (x : Side) : Rail :=
  match x with
  | .north => .vioN
  | .south => .vioS

theorem io_fabric {s : State} {x : Side} (hd : sideDie x ∉ s.body.data.dieOut) (hl : railLoaded s (sideRail x) = true) : Makes (.ioDieFabricUe x) s fun u => SideGone s u x 2 := by
  have hg := (ioOut_sideGone hd 2).failing (.upCheck _)
  refine makes_of_run (show _ = execIoDieFabricUe x s from rfl) ?_
  cases x
  · exact (if_pos hl).symm ▸ hg
  · exact (if_pos hl).symm ▸ hg

theorem droop_detected {s : State} {die : Nat} (hd : die < 8) (hn : die ∉ s.body.pw.droop) : Makes (.droopDetect die) s fun u =>
    (∀ i, i ∈ u.body.pw.droop ↔ i = die ∨ i ∈ s.body.pw.droop) ∧
    mgetD u.body.pw.droopN die 0 = mgetD s.body.pw.droopN die 0 + 1 ∧ u.body.data = s.body.data := by
  refine makes_of_run (show _ = execDroopDetect die s from rfl) ?_
  dsimp only
  rw [if_pos ⟨hd, by simpa using hn⟩]
  refine ⟨fun i => mem_sadd, ?_, rfl⟩
  show mgetD (mput s.body.pw.droopN die _) die 0 = _
  rw [mgetD, mget_mput_self, Option.getD_some]

theorem droop_ignored {s : State} {die : Nat} (h : 8 ≤ die ∨ die ∈ s.body.pw.droop) : Leaves (.droopDetect die) s s := by
  refine leaves_of_run (show _ = execDroopDetect die s from rfl) (if_neg ?_)
  rintro ⟨hd, hn⟩
  rcases h with h | h
  · omega
  · simp [h] at hn

theorem mem_srem {l : List Nat} {x y : Nat} : y ∈ srem l x ↔ y ≠ x ∧ y ∈ l := by
  unfold srem
  rw [List.mem_filter, bne_iff_ne]
  exact and_comm

theorem holdPorts_eq (s : State) : holdPorts s = unsetPort (portDown (unsetPort (portDown s .ha 1) .ha) .hb 1) .hb := rfl

theorem unsetPort_eq (s : State) (p : HostPort) : ∃ m, unsetPort s p = s.mg fun _ => m := ⟨_, rfl⟩

theorem rail_unregulated {s : State} {r : Rail} (hl : railLoaded s r = true) (hg : s.body.md.modPg = true) :
    Makes (.railOutOfRegulation r) s fun u => u.body.md = { s.body.md with modPg := false } ∧
    u.body.host.ha.up = false ∧ u.body.host.hb.up = false ∧ mget u.body.mg.nextSeq 1 = none ∧ mget u.body.mg.nextSeq 2 = none := by
  refine makes_of_run (show _ = execRailOutOfRegulation r s from rfl) ?_
  rw [hl, hg, if_pos (by decide), holdPorts_eq]
  have h₁ := portDown_driven (s.setMd { s.body.md with modPg := false }) .ha 1
  have h₂ := portDown_driven (unsetPort (portDown (s.setMd { s.body.md with modPg := false }) .ha 1) .ha) .hb 1
  have ha : _ = (s.body.host.port .ha).down := (h₁.port .ha).trans (HostSt.portGone_port s.body.host .ha)
  have hb := (h₂.port .hb).trans (HostSt.portGone_port _ .hb)
  have hk := (h₂.port .ha).trans (HostSt.portGone_port_ne _ (by decide))
  refine ⟨h₂.md.trans h₁.md, ?_, congrArg HostPortSt.up hb, unsetPort_none ?_ .hb, unsetPort_pf _ .hb⟩
  · exact (congrArg HostPortSt.up hk).trans (congrArg HostPortSt.up ha)
  · rw [h₂.mg]
    exact unsetPort_pf _ .ha

/-- Settles O46: a lost unit's own facts, and that what it takes with it leaves the rest of the module's account alone. -/
theorem phasesAndDies : Obligations.PhasesAndDies := by
  unfold Obligations.PhasesAndDies
  refine ⟨fun s r phase reading c sense hc => ⟨phase_ignored hc, fun hl hp hn => ?_⟩, fun s die => die_fabric_ignored, fun s die _ => die_fabric,
    fun s x => io_fabric_ignored, fun s hl => ?_, fun s hl => ?_, fun s die => droop_detected, fun s die => droop_ignored, fun s die => ?_,
    fun s r => rail_unregulated, fun s r h => ?_⟩
  · refine (phase_lost hc hl hp hn).mono ?_
    rintro u ⟨n, hr, rfl⟩
    have hw := phaseLost_pw (s := s) (r := r) (phase := phase) (reading := n) (sense := sense)
    have hd : (phaseLost s r phase sense n).body.data.dieOut = s.body.data.dieOut := phaseLost_dieOut
    refine ⟨?_, ?_, fun h => phaseEffect_posts (hr h ▸ phaseLost_sensed h), ?_, ?_, ?_, ?_, ?_, ?_⟩
    · rw [phaseEffect_pw]
      exact mget_mput_self ..
    · rw [phaseEffect_flash]
      exact mget_mput_self ..
    · rintro d rfl hlv
      have h3 : 3 < (phaseLost s (.vcore d) phase sense n).body.pw.live d := by rw [hw]; exact hlv
      refine ⟨?_, fun h => ?_⟩
      · rw [phaseEffect_dies, railEffect_limited h3, hd]
      · have ho := phaseLost_open (s := s) (r := .vcore d) (phase := phase) (reading := n) h
        obtain ⟨h8, _⟩ := vcore_loaded hl
        have h5 : (lostPw s (.vcore d) phase sense).live d ≤ 5 := lostPw_live_le h8 (by
          have : railPhases d = 6 := if_pos h8
          have hp' : phase < railPhases d := hp
          omega)
        have hm : railLimit (railNo (.vcore d)) ((lostPw s (.vcore d) phase sense).live (railNo (.vcore d))) =
          60 * (lostPw s (.vcore d) phase sense).live d := railLimit_vcore h8 hlv h5
        rw [hm] at ho
        exact phaseEffect_posts ho
    · rintro d rfl hlv
      rw [phaseEffect_dies]
      exact railEffect_die (by rw [hw]; exact hlv)
    · rintro rfl hlv
      exact rail_fails (.inl ⟨rfl, by rw [hw]; exact hlv⟩)
    · rintro rfl hlv
      exact rail_fails (.inr ⟨rfl, by rw [hw]; exact hlv⟩)
    · rintro rfl hlv
      exact railEffect_north (by rw [hw]; exact hlv) (hd ▸ vio_loaded_north hl)
    · rintro rfl hlv
      exact railEffect_south (by rw [hw]; exact hlv) (hd ▸ vio_loaded_south hl)
  · refine (io_fabric (x := .north) (vio_loaded_north hl) hl).mono fun u hg => ?_
    exact ⟨hg.die, congrArg Mgmt.nSt hg.mg, (congrArg Mgmt.sSt hg.mg :), hg.host, fun k hk => hg.trained k (mem_sidePorts.2 hk), hg.post⟩
  · refine (io_fabric (x := .south) (vio_loaded_south hl) hl).mono fun u hg => ?_
    exact ⟨hg.die, congrArg Mgmt.sSt hg.mg, (congrArg Mgmt.nSt hg.mg :), hg.host, fun k hk => hg.trained k (mem_sidePorts.2 hk), hg.post⟩
  · exact makes_of_run (show _ = execDroopRelease die s from rfl) ⟨fun i => mem_srem, rfl, rfl⟩
  · refine leaves_of_run (show _ = execRailOutOfRegulation r s from rfl) (if_neg ?_)
    rw [Bool.and_eq_true]
    rintro ⟨hl, hg⟩
    rcases h with h | h
    · rw [hl] at h
      cases h
    · rw [hg] at h
      cases h

end Sys2Proof.Machine
end

section
/-! Temperatures, coolant and the cold stop. -/

namespace Sys2Proof.Machine

/-! ### Temperatures -/

/-- A list of readings that has one for a sensor. -/
def padTo (l : List Nat) (n : Nat) : List Nat := if l.length ≤ n then l ++ List.replicate (n + 1 - l.length) 0 else l

theorem padTo_getD (l : List Nat) (n i : Nat) : (padTo l n).getD i 0 = l.getD i 0 := by
  unfold padTo
  split
  · rw [List.getD_eq_getElem?_getD, List.getD_eq_getElem?_getD, List.getElem?_append]
    split
    · rfl
    · next h =>
      rw [List.getElem?_eq_none (Nat.not_lt.1 h), List.getElem?_replicate]
      split
      · rfl
      · rfl
  · rfl

theorem padTo_length (l : List Nat) (n : Nat) : n < (padTo l n).length := by
  unfold padTo
  split
  · rw [List.length_append, List.length_replicate]
    omega
  · omega

theorem getD_set_self {l : List Nat} {n : Nat} (h : n < l.length) (t : Nat) : (l.set n t).getD n 0 = t := by
  rw [List.getD_eq_getElem?_getD, List.getElem?_set_self h, Option.getD_some]

theorem getD_set_ne {l : List Nat} {n i : Nat} (h : i ≠ n) (t : Nat) : (l.set n t).getD i 0 = l.getD i 0 := by
  rw [List.getD_eq_getElem?_getD, List.getD_eq_getElem?_getD, List.getElem?_set_ne h.symm]

theorem thermal_threshold (s : State) (sensor t : Nat) : Makes (.thermalThreshold sensor t) s fun u => u.body.pw.temps.getD sensor 0 = t ∧
    let unit := if sensor < 10 then sensor else sensor + 6
    (unit ∈ u.body.pw.hot ↔ (if sensor < 10 then 100 else 93) ≤ t) ∧ (∀ i, i ≠ unit → (i ∈ u.body.pw.hot ↔ i ∈ s.body.pw.hot)) ∧
    (∀ i, i ≠ sensor → u.body.pw.temps.getD i 0 = s.body.pw.temps.getD i 0) ∧ u.body.data = s.body.data := by
  refine makes_of_run (show _ = execThermalThreshold sensor t s from rfl)
    ⟨getD_set_self (padTo_length ..) t, ?_, fun i hi => ?_, fun i hi => (getD_set_ne hi t).trans (padTo_getD ..), rfl⟩
  · show _ ∈ ite (throttleAt sensor ≤ t) _ _ ↔ throttleAt sensor ≤ t
    split
    · next h => exact iff_of_true (mem_sadd.2 (.inl rfl)) h
    · next h => exact iff_of_false (fun hm => (mem_srem.1 hm).1 rfl) h
  · show i ∈ ite (throttleAt sensor ≤ t) _ _ ↔ i ∈ s.body.pw.hot
    split
    · exact mem_sadd.trans (or_iff_right hi)
    · exact mem_srem.trans (and_iff_right hi)

theorem therm_tripped {s : State} {sensor t : Nat} (h3 : s.body.md.p3v3 = true) (hs : sensor < 26) (ht : (if sensor < 10 then 115 else 105) ≤ t) :
    Makes (.thermtrip sensor t) s fun u =>
    u.body.md.thermtrip = true ∧ u.body.md.latchTherm = some (sensor, t, s.alm.beat) ∧ (s.body.md.state ≠ 0 → u.body.md.state = 0 ∧
      u.body.data = Data.reset ∧ u.body.flash = s.body.flash ∧ u.body.mg = Mgmt.reset) ∧ u.body.pw.temps.getD sensor 0 = t := by
  have hg : ((s.body.pw.temps ++ List.replicate (26 - s.body.pw.temps.length) 0).set sensor t).getD sensor 0 = t := by
    refine getD_set_self ?_ t
    rw [List.length_append, List.length_replicate]
    omega
  refine makes_of_run (show _ = execThermtrip sensor t s from rfl) ?_
  dsimp only
  rw [h3, decide_eq_false (Nat.not_le.2 hs), decide_eq_false (Nat.not_lt.2 ht), if_neg (by decide)]
  split
  · next h0 => exact ⟨rfl, rfl, fun hn => absurd h0 hn, hg⟩
  · exact ⟨rfl, rfl, fun _ => ⟨rfl, rfl, rfl, rfl⟩, hg⟩

theorem thermtrip_ignored {s : State} {sensor t : Nat} (h : s.body.md.p3v3 = false ∨ 26 ≤ sensor ∨ t < (if sensor < 10 then 115 else 105)) :
    Leaves (.thermtrip sensor t) s s := by
  refine leaves_of_run (show _ = execThermtrip sensor t s from rfl) (if_pos ?_)
  rcases h with h | h | h
  · rw [h, Bool.not_false, Bool.true_or, Bool.true_or]
  · rw [decide_eq_true h, Bool.or_true, Bool.true_or]
  · rw [decide_eq_true h, Bool.or_true]

/-! ### The cold stop -/

theorem foldl_pw {β : Type} {f : Body → β → Body} (h : ∀ b y, (f b y).pw = b.pw) (l : List β) (b : Body) : (l.foldl f b).pw = b.pw := by
  induction l generalizing b with
  | nil => rfl
  | cons y l ih => exact (ih _).trans (h b y)

theorem closePass_pw (b : Body) (beat : Nat) (u : PassUnit) (p : Pass) (v t : Nat) : (closePass b beat u p v t).pw = b.pw := rfl

theorem abandonPasses_pw (b : Body) (beat : Nat) : (abandonPasses b beat).pw = b.pw := by
  unfold abandonPasses
  dsimp only
  refine (foldl_pw (fun b n => ?_) _ _).trans ((foldl_pw (fun b k => ?_) _ _).trans ((foldl_pw (fun b k => ?_) _ _).trans (foldl_pw (fun b e => ?_) _ _)))
  · split
    · split
      · rfl
      · rfl
    · rfl
  · split
    · split
      · rfl
      · rfl
    · rfl
  · split
    · rfl
    · rfl
    · rfl
  · split
    · split
      · rfl
      · rfl
    · rfl

theorem parkCore_pw (b : Body) (c : Nat) (on : Bool) : (parkCore b c on).pw = b.pw := by
  unfold parkCore
  dsimp only
  split
  · rfl
  · rfl

theorem parkAll_pw (b : Body) (on : Bool) : (parkAll b on).pw = b.pw := foldl_pw (fun b (e : Nat × Core) => parkCore_pw b e.1 on) _ _

theorem startCold_pw (b : Body) (beat : Nat) : (startCold b beat).pw =
    { b.pw with cold := .stopping beat, openR := b.pw.openR ++ [coolantReason beat] } := by
  unfold startCold
  dsimp only
  rw [parkAll_pw, abandonPasses_pw]

theorem startCold_halted (b : Body) (beat : Nat) : (startCold b beat).data.halted = true := by
  unfold startCold
  rfl

theorem coldDue_stops {s : State} (h : s.body.md.state = 2) (hc : s.body.pw.cold = .running) : coldDue s = s.setBody (startCold s.body s.alm.beat) :=
  if_pos ⟨h, hc⟩

theorem coldDue_waits {s : State} (h : s.body.md.state = 1) (h4 : 4 ≤ s.body.md.step) (h12 : s.body.md.step < 12) : coldDue s =
    s.setBody { s.body with md := { s.body.md with step := 4, stepEnds := s.body.md.stepEnds.take 3, coolWait := true } } := by
  unfold coldDue
  dsimp only
  rw [if_neg fun hs => absurd (h.symm.trans hs.1) (by decide), if_pos ⟨h, h4, h12⟩]

variable {s : State}

theorem coolant_late {c : Instr} (hk : s.body.pw.coolantOk = false) (hb : s.body.pw.coolantSince + 2000 < s.alm.beat)
    (hc : c = .coldStopStart ∨ c = .coolantOkRise) : Makes c s fun u => (c = .coldStopStart ∧ u = coldDue s) ∨
      (c = .coolantOkRise ∧ u = (coldDue s).setPw { (coldDue s).body.pw with coolantOk := true, coolantSince := (coldDue s).alm.beat }) := by
  rcases hc with rfl | rfl
  · refine makes_of_run (show _ = execColdStopStart s from rfl) (.inl ⟨rfl, ?_⟩)
    rw [hk, decide_eq_true hb]
    rfl
  · refine makes_of_run (show _ = execCoolantOkRise s from rfl) (.inr ⟨rfl, ?_⟩)
    dsimp only
    rw [hk, if_neg Bool.false_ne_true, if_neg (show ¬(s.alm.beat - s.body.pw.coolantSince ≤ 2000) by omega)]

theorem coolant_late_ready {c : Instr} (hk : s.body.pw.coolantOk = false) (hb : s.body.pw.coolantSince + 2000 < s.alm.beat)
    (hc : c = .coldStopStart ∨ c = .coolantOkRise) (h2 : s.body.md.state = 2) (hr : s.body.pw.cold = .running) : Makes c s fun u =>
    u.body.pw.cold = .stopping s.alm.beat ∧ u.body.data.halted = true ∧ coolantReason s.alm.beat ∈ u.body.pw.openR ∧
      (u.body.pw.coolantOk = true ↔ c = .coolantOkRise) := by
  have hp := startCold_pw s.body s.alm.beat
  have hh := startCold_halted s.body s.alm.beat
  have hm : coolantReason s.alm.beat ∈ (startCold s.body s.alm.beat).pw.openR := by
    rw [hp]
    exact List.mem_append_right _ (List.mem_singleton_self _)
  refine (coolant_late hk hb hc).mono fun u hu => ?_
  rw [coldDue_stops h2 hr] at hu
  generalize startCold s.body s.alm.beat = b at hp hh hm hu
  rcases hu with ⟨rfl, rfl⟩ | ⟨rfl, rfl⟩
  · refine ⟨congrArg Power.cold hp, hh, hm, iff_of_false ?_ (by decide)⟩
    have hq := (congrArg Power.coolantOk hp).trans hk
    exact Bool.eq_false_iff.1 hq
  · exact ⟨congrArg Power.cold hp, hh, hm, iff_of_true rfl rfl⟩

theorem coolant_late_bringup {c : Instr} (hk : s.body.pw.coolantOk = false) (hb : s.body.pw.coolantSince + 2000 < s.alm.beat)
    (hc : c = .coldStopStart ∨ c = .coolantOkRise) (h1 : s.body.md.state = 1) (h4 : 4 ≤ s.body.md.step) (h12 : s.body.md.step < 12) :
    Makes c s fun u => u.body.md.step = 4 ∧ u.body.md.stepEnds = s.body.md.stepEnds.take 3 ∧ u.body.md.coolWait = true ∧
      u.body.data = s.body.data := by
  refine (coolant_late hk hb hc).mono fun u hu => ?_
  rw [coldDue_waits h1 h4 h12] at hu
  rcases hu with ⟨_, rfl⟩ | ⟨_, rfl⟩
  · exact ⟨rfl, rfl, rfl, rfl⟩
  · exact ⟨rfl, rfl, rfl, rfl⟩

theorem coolant_short (hk : s.body.pw.coolantOk = false) (hb : s.alm.beat ≤ s.body.pw.coolantSince + 2000) : Makes .coolantOkRise s fun u =>
    u.body.data = s.body.data ∧
    u.body.pw = { s.body.pw with coolantOk := true, coolantSince := s.alm.beat, longestLow := max s.body.pw.longestLow (s.alm.beat - s.body.pw.coolantSince) } ∧
    ∃ t ∈ u.body.log.tallies, t.code = 0x0608 ∧ t.source = 0 ∧ 0 < t.n ∧ t.beat = s.alm.beat := by
  refine makes_of_run (show _ = execCoolantOkRise s from rfl) ?_
  dsimp only
  rw [hk, if_neg Bool.false_ne_true, if_pos (show s.alm.beat - s.body.pw.coolantSince ≤ 2000 by omega)]
  exact ⟨rfl, rfl, _, List.mem_append_right _ (List.mem_singleton_self _), rfl, rfl, Nat.succ_pos _, rfl⟩

theorem coldStop_not_due (h : s.body.pw.coolantOk = true ∨ s.alm.beat ≤ s.body.pw.coolantSince + 2000 ∨
    (s.body.md.state = 2 ∧ s.body.pw.cold ≠ .running)) : Leaves .coldStopStart s s := by
  refine leaves_of_run (show _ = execColdStopStart s from rfl) ?_
  split
  · next hd =>
    rw [Bool.and_eq_true, Bool.not_eq_true', decide_eq_true_iff] at hd
    obtain ⟨hk, hb⟩ := hd
    rcases h with h | h | ⟨h2, hr⟩
    · rw [hk] at h
      cases h
    · omega
    · unfold coldDue
      dsimp only
      rw [if_neg fun hs => hr hs.2, if_neg fun hs => absurd (h2.symm.trans hs.1) (by decide)]
  · rfl

theorem coldStopHalted_runs (s : State) : ∃ f, execColdStopHalted s = s.runB f ∧ ∀ beat (b : Body),
    (∀ t, b.pw.cold = .stopping t → f beat b =
      if (b.data.reqs.filter LineReq.open_).all LineReq.isRemote ∨ t + 1000 ≤ beat then
        { b with
          data := { b.data with posts := b.data.posts ++
            [⟨0x0605, 0, [(t, 0), (beat, 0), (((b.data.reqs.filter LineReq.open_).filter LineReq.isRemote).length, 0)], some t⟩] }
          pw := { b.pw with cold := .halted t beat, remoteAwaited := ((b.data.reqs.filter LineReq.open_).filter LineReq.isRemote).length } }
      else b) ∧ ((∀ t, b.pw.cold ≠ .stopping t) → f beat b = b) := by
  refine ⟨_, rfl, fun beat b => ⟨fun t ht => ?_, fun h => ?_⟩⟩
  · dsimp only
    rw [ht]
  · dsimp only
    split
    · next t ht => exact absurd ht (h t)
    · rfl

theorem makes_of_runB {c : Instr} {s : State} {f : Nat → Body → Body} {P : State → Prop} (he : exec c s = s.runB f)
    (h : P { s with body := f s.alm.beat s.body }) : Makes c s P :=
  makes_of_run (f := fun s => { s with body := f s.alm.beat s.body }) he h

theorem leaves_of_runB {c : Instr} {s : State} {f : Nat → Body → Body} (he : exec c s = s.runB f) (h : f s.alm.beat s.body = s.body) :
    Leaves c s s :=
  leaves_of_run (f := fun s => { s with body := f s.alm.beat s.body }) he (by rw [h])

theorem coldStop_halted {t : Nat} (hc : s.body.pw.cold = .stopping t)
    (hq : (s.body.data.reqs.filter LineReq.open_).all LineReq.isRemote = true ∨ t + 1000 ≤ s.alm.beat) :
    let n := ((s.body.data.reqs.filter LineReq.open_).filter LineReq.isRemote).length
    Makes .coldStopHalted s fun u => u.body.pw = { s.body.pw with cold := .halted t s.alm.beat, remoteAwaited := n } ∧
      u.body.data.posts = s.body.data.posts ++ [⟨0x0605, 0, [(t, 0), (s.alm.beat, 0), (n, 0)], some t⟩] ∧ u.body.data.mem = s.body.data.mem := by
  obtain ⟨f, he, hf⟩ := coldStopHalted_runs s
  refine makes_of_runB ((show exec .coldStopHalted s = execColdStopHalted s from rfl).trans he) ?_
  rw [(hf s.alm.beat s.body).1 t hc, if_pos hq]
  exact ⟨rfl, rfl, rfl⟩

theorem coldStop_not_stopping (h : ∀ t, s.body.pw.cold ≠ .stopping t) : Leaves .coldStopHalted s s := by
  obtain ⟨f, he, hf⟩ := coldStopHalted_runs s
  exact leaves_of_runB ((show exec .coldStopHalted s = execColdStopHalted s from rfl).trans he) ((hf s.alm.beat s.body).2 h)

theorem coldStop_goes_on {t : Nat} (hc : s.body.pw.cold = .stopping t) (hq : (s.body.data.reqs.filter LineReq.open_).all LineReq.isRemote = false)
    (hb : s.alm.beat < t + 1000) : Leaves .coldStopHalted s s := by
  obtain ⟨f, he, hf⟩ := coldStopHalted_runs s
  refine leaves_of_runB ((show exec .coldStopHalted s = execColdStopHalted s from rfl).trans he) (((hf s.alm.beat s.body).1 t hc).trans (if_neg ?_))
  rintro (h | h)
  · rw [hq] at h
    cases h
  · omega

/-- Settles O47: the cold stop's own facts; what it parks and cuts short leaves power alone. -/
theorem cooling : Obligations.Cooling := by
  unfold Obligations.Cooling
  refine ⟨thermal_threshold, fun s sensor t => therm_tripped, fun s sensor t => thermtrip_ignored, fun s => ⟨fun h => ?_, fun h => ?_⟩, fun s h => ?_,
    fun s => coolant_short, fun s c hk hb hc => ⟨coolant_late_ready hk hb hc, coolant_late_bringup hk hb hc⟩, fun s => coldStop_not_due,
    fun s t => coldStop_halted, fun s => coldStop_not_stopping, fun s t => coldStop_goes_on⟩
  · exact leaves_of_run (show _ = execCoolantOkFall s from rfl) (if_pos h)
  · exact leaves_of_run (show _ = execCoolantOkFall s from rfl) (if_neg (by rw [h]; exact Bool.false_ne_true))
  · exact leaves_of_run (show _ = execCoolantOkRise s from rfl) (if_pos h)

end Sys2Proof.Machine
end

section
/-! The steps of bring-up. -/

namespace Sys2Proof.Machine

/-! ### The end of a step of bring-up -/

/-- The end of step `n`, its work having left `v`. -/
def stepDone (n : Nat) (v : State) (bad : Bool) : State :=
  let s := v.setMd { v.body.md with stepEnds := v.body.md.stepEnds ++ [v.body.md.aonBeats] }
  if bad && (n = 3 || n = 10) then recover s
  else if bad || (decide (3 ≤ n) && mustFail s.body) then failUp s
  else if n = 12 then ready s
  else
    let s := s.setMd { s.body.md with step := n + 1, coolWait := s.body.md.coolWait || (n == 3 && !s.body.pw.coolantOk) }
    if n = 2 then vioUp s else s

variable {s v : State} {r : BringResult} {bad : Bool} {n : Nat}

theorem bringup_makes (h : s.body.md.state = 1) (hw : stepWork s r = some (v, bad)) {P : State → Prop} (hp : P (stepDone s.body.md.step v bad)) :
    Makes (.bringupStepEnd r) s P := by
  refine makes_of_run (show _ = execBringupStepEnd r s from rfl) ?_
  dsimp only
  rw [if_neg (not_not_intro h), hw]
  exact hp

theorem bringup_leaves (hw : stepWork s r = none) : Leaves (.bringupStepEnd r) s s := by
  refine leaves_of_run (show _ = execBringupStepEnd r s from rfl) ?_
  dsimp only
  rw [hw]
  split
  · rfl
  · rfl

/-- The module's account once step `n` has ended. -/
def stepMd (n : Nat) (v : State) : Module :=
  { v.body.md with
    stepEnds := v.body.md.stepEnds ++ [v.body.md.aonBeats], step := n + 1
    coolWait := v.body.md.coolWait || (n == 3 && !v.body.pw.coolantOk) }

theorem stepDone_next (hn : n ≠ 2 ∧ n ≠ 12) (hm : n < 3 ∨ mustFail v.body = false) : stepDone n v false = v.setMd (stepMd n v) := by
  obtain ⟨h2, h12⟩ := hn
  have hf : ¬(false || (decide (3 ≤ n) && mustFail v.body)) = true := by
    rw [Bool.false_or, Bool.and_eq_true, decide_eq_true_iff]
    rintro ⟨h3, h⟩
    rcases hm with hm | hm
    · omega
    · rw [hm] at h
      cases h
  unfold stepDone
  dsimp only
  rw [Bool.false_and, if_neg Bool.false_ne_true, if_neg (show ¬(false || (decide (3 ≤ n) && mustFail (v.setMd { v.body.md with
    stepEnds := v.body.md.stepEnds ++ [v.body.md.aonBeats] }).body)) = true from hf), if_neg h12, if_neg h2]
  rfl

theorem stepDone_fails (hn : n ≠ 3 ∧ n ≠ 10) (h : bad = true ∨ 3 ≤ n ∧ mustFail v.body = true) : stepDone n v bad =
    failUp (v.setMd { v.body.md with stepEnds := v.body.md.stepEnds ++ [v.body.md.aonBeats] }) := by
  have hf : (bad || (decide (3 ≤ n) && mustFail v.body)) = true := by
    rcases h with h | ⟨h3, hm⟩
    · rw [h, Bool.true_or]
    · rw [hm, decide_eq_true h3, Bool.and_true, Bool.or_true]
  unfold stepDone
  dsimp only
  rw [decide_eq_false hn.1, decide_eq_false hn.2, Bool.or_false, Bool.and_false, if_neg Bool.false_ne_true]
  exact if_pos hf

theorem stepDone_recovers (hn : n = 3 ∨ n = 10) : stepDone n v true =
    recover (v.setMd { v.body.md with stepEnds := v.body.md.stepEnds ++ [v.body.md.aonBeats] }) := by
  have hf : (true && (decide (n = 3) || decide (n = 10))) = true := by
    rcases hn with rfl | rfl
    · rfl
    · rfl
  exact if_pos hf

/-- What the end of a step leaves of what its work has done. -/
structure Stepped (n : Nat) (v : State) (bad : Bool) (u : State) : Prop where
  data : { u.body.data with posts := v.body.data.posts, halted := v.body.data.halted } = v.body.data
  disp : u.body.md.dispOut = v.body.md.dispOut
  memtest : u.body.md.memtest = v.body.md.memtest
  age : u.body.md.lastFullAge = v.body.md.lastFullAge
  failed : bad = true → u.body.md.state = 4
  next : mustFail u.body = false → bad = false → v.body.md.state = 1 → u.body.md.step = n + 1 ∧ u.body.md.state = 1

theorem stepDone_stepped (h3 : 3 < n) (hn : n ≠ 10 ∧ n ≠ 12) : Stepped n v bad (stepDone n v bad) := by
  by_cases h : bad = true ∨ 3 ≤ n ∧ mustFail v.body = true
  · rw [stepDone_fails ⟨by omega, hn.1⟩ h]
    refine ⟨rfl, rfl, rfl, rfl, fun _ => rfl, fun hm hb _ => ?_⟩
    rcases h with h | ⟨_, h⟩
    · rw [hb] at h
      cases h
    · exact absurd (h.symm.trans hm) (by decide)
  · rw [not_or, not_and, Bool.not_eq_true, Bool.not_eq_true] at h
    obtain ⟨hb, hm⟩ := h
    rw [hb, stepDone_next ⟨by omega, hn.2⟩ (.inr (hm (by omega)))]
    exact ⟨rfl, rfl, rfl, rfl, fun h => absurd h Bool.false_ne_true, fun _ _ h => ⟨rfl, h⟩⟩

namespace Stepped

variable {u : State}

theorem coreState (h : Stepped n v bad u) (c : Nat) : u.body.data.coreState c = v.body.data.coreState c := by
  have := congrArg (fun d : Data => d.coreState c) h.data
  exact this

theorem engOut (h : Stepped n v bad u) : u.body.data.engOut = v.body.data.engOut := by
  have := congrArg Data.engOut h.data
  exact this

theorem dieOut (h : Stepped n v bad u) : u.body.data.dieOut = v.body.data.dieOut := by
  have := congrArg Data.dieOut h.data
  exact this

theorem chanOut (h : Stepped n v bad u) : u.body.data.chanOut = v.body.data.chanOut := by
  have := congrArg Data.chanOut h.data
  exact this

theorem frameOut (h : Stepped n v bad u) : u.body.data.frameOut = v.body.data.frameOut := by
  have := congrArg Data.frameOut h.data
  exact this

theorem slices (h : Stepped n v bad u) : u.body.data.slices = v.body.data.slices := by
  have := congrArg Data.slices h.data
  exact this

end Stepped

/-! ### Units that a step takes away -/

/-- A step that visits each of a list leaves each as it has made it. -/
theorem Outage.foldl_mem {β : Type} {f : State → β → State} {Q : β → State → Prop} (hs : ∀ (s : State) y, Outage s (f s y))
    (hq : ∀ (s : State) y, Q y (f s y)) (hk : ∀ y (s u : State), Outage s u → Q y s → Q y u) {l : List β} {y : β} (hy : y ∈ l) (s : State) :
    Q y (l.foldl f s) := by
  induction l generalizing s with
  | nil => cases hy
  | cons x l ih =>
    rcases List.mem_cons.1 hy with rfl | hy
    · exact hk _ _ _ (Outage.foldl hs l _) (hq s y)
    · exact ih hy _

theorem coreState_mput_ne {d : Data} {c j : Nat} (h : c ≠ j) (st : CoreState) :
    ({ d with coreSt := mput d.coreSt c st } : Data).coreState j = d.coreState j := by
  unfold Data.coreState
  dsimp only
  rw [mgetD, mget_mput_ne _ _ _ _ h, mgetD]

/-- A core that a step takes away. -/
def loseCore (cause : Nat) (st : CoreState) (s : State) (c : Nat) : State :=
  let d := s.body.data
  if 672 ≤ c ∨ d.coreState c = .off ∨ d.coreState c = st then s
  else s.setData (retiredPost { d with coreSt := mput d.coreSt c st } 1 (unitCode (.core c)) (if st = .off then 0 else 1) cause)

theorem loseCores_eq (s : State) (off aoff : List Nat) (cause : Nat) :
    loseCores s off aoff cause = off.foldl (loseCore cause .off) (aoff.foldl (loseCore cause .arrayOff) s) := rfl

theorem Outage.loseCore (cause : Nat) (st : CoreState) (s : State) (c : Nat) : Outage s (loseCore cause st s c) := by
  unfold Machine.loseCore
  dsimp only
  split
  · exact refl s
  · next h =>
    rw [not_or, not_or] at h
    obtain ⟨_, hc, _⟩ := h
    refine ⟨rfl, rfl, rfl, List.prefix_append _ _, rfl, fun _ h => h, fun _ h => h, fun _ h => h, fun _ h => h, fun _ h => h, fun j hj => ?_⟩
    have hn : c ≠ j := by
      rintro rfl
      exact hc hj
    exact (coreState_mput_ne hn st).trans hj

theorem loseCore_off (cause : Nat) (s : State) {c : Nat} (hc : c < 672) : (loseCore cause .off s c).body.data.coreState c = .off := by
  unfold loseCore
  dsimp only
  split
  · next h =>
    rcases h with h | h | h
    · omega
    · exact h
    · exact h
  · show Data.coreState { s.body.data with coreSt := mput s.body.data.coreSt c CoreState.off } c = .off
    unfold Data.coreState
    split
    · rfl
    · dsimp only
      rw [mgetD, mget_mput_self, Option.getD_some]

theorem Outage.loseCores (s : State) (off aoff : List Nat) (cause : Nat) : Outage s (loseCores s off aoff cause) := by
  rw [loseCores_eq]
  exact (foldl (loseCore cause .arrayOff) aoff s).trans (foldl (loseCore cause .off) off _)

theorem loseCores_off {off : List Nat} {c : Nat} (hm : c ∈ off) (hc : c < 672) (s : State) (aoff : List Nat) (cause : Nat) :
    (loseCores s off aoff cause).body.data.coreState c = .off := by
  rw [loseCores_eq]
  exact Outage.foldl_mem (Q := fun c s => c < 672 → s.body.data.coreState c = .off) (Outage.loseCore cause .off) (fun s c => loseCore_off cause s)
    (fun c s u h hs hc => h.cores c (hs hc)) hm _ hc

/-- An engine that a step takes away. -/
def loseEngine (cause : Nat) (s : State) (n : Nat) : State :=
  let d := s.body.data
  if 144 ≤ n ∨ d.engOut.contains n then s
  else s.setData (retiredPost { d with engOut := sadd d.engOut n } 4 (unitCode (.engine (engIdOf n))) 2 cause)

theorem loseEngines_eq (s : State) (l : List Nat) (cause : Nat) : loseEngines s l cause = l.foldl (loseEngine cause) s := rfl

theorem Outage.loseEngine (cause : Nat) (s : State) (n : Nat) : Outage s (loseEngine cause s n) := by
  unfold Machine.loseEngine
  dsimp only
  split
  · exact refl s
  · exact ⟨rfl, rfl, rfl, List.prefix_append _ _, rfl, fun _ h => h, fun _ h => h, fun _ h => h, fun _ h => mem_sadd.2 (.inr h), fun _ h => h,
      fun _ h => h⟩

theorem mem_loseEngine (cause : Nat) (s : State) {n : Nat} (hn : n < 144) : n ∈ (loseEngine cause s n).body.data.engOut := by
  unfold loseEngine
  dsimp only
  split
  · next h => exact List.contains_iff_mem.1 (h.resolve_left (by omega))
  · exact mem_sadd.2 (.inl rfl)

theorem Outage.loseEngines (s : State) (l : List Nat) (cause : Nat) : Outage s (loseEngines s l cause) := foldl (loseEngine cause) l s

theorem mem_loseEngines {l : List Nat} {n : Nat} (hm : n ∈ l) (hn : n < 144) (s : State) (cause : Nat) :
    n ∈ (loseEngines s l cause).body.data.engOut :=
  Outage.foldl_mem (Q := fun n s => n < 144 → n ∈ s.body.data.engOut) (Outage.loseEngine cause) (fun s _ => mem_loseEngine cause s)
    (fun m _ _ h hs hm => h.engs m (hs hm)) hm s hn

/-- A Dispatcher that a step takes away. -/
def loseDispatcher (s : State) (n : Nat) : State :=
  let b := s.body
  if 8 ≤ n ∨ b.md.dispOut.contains n then s
  else s.setBody { b with
    md := { b.md with dispOut := sadd b.md.dispOut n }
    flash := { b.flash with engines := sadd b.flash.engines (144 + n) } }

theorem loseDispatchers_eq (s : State) (l : List Nat) : loseDispatchers s l = l.foldl loseDispatcher s := rfl

/-- What the loss of Dispatchers changes. -/
structure DispLost (s u : State) : Prop where
  data : u.body.data = s.body.data
  md : { u.body.md with dispOut := s.body.md.dispOut } = s.body.md
  more : ∀ n ∈ s.body.md.dispOut, n ∈ u.body.md.dispOut

theorem loseDispatcher_lost (s : State) (n : Nat) : DispLost s (loseDispatcher s n) ∧ (n < 8 → n ∈ (loseDispatcher s n).body.md.dispOut) := by
  unfold loseDispatcher
  dsimp only
  split
  · next h => exact ⟨⟨rfl, rfl, fun _ h => h⟩, fun hn => List.contains_iff_mem.1 (h.resolve_left (by omega))⟩
  · exact ⟨⟨rfl, rfl, fun _ h => mem_sadd.2 (.inr h)⟩, fun _ => mem_sadd.2 (.inl rfl)⟩

theorem loseDispatchers_lost (l : List Nat) (s : State) : DispLost s (loseDispatchers s l) ∧ ∀ n ∈ l, n < 8 → n ∈ (loseDispatchers s l).body.md.dispOut := by
  rw [loseDispatchers_eq]
  induction l generalizing s with
  | nil => exact ⟨⟨rfl, rfl, fun _ h => h⟩, fun n hn => by cases hn⟩
  | cons x l ih =>
    obtain ⟨h₁, hx⟩ := loseDispatcher_lost s x
    obtain ⟨h₂, hl⟩ := ih (loseDispatcher s x)
    refine ⟨⟨h₂.data.trans h₁.data, ?_, fun n hn => h₂.more n (h₁.more n hn)⟩, fun n hn h8 => ?_⟩
    · have := congrArg (fun m : Module => { m with dispOut := s.body.md.dispOut }) h₂.md
      exact this.trans h₁.md
    · rcases List.mem_cons.1 hn with rfl | hn
      · exact h₂.more n (hx h8)
      · exact hl n hn h8

variable {s v : State} {r : BringResult} {bad : Bool} {n : Nat}

/-! ### Images -/

theorem bootSlot_active {comp : Nat} (hv : (if (s.body.flash.slots comp).active then (s.body.flash.slots comp).bValid
    else (s.body.flash.slots comp).aValid) = true) (ha : r.activeOk = true) :
    bootSlot s comp r = (setSlots s comp { s.body.flash.slots comp with running := (s.body.flash.slots comp).active }, true) := by
  unfold bootSlot
  dsimp only
  rw [ha, Bool.and_true, if_pos hv]

theorem bootSlot_other {comp : Nat} (ha : r.activeOk = false) (ho : r.otherOk = true) (hs : (s.body.flash.slots comp).spare.1 = true) :
    ∃ x : Slots, x.active = !(s.body.flash.slots comp).active ∧ x.running = !(s.body.flash.slots comp).active ∧
      bootSlot s comp r = ((setSlots s comp x).post 0x070D 0 [(comp, 0), (boolNat (s.body.flash.slots comp).active, 0),
        (boolNat (!(s.body.flash.slots comp).active), 0), ((s.body.flash.slots comp).spare.2, 0)], true) := by
  unfold bootSlot
  dsimp only
  rw [ha, ho, hs, Bool.and_false, if_neg Bool.false_ne_true, if_pos (by decide)]
  exact ⟨_, rfl, rfl, rfl⟩

theorem bootSlot_none {comp : Nat} (ha : r.activeOk = false) (ho : r.otherOk = false) : ∃ x, bootSlot s comp r = (setSlots s comp x, false) := by
  unfold bootSlot
  dsimp only
  rw [ha, ho, Bool.and_false, Bool.and_false, if_neg Bool.false_ne_true, if_neg Bool.false_ne_true]
  exact ⟨_, rfl⟩

/-! ### Step 3 -/

/-- What step 3 does once an image runs. -/
def step3Rest (s : State) : State :=
  let b := s.body
  let sus := mmap b.flash.steps fun _ x => x.again
  let b := { b with hl := { b.hl with cals := b.flash.cals, suspects := sus, packVersion := b.flash.pack } }
  let d := (sus.filter fun e => e.2.state == 3).foldl (fun (d : Data) e => (({ d with retiring := mput d.retiring e.1 e.2.arrOnly }).retireIfEmpty e.1)) b.data
  latchedRecords (s.setBody { b with data := d })

theorem endStep3_of {t : State} {ok : Bool} (h : bootSlot s 1 r = (t, ok)) : endStep3 s r = if ok then (step3Rest t, true) else (t, false) := by
  unfold endStep3
  rw [h]
  cases ok
  · rfl
  · rfl

/-- Records that join, and causes that are told. -/
structure Told3 (s u : State) : Prop where
  flash : u.body.flash = s.body.flash
  md : { u.body.md with latchOver := s.body.md.latchOver, latchPower := s.body.md.latchPower, thermTold := s.body.md.thermTold } = s.body.md
  pw : u.body.pw = s.body.pw
  dies : u.body.data.dieOut = s.body.data.dieOut
  posts : s.body.data.posts <+: u.body.data.posts
  cals : u.body.hl.cals = s.body.flash.cals

theorem retire_kept (l : List (Nat × Suspect)) (d : Data) :
    (l.foldl (fun (d : Data) e => (({ d with retiring := mput d.retiring e.1 e.2.arrOnly }).retireIfEmpty e.1)) d).dieOut = d.dieOut ∧
      d.posts <+: (l.foldl (fun (d : Data) e => (({ d with retiring := mput d.retiring e.1 e.2.arrOnly }).retireIfEmpty e.1)) d).posts := by
  induction l generalizing d with
  | nil => exact ⟨rfl, List.prefix_rfl⟩
  | cons e l ih =>
    have h := Data.BlocksEnd.retireIfEmpty (die := e.1 / 84) { d with retiring := mput d.retiring e.1 e.2.arrOnly } rfl
    obtain ⟨hd, hp⟩ := ih (({ d with retiring := mput d.retiring e.1 e.2.arrOnly } : Data).retireIfEmpty e.1)
    exact ⟨hd.trans h.dies, h.posts.trans hp⟩

theorem latchedRecords_kept (s : State) : ∃ ps, s.body.data.posts <+: ps ∧ latchedRecords s =
    (s.setData { s.body.data with posts := ps }).setMd { s.body.md with latchOver := none, latchPower := none, thermTold := true } := by
  have post (s : State) (a b : Nat) (fs : List (Nat × Nat)) : ∃ ps, s.body.data.posts <+: ps ∧ s.post a b fs = s.setData { s.body.data with posts := ps } :=
    ⟨_, List.prefix_append _ _, rfl⟩
  have comp {s t u : State} (h : ∃ ps, s.body.data.posts <+: ps ∧ t = s.setData { s.body.data with posts := ps })
      (k : ∃ ps, t.body.data.posts <+: ps ∧ u = t.setData { t.body.data with posts := ps }) :
      ∃ ps, s.body.data.posts <+: ps ∧ u = s.setData { s.body.data with posts := ps } := by
    obtain ⟨ps, hp, rfl⟩ := h
    obtain ⟨qs, hq, rfl⟩ := k
    exact ⟨qs, hp.trans hq, rfl⟩
  have keep (s : State) : ∃ ps, s.body.data.posts <+: ps ∧ s = s.setData { s.body.data with posts := ps } := ⟨_, List.prefix_rfl, rfl⟩
  have h₁ (s : State) : ∃ ps, s.body.data.posts <+: ps ∧ (match s.body.md.latchTherm with
      | some (k, t, n) => if s.body.md.thermTold then s else s.post 0x0604 0 [(k, 0), (t, 0), (n, 0)]
      | none => s) = s.setData { s.body.data with posts := ps } := by
    split
    · split
      · exact keep s
      · exact post ..
    · exact keep s
  have h₂ (m : Module) (s : State) : ∃ ps, s.body.data.posts <+: ps ∧ (match m.latchOver with
      | some (v, n) => s.post 0x0712 0 [(v, 0), (n, 0)]
      | none => s) = s.setData { s.body.data with posts := ps } := by
    split
    · exact post ..
    · exact keep s
  have h₃ (m : Module) (s : State) : ∃ ps, s.body.data.posts <+: ps ∧ (match m.latchPower with
      | some n => s.post 0x070B 0 [(n, 0), (s.body.log.seqAfter - 1, 0)]
      | none => s) = s.setData { s.body.data with posts := ps } := by
    split
    · exact post ..
    · exact keep s
  obtain ⟨ps, hp, he⟩ := comp (comp (h₁ s) (h₂ s.body.md _)) (h₃ s.body.md _)
  refine ⟨ps, hp, ?_⟩
  unfold latchedRecords
  dsimp only
  refine (congrArg (fun t : State => t.setMd { t.body.md with latchOver := none, latchPower := none, thermTold := true }) he).trans ?_
  rfl

theorem step3Rest_told (s : State) : Told3 s (step3Rest s) := by
  obtain ⟨hd, hp⟩ := retire_kept ((mmap s.body.flash.steps fun _ x => x.again).filter fun e => e.2.state == 3) s.body.data
  unfold step3Rest
  dsimp only
  obtain ⟨ps, hq, he⟩ := latchedRecords_kept (s.setBody { s.body with
    hl := { s.body.hl with cals := s.body.flash.cals, suspects := mmap s.body.flash.steps fun _ x => x.again, packVersion := s.body.flash.pack }
    data := ((mmap s.body.flash.steps fun _ x => x.again).filter fun e => e.2.state == 3).foldl
      (fun (d : Data) e => (({ d with retiring := mput d.retiring e.1 e.2.arrOnly }).retireIfEmpty e.1)) s.body.data })
  rw [he]
  exact ⟨rfl, rfl, rfl, hd, hp.trans hq, rfl⟩

theorem mustFail_congr {b b' : Body} (hd : b'.data.dieOut = b.data.dieOut) (hp : b'.pw = b.pw) : mustFail b' = mustFail b := by
  unfold mustFail
  rw [hd, hp]

theorem gate_iff_of_latch {s u : State} (h : u.latch = s.latch) : u.gate = s.gate := by
  unfold State.gate
  rw [h]

variable {s v u : State} {r : BringResult} {bad : Bool} {n : Nat}

/-! ### Steps 1 to 4 -/

theorem bringup_one (h : s.body.md.state = 1) (hs : s.body.md.step = 1) : Makes (.bringupStepEnd r) s fun u =>
    u.body.md = { s.body.md with step := 2, stepEnds := s.body.md.stepEnds ++ [s.body.md.aonBeats] } ∧ u.latch = s.latch ∧ u.body.data = s.body.data := by
  have hw : stepWork s r = some (s, false) := by
    unfold stepWork
    rw [hs]
    rfl
  refine bringup_makes h hw ?_
  rw [hs, stepDone_next (by decide) (.inl (by decide))]
  have hm : stepMd 1 s = { s.body.md with step := 2, stepEnds := s.body.md.stepEnds ++ [s.body.md.aonBeats] } := by
    unfold stepMd
    rw [show ((1 : Nat) == 3) = false from rfl, Bool.false_and, Bool.or_false]
  exact ⟨hm, rfl, rfl⟩

theorem vioUp_stays (h : s.body.md.state ≠ 1 ∨ s.body.md.step ≠ 3 ∨ s.body.md.inputGood = false ∨ s.body.md.modPg = true) : vioUp s = s := by
  refine if_neg ?_
  rintro ⟨h1, h3, hi, hg⟩
  rcases h with h | h | h | h
  · exact h h1
  · exact h h3
  · rw [h] at hi
    cases hi
  · rw [h] at hg
    cases hg

/-- What the I/O rails bring up. -/
structure VioUp (s u : State) : Prop where
  modPg : u.body.md.modPg = true
  step : u.body.md.step = s.body.md.step
  input : u.body.md.inputGood = s.body.md.inputGood
  latch : u.latch = s.latch
  north : 8 ∉ u.body.data.dieOut → u.body.mg.nSt = .booting
  south : 9 ∉ u.body.data.dieOut → u.body.mg.sSt = .booting
  chans : u.body.data.chanOut = s.body.flash.channels
  frames : u.body.data.frameOut = s.body.flash.frames

/-- The state with the I/O rails up, before it is looked at for a failure. -/
def vioOn (s : State) : State :=
  let b := s.body.restoreRetired
  let up (x : Side) : Bool := !b.data.dieOut.contains (sideDie x)
  let mg := if up .north then setPm b.mg .north .booting else b.mg
  let mg := if up .south then setPm mg .south .booting else mg
  let pow (m : SMap LinkSt) (k : Nat) (x : Side) : SMap LinkSt :=
    let l := mgetD m k LinkSt.reset
    mput m k { l with cablePower := l.cable && up x }
  s.setBody { b with mg := mg, md := { b.md with modPg := true }, fab := { b.fab with links := pow (pow b.fab.links 16 .north) 17 .south } }

theorem vioUp_eq (h : s.body.md.state = 1 ∧ s.body.md.step = 3 ∧ s.body.md.inputGood = true ∧ s.body.md.modPg = false) :
    vioUp s = if mustFail (vioOn s).body then failUp (vioOn s) else vioOn s := by
  obtain ⟨h1, h3, hi, hg⟩ := h
  exact if_pos ⟨h1, h3, hi, by rw [hg]; rfl⟩

theorem vioOn_up (s : State) : VioUp s (vioOn s) := by
  have hn (c d : Bool) (m : Mgmt) (hc : c = true) :
      (if d = true then setPm (if c = true then setPm m .north .booting else m) .south .booting else if c = true then setPm m .north .booting else m).nSt =
        .booting := by
    subst hc
    cases d
    · rfl
    · rfl
  have hs (d : Bool) (m : Mgmt) (hd : d = true) : (if d = true then setPm m .south .booting else m).sSt = .booting := by
    subst hd
    rfl
  have hc (x : Side) (h : sideDie x ∉ s.body.restoreRetired.data.dieOut) : (!s.body.restoreRetired.data.dieOut.contains (sideDie x)) = true := by
    simpa using h
  exact ⟨rfl, rfl, rfl, rfl, fun h => hn _ _ _ (hc .north h), fun h => hs _ _ (hc .south h), rfl, rfl⟩

theorem vioUp_up (h : s.body.md.state = 1 ∧ s.body.md.step = 3 ∧ s.body.md.inputGood = true ∧ s.body.md.modPg = false) : VioUp s (vioUp s) := by
  have hv := vioOn_up s
  rw [vioUp_eq h]
  split
  · exact ⟨hv.modPg, hv.step, hv.input, hv.latch, hv.north, hv.south, hv.chans, hv.frames⟩
  · exact hv

theorem stepDone_two (v : State) : stepDone 2 v false = vioUp (v.setMd (stepMd 2 v)) := by
  unfold stepDone
  dsimp only
  rw [Bool.false_and, if_neg Bool.false_ne_true, if_neg (by simp), if_neg (by decide), if_pos rfl]
  rfl

theorem bringup_two (h : s.body.md.state = 1) (hs : s.body.md.step = 2) : Makes (.bringupStepEnd r) s fun u =>
    u.latch = Latch.reset ∧ u.body.md.step = 3 ∧
    (s.body.md.inputGood = false → u.body.md.modPg = s.body.md.modPg ∧ u.body.mg = s.body.mg) ∧
    (s.body.md.inputGood = true → u.body.md.modPg = true ∧ (s.body.md.modPg = false → (8 ∉ u.body.data.dieOut → u.body.mg.nSt = .booting) ∧
      (9 ∉ u.body.data.dieOut → u.body.mg.sSt = .booting))) := by
  have hw : stepWork s r = some (s.setLatch Latch.reset, false) := by
    unfold stepWork
    rw [hs]
    rfl
  refine bringup_makes h hw ?_
  rw [hs, stepDone_two]
  by_cases hi : s.body.md.inputGood = true ∧ s.body.md.modPg = false
  · have hv := vioUp_up (s := (s.setLatch Latch.reset).setMd (stepMd 2 (s.setLatch Latch.reset))) ⟨h, rfl, hi.1, hi.2⟩
    refine ⟨hv.latch, hv.step, fun hn => ?_, fun _ => ⟨hv.modPg, fun _ => ⟨hv.north, hv.south⟩⟩⟩
    rw [hi.1] at hn
    cases hn
  · rw [vioUp_stays]
    · refine ⟨rfl, rfl, fun _ => ⟨rfl, rfl⟩, fun hg => ?_⟩
      have hm : s.body.md.modPg = true := by
        by_contra hm
        exact hi ⟨hg, Bool.eq_false_iff.2 hm⟩
      exact ⟨hm, fun hn => by rw [hm] at hn; cases hn⟩
    · by_cases hg : s.body.md.inputGood = true
      · refine .inr (.inr (.inr ?_))
        by_contra hm
        exact hi ⟨hg, Bool.eq_false_iff.2 hm⟩
      · exact .inr (.inr (.inl (Bool.eq_false_iff.2 hg)))

theorem input_good (h : s.body.md.inputGood = false) (h1 : s.body.md.state = 1) (h3 : s.body.md.step = 3) (hg : s.body.md.modPg = false) :
    Makes .inputGood s fun u => u.body.md.inputGood = true ∧ u.body.md.modPg = true ∧ (8 ∉ u.body.data.dieOut → u.body.mg.nSt = .booting) ∧
      (9 ∉ u.body.data.dieOut → u.body.mg.sSt = .booting) ∧ u.body.data.chanOut = s.body.flash.channels ∧ u.body.data.frameOut = s.body.flash.frames := by
  have hv := vioUp_up (s := s.setMd { s.body.md with inputGood := true }) ⟨h1, h3, rfl, hg⟩
  refine makes_of_run (show _ = execInputGood s from rfl) ?_
  rw [if_neg (by rw [h]; exact Bool.false_ne_true)]
  exact ⟨hv.input, hv.modPg, hv.north, hv.south, hv.chans, hv.frames⟩

theorem input_good_kept (h : s.body.md.inputGood = false) (hn : s.body.md.state ≠ 1 ∨ s.body.md.step ≠ 3 ∨ s.body.md.modPg = true) :
    Leaves .inputGood s (s.setMd { s.body.md with inputGood := true }) := by
  refine leaves_of_run (show _ = execInputGood s from rfl) ?_
  rw [if_neg (by rw [h]; exact Bool.false_ne_true)]
  exact vioUp_stays (hn.imp id fun hn => hn.imp id .inr)

theorem stepWork_three (hs : s.body.md.step = 3) (hg : s.body.md.modPg = true) : stepWork s r =
    if !(endStep3 s r).2 then some ((endStep3 s r).1, true) else if s.gate then some ((endStep3 s r).1, false) else none := by
  unfold stepWork
  rw [hs]
  exact if_pos hg

theorem bringup_three_waits (hs : s.body.md.step = 3) (hg : s.body.md.modPg = false) : Leaves (.bringupStepEnd r) s s := by
  refine bringup_leaves ?_
  unfold stepWork
  rw [hs]
  exact if_neg (by rw [hg]; exact Bool.false_ne_true)

/-- Step 3 ends with an image that runs. -/
theorem bringup_three {t : State} (h : s.body.md.state = 1) (hs : s.body.md.step = 3) (hg : s.body.md.modPg = true) (hl : s.gate = true)
    (hm : mustFail s.body = false) (hb : bootSlot s 1 r = (t, true)) (ht : t.body.data.dieOut = s.body.data.dieOut ∧ t.body.pw = s.body.pw) :
    Makes (.bringupStepEnd r) s fun u => u = (step3Rest t).setMd (stepMd 3 (step3Rest t)) := by
  have he := (endStep3_of hb).trans (if_pos rfl)
  have hr := step3Rest_told t
  have hw : stepWork s r = some (step3Rest t, false) := by
    rw [stepWork_three hs hg, he, hl]
    rfl
  refine bringup_makes h hw ?_
  rw [hs]
  exact stepDone_next (by decide) (.inr ((mustFail_congr (hr.dies.trans ht.1) (hr.pw.trans ht.2)).trans hm))

theorem bringup_recovers {comp : Nat} (h : s.body.md.state = 1) (hn : s.body.md.step = 3 ∨ s.body.md.step = 10) {x : Slots}
    (hw : stepWork s r = some (setSlots s comp x, true)) : Makes (.bringupStepEnd r) s fun u => u.body.md.recovery = true ∧
      u.body.md.state = 4 ∧ u.body.md.step = s.body.md.step ∧ u.body.mg.nSt = .off ∧ u.body.mg.sSt = .off := by
  refine bringup_makes h hw ?_
  rw [stepDone_recovers hn]
  exact ⟨rfl, rfl, rfl, rfl, rfl⟩

theorem bringup_three_none (h : s.body.md.state = 1) (hs : s.body.md.step = 3) (hg : s.body.md.modPg = true) (ha : r.activeOk = false)
    (ho : r.otherOk = false) : Makes (.bringupStepEnd r) s fun u => u.body.md.recovery = true ∧
      u.body.md.state = 4 ∧ u.body.md.step = 3 ∧ u.body.mg.nSt = .off ∧ u.body.mg.sSt = .off := by
  obtain ⟨x, hb⟩ := bootSlot_none (s := s) (comp := 1) ha ho
  have he := (endStep3_of hb).trans (if_neg Bool.false_ne_true)
  have hw : stepWork s r = some (setSlots s 1 x, true) := by
    rw [stepWork_three hs hg, he]
    rfl
  have hm := bringup_recovers h (.inl hs) hw
  rwa [hs] at hm

theorem bringup_four (h : s.body.md.state = 1) (hs : s.body.md.step = 4) : (mayPower s = false → Leaves (.bringupStepEnd r) s s) ∧
    (mayPower s = true → mustFail s.body = false → Makes (.bringupStepEnd r) s fun u => u.body.md.step = 5 ∧ u.body.md.coolWait = false ∧
      u.body.md.latchTherm = none ∧ u.body.data = s.body.data) := by
  have hw : stepWork s r = if mayPower s then some (s.setMd { s.body.md with coolWait := false, latchTherm := none }, false) else none := by
    unfold stepWork
    rw [hs]
    rfl
  refine ⟨fun hp => bringup_leaves (hw.trans (if_neg (by rw [hp]; exact Bool.false_ne_true))), fun hp hm => bringup_makes h (hw.trans (if_pos hp)) ?_⟩
  rw [hs, stepDone_next (v := s.setMd { s.body.md with coolWait := false, latchTherm := none }) (by decide) (.inr hm)]
  exact ⟨rfl, rfl, rfl, rfl⟩

theorem mayPower_iff (s : State) : mayPower s = true ↔
    (s.body.md.coolWait = true → s.body.pw.coolantOk = true ∧ s.body.pw.coolantSince + 10000000 ≤ s.alm.beat) ∧
    (s.body.md.latchTherm.isSome = true → cool s.body.pw = true) := by
  unfold mayPower
  dsimp only
  rw [Bool.and_eq_true, Bool.or_eq_true, Bool.or_eq_true, Bool.not_eq_true', Bool.and_eq_true, decide_eq_true_iff, Option.isNone_iff_eq_none]
  refine and_congr ?_ ?_
  · cases s.body.md.coolWait
    · simp
    · simp
  · cases s.body.md.latchTherm
    · simp
    · simp

variable {s v u : State} {r : BringResult} {bad : Bool} {n : Nat}

/-! ### Steps 5 to 9 -/

theorem Outage.of_if {s : State} {p : Prop} [Decidable p] {u : State} (h : Outage s u) : Outage s (if p then u else s) := by
  split
  · exact h
  · exact refl s

/-- The work of step 5. -/
def step5 (s : State) (r : BringResult) : State :=
  r.ioOut.foldl (fun (s : State) x => ioOut s x 2) (r.diesOut.foldl (fun (s : State) i => if i < 8 then dieOut s i 4 else s)
    (loseDispatchers (loseEngines (loseCores s r.coresOff r.coresArrayOff 452) r.engines 452) r.dispatchers))

/-- What tested units become. -/
structure UnitsLost (r : BringResult) (v : State) : Prop where
  cores : ∀ c ∈ r.coresOff, c < 672 → v.body.data.coreState c = .off
  engs : ∀ n ∈ r.engines, n < 144 → n ∈ v.body.data.engOut

theorem UnitsLost.outage (h : UnitsLost r v) (k : Outage v u) : UnitsLost r u :=
  ⟨fun c hc hn => k.cores c (h.cores c hc hn), fun n hn hk => k.engs n (h.engs n hn hk)⟩

theorem unitsLost (s : State) (r : BringResult) (cause : Nat) :
    UnitsLost r (loseEngines (loseCores s r.coresOff r.coresArrayOff cause) r.engines cause) :=
  ⟨fun c hc hn => (Outage.loseEngines ..).cores c (loseCores_off hc hn s r.coresArrayOff cause), fun _ hn hk => mem_loseEngines hn hk _ cause⟩

theorem step5_lost (s : State) (r : BringResult) : UnitsLost r (step5 s r) ∧ (∀ n ∈ r.dispatchers, n < 8 → n ∈ (step5 s r).body.md.dispOut) ∧
    (∀ i ∈ r.diesOut, i < 8 → i ∈ (step5 s r).body.data.dieOut) ∧ (step5 s r).body.md.state = s.body.md.state := by
  obtain ⟨hd, hm⟩ := loseDispatchers_lost r.dispatchers (loseEngines (loseCores s r.coresOff r.coresArrayOff 452) r.engines 452)
  have hu := unitsLost s r 452
  have h₀ := (Outage.loseCores s r.coresOff r.coresArrayOff 452).trans (Outage.loseEngines _ r.engines 452)
  have h₂ := Outage.foldl (fun s i => Outage.of_if (p := i < 8) (Outage.dieOut s i 4)) r.diesOut
    (loseDispatchers (loseEngines (loseCores s r.coresOff r.coresArrayOff 452) r.engines 452) r.dispatchers)
  have h₃ := Outage.foldl (fun s x => Outage.ioOut s x 2) r.ioOut (r.diesOut.foldl (fun (s : State) i => if i < 8 then dieOut s i 4 else s)
    (loseDispatchers (loseEngines (loseCores s r.coresOff r.coresArrayOff 452) r.engines 452) r.dispatchers))
  have hs : UnitsLost r (loseDispatchers (loseEngines (loseCores s r.coresOff r.coresArrayOff 452) r.engines 452) r.dispatchers) :=
    ⟨fun c hc hn => by rw [hd.data]; exact hu.cores c hc hn, fun n hn hk => by rw [hd.data]; exact hu.engs n hn hk⟩
  have hmd := (h₂.trans h₃).md
  refine ⟨hs.outage (h₂.trans h₃), fun n hn h8 => ?_, fun i hi h8 => h₃.dies i ?_, ?_⟩
  · show n ∈ (step5 s r).body.md.dispOut
    rw [step5, hmd]
    exact hm n hn h8
  · refine Outage.foldl_mem (Q := fun i s => i < 8 → i ∈ s.body.data.dieOut) (fun s i => Outage.of_if (Outage.dieOut s i 4)) (fun s i h8 => ?_)
      (fun j _ _ h hs hj => h.dies j (hs hj)) hi _ h8
    rw [if_pos h8]
    exact mem_dieOut_dieOut ..
  · rw [step5, hmd]
    have hst := congrArg Module.state hd.md
    exact hst.trans (congrArg Module.state h₀.md)

theorem bringup_five_nine (h : s.body.md.state = 1) (hs : s.body.md.step = 5 ∨ s.body.md.step = 9) : Makes (.bringupStepEnd r) s fun u =>
    (∀ c ∈ r.coresOff, c < 672 → u.body.data.coreState c = .off) ∧ (∀ n ∈ r.engines, n < 144 → n ∈ u.body.data.engOut) ∧
    (s.body.md.step = 5 → ∀ n ∈ r.dispatchers, n < 8 → n ∈ u.body.md.dispOut) ∧ (s.body.md.step = 5 → ∀ i ∈ r.diesOut, i < 8 → i ∈ u.body.data.dieOut) ∧
    (s.body.md.step = 5 → r.bridgeFail = true → u.body.md.state = 4) ∧
    (mustFail u.body = false → r.bridgeFail = false ∨ s.body.md.step = 9 → u.body.md.step = s.body.md.step + 1 ∧ u.body.md.state = 1) := by
  rcases hs with hs | hs
  · have hw : stepWork s r = some (step5 s r, r.bridgeFail) := by
      unfold stepWork
      rw [hs]
      rfl
    obtain ⟨hu, hd, hi, hm⟩ := step5_lost s r
    refine bringup_makes h hw ?_
    rw [hs]
    have ht := stepDone_stepped (n := 5) (v := step5 s r) (bad := r.bridgeFail) (by decide) (by decide)
    refine ⟨fun c hc hn => (ht.coreState c).trans (hu.cores c hc hn), fun n hn hk => ht.engOut.symm ▸ hu.engs n hn hk,
      fun _ n hn hk => ht.disp.symm ▸ hd n hn hk, fun _ i hk h8 => ht.dieOut.symm ▸ hi i hk h8, fun _ hb => ht.failed hb, fun hf hb => ?_⟩
    exact ht.next hf (hb.resolve_right (by decide)) (hm.trans h)
  · have hw : stepWork s r = some (loseEngines (loseCores s r.coresOff r.coresArrayOff 457) r.engines 457, false) := by
      unfold stepWork
      rw [hs]
      rfl
    have hu := unitsLost s r 457
    have hm := ((Outage.loseCores s r.coresOff r.coresArrayOff 457).trans (Outage.loseEngines _ r.engines 457)).md
    refine bringup_makes h hw ?_
    rw [hs]
    have ht := stepDone_stepped (n := 9) (v := loseEngines (loseCores s r.coresOff r.coresArrayOff 457) r.engines 457) (bad := false)
      (by decide) (by decide)
    refine ⟨fun c hc hn => (ht.coreState c).trans (hu.cores c hc hn), fun n hn hk => ht.engOut.symm ▸ hu.engs n hn hk,
      fun h5 => absurd h5 (by decide), fun h5 => absurd h5 (by decide), fun h5 => absurd h5 (by decide), fun hf _ => ?_⟩
    exact ht.next hf rfl ((congrArg Module.state hm).trans h)

/-- The channels that step 6 finds. -/
def step6Chans (s : State) (r : BringResult) : List Nat := r.channels.filter fun c => decide (c < 512) && !s.body.data.chanOut.contains c

/-- The test that step 7 will run is chosen. -/
def step6Choice (s : State) (r : BringResult) : State :=
  s.setMd { s.body.md with memtest := if shortTest s.body (step6Chans s r) then 2 else 1 }

theorem bringup_six (h : s.body.md.state = 1) (hs : s.body.md.step = 6) : Makes (.bringupStepEnd r) s fun u =>
    (∀ c ∈ r.channels, c < 512 → c ∈ u.body.data.chanOut) ∧
    (u.body.md.memtest = 1 ∨ u.body.md.memtest = 2) ∧ (s.body.md.fullValid = false → u.body.md.memtest = 1) ∧
    (mustFail u.body = false → u.body.md.step = 7 ∧ u.body.md.state = 1) := by
  have hw : stepWork s r = some ((step6Chans s r).foldl (fun (s : State) c => chanRetire s c) (step6Choice s r), false) := by
    unfold stepWork
    rw [hs]
    rfl
  have ho := Outage.foldl (fun s c => Outage.chanRetire s c) (step6Chans s r) (step6Choice s r)
  have hm : _ = (if shortTest s.body (step6Chans s r) then 2 else 1) := congrArg Module.memtest ho.md
  refine bringup_makes h hw ?_
  rw [hs]
  have ht := stepDone_stepped (n := 6) (v := (step6Chans s r).foldl (fun (s : State) c => chanRetire s c) (step6Choice s r)) (bad := false)
    (by decide) (by decide)
  refine ⟨fun c hc hn => ht.chanOut.symm ▸ ?_, ?_, fun hv => ?_, fun hf => ht.next hf rfl ((congrArg Module.state ho.md).trans h)⟩
  · by_cases hk : c ∈ s.body.data.chanOut
    · exact ho.chans c hk
    · refine Outage.foldl_mem (Q := fun c s => c ∈ s.body.data.chanOut) (fun s c => Outage.chanRetire s c) (fun s c => mem_chanRetire s c)
        (fun c _ _ h hs => h.chans c hs) (List.mem_filter.2 ⟨hc, ?_⟩) _
      simpa [hn] using hk
  · rw [ht.memtest, hm]
    split
    · exact .inr rfl
    · exact .inl rfl
  · rw [ht.memtest, hm]
    refine if_neg ?_
    unfold shortTest
    rw [hv]
    simp

/-- The module's account after a memory test. -/
def testMd (s : State) (r : BringResult) : Module :=
  let full := s.body.md.memtest = 1
  let md := s.body.md
  let md := if full then { md with lastFullAge := 0, fullValid := md.fullValid || r.testPassed }
    else { md with lastFullAge := md.standbyBeats - s.body.flash.lastFull }
  if full && r.testPassed then { md with spoiled := false } else md

/-- The frames that a memory test finds. -/
def testFrames (s : State) (r : BringResult) : List Nat :=
  r.frames.filter fun f => decide (f < 512 * 16384) && !s.body.data.frameOut.contains f

/-- The state once the frames that a memory test finds are out. -/
def testFound (s : State) (r : BringResult) : State :=
  s.setBody { s.body with
    data := { s.body.data with frameOut := (testFrames s r).foldl sadd s.body.data.frameOut }
    md := testMd s r
    flash := if s.body.md.memtest = 1 && r.testPassed then { s.body.flash with lastFull := (testMd s r).standbyBeats } else s.body.flash }

theorem endMemtest_eq (s : State) (r : BringResult) : ∃ (l : List Nat) (code unit : Nat) (fs : List (Nat × Nat)), endMemtest s r =
    (l.foldl (fun (s : State) c => if c < 512 then chanRetire s c else s) (testFound s r)).post code unit fs := by
  unfold endMemtest testFound testMd testFrames
  exact ⟨_, _, _, _, rfl⟩

theorem testMd_state (s : State) (r : BringResult) : (testMd s r).state = s.body.md.state := by
  unfold testMd
  dsimp only
  split
  · split
    · rfl
    · rfl
  · split
    · rfl
    · rfl

theorem testMd_age (r : BringResult) (h : s.body.md.memtest = 1) : (testMd s r).lastFullAge = 0 := by
  unfold testMd
  dsimp only
  rw [if_pos h]
  split
  · rfl
  · rfl

theorem mem_testFound {f : Nat} (hf : f ∈ r.frames) (hn : f < 512 * 16384) (s : State) : f ∈ (testFound s r).body.data.frameOut := by
  refine mem_foldl_sadd.2 ?_
  by_cases h : f ∈ s.body.data.frameOut
  · exact .inr h
  · refine .inl (List.mem_filter.2 ⟨hf, ?_⟩)
    rw [decide_eq_true hn]
    simpa using h

theorem bringup_seven (h : s.body.md.state = 1) (hs : s.body.md.step = 7) : Makes (.bringupStepEnd r) s fun u =>
    (∀ f ∈ r.frames, f < 512 * 16384 → f ∈ u.body.data.frameOut) ∧
    (s.body.md.memtest = 1 → u.body.md.lastFullAge = 0) ∧ (mustFail u.body = false → u.body.md.step = 8 ∧ u.body.md.state = 1) := by
  have hw : stepWork s r = some (endMemtest s r, false) := by
    unfold stepWork
    rw [hs]
    rfl
  obtain ⟨l, code, unit, fs, he⟩ := endMemtest_eq s r
  have ho := (Outage.foldl (fun s c => Outage.of_if (p := c < 512) (Outage.chanRetire s c)) l (testFound s r)).trans (Outage.post _ code unit fs)
  rw [← he] at ho
  refine bringup_makes h hw ?_
  rw [hs]
  have ht := stepDone_stepped (n := 7) (v := endMemtest s r) (bad := false) (by decide) (by decide)
  refine ⟨fun f hf hn => ht.frameOut.symm ▸ ho.frames f (mem_testFound hf hn s), fun hm => ?_, fun hf => ht.next hf rfl ?_⟩
  · exact ht.age.trans ((congrArg Module.lastFullAge ho.md).trans (testMd_age r hm))
  · exact (congrArg Module.state ho.md).trans ((testMd_state s r).trans h)

/-- A slice that step 8 finds. -/
def loseSlice (s : State) (k : Nat) : State :=
  if k < 448 ∧ mgetD s.body.data.slices k .inService ≠ .out then sliceRetire s k else s

theorem bringup_eight (h : s.body.md.state = 1) (hs : s.body.md.step = 8) : Makes (.bringupStepEnd r) s fun u =>
    (∀ k ∈ r.slices, k < 448 → mgetD u.body.data.slices k .inService = .out) ∧
    (mustFail u.body = false → u.body.md.step = 9 ∧ u.body.md.state = 1) := by
  have hw : stepWork s r = some (r.slices.foldl loseSlice s, false) := by
    unfold stepWork
    rw [hs]
    rfl
  have hl (s : State) (k : Nat) : Outage s (loseSlice s k) := Outage.of_if (Outage.sliceRetire s k)
  have ho := Outage.foldl hl r.slices s
  refine bringup_makes h hw ?_
  rw [hs]
  have ht := stepDone_stepped (n := 8) (v := r.slices.foldl loseSlice s) (bad := false) (by decide) (by decide)
  refine ⟨fun k hk hn => ?_, fun hf => ht.next hf rfl ((congrArg Module.state ho.md).trans h)⟩
  rw [ht.slices]
  refine Outage.foldl_mem (Q := fun k s => k < 448 → mgetD s.body.data.slices k .inService = .out) hl (fun s k hn => ?_)
    (fun k _ _ h hs hn => h.slices k (hs hn)) hk s hn
  unfold loseSlice
  split
  · exact sliceRetire_slices s k
  · next hc =>
    by_contra hne
    exact hc ⟨hn, hne⟩

variable {s v u : State} {r : BringResult} {bad : Bool} {n : Nat}

/-! ### Steps 10 to 12 -/

theorem stepWork_ten (hs : s.body.md.step = 10) {t : State} {ok : Bool} (hb : bootSlot s 2 r = (t, ok)) : stepWork s r = some (t, !ok) := by
  unfold stepWork
  rw [hs]
  show some ((bootSlot s 2 r).1, !(bootSlot s 2 r).2) = _
  rw [hb]

theorem bringup_ten (h : s.body.md.state = 1) (hs : s.body.md.step = 10) (hm : mustFail s.body = false) : let x := s.body.flash.tordy
    ((if x.active then x.bValid else x.aValid) = true → r.activeOk = true → Makes (.bringupStepEnd r) s fun u => u.body.md.step = 11 ∧
      u.body.md.state = 1 ∧ u.body.flash.tordy = { x with running := x.active } ∧ u.body.data = s.body.data) ∧
    (r.activeOk = false → r.otherOk = false → Makes (.bringupStepEnd r) s fun u => u.body.md.recovery = true ∧ u.body.md.state = 4) := by
  refine ⟨fun hv ha => bringup_makes h (stepWork_ten hs (bootSlot_active hv ha)) ?_, fun ha ho => ?_⟩
  · rw [hs, Bool.not_true, stepDone_next (v := setSlots s 2 { s.body.flash.slots 2 with running := (s.body.flash.slots 2).active }) (by decide) (.inr hm)]
    exact ⟨rfl, h, rfl, rfl⟩
  · obtain ⟨x, hb⟩ := bootSlot_none (s := s) (comp := 2) ha ho
    exact (bringup_recovers h (.inr hs) (stepWork_ten hs hb)).mono fun u hu => ⟨hu.1, hu.2.1⟩

/-- A port's lanes that step 11 finds. -/
def trainPort (s : State) (e : Nat × BitVec 8) : State :=
  if e.1 < 18 ∧ (s.body.fab.link e.1).cable ∧ (laneCount e.2 = 8 ∨ (e.1 < 16 ∧ (laneCount e.2 = 4 ∨ laneCount e.2 = 2))) then
    sendSurvey (s.setLink e.1 ((s.body.fab.link e.1).trainedOn e.2)) e.1
  else s

/-- The link once its record has left. -/
theorem sendSurvey_links (s : State) (k : Nat) : (sendSurvey s k).body.md = s.body.md ∧ (sendSurvey s k).body.pw = s.body.pw ∧
    (sendSurvey s k).body.data.dieOut = s.body.data.dieOut ∧ ({ s.body.fab.link k with surveyDue := true }).sentBut ((sendSurvey s k).body.fab.link k) ∧
    ∀ j, j ≠ k → (sendSurvey s k).body.fab.link j = s.body.fab.link j := by
  refine ⟨rfl, rfl, rfl, ?_, fun j hj => ?_⟩
  · have h₁ := link_setLink_self ({ s.body with data := { s.body.data with free := s.body.data.free + 1 } } : Body) k { s.body.fab.link k with surveyDue := true }
    have h₂ := (Body.Driven.linkPut (({ s.body with data := { s.body.data with free := s.body.data.free + 1 } } : Body).setLink k
      { s.body.fab.link k with surveyDue := true }) k (.survey (surveyOf s.body k (1000 * s.alm.beat + Config.freeNat s.body.data.free % 1000) 0 0))).links k
    rw [h₁] at h₂
    exact h₂
  · exact (link_setLink_ne _ hj _).trans (link_setLink_ne _ hj _)

theorem trainPort_links {k : Nat} {lanes : BitVec 8} (hk : k < 18) (hc : (s.body.fab.link k).cable = true) (hn : laneCount lanes = 8) :
    (trainPort s (k, lanes)).body.md = s.body.md ∧ mustFail (trainPort s (k, lanes)).body = mustFail s.body ∧
    ((trainPort s (k, lanes)).body.fab.link k).trained = true ∧ ((trainPort s (k, lanes)).body.fab.link k).lanes = lanes ∧
    ∀ j, j ≠ k → (trainPort s (k, lanes)).body.fab.link j = s.body.fab.link j := by
  unfold trainPort
  rw [if_pos ⟨hk, hc, .inl hn⟩]
  obtain ⟨hm, hp, hd, hl, ho⟩ := sendSurvey_links (s.setLink k ((s.body.fab.link k).trainedOn lanes)) k
  have hs : (s.setLink k ((s.body.fab.link k).trainedOn lanes)).body.fab.link k = (s.body.fab.link k).trainedOn lanes := link_setLink_self s.body k _
  refine ⟨hm, mustFail_congr hd hp, ?_, ?_, fun j hj => (ho j hj).trans (link_setLink_ne s.body hj _)⟩
  · exact (congrArg LinkSt.trained hl).trans (congrArg LinkSt.trained hs)
  · exact (congrArg LinkSt.lanes hl).trans (congrArg LinkSt.lanes hs)

theorem bringup_eleven {k : Nat} {lanes : BitVec 8} (h : s.body.md.state = 1) (hs : s.body.md.step = 11) (hm : mustFail s.body = false)
    (hr : r.links = [(k, lanes)]) (hk : k < 18) (hc : (s.body.fab.link k).cable = true) (hn : laneCount lanes = 8) :
    Makes (.bringupStepEnd r) s fun u => u.body.md.step = 12 ∧
      (u.body.fab.link k).trained = true ∧ (u.body.fab.link k).lanes = lanes ∧ ∀ j, j ≠ k → u.body.fab.link j = s.body.fab.link j := by
  have hw : stepWork s r = some (r.links.foldl trainPort s, false) := by
    unfold stepWork
    rw [hs]
    rfl
  obtain ⟨_, hf, ht, hl, ho⟩ := trainPort_links hk hc hn
  refine bringup_makes h hw ?_
  rw [hs, hr]
  refine (stepDone_next (n := 11) (v := trainPort s (k, lanes)) (by decide) (.inr (hf.trans hm))).symm ▸ ?_
  exact ⟨rfl, ht, hl, ho⟩

/-- The save areas of the dies in service are placed. -/
def placeAll (d : Data) : Data :=
  (List.range 8).foldl (fun (d : Data) i => if d.dieOut.contains i then d else { d with saveArea := mput d.saveArea i (placeSave d i) }) d

theorem placeAll_mem (d : Data) : (placeAll d).mem = d.mem := by
  unfold placeAll
  refine List.foldlRecOn (motive := fun e : Data => e.mem = d.mem) _ _ rfl fun e he i _ => ?_
  split
  · exact he
  · exact he

/-- The state that step 12 leaves, the save areas being placed as `d` has them. -/
def readyWith (s : State) (d : Data) : State :=
  let b := { s.body with
    data := { d with halted := false }
    md := { s.body.md with state := 2, readyBeat := s.alm.beat, generation := 1, builtBeat := s.alm.beat, plan := s.body.planParts } }
  bringupDone (s.setBody { b with hl := { b.hl with dues := firstDues b s.alm.beat, pairs := pairsOf b.data } }) 2

theorem ready_eq (s : State) : ready s = readyWith s (placeAll s.body.data) := by
  unfold ready readyWith placeAll
  rfl

theorem readyWith_facts (s : State) (d : Data) : (readyWith s d).body.md.state = 2 ∧ (readyWith s d).body.md.readyBeat = s.alm.beat ∧
    (readyWith s d).body.md.generation = 1 ∧ (readyWith s d).body.data.halted = false ∧ (readyWith s d).body.data.mem = d.mem ∧
    ∃ p ∈ (readyWith s d).body.data.posts, p.code = 0x070C ∧ p.fields.head? = some (2, 1) :=
  ⟨rfl, rfl, rfl, rfl, rfl, _, List.mem_append_right _ (List.mem_singleton_self _), rfl, rfl⟩

theorem stepWork_twelve (hs : s.body.md.step = 12) : stepWork s r = some (s, false) := by
  unfold stepWork
  rw [hs]
  rfl

theorem bringup_twelve (h : s.body.md.state = 1) (hs : s.body.md.step = 12) (hm : mustFail s.body = false) : Makes (.bringupStepEnd r) s fun u =>
    u.body.md.state = 2 ∧ u.body.md.readyBeat = s.alm.beat ∧ u.body.md.generation = 1 ∧ u.body.data.halted = false ∧
    u.body.data.mem = s.body.data.mem ∧ ∃ p ∈ u.body.data.posts, p.code = 0x070C ∧ p.fields.head? = some (2, 1) := by
  refine bringup_makes h (stepWork_twelve hs) ?_
  have he : stepDone 12 s false = ready (s.setMd { s.body.md with stepEnds := s.body.md.stepEnds ++ [s.body.md.aonBeats] }) := by
    unfold stepDone
    dsimp only
    rw [Bool.false_and, if_neg Bool.false_ne_true, show mustFail (s.setMd { s.body.md with
      stepEnds := s.body.md.stepEnds ++ [s.body.md.aonBeats] }).body = false from hm, if_neg (by decide), if_pos rfl]
  have hf := readyWith_facts (s.setMd { s.body.md with stepEnds := s.body.md.stepEnds ++ [s.body.md.aonBeats] }) (placeAll s.body.data)
  rw [placeAll_mem] at hf
  rw [hs, he, ready_eq]
  exact hf

theorem bringup_twelve_fails (hm : mustFail s.body = true) (h : s.body.md.state = 1) (hs : s.body.md.step = 12) (r : BringResult) :
    Makes (.bringupStepEnd r) s fun u => u.body.md.state = 4 ∧ ∃ p ∈ u.body.data.posts, p.code = 0x070C ∧ p.fields.head? = some (4, 1) := by
  refine bringup_makes h (stepWork_twelve hs) ?_
  rw [hs, stepDone_fails (by decide) (.inr ⟨by decide, hm⟩)]
  exact ⟨rfl, _, List.mem_append_right _ (List.mem_singleton_self _), rfl, rfl⟩

/-- Settles O49: a step's work takes units away by rules that never bring one back, and its end looks once at what is left. -/
theorem bringUp : Obligations.BringUp := by
  unfold Obligations.BringUp
  refine ⟨fun s r h => leaves_of_run (show _ = execBringupStepEnd r s from rfl) (if_pos h), fun s r => bringup_one, fun s r => bringup_two,
    fun s => ⟨fun h => leaves_of_run (show _ = execInputGood s from rfl) (if_pos h), input_good_kept, input_good⟩,
    fun s r h hs => ⟨bringup_three_waits hs, fun hg hl hm hv ha => ?_, fun hg hl hm hv ha ho hp => ?_, bringup_three_none h hs⟩,
    fun s r => bringup_four, mayPower_iff, fun s r => bringup_five_nine, fun s r => bringup_six, fun s r => bringup_seven, fun s r => bringup_eight,
    fun s r => bringup_ten, fun s r k lanes => bringup_eleven, fun s r => bringup_twelve, fun s hm h hs => bringup_twelve_fails hm h hs⟩
  · refine (bringup_three h hs hg hl hm (bootSlot_active hv ha) ⟨rfl, rfl⟩).mono fun u hu => ?_
    have ht := step3Rest_told (setSlots s 1 { s.body.flash.polmen with running := s.body.flash.polmen.active })
    have hf : (step3Rest (setSlots s 1 { s.body.flash.polmen with running := s.body.flash.polmen.active })).body.flash.polmen =
      { s.body.flash.polmen with running := s.body.flash.polmen.active } := congrArg Flash.polmen ht.flash
    have hst := congrArg Module.state ht.md
    have hse := congrArg Module.stepEnds ht.md
    have hao := congrArg Module.aonBeats ht.md
    subst hu
    refine ⟨rfl, hst.trans h, hf, ?_, ht.cals⟩
    exact congrArg₂ (fun l (b : Nat) => l ++ [b]) hse hao
  · obtain ⟨x, hx, hr, hb⟩ := bootSlot_other (s := s) (comp := 1) ha ho hp
    refine (bringup_three h hs hg hl hm hb ⟨rfl, rfl⟩).mono fun u hu => ?_
    have ht := step3Rest_told ((setSlots s 1 x).post 0x070D 0 [(1, 0), (boolNat s.body.flash.polmen.active, 0), (boolNat (!s.body.flash.polmen.active), 0),
      (s.body.flash.polmen.spare.2, 0)])
    have hf := congrArg Flash.polmen ht.flash
    subst hu
    refine ⟨rfl, (congrArg Slots.active hf).trans hx, (congrArg Slots.running hf).trans hr, ht.posts.subset ?_⟩
    exact List.mem_append_right _ (List.mem_singleton_self _)

end Sys2Proof.Machine
end

section
/-! The management port. -/

namespace Sys2Proof.Machine

/-! ### Commands of MG -/

variable {s : State} {c : Instr} {f : State → State}

theorem mgCmd_leaves (he : exec c s = mgCmd s f) (hu : mgUp s = true) (hl : s.latch.fault = false) : Leaves c s (f s) := by
  refine leaves_of_run (f := fun s => if mgUp s && !s.latch.fault then f s else s) he ?_
  rw [hu, hl]
  exact if_pos rfl

theorem mgCmd_makes {P : State → Prop} (he : exec c s = mgCmd s f) (hu : mgUp s = true) (hl : s.latch.fault = false) (h : P (f s)) : Makes c s P := by
  refine makes_of_run (f := fun s => if mgUp s && !s.latch.fault then f s else s) he ?_
  rw [hu, hl]
  exact h

theorem mgCmd_silent (he : exec c s = mgCmd s f) (h : mgUp s = false ∨ s.latch.fault = true) : Leaves c s s := by
  refine leaves_of_run (f := fun s => if mgUp s && !s.latch.fault then f s else s) he (if_neg ?_)
  rw [Bool.and_eq_true, Bool.not_eq_true']
  rintro ⟨hu, hl⟩
  rcases h with h | h
  · rw [hu] at h
    cases h
  · rw [hl] at h
    cases h

theorem mgReading_leaves (he : exec c s = mgReading s f) (hu : mgUp s = true) : Leaves c s (f s) :=
  leaves_of_run (f := fun s => if mgUp s then f s else s) he (if_pos hu)

theorem mgReading_silent (he : exec c s = mgReading s f) (hu : mgUp s = false) : Leaves c s s :=
  leaves_of_run (f := fun s => if mgUp s then f s else s) he (if_neg (by rw [hu]; exact Bool.false_ne_true))

/-- The commands that a Postmaster answers only while no latch fault stands. -/
theorem mg_silent (h : mgUp s = false ∨ s.latch.fault = true)
    (hc : c ∈ [.mctpGetEndpointId, .mctpGetVersionSupport, .mctpGetMessageTypeSupport, .mctpGetVendorMsgSupport,
      .pldmGetTid, .pldmGetPldmTypes, .pldmGetPdrRepositoryInfo] ∨ (∃ n, c ∈ [.mctpSetEndpointId n, .pldmGetPldmVersion n, .pldmGetPldmCommands n,
      .pldmGetPdr n])) : Leaves c s s := by
  simp only [List.mem_cons, List.not_mem_nil, or_false] at hc
  rcases hc with (rfl | rfl | rfl | rfl | rfl | rfl | rfl) | ⟨n, rfl | rfl | rfl | rfl⟩
  · exact mgCmd_silent (show _ = execMctpGetEndpointId s from rfl) h
  · exact mgCmd_silent (show _ = execMctpGetVersionSupport s from rfl) h
  · exact mgCmd_silent (show _ = execMctpGetMessageTypeSupport s from rfl) h
  · exact mgCmd_silent (show _ = execMctpGetVendorMsgSupport s from rfl) h
  · exact mgCmd_silent (show _ = execPldmGetTid s from rfl) h
  · exact mgCmd_silent (show _ = execPldmGetPldmTypes s from rfl) h
  · exact mgCmd_silent (show _ = execPldmGetPdrRepositoryInfo s from rfl) h
  · exact mgCmd_silent (show _ = execMctpSetEndpointId n s from rfl) h
  · exact mgCmd_silent (show _ = execPldmGetPldmVersion n s from rfl) h
  · exact mgCmd_silent (show _ = execPldmGetPldmCommands n s from rfl) h
  · exact mgCmd_silent (show _ = execPldmGetPdr n s from rfl) h

theorem mg_down (h : mgUp s = false)
    (hc : c ∈ [.mctpGetEndpointId, .mctpGetVersionSupport, .mctpGetMessageTypeSupport, .mctpGetVendorMsgSupport,
      .pldmGetTid, .pldmGetPldmTypes, .pldmGetPdrRepositoryInfo] ∨ (∃ n, c ∈ [.mctpSetEndpointId n, .pldmGetPldmVersion n, .pldmGetPldmCommands n,
      .pldmGetPdr n, .pldmGetSensorReading n, .pldmGetStateSensorReadings n])) : Leaves c s s := by
  rcases hc with hc | ⟨n, hc⟩
  · exact mg_silent (.inl h) (.inl hc)
  · by_cases hk : c ∈ [.mctpSetEndpointId n, .pldmGetPldmVersion n, .pldmGetPldmCommands n, .pldmGetPdr n]
    · exact mg_silent (.inl h) (.inr ⟨n, hk⟩)
    · simp only [List.mem_cons, List.not_mem_nil, or_false, not_or] at hc hk
      obtain ⟨h₁, h₂, h₃, h₄⟩ := hk
      rcases hc with hc | hc | hc | hc | rfl | rfl
      · exact absurd hc h₁
      · exact absurd hc h₂
      · exact absurd hc h₃
      · exact absurd hc h₄
      · exact mgReading_silent (show _ = execPldmGetSensorReading n s from rfl) h
      · exact mgReading_silent (show _ = execPldmGetStateSensorReadings n s from rfl) h

theorem leNat_natLe_of_lt {n x : Nat} (h : x < 256 ^ n) : leNat (natLe n x) = x := by
  induction n generalizing x with
  | zero =>
    rw [Nat.pow_zero, Nat.lt_one_iff] at h
    exact h.symm
  | succ n ih =>
    have hd : x / 256 < 256 ^ n := by
      rw [Nat.pow_succ] at h
      omega
    rw [natLe, leNat, ih hd, BitVec.toNat_ofNat]
    omega

/-- The bits of a mask, where those of the low `n` places are known, and it has no others. -/
theorem testBit_iff_mem {x n : Nat} {l : List Nat} (h : ∀ i, i < n → (x.testBit i = true ↔ i ∈ l)) (hx : x < 2 ^ n) (hl : ∀ i ∈ l, i < n) (i : Nat) :
    x.testBit i = true ↔ i ∈ l := by
  by_cases hi : i < n
  · exact h i hi
  · rw [Nat.testBit_lt_two_pow (hx.trans_le (Nat.pow_le_pow_right (by decide) (Nat.not_lt.1 hi)))]
    exact iff_of_false Bool.false_ne_true fun hm => hi (hl i hm)

theorem pldm_commands (hu : mgUp s = true) (hl : s.latch.fault = false) {n : Nat} (hn : n = 0 ∨ n = 2) : Makes (.pldmGetPldmCommands n) s fun u =>
    ∃ mask, u.body.host.out = s.body.host.out ++ [.mctp 0 1 ([0, 0, 5, 0] ++ mask)] ∧
      mask.length = 32 ∧ ∀ i, i < 256 → ((leNat mask).testBit i = true ↔ if n = 0 then i ∈ [2, 3, 4, 5] else i ∈ [0x11, 0x21, 0x50, 0x51]) := by
  refine mgCmd_makes (show _ = execPldmGetPldmCommands n s from rfl) hu hl ?_
  rw [if_pos hn]
  refine ⟨natLe 32 (pldmMask n), rfl, natLe_length .., fun i hi => ?_⟩
  have hm : pldmMask n < 256 ^ 32 := by
    rcases hn with rfl | rfl
    · decide
    · decide
  rw [leNat_natLe_of_lt hm]
  rcases hn with rfl | rfl
  · have h : ∀ i, i < 6 → ((0x3C : Nat).testBit i = true ↔ i ∈ [2, 3, 4, 5]) := by decide
    exact testBit_iff_mem h (by decide) (by decide) i
  · have h : ∀ i, i < 82 → ((2 ^ 0x11 + 2 ^ 0x21 + 2 ^ 0x50 + 2 ^ 0x51 : Nat).testBit i = true ↔ i ∈ [0x11, 0x21, 0x50, 0x51]) := by decide
    exact testBit_iff_mem h (by decide) (by decide) i

theorem pldm_pdr (hu : mgUp s = true) (hl : s.latch.fault = false) {h : Nat} (hh : h ≤ 16) : Makes (.pldmGetPdr h) s fun u =>
    ∃ n rec, n ≤ 52 ∧ rec.length = n ∧ u.body.host.out = s.body.host.out ++
      [.mctp 0 1 ([0, 2, 0x51, 0] ++ natLe 4 (if h = 16 then 0 else max 1 h + 1) ++ [0, 0, 0, 0, 5] ++ natLe 2 n ++ rec)] ∧ u.body.mg = s.body.mg := by
  refine mgCmd_makes (show _ = execPldmGetPdr h s from rfl) hu hl ?_
  dsimp only
  rw [if_neg (Nat.not_lt.2 hh)]
  refine ⟨Config.freeNat s.body.data.free % 53, openBytes s (Config.freeNat s.body.data.free % 53), by omega, ?_, ?_, rfl⟩
  · exact (List.length_map ..).trans List.length_range
  · show _ ++ [Output.mctp 0 1 _] = _
    simp only [List.append_assoc]
    rfl

/-! ### Letters of MG -/

theorem mgRefuse_facts (s : State) (eid : Nat) (l : Letter) (st : Nat) : (mgRefuse s eid l st).body.mg = s.body.mg ∧
    (mgRefuse s eid l st).body.mgdb.slots = s.body.mgdb.slots ∧
    ∃ b, (mgRefuse s eid l st).body.host.out = s.body.host.out ++ [.mctp eid 0x7E b] ∧ b.length = 32 := by
  refine ⟨rfl, rfl, _, rfl, ?_⟩
  rw [List.length_take, length_replyBytes]
  omega

/-- The letter that MG makes of a message. -/
def mgLetter (s : State) (body : List Byte) (slot : Nat) : Letter :=
  { bytes := (body ++ List.replicate 256 0).take 256, stamp := 3, fn := none, slot := slot, gen := 0, ringBeat := s.alm.beat }

/-- The letter has taken a slot, and joins the acceptance queue. -/
def mgTaken (s : State) (eid : Nat) (body : List Byte) (i : Nat) : State :=
  (s.setMg { s.body.mgdb with slots := mput s.body.mgdb.slots i eid, unread := false }).mg fun m => { m with accept := m.accept ++ [mgLetter s body i] }

theorem drainBad_of_row {t : State} {l : Letter} (h : t.body.mg.accept.head? = some l) (hr : hasRow l = true) (n : Nat) : drainBad n t = t := by
  cases n with
  | zero => rfl
  | succ n =>
    unfold drainBad
    obtain ⟨rest, ha⟩ := List.head?_eq_some_iff.1 h
    rw [ha]
    exact if_pos hr

theorem mg_letter (eid : Nat) (body : List Byte) : exec (.mgLetterMessage eid body) s = s.run fun s =>
    if s.latch.fault then (if mgUp s then mgRefuse s eid (mgLetter s body 0) 0x0D else s)
    else if s.body.mg.nSt = .off ∧ s.body.mg.sSt = .off ∧ !s.body.md.recovery then s
    else match (List.range 16).find? fun i => (mget s.body.mgdb.slots i).isNone with
      | none => mgRefuse s eid (mgLetter s body 0) 0x0C
      | some i => if s.acting then drainBad (mgTaken s eid body i).body.mg.accept.length (mgTaken s eid body i) else mgTaken s eid body i := rfl

variable {s : State}

theorem mg_letter_faulted (eid : Nat) (body : List Byte) (hl : s.latch.fault = true) (hu : mgUp s = true) : Makes (.mgLetterMessage eid body) s fun u =>
    u.body.mg = s.body.mg ∧ ∃ b, u.body.host.out = s.body.host.out ++ [.mctp eid 0x7E b] ∧ b.length = 32 := by
  refine makes_of_run (mg_letter eid body) ?_
  rw [if_pos hl, if_pos hu]
  have h := mgRefuse_facts s eid (mgLetter s body 0) 0x0D
  exact ⟨h.1, h.2.2⟩

theorem mg_letter_unanswered (eid : Nat) (body : List Byte) (hl : s.latch.fault = true) (hu : mgUp s = false) : Leaves (.mgLetterMessage eid body) s s := by
  refine leaves_of_run (mg_letter eid body) ?_
  rw [if_pos hl, if_neg (by rw [hu]; exact Bool.false_ne_true)]

theorem mg_letter_off (eid : Nat) (body : List Byte) (hl : s.latch.fault = false) (hn : s.body.mg.nSt = .off) (hs : s.body.mg.sSt = .off)
    (hr : s.body.md.recovery = false) : Leaves (.mgLetterMessage eid body) s s := by
  refine leaves_of_run (mg_letter eid body) ?_
  rw [if_neg (by rw [hl]; exact Bool.false_ne_true), if_pos ⟨hn, hs, by rw [hr]; rfl⟩]

theorem mg_on (h : s.body.mg.nSt ≠ .off ∨ s.body.mg.sSt ≠ .off ∨ s.body.md.recovery = true) :
    ¬(s.body.mg.nSt = .off ∧ s.body.mg.sSt = .off ∧ (!s.body.md.recovery) = true) := by
  rintro ⟨hn, hs, hr⟩
  rcases h with h | h | h
  · exact h hn
  · exact h hs
  · rw [h] at hr
    cases hr

theorem mg_letter_full (eid : Nat) (body : List Byte) (hl : s.latch.fault = false)
    (ho : s.body.mg.nSt ≠ .off ∨ s.body.mg.sSt ≠ .off ∨ s.body.md.recovery = true)
    (hf : ∀ i, i < 16 → (mget s.body.mgdb.slots i).isSome = true) : Makes (.mgLetterMessage eid body) s fun u => u.body.mg = s.body.mg ∧
      u.body.mgdb.slots = s.body.mgdb.slots ∧ ∃ b, u.body.host.out = s.body.host.out ++ [.mctp eid 0x7E b] ∧ b.length = 32 := by
  have hn : ((List.range 16).find? fun i => (mget s.body.mgdb.slots i).isNone) = none := by
    refine List.find?_eq_none.2 fun i hi => ?_
    have := hf i (List.mem_range.1 hi)
    rw [Option.isNone_iff_eq_none, ← Option.not_isSome_iff_eq_none]
    exact not_not_intro this
  refine makes_of_run (mg_letter eid body) ?_
  rw [if_neg (by rw [hl]; exact Bool.false_ne_true), if_neg (mg_on ho), hn]
  exact mgRefuse_facts ..

theorem acting_mgTaken (s : State) (eid : Nat) (body : List Byte) (i : Nat) : (mgTaken s eid body i).acting = s.acting := rfl

theorem mg_letter_taken (eid : Nat) (body : List Byte) (hl : s.latch.fault = false)
    (ho : s.body.mg.nSt ≠ .off ∨ s.body.mg.sSt ≠ .off ∨ s.body.md.recovery = true) {i : Nat} (hi : i < 16) (hn : mget s.body.mgdb.slots i = none)
    (hj : ∀ j, j < i → (mget s.body.mgdb.slots j).isSome = true)
    (ha : s.acting = false ∨ (∃ l, s.body.mg.accept.head? = some l ∧ hasRow l = true)) :
    Makes (.mgLetterMessage eid body) s fun u => mget u.body.mgdb.slots i = some eid ∧
        u.body.mg.accept = s.body.mg.accept ++ [⟨(body ++ List.replicate 256 0).take 256, 3, none, i, 0, s.alm.beat⟩] ∧ u.body.host = s.body.host := by
  have hf : ((List.range 16).find? fun i => (mget s.body.mgdb.slots i).isNone) = some i := by
    refine List.find?_range_eq_some.2 ⟨by rw [hn]; rfl, List.mem_range.2 hi, fun j h => ?_⟩
    have := hj j h
    simpa using this
  have hd : (if s.acting then drainBad (mgTaken s eid body i).body.mg.accept.length (mgTaken s eid body i) else mgTaken s eid body i) =
      mgTaken s eid body i := by
    rcases ha with ha | ⟨l, hh, hr⟩
    · exact if_neg (by rw [ha]; exact Bool.false_ne_true)
    · split
      · refine drainBad_of_row (l := l) ?_ hr _
        show (s.body.mg.accept ++ [mgLetter s body i]).head? = some l
        rw [List.head?_append, hh, Option.some_or]
      · rfl
  refine makes_of_run (mg_letter eid body) ?_
  rw [if_neg (by rw [hl]; exact Bool.false_ne_true), if_neg (mg_on ho), hf]
  dsimp only
  rw [hd]
  exact ⟨mget_mput_self .., rfl, rfl⟩

/-! ### I3C -/

theorem takeAddr_of {a : Nat} (hg : s.body.md.modPg = true) (hd : s.body.mgdb.dynAddr = none) (ha : a < 128) :
    takeAddr s a = s.setMg { s.body.mgdb with dynAddr := some a } := by
  refine if_pos ?_
  rw [hg, hd, decide_eq_true ha]
  rfl

theorem takeAddr_not {a : Nat} (h : s.body.md.modPg = false ∨ s.body.mgdb.dynAddr ≠ none ∨ 128 ≤ a) : takeAddr s a = s := by
  refine if_neg ?_
  rw [Bool.and_eq_true, Bool.and_eq_true, decide_eq_true_iff, Option.isNone_iff_eq_none]
  rintro ⟨⟨hg, hd⟩, ha⟩
  rcases h with h | h | h
  · rw [hg] at h
    cases h
  · exact h hd
  · omega

theorem i3c_addresses (s : State) (a : Nat) :
    (s.body.md.modPg = true → s.body.mgdb.dynAddr = none → a < 128 → let u := s.setMg { s.body.mgdb with dynAddr := some a }
      Leaves (.i3cEntdaa a) s u ∧ Leaves (.i3cSetdasa (0x40 + s.body.md.slotId % 32) a) s u) ∧
    (s.body.md.modPg = false ∨ s.body.mgdb.dynAddr ≠ none ∨ 128 ≤ a → Leaves (.i3cEntdaa a) s s ∧ ∀ x, Leaves (.i3cSetdasa x a) s s) ∧
    (∀ x, x ≠ 0x40 + s.body.md.slotId % 32 → Leaves (.i3cSetdasa x a) s s) := by
  refine ⟨fun hg hd ha => ⟨?_, ?_⟩, fun h => ⟨?_, fun x => ?_⟩, fun x hx => ?_⟩
  · exact leaves_of_run (show _ = execI3cEntdaa a s from rfl) (takeAddr_of hg hd ha)
  · exact leaves_of_run (show _ = execI3cSetdasa (0x40 + s.body.md.slotId % 32) a s from rfl) ((if_pos rfl).trans (takeAddr_of hg hd ha))
  · exact leaves_of_run (show _ = execI3cEntdaa a s from rfl) (takeAddr_not h)
  · refine leaves_of_run (show _ = execI3cSetdasa x a s from rfl) ?_
    split
    · exact takeAddr_not h
    · rfl
  · exact leaves_of_run (show _ = execI3cSetdasa x a s from rfl) (if_neg hx)

/-! ### Readings -/

theorem sensor_reading (hu : mgUp s = true) :
    (∀ n, 1 ≤ n → n ≤ 14 → Leaves (.pldmGetSensorReading n) s
      (mgSend s 0 1 ([0, 2, 0x11, 0, 2, 0, 0, 0, 0, 0] ++ natLe 2 (s.body.pw.sensors.getD (n - 1) 0)))) ∧
    (∀ n, n = 0 ∨ 14 < n → Leaves (.pldmGetSensorReading n) s (mgSend s 0 1 [0, 2, 0x11, 0x80])) := by
  refine ⟨fun n h1 h14 => ?_, fun n h => ?_⟩
  · have h := mgReading_leaves (show exec (.pldmGetSensorReading n) s = execPldmGetSensorReading n s from rfl) hu
    rw [if_pos ⟨h1, h14⟩] at h
    exact h
  · have h := mgReading_leaves (show exec (.pldmGetSensorReading n) s = execPldmGetSensorReading n s from rfl) hu
    rw [if_neg (by omega)] at h
    exact h

theorem state_reading (hu : mgUp s = true) :
    (∀ n, n = 20 ∨ n = 21 → let v := BitVec.ofNat 8 (if n = 20 ∧ s.latch.fault = true then 1 else s.body.pw.sensors.getD (n - 6) 0)
      Leaves (.pldmGetStateSensorReadings n) s (mgSend s 0 1 [0, 2, 0x21, 0, 1, 0, v, v, 0])) ∧
    (∀ n, n ≠ 20 → n ≠ 21 → Leaves (.pldmGetStateSensorReadings n) s (mgSend s 0 1 [0, 2, 0x21, 0x80])) := by
  refine ⟨fun n hn => ?_, fun n h20 h21 => ?_⟩
  · have h := mgReading_leaves (show exec (.pldmGetStateSensorReadings n) s = execPldmGetStateSensorReadings n s from rfl) hu
    rw [if_pos hn] at h
    exact h
  · have h := mgReading_leaves (show exec (.pldmGetStateSensorReadings n) s = execPldmGetStateSensorReadings n s from rfl) hu
    rw [if_neg (by omega)] at h
    exact h

/-- Settles O51: one rule for what MG answers, one for its readings, and one for its letters. -/
theorem managementPort : Obligations.ManagementPort := by
  unfold Obligations.ManagementPort
  refine ⟨fun s c => mg_down, fun s c hl => mg_silent (.inr hl), fun s hu hl => ⟨fun e he => ?_, fun e h8 h255 => ?_, ?_, ?_, ?_, ?_, ?_, fun n hn => ?_,
    fun n h0 h2 => ⟨?_, ?_⟩, ?_, fun n => pldm_commands hu hl, ?_, fun h hh => ?_, fun h => pldm_pdr hu hl⟩,
    fun s hu => ⟨(sensor_reading hu).1, (sensor_reading hu).2, (state_reading hu).1, (state_reading hu).2⟩,
    fun s eid body => mg_letter_unanswered eid body, fun s eid body => mg_letter_faulted eid body, fun s eid body => mg_letter_off eid body,
    fun s eid body hl ho => ⟨mg_letter_full eid body hl ho, fun i => mg_letter_taken eid body hl ho⟩, i3c_addresses⟩
  · have h := mgCmd_leaves (show exec (.mctpSetEndpointId e) s = execMctpSetEndpointId e s from rfl) hu hl
    rw [if_pos he] at h
    exact h
  · have h := mgCmd_leaves (show exec (.mctpSetEndpointId e) s = execMctpSetEndpointId e s from rfl) hu hl
    rw [if_neg (by omega)] at h
    exact h
  · exact mgCmd_leaves (show _ = execMctpGetEndpointId s from rfl) hu hl
  · exact mgCmd_leaves (show _ = execMctpGetVersionSupport s from rfl) hu hl
  · exact mgCmd_leaves (show _ = execMctpGetMessageTypeSupport s from rfl) hu hl
  · exact mgCmd_leaves (show _ = execMctpGetVendorMsgSupport s from rfl) hu hl
  · exact mgCmd_leaves (show _ = execPldmGetTid s from rfl) hu hl
  · have h := mgCmd_leaves (show exec (.pldmGetPldmVersion n) s = execPldmGetPldmVersion n s from rfl) hu hl
    rw [if_pos hn] at h
    exact h
  · have h := mgCmd_leaves (show exec (.pldmGetPldmVersion n) s = execPldmGetPldmVersion n s from rfl) hu hl
    rw [if_neg (by omega)] at h
    exact h
  · have h := mgCmd_leaves (show exec (.pldmGetPldmCommands n) s = execPldmGetPldmCommands n s from rfl) hu hl
    rw [if_neg (by omega)] at h
    exact h
  · exact mgCmd_leaves (show _ = execPldmGetPldmTypes s from rfl) hu hl
  · exact mgCmd_leaves (show _ = execPldmGetPdrRepositoryInfo s from rfl) hu hl
  · have h := mgCmd_leaves (show exec (.pldmGetPdr h) s = execPldmGetPdr h s from rfl) hu hl
    rw [if_pos hh] at h
    exact h

end Sys2Proof.Machine
end

section
/-! The edge of a beat. -/

namespace Sys2Proof.Machine

variable {s : State}

/-! ### The count after an edge, and what a step passes -/

/-- The count after an edge. -/
def edgeBeat (a : Almanac) : Nat := a.beat + 1 + ((a.step.map fun x => x.1).getD 0)

/-- A step passes an entry that counts. -/
def stepPasses (a : Almanac) (e : SEntry) : Bool :=
  a.step.isSome && e.counts && decide (a.beat < e.beat) && decide (e.beat < edgeBeat a)

/-- An entry as an edge leaves it: late if a step passes it, and due at the step if it was due at the first edge. -/
def edgeEntry (a : Almanac) (e : SEntry) : SEntry :=
  if stepPasses a e then { e with late := true } else if !e.counts && e.beat == a.beat + 1 then { e with beat := edgeBeat a } else e

/-- A sample that a step passes is not taken. -/
def sampleLost (a : Almanac) (e : SEntry) : Bool := stepPasses a e && match e.kind with
  | .sample _ => true
  | _ => false

def edgeSchedule (s : State) : List SEntry := (s.body.mg.schedule.filter fun e => !sampleLost s.alm e).map (edgeEntry s.alm)

/-- The Almanac at an edge, before what is slewed. -/
def edgeAlm (a : Almanac) : Almanac :=
  { (if a.step.isSome then a.rebase (edgeBeat a) else { a with beat := edgeBeat a }) with
    disciplined := if a.st = .locked ∨ a.st = .slewing then a.disciplined + 1 else a.disciplined
    step := none }

/-- The state at an edge, before what is slewed. -/
def edgeCounted (s : State) : State := (s.setAlm (edgeAlm s.alm)).mg fun m => { m with schedule := edgeSchedule s }

/-- The same, with the record of the samples that a step passed. -/
def edgeGap (s : State) : State :=
  if s.body.mg.schedule.any (sampleLost s.alm) then
    (edgeCounted s).post (0x0104 + Config.gapCode % 252) 0 [(s.alm.beat + 1, 0), (edgeBeat s.alm, 0)]
  else edgeCounted s

/-- The end of a step that leaves an offset. -/
def stepEnds (s t : State) (n : Nat) (off : Int) : State :=
  corrected (t.setAlm { t.alm with
    st := if (off + 1000 * n).natAbs ≤ s.alm.bound then .locked else .slewing
    since := edgeBeat s.alm
    offset := off + 1000 * n
    slew := 10 * (off + 1000 * n)
    slewFrom := off + 1000 * n }) (off - (off + 1000 * n))

/-- What is left to slew after one beat of it. -/
def slewLeft (a : Almanac) : Int := if 0 ≤ a.slew then a.slew - 1 else a.slew + 1

/-- One beat of a slew. -/
def slewOne (s t : State) : State :=
  if (slewLeft s.alm).natAbs ≤ 10 * s.alm.bound then
    corrected (t.setAlm { t.alm with st := .locked, since := edgeBeat s.alm, slew := 0, slewFrom := 0 }) s.alm.slewFrom
  else t.setAlm { t.alm with slew := slewLeft s.alm }

theorem almEdge_eq (s : State) : almEdge s = match s.alm.step with
    | some (n, off) => stepEnds s (edgeGap s) n off
    | none => if s.alm.st = .slewing then slewOne s (edgeGap s) else edgeGap s := rfl

theorem edgeAlm_beat (a : Almanac) : (edgeAlm a).beat = edgeBeat a := by
  unfold edgeAlm
  split <;> rfl

theorem edgeAlm_of_no_step {a : Almanac} (h : a.step = none) :
    edgeAlm a = { a with beat := edgeBeat a, disciplined := (edgeAlm a).disciplined } := by
  unfold edgeAlm
  rw [h]
  simp

/-- The body at an edge, with the counters that have posted. -/
def edgeBody (s : State) (ps : List Post) : Body :=
  { s.body with
    mg := { s.body.mg with schedule := edgeSchedule s }
    data := { s.body.data with posts := ps } }

/-- What an edge leaves: the Almanac has its new count and no step ahead, the schedule its entries, and of the data plane only the
counters that have posted have changed. -/
structure Edged (s u : State) : Prop where
  beat : u.alm.beat = edgeBeat s.alm
  step : u.alm.step = none
  rest : ∃ ps, u = { s with alm := u.alm, body := edgeBody s ps }

theorem edgeCounted_edged (s : State) : Edged s (edgeCounted s) := ⟨edgeAlm_beat _, rfl, s.body.data.posts, rfl⟩

theorem Edged.post {u : State} (h : Edged s u) (code unit : Nat) (fs : List (Nat × Nat)) : Edged s (u.post code unit fs) := by
  obtain ⟨hb, hs, ps, hr⟩ := h
  refine ⟨hb, hs, (u.post code unit fs).body.data.posts, ?_⟩
  generalize ha : u.alm = a at hr
  subst hr
  rfl

theorem Edged.alm {u : State} (h : Edged s u) {a : Almanac} (hb : a.beat = edgeBeat s.alm) (hs : a.step = none) : Edged s (u.setAlm a) := by
  obtain ⟨_, _, ps, hr⟩ := h
  refine ⟨hb, hs, ps, ?_⟩
  generalize u.alm = a' at hr
  subst hr
  rfl

theorem edgeGap_edged (s : State) : Edged s (edgeGap s) := by
  unfold edgeGap
  split
  · exact (edgeCounted_edged s).post _ _ _
  · exact edgeCounted_edged s

theorem almEdge_edged (s : State) : Edged s (almEdge s) := by
  have hg := edgeGap_edged s
  rw [almEdge_eq]
  split
  · refine Edged.post (hg.alm ?_ ?_) _ _ _
    · exact hg.beat
    · exact hg.step
  · split
    · unfold slewOne
      split
      · refine Edged.post (hg.alm ?_ ?_) _ _ _
        · exact hg.beat
        · exact hg.step
      · exact hg.alm hg.beat hg.step
    · exact hg

/-- Without a step ahead no entry is passed or moved. -/
theorem edgeSchedule_of_no_step {s : State} (h : s.alm.step = none) : edgeSchedule s = s.body.mg.schedule ∧
    s.body.mg.schedule.any (sampleLost s.alm) = false := by
  have hb : edgeBeat s.alm = s.alm.beat + 1 := by simp [edgeBeat, h]
  have hp : ∀ e, stepPasses s.alm e = false := fun e => by simp [stepPasses, h]
  have hl : ∀ e, sampleLost s.alm e = false := fun e => by simp [sampleLost, hp]
  have he : ∀ e, edgeEntry s.alm e = e := fun e => by
    unfold edgeEntry
    rw [hp, hb]
    obtain ⟨_, _, _, _, _, c, _⟩ := e
    simp +contextual
  refine ⟨?_, by simp [hl]⟩
  unfold edgeSchedule
  simp only [hl, Bool.not_false, List.filter_true]
  exact (List.map_congr_left fun e _ => he e).trans (List.map_id' _)

theorem edgeGap_of_no_step {s : State} (h : s.alm.step = none) :
    edgeGap s = s.setAlm { s.alm with beat := edgeBeat s.alm, disciplined := (edgeAlm s.alm).disciplined } := by
  obtain ⟨hs, ha⟩ := edgeSchedule_of_no_step h
  unfold edgeGap edgeCounted
  rw [ha, if_neg (by simp), hs, edgeAlm_of_no_step h]
  rfl

theorem edgeEntry_from {s : State} {e : SEntry} (h : e ∈ edgeSchedule s) : ∃ x ∈ s.body.mg.schedule, x.ticket = e.ticket ∧ x.kind = e.kind ∧
    (x.beat = e.beat ∨ (x.counts = false ∧ x.beat = s.alm.beat + 1 ∧ e.beat = edgeBeat s.alm)) ∧
    (e.late = true → x.late = true ∨ (s.alm.beat < e.beat ∧ e.beat < edgeBeat s.alm)) := by
  obtain ⟨x, hx, rfl⟩ := List.mem_map.1 h
  refine ⟨x, (List.mem_filter.1 hx).1, ?_⟩
  unfold edgeEntry
  split
  · rename_i hp
    simp only [stepPasses, Bool.and_eq_true, decide_eq_true_eq] at hp
    exact ⟨rfl, rfl, .inl rfl, fun _ => .inr ⟨hp.1.2, hp.2⟩⟩
  · split
    · rename_i hc
      simp only [Bool.and_eq_true, Bool.not_eq_true', beq_iff_eq] at hc
      exact ⟨rfl, rfl, .inr ⟨hc.1, hc.2, rfl⟩, .inl⟩
    · exact ⟨rfl, rfl, .inl rfl, .inl⟩

/-! ### Slewing -/

theorem slewLeft_natAbs (a : Almanac) : (slewLeft a).natAbs = a.slew.natAbs - 1 ∨ a.slew = 0 := by
  unfold slewLeft
  split <;> omega

theorem almEdge_slews {s : State} (h : s.alm.step = none) (hs : s.alm.st = .slewing) (hk : 10 * s.alm.bound < s.alm.slew.natAbs - 1) :
    (almEdge s).alm.st = .slewing ∧ (almEdge s).alm.slew.natAbs = s.alm.slew.natAbs - 1 := by
  have hl := slewLeft_natAbs s.alm
  have h0 : s.alm.slew ≠ 0 := by
    intro h0
    rw [h0] at hk
    simp at hk
  have he : almEdge s = slewOne s (edgeGap s) := by
    rw [almEdge_eq, h]
    exact if_pos hs
  rw [he, slewOne, if_neg (by omega), edgeGap_of_no_step h]
  exact ⟨hs, hl.resolve_right h0⟩

theorem almEdge_slewed {s : State} (h : s.alm.step = none) (hs : s.alm.st = .slewing) (hk : s.alm.slew.natAbs ≤ 10 * s.alm.bound) :
    (almEdge s).alm.st = .locked ∧ (almEdge s).alm.slew = 0 := by
  have hb : 20 ≤ s.alm.bound := by
    unfold Almanac.bound
    split <;> omega
  have hl : (slewLeft s.alm).natAbs ≤ 10 * s.alm.bound := by
    unfold slewLeft
    split <;> omega
  have he : almEdge s = slewOne s (edgeGap s) := by
    rw [almEdge_eq, h]
    exact if_pos hs
  rw [he, slewOne, if_pos hl]
  exact ⟨rfl, rfl⟩

theorem almEdge_still {s : State} (h : s.alm.step = none) (hs : s.alm.st ≠ .slewing) :
    almEdge s = s.setAlm { s.alm with beat := edgeBeat s.alm, disciplined := (edgeAlm s.alm).disciplined } := by
  rw [← edgeGap_of_no_step h, almEdge_eq, h]
  exact if_neg hs

/-! ### Sync cells of a beat -/

/-- The cell of a beat. -/
def syncCell (a : Almanac) : SyncCell :=
  { beat := a.beat, rootSerial := a.rootSerial, hops := if a.isRoot then 0 else a.hops, state := a.st.code, zero := true,
    priority := if a.isRoot then a.priority else ((mget a.srcs a.source).map fun x => x.cell.priority).getD 255,
    errBound := a.errBound }

/-- Ports that carry cells. -/
def carriers (b : Body) : List (Nat × LinkSt) := b.fab.links.filter fun l => l.2.trained && l.2.carries && l.2.training.isNone

/-- An item leaves on each of some ports. -/
def Body.putAll (b : Body) (ps : List (Nat × LinkSt)) (i : LinkItem) : Body := ps.foldl (fun b p => b.linkPut p.1 i) b

theorem putAll_driven (b : Body) (ps : List (Nat × LinkSt)) (i : LinkItem) : b.Driven (b.putAll ps i) :=
  Body.Driven.foldl id (fun b _ => Body.Driven.linkPut b _ i) ps b

theorem putAll_data (b : Body) (ps : List (Nat × LinkSt)) (i : LinkItem) : (b.putAll ps i).data = b.data := by
  unfold Body.putAll
  induction ps generalizing b with
  | nil => rfl
  | cons p ps ih => exact ih (b.linkPut p.1 i)

/-- What leaves on a port goes out. -/
theorem linkPut_out (b : Body) (k : Nat) (i : LinkItem) : ∃ seq c, Output.link k seq i c ∈ (b.linkPut k i).host.out :=
  ⟨_, _, List.mem_append_right _ (List.mem_singleton_self _)⟩

theorem putAll_out (b : Body) {ps : List (Nat × LinkSt)} (i : LinkItem) {p : Nat × LinkSt} (hp : p ∈ ps) :
    ∃ seq c, Output.link p.1 seq i c ∈ (b.putAll ps i).host.out := by
  unfold Body.putAll
  induction ps generalizing b with
  | nil => cases hp
  | cons q ps ih =>
    rcases List.mem_cons.1 hp with rfl | hp
    · obtain ⟨seq, c, h⟩ := linkPut_out b p.1 i
      exact ⟨seq, c, (putAll_driven (b.linkPut p.1 i) ps i).out.subset h⟩
    · exact ih _ hp

theorem sendSync_eq (s : State) : sendSync s =
    if s.alm.beat % 16 = 0 ∧ (s.alm.started || s.alm.isRoot) = true then s.setBody (s.body.putAll (carriers s.body) (.sync (syncCell s.alm)))
    else s := rfl

theorem sendSync_body (s : State) : sendSync s = s.setBody (sendSync s).body := by
  rw [sendSync_eq]
  split <;> rfl

theorem sendSync_driven (s : State) : s.body.Driven (sendSync s).body := by
  rw [sendSync_eq]
  split
  · exact putAll_driven ..
  · exact .refl _

theorem sendSync_data (s : State) : (sendSync s).body.data = s.body.data := by
  rw [sendSync_eq]
  split
  · exact putAll_data ..
  · rfl

theorem sendSync_out {s : State} (hb : s.alm.beat % 16 = 0) (ha : s.alm.started = true) {p : Nat × LinkSt} (hp : p ∈ s.body.fab.links)
    (ht : p.2.trained = true) (hc : p.2.carries = true) (hn : p.2.training = none) :
    ∃ seq c, Output.link p.1 seq (.sync (syncCell s.alm)) c ∈ (sendSync s).body.host.out := by
  rw [sendSync_eq, if_pos ⟨hb, by rw [ha, Bool.true_or]⟩]
  exact putAll_out _ _ (List.mem_filter.2 ⟨hp, by simp [ht, hc, hn]⟩)

/-! ### Budgets that are armed -/

/-- A state of which budgets have joined those of another. -/
def Armed (s u : State) : Prop := ∃ bs, u = s.setPw { s.body.pw with budgets := s.body.pw.budgets ++ bs }

theorem Armed.refl (s : State) : Armed s s := ⟨[], by rw [List.append_nil]; rfl⟩

theorem Armed.trans {s t u : State} (h : Armed s t) (k : Armed t u) : Armed s u := by
  obtain ⟨bs, rfl⟩ := h
  obtain ⟨cs, rfl⟩ := k
  exact ⟨bs ++ cs, by rw [← List.append_assoc]; rfl⟩

theorem Armed.budgets {s u : State} (h : Armed s u) {q : Budget} (hq : q ∈ s.body.pw.budgets) : q ∈ u.body.pw.budgets := by
  obtain ⟨bs, rfl⟩ := h
  exact List.mem_append_left _ hq

theorem Armed.alm {s u : State} (h : Armed s u) : u.alm = s.alm := by
  obtain ⟨bs, rfl⟩ := h
  rfl

theorem addBudget_armed (s : State) (w start dur order : Nat) : Armed s (addBudget s w start dur order) := by
  unfold addBudget
  dsimp only
  split
  · exact .refl _
  · exact ⟨_, rfl⟩

theorem addBudget_has (s : State) (w start dur order : Nat) : ∃ q ∈ (addBudget s w start dur order).body.pw.budgets, q.order = order := by
  unfold addBudget
  dsimp only
  split
  · rename_i h
    obtain ⟨q, hq, ho⟩ := List.any_eq_true.1 h
    exact ⟨q, hq, eq_of_beq ho⟩
  · exact ⟨_, List.mem_append_right _ (List.mem_singleton_self _), rfl⟩

/-- The budget of an entry that is due joins the budgets. -/
def armEntry (s : State) (e : SEntry) : State :=
  match e.kind with
  | .budget w dur => if e.beat ≤ s.alm.beat then addBudget s w e.beat dur e.order else s
  | _ => s

theorem armEntry_armed (s : State) (e : SEntry) : Armed s (armEntry s e) := by
  unfold armEntry
  split
  · split
    · exact addBudget_armed ..
    · exact .refl _
  · exact .refl _

theorem armEntry_has (s : State) {e : SEntry} {w dur : Nat} (hk : e.kind = .budget w dur) (hb : e.beat ≤ s.alm.beat) :
    ∃ q ∈ (armEntry s e).body.pw.budgets, q.order = e.order := by
  rw [armEntry, hk]
  dsimp only
  rw [if_pos hb]
  exact addBudget_has ..

def armAll (s : State) (l : List SEntry) : State := l.foldl armEntry s

theorem armAll_armed (s : State) (l : List SEntry) : Armed s (armAll s l) := by
  unfold armAll
  induction l generalizing s with
  | nil => exact .refl _
  | cons e l ih => exact (armEntry_armed s e).trans (ih _)

theorem armAll_has (s : State) {l : List SEntry} {e : SEntry} (he : e ∈ l) {w dur : Nat} (hk : e.kind = .budget w dur) (hb : e.beat ≤ s.alm.beat) :
    ∃ q ∈ (armAll s l).body.pw.budgets, q.order = e.order := by
  unfold armAll
  induction l generalizing s with
  | nil => cases he
  | cons x l ih =>
    rcases List.mem_cons.1 he with rfl | he
    · obtain ⟨q, hq, ho⟩ := armEntry_has s hk hb
      exact ⟨q, (armAll_armed (armEntry s e) l).budgets hq, ho⟩
    · exact ih _ he (by rw [(armEntry_armed s x).alm]; exact hb)

theorem armBudgets_eq (s : State) : armBudgets s = if s.latch.fault = true then s else armAll s s.body.mg.schedule := rfl

theorem armBudgets_armed (s : State) : Armed s (armBudgets s) := by
  rw [armBudgets_eq]
  split
  · exact .refl _
  · exact armAll_armed ..

/-! ### Cap, enforcement and reason intervals -/

theorem applyCap_cap (p : Power) (c : CapCfg) (beat : Nat) :
    (applyCap p c beat).cap = min (rackInput p c beat) c.capW ∧ (applyCap p c beat).budgets = p.budgets := by
  unfold applyCap
  dsimp only
  split
  · rename_i h
    exact ⟨h.symm, rfl⟩
  · exact ⟨rfl, rfl⟩

theorem rackInput_congr {p q : Power} (h : q.budgets = p.budgets) (c : CapCfg) (beat : Nat) : rackInput q c beat = rackInput p c beat := by
  rw [rackInput, rackInput, budgetAt, budgetAt, h]

theorem dieStep_uv (p : Power) (c : CapCfg) (d P : Nat) : dieStep p c true d P = (16, 1) := rfl

theorem enforce_uv (p : Power) (c : CapCfg) (m : PowerMeas) :
    (enforce p c true m).steps = List.replicate 8 16 ∧ (enforce p c true m).duty = List.replicate 8 1 := by
  unfold enforce
  dsimp only
  simp only [dieStep_uv, List.map_map]
  exact ⟨rfl, rfl⟩

/-- What reason intervals leave of the power state. -/
def Power.reasonsBut (p q : Power) : Prop := { q with openR := p.openR, closedR := p.closedR, nextR := p.nextR } = p

theorem Power.reasonsBut.trans {p q r : Power} (h : p.reasonsBut q) (k : q.reasonsBut r) : p.reasonsBut r := by
  have := congrArg (fun x : Power => { x with openR := p.openR, closedR := p.closedR, nextR := p.nextR }) k
  exact this.trans h

theorem closeReason_but (p : Power) (beat : Nat) (r : Reason) : p.reasonsBut (closeReason p beat r) := by
  unfold closeReason
  rfl

theorem closeReasons_but (beat : Nat) (l : List Reason) (p : Power) : p.reasonsBut (l.foldl (fun p r => closeReason p beat r) p) := by
  induction l generalizing p with
  | nil => rfl
  | cons r l ih =>
    rw [List.foldl_cons]
    exact Power.reasonsBut.trans (closeReason_but p beat r) (ih (closeReason p beat r))

theorem updateReasons_but (b : Body) (beat : Nat) : b.pw.reasonsBut (updateReasons b beat) := by
  unfold updateReasons
  dsimp only
  refine Power.reasonsBut.trans ?_ (closeReasons_but beat _ _)
  rfl

/-- The power state after the cap and the enforcement of a beat. -/
def beatPower (b : Body) (beat : Nat) (meas : PowerMeas) : Power :=
  { enforce (applyCap b.pw b.flash.cap beat) b.flash.cap b.md.uv meas with mask := windowMask b.flash.cap b.fab.block (b.md.slotId % 16) }

/-- The body after a beat's cap, enforcement and reason intervals. -/
def beatBody (b : Body) (beat : Nat) (meas : PowerMeas) : Body :=
  let b1 : Body := { b with md := { b.md with standbyBeats := b.md.standbyBeats + 1, aonBeats := b.md.aonBeats + 1 }, pw := beatPower b beat meas }
  extraWaits { b1 with pw := updateReasons b1 beat } beat

/-- The latch after a beat. -/
def beatLatch (l : Latch) : Latch := if l.fault then l else { l with remaining := l.remaining - 1 }

/-- The state after a beat: the count, cells, budgets; then what the beat evaluates. -/
def beatState (meas : PowerMeas) (t : State) : State := { t with body := beatBody t.body t.alm.beat meas, latch := beatLatch t.latch }

theorem beatEdge_makes (meas : PowerMeas) {s : State} (hp : s.body.md.p3v3 = true) (ho : s.body.md.oscOk = true) {P : State → Prop}
    (h : P (beatState meas (armBudgets (sendSync (almEdge s))))) : Makes (.beatEdge meas) s P := by
  refine makes_of_run (show _ = execBeatEdge meas s from rfl) ?_
  rw [hp, ho]
  exact h

theorem beatBody_pw (b : Body) (beat : Nat) (meas : PowerMeas) : (beatPower b beat meas).reasonsBut (beatBody b beat meas).pw :=
  updateReasons_but { b with md := { b.md with standbyBeats := b.md.standbyBeats + 1, aonBeats := b.md.aonBeats + 1 }, pw := beatPower b beat meas } beat

theorem beatBody_cap (b : Body) (beat : Nat) (meas : PowerMeas) :
    (beatBody b beat meas).pw.cap = min (rackInput (beatBody b beat meas).pw b.flash.cap beat) b.flash.cap.capW ∧
    (beatBody b beat meas).pw.budgets = b.pw.budgets := by
  have hu := beatBody_pw b beat meas
  have hc : (beatPower b beat meas).cap = (beatBody b beat meas).pw.cap := (congrArg Power.cap hu).symm
  have hb : (beatPower b beat meas).budgets = (beatBody b beat meas).pw.budgets := (congrArg Power.budgets hu).symm
  obtain ⟨h1, h2⟩ := applyCap_cap b.pw b.flash.cap beat
  have hb' : (beatBody b beat meas).pw.budgets = b.pw.budgets := hb.symm.trans h2
  refine ⟨?_, hb'⟩
  rw [rackInput_congr hb', ← hc]
  exact h1

theorem beatBody_uv {b : Body} (beat : Nat) (meas : PowerMeas) (h : b.md.uv = true) :
    (beatBody b beat meas).pw.steps = List.replicate 8 16 ∧ (beatBody b beat meas).pw.duty = List.replicate 8 1 := by
  have hu := beatBody_pw b beat meas
  have hs : (beatPower b beat meas).steps = (beatBody b beat meas).pw.steps := (congrArg Power.steps hu).symm
  have hd : (beatPower b beat meas).duty = (beatBody b beat meas).pw.duty := (congrArg Power.duty hu).symm
  have he := enforce_uv (applyCap b.pw b.flash.cap beat) b.flash.cap meas
  rw [← h] at he
  exact ⟨hs.symm.trans he.1, hd.symm.trans he.2⟩

/-! ### The edge of a beat -/

theorem Edged.data {s u : State} (h : Edged s u) : u.latch = s.latch ∧ u.body.mg.schedule = edgeSchedule s ∧
    u.body.host = s.body.host ∧ u.body.fab = s.body.fab ∧ u.body.pw = s.body.pw ∧ u.body.md = s.body.md ∧ u.body.flash = s.body.flash ∧
    u.body.data.mem = s.body.data.mem := by
  obtain ⟨_, _, ps, hr⟩ := h
  rw [hr]
  exact ⟨rfl, rfl, rfl, rfl, rfl, rfl, rfl, rfl⟩

/-- The state of a beat before its cap and enforcement. -/
def beatStart (s : State) : State := armBudgets (sendSync (almEdge s))

theorem beatStart_eq (s : State) : ∃ bs, beatStart s = { almEdge s with
    body := { (sendSync (almEdge s)).body with pw := { s.body.pw with budgets := s.body.pw.budgets ++ bs } } } := by
  obtain ⟨_, _, _, _, hpw, _⟩ := (almEdge_edged s).data
  obtain ⟨bs, h⟩ := armBudgets_armed (sendSync (almEdge s))
  have hd := (sendSync_driven (almEdge s)).pw.trans hpw
  refine ⟨bs, h.trans ?_⟩
  rw [hd, sendSync_body (almEdge s)]
  rfl

theorem beatStart_armed {s : State} (hl : s.latch.fault = false) {e : SEntry} (he : e ∈ (almEdge s).body.mg.schedule) {w dur : Nat}
    (hk : e.kind = .budget w dur) (hb : e.beat ≤ (almEdge s).alm.beat) : ∃ q ∈ (beatStart s).body.pw.budgets, q.order = e.order := by
  have hl' : (sendSync (almEdge s)).latch.fault = false := by
    rw [sendSync_body]
    exact (congrArg Latch.fault (almEdge_edged s).data.1).trans hl
  have hm : (sendSync (almEdge s)).body.mg = (almEdge s).body.mg := (sendSync_driven _).mg
  have hb' : (sendSync (almEdge s)).alm.beat = (almEdge s).alm.beat := by
    rw [sendSync_body]
    rfl
  rw [beatStart, armBudgets_eq, hl', if_neg (by decide)]
  exact armAll_has _ (by rw [hm]; exact he) hk (by rw [hb']; exact hb)

/-- What a beat makes of its start: the body's other parts are those of its start. -/
theorem beatState_kept (meas : PowerMeas) (t : State) :
    (beatState meas t).alm = t.alm ∧ (beatState meas t).body.mg = t.body.mg ∧ (beatState meas t).body.data = t.body.data ∧
    (beatState meas t).body.host = t.body.host ∧ (beatState meas t).body.fab = t.body.fab ∧
    (beatState meas t).body.md.standbyBeats = t.body.md.standbyBeats + 1 := ⟨rfl, rfl, rfl, rfl, rfl, rfl⟩

theorem beatLatch_eq (l : Latch) : (l.fault = false → beatLatch l = { l with remaining := l.remaining - 1 }) ∧ (l.fault = true → beatLatch l = l) :=
  ⟨fun h => by rw [beatLatch, if_neg (by rw [h]; decide)], fun h => by rw [beatLatch, if_pos h]⟩

/-- What a beat leaves, part by part. -/
structure Beaten (s u : State) : Prop where
  alm : u.alm = (almEdge s).alm
  latch : u.latch = beatLatch s.latch
  mg : u.body.mg = (almEdge s).body.mg
  data : u.body.data = (almEdge s).body.data
  host : u.body.host = (sendSync (almEdge s)).body.host
  fab : u.body.fab = (sendSync (almEdge s)).body.fab
  standby : u.body.md.standbyBeats = s.body.md.standbyBeats + 1
  cap : u.body.pw.cap = min (rackInput u.body.pw s.body.flash.cap u.alm.beat) s.body.flash.cap.capW
  budgets : u.body.pw.budgets = (beatStart s).body.pw.budgets
  uv : s.body.md.uv = true → u.body.pw.steps = List.replicate 8 16 ∧ u.body.pw.duty = List.replicate 8 1

theorem beatState_beaten (meas : PowerMeas) (s : State) : Beaten s (beatState meas (beatStart s)) := by
  obtain ⟨hlatch, _, _, _, _, hmd, hflash, _⟩ := (almEdge_edged s).data
  have hd := sendSync_driven (almEdge s)
  obtain ⟨bs, hstart⟩ := beatStart_eq s
  have halm : (beatStart s).alm = (almEdge s).alm := by rw [hstart]
  have hl : (beatStart s).latch = s.latch := by rw [hstart]; exact hlatch
  have hmg : (beatStart s).body.mg = (almEdge s).body.mg := by rw [hstart]; exact hd.mg
  have hdata : (beatStart s).body.data = (almEdge s).body.data := by rw [hstart]; exact sendSync_data _
  have hhost : (beatStart s).body.host = (sendSync (almEdge s)).body.host := by rw [hstart]
  have hfab : (beatStart s).body.fab = (sendSync (almEdge s)).body.fab := by rw [hstart]
  have hm : (beatStart s).body.md = s.body.md := by rw [hstart]; exact hd.md.trans hmd
  have hfl : (beatStart s).body.flash = s.body.flash := by rw [hstart]; exact hd.flash.trans hflash
  obtain ⟨kalm, kmg, kdata, khost, kfab, kmd⟩ := beatState_kept meas (beatStart s)
  obtain ⟨kcap, kbud⟩ := beatBody_cap (beatStart s).body (beatStart s).alm.beat meas
  have kuv := @beatBody_uv (beatStart s).body (beatStart s).alm.beat meas
  rw [hfl] at kcap
  rw [hm] at kuv kmd
  exact ⟨kalm.trans halm, congrArg beatLatch hl, kmg.trans hmg, kdata.trans hdata, khost.trans hhost, kfab.trans hfab, kmd, kcap, kbud, kuv⟩

/-- Settles O37: the count's edge, the sync cells, the budgets that are armed and the evaluation of a beat, one rule for each. -/
theorem beatEdge : Obligations.BeatEdge := by
  unfold Obligations.BeatEdge
  refine ⟨fun meas s hp ho => beatEdge_makes meas hp ho ?_, fun meas s h => leaves_of_run (show _ = execBeatEdge meas s from rfl) ?_⟩
  · have hu := beatState_beaten meas s
    rw [beatStart] at hu
    generalize beatState meas (armBudgets (sendSync (almEdge s))) = u at hu ⊢
    obtain ⟨halm, hlatch, hmg, hdata, hhost, hfab, hstandby, hcap, hbud, huv⟩ := hu
    have he := almEdge_edged s
    obtain ⟨_, hsched, ehost, efab, epw, _, _, emem⟩ := he.data
    have hbeat : u.alm.beat = edgeBeat s.alm := (congrArg Almanac.beat halm).trans he.beat
    obtain ⟨kl0, kl1⟩ := beatLatch_eq s.latch
    refine ⟨hbeat, (congrArg Almanac.step halm).trans he.step, fun h => hlatch.trans (kl0 h), fun h => hlatch.trans (kl1 h),
      fun hs hst => ?_, fun hs hst hk => ?_, fun hs hst hk => ?_, fun e hm => ?_, fun h16 => ?_, fun h16 ha p hp ht hc hn => ?_,
      by rw [hdata]; exact emem, hcap, fun q hq => ?_, fun hl e hm w dur hk hb => ?_, huv, hstandby⟩
    · have hq := almEdge_still hs hst
      refine ⟨hmg.trans (by rw [hq]; rfl), (congrArg Almanac.st halm).trans (by rw [hq]; rfl),
        (congrArg Almanac.offset halm).trans (by rw [hq]; rfl), hdata.trans (by rw [hq]; rfl)⟩
    · rw [halm]
      exact almEdge_slews hs hst hk
    · rw [halm]
      exact almEdge_slewed hs hst hk
    · rw [hbeat]
      rw [hmg, hsched] at hm
      exact edgeEntry_from hm
    · rw [halm] at h16
      have hq : sendSync (almEdge s) = almEdge s := by rw [sendSync_eq, if_neg fun h => h16 h.1]
      exact ⟨by rw [hhost, hq, ehost], by rw [hfab, hq, efab]⟩
    · rw [halm] at h16 ha ⊢
      rw [hhost]
      obtain ⟨seq, c, h⟩ := sendSync_out h16 ha (p := p) (by rw [efab]; exact hp) ht hc hn
      exact ⟨seq, _, c, h, rfl, rfl, rfl⟩
    · obtain ⟨bs, hstart⟩ := beatStart_eq s
      rw [hbud, hstart]
      exact List.mem_append_left _ hq
    · rw [hmg] at hm
      rw [halm] at hb
      rw [hbud]
      exact beatStart_armed hl hm hk hb
  · rcases h with h | h <;> rw [h]
    · rfl
    · cases s.body.md.p3v3 <;> rfl

end Sys2Proof.Machine
end

section
/-! The end of an epoch. -/

namespace Sys2Proof.Machine

/-! ### Sharing the cap -/

/-- The dies in service among `n` from `die` on. -/
def diesLive (d : Data) (die n : Nat) : Nat := ((List.range' die n).filter fun i => !d.dieOut.contains i).length

theorem diesLive_succ (d : Data) (die n : Nat) : diesLive d die (n + 1) = (if die ∈ d.dieOut then 0 else 1) + diesLive d (die + 1) n := by
  unfold diesLive
  rw [List.range'_succ, List.filter_cons]
  by_cases h : die ∈ d.dieOut
  · simp [h]
  · simp [h, Nat.add_comm]

/-- What a division of `left` watts above the floors among `n` dies is: one share a die, 0 of a die that is out, else between the
floor and 160 W above it, and no watt spent twice. -/
structure Divided (d : Data) (n die left : Nat) (r : List Nat × Nat) : Prop where
  length : r.1.length = n
  out : ∀ i, i < n → die + i ∈ d.dieOut → r.1.getD i 0 = 0
  bounds : ∀ i, i < n → die + i ∉ d.dieOut → 30 ≤ r.1.getD i 0 ∧ r.1.getD i 0 ≤ 190
  sum : r.1.sum + r.2 = left + 30 * diesLive d die n

theorem Divided.cons {d : Data} {n die left x w : Nat} {r : List Nat × Nat} (h : Divided d n (die + 1) (left - x) r) (hx : x ≤ left)
    (ho : die ∈ d.dieOut → w = 0 ∧ x = 0) (hi : die ∉ d.dieOut → w = 30 + x ∧ x ≤ 160) : Divided d (n + 1) die left (w :: r.1, r.2) := by
  obtain ⟨hl, hout, hb, hs⟩ := h
  refine ⟨by simp [hl], fun i h k => ?_, fun i h k => ?_, ?_⟩
  · cases i with
    | zero => exact (ho k).1
    | succ i => exact hout i (by omega) (by rwa [Nat.add_right_comm])
  · cases i with
    | zero =>
      obtain ⟨rfl, h160⟩ := hi k
      show 30 ≤ 30 + x ∧ 30 + x ≤ 190
      omega
    | succ i => exact hb i (by omega) (by rwa [Nat.add_right_comm])
  · rw [diesLive_succ, List.sum_cons]
    by_cases hd : die ∈ d.dieOut
    · have := ho hd
      simp only [hd, if_true]
      omega
    · have := hi hd
      simp only [hd, if_false]
      omega

theorem dieShares_divided (d : Data) (n die left : Nat) : Divided d n die left (dieShares d n die left) := by
  induction n generalizing die left with
  | zero => exact ⟨rfl, fun i h => absurd h (Nat.not_lt_zero i), fun i h => absurd h (Nat.not_lt_zero i), Nat.zero_add left⟩
  | succ n ih =>
    unfold dieShares
    split
    · rename_i h
      have hd : die ∈ d.dieOut := by simpa using h
      exact (show Divided d n (die + 1) (left - 0) _ from ih _ _).cons (Nat.zero_le _) (fun _ => ⟨rfl, rfl⟩) fun hn => absurd hd hn
    · rename_i h
      have hd : die ∉ d.dieOut := by simpa using h
      split
      · have hx : Config.freeNat (d.free + die) % (min 160 left + 1) < min 160 left + 1 := Nat.mod_lt _ (by omega)
        exact (ih _ _).cons (by omega) (fun ho => absurd ho hd) fun _ => ⟨rfl, by omega⟩
      · exact (show Divided d n (die + 1) (left - 0) _ from ih _ _).cons (Nat.zero_le _) (fun ho => absurd ho hd) fun _ => ⟨rfl, by omega⟩

theorem startShares_get (d : Data) {i : Nat} (h : i < 8) : (startShares d).getD i 0 = if i ∈ d.dieOut then 0 else 150 := by
  simp [startShares, List.getD, List.getElem?_map, List.getElem?_range h]

theorem startShares_sum (d : Data) : (startShares d).sum = 150 * diesLive d 0 8 := by
  have h (l : List Nat) : (l.map fun i => if d.dieOut.contains i then 0 else 150).sum = 150 * (l.filter fun i => !d.dieOut.contains i).length := by
    induction l with
    | nil => rfl
    | cons a l ih =>
      rw [List.map_cons, List.sum_cons, ih, List.filter_cons]
      by_cases h : d.dieOut.contains a = true
      · rw [h]
        simp
      · rw [if_neg h, if_pos (by simpa using h), List.length_cons]
        omega
  exact h (List.range' 0 8)

/-- What a division of the cap leaves of the power state. -/
structure CapDivided (b : Body) (ioW lossW : Nat) (p : Power) : Prop where
  but : { p with shares := b.pw.shares, hbmShare := b.pw.hbmShare } = b.pw
  length : p.shares.length = 8
  out : ∀ i, i < 8 → i ∈ b.data.dieOut → p.shares.getD i 0 = 0
  bounds : ∀ i, i < 8 → i ∉ b.data.dieOut → 30 ≤ p.shares.getD i 0 ∧ p.shares.getD i 0 ≤ 190
  start : b.pw.cap = 2000 → b.pw.learned = [] → ioW + lossW ≤ 410 →
    p.hbmShare = 350 ∧ ∀ i, i < 8 → i ∉ b.data.dieOut → p.shares.getD i 0 = 150
  hbm : 60 ≤ p.hbmShare ∧ p.hbmShare ≤ 420
  sum : 30 * diesLive b.data 0 8 + 60 + ioW + lossW ≤ b.pw.cap * 98 / 100 →
    p.shares.sum + p.hbmShare + ioW + lossW ≤ b.pw.cap * 98 / 100

theorem divideCap_eq (b : Body) (ioW lossW : Nat) : divideCap b ioW lossW =
    if b.pw.cap = 2000 ∧ b.pw.learned = [] ∧ 1550 + ioW + lossW ≤ 1960 then
      { b with pw := { b.pw with shares := startShares b.data, hbmShare := 350 } }
    else
      let r := dieShares b.data 8 0 (b.pw.cap * 98 / 100 - ioW - lossW - 30 * diesLive b.data 0 8 - 60)
      { b with
        data := { b.data with free := b.data.free + 9 }
        pw := { b.pw with shares := r.1, hbmShare := 60 + Config.freeNat (b.data.free + 8) % (min 360 r.2 + 1) } } := rfl

theorem divideCap_divided (b : Body) (ioW lossW : Nat) : CapDivided b ioW lossW (divideCap b ioW lossW).pw := by
  rw [divideCap_eq]
  split
  · rename_i h
    obtain ⟨hc, -, hw⟩ := h
    have h8 : diesLive b.data 0 8 ≤ 8 := (List.length_filter_le _ _).trans (by simp)
    have hs := startShares_sum b.data
    have hget : ∀ i, i < 8 → i ∉ b.data.dieOut → (startShares b.data).getD i 0 = 150 := fun i h k => by rw [startShares_get b.data h, if_neg k]
    refine ⟨rfl, by simp [startShares], fun i h k => (startShares_get b.data h).trans (if_pos k), fun i h k => ?_, fun _ _ _ => ⟨rfl, hget⟩,
      ⟨(by decide : 60 ≤ 350), (by decide : 350 ≤ 420)⟩, fun _ => ?_⟩
    · show 30 ≤ (startShares b.data).getD i 0 ∧ (startShares b.data).getD i 0 ≤ 190
      rw [hget i h k]
      decide
    · show (startShares b.data).sum + 350 + ioW + lossW ≤ _
      omega
  · rename_i h
    obtain ⟨hl, ho, hb, hs⟩ := dieShares_divided b.data 8 0 (b.pw.cap * 98 / 100 - ioW - lossW - 30 * diesLive b.data 0 8 - 60)
    dsimp only
    generalize dieShares b.data 8 0 _ = r at hl ho hb hs ⊢
    simp only [Nat.zero_add] at ho hb
    have hx : Config.freeNat (b.data.free + 8) % (min 360 r.2 + 1) < min 360 r.2 + 1 := Nat.mod_lt _ (by omega)
    generalize Config.freeNat (b.data.free + 8) % (min 360 r.2 + 1) = x at hx ⊢
    refine ⟨rfl, hl, ho, hb, fun h1 h2 h3 => absurd ⟨h1, h2, by omega⟩ h, ⟨?_, ?_⟩, fun hk => ?_⟩
    · exact Nat.le_add_right _ _
    · show 60 + x ≤ 420
      omega
    · show r.1.sum + (60 + x) + ioW + lossW ≤ _
      omega

/-! ### The energy of an epoch -/

theorem fitCharges_sum (known : SMap (Nat × Nat)) (l : List (Nat × Nat)) (left : Nat) :
    ((fitCharges known l left).map fun c => c.2).sum ≤ left := by
  induction l generalizing left with
  | nil => exact Nat.zero_le _
  | cons c l ih =>
    obtain ⟨c, mj⟩ := c
    unfold fitCharges
    split
    · have := ih (left - mj)
      simp only [List.map_cons, List.sum_cons]
      omega
    · exact ih left

/-- What an epoch's energy leaves of the power state. -/
structure Charged (p : Power) (m : EpochMeas) (q : Power) : Prop where
  cap : q.cap = p.cap
  shares : q.shares = p.shares
  hbmShare : q.hbmShare = p.hbmShare
  module : q.moduleMj = p.moduleMj + m.moduleMj
  hbm : q.hbmMj = p.hbmMj + m.hbmMj
  io : q.ioMj = p.ioMj + m.ioMj
  die : ∀ i, i < 8 → q.dieMj.getD i 0 = p.dieMj.getD i 0 + m.dieMj.getD i 0
  unattr : p.unattrMj ≤ q.unattrMj ∧ q.unattrMj ≤ p.unattrMj + m.moduleMj

theorem chargeEnergy_charged (p : Power) (m : EpochMeas) : Charged p m (chargeEnergy p m) := by
  refine ⟨rfl, rfl, rfl, rfl, rfl, rfl, fun i h => ?_, Nat.le_add_right _ _, ?_⟩
  · unfold chargeEnergy
    simp only [List.getD, List.getElem?_map, List.getElem?_range h, Option.map_some, Option.getD_some]
  · exact Nat.add_le_add_left (Nat.sub_le _ _) _

/-! ### What the rest of a boundary leaves -/

/-- What the counts, the watchdog and the sensors of an epoch leave of the power state. -/
def Power.epochBut (p q : Power) : Prop :=
  { q with closedR := p.closedR, nextR := p.nextR, droopN := p.droopN, rampN := p.rampN, longestLow := p.longestLow, sensors := p.sensors } = p

theorem Power.epochBut.trans {p q r : Power} (h : p.epochBut q) (k : q.epochBut r) : p.epochBut r := by
  have := congrArg (fun x : Power =>
    { x with closedR := p.closedR, nextR := p.nextR, droopN := p.droopN, rampN := p.rampN, longestLow := p.longestLow, sensors := p.sensors }) k
  exact this.trans h

/-- The management plane stays, and the power state but for its counts and sensors. -/
structure Counted (b b' : Body) : Prop where
  mg : b'.mg = b.mg
  pw : b.pw.epochBut b'.pw

theorem Counted.trans {a b c : Body} (h : Counted a b) (k : Counted b c) : Counted a c := ⟨k.mg.trans h.mg, h.pw.trans k.pw⟩

theorem countReason_counted (b : Body) (beat reason die n : Nat) : Counted b (countReason b beat reason die n) := by
  have h : ∃ d ring, countReason b beat reason die n = { b with data := d, pw := { b.pw with closedR := ring, nextR := b.pw.nextR + 1 } } :=
    ⟨_, _, rfl⟩
  obtain ⟨d, ring, h⟩ := h
  rw [h]
  exact ⟨rfl, rfl⟩

theorem countReason_foldl (beat reason : Nat) (l : SMap Nat) (b : Body) :
    Counted b (l.foldl (fun (b : Body) e => countReason b beat reason e.1 e.2) b) := by
  induction l generalizing b with
  | nil => exact ⟨rfl, rfl⟩
  | cons e l ih =>
    rw [List.foldl_cons]
    exact Counted.trans (countReason_counted b beat reason e.1 e.2) (ih (countReason b beat reason e.1 e.2))

theorem countReasons_counted (b : Body) (beat : Nat) : Counted b (countReasons b beat) := by
  unfold countReasons
  dsimp only
  refine (countReason_foldl beat 7 b.pw.droopN b).trans ?_
  generalize b.pw.droopN.foldl _ b = c
  refine (countReason_foldl beat 8 c.pw.rampN c).trans ?_
  generalize c.pw.rampN.foldl _ c = e
  exact ⟨rfl, rfl⟩

theorem postCounters_counted (b : Body) (beat : Nat) : Counted b (postCounters b beat) ∧ (postCounters b beat).log.tallies = [] := by
  unfold postCounters
  exact ⟨⟨rfl, rfl⟩, rfl⟩

theorem watchCtx_data (b : Body) (beat ctx : Nat) (c : Ctx) : ∃ d, watchCtx b beat ctx c = { b with data := d } := by
  unfold watchCtx
  dsimp only
  split
  · exact ⟨_, rfl⟩
  · exact ⟨_, rfl⟩

theorem watchAll_data (b : Body) (beat : Nat) : ∃ d, watchAll b beat = { b with data := d } := by
  unfold watchAll
  split
  · exact ⟨b.data, rfl⟩
  · rename_i h
    clear h
    generalize b.data.ctxs = l
    induction l generalizing b with
    | nil => exact ⟨b.data, rfl⟩
    | cons e l ih =>
      obtain ⟨d, h⟩ := watchCtx_data b beat e.1 e.2
      obtain ⟨d', h'⟩ := ih (watchCtx b beat e.1 e.2)
      rw [List.foldl_cons, h', h]
      exact ⟨d', rfl⟩

/-- What an identity record that is sent leaves: all but the fabric, the host's outputs and the data plane. -/
def sameControl (s u : State) : Prop := u.alm = s.alm ∧ u.latch = s.latch ∧ u.body.mg = s.body.mg ∧ u.body.pw = s.body.pw ∧ u.body.log = s.body.log

theorem sendSurvey_control (s : State) (k : Nat) : sameControl s (sendSurvey s k) := by
  unfold sendSurvey
  have h := Body.Driven.linkPut (({ s.body with data := { s.body.data with free := s.body.data.free + 1 } } : Body).setLink k
    { s.body.fab.link k with surveyDue := true }) k
    (.survey (surveyOf s.body k (1000 * s.alm.beat + Config.freeNat s.body.data.free % 1000) 0 0))
  exact ⟨rfl, rfl, h.mg, h.pw, h.log⟩

theorem sendSurvey_foldl (l : List Nat) (s : State) : sameControl s (l.foldl sendSurvey s) := by
  induction l generalizing s with
  | nil => exact ⟨rfl, rfl, rfl, rfl, rfl⟩
  | cons k l ih =>
    obtain ⟨h1, h2, h3, h4, h5⟩ := sendSurvey_control s k
    obtain ⟨k1, k2, k3, k4, k5⟩ := ih (sendSurvey s k)
    exact ⟨k1.trans h1, k2.trans h2, k3.trans h3, k4.trans h4, k5.trans h5⟩

/-! ### The boundary -/

/-- The body after the division and the energy of an epoch. -/
def epochShared (meas : EpochMeas) (b : Body) : Body :=
  let b := learnTags (divideCap b meas.ioMj meas.lossW)
  { b with pw := chargeEnergy b.pw meas }

/-- The body after an epoch. -/
def epochBody (meas : EpochMeas) (beat : Nat) (b : Body) : Body :=
  let b := readSensors (watchAll (postCounters (countReasons (epochShared meas b) beat) beat) beat) meas
  { b with pw := { b.pw with asOf := beat / 1000 * 1000 } }

theorem divideCap_mg (b : Body) (ioW lossW : Nat) : (divideCap b ioW lossW).mg = b.mg := by
  rw [divideCap_eq]
  split <;> rfl

/-- What an epoch leaves, part by part. -/
structure EpochOver (meas : EpochMeas) (s u : State) : Prop where
  alm : u.alm = s.alm
  latch : u.latch = s.latch
  mg : u.body.mg = s.body.mg
  tallies : u.body.log.tallies = []
  asOf : u.body.pw.asOf = s.alm.beat / 1000 * 1000
  charged : Charged (divideCap s.body meas.ioMj meas.lossW).pw meas u.body.pw

theorem epochShared_charged (meas : EpochMeas) (b : Body) : (epochShared meas b).mg = b.mg ∧
    Charged (divideCap b meas.ioMj meas.lossW).pw meas (epochShared meas b).pw := by
  obtain ⟨h1, h2, h3, h4, h5, h6, h7, h8⟩ := chargeEnergy_charged (learnTags (divideCap b meas.ioMj meas.lossW)).pw meas
  exact ⟨divideCap_mg .., h1, h2, h3, h4, h5, h6, h7, h8⟩

theorem Charged.of_but {p q r : Power} {m : EpochMeas} (h : Charged p m q) (k : q.epochBut r) : Charged p m r := by
  obtain ⟨h1, h2, h3, h4, h5, h6, h7, h8⟩ := h
  have k1 : q.cap = r.cap := (congrArg Power.cap k).symm
  have k2 : q.shares = r.shares := (congrArg Power.shares k).symm
  have k3 : q.hbmShare = r.hbmShare := (congrArg Power.hbmShare k).symm
  have k4 : q.moduleMj = r.moduleMj := (congrArg Power.moduleMj k).symm
  have k5 : q.hbmMj = r.hbmMj := (congrArg Power.hbmMj k).symm
  have k6 : q.ioMj = r.ioMj := (congrArg Power.ioMj k).symm
  have k7 : q.dieMj = r.dieMj := (congrArg Power.dieMj k).symm
  have k8 : q.unattrMj = r.unattrMj := (congrArg Power.unattrMj k).symm
  exact ⟨k1 ▸ h1, k2 ▸ h2, k3 ▸ h3, k4 ▸ h4, k5 ▸ h5, k6 ▸ h6, k7 ▸ h7, k8 ▸ h8⟩

/-- The body at the end of an epoch, from the body after the division and the counters. -/
theorem epochBody_eq (meas : EpochMeas) (beat : Nat) (b : Body) : ∃ d l,
    epochBody meas beat b = { postCounters (countReasons (epochShared meas b) beat) beat with
      data := d, pw := { (postCounters (countReasons (epochShared meas b) beat) beat).pw with sensors := l, asOf := beat / 1000 * 1000 } } := by
  obtain ⟨d, h⟩ := watchAll_data (postCounters (countReasons (epochShared meas b) beat) beat) beat
  unfold epochBody readSensors
  rw [h]
  exact ⟨d, _, rfl⟩

theorem epochBody_kept (meas : EpochMeas) (beat : Nat) (b : Body) : (epochBody meas beat b).mg = b.mg ∧
    (epochBody meas beat b).log.tallies = [] ∧ (epochBody meas beat b).pw.asOf = beat / 1000 * 1000 ∧
    Charged (divideCap b meas.ioMj meas.lossW).pw meas (epochBody meas beat b).pw := by
  have hc := countReasons_counted (epochShared meas b) beat
  obtain ⟨hp, ht⟩ := postCounters_counted (countReasons (epochShared meas b) beat) beat
  obtain ⟨hmg, hch⟩ := epochShared_charged meas b
  obtain ⟨d, l, he⟩ := epochBody_eq meas beat b
  have hall := hc.trans hp
  rw [he]
  generalize postCounters _ _ = c at *
  obtain ⟨h1, h2, h3, h4, h5, h6, h7, h8⟩ := hch.of_but hall.pw
  exact ⟨hall.mg.trans hmg, ht, rfl, h1, h2, h3, h4, h5, h6, h7, h8⟩

theorem epochBody_over (meas : EpochMeas) (s : State) : EpochOver meas s (surveyAgain (s.setBody (epochBody meas s.alm.beat s.body))) := by
  obtain ⟨h1, h2, h3, h4⟩ := epochBody_kept meas s.alm.beat s.body
  unfold surveyAgain
  generalize epochBody meas s.alm.beat s.body = b at *
  generalize List.map _ _ = l
  obtain ⟨k1, k2, k3, k4, k5⟩ := sendSurvey_foldl l (s.setBody b)
  exact ⟨k1, k2, k3.trans h1, by rw [k5]; exact h2, by rw [k4]; exact h3, by rw [k4]; exact h4⟩

/-- The boundary after the writes that the gate drops. -/
def epochRest (meas : EpochMeas) (beat : Nat) (t : State) : State :=
  if t.latch.fault then t.setPw { t.body.pw with asOf := beat / 1000 * 1000 }
  else if !t.acting || t.body.md.recovery then t
  else surveyAgain (t.setBody (epochBody meas beat t.body))

theorem execEpochBoundary_eq (meas : EpochMeas) (s : State) : execEpochBoundary meas s = s.run fun s =>
    if s.alm.beat / 1000 ≤ s.body.pw.asOf / 1000 then s else epochRest meas s.alm.beat (dropStale (dropStale s .north) .south) := by
  unfold execEpochBoundary epochRest epochBody epochShared
  dsimp only

theorem epochBoundary_makes (meas : EpochMeas) {s : State} (h : s.body.pw.asOf / 1000 < s.alm.beat / 1000) {P : State → Prop}
    (hp : P (epochRest meas s.alm.beat (dropStale (dropStale s .north) .south))) : Makes (.epochBoundary meas) s P := by
  refine makes_of_run ((show _ = execEpochBoundary meas s from rfl).trans (execEpochBoundary_eq meas s)) ?_
  rw [if_neg (by omega)]
  exact hp

/-- Without a fault a boundary changes nothing of the latch and the management plane beyond what the gate dropped. -/
theorem epochRest_kept (meas : EpochMeas) {t : State} (h : t.latch.fault = false) :
    (epochRest meas t.alm.beat t).latch = t.latch ∧ (epochRest meas t.alm.beat t).body.mg = t.body.mg := by
  unfold epochRest
  rw [if_neg (by rw [h]; decide)]
  split
  · exact ⟨rfl, rfl⟩
  · have hu := epochBody_over meas t
    exact ⟨hu.latch, hu.mg⟩

/-! ### Writes that the gate drops -/

theorem dropStale_none {s : State} {x : Side} (hf : s.latch.fault = false) (h : pmOf s.body.mg x = .holder → s.latch.holder = some x) :
    dropStale s x = s := by
  unfold dropStale
  refine if_neg ?_
  simp only [Bool.and_eq_true, beq_iff_eq, Bool.or_eq_true, bne_iff_ne, ne_eq, not_and, and_imp]
  intro h1 _ h2
  rw [hf, h h1] at h2
  simp at h2

theorem conflict_kept {t : State} (x : Side) (h : t.latch.fault = false) :
    (if t.latch.fault then t else conflict t x).latch = t.latch ∧ (if t.latch.fault then t else conflict t x).body.mg = setPm t.body.mg x .syncing ∧
      (if t.latch.fault then t else conflict t x).alm = t.alm := by
  rw [if_neg (by rw [h]; decide)]
  exact ⟨rfl, rfl, rfl⟩

theorem dropStale_drops {s : State} {x : Side} (hf : s.latch.fault = false) (hp : pmOf s.body.mg x = .holder) (hr : pmRuns s x = true)
    (h : s.latch.holder ≠ some x) : (dropStale s x).latch = s.latch.drop x ∧ (dropStale s x).body.mg = setPm s.body.mg x .syncing ∧
      (dropStale s x).alm = s.alm := by
  unfold dropStale
  rw [if_pos (by simp [hp, hr, h])]
  have hf' : (s.latch.drop x).fault = false := by
    cases x <;> exact hf
  exact conflict_kept x hf'

/-- Settles O38: a side that holds the lease drops nothing and divides the cap; one that only believes so is dropped. -/
theorem epochBoundary : Obligations.EpochBoundary := by
  unfold Obligations.EpochBoundary
  refine ⟨fun meas s hb ha hr hn hs => epochBoundary_makes meas hb ?_, fun meas s hb hh hf hs hn hp => epochBoundary_makes meas hb ?_,
    fun meas s hb => leaves_of_run ((show _ = execEpochBoundary meas s from rfl).trans (execEpochBoundary_eq meas s)) (if_pos hb)⟩
  · have hf : s.latch.fault = false := by
      cases hl : s.latch.fault with
      | false => rfl
      | true => simp [State.acting, State.gate, hr, hl] at ha
    have hu := epochBody_over meas s
    have hd := divideCap_divided s.body meas.ioMj meas.lossW
    rw [dropStale_none (x := .north) hf hn, dropStale_none (x := .south) hf hs, epochRest, if_neg (by rw [hf]; decide), if_neg (by rw [ha, hr]; decide)]
    generalize surveyAgain _ = u at hu ⊢
    obtain ⟨halm, hlatch, hmg, htal, hasOf, hch⟩ := hu
    generalize (divideCap s.body meas.ioMj meas.lossW).pw = p at hd hch
    obtain ⟨hbut, hlen, hout, hbounds, hstart, hhbm, hsum⟩ := hd
    obtain ⟨ccap, cshares, chbm, cmod, chbmMj, cio, cdie, cun⟩ := hch
    have b1 : p.cap = s.body.pw.cap := (congrArg Power.cap hbut :)
    have b2 : p.moduleMj = s.body.pw.moduleMj := (congrArg Power.moduleMj hbut :)
    have b3 : p.hbmMj = s.body.pw.hbmMj := (congrArg Power.hbmMj hbut :)
    have b4 : p.ioMj = s.body.pw.ioMj := (congrArg Power.ioMj hbut :)
    have b5 : p.dieMj = s.body.pw.dieMj := (congrArg Power.dieMj hbut :)
    have b6 : p.unattrMj = s.body.pw.unattrMj := (congrArg Power.unattrMj hbut :)
    rw [b1] at ccap
    rw [b2] at cmod
    rw [b3] at chbmMj
    rw [b4] at cio
    rw [b5] at cdie
    rw [b6] at cun
    rw [← cshares] at hlen hout hbounds
    rw [← cshares, ← chbm] at hstart hsum
    rw [← chbm] at hhbm
    exact ⟨hasOf, cmod, chbmMj, cio, cdie, cun.1, cun.2, hlen, hout, hbounds, hstart, hhbm.1, hhbm.2, hsum, ccap, htal, hmg, halm, hlatch⟩
  · rw [dropStale_none (x := .north) hf fun h => absurd h hn]
    obtain ⟨h1, h2, h3⟩ := dropStale_drops (x := .south) hf hs hp (by rw [hh]; decide)
    have hf' : (dropStale s .south).latch.fault = false := by
      rw [h1]
      exact hf
    obtain ⟨k1, k2⟩ := epochRest_kept meas hf'
    rw [h3] at k1 k2
    rw [k1, k2, h1, h2]
    exact ⟨rfl, rfl, rfl⟩

end Sys2Proof.Machine
end

section
/-! Answers to the host and other packages, and scheduled entries at their beats. -/

namespace Sys2Proof.Machine

/-! ### Requests that are over, and the host's that wait -/

/-- What answers to requests leave of the body: as an engine's work does, but that contexts may be rung and functions' registers count. -/
structure Body.Served (b b' : Body) : Prop where
  rest : { b' with data := b.data, host := b.host, fab := b.fab, hl := b.hl } = b
  data : b.data.fabricBut { b'.data with ctxs := b.data.ctxs }
  posts : b.data.posts <+: b'.data.posts
  fab : { b'.fab with links := b.fab.links, conns := b.fab.conns } = b.fab

theorem Data.fabricBut.ctxs {d d' : Data} (h : d.fabricBut d') : d'.ctxs = d.ctxs := by
  have h := congrArg Data.ctxs h
  exact h

theorem Body.Driven.served {b b' : Body} (h : b.Driven b') : b.Served b' := by
  refine ⟨h.rest, ?_, h.data.posts, h.fab⟩
  have h' := congrArg (fun d : Data => { d with ctxs := b.data.ctxs }) h.data.rest
  exact h'

namespace Body.Served

theorem refl (b : Body) : b.Served b := (Body.Driven.refl b).served

theorem trans {a b c : Body} (h : a.Served b) (k : b.Served c) : a.Served c := by
  refine ⟨?_, ?_, h.posts.trans k.posts, ?_⟩
  · have := congrArg (fun x : Body => { x with data := a.data, host := a.host, fab := a.fab, hl := a.hl }) k.rest
    exact this.trans h.rest
  · have := congrArg (fun d : Data => { d with ctxs := a.data.ctxs }) k.data
    exact h.data.trans this
  · have := congrArg (fun x : Fabric => { x with links := a.fab.links, conns := a.fab.conns }) k.fab
    exact this.trans h.fab

theorem foldl {β : Type} {f : Body → β → Body} (h : ∀ (b : Body) y, b.Served (f b y)) (l : List β) (b : Body) : b.Served (l.foldl f b) := by
  induction l generalizing b with
  | nil => exact refl b
  | cons y l ih => exact (h b y).trans (ih _)

/-- Requests change, and registers of the host's side. -/
theorem of_reqs (b : Body) (rs : List LineReq) (h : HostSt) : b.Served { b with data := { b.data with reqs := rs }, host := h } :=
  ⟨rfl, rfl, List.prefix_rfl, rfl⟩

theorem host (b : Body) (h : HostSt) : b.Served { b with host := h } := ⟨rfl, rfl, List.prefix_rfl, rfl⟩

theorem post (b : Body) (code unit : Nat) (fs : List (Nat × Nat)) : b.Served (b.post code unit fs) := (Body.Driven.post b code unit fs).served

theorem data_of {b : Body} {d : Data} (h : b.data.Driven d) : b.Served { b with data := d } := (Body.Driven.of_data h).served

theorem hostRing {b b' : Body} {f : Fn} {n : Nat} (h : hostRing b f n = some b') : b.Served b' := by
  unfold Sys2Proof.Machine.hostRing at h
  split at h
  · split at h
    · cases h
      exact host b _
    · split at h
      · cases h
      · cases h
        exact data_of (Data.Driven.ringPh ..)
  · cases h
    exact host b _

theorem hostFault {b b' : Body} {f : Fn} {n : Nat} (h : hostFault b f n = some b') : b.Served b' := by
  unfold Sys2Proof.Machine.hostFault at h
  split at h
  · cases h
    exact host b _
  · split at h
    · cases h
      exact host b _
    · split at h
      · cases h
      · rename_i c _ _ _
        have hr := data_of (Data.Driven.sRead b.data n 1 (c.ring + 4) 4)
        cases h
        refine hr.trans ⟨rfl, ?_, List.prefix_rfl, rfl⟩
        rfl

theorem hostDo {b b' : Body} {o : HostOp} (h : b.hostDo o = some b') : b.Served b' := by
  unfold Body.hostDo at h
  split at h
  · dsimp only at h
    split at h
    · cases h
    · cases h
      split
      · exact (of_reqs b _ b.host).trans (post ..)
      · exact of_reqs b _ b.host
  · split at h
    · cases h
      exact refl b
    · split at h
      · cases h
        exact host b _
      · split at h
        · cases h
        · cases h
          exact host b _
  · split at h
    · cases h
      exact refl b
    · split at h
      · cases h
        exact host b _
      · split at h
        · cases h
        · cases h
          exact host b _
  · split at h
    · exact hostRing h
    · cases h
      exact refl b
  · split at h
    · exact hostFault h
    · cases h
      exact refl b
  · cases h

theorem pumpHost (b : Body) : b.Served b.pumpHost := by
  unfold Body.pumpHost
  refine foldl (fun b o => ?_) _ b
  dsimp only
  split
  · exact refl b
  · split
    · rename_i h
      exact (hostDo h).trans (host _ _)
    · exact refl b

theorem answerRemote (b : Body) (beat : Nat) : b.Served (answerRemote b beat) := by
  unfold Sys2Proof.Machine.answerRemote
  dsimp only
  refine trans (of_reqs b (b.data.reqs.filter fun r => !((b.data.reqs.filter fun r => r.rem.isSome && r.over).any fun q => q.id == r.id)) b.host)
    (foldl (fun b r => ?_) _ _)
  split
  · exact refl b
  · exact (Body.Driven.send ..).served

/-- Engines that requests have answered go on, and then the host. -/
def answered (b : Body) (beat : Nat) : Body :=
  let b := if b.data.reqs.any fun r => r.ofEngine && r.over then pump b beat else b
  if b.host.ops = [] then b else b.pumpHost

theorem answered_served (b : Body) (beat : Nat) : b.Served (answered b beat) := by
  have hp : b.Served (if (b.data.reqs.any fun r => r.ofEngine && r.over) = true then pump b beat else b) := by
    split
    · exact (Body.Driven.pump b beat).served
    · exact refl b
  have hh (c : Body) : c.Served (if c.host.ops = [] then c else c.pumpHost) := by
    split
    · exact refl c
    · exact pumpHost c
  exact hp.trans (hh _)

theorem answerAll (b : Body) (beat : Nat) : b.Served (answerAll b beat) := by
  have hr := (answerRemote b beat).trans (data_of (Data.Driven.recordsOver _))
  have he : Sys2Proof.Machine.answerAll b beat = answered
    ({ Sys2Proof.Machine.answerRemote b beat with data := (Sys2Proof.Machine.answerRemote b beat).data.recordsOver } : Body) beat := rfl
  rw [he]
  exact hr.trans (answered_served _ beat)

theorem mg {b b' : Body} (h : b.Served b') : b'.mg = b.mg := by
  have h := congrArg Body.mg h.rest
  exact h

theorem plots {b b' : Body} (h : b.Served b') : b'.data.plots = b.data.plots := by
  have h := congrArg Data.plots h.data
  exact h

end Body.Served

/-! ### Which entry runs next -/

theorem lexLt_irrefl (l : List Nat) : lexLt l l = false := by
  induction l with
  | nil => rfl
  | cons a l ih => simp [lexLt, ih]

theorem lexLt_trans {a b c : List Nat} (h : lexLt a b = true) (k : lexLt b c = true) : lexLt a c = true := by
  induction a generalizing b c with
  | nil => simp [lexLt] at h
  | cons x a ih =>
    cases b with
    | nil => simp [lexLt] at h
    | cons y b =>
      cases c with
      | nil => simp [lexLt] at k
      | cons z c =>
        simp only [lexLt, Bool.or_eq_true, decide_eq_true_eq, Bool.and_eq_true, beq_iff_eq] at h k ⊢
        rcases h with h | ⟨rfl, h⟩ <;> rcases k with k | ⟨rfl, k⟩
        · exact .inl (h.trans k)
        · exact .inl h
        · exact .inl k
        · exact .inr ⟨rfl, ih h k⟩

theorem lexLt_or {a b c : List Nat} (hab : a.length = b.length) (hbc : b.length = c.length) (h : lexLt a c = true) :
    lexLt a b = true ∨ lexLt b c = true := by
  induction a generalizing b c with
  | nil => simp [lexLt] at h
  | cons x a ih =>
    cases b with
    | nil => simp at hab
    | cons y b =>
      cases c with
      | nil => simp at hbc
      | cons z c =>
        simp only [lexLt, Bool.or_eq_true, decide_eq_true_eq, Bool.and_eq_true, beq_iff_eq, List.length_cons, Nat.add_right_cancel_iff] at *
        rcases lt_trichotomy x y with hxy | rfl | hxy
        · exact .inl (.inl hxy)
        · rcases h with h | ⟨rfl, h⟩
          · exact .inr (.inl h)
          · exact (ih hab hbc h).imp (fun k => .inr ⟨rfl, k⟩) fun k => .inr ⟨rfl, k⟩
        · exact .inr (.inl (by omega))

theorem fireBefore_trans {a b c : SEntry} (h : fireBefore a b = true) (k : fireBefore b c = true) : fireBefore a c = true := lexLt_trans h k

theorem fireBefore_or {a c : SEntry} (b : SEntry) (h : fireBefore a c = true) : fireBefore a b = true ∨ fireBefore b c = true :=
  lexLt_or (b := [b.beat, b.kind.rank, b.order]) rfl rfl h

/-- The earlier of an entry and the earliest so far. -/
def earlier (b : Option SEntry) (e : SEntry) : Option SEntry :=
  match b with
  | none => some e
  | some x => if fireBefore e x then some e else some x

theorem nextEntry_eq (s : State) : nextEntry s = (s.body.mg.schedule.filter fun e => canFire s e).foldl earlier none := rfl

/-- The entry found is one of those seen, and none of them runs before it. -/
theorem earlier_foldl (l : List SEntry) {b e : SEntry} (h : l.foldl earlier (some b) = some e) :
    (e = b ∨ e ∈ l) ∧ fireBefore b e = false ∧ ∀ x ∈ l, fireBefore x e = false := by
  induction l generalizing b with
  | nil =>
    cases h
    exact ⟨.inl rfl, lexLt_irrefl _, fun x hx => absurd hx List.not_mem_nil⟩
  | cons y l ih =>
    rw [List.foldl_cons] at h
    rw [earlier] at h
    by_cases hy : fireBefore y b = true
    · rw [if_pos hy] at h
      obtain ⟨hm, hb, hl⟩ := ih h
      refine ⟨.inr (List.mem_cons.2 hm), ?_, fun x hx => ?_⟩
      · cases hbe : fireBefore b e with
        | false => rfl
        | true => exact (fireBefore_trans hy hbe).symm.trans hb
      · rcases List.mem_cons.1 hx with rfl | hx
        · exact hb
        · exact hl x hx
    · rw [if_neg hy] at h
      obtain ⟨hm, hb, hl⟩ := ih h
      refine ⟨hm.imp_right (List.mem_cons_of_mem _), hb, fun x hx => ?_⟩
      rcases List.mem_cons.1 hx with rfl | hx
      · cases hxe : fireBefore x e with
        | false => rfl
        | true =>
          exact ((fireBefore_or b hxe).elim hy fun k => Bool.noConfusion (k.symm.trans hb)).elim
      · exact hl x hx

theorem nextEntry_earliest {s : State} {e : SEntry} (h : nextEntry s = some e) : e ∈ s.body.mg.schedule ∧ canFire s e = true ∧
    ∀ x ∈ s.body.mg.schedule, canFire s x = true → fireBefore x e = false := by
  rw [nextEntry_eq] at h
  have hf (x : SEntry) : x ∈ s.body.mg.schedule.filter (fun e => canFire s e) ↔ x ∈ s.body.mg.schedule ∧ canFire s x = true := List.mem_filter
  generalize s.body.mg.schedule.filter (fun e => canFire s e) = l at h hf
  cases l with
  | nil => cases h
  | cons b l =>
    obtain ⟨hm, hb, hl⟩ := earlier_foldl l h
    have he := (hf e).1 (List.mem_cons.2 hm)
    refine ⟨he.1, he.2, fun x hx hc => ?_⟩
    rcases List.mem_cons.1 ((hf x).2 ⟨hx, hc⟩) with rfl | hx
    · exact hb
    · exact hl x hx

theorem canFire_due {s : State} {e : SEntry} (h : canFire s e = true) : e.beat ≤ s.alm.beat ∧ (e.kind.armed = false → s.acting = true) := by
  unfold canFire at h
  simp only [Bool.and_eq_true, decide_eq_true_eq] at h
  obtain ⟨⟨hb, ha⟩, -⟩ := h
  refine ⟨hb, fun hk => ?_⟩
  rw [hk] at ha
  exact ha

/-! ### An entry that runs -/

/-- The state with an entry gone from the schedule. -/
def unscheduled (s : State) (e : SEntry) : State :=
  s.mg fun m => Mgmt.retire { m with schedule := m.schedule.filter fun x => x.order != e.order }

/-- The same, with what a late entry marks. -/
def fireStart (s : State) (e : SEntry) : State :=
  if e.late || decide (e.beat < s.alm.beat) then (unscheduled s e).setAlm { (unscheduled s e).alm with lateSeen := true } else unscheduled s e

theorem fire_eq (s : State) (e : SEntry) (meas : List Nat) : fire s e meas =
    if e.ticket = 0 then (act (fireStart s e) e meas).1
    else letterExecuted (act (fireStart s e) e meas).1 { e with late := e.late || decide (e.beat < s.alm.beat) } (act (fireStart s e) e meas).2 := rfl

theorem fireStart_on_time {s : State} {e : SEntry} (hl : e.late = false) (hb : e.beat = s.alm.beat) : fireStart s e = unscheduled s e := by
  rw [fireStart, hl, hb]
  simp

theorem fires {c : Instr} {s : State} {e : SEntry} {meas : List Nat} {kind : SKind → Bool} (he : exec c s = fireIf s e.ticket meas kind)
    (hn : nextEntry s = some e) (hk : kind e.kind = true) {P : State → Prop} (h : P (fire s e meas)) : Makes c s P := by
  refine makes_of_run he ?_
  rw [hn]
  dsimp only
  rw [if_pos ⟨rfl, hk⟩]
  exact h

/-- LETTER_EXECUTED of an entry that ran at its beat is the last record. -/
def RanOnTime (s : State) (e : SEntry) (u : State) (st : Nat) : Prop :=
  ∃ a, u.body.data.posts.getLast? = some ⟨0x0501, 0,
    [(e.ticket, 4), (if e.kind = .wrapped then e.letter.arg 16 2 else e.letter.op, 2), (st, 2), (e.letter.stamp, 1), (0, 1), (a, 1), (0, 5), (e.beat, 8), (s.alm.beat, 8)], none⟩

theorem letterExecuted_onTime {s t : State} {e : SEntry} (st : Nat) (h : t.alm.beat = s.alm.beat) :
    RanOnTime s e (letterExecuted t { e with late := false } st) st := by
  rw [RanOnTime, ← h]
  obtain ⟨ticket, beat, kind, letter, order, counts, late⟩ := e
  cases kind <;> simp only [reduceCtorEq, if_true, if_false] <;> exact ⟨_, List.getLast?_concat⟩

theorem fire_on_time {s : State} {e : SEntry} (hl : e.late = false) (hb : e.beat = s.alm.beat) (ht : e.ticket ≠ 0) (meas : List Nat) :
    fire s e meas = letterExecuted (act (unscheduled s e) e meas).1 { e with late := false } (act (unscheduled s e) e meas).2 := by
  rw [fire_eq, if_neg ht, fireStart_on_time hl hb, hl, hb]
  simp

/-- What the record of an execution leaves. -/
theorem letterExecuted_kept (t : State) (e : SEntry) (st : Nat) : ∃ ps, letterExecuted t e st =
    t.setBody { t.body with data := { t.body.data with posts := ps } } := ⟨_, rfl⟩

theorem unscheduled_kept (s : State) (e : SEntry) : ∃ m : Mgmt, unscheduled s e = s.mg (fun _ => m) ∧
    m.schedule = s.body.mg.schedule.filter fun x => x.order != e.order := ⟨_, rfl, rfl⟩

/-- An entry of a ticket runs at its beat: it leaves the schedule, acts and is told. -/
theorem fires_on_time {c : Instr} {s : State} {e : SEntry} {meas : List Nat} {kind : SKind → Bool} (he : exec c s = fireIf s e.ticket meas kind)
    (hn : nextEntry s = some e) (hk : kind e.kind = true) (ht : e.ticket ≠ 0) (hl : e.late = false) (hb : e.beat = s.alm.beat)
    {t : State} {st : Nat} (ha : act (unscheduled s e) e meas = (t, st)) {P : State → Prop} (hbeat : t.alm.beat = s.alm.beat)
    (hm : t.body.mg = (unscheduled s e).body.mg)
    (h : ∀ ps, P (t.setBody { t.body with data := { t.body.data with posts := ps } })) :
    Makes c s fun u => u.body.mg.schedule = (s.body.mg.schedule.filter fun x => x.order != e.order) ∧ RanOnTime s e u st ∧ P u := by
  refine fires he hn hk ?_
  rw [fire_on_time hl hb ht, ha]
  refine ⟨congrArg Mgmt.schedule hm, letterExecuted_onTime st hbeat, ?_⟩
  obtain ⟨ps, hp⟩ := letterExecuted_kept t { e with late := false } st
  rw [hp]
  exact h ps

/-! ### What each kind of entry does -/

/-- The banks of a fabric and which of them is active. -/
def sameBanks (f g : Fabric) : Prop := g.active = f.active ∧ g.lastSwitch = f.lastSwitch ∧ g.bank0 = f.bank0 ∧ g.bank1 = f.bank1

theorem reclass_foldl (l : List Nat) (g : Fabric) : sameBanks g (l.foldl reclass g) := by
  induction l generalizing g with
  | nil => exact ⟨rfl, rfl, rfl, rfl⟩
  | cons n l ih =>
    obtain ⟨h1, h2, h3, h4⟩ := ih (reclass g n)
    exact ⟨h1, h2, h3, h4⟩

theorem Body.Driven.banks {b b' : Body} (h : b.Driven b') : sameBanks b.fab b'.fab := by
  have h1 := congrArg Fabric.active h.fab
  have h2 := congrArg Fabric.lastSwitch h.fab
  have h3 := congrArg Fabric.bank0 h.fab
  have h4 := congrArg Fabric.bank1 h.fab
  exact ⟨h1, h2, h3, h4⟩

theorem unhold_foldl (beat : Nat) (l : List (Nat × Conn)) (b : Body) : b.Driven (l.foldl (fun (b : Body) e => b.unhold beat e.1) b) :=
  Body.Driven.foldl id (f := fun (b : Body) (e : Nat × Conn) => b.unhold beat e.1) (fun b e => Body.Driven.unhold b beat e.1) l b

theorem doSwitch_kept (s : State) (beat : Nat) : (doSwitch s beat).alm = s.alm ∧ (doSwitch s beat).body.mg = s.body.mg ∧
    sameBanks { s.body.fab with active := !s.body.fab.active, lastSwitch := some beat } (doSwitch s beat).body.fab := by
  unfold doSwitch
  dsimp only
  generalize ((s.body.fab.conns.map fun e => e.1 / 2).eraseDups.filter _) = ns
  generalize mmap s.body.fab.conns _ = cs
  have hg := reclass_foldl ns { s.body.fab with active := !s.body.fab.active, lastSwitch := some beat, conns := cs }
  generalize List.foldl reclass _ ns = g at hg ⊢
  have hu := unhold_foldl beat (g.conns.filter fun e => e.2.hold) { s.body with fab := g }
  obtain ⟨h1, h2, h3, h4⟩ := hu.banks
  obtain ⟨k1, k2, k3, k4⟩ := hg
  exact ⟨rfl, hu.mg, h1.trans k1, h2.trans k2, h3.trans k3, h4.trans k4⟩

theorem mem_filter_notContains {l m : List Nat} {x : Nat} : (x ∈ l.filter fun x => !m.contains x) ↔ x ∈ l ∧ x ∉ m := by
  simp

/-- The member set of a plot that a graft widens. -/
def Plot.grafted (p : Plot) (nodes : List Nat) : Plot :=
  { p with mem := nodes.foldl sadd p.mem, pruned := p.pruned.filter fun x => !nodes.contains x }

/-- The member set of a plot that a prune narrows, where its own node stays. -/
def Plot.prunedOf (p : Plot) (own : Nat) (nodes : List Nat) : Plot :=
  { p with mem := p.mem.filter fun x => !nodes.contains x, pruned := ((nodes.filter fun x => x != own).eraseDups).foldl sadd p.pruned }

theorem doGraft_plots {s : State} {tag n : Nat} (h : plotOfTag s.body.data tag = some n) (beat : Nat) (nodes : List Nat) :
    (doGraft s beat tag nodes).1.alm = s.alm ∧ (doGraft s beat tag nodes).1.body.mg = s.body.mg ∧ (doGraft s beat tag nodes).2 = 0 ∧
    (doGraft s beat tag nodes).1.body.data.plots = mmod s.body.data.plots n fun p => p.grafted nodes := by
  unfold doGraft
  dsimp only
  rw [h]
  exact ⟨rfl, rfl, rfl, rfl⟩

theorem doGraft_unknown {s : State} {tag : Nat} (h : plotOfTag s.body.data tag = none) (beat : Nat) (nodes : List Nat) :
    doGraft s beat tag nodes = (s, 0x35) := by
  unfold doGraft
  dsimp only
  rw [h]

theorem lost_plots (d : Data) (cls : FaultClass) (p : Packet) : (d.lost_ cls p).plots = d.plots := by
  unfold Data.lost_
  split
  · rfl
  · show ((d.endReq p.reqId (.failed cls)).endFill p.reqId (.failed cls)).plots = d.plots
    unfold Data.endFill
    split <;> rfl

theorem plots_foldl {β : Type} {f : Data → β → Data} (h : ∀ d x, (f d x).plots = d.plots) (l : List β) (d : Data) :
    (l.foldl f d).plots = d.plots := by
  induction l generalizing d with
  | nil => rfl
  | cons x l ih => exact (ih _).trans (h d x)

theorem endTowards_kept (b : Body) (beat plot : Nat) (gone : List Nat) : (endTowards b beat plot gone).1.mg = b.mg ∧
    (endTowards b beat plot gone).1.data.plots = b.data.plots := by
  unfold endTowards
  dsimp only
  have hs (c : Body) : c.Served (pump (answerAll c beat) beat) := (Body.Served.answerAll c beat).trans (Body.Driven.pump _ beat).served
  refine ⟨(hs _).mg, (hs _).plots.trans ?_⟩
  refine (plots_foldl (fun d p => lost_plots d .nodeGone p) _ _).trans ?_
  exact plots_foldl (f := fun (d : Data) (x : Nat × EngRun) => d.setRun x.1 (x.2.cut d 3)) (fun _ _ => rfl) _ _

theorem doPrune_plots {s : State} {tag n : Nat} (h : plotOfTag s.body.data tag = some n) (beat : Nat) {nodes : List Nat}
    (ho : s.body.data.node ∉ nodes) :
    (doPrune s beat tag nodes).1.alm = s.alm ∧ (doPrune s beat tag nodes).1.body.mg = s.body.mg ∧ (doPrune s beat tag nodes).2 = 0 ∧
    (doPrune s beat tag nodes).1.body.data.plots = mmod s.body.data.plots n fun p => p.prunedOf s.body.data.node nodes := by
  have hc : nodes.contains s.body.data.node = false := by simpa using ho
  unfold doPrune
  dsimp only
  rw [h]
  simp only [hc, Bool.false_eq_true, if_false]
  have hk := endTowards_kept { s.body with data := { s.body.data with
    plots := mmod s.body.data.plots n fun p => p.prunedOf s.body.data.node nodes } } beat n (nodes.filter fun x => x != s.body.data.node).eraseDups
  unfold Plot.prunedOf at hk ⊢
  generalize endTowards _ beat n _ = r at hk ⊢
  exact ⟨rfl, hk.1, trivial, hk.2⟩

theorem effAny_cap (s : State) {l : Letter} (h : l.op = 0x0402) (jid : Nat) : effAny s l jid = effCap s l jid := by
  simp [effAny, effDevice, h]

/-- A wrapped letter that the checks pass runs. -/
theorem runWrapped_runs {s : State} {l : Letter} (hu : stillBound s l = true)
    (hport : portOk (innerLetter l).stamp (innerLetter l).op (innerLetter l).args = true)
    (hown : ownerOk s.body.data (innerLetter l).stamp (innerLetter l).op (innerLetter l).args = true)
    (hst : stateRefuses s (innerLetter l).op (innerLetter l).args = none) : runWrapped s l =
      ((effAny (s.mg fun m => { m with nextJid := m.nextJid + 1 }) (innerLetter l) s.body.mg.nextJid).1,
        (effAny (s.mg fun m => { m with nextJid := m.nextJid + 1 }) (innerLetter l) s.body.mg.nextJid).2.status) := by
  unfold runWrapped
  simp only [hu, hport, hown, hst, Bool.not_true, Bool.false_eq_true, if_false]

theorem effCap_kept (s : State) (l : Letter) (jid : Nat) : (effCap s l jid).1.alm = s.alm ∧ (effCap s l jid).1.body.mg = s.body.mg ∧
    (effCap s l jid).2.status = 0 ∧ (l.arg 0 1 % 2 = 1 → (effCap s l jid).1.body.flash.cap.capW = l.arg 2 2) := by
  refine ⟨rfl, rfl, rfl, fun h => if_pos ?_⟩
  show (l.arg 0 1 / 2 ^ 0 % 2 == 1) = true
  rw [pow_zero, Nat.div_one, h]
  rfl

section
variable {s : State} {e : SEntry} (hn : nextEntry s = some e) (ht : e.ticket ≠ 0) (hl : e.late = false) (hb : e.beat = s.alm.beat)
include hn ht hl hb

theorem budget_at_beat {c : Instr} {meas : List Nat} {kind : SKind → Bool} {w dur : Nat} (he : exec c s = fireIf s e.ticket meas kind)
    (hk : e.kind = .budget w dur) (hkind : kind e.kind = true) :
    Makes c s fun u => u.body.mg.schedule = (s.body.mg.schedule.filter fun x => x.order != e.order) ∧ RanOnTime s e u 0 ∧
      u.body.data.mem = s.body.data.mem ∧
      u.body.pw.budgets = (if s.body.pw.budgets.any fun q => q.order == e.order then s.body.pw.budgets
        else s.body.pw.budgets ++ [⟨w, e.beat, dur, e.order⟩]) ∧
      u.body.pw.cap = min (rackInput u.body.pw s.body.flash.cap s.alm.beat) s.body.flash.cap.capW := by
  have ha : act (unscheduled s e) e meas = ((addBudget (unscheduled s e) w e.beat dur e.order).setPw
      (applyCap (addBudget (unscheduled s e) w e.beat dur e.order).body.pw (addBudget (unscheduled s e) w e.beat dur e.order).body.flash.cap
        (addBudget (unscheduled s e) w e.beat dur e.order).alm.beat), 0) := by
    rw [act, hk]
  have hbud : (addBudget (unscheduled s e) w e.beat dur e.order).body.pw.budgets =
      if s.body.pw.budgets.any fun q => q.order == e.order then s.body.pw.budgets else s.body.pw.budgets ++ [⟨w, e.beat, dur, e.order⟩] := by
    unfold addBudget
    dsimp only
    split
    · rename_i h
      exact (if_pos h).symm
    · rename_i h
      exact (if_neg h).symm
  obtain ⟨bs, hadd⟩ := addBudget_armed (unscheduled s e) w e.beat dur e.order
  generalize addBudget (unscheduled s e) w e.beat dur e.order = t at *
  have halm : t.alm = s.alm := by rw [hadd]; rfl
  have hmg : t.body.mg = (unscheduled s e).body.mg := by rw [hadd]; rfl
  have hfl : t.body.flash = s.body.flash := by rw [hadd]; rfl
  have hmem : t.body.data.mem = s.body.data.mem := by rw [hadd]; rfl
  rw [hfl, halm] at ha
  obtain ⟨k1, k2⟩ := applyCap_cap t.body.pw s.body.flash.cap s.alm.beat
  refine fires_on_time he hn hkind ht hl hb ha (congrArg Almanac.beat halm) hmg fun ps => ⟨hmem, k2.trans hbud, ?_⟩
  exact k1.trans (congrArg (min · s.body.flash.cap.capW) (rackInput_congr k2 ..).symm)

theorem routes_at_beat {crc : Nat} (hk : e.kind = .routes crc) :
    Makes (.routesSwitchAtBeat e.ticket) s fun u => u.body.mg.schedule = (s.body.mg.schedule.filter fun x => x.order != e.order) ∧
      RanOnTime s e u 0 ∧ u.body.fab.active = (!s.body.fab.active) ∧ u.body.fab.lastSwitch = some e.beat ∧
      u.body.fab.bank0 = s.body.fab.bank0 ∧ u.body.fab.bank1 = s.body.fab.bank1 := by
  have ha : act (unscheduled s e) e [] = (doSwitch (unscheduled s e) e.beat, 0) := by rw [act, hk]
  obtain ⟨h1, h2, h3, h4, h5, h6⟩ := doSwitch_kept (unscheduled s e) e.beat
  refine fires_on_time (show _ = execRoutesSwitchAtBeat e.ticket s from rfl) hn (by rw [hk]) ht hl hb ha (congrArg Almanac.beat h1) h2 fun ps =>
    ⟨h3, h4, h5, h6⟩

theorem graft_at_beat {tag : Nat} {nodes : List Nat} {n : Nat} {p : Plot} (hk : e.kind = .graft tag nodes)
    (hp : plotOfTag s.body.data tag = some n) (hm : mget s.body.data.plots n = some p) :
    Makes (.graftAtBeat e.ticket) s fun u => u.body.mg.schedule = (s.body.mg.schedule.filter fun x => x.order != e.order) ∧
      RanOnTime s e u 0 ∧ ∃ p', mget u.body.data.plots n = some p' ∧ (∀ x, x ∈ p'.mem ↔ x ∈ p.mem ∨ x ∈ nodes) ∧
        (∀ x, x ∈ p'.pruned ↔ x ∈ p.pruned ∧ x ∉ nodes) ∧ { p' with mem := p.mem, pruned := p.pruned } = p := by
  obtain ⟨h1, h2, h3, h4⟩ := doGraft_plots (s := unscheduled s e) hp e.beat nodes
  have ha : act (unscheduled s e) e [] = ((doGraft (unscheduled s e) e.beat tag nodes).1, 0) := by
    rw [act, hk, ← h3]
  refine fires_on_time (show _ = execGraftAtBeat e.ticket s from rfl) hn (by rw [hk]) ht hl hb ha
    (congrArg Almanac.beat h1) h2 fun ps => ⟨p.grafted nodes, ?_, fun x => ?_, fun x => mem_filter_notContains, rfl⟩
  · show mget (doGraft (unscheduled s e) e.beat tag nodes).1.body.data.plots n = _
    rw [h4, mget_mmod, if_pos rfl]
    exact congrArg (Option.map _) hm
  · exact mem_foldl_sadd.trans or_comm

theorem graft_unknown {tag : Nat} {nodes : List Nat} (hk : e.kind = .graft tag nodes) (hp : plotOfTag s.body.data tag = none) :
    Makes (.graftAtBeat e.ticket) s fun u => u.body.mg.schedule = (s.body.mg.schedule.filter fun x => x.order != e.order) ∧
      RanOnTime s e u 0x35 ∧ u.body.data.plots = s.body.data.plots := by
  have ha : act (unscheduled s e) e [] = (unscheduled s e, 0x35) := by
    rw [act, hk]
    exact doGraft_unknown (s := unscheduled s e) hp e.beat nodes
  exact fires_on_time (show _ = execGraftAtBeat e.ticket s from rfl) hn (by rw [hk]) ht hl hb ha rfl rfl fun ps => rfl

theorem prune_at_beat {tag : Nat} {nodes : List Nat} {n : Nat} {p : Plot} (hk : e.kind = .prune tag nodes)
    (hp : plotOfTag s.body.data tag = some n) (hm : mget s.body.data.plots n = some p) (ho : s.body.data.node ∉ nodes) :
    Makes (.pruneAtBeat e.ticket) s fun u => u.body.mg.schedule = (s.body.mg.schedule.filter fun x => x.order != e.order) ∧
      RanOnTime s e u 0 ∧ ∃ p', mget u.body.data.plots n = some p' ∧
        (∀ x, x ∈ p'.mem ↔ x ∈ p.mem ∧ x ∉ nodes) ∧ ∀ x ∈ nodes, x ∈ p'.pruned := by
  obtain ⟨h1, h2, h3, h4⟩ := doPrune_plots (s := unscheduled s e) hp e.beat ho
  have ha : act (unscheduled s e) e [] = ((doPrune (unscheduled s e) e.beat tag nodes).1, 0) := by
    rw [act, hk, ← h3]
  refine fires_on_time (show _ = execPruneAtBeat e.ticket s from rfl) hn (by rw [hk]) ht hl hb ha
    (congrArg Almanac.beat h1) h2 fun ps => ⟨p.prunedOf s.body.data.node nodes, ?_, fun x => mem_filter_notContains, fun x hx => ?_⟩
  · show mget (doPrune (unscheduled s e) e.beat tag nodes).1.body.data.plots n = _
    rw [h4, mget_mmod, if_pos rfl]
    exact congrArg (Option.map _) hm
  · refine mem_foldl_sadd.2 (.inl (List.mem_eraseDups.2 (List.mem_filter.2 ⟨hx, ?_⟩)))
    simp only [bne_iff_ne, ne_eq]
    rintro rfl
    exact ho hx

theorem sample_at_beat {slot : Nat} (hk : e.kind = .sample slot) (meas : List Nat) :
    Makes (.telemetrySample e.ticket meas) s fun u => u.body.mg.schedule = (s.body.mg.schedule.filter fun x => x.order != e.order) ∧
      RanOnTime s e u 0 ∧ ∃ a b, mget u.body.pw.samples slot = some
        ⟨s.alm.beat, s.body.pw.moduleMj :: s.body.pw.dieMj ++ [s.body.pw.hbmMj, s.body.pw.ioMj, s.body.pw.cap, a, b]⟩ := by
  have ha : act (unscheduled s e) e meas = (takeSample (unscheduled s e) slot meas, 0) := by rw [act, hk]
  exact fires_on_time (show _ = execTelemetrySample e.ticket meas s from rfl) hn (by rw [hk]) ht hl hb ha rfl rfl fun ps =>
    ⟨_, _, mget_mput_self ..⟩

theorem wrapped_unbound (hk : e.kind = .wrapped) (hu : stillBound s e.letter = false) :
    Makes (.wrappedLetterAtBeat e.ticket) s fun u => u.body.mg.schedule = (s.body.mg.schedule.filter fun x => x.order != e.order) ∧
      RanOnTime s e u 5 ∧ u.body.pw = s.body.pw ∧ u.body.fab = s.body.fab := by
  have hu' : stillBound (unscheduled s e) e.letter = false := hu
  have ha : act (unscheduled s e) e [] = (unscheduled s e, 5) := by
    rw [act, hk]
    dsimp only
    rw [runWrapped, hu']
    rfl
  exact fires_on_time (show _ = execWrappedLetterAtBeat e.ticket s from rfl) hn (by rw [hk]; rfl) ht hl hb ha rfl rfl fun ps => ⟨rfl, rfl⟩

theorem wrapped_cap (hk : e.kind = .wrapped) (hu : stillBound s e.letter = true) (hop : (innerLetter e.letter).op = 0x0402)
    (hport : portOk (innerLetter e.letter).stamp (innerLetter e.letter).op (innerLetter e.letter).args = true)
    (hown : ownerOk s.body.data (innerLetter e.letter).stamp (innerLetter e.letter).op (innerLetter e.letter).args = true)
    (hst : stateRefuses s (innerLetter e.letter).op (innerLetter e.letter).args = none) :
    Makes (.wrappedLetterAtBeat e.ticket) s fun u => u.body.mg.schedule = (s.body.mg.schedule.filter fun x => x.order != e.order) ∧
      RanOnTime s e u 0 ∧ ((innerLetter e.letter).arg 0 1 % 2 = 1 → u.body.flash.cap.capW = (innerLetter e.letter).arg 2 2) := by
  obtain ⟨h1, h2, h3, h4⟩ := effCap_kept ((unscheduled s e).mg fun m => { m with nextJid := m.nextJid + 1 }) (innerLetter e.letter)
    (unscheduled s e).body.mg.nextJid
  have ha : act (unscheduled s e) e [] = ((effCap ((unscheduled s e).mg fun m => { m with nextJid := m.nextJid + 1 }) (innerLetter e.letter)
      (unscheduled s e).body.mg.nextJid).1, 0) := by
    rw [act, hk]
    dsimp only
    rw [runWrapped_runs (s := unscheduled s e) hu hport hown hst, effAny_cap _ hop, ← h3]
  refine fires (show _ = execWrappedLetterAtBeat e.ticket s from rfl) hn (by rw [hk]; rfl) ?_
  rw [fire_on_time hl hb ht, ha]
  exact ⟨congrArg Mgmt.schedule h2, letterExecuted_onTime 0 (congrArg Almanac.beat h1), h4⟩

end

/-! ### Entries that are late, and budgets that end -/

theorem sample_late {s : State} {e : SEntry} {slot : Nat} (hn : nextEntry s = some e) (hk : e.kind = .sample slot) (hb : e.beat < s.alm.beat)
    (meas : List Nat) : Makes (.scheduleEntryFire e.ticket meas) s fun u => u.alm.lateSeen = true := by
  refine fires (show _ = execScheduleEntryFire e.ticket meas s from rfl) hn rfl ?_
  have hs : (fireStart s e).alm.lateSeen = true := by
    rw [fireStart, if_pos (by simp [hb])]
    rfl
  have ha : (act (fireStart s e) e meas).1.alm = (fireStart s e).alm := by
    rw [act, hk]
    rfl
  rw [fire_eq]
  split
  · exact (congrArg Almanac.lateSeen ha).trans hs
  · exact (congrArg Almanac.lateSeen ha).trans hs

theorem budgets_expire (s : State) : Makes .budgetExpiry s fun u =>
    (∀ q, q ∈ u.body.pw.budgets ↔ q ∈ s.body.pw.budgets ∧ (q.dur = 0 ∨ s.alm.beat < q.start + q.dur)) ∧
    u.body.pw = { s.body.pw with budgets := u.body.pw.budgets } ∧ u.body.data = s.body.data ∧ u.body.mg = s.body.mg := by
  refine makes_of_run (show _ = execBudgetExpiry s from rfl) ⟨fun q => ?_, rfl, rfl, rfl⟩
  refine List.mem_filter.trans (and_congr_right fun _ => ?_)
  simp

theorem budgets_fall_back {s : State} (hf : s.body.pw.fallbackOn = false)
    (hb : s.body.pw.lastAccept.getD 0 + s.body.flash.cap.fallback ≤ s.alm.beat) : Makes .budgetFallback s fun u =>
      u.body.pw = { s.body.pw with budgets := [], fallbackOn := true } ∧ (∀ e ∈ u.body.mg.schedule, ∀ w dur, e.kind ≠ .budget w dur) ∧
      u.body.data = s.body.data.post 0x0607 0 [(s.alm.beat, 0), (s.body.pw.lastAccept.getD 0, 0), (s.body.flash.cap.safeW, 0)] := by
  refine makes_of_run (show _ = execBudgetFallback s from rfl) ?_
  dsimp only
  rw [if_pos (by simp [hf, hb])]
  refine ⟨rfl, fun e he w dur hk => ?_, rfl⟩
  have h := (List.mem_filter.1 he).2
  rw [hk] at h
  exact Bool.noConfusion h

theorem fires_none {c : Instr} {s : State} {t : Nat} {meas : List Nat} {kind : SKind → Bool} (he : exec c s = fireIf s t meas kind)
    (h : ∀ e, nextEntry s = some e → e.ticket ≠ t) : Leaves c s s := by
  refine leaves_of_run he ?_
  cases hn : nextEntry s with
  | none => rfl
  | some e => exact if_neg fun hk => h e hn hk.1

/-- Settles O39: the entry that runs is the earliest that can; each kind has its rule. -/
theorem scheduledActions : Obligations.ScheduledActions := by
  unfold Obligations.ScheduledActions
  refine ⟨fun s e hn => ?_, fun s t meas => fires_none (show _ = execScheduleEntryFire t meas s from rfl), fun s e hn ht hl hb => ?_,
    fun s e meas slot hn hk hb => sample_late hn hk hb meas, budgets_expire, fun s => budgets_fall_back⟩
  · obtain ⟨h1, h2, h3⟩ := nextEntry_earliest hn
    exact ⟨h1, (canFire_due h2).1, (canFire_due h2).2, h3⟩
  · refine ⟨fun w dur meas c hk hc => ?_, fun crc => routes_at_beat hn ht hl hb, fun tag nodes n p => graft_at_beat hn ht hl hb,
      fun tag nodes => graft_unknown hn ht hl hb, fun tag nodes n p => prune_at_beat hn ht hl hb,
      fun slot meas hk => sample_at_beat hn ht hl hb hk meas, wrapped_unbound hn ht hl hb, wrapped_cap hn ht hl hb⟩
    rcases hc with rfl | rfl
    · exact budget_at_beat hn ht hl hb (show _ = execBudgetTakesEffect e.ticket s from rfl) hk (by rw [hk])
    · exact budget_at_beat hn ht hl hb (show _ = execScheduleEntryFire e.ticket meas s from rfl) hk rfl

end Sys2Proof.Machine
end

section
/-! Letters over graphs, journals and replays. -/

namespace Sys2Proof.Machine

/-! ### Graphs that are stored and launched -/

/-- The image of a graph as a letter gives it. -/
def graphImage (s : State) (l : Letter) (plot : Nat) : List Byte := (s.body.data.devRead plot (l.arg 8 8 % 2 ^ 40) (l.arg 16 4)).getD []

/-- The length of its successor array. -/
def graphSuccs (l : Letter) : Nat := (l.arg 16 4 - 64 * l.arg 4 4) / 4

/-- Its node records. -/
def graphRecs (s : State) (l : Letter) (plot : Nat) : List (List Byte) :=
  (List.range (l.arg 4 4)).map fun i => ((graphImage s l plot).drop (64 * i)).take 64

/-- Its nodes. -/
def graphNodes (s : State) (l : Letter) (plot : Nat) : List GNode :=
  (graphRecs s l plot).map fun r => parseNode r
    ((((List.range (graphSuccs l)).map fun i => field (graphImage s l plot) (64 * l.arg 4 4 + 4 * i) 4).drop (field r 48 4)).take (field r 44 2))

/-- The graph that is stored. -/
def graphStored (s : State) (l : Letter) (plot : Nat) (fs : List Nat) : Graph :=
  { ctx := l.arg 0 2, nodes := graphNodes s l plot, snap := l.arg 24 8, hostCount := 1, frames := fs, lastBank := 1, banks := [] }

theorem zipIdx_find_none {α : Type} {l : List α} {p : α → Bool} (h : ∀ x ∈ l, p x = false) : (l.zipIdx.find? fun n => p n.1) = none := by
  refine List.find?_eq_none.2 fun n hn => ?_
  obtain ⟨x, i⟩ := n
  rw [h x (List.fst_mem_of_mem_zipIdx hn)]
  decide

theorem effGraphStore_ok {s : State} {l : Letter} (jid : Nat) {x : Ctx} {p : Plot} {g : Nat} {fs : List Nat} {t : Taking}
    (hx : mget s.body.data.ctxs (l.arg 0 2) = some x) (h₀ : x.hostCount ≠ 0) (hp : mget s.body.data.plots x.plot = some p) (hd : p.st ≠ .destroying)
    (hi : coversObj s.body.data x.plot (l.arg 8 8) (l.arg 16 4) = true) (hs : coversObj s.body.data x.plot (l.arg 24 8) (512 * l.arg 4 4) = true)
    (hr : readable s.body.data x.plot (l.arg 8 8) (l.arg 16 4) = true)
    (hb : ∀ i, i < l.arg 4 4 → nodeBad s.body.data x.plot (graphNodes s l x.plot) (graphRecs s l x.plot) (graphSuccs l) i = false)
    (ht : ∀ n ∈ graphNodes s l x.plot, n.kind = 1 → n.detached = true → n.blocks ≤ detachedMax s.body.data p n)
    (hc : (mcount s.body.data.graphs fun _ g => s.body.data.ctxPlot g.ctx == x.plot) < p.graphs) (hg : freeKey s.body.data.graphs 16384 = some g)
    (hk : takeSide s.body.data p true 0 ((l.arg 16 4 + 65535) / 65536) { used := usedFrames s.body.data, subs := [], k := s.body.data.free } = some (fs, t)) :
    effGraphStore s l jid = (s.setData { s.body.data with
      graphs := mput s.body.data.graphs g (graphStored s l x.plot fs), free := t.k }, Res.ok (natLe 2 g)) := by
  have h1 : ((List.range (l.arg 4 4)).find? fun i => nodeBad s.body.data x.plot (graphNodes s l x.plot) (graphRecs s l x.plot) (graphSuccs l) i) = none :=
    List.find?_eq_none.2 fun i hi => by rw [hb i (List.mem_range.1 hi)]; decide
  have h2 : ((graphNodes s l x.plot).zipIdx.find? fun n => n.1.kind == 1 && n.1.detached && decide (detachedMax s.body.data p n.1 < n.1.blocks)) = none := by
    refine zipIdx_find_none (p := fun n => n.kind == 1 && n.detached && decide (detachedMax s.body.data p n < n.blocks)) fun n hn => ?_
    by_cases hkd : n.kind = 1 ∧ n.detached = true
    · have := ht n hn hkd.1 hkd.2
      simp only [Bool.and_eq_false_imp, decide_eq_false_iff_not]
      omega
    · simp only [Bool.and_eq_false_imp, Bool.and_eq_true, beq_iff_eq]
      exact fun h => absurd h hkd
  unfold effGraphStore
  refine (onCtx_eq hx h₀ hp hd _).trans ?_
  dsimp only
  rw [hp]
  dsimp only
  rw [hi, hs, hr]
  simp only [Bool.not_true, Bool.false_eq_true, if_false]
  refine (show _ = _ from ?_)
  unfold graphNodes graphRecs graphSuccs graphImage at h1 h2
  rw [h1]
  dsimp only
  rw [h2]
  dsimp only
  rw [if_neg (by omega), hg, hk]
  rfl

theorem effGraphLaunch_ok {s : State} {l : Letter} (jid : Nat) {h : Pigeon} {q : Queue} {x : Ctx} {p : Plot} {r : Nat}
    (hh : mget s.body.data.pigeons (l.arg 0 2) = some h) (hq : h.queue = some q) (hq₀ : q.hostCount ≠ 0)
    (hx : mget s.body.data.ctxs h.ctx = some x) (h₀ : x.hostCount ≠ 0) (hp : mget s.body.data.plots x.plot = some p) (hd : p.st ≠ .destroying)
    (hr : readable s.body.data x.plot h.ring 32 = true) (hrr : r = leNat ((s.body.data.devRead x.plot (h.ring % 2 ^ 40) 8).getD []))
    (hs : readable s.body.data x.plot (slotAddr h r) 64 = true)
    (he : leNat ((s.body.data.devRead x.plot (slotAddr h r % 2 ^ 40) 8).getD []) = r) :
    effGraphLaunch s l jid = (s.setData
      ((((s.body.data.sWrite h.ctx 4 h.ring (natLe 8 (r + 1))).sWrite h.ctx 4 (slotAddr h r + 8)
        ((l.args.drop 8 ++ List.replicate 56 0).take 56)).sWrite h.ctx 4 (slotAddr h r) (natLe 8 (r + 1))).ringPh (l.arg 0 2)), Res.ok (natLe 8 r)) := by
  unfold effGraphLaunch
  dsimp only
  rw [hh]
  dsimp only
  rw [hq]
  dsimp only
  rw [if_neg hq₀]
  refine (onCtx_eq hx h₀ hp hd _).trans ?_
  rw [hr, ← hrr, hs, if_neg (by decide), if_neg (by decide), if_neg (by rw [he]; simp)]

theorem effGraphLaunch_none {s : State} {l : Letter} (jid : Nat) (h : ∀ h, mget s.body.data.pigeons (l.arg 0 2) = some h → h.queue = none) :
    effGraphLaunch s l jid = (s, Res.at_ 0x48 0) := by
  unfold effGraphLaunch
  dsimp only
  split
  · rfl
  · rename_i p hp
    rw [h p hp]

/-! ### Step journals -/

/-- The watches that a letter gives. -/
def journalWatches (s : State) (l : Letter) (plot : Nat) : List (List Byte) :=
  (List.range (l.arg 5 1)).map fun i => (((s.body.data.devRead plot (l.arg 16 8 % 2 ^ 40) (24 * l.arg 5 1)).getD []).drop (24 * i)).take 24

/-- The journal that is set. -/
def journalSet (s : State) (l : Letter) (plot : Nat) : StepJournal :=
  { k := l.arg 1 1, det := l.arg 4 1 == 1, area := l.arg 8 8,
    watches := (journalWatches s l plot).map fun y => (field y 0 4, field y 8 8, field y 16 8), seq := 0, lapped := 0, lapBeat := 0, gen := s.body.data.nextId }

/-- The state in which it is set. -/
def journalConfigured (s : State) (l : Letter) (plot : Nat) : State :=
  s.setBody { s.body with sj := mput s.body.sj (l.arg 2 2) (journalSet s l plot), data := { s.body.data with nextId := s.body.data.nextId + 1 } }

theorem effJournalConfigure_eq {s : State} {l : Letter} (jid : Nat) {x : Ctx} {p : Plot}
    (hx : mget s.body.data.ctxs (l.arg 2 2) = some x) (h₀ : x.hostCount ≠ 0) (hp : mget s.body.data.plots x.plot = some p) (hd : p.st ≠ .destroying)
    (ha : coversObj s.body.data x.plot (l.arg 8 8) (640 * 2 ^ l.arg 1 1) = true)
    (hw : 0 < l.arg 5 1 → coversObj s.body.data x.plot (l.arg 16 8) (24 * l.arg 5 1) = true ∧
      readable s.body.data x.plot (l.arg 16 8) (24 * l.arg 5 1) = true) :
    effJournalConfigure s l jid = if (journalWatches s l x.plot).any fun y => !watchOk y then (s, Res.no 0xC3)
      else match (journalWatches s l x.plot).find? fun y => !coversObj s.body.data x.plot (field y 8 8) (field y 16 8) with
      | some y => (s, Res.at_ (objStatus s.body.data x.plot (field y 8 8) (field y 16 8)) 16)
      | none => (journalConfigured s l x.plot, Res.ok []) := by
  unfold effJournalConfigure
  refine (onCtx_eq hx h₀ hp hd _).trans ?_
  rw [ha, if_neg (by decide), if_neg (by rintro ⟨h, k⟩; rw [(hw h).1] at k; cases k), if_neg (by rintro ⟨h, k⟩; rw [(hw h).2] at k; cases k)]
  rfl

theorem effJournalConfigure_ok {s : State} {l : Letter} (jid : Nat) {x : Ctx} {p : Plot}
    (hx : mget s.body.data.ctxs (l.arg 2 2) = some x) (h₀ : x.hostCount ≠ 0) (hp : mget s.body.data.plots x.plot = some p) (hd : p.st ≠ .destroying)
    (ha : coversObj s.body.data x.plot (l.arg 8 8) (640 * 2 ^ l.arg 1 1) = true)
    (hw : 0 < l.arg 5 1 → coversObj s.body.data x.plot (l.arg 16 8) (24 * l.arg 5 1) = true ∧
      readable s.body.data x.plot (l.arg 16 8) (24 * l.arg 5 1) = true)
    (hy : ∀ y ∈ journalWatches s l x.plot, watchOk y = true ∧ coversObj s.body.data x.plot (field y 8 8) (field y 16 8) = true) :
    effJournalConfigure s l jid = (journalConfigured s l x.plot, Res.ok []) := by
  have h1 : ((journalWatches s l x.plot).any fun y => !watchOk y) = false :=
    List.any_eq_false.2 fun y h => by rw [(hy y h).1]; decide
  have h2 : ((journalWatches s l x.plot).find? fun y => !coversObj s.body.data x.plot (field y 8 8) (field y 16 8)) = none :=
    List.find?_eq_none.2 fun y h => by rw [(hy y h).2]; decide
  rw [effJournalConfigure_eq jid hx h₀ hp hd ha hw, h1, h2]
  rfl

theorem effJournalConfigure_bad {s : State} {l : Letter} (jid : Nat) {x : Ctx} {p : Plot} (hn : 0 < l.arg 5 1)
    (hx : mget s.body.data.ctxs (l.arg 2 2) = some x) (h₀ : x.hostCount ≠ 0) (hp : mget s.body.data.plots x.plot = some p) (hd : p.st ≠ .destroying)
    (ha : coversObj s.body.data x.plot (l.arg 8 8) (640 * 2 ^ l.arg 1 1) = true)
    (hc : coversObj s.body.data x.plot (l.arg 16 8) (24 * l.arg 5 1) = true) (hr : readable s.body.data x.plot (l.arg 16 8) (24 * l.arg 5 1) = true)
    (hw : watchOk (((s.body.data.devRead x.plot (l.arg 16 8 % 2 ^ 40) (24 * l.arg 5 1)).getD []).take 24) = false) :
    effJournalConfigure s l jid = (s, Res.at_ 0xC3 0xFFFF) := by
  have h1 : ((journalWatches s l x.plot).any fun y => !watchOk y) = true := by
    refine List.any_eq_true.2 ⟨_, List.mem_map.2 ⟨0, List.mem_range.2 hn, rfl⟩, ?_⟩
    rw [Nat.mul_zero, List.drop_zero, hw]
    rfl
  rw [effJournalConfigure_eq jid hx h₀ hp hd ha fun _ => ⟨hc, hr⟩, h1]
  rfl

theorem effJournalRead_ok {s : State} {l : Letter} (jid : Nat) {x : Ctx} {j : StepJournal} {slot : Nat} {e : List Byte}
    (hx : mget s.body.data.ctxs (l.arg 2 2) = some x) (hj : mget s.body.sj (l.arg 2 2) = some j)
    (he : findStep s.body.data x.plot j (l.arg 24 8) (l.arg 32 2) = some (slot, e)) :
    effJournalRead s l jid = (s, Res.ok (natLe 4 slot ++ natLe 4 0 ++ e.take 128)) := by
  unfold effJournalRead
  rw [hx]
  dsimp only
  rw [hj]
  dsimp only
  rw [he]

theorem effJournalRead_none {s : State} {l : Letter} (jid : Nat) (hx : (mget s.body.data.ctxs (l.arg 2 2)).isSome = true)
    (hj : mget s.body.sj (l.arg 2 2) = none) : effJournalRead s l jid = (s, Res.at_ 0xC0 2) := by
  obtain ⟨x, hx⟩ := Option.isSome_iff_exists.1 hx
  unfold effJournalRead
  rw [hx]
  dsimp only
  rw [hj]

theorem effJournalDisable_ok {s : State} {l : Letter} (jid : Nat) (hx : (mget s.body.data.ctxs (l.arg 2 2)).isSome = true)
    (hj : (mget s.body.sj (l.arg 2 2)).isSome = true) :
    effJournalDisable s l jid = (s.setBody { s.body with sj := mdel s.body.sj (l.arg 2 2) }, Res.ok []) := by
  unfold effJournalDisable
  rw [if_neg (by rw [Option.isNone_eq_false_iff.2 hx]; decide), if_neg (by rw [Option.isNone_eq_false_iff.2 hj]; decide)]

/-! ### Replays -/

/-- The data plane with the launch of a replay. -/
def replayData (s : State) (l : Letter) (j : StepJournal) (e : List Byte) : Data :=
  let n := s.body.data.nextSeq (l.arg 0 2)
  { n.2 with
    nextId := n.2.nextId + 1
    launches := mput n.2.launches n.2.nextId
      { Launch.fresh (l.arg 2 2) (field e 10 2) (l.arg 0 2) n.1 s.alm.beat (some j.gen) with replay := true } }

/-- The replay of a step. -/
def replayOf (s : State) (l : Letter) (e : List Byte) : Replay :=
  { launch := s.body.data.nextId, ctx := l.arg 0 2, origSeq := l.arg 8 8, origIter := l.arg 4 2, orig := e, exclude := l.arg 6 1 == 1,
    event := l.arg 16 2, result := l.arg 24 8 }

theorem effReplay_ok {s : State} {l : Letter} (jid : Nat) {x : Ctx} {p : Plot} {j : StepJournal} {h : Pigeon} {slot : Nat} {e : List Byte}
    (hx : mget s.body.data.ctxs (l.arg 0 2) = some x) (h₀ : x.hostCount ≠ 0) (hp : mget s.body.data.plots x.plot = some p) (hd : p.st ≠ .destroying)
    (hj : mget s.body.sj (l.arg 0 2) = some j) (hh : mget s.body.data.pigeons (l.arg 2 2) = some h) (hc : h.ctx = l.arg 0 2)
    (hq : h.queue.isSome = true) (he : eventOk s.body.data (l.arg 0 2) (l.arg 16 2) = true)
    (hr : coversObj s.body.data x.plot (l.arg 24 8) 64 = true)
    (hf : findStep s.body.data x.plot j (l.arg 8 8) (l.arg 4 2) = some (slot, e)) (hg : graphOk s.body.data (l.arg 0 2) (field e 10 2) = true)
    (hn : s.body.replay = none) (hl : ∀ y ∈ s.body.data.launches, y.2.ctx ≠ l.arg 0 2) :
    effReplay s l jid = (s.setBody { s.body with
      data := if mayDispatch (replayData s l j e) (l.arg 0 2) then (replayData s l j e).beginIter s.body.data.nextId s.alm.beat else replayData s l j e
      replay := some (replayOf s l e) }, Res.ok (natLe 8 (s.body.data.nextSeq (l.arg 0 2)).1)) := by
  have h1 : (s.body.data.launches.any fun x => x.2.ctx == l.arg 0 2) = false :=
    List.any_eq_false.2 fun y hy => by simpa using hl y hy
  unfold effReplay
  refine (onCtx_eq hx h₀ hp hd _).trans ?_
  dsimp only
  rw [hj]
  dsimp only
  rw [hh, if_neg (by simp [hc, hq]), he, if_neg (by decide), hr, if_neg (by decide), hf]
  dsimp only
  rw [hg, if_neg (by decide), hn, h1, if_neg (by decide)]
  rfl

theorem effReplay_none {s : State} {l : Letter} (jid : Nat) {x : Ctx} {p : Plot} (hx : mget s.body.data.ctxs (l.arg 0 2) = some x)
    (h₀ : x.hostCount ≠ 0) (hp : mget s.body.data.plots x.plot = some p) (hd : p.st ≠ .destroying) (hj : mget s.body.sj (l.arg 0 2) = none) :
    effReplay s l jid = (s, Res.at_ 0xC0 0) := by
  unfold effReplay
  refine (onCtx_eq hx h₀ hp hd _).trans ?_
  dsimp only
  rw [hj]

/-- A plot that is not active dispatches nothing of a replay's launch. -/
theorem replay_not_dispatched {s : State} {l : Letter} {x : Ctx} {p : Plot} (j : StepJournal) (e : List Byte)
    (hx : mget s.body.data.ctxs (l.arg 0 2) = some x) (hp : mget s.body.data.plots x.plot = some p) (h : p.st ≠ .active) :
    mayDispatch (replayData s l j e) (l.arg 0 2) = false := by
  have hplot : (replayData s l j e).ctxPlot (l.arg 0 2) = x.plot := by
    unfold replayData Data.ctxPlot Data.nextSeq
    dsimp only
    rw [mget_mmod, if_pos rfl, hx]
    rfl
  unfold mayDispatch
  rw [hplot, show (replayData s l j e).plots = s.body.data.plots from rfl, hp, Option.map_some]
  simp [h]

/-- Settles O36: what each letter over graphs, journals and replays does once its checks have passed. -/
theorem graphLetters : Obligations.GraphLetters := by
  unfold Obligations.GraphLetters
  refine ⟨?graphStore, refuses_of_eff (fun _ => rfl) (fun _ => rfl) fun s l jid h => onCtx_none h _, ?graphLaunch,
    refuses_of_eff (fun _ => rfl) (fun _ => rfl) fun s l jid => effGraphLaunch_none jid, ?configure,
    refuses_of_eff (fun _ => rfl) (fun _ => rfl) fun s l jid h => ?badWatch,
    fun x j slot e => replies_of_eff (fun _ => rfl) (fun _ => rfl) (fun s l jid h => effJournalRead_ok jid h.1 h.2.1 h.2.2) fun _ _ _ => rfl,
    refuses_of_eff (fun _ => rfl) (fun _ => rfl) fun s l jid h => effJournalRead_none jid h.1 h.2,
    replies_of_eff (fun _ => rfl) (fun _ => rfl) (fun s l jid h => effJournalDisable_ok jid h.1 h.2) fun _ _ _ => rfl, ?replay,
    refuses_of_eff (fun _ => rfl) (fun _ => rfl) fun s l jid h => ?noJournal⟩
  case graphStore =>
    intro s l x p g fs t d nn img m arr recs nodes hf hx h₀ hp hd hi hs hr hb ht hc hg hk y
    exact hf.answered rfl hf.own (effGraphStore_ok (s := taken s l) _ hx h₀ hp hd hi hs hr hb ht hc hg hk) rfl rfl ⟨rfl, rfl⟩
  case graphLaunch =>
    intro s l h q x p d r hf hh hq hq₀ hx h₀ hp hd hr hs he
    exact hf.answered rfl hf.own (effGraphLaunch_ok (s := taken s l) _ hh hq hq₀ hx h₀ hp hd hr rfl hs he) rfl rfl ⟨rfl, rfl⟩
  case configure =>
    intro s l x p d hf hx h₀ hp hd ha hw ws hy j
    exact hf.answered rfl hf.own (effJournalConfigure_ok (s := taken s l) _ hx h₀ hp hd ha hw hy) rfl rfl ⟨rfl, rfl⟩
  case badWatch =>
    obtain ⟨hn, x, p, hx, h₀, hp, hd, ha, hc, hr, hw⟩ := h
    exact effJournalConfigure_bad jid hn hx h₀ hp hd ha hc hr hw
  case replay =>
    intro s l x p j h slot e d hf hx h₀ hp hd hj hh hc hq he hr hfs hg hn hl
    refine hf.answered rfl hf.own (effReplay_ok (s := taken s l) _ hx h₀ hp hd hj hh hc hq he hr hfs hg hn hl) rfl rfl
      ⟨⟨_, rfl, rfl, rfl, rfl, rfl, rfl, rfl, rfl, rfl⟩, fun ha => ?_, length_natLe 8 _⟩
    have hm := replay_not_dispatched (s := taken s l) j e hx hp ha
    have hdata : (if mayDispatch (replayData (taken s l) l j e) (l.arg 0 2) then (replayData (taken s l) l j e).beginIter (taken s l).body.data.nextId
        (taken s l).alm.beat else replayData (taken s l) l j e) = replayData (taken s l) l j e := if_neg (by rw [hm]; decide)
    rw [hdata]
    exact ⟨rfl, _, mget_mput_self .., rfl, rfl, rfl⟩
  case noJournal =>
    obtain ⟨x, p, hx, h₀, hp, hd, hj⟩ := h
    exact effReplay_none jid hx h₀ hp hd hj

end Sys2Proof.Machine
end

section
/-! Queue entries, the nodes of a launch, and waiters. -/

namespace Sys2Proof.Machine

/-! ### Writes of a context's structures -/

/-- What reads and writes of a context's structures leave of the data plane. -/
def Data.structBut (d d' : Data) : Prop :=
  { d' with mem := d.mem, lost := d.lost, objs := d.objs, cellar := d.cellar, copies := d.copies, posts := d.posts, abortPend := d.abortPend } = d

namespace Data.structBut

theorem refl (d : Data) : d.structBut d := rfl

theorem trans {a b c : Data} (h : a.structBut b) (k : b.structBut c) : a.structBut c := by
  have := congrArg (fun d : Data =>
    { d with mem := a.mem, lost := a.lost, objs := a.objs, cellar := a.cellar, copies := a.copies, posts := a.posts, abortPend := a.abortPend }) k
  exact this.trans h

theorem of_sameBut {d d' : Data} (h : d.sameBut d') : d.structBut d' := by
  have := congrArg (fun k : Data => { k with posts := d.posts, abortPend := d.abortPend }) h
  exact this

theorem sWrite (d : Data) (ctx st a : Nat) (l : List Byte) : d.structBut (d.sWrite ctx st a l) := by
  unfold Data.sWrite
  split
  · rename_i h
    exact of_sameBut (devWrite_same h)
  · rfl

theorem sRead (d : Data) (ctx st a n : Nat) : d.structBut (d.sRead ctx st a n).1 := by
  unfold Data.sRead Data.sBytes
  dsimp only
  split <;> rfl

theorem sAdd (d : Data) (ctx st a v : Nat) : d.structBut (d.sAdd ctx st a v).1 := by
  have h := sRead d ctx st a 8
  unfold Data.sAdd
  split
  · rename_i heq
    rw [heq] at h
    exact h.trans (sWrite ..)
  · rename_i heq
    rw [heq] at h
    exact h

theorem progress (d : Data) (ctx off : Nat) : d.structBut (d.progress ctx off) := by
  unfold Data.progress Data.progressN
  split
  · split
    · exact refl d
    · exact sAdd ..
  · exact refl d

theorem launches {d d' : Data} (h : d.structBut d') : d'.launches = d.launches := by
  have h := congrArg Data.launches h
  exact h

end Data.structBut

/-! ### Reads of a context's structures -/

theorem sRead_some {d : Data} {ctx st a n : Nat} {l : List Byte} (h : d.devRead (d.ctxPlot ctx) (a % 2 ^ 40) n = some l) :
    d.sRead ctx st a n = (d, some (leNat l)) := by
  rw [Data.sRead, Data.sBytes, h]
  rfl

theorem sRead_none {d : Data} {ctx st a n : Nat} (h : d.devRead (d.ctxPlot ctx) (a % 2 ^ 40) n = none) :
    d.sRead ctx st a n = (d.structLost ctx st (d.lostAt ctx a n), none) := by
  rw [Data.sRead, Data.sBytes, h]
  rfl

theorem mapM_some_length {α β : Type} {f : α → Option β} {l : List α} {m : List β} (h : l.mapM f = some m) : m.length = l.length := by
  induction l generalizing m with
  | nil =>
    cases h
    rfl
  | cons x l ih =>
    rw [List.mapM_cons] at h
    obtain ⟨y, _, h⟩ := Option.bind_eq_some_iff.1 h
    obtain ⟨ys, hys, h⟩ := Option.bind_eq_some_iff.1 h
    cases h
    exact congrArg (· + 1) (ih hys)

theorem devRead_length {d : Data} {plot a n : Nat} {l : List Byte} (h : d.devRead plot a n = some l) : l.length = n :=
  (mapM_some_length h).trans List.length_range

theorem leNat_lt (l : List Byte) : leNat l < 256 ^ l.length := by
  induction l with
  | nil => exact Nat.one_pos
  | cons b l ih =>
    have hb := b.isLt
    show b.toNat + 256 * leNat l < 256 ^ (l.length + 1)
    rw [pow_succ]
    omega

/-- What is released leaves every launch. -/
theorem clearFrames_launches (d : Data) (l : List Nat) : (d.clearFrames l).launches = d.launches := by
  refine List.foldlRecOn (motive := fun k : Data => k.launches = d.launches) _ _ rfl fun k hk i _ => ?_
  split
  · split
    · next p _ _ =>
      have ha := congrArg Data.launches (Data.AtHome.applyReq k p ‹_›)
      exact ha.trans hk
    · exact hk
    · exact hk
  · exact hk

theorem releaseOne_launches {d d' : Data} (h : d.releaseOne = some d') : d'.launches = d.launches := by
  unfold Data.releaseOne at h
  split at h
  · cases h
    exact clearFrames_launches _ _
  split at h
  · cases h
    rfl
  split at h
  · cases h
    rfl
  split at h
  · cases h
    rfl
  split at h
  · cases h
    rfl
  split at h
  · cases h
    rfl
  split at h
  · cases h
    exact clearFrames_launches _ _
  split at h
  · cases h
    rfl
  · cases h

theorem reap_launches (d : Data) : d.reap.launches = d.launches := by
  unfold Data.reap
  generalize 2 * d.graphs.length + 3 * d.pigeons.length + 2 * d.ctxs.length + d.events.length + d.objs.length + d.hws.length + 1 = n
  induction n generalizing d with
  | zero => rfl
  | succ n ih =>
    rw [reapN]
    split
    · rename_i h
      exact (ih _).trans (releaseOne_launches h)
    · rfl

theorem entryDone_launches (d : Data) (h : Nat) : (d.entryDone h).launches = d.launches := reap_launches _

variable {s : State} {h : Nat} {p : Pigeon} {q : Queue}

/-! ### Claims of queue entries -/

theorem leaves_of_runD {c : Instr} {s u : State} {f : Nat → Data → Data} (he : exec c s = s.runD f) (h : s.setData (f s.alm.beat s.body.data) = u) :
    Leaves c s u :=
  leaves_of_run (f := fun s => { s with body := { s.body with data := f s.alm.beat s.body.data } }) he h

theorem makes_of_runD {c : Instr} {s : State} {f : Nat → Data → Data} {P : State → Prop} (he : exec c s = s.runD f)
    (h : P (s.setData (f s.alm.beat s.body.data))) : Makes c s P :=
  makes_of_run (f := fun s => { s with body := { s.body with data := f s.alm.beat s.body.data } }) he h

theorem leaves_setBody {c : Instr} {s u : State} {f : Nat → Body → Body} (he : exec c s = s.runB f) (h : s.setBody (f s.alm.beat s.body) = u) :
    Leaves c s u :=
  leaves_of_run (f := fun s => { s with body := f s.alm.beat s.body }) he h

/-- The data plane after a claim: the claim and the stamp of the slot. -/
def ticketTaken (d : Data) (p : Pigeon) (t : Nat) : Data :=
  (d.sWrite p.ctx 4 (p.ring + 8) (natLe 8 (t + 1))).sWrite p.ctx 4 (slotAddr p t) (natLe 8 (t + 2 ^ p.log2))

/-- What a Dispatcher does that reads the slot at its ticket. -/
theorem claim_leaves {t : Nat} {l : List Byte} (hp : mget s.body.data.pigeons h = some p) (hq : p.queue = some q) (he : q.entry = none)
    (hc : queueClaims s.body.data p q = true) (hd : (8 + q.disp / 4) ∉ s.body.data.dieOut)
    (hb : s.body.data.busyAt (s.body.data.ctxPlot p.ctx) p.ring 24 = false)
    (hb' : s.body.data.busyAt (s.body.data.ctxPlot p.ctx) (slotAddr p t) 64 = false)
    (hr : s.body.data.sRead p.ctx 4 (p.ring + 8) 8 = (s.body.data, some t))
    (hl : s.body.data.devRead (s.body.data.ctxPlot p.ctx) (slotAddr p t % 2 ^ 40) 64 = some l) :
    Leaves (.queueEntryClaim h) s (if field l 0 8 = (t + 1) % 2 ^ 64 then
      s.setData (takeEntry { s.body with data := ticketTaken s.body.data p t } s.alm.beat h p q t l) else s) := by
  refine leaves_setBody (show _ = execQueueEntryClaim h s from rfl) ?_
  dsimp only
  rw [hp]
  dsimp only
  rw [hq]
  dsimp only
  rw [if_neg (by simp [he, hc, hd, hb]), hr]
  dsimp only
  rw [if_neg (by rw [hb']; decide), hl]
  dsimp only
  split <;> rfl

theorem firstBad_none {l : List Chk} (h : ∀ c ∈ l, c.ok = true) : firstBad l = none := by
  rw [firstBad, List.find?_eq_none.2 fun c hc => by rw [h c hc]; decide]
  rfl

/-- An entry that its checks and its objects pass is claimed. -/
theorem takeEntry_claims {b : Body} {beat t : Nat} {l : List Byte} (hr : q.running = true) (hc : ∀ c ∈ entryChecks l, c.ok = true)
    (he : field l 8 1 = 4 ∨ field l 8 1 = 1 ∧ field l 9 1 / 2 % 2 = 0 ∨ eventOk b.data p.ctx (field l 14 2) = true)
    (hg : field l 8 1 = 1 → graphOk b.data p.ctx (field l 12 2) = true) :
    takeEntry b beat h p q t l = { b.data with pigeons := mput b.data.pigeons h { p with queue := some { q with
      entry := some { bytes := l, ticket := t, jgen := (mget b.sj p.ctx).map fun (j : StepJournal) => j.gen } } } } := by
  have h1 : ¬(((field l 8 1 = 2 ∨ field l 8 1 = 3 ∨ (field l 8 1 = 1 ∧ field l 9 1 / 2 % 2 = 1)) ∧ (!eventOk b.data p.ctx (field l 14 2)) = true)) := by
    rintro ⟨hk, ho⟩
    rcases he with he | he | he
    · omega
    · omega
    · rw [he] at ho
      cases ho
  have h2 : ¬(field l 8 1 = 1 ∧ (!graphOk b.data p.ctx (field l 12 2)) = true) := by
    rintro ⟨hk, ho⟩
    rw [hg hk] at ho
    cases ho
  unfold takeEntry
  dsimp only
  rw [if_neg (by rw [hr]; simp), firstBad_none hc, if_neg (by decide), if_neg h1, if_neg h2]

/-- A WAIT or SIGNAL entry of a stopped queue is passed over. -/
theorem takeEntry_stopped {b : Body} {beat t : Nat} {l : List Byte} (hr : q.running = false) (hk : field l 8 1 = 2 ∨ field l 8 1 = 3) :
    takeEntry b beat h p q t l = b.data := by
  unfold takeEntry
  dsimp only
  rw [if_pos (by rcases hk with hk | hk <;> simp [hr, hk]), if_neg (by omega)]

/-! ### Waits, signals and resumes -/

variable {e : QEntry}

theorem wait_busy (he : entryOf s.body.data h 2 = some (p, q, e)) (hr : q.running = true) (hb : eventBusy s.body.data (field e.bytes 14 2) = true) :
    Leaves (.queueWait h) s s := by
  refine leaves_of_runD (show _ = execQueueWait h s from rfl) ?_
  rw [he]
  dsimp only
  rw [if_pos (by simp [hr, hb])]
  rfl

theorem wait_over (hh : s.body.data.halted = false) (he : entryOf s.body.data h 2 = some (p, q, e))
    (hb : q.running = true → eventBusy s.body.data (field e.bytes 14 2) = false)
    (hm : q.running = false ∨ eventMet s.body.data p.ctx (field e.bytes 14 2) (field e.bytes 16 8) = true) :
    Leaves (.queueWait h) s (s.setData (s.body.data.entryDone h)) := by
  refine leaves_of_runD (show _ = execQueueWait h s from rfl) ?_
  rw [he]
  dsimp only
  rw [if_neg (by cases hr : q.running <;> simp_all), if_pos (by rcases hm with hm | hm <;> simp [hm])]

theorem wait_on (hh : s.body.data.halted = false) (he : entryOf s.body.data h 2 = some (p, q, e)) (hr : q.running = true)
    (hb : eventBusy s.body.data (field e.bytes 14 2) = false)
    (hm : eventMet s.body.data p.ctx (field e.bytes 14 2) (field e.bytes 16 8) = false) :
    Leaves (.queueWait h) s (s.setData (s.body.data.eventLost (field e.bytes 14 2))) := by
  refine leaves_of_runD (show _ = execQueueWait h s from rfl) ?_
  rw [he]
  dsimp only
  rw [if_neg (by simp [hh, hb]), if_neg (by simp [hr, hm])]

theorem eventLost_read {d : Data} {ev : Nat} (h : mget d.events ev = none ∨ (d.eventVal ev).isSome = true) : d.eventLost ev = d := by
  unfold Data.eventLost
  split
  · rename_i v hv
    rcases h with h | h
    · rw [h] at hv
      cases hv
    · rw [Data.eventVal, hv, Option.bind_some, Option.isSome_map] at h
      obtain ⟨l, hl⟩ := Option.isSome_iff_exists.1 h
      rw [sRead_some hl]
  · rfl

theorem eventLost_lost {d : Data} {ev : Nat} {v : Event} (hv : mget d.events ev = some v) (h : d.eventVal ev = none) :
    ∃ a, d.eventLost ev = d.structLost v.ctx (d.eventStruct ev v.ctx) a := by
  rw [Data.eventVal, hv, Option.bind_some, Option.map_eq_none_iff] at h
  unfold Data.eventLost
  rw [hv]
  dsimp only
  rw [sRead_none h]
  exact ⟨_, rfl⟩

theorem signal_stopped (hh : s.body.data.halted = false) (he : entryOf s.body.data h 3 = some (p, q, e)) (hr : q.running = false) :
    Leaves (.queueSignal h) s (s.setData (s.body.data.entryDone h)) := by
  refine leaves_of_runD (show _ = execQueueSignal h s from rfl) ?_
  rw [he]
  dsimp only
  rw [if_neg (by simp [hh, hr]), if_neg (by rw [hr]; decide)]

theorem signal_adds (hh : s.body.data.halted = false) (he : entryOf s.body.data h 3 = some (p, q, e)) (hr : q.running = true)
    (hb : eventBusy s.body.data (field e.bytes 14 2) = false) :
    Leaves (.queueSignal h) s (s.setData ((s.body.data.eventAdd (field e.bytes 14 2) (field e.bytes 16 8)).entryDone h)) := by
  refine leaves_of_runD (show _ = execQueueSignal h s from rfl) ?_
  rw [he]
  dsimp only
  rw [if_neg (by simp [hh, hb]), if_pos hr]

theorem resumes (hh : s.body.data.halted = false) (he : entryOf s.body.data h 4 = some (p, q, e)) (hr : q.running = false) :
    Leaves (.queueResume h) s (s.setData (Data.entryDone (Data.post { s.body.data with
      pigeons := mput s.body.data.pigeons h { p with queue := some { q with running := true } } } 0x0802 0
        [(h, 2), (p.ctx, 2), (0, 4), (e.ticket, 8)]) h)) := by
  refine leaves_of_runD (show _ = execQueueResume h s from rfl) ?_
  rw [he]
  dsimp only
  rw [if_neg (by rw [hh]; decide), if_neg (by rw [hr]; decide)]

/-! ### Launches -/

theorem launch_stopped (hh : s.body.data.halted = false) (he : entryOf s.body.data h 1 = some (p, q, e)) (hr : q.running = false)
    (hl : q.launch = none) : Leaves (.queueLaunch h) s
      (s.setData ((launchless s.body.data q.disp p.ctx (field e.bytes 24 8) 2 s.alm.beat).entryDone h)) := by
  refine leaves_of_runD (show _ = execQueueLaunch h s from rfl) ?_
  rw [he]
  dsimp only
  rw [if_pos (by simp [hh, hr, hl])]

theorem launch_graphless (he : entryOf s.body.data h 1 = some (p, q, e)) (hm : mayDispatch s.body.data p.ctx = true) (hr : q.running = true)
    (hl : q.launch = none) (hg : graphHeld s.body.data p.ctx (field e.bytes 12 2) = false) : Leaves (.queueLaunch h) s
      (s.setData ((launchless s.body.data q.disp p.ctx (field e.bytes 24 8) 5 s.alm.beat).entryDone h)) := by
  refine leaves_of_runD (show _ = execQueueLaunch h s from rfl) ?_
  rw [he]
  dsimp only
  rw [if_neg (by simp [hr]), if_neg (by rw [hm]; decide), hl]
  dsimp only
  rw [if_pos (by rw [hg]; rfl)]

/-- The launch of an entry. -/
def entryLaunch (d : Data) (h : Nat) (p : Pigeon) (e : QEntry) (beat : Nat) : Launch :=
  { Launch.fresh h (field e.bytes 12 2) p.ctx (d.nextSeq p.ctx).1 beat e.jgen with
    rep := field e.bytes 10 2
    signal := field e.bytes 9 1 / 2 % 2 == 1
    stopOnFail := field e.bytes 9 1 % 2 == 1
    event := field e.bytes 14 2
    value := BitVec.ofNat 64 (field e.bytes 16 8)
    record := field e.bytes 24 8 }

/-- The data plane with the launch of an entry, not yet begun. -/
def launchMade (d : Data) (h : Nat) (p : Pigeon) (q : Queue) (e : QEntry) (beat : Nat) : Data :=
  { (d.nextSeq p.ctx).2 with
    nextId := d.nextId + 1
    launches := mput d.launches d.nextId (entryLaunch d h p e beat)
    pigeons := mput d.pigeons h { p with queue := some { q with launch := some d.nextId } } }

theorem launch_makes (he : entryOf s.body.data h 1 = some (p, q, e)) (hm : mayDispatch s.body.data p.ctx = true) (hr : q.running = true)
    (hl : q.launch = none) (hg : graphHeld s.body.data p.ctx (field e.bytes 12 2) = true) : Leaves (.queueLaunch h) s
      (s.setData ((launchMade s.body.data h p q e s.alm.beat).beginIter s.body.data.nextId s.alm.beat)) := by
  refine leaves_of_runD (show _ = execQueueLaunch h s from rfl) ?_
  rw [he]
  dsimp only
  rw [if_neg (by simp [hr]), if_neg (by rw [hm]; decide), hl]
  dsimp only
  rw [if_neg (by rw [hg]; decide)]
  rfl

/-- A launch as its next iteration begins. -/
def Launch.begun (l : Launch) (nodes bank beat : Nat) : Launch :=
  { l with
    iter := l.okIters
    bank := bank
    nodes := (List.range nodes).map fun i => (i, NodeRun.fresh)
    open_ := true
    startBeat := if l.okIters = 0 then beat else l.startBeat
    digests := []
    itBeat := beat
    itNan := l.nan
    itSat := l.sat
    itFaults := l.faults
    colls := [] }

theorem beginIter_begins {d : Data} {id beat : Nat} {l : Launch} {g : Graph} {k : Nat} (hl : mget d.launches id = some l)
    (hg : mget d.graphs l.graph = some g) (hk : pickBank g = some k) :
    d.beginIter id beat = { d with launches := mput d.launches id (l.begun g.nodes.length k beat),
                                   graphs := mput d.graphs l.graph { g with lastBank := k, banks := sadd g.banks k } } := by
  unfold Data.beginIter
  rw [hl]
  dsimp only
  rw [hg]
  dsimp only
  rw [hk]
  rfl

variable {s : State} {id i : Nat} {l : Launch} {g : Graph} {p : Plot} {n : GNode}

/-! ### Nodes that are dispatched -/

theorem node_not_ready (hl : mget s.body.data.launches id = some l) (hg : mget s.body.data.graphs l.graph = some g)
    (hp : mget s.body.data.plots (s.body.data.ctxPlot l.ctx) = some p) (hn : g.nodes[i]? = some n) (h : nodeReady s.body l g i = false) :
    Leaves (.nodeDispatch id i) s s := by
  refine leaves_setBody (show _ = execNodeDispatch id i s from rfl) ?_
  dsimp only
  rw [hl]
  dsimp only
  rw [hg, hp]
  dsimp only
  rw [hn]
  dsimp only
  rw [if_pos (by simp [h])]
  rfl

/-- The data plane after the snapshot of a node without a slip. -/
def snapped (d : Data) (l : Launch) (g : Graph) (i : Nat) : Data := d.sWrite l.ctx 7 (snapAddr g l.bank i) noSlip

/-- A ready node without a slip acts on the empty slip. -/
theorem node_dispatches (hl : mget s.body.data.launches id = some l) (hg : mget s.body.data.graphs l.graph = some g)
    (hp : mget s.body.data.plots (s.body.data.ctxPlot l.ctx) = some p) (hn : g.nodes[i]? = some n) (ho : l.open_ = true) (ha : l.aborted = false)
    (hm : mayDispatch s.body.data l.ctx = true) (h : nodeReady s.body l g i = true) (hlow : ∀ m, m < i → nodeReady s.body l g m = false)
    (hs : n.slip = 0) {d : Data} (hd : dispatchNode (snapped s.body.data l g i) id l p i n (snapAddr g l.bank i) noSlip = some d) :
    Leaves (.nodeDispatch id i) s (s.setData d) := by
  have hlow' : ((List.range i).any fun m => nodeReady s.body l g m) = false :=
    List.any_eq_false.2 fun m hm => by rw [hlow m (List.mem_range.1 hm)]; decide
  refine leaves_setBody (show _ = execNodeDispatch id i s from rfl) ?_
  dsimp only
  rw [hl]
  dsimp only
  rw [hg, hp]
  dsimp only
  rw [hn]
  dsimp only
  rw [if_neg (by simp [ho, ha, hm, h, hlow']), if_pos hs]
  dsimp only
  rw [show (s.body.data.sWrite l.ctx 7 (snapAddr g l.bank i) noSlip) = snapped s.body.data l g i from rfl, hd]
  rfl

theorem slipOk_noSlip (n : GNode) : slipOk n noSlip = true := by
  have h0 : field noSlip 0 4 = 0 := by decide
  have h4 : field noSlip 4 1 = 1 := by decide
  have h5 : field noSlip 5 3 = 0 := by decide
  have h8 : field noSlip 8 8 = 0 := by decide
  unfold slipOk
  rw [h0, h4, h5, h8]
  simp

/-- A launch with one node changed. -/
def nodeSet (d : Data) (id i : Nat) (f : NodeRun → NodeRun) : Data :=
  { d with launches := mmod d.launches id fun x => { x with nodes := mmod x.nodes i f } }

theorem dispatch_kernel {d : Data} (snap : Nat) (hk : n.kind = 1) (hd : n.detached = false) :
    dispatchNode d id l p i n snap noSlip = some (nodeSet d id i fun x => { x with st := .dispatched, grid := n.blocks, slip := BitVec.ofNat 64 snap }) := by
  have h0 : field noSlip 0 4 = 0 := by decide
  have h4 : field noSlip 4 1 = 1 := by decide
  unfold dispatchNode
  rw [slipOk_noSlip, if_neg (by decide), h4, if_neg (by decide), hk]
  dsimp only
  rw [h0, if_pos rfl, if_neg (by rw [hd]; simp)]
  rfl

theorem dispatch_barrier {d : Data} (snap : Nat) (hk : n.kind = 7) :
    dispatchNode d id l p i n snap noSlip = some (nodeEnds d id i .done) := by
  have h4 : field noSlip 4 1 = 1 := by decide
  unfold dispatchNode
  rw [slipOk_noSlip, if_neg (by decide), h4, if_neg (by decide), hk]
  rfl

theorem dispatch_wait {d : Data} (snap : Nat) (hk : n.kind = 4) (he : eventMet d l.ctx (n.target.toNat % 65536) n.value.toNat = false) :
    dispatchNode d id l p i n snap noSlip =
      some (nodeSet d id i fun x => { x with st := .dispatched, slip := BitVec.ofNat 64 n.value.toNat }) := by
  have h4 : field noSlip 4 1 = 1 := by decide
  have h8 : field noSlip 8 8 = 0 := by decide
  unfold dispatchNode
  rw [slipOk_noSlip, if_neg (by decide), h4, if_neg (by decide), hk]
  show (if eventMet d l.ctx (n.target.toNat % 65536) (if field noSlip 8 8 = 0 then n.value.toNat else field noSlip 8 8) then _ else _) = _
  rw [h8, if_pos rfl, if_neg (by rw [he]; decide)]
  rfl

theorem nodeReady_waiting {b : Body} (h : nodeReady b l g i = true) : ∃ x, mget l.nodes i = some x := by
  unfold nodeReady at h
  simp only [Bool.and_eq_true, beq_iff_eq] at h
  obtain ⟨⟨hw, -⟩, -⟩ := h
  obtain ⟨x, hx, -⟩ := Option.map_eq_some_iff.1 hw
  exact ⟨x, hx⟩

theorem nodeSet_node {d : Data} {x : NodeRun} (hl : mget d.launches id = some l) (hx : mget l.nodes i = some x) (f : NodeRun → NodeRun) :
    ∃ y, mget (nodeSet d id i f).launches id = some y ∧ mget y.nodes i = some (f x) := by
  refine ⟨{ l with nodes := mmod l.nodes i f }, ?_, ?_⟩
  · unfold nodeSet
    dsimp only
    rw [mget_mmod, if_pos rfl, hl]
    rfl
  · show mget (mmod l.nodes i f) i = _
    rw [mget_mmod, if_pos rfl, hx]
    rfl

theorem nodeEnds_done {d : Data} {x : NodeRun} (hl : mget d.launches id = some l) (hx : mget l.nodes i = some x) :
    ∃ y, mget (nodeEnds d id i .done).launches id = some y ∧ mget y.nodes i = some { x with st := .done } ∧ y.run = l.run + 1 := by
  unfold nodeEnds
  rw [hl]
  dsimp only
  rw [(Data.structBut.progress _ _ _).launches]
  refine ⟨_, mget_mput_self .., ?_, rfl⟩
  dsimp only
  rw [mget_mmod, if_pos rfl, hx]
  rfl

theorem snapped_launches (d : Data) (l : Launch) (g : Graph) (i : Nat) : (snapped d l g i).launches = d.launches :=
  (Data.structBut.sWrite ..).launches

/-! ### Nodes that are complete -/

theorem complete_leaves {x : NodeRun} (hl : mget s.body.data.launches id = some l)
    (hn : ((mget s.body.data.graphs l.graph).bind fun g => g.nodes[i]?) = some n) (hx : mget l.nodes i = some x) (hs : x.st = .dispatched)
    (hh : s.body.data.halted = false) : Leaves (.nodeComplete id i) s (s.setData (match nodeOver s.body.data l n x with
      | 1 => nodeEnds s.body.data id i .done
      | 2 => if n.kind = 1 then nodeFails s.body.data id i 4 0 else nodeFails s.body.data id i 3 (x.engine.getD 0)
      | _ => s.body.data)) := by
  refine leaves_of_runD (show _ = execNodeComplete id i s from rfl) ?_
  rw [hl]
  dsimp only
  rw [hn, hx]
  dsimp only
  rw [if_neg (by simp [hs, hh])] <;> rfl

theorem over_kernel {d : Data} {x : NodeRun} (hk : n.kind = 1) (ha : x.aborted = false) :
    nodeOver d l n x = if x.placed = x.grid ∧ (n.detached ∨ x.ended = x.grid) then 1 else 0 := by
  unfold nodeOver
  rw [hk]
  exact if_neg (by rw [ha]; decide)

theorem over_engine {d : Data} {x : NodeRun} {c : Nat} (hk : n.kind = 2 ∨ n.kind = 3) (he : x.engine = some c) :
    nodeOver d l n x = if c = 0 then 1 else 2 := by
  unfold nodeOver
  rcases hk with hk | hk <;> rw [hk, he] <;> cases c <;> rfl

/-! ### Digests -/

/-- The digest of a watch is taken. -/
def digestTaken (d : Data) (id w : Nat) (x : W64) : Data :=
  { d with free := d.free + 2, launches := mmod d.launches id fun y => { y with digests := y.digests ++ [(w, x)] } }

theorem digestTaken_launch {d : Data} (w : Nat) (x : W64) (hl : mget d.launches id = some l) :
    mget (digestTaken d id w x).launches id = some { l with digests := l.digests ++ [(w, x)] } := by
  unfold digestTaken
  dsimp only
  rw [mget_mmod, if_pos rfl, hl]
  rfl

theorem digest_makes {j : StepJournal} {w : Nat} {v : Nat × Nat × Nat} (hl : mget s.body.data.launches id = some l)
    (hj : s.body.journalOf l = some j) (hh : s.body.data.halted = false) (hd : ((s.body.digestsDue l).filter fun x => x.1 == i) = [(i, w)])
    (hv : j.watches[w]? = some v) : Leaves (.journalWatchDigest id i) s
      (s.setData (digestTaken s.body.data id w (digestOf s.body.data (s.body.data.ctxPlot l.ctx) v.2.1 v.2.2))) := by
  refine leaves_setBody (show _ = execJournalWatchDigest id i s from rfl) ?_
  dsimp only
  rw [hl]
  dsimp only
  rw [hj]
  dsimp only
  rw [if_neg (by rw [hh]; decide), hd]
  simp only [List.foldl_cons, List.foldl_nil, hv]
  rfl

/-! ### Waiters -/

/-- A Dispatcher reads the events that it waits for. -/
def pollHeld (disp : Nat) (d : Data) : Data := ((heldEvents d disp).filter fun e => !eventBusy d e).foldl (fun (d : Data) e => d.eventLost e) d

/-- Interrupts that are due are sent. -/
def pollArmed (d : Data) : Data := ((armedEvents d).filter fun e => !eventBusy d e).foldl (fun (d : Data) e => d.evalIrq e (2 ^ 64)) d

/-- The WAIT entry of a queue goes on if its event has reached its value. -/
def pollQueue (disp : Nat) (d : Data) (h : Nat × Pigeon) : Data :=
  match entryOf d h.1 2 with
  | some (x, q, e) =>
    if q.disp = disp ∧ q.running ∧ !eventBusy d (field e.bytes 14 2) ∧ eventMet d x.ctx (field e.bytes 14 2) (field e.bytes 16 8) then d.entryDone h.1 else d
  | none => d

/-- Nodes that wait go on likewise. -/
def pollNodes (disp : Nat) (d : Data) : Data :=
  d.launches.foldl (fun (d : Data) l =>
    if l.2.open_ ∧ dispOf d l.2 = disp then
      l.2.nodes.foldl (fun (d : Data) n => match (mget d.graphs l.2.graph).bind fun g => g.nodes[n.1]? with
        | some g => if n.2.st = .dispatched ∧ g.kind = 4 ∧ nodeOver d l.2 g n.2 = 1 then nodeEnds d l.1 n.1 .done else d
        | none => d) d
    else d) d

/-- What a Dispatcher's poll does. -/
def polled (disp : Nat) (d : Data) : Data :=
  let d := pollArmed (pollHeld disp d)
  pollNodes disp (d.pigeons.foldl (pollQueue disp) d)

theorem execEventWaiterPoll_eq (disp : Nat) (s : State) : execEventWaiterPoll disp s = s.runD fun _ d =>
    if d.halted || decide (8 ≤ disp) || d.dieOut.contains (8 + disp / 4) then d else polled disp d := rfl

theorem poll_idle {s : State} {k : Nat} (h : 8 ≤ k ∨ s.body.data.halted = true) : Leaves (.eventWaiterPoll k) s s := by
  refine leaves_of_runD ((show _ = execEventWaiterPoll k s from rfl).trans (execEventWaiterPoll_eq k s)) ?_
  rw [if_pos (by rcases h with h | h <;> simp [h])]
  rfl

theorem poll_leaves {s : State} {k : Nat} (hk : k < 8) (hd : (8 + k / 4) ∉ s.body.data.dieOut) (hh : s.body.data.halted = false) :
    Leaves (.eventWaiterPoll k) s (s.setData (polled k s.body.data)) := by
  refine leaves_of_runD ((show _ = execEventWaiterPoll k s from rfl).trans (execEventWaiterPoll_eq k s)) ?_
  rw [if_neg (by simp [hh, hd, hk])]

theorem foldl_fixed {α β : Type} {f : α → β → α} {l : List β} {d : α} (h : ∀ x ∈ l, f d x = d) : l.foldl f d = d := by
  induction l with
  | nil => rfl
  | cons x l ih =>
    rw [List.foldl_cons, h x List.mem_cons_self]
    exact ih fun y hy => h y (List.mem_cons_of_mem _ hy)

/-- A list of nothing but one value, of which it has some, does what the first does if that cannot be done again. -/
theorem foldl_once {α β : Type} {f : α → β → α} {l : List β} {d d' : α} {x : β} (hx : ∀ y ∈ l, y = x) (hm : x ∈ l) (h : f d x = d')
    (h' : f d' x = d') : l.foldl f d = d' := by
  cases l with
  | nil => cases hm
  | cons y l =>
    rw [List.foldl_cons, hx y List.mem_cons_self, h]
    exact foldl_fixed fun z hz => by rw [hx z (List.mem_cons_of_mem _ hz), h']

/-- Without a launch a Dispatcher waits for what its queues' entries wait for. -/
theorem heldEvents_entry {d : Data} {h disp x : Nat} {p : Pigeon} {q : Queue} {e : QEntry} (hp : d.pigeons = [(h, p)]) (hl : d.launches = [])
    (he : entryOf d h 2 = some (p, q, e)) (hx : x ∈ heldEvents d disp) : x = field e.bytes 14 2 := by
  have hm : mget d.pigeons h = some p := by
    rw [hp]
    exact if_pos (by simp)
  unfold entryOf at he
  rw [hm, Option.bind_some] at he
  obtain ⟨q', hq, he⟩ := Option.bind_eq_some_iff.1 he
  obtain ⟨e', hqe, he⟩ := Option.bind_eq_some_iff.1 he
  split at he
  · cases he
    unfold heldEvents at hx
    rw [List.mem_eraseDups, hp, hl, List.filter_nil, List.flatMap_nil, List.append_nil] at hx
    obtain ⟨y, hy, hx⟩ := List.mem_filterMap.1 hx
    cases List.mem_singleton.1 hy
    dsimp only at hx
    rw [hq] at hx
    dsimp only at hx
    split at hx
    · rw [hqe, Option.bind_some, if_pos ‹_›] at hx
      exact (Option.some.inj hx).symm
    · cases hx
  · cases he

theorem evalIrq_eq {d : Data} {ev old : Nat} {v : Event} {a b : List Byte} (hv : mget d.events ev = some v)
    (ha : d.devRead (d.ctxPlot v.ctx) (v.addr % 2 ^ 40) 8 = some a) (hb : d.devRead (d.ctxPlot v.ctx) ((v.addr + 8) % 2 ^ 40) 8 = some b) :
    d.evalIrq ev old = if leNat b ≤ leNat a ∧ v.vector ≠ 0xFFFF ∧ (old < leNat b ∨ v.fired ≠ some (BitVec.ofNat 64 (leNat b))) then
      { d with irqs := d.irqs ++ [(d.ctxPlot v.ctx, v.vector)], events := mput d.events ev { v with fired := some (BitVec.ofNat 64 (leNat b)) } }
    else d := by
  unfold Data.evalIrq
  rw [hv]
  dsimp only
  rw [sRead_some ha]
  dsimp only
  rw [sRead_some hb]

theorem eventMet_eq {d : Data} {ctx ev x : Nat} {v : Event} {a : List Byte} (hv : mget d.events ev = some v) (hp : d.ctxPlot v.ctx = d.ctxPlot ctx)
    (ha : d.devRead (d.ctxPlot v.ctx) (v.addr % 2 ^ 40) 8 = some a) : eventMet d ctx ev x = decide (x ≤ leNat a) := by
  have he : d.eventVal ev = some (leNat a) := by
    rw [Data.eventVal, hv, Option.bind_some, ha]
    rfl
  unfold eventMet
  rw [hv]
  dsimp only
  rw [he, hp]
  simp

/-- Events with a vector, where only one may have one. -/
theorem armedEvents_one {d : Data} {ev x : Nat} (h : ∀ y ∈ d.events, y.1 ≠ ev → y.2.vector = 0xFFFF) (hx : x ∈ armedEvents d) : x = ev := by
  obtain ⟨y, hy, rfl⟩ := List.mem_map.1 hx
  obtain ⟨hm, hv⟩ := List.mem_filter.1 hy
  by_contra hne
  rw [h y hm hne] at hv
  exact absurd hv (by decide)

/-- A read of an event that the Dispatcher can reach changes nothing. -/
theorem eventLost_reached {d : Data} {ev : Nat} {v : Event} {a : List Byte} (hv : mget d.events ev = some v)
    (ha : d.devRead (d.ctxPlot v.ctx) (v.addr % 2 ^ 40) 8 = some a) : d.eventLost ev = d := by
  refine eventLost_read (.inr ?_)
  rw [Data.eventVal, hv, Option.bind_some, ha]
  rfl

/-- The one queue of a plane, its WAIT entry on an event whose record can be read, and no launch. -/
structure OneWaiter (d : Data) (h : Nat) (p : Pigeon) (q : Queue) (e : QEntry) (v : Event) (a b : List Byte) : Prop where
  pigeons : d.pigeons = [(h, p)]
  entry : entryOf d h 2 = some (p, q, e)
  launches : d.launches = []
  running : q.running = true
  lone : ∀ x ∈ d.events, x.1 ≠ field e.bytes 14 2 → x.2.vector = 0xFFFF
  event : mget d.events (field e.bytes 14 2) = some v
  plot : d.ctxPlot v.ctx = d.ctxPlot p.ctx
  free : eventBusy d (field e.bytes 14 2) = false
  value : d.devRead (d.ctxPlot v.ctx) (v.addr % 2 ^ 40) 8 = some a
  irqAt : d.devRead (d.ctxPlot v.ctx) ((v.addr + 8) % 2 ^ 40) 8 = some b

namespace OneWaiter

variable {d : Data} {h : Nat} {p : Pigeon} {q : Queue} {e : QEntry} {v : Event} {a b : List Byte}

theorem held (w : OneWaiter d h p q e v a b) (disp : Nat) : pollHeld disp d = d := by
  refine foldl_fixed fun x hx => ?_
  rw [heldEvents_entry w.pigeons w.launches w.entry (List.mem_filter.1 hx).1]
  exact eventLost_reached w.event w.value

/-- Without a vector no interrupt is due. -/
theorem unarmed (w : OneWaiter d h p q e v a b) (hv : v.vector = 0xFFFF) : pollArmed d = d := by
  refine foldl_fixed fun x hx => ?_
  rw [armedEvents_one w.lone (List.mem_filter.1 hx).1, evalIrq_eq w.event w.value w.irqAt, if_neg fun h => h.2.1 hv]

/-- A value at VALUE lets the entry go on. -/
theorem met (w : OneWaiter d h p q e v a b) (hx : field e.bytes 16 8 ≤ leNat a) : d.pigeons.foldl (pollQueue q.disp) d = d.entryDone h := by
  rw [w.pigeons, List.foldl_cons, List.foldl_nil]
  unfold pollQueue
  rw [w.entry]
  dsimp only
  rw [if_pos ⟨rfl, w.running, by rw [w.free]; rfl, by rw [eventMet_eq w.event w.plot w.value]; exact decide_eq_true hx⟩]

/-- The state of the plane after the event's interrupt. -/
def sent (d : Data) (ev : Nat) (v : Event) (b : List Byte) : Data :=
  { d with irqs := d.irqs ++ [(d.ctxPlot v.ctx, v.vector)], events := mput d.events ev { v with fired := some (BitVec.ofNat 64 (leNat b)) } }

/-- An interrupt that is due is sent once. -/
theorem armed (w : OneWaiter d h p q e v a b) (hv : v.vector ≠ 0xFFFF) (hb : leNat b ≤ leNat a) (hf : v.fired ≠ some (BitVec.ofNat 64 (leNat b))) :
    pollArmed d = sent d (field e.bytes 14 2) v b := by
  have hm : field e.bytes 14 2 ∈ (armedEvents d).filter fun e => !eventBusy d e :=
    List.mem_filter.2 ⟨List.mem_map.2 ⟨_, List.mem_filter.2 ⟨mem_of_mget w.event, bne_iff_ne.2 hv⟩, rfl⟩, by rw [w.free]; rfl⟩
  have h64 : leNat b < 2 ^ 64 := by
    have := leNat_lt b
    rw [devRead_length w.irqAt] at this
    exact this
  refine foldl_once (fun y hy => armedEvents_one w.lone (List.mem_filter.1 hy).1) hm ?_ ?_
  · rw [evalIrq_eq w.event w.value w.irqAt, if_pos ⟨hb, hv, .inr hf⟩]
    rfl
  · have he := evalIrq_eq (d := sent d (field e.bytes 14 2) v b) (old := 2 ^ 64) (mget_mput_self _ _ _) w.value w.irqAt
    rw [he, if_neg]
    rintro ⟨-, -, ho | ho⟩
    · omega
    · exact ho rfl

/-- A value below VALUE leaves the entry. -/
theorem unmet (w : OneWaiter d h p q e v a b) (hx : leNat a < field e.bytes 16 8) :
    (sent d (field e.bytes 14 2) v b).pigeons.foldl (pollQueue q.disp) (sent d (field e.bytes 14 2) v b) = sent d (field e.bytes 14 2) v b := by
  have hm : eventMet (sent d (field e.bytes 14 2) v b) p.ctx (field e.bytes 14 2) (field e.bytes 16 8) = false := by
    rw [eventMet_eq (d := sent d (field e.bytes 14 2) v b) (mget_mput_self _ _ _) w.plot w.value]
    exact decide_eq_false (by omega)
  rw [show (sent d (field e.bytes 14 2) v b).pigeons = [(h, p)] from w.pigeons, List.foldl_cons, List.foldl_nil]
  unfold pollQueue
  rw [show entryOf (sent d (field e.bytes 14 2) v b) h 2 = some (p, q, e) from w.entry]
  dsimp only
  rw [if_neg]
  rintro ⟨-, -, -, hk⟩
  rw [hm] at hk
  cases hk

end OneWaiter

theorem pollNodes_none {d : Data} (disp : Nat) (h : d.launches = []) : pollNodes disp d = d := by
  rw [pollNodes, h]
  rfl

/-- Settles O42: a rule for claims, one for each kind of entry, for nodes that begin and end, for digests and for waiters. -/
theorem queuesAndNodes : Obligations.QueuesAndNodes := by
  unfold Obligations.QueuesAndNodes
  refine ⟨?claim, ?entries, ?launch, ?dispatch, ?complete, ?digest, fun s k => poll_idle, ?poll⟩
  case claim =>
    intro s h p q t l d hp hq he hc hd hb hb' hr hl w
    have hcl := claim_leaves hp hq he hc hd hb hb' hr hl
    refine ⟨fun hne => ?_, fun heq hrun hok hev hg => ?_, fun heq hrun hk => ?_⟩
    · rw [if_neg hne] at hcl
      exact hcl
    · rw [if_pos heq, takeEntry_claims hrun hok hev hg] at hcl
      exact hcl
    · rw [if_pos heq, takeEntry_stopped hrun hk] at hcl
      exact hcl
  case entries =>
    intro s h p q e d hh
    refine ⟨wait_busy, fun he hb hm => wait_over hh he (fun _ => hb) (.inr hm), fun he hr hb hm => ⟨fun hv => ?_, fun v hv hn => ?_⟩,
      fun hr => ⟨fun he => wait_over hh he (fun h => by rw [hr] at h; cases h) (.inl hr), fun he => signal_stopped hh he hr,
        fun he => launch_stopped hh he hr⟩, fun he hr => signal_adds hh he hr, resumes hh⟩
    · have hw := wait_on hh he hr hb hm
      rw [eventLost_read hv] at hw
      exact hw
    · obtain ⟨a, ha⟩ := eventLost_lost hv hn
      have hw := wait_on hh he hr hb hm
      rw [ha] at hw
      exact ⟨a, hw⟩
  case launch =>
    intro s h p q e d g he hm hr hl
    refine ⟨launch_graphless he hm hr hl, fun hg x k hx hk hs => ?_⟩
    have hmake := launch_makes he hm hr hl hg
    rw [beginIter_begins (d := launchMade s.body.data h p q e s.alm.beat) (mget_mput_self _ _ _) hx hk] at hmake
    exact ⟨_, hmake hs, ⟨_, mget_mput_self .., rfl, rfl, rfl, rfl, rfl, rfl, rfl, rfl, rfl, rfl⟩, ⟨_, mget_mput_self .., rfl, rfl⟩,
      mget_mput_self .., rfl⟩
  case dispatch =>
    intro s id l g p i n d hl hg hp hn
    refine ⟨node_not_ready hl hg hp hn, fun ho ha hm h hlow hs => ?_⟩
    obtain ⟨x, hx⟩ := nodeReady_waiting h
    have hl' : mget (snapped s.body.data l g i).launches id = some l := by rw [snapped_launches]; exact hl
    refine ⟨fun hk hd hf => ?_, fun hk hf => ?_, fun hk he hf => ?_⟩
    · obtain ⟨y, hy, hyx⟩ := nodeSet_node hl' hx fun x => { x with st := .dispatched, grid := n.blocks, slip := BitVec.ofNat 64 (snapAddr g l.bank i) }
      exact ⟨_, node_dispatches hl hg hp hn ho ha hm h hlow hs (dispatch_kernel _ hk hd) hf, y, _, hy, hyx, rfl, rfl⟩
    · obtain ⟨y, hy, hyx, hrun⟩ := nodeEnds_done hl' hx
      exact ⟨_, node_dispatches hl hg hp hn ho ha hm h hlow hs (dispatch_barrier _ hk) hf, y, _, hy, hyx, rfl, hrun⟩
    · obtain ⟨y, hy, hyx⟩ := nodeSet_node hl' hx fun x => { x with st := .dispatched, slip := BitVec.ofNat 64 n.value.toNat }
      exact ⟨_, node_dispatches hl hg hp hn ho ha hm h hlow hs (dispatch_wait _ hk he) hf, y, _, hy, hyx, rfl, rfl⟩
  case complete =>
    intro s id l n i x d hl hn hx hs hh
    have hc := complete_leaves hl hn hx hs hh
    refine ⟨fun hk ha hp he => ?_, fun hk ha hne => ?_, fun hk he => ?_, fun c hk he => ?_⟩
    · rw [over_kernel hk ha, if_pos ⟨hp, he⟩] at hc
      exact hc
    · have hno : ¬(x.placed = x.grid ∧ (n.detached = true ∨ x.ended = x.grid)) := by
        rintro ⟨hp, he⟩
        rcases hne with hne | ⟨hd, hne⟩
        · exact hne hp
        · rcases he with he | he
          · rw [hd] at he
            cases he
          · exact hne he
      rw [over_kernel hk ha, if_neg hno] at hc
      exact hc
    · rw [over_engine hk he, if_pos rfl] at hc
      exact hc
    · rw [over_engine hk he, if_neg (Nat.succ_ne_zero c)] at hc
      have hk1 : n.kind ≠ 1 := by omega
      rw [he] at hc
      exact (if_neg hk1 ▸ hc :)
  case digest =>
    intro s id l j i w v hl hj hh hd hv hs
    exact ⟨_, digest_makes hl hj hh hd hv hs, rfl, _, digestTaken_launch _ _ hl, rfl⟩
  case poll =>
    intro s h p q e v a b d hp he hk hd hh hl hr hlone hv hplot hb ha hib
    have w : OneWaiter s.body.data h p q e v a b := ⟨hp, he, hl, hr, hlone, hv, hplot, hb, ha, hib⟩
    have hpoll := poll_leaves hk hd hh
    refine ⟨fun hvec hx => ?_, fun hvec hba hf hx hs => ⟨_, hpoll hs, ?_⟩⟩
    · rw [polled, w.held, w.unarmed hvec, w.met hx, pollNodes_none _ ((entryDone_launches ..).trans hl)] at hpoll
      exact hpoll
    · have hq : polled q.disp s.body.data = OneWaiter.sent s.body.data (field e.bytes 14 2) v b := by
        rw [polled, w.held, w.armed hvec hba hf, w.unmet hx]
        exact pollNodes_none (d := OneWaiter.sent s.body.data (field e.bytes 14 2) v b) _ hl
      rw [hq]
      exact ⟨rfl, rfl⟩

end Sys2Proof.Machine
end

section
/-! Weeding passes (03 R102-R105; 15 R408-R421): their deferral, start, phases, verdicts and what follows. -/

namespace Sys2Proof.Machine

/-! ### Passes and cores of the body -/

theorem passOf_setPass_self (b : Body) (u : PassUnit) (p : Pass) : (b.setPass u p).passOf u = some p := mget_mput_self ..

theorem passOf_setPass_ne (b : Body) {u v : PassUnit} (h : unitKey u ≠ unitKey v) (p : Pass) : (b.setPass u p).passOf v = b.passOf v :=
  mget_mput_ne _ _ _ _ h

theorem core_setCorePass_self (b : Body) (c : Nat) (x : CorePass) : (b.setCorePass c x).data.core c = { b.data.core c with pass := x } := by
  show mgetD (mput b.data.cores c _) c Core.empty = _
  rw [mgetD, mget_mput_self]
  rfl

theorem core_setCorePass_ne (b : Body) {c k : Nat} (h : k ≠ c) (x : CorePass) : (b.setCorePass c x).data.core k = b.data.core k := by
  show mgetD (mput b.data.cores c _) k Core.empty = mgetD b.data.cores k Core.empty
  rw [mgetD, mget_mput_ne _ _ _ _ h.symm, mgetD]

theorem unitKey_core_inj {c q : Nat} (hc : c < 672) (hq : q < 672) (h : unitKey (.core c) = unitKey (.core q)) : c = q := by
  simp only [unitKey, unitNo, unitKind, unitCode] at h
  have hm : ∀ n : Nat, n % 84 % 12 = n % 12 := fun n => Nat.mod_mod_of_dvd n (by decide)
  have hc1 := hm c
  have hq1 := hm q
  have hc2 := Nat.div_add_mod c 84
  have hq2 := Nat.div_add_mod q 84
  have hc3 := Nat.div_add_mod (c % 84) 12
  have hq3 := Nat.div_add_mod (q % 84) 12
  have hc4 : c % 84 < 84 := Nat.mod_lt _ (by decide)
  have hq4 : q % 84 < 84 := Nat.mod_lt _ (by decide)
  generalize c / 84 = c1 at *
  generalize q / 84 = q1 at *
  generalize c % 84 = c2 at *
  generalize q % 84 = q2 at *
  omega

/-! ### Deferral -/

theorem passKeys_other {b : Body} {u : PassUnit} (h : ∀ c, u ≠ .core c) : passKeys b u = [unitKey u] := by
  have hp : partnerOf b u = none := by
    unfold partnerOf
    split
    · rename_i c
      exact absurd rfl (h c)
    · rfl
  rw [passKeys, hp]
  rfl

theorem passKeys_pair {b : Body} {c q : Nat} (h : mget b.hl.pairs c = some (some q)) : passKeys b (.core c) = [unitKey (.core c), unitKey (.core q)] := by
  have hp : partnerOf b (.core c) = some q := by
    unfold partnerOf
    dsimp only
    rw [h]
    rfl
  rw [passKeys, hp]
  rfl

section
variable {s : State} {u : PassUnit}

/-- The deferral of a unit that is not a core begins. -/
theorem deferral_begins (hu : ∀ c, u ≠ .core c) (hd : passDue s u = true) (hw : passWaits s = false) :
    Leaves (.passDeferralBegin u) s (s.setBody (s.body.setPass u
      (Pass.begin s.body.hl s.alm.beat ((passKeys s.body u).any fun k => s.body.hl.urgent.contains k) none))) := by
  refine leaves_of_run (show _ = execPassDeferralBegin u s from rfl) ?_
  dsimp only
  rw [if_pos (by rw [hd, hw]; rfl)]
  split
  · rename_i c
    exact absurd rfl (hu c)
  · rfl

theorem deferral_not_due (h : passDue s u = false) : Leaves (.passDeferralBegin u) s s := by
  refine leaves_of_run (show _ = execPassDeferralBegin u s from rfl) ?_
  dsimp only
  rw [if_neg (by rw [h]; simp)]

/-- The body in which a pair's deferral has begun. -/
def pairDeferred (b : Body) (beat c q : Nat) (urgent : Bool) : Body :=
  (((b.setPass (.core c) (Pass.begin b.hl beat urgent (some q))).setPass (.core q)
    (Pass.begin (b.setPass (.core c) (Pass.begin b.hl beat urgent (some q))).hl beat urgent (some c))).setCorePass c (.deferral beat none)).setCorePass q
      (.deferral beat none)

theorem pair_deferral_begins {c q : Nat} (hp : mget s.body.hl.pairs c = some (some q)) (hd : passDue s (.core c) = true) (hw : passWaits s = false) :
    Leaves (.passDeferralBegin (.core c)) s (s.setBody (pairDeferred s.body s.alm.beat c q
      ((passKeys s.body (.core c)).any fun k => s.body.hl.urgent.contains k))) := by
  have hpar : partnerOf s.body (.core c) = some q := by
    unfold partnerOf
    dsimp only
    rw [hp]
    rfl
  refine leaves_of_run (show _ = execPassDeferralBegin (.core c) s from rfl) ?_
  dsimp only
  rw [if_pos (by rw [hd, hw]; rfl), hpar]
  rfl

end

/-! ### Yield windows and the maximum deferral -/

theorem mget_groups_unyield (b : Body) (c n : Nat) : mget ((unyield b c).data.core c).groups n =
    (mget (b.data.core c).groups n).map fun g => if g.st = .yieldPark then { g with st := .run } else g := by
  show mget (mgetD (mput b.data.cores c _) c Core.empty).groups n = _
  rw [mgetD, mget_mput_self]
  exact mget_mmap (b.data.core c).groups n fun _ g => if g.st = .yieldPark then { g with st := .run } else g

theorem core_unyield_ne (b : Body) {c k : Nat} (h : k ≠ c) : (unyield b c).data.core k = b.data.core k := by
  show mgetD (mput b.data.cores c _) k Core.empty = mgetD b.data.cores k Core.empty
  rw [mgetD, mget_mput_ne _ _ _ _ h.symm, mgetD]

theorem core_unyield_pass (b : Body) (c : Nat) : ((unyield b c).data.core c).pass = (b.data.core c).pass := by
  show (mgetD (mput b.data.cores c _) c Core.empty).pass = _
  rw [mgetD, mget_mput_self]
  rfl

theorem parkCore_kept (b : Body) (c : Nat) (on : Bool) : (parkCore b c on).hl = b.hl ∧ ((parkCore b c on).data.core c).pass = (b.data.core c).pass ∧
    ∀ k, k ≠ c → (parkCore b c on).data.core k = b.data.core k := by
  unfold parkCore
  dsimp only
  split
  · exact ⟨rfl, rfl, fun _ _ => rfl⟩
  · refine ⟨rfl, ?_, fun k h => ?_⟩
    · show (mgetD (mput b.data.cores c _) c Core.empty).pass = _
      rw [mgetD, mget_mput_self]
      rfl
    · show mgetD (mput b.data.cores c _) k Core.empty = mgetD b.data.cores k Core.empty
      rw [mgetD, mget_mput_ne _ _ _ _ h.symm, mgetD]

theorem freeCore_kept (b : Body) (c : Nat) : (freeCore b c).hl = b.hl ∧ ((freeCore b c).data.core c).pass = .none := by
  obtain ⟨h1, h2, -⟩ := parkCore_kept (unyield (b.setCorePass c .none) c) c false
  refine ⟨h1, h2.trans ((core_unyield_pass ..).trans ?_)⟩
  rw [core_setCorePass_self]

theorem passCores_alone {b : Body} {c : Nat} {p : Pass} (hp : b.passOf (.core c) = some p) (h : p.partner = none) : passCores b c = [c] := by
  unfold passCores
  rw [show mget b.hl.passes (unitKey (.core c)) = some p from hp]
  dsimp only
  rw [h]
  rfl

/-! ### The end of a pass -/

/-- The beat at which a unit is due after a pass. -/
def dueNext (b : Body) (beat : Nat) (u : PassUnit) (p : Pass) (verdict : Nat) : Nat :=
  match sweepOwed b.hl (unitKey u) p with
  | some t => min t (dueAfter (mgetD b.hl.cals (unitKind u) (Calendar.default (unitKind u))) verdict beat)
  | none => dueAfter (mgetD b.hl.cals (unitKind u) (Calendar.default (unitKind u))) verdict beat

/-- What the end of a pass leaves. -/
structure PassClosed (b b' : Body) (beat : Nat) (u : PassUnit) (p : Pass) (verdict : Nat) : Prop where
  gone : b'.passOf u = none
  cal : mget b'.hl.cals (unitKind u) = some ((mgetD b.hl.cals (unitKind u) (Calendar.default (unitKind u))).count verdict)
  due : mget b'.hl.dues (unitKey u) = some (dueNext b beat u p verdict)
  suspects : b'.hl.suspects = b.hl.suspects
  lastPass : b'.hl.lastPass = b.hl.lastPass
  rest : ∃ ps, b' = { b with hl := b'.hl, data := { b.data with posts := ps } }

theorem closePass_closed (b : Body) (beat : Nat) (u : PassUnit) (p : Pass) (verdict tags : Nat) :
    PassClosed b (closePass b beat u p verdict tags) beat u p verdict :=
  ⟨mget_mdel_self .., mget_mput_self .., mget_mput_self .., rfl, rfl, _, rfl⟩

/-! ### Passes begin -/

theorem coldStopped_running {p : Power} (h : p.cold = .running) : coldStopped p = false := by
  unfold coldStopped
  rw [h]

section
variable {s : State} {u : PassUnit}

/-- A unit alone, in service and due, may begin its deferral. -/
theorem passDue_other (hu : ∀ c, u ≠ .core c) (hact : s.acting = true) (hst : s.body.md.state = 2) (hcold : s.body.pw.cold = .running)
    (hex : unitExists s.body (unitKind u) (unitCode u) = true) (hen : (mgetD s.body.hl.cals (unitKind u) (Calendar.default 1)).enable = true)
    (hd : dueNow s.body s.alm.beat (unitKey u) = true) (hp : mget s.body.hl.passes (unitKey u) = none) : passDue s u = true := by
  unfold passDue
  dsimp only
  rw [passKeys_other hu, hact, hst, coldStopped_running hcold, hex, hen]
  split
  · rename_i c
    exact absurd rfl (hu c)
  · simp [hd, hp]

/-- A core of a pair, due, may begin its deferral when neither is under a pass. -/
theorem passDue_pair {c q : Nat} (hpair : mget s.body.hl.pairs c = some (some q)) (hact : s.acting = true) (hst : s.body.md.state = 2)
    (hcold : s.body.pw.cold = .running) (hex : unitExists s.body 1 (unitCode (.core c)) = true)
    (hen : (mgetD s.body.hl.cals 1 (Calendar.default 1)).enable = true) (hd : dueNow s.body s.alm.beat (unitKey (.core c)) = true)
    (hp : mget s.body.hl.passes (unitKey (.core c)) = none) (hq : mget s.body.hl.passes (unitKey (.core q)) = none) :
    passDue s (.core c) = true := by
  unfold passDue
  dsimp only
  rw [passKeys_pair hpair, hact, hst, coldStopped_running hcold, hpair, show unitKind (.core c) = 1 from rfl, hex, hen]
  simp [hd, hp, hq]

theorem passDue_not (hu : ∀ c, u ≠ .core c) (hd : dueNow s.body s.alm.beat (unitKey u) = false) : passDue s u = false := by
  unfold passDue
  dsimp only
  rw [passKeys_other hu]
  simp [hd]

/-- What the pair's deferral leaves. -/
theorem pairDeferred_left (b : Body) (beat : Nat) {c q : Nat} (urgent : Bool) (hne : c ≠ q) (hc : c < 672) (hq : q < 672) :
    ((pairDeferred b beat c q urgent).data.core c).pass = .deferral beat none ∧
    ((pairDeferred b beat c q urgent).data.core q).pass = .deferral beat none ∧
    (∃ p, (pairDeferred b beat c q urgent).passOf (.core c) = some p ∧ p.partner = some q ∧ p.due = beat) ∧
    (∃ p, (pairDeferred b beat c q urgent).passOf (.core q) = some p ∧ p.partner = some c) ∧
    ∀ k, k ≠ c → k ≠ q → (pairDeferred b beat c q urgent).data.core k = b.data.core k := by
  unfold pairDeferred
  refine ⟨?_, ?_, ⟨_, (passOf_setPass_ne _ (fun h => hne (unitKey_core_inj hc hq h.symm)) _).trans (passOf_setPass_self b (.core c) _), rfl, rfl⟩,
    ⟨_, passOf_setPass_self _ (.core q) _, rfl⟩, fun k hkc hkq => ?_⟩
  · rw [core_setCorePass_ne _ hne, core_setCorePass_self]
  · rw [core_setCorePass_self]
  · rw [core_setCorePass_ne _ hkq, core_setCorePass_ne _ hkc]
    rfl

end

/-! ### Windows, the maximum deferral, and the start of a core's pass -/

section
variable {s : State} {c : Nat} {p : Pass}

theorem yieldWindow_expires {t w : Nat} (hp : (s.body.data.core c).pass = .deferral t (some w)) (hw : w + 100 ≤ s.alm.beat)
    (hr : corePassReady s.body c = false) : Makes (.yieldWindowExpiry c) s fun u => u.body = (unyield s.body c).setCorePass c (.deferral t none) := by
  refine makes_of_runB (show _ = execYieldWindowExpiry c s from rfl) ?_
  dsimp only
  rw [hp]
  exact if_pos ⟨hw, by rw [hr]; rfl⟩

theorem engine_forced {e : EngineId} (hp : s.body.passOf (.engine e) = some p) (hst : p.start = none)
    (hd : p.due + deferFor s.body (.engine e) p ≤ s.alm.beat) (hf : p.forced = none) :
    Leaves (.maxDeferralExpiry (.engine e)) s (s.setBody (s.body.setPass (.engine e) { p with forced := some s.alm.beat })) := by
  refine leaves_setBody (show _ = execMaxDeferralExpiry (.engine e) s from rfl) ?_
  dsimp only
  rw [hp]
  dsimp only
  rw [hst, hf, decide_eq_false (Nat.not_lt.2 hd)]
  rfl

/-- A core alone whose maximum deferral has ended is force-parked. -/
theorem core_forced (hp : s.body.passOf (.core c) = some p) (hst : p.start = none) (hal : p.partner = none)
    (hd : p.due + deferFor s.body (.core c) p ≤ s.alm.beat) (hb : dieBarred s.body.pw (c / 84) = false) (hf : p.forced = none) :
    Makes (.maxDeferralExpiry (.core c)) s fun u => u.body =
      parkCore ((s.body.setPass (.core c) { p with forced := some s.alm.beat }).setCorePass c (.forced s.alm.beat)) c true := by
  refine makes_of_runB (show _ = execMaxDeferralExpiry (.core c) s from rfl) ?_
  dsimp only
  rw [hp]
  dsimp only
  rw [hst, hf, decide_eq_false (Nat.not_lt.2 hd), passCores_alone hp hal]
  simp [hb, hp, hst]

/-- On a die with an open interval it is skipped. -/
theorem core_skipped (hp : s.body.passOf (.core c) = some p) (hst : p.start = none) (hal : p.partner = none)
    (hd : p.due + deferFor s.body (.core c) p ≤ s.alm.beat) (hb : dieBarred s.body.pw (c / 84) = true) :
    Makes (.maxDeferralExpiry (.core c)) s fun u => u.body = closePass (freeCore s.body c) s.alm.beat (.core c) p 5 0 := by
  refine makes_of_runB (show _ = execMaxDeferralExpiry (.core c) s from rfl) ?_
  dsimp only
  rw [hp]
  dsimp only
  rw [hst, decide_eq_false (Nat.not_lt.2 hd), passCores_alone hp hal]
  simp [hb, hp]

theorem spillSets_none {b : Body} (h : (b.data.core c).acc = []) (beat : Nat) : spillSets b beat c = b := by
  unfold spillSets
  dsimp only
  rw [h]
  exact ite_self b

/-- What a core that is taken under test leaves. -/
theorem takeCore_left {b : Body} (hp : b.passOf (.core c) = some p) (h : (b.data.core c).acc = []) (beat temp : Nat) :
    ((takeCore b beat c temp).data.core c).pass = .running beat 0 [] ∧ ((takeCore b beat c temp).data.core c).near = [] ∧
    ((takeCore b beat c temp).data.core c).icache = [] ∧
    (∃ q, (takeCore b beat c temp).passOf (.core c) = some q ∧ q.start = some beat ∧ q.temp = temp ∧ q.phase = p.phase ∧ q.due = p.due) ∧
    (takeCore b beat c temp).data.bench = b.data.bench ∧ (takeCore b beat c temp).data.mem = b.data.mem := by
  unfold takeCore
  dsimp only
  rw [spillSets_none h, hp]
  dsimp only
  refine ⟨?_, ?_, ?_, ⟨_, passOf_setPass_self _ (.core c) _, rfl, rfl, rfl, rfl⟩, rfl, rfl⟩
  · show (mgetD (mput b.data.cores c _) c Core.empty).pass = _
    rw [mgetD, mget_mput_self, Option.getD_some]
  · show (mgetD (mput b.data.cores c _) c Core.empty).near = _
    rw [mgetD, mget_mput_self, Option.getD_some]
  · show (mgetD (mput b.data.cores c _) c Core.empty).icache = _
    rw [mgetD, mget_mput_self, Option.getD_some]

theorem corePass_starts (hp : s.body.passOf (.core c) = some p) (hst : p.start = none) (hal : p.partner = none)
    (hr : corePassReady s.body c = true) (temp : Nat) :
    Makes (.corePassStart c temp) s fun u => u.body = takeCore s.body s.alm.beat c temp := by
  refine makes_of_runB (show _ = execCorePassStart c temp s from rfl) ?_
  dsimp only
  rw [hp]
  dsimp only
  rw [if_pos ⟨by rw [hst]; rfl, hr⟩, passCores_alone hp hal]
  rfl

end


/-! ### Phases -/

/-- The record of a pack program's mismatch. -/
def packPost (c : Nat) (t : PackTally) : Post :=
  ⟨0x0701, 1 + 256 * coreUnit c, [(c / 84, 1), (c % 84 / 12, 1), (c % 12, 1), (t.set, 1), (t.check, 1), (t.pair, 1),
    (0xFFFF, 2), (t.pc, 8), (t.rows, 8), (t.cols, 8), (t.skipped, 2), (0, 2), (t.worst, 4), (t.nRound, 4), (t.out, 4)], none⟩

theorem postPack_foldl (c : Nat) (l : List PackTally) (d : Data) :
    l.foldl (fun (d : Data) t => postPack d c t) d = { d with posts := d.posts ++ l.map (packPost c) } := by
  induction l generalizing d with
  | nil => simp
  | cons t l ih =>
    rw [List.foldl_cons, ih]
    simp [postPack, Data.post, packPost]

/-- What the end of a phase makes of the pass of a core that is tested alone. -/
def Pass.phased (p : Pass) (res : PhaseResult) : Pass :=
  { p with phase := p.phase + 1, tags := p.tags ||| res.fixedTags ||| packTags res, stretch := max p.stretch res.stretch }

theorem corePhase_ends {s : State} {c t n : Nat} {p : Pass} {fs : List Nat} (hp : s.body.passOf (.core c) = some p)
    (hrun : (s.body.data.core c).pass = .running t n fs) (hst : p.start.isSome = true) (hph : p.phase < 2) (hal : p.partner = none)
    (res : PhaseResult) : Makes (.corePassPhaseEnd c res) s fun u => u.body = ({ s.body.setPass (.core c) (p.phased res) with
      data := { s.body.data with posts := s.body.data.posts ++ res.tally.map (packPost c) } } : Body).setCorePass c (.running t (n + 1) fs) := by
  refine makes_of_runB (show _ = execCorePassPhaseEnd c res s from rfl) ?_
  dsimp only
  rw [hp, hrun]
  dsimp only
  have h0 (x : BitVec 8) : x ||| 0 = x := BitVec.or_zero
  unfold Pass.phased
  rw [if_pos ⟨hst, hph⟩, hal, postPack_foldl]
  simp only [Option.isSome_none, Option.bind_none, Bool.and_false, Bool.or_false, Bool.false_eq_true, if_false, h0]
  rfl

/-! ### The end of a core's pass -/

theorem closeMark_hl (b : Body) (c start : Nat) : { (closeMark b c start).hl with suspects := b.hl.suspects } = b.hl := by
  unfold closeMark
  split
  · split <;> rfl
  · rfl

theorem seen_step (x : Suspect) (b : Body) (c : Nat) : (x.seen b c).step = x.step ∧ (x.seen b c).units = x.units := by
  unfold Suspect.seen
  split <;> exact ⟨rfl, rfl⟩

/-- The end of a mark's interval keeps the step and the units of the suspect. -/
theorem closeMark_suspect (b : Body) (c start : Nat) :
    (mgetD (closeMark b c start).hl.suspects c Suspect.fresh).step = (mgetD b.hl.suspects c Suspect.fresh).step ∧
    (mgetD (closeMark b c start).hl.suspects c Suspect.fresh).units = (mgetD b.hl.suspects c Suspect.fresh).units := by
  unfold closeMark
  split
  · next x hx =>
    split
    · show (mgetD (mput b.hl.suspects c _) c Suspect.fresh).step = _ ∧ (mgetD (mput b.hl.suspects c _) c Suspect.fresh).units = _
      rw [mgetD, mget_mput_self, mgetD, hx]
      exact seen_step x b c
    · exact ⟨rfl, rfl⟩
  · exact ⟨rfl, rfl⟩

theorem passCore_hl (b : Body) (beat c : Nat) :
    { (passCore b beat c).hl with suspects := b.hl.suspects } = { b.hl with lastPass := mput b.hl.lastPass c beat } := by
  unfold passCore
  dsimp only
  split
  · rfl
  · split <;> rfl

/-- What a failure below the last step of the ladder leaves. -/
theorem failCore_left {b : Body} {c : Nat} (h : (mgetD b.hl.suspects c Suspect.fresh).step < 6) (beat : Nat) (tags : BitVec 8) :
    { (failCore b beat c tags).hl with suspects := b.hl.suspects, dues := b.hl.dues, urgent := b.hl.urgent } = b.hl ∧
    mget (failCore b beat c tags).hl.dues (unitKey (.core c)) = some beat ∧
    ∃ x, mget (failCore b beat c tags).hl.suspects c = some x ∧ x.step = (mgetD b.hl.suspects c Suspect.fresh).step + 1 ∧ x.state = 1 ∧
      x.units = (mgetD b.hl.suspects c Suspect.fresh).units ||| tags := by
  unfold failCore
  dsimp only
  simp only [if_neg (Nat.ne_of_lt h)]
  exact ⟨rfl, mget_mput_self _ (unitKey (.core c)) beat, _, mget_mput_self _ c _, rfl, rfl, rfl⟩

/-- What a core's verdict makes of the body. -/
def endVerdict (b : Body) (beat c : Nat) (p : Pass) : Body :=
  let b := closeMark (closePass b beat (.core c) p (coreVerdict p) p.tags.toNat) c (p.start.getD beat)
  if coreVerdict p = 0 then passCore b beat c else if coreVerdict p < 3 then failCore b beat c p.tags else b

section
variable {s : State} {c : Nat} {p : Pass}

theorem corePass_ends (hp : s.body.passOf (.core c) = some p) (hst : p.start.isSome = true) (hph : p.phase = 2) (hal : p.partner = none) :
    Makes (.corePassEnd c) s fun u => u.body = freeCore (endVerdict s.body s.alm.beat c p) c := by
  refine makes_of_runB (show _ = execCorePassEnd c s from rfl) ?_
  have hend : endCore s.body s.alm.beat c = freeCore (endVerdict s.body s.alm.beat c p) c := by
    unfold endCore
    rw [hp]
    rfl
  dsimp only
  rw [passCores_alone hp hal]
  simp [hp, hst, hph, hend]

/-- What stays of a pass that has closed, the suspects being open. -/
theorem endVerdict_none {b : Body} (beat : Nat) (h : 3 ≤ coreVerdict p) :
    { (endVerdict b beat c p).hl with suspects := b.hl.suspects } = (closePass b beat (.core c) p (coreVerdict p) p.tags.toNat).hl := by
  unfold endVerdict
  dsimp only
  rw [if_neg (by omega), if_neg (by omega)]
  exact closeMark_hl ..

theorem endVerdict_pass {b : Body} (beat : Nat) (h : coreVerdict p = 0) : { (endVerdict b beat c p).hl with suspects := b.hl.suspects } =
    { (closePass b beat (.core c) p 0 p.tags.toNat).hl with lastPass := mput b.hl.lastPass c beat } := by
  unfold endVerdict
  dsimp only
  rw [h, if_pos rfl]
  have hm := closeMark_hl (closePass b beat (.core c) p 0 p.tags.toNat) c (p.start.getD beat)
  generalize closeMark (closePass b beat (.core c) p 0 p.tags.toNat) c (p.start.getD beat) = b1 at hm ⊢
  have hl : b1.hl.lastPass = b.hl.lastPass := by
    have h := congrArg Health.lastPass hm
    exact h
  have hc := congrArg (fun h : Health => { h with suspects := b.hl.suspects }) (passCore_hl b1 beat c)
  have hk := congrArg (fun h : Health => { h with lastPass := mput b.hl.lastPass c beat }) hm
  rw [hl] at hc
  exact hc.trans hk

theorem endVerdict_fail {b : Body} (beat : Nat) (h : coreVerdict p = 1) (hs : (mgetD b.hl.suspects c Suspect.fresh).step < 6) :
    { (endVerdict b beat c p).hl with suspects := b.hl.suspects, dues := b.hl.dues, urgent := b.hl.urgent } =
      { (closePass b beat (.core c) p 1 p.tags.toNat).hl with dues := b.hl.dues, urgent := b.hl.urgent } ∧
    mget (endVerdict b beat c p).hl.dues (unitKey (.core c)) = some beat ∧
    ∃ x, mget (endVerdict b beat c p).hl.suspects c = some x ∧ x.step = (mgetD b.hl.suspects c Suspect.fresh).step + 1 ∧ x.state = 1 ∧
      x.units = (mgetD b.hl.suspects c Suspect.fresh).units ||| p.tags := by
  unfold endVerdict
  dsimp only
  rw [h, if_neg (by decide), if_pos (by decide)]
  have hm := closeMark_hl (closePass b beat (.core c) p 1 p.tags.toNat) c (p.start.getD beat)
  obtain ⟨hstep, hunits⟩ := closeMark_suspect (closePass b beat (.core c) p 1 p.tags.toNat) c (p.start.getD beat)
  generalize closeMark (closePass b beat (.core c) p 1 p.tags.toNat) c (p.start.getD beat) = b1 at hm hstep hunits ⊢
  obtain ⟨hf, hdue, x, hx, hxs, hxt, hxu⟩ := failCore_left (hstep.trans_lt hs) beat p.tags
  have hc := congrArg (fun h : Health => { h with suspects := b.hl.suspects, dues := b.hl.dues, urgent := b.hl.urgent }) hf
  have hk := congrArg (fun h : Health => { h with dues := b.hl.dues, urgent := b.hl.urgent }) hm
  exact ⟨hc.trans hk, hdue, x, hx, hxs.trans (congrArg (· + 1) hstep), hxt, hxu.trans (congrArg (· ||| p.tags) hunits)⟩

end

/-! ### Slices -/

/-- Of a die with more than eight slices in service, eight are left when one has gone. -/
theorem sliceGone_left {s : State} {die n : Nat}
    (h : 8 < ((List.range 56).filter fun j => sliceUp s.body.data (56 * die + j)).length) :
    ¬ ((List.range 56).filter fun j => sliceUp (sliceGone s (56 * die + n)).body.data (56 * die + j)).length < 8 := by
  have hup (j : Nat) : ¬ j = n → sliceUp (sliceGone s (56 * die + n)).body.data (56 * die + j) = sliceUp s.body.data (56 * die + j) := by
    intro hj
    show (_ && mgetD (mput s.body.data.slices (56 * die + n) SliceState.out) (56 * die + j) .inService != .out) = _
    rw [mgetD, mget_mput_ne _ _ _ _ (by omega : 56 * die + n ≠ 56 * die + j)]
    rfl
  have hnd : ((List.range 56).filter fun j => sliceUp s.body.data (56 * die + j)).Nodup := List.nodup_range.filter _
  have hsub : ((List.range 56).filter fun j => sliceUp s.body.data (56 * die + j)).erase n ⊆
      (List.range 56).filter fun j => sliceUp (sliceGone s (56 * die + n)).body.data (56 * die + j) := by
    intro j hj
    obtain ⟨hjn, hj⟩ := (List.Nodup.mem_erase_iff hnd).1 hj
    obtain ⟨hr, hu⟩ := List.mem_filter.1 hj
    exact List.mem_filter.2 ⟨hr, (hup j hjn).trans hu⟩
  have hle := ((hnd.erase n).subperm hsub).length_le
  have her : ((List.range 56).filter fun j => sliceUp s.body.data (56 * die + j)).length - 1 ≤
      (((List.range 56).filter fun j => sliceUp s.body.data (56 * die + j)).erase n).length := List.le_length_erase
  omega

theorem sliceRetire_alone {s : State} {die n : Nat} (hn : n < 56)
    (h : 8 < ((List.range 56).filter fun j => sliceUp s.body.data (56 * die + j)).length) :
    sliceRetire s (56 * die + n) = sliceGone s (56 * die + n) := by
  rw [sliceRetire_eq, show (56 * die + n) / 56 = die by omega]
  exact if_neg (sliceGone_left h)

section
variable {s : State} {die n : Nat} {p : Pass}

theorem slicePass_starts (hp : s.body.passOf (.slice die n) = some p) (hst : p.start = none) (hh : s.body.data.halted = false)
    (hk : mget s.body.data.slices (56 * die + n) = none) (hsp : holdsSpill s.body.data die n = false)
    (hsc : isScratch s.body.data (56 * die + n) = false) : Leaves (.slicePassStart die n) s (s.setBody ((({ s.body with
      data := { s.body.data with
        slices := mput s.body.data.slices (56 * die + n) (if isGranted s.body.data (56 * die + n) then .flushing s.alm.beat else .bypassed s.alm.beat) } } :
      Body)).setPass (.slice die n) { p with start := some s.alm.beat, temp := s.body.pw.temps.getD die 0 })) := by
  refine leaves_setBody (show _ = execSlicePassStart die n s from rfl) ?_
  dsimp only
  rw [hp]
  dsimp only
  rw [if_neg (by simp [hst, hh, hsp, hsc, mgetD, hk]), hsc]
  rfl

/-- What the end of a bypassed slice's pass makes of the state. -/
def sliceEnded (s : State) (die n : Nat) (p : Pass) (passed : Bool) : State :=
  let k := 56 * die + n
  let b := closePass s.body s.alm.beat (.slice die n) p (if passed then 0 else 1) (if passed then 0 else 32)
  if passed then
    s.setBody { b with data := { b.data with slices := if isGranted b.data k then mput b.data.slices k (.returning s.alm.beat) else mdel b.data.slices k } }
  else sliceRetire (s.setBody b) k

theorem slicePass_ends {t : Nat} (hp : s.body.passOf (.slice die n) = some p) (hst : p.start.isSome = true)
    (hk : mget s.body.data.slices (56 * die + n) = some (.bypassed t)) (passed : Bool) :
    Makes (.slicePassEnd die n passed) s fun u => u = sliceEnded s die n p passed := by
  refine makes_of_run (show _ = execSlicePassEnd die n passed s from rfl) ?_
  dsimp only
  rw [hp, mgetD, hk]
  dsimp only [Option.getD_some]
  rw [if_neg (by cases h : p.start <;> simp_all)]
  rfl

end

/-! ### Runners -/

theorem foldl_kept {α β γ : Type} (g : α → γ) {f : α → β → α} (h : ∀ x y, g (f x y) = g x) (l : List β) (x : α) : g (l.foldl f x) = g x := by
  induction l generalizing x with
  | nil => rfl
  | cons y l ih => exact (ih _).trans (h x y)

theorem emitOn_hl (b : Body) (q : Option Nat) (p : Packet) : (b.emitOn q p).hl = b.hl := by
  unfold Body.emitOn
  split
  · split
    · unfold Body.linkPacket
      dsimp only
      split <;> rfl
    · rfl
  · rfl

theorem failover_hl (b : Body) (beat port : Nat) : (b.failover beat port).hl = b.hl := by
  have hleave (b : Body) (k : Nat) : (b.leavePort beat port k).hl = b.hl := by
    unfold Body.leavePort
    dsimp only
    exact foldl_kept (fun b : Body => b.hl) (fun b (s : SentPkt) => emitOn_hl b _ s.pkt) _ _
  unfold Body.failover
  dsimp only
  split
  · exact foldl_kept (fun b : Body => b.hl) hleave _ _
  · exact foldl_kept (fun b : Body => b.hl) hleave _ _

section
variable {s : State} {k : Nat} {p : Pass}

/-- The body in which the pass of a runner has started, its connections not moved yet. -/
def runnerTested (b : Body) (beat k : Nat) (p : Pass) : Body :=
  (b.setPass (.runner k) { p with start := some beat, temp := b.pw.temps.getD (unitDie (.runner k)) 0 }).setLink k
    { b.fab.link k with passSince := some beat }

theorem runnerPass_starts (hk : k < 16) (hp : s.body.passOf (.runner k) = some p) (hst : p.start = none) (hh : s.body.data.halted = false)
    (hup : s.body.fab.portUp k = true) (ho : otherRunnerAway s.body.fab k = false) :
    Makes (.runnerPassStart k) s fun u => u.body = (runnerTested s.body s.alm.beat k p).failover s.alm.beat k := by
  refine makes_of_run (show _ = execRunnerPassStart k s from rfl) ?_
  dsimp only
  rw [hp]
  dsimp only
  rw [if_neg (by simp [hst, hh, hup, ho, hk])]
  rfl

theorem runnerTested_moved (b : Body) (beat k : Nat) (p : Pass) :
    (((runnerTested b beat k p).failover beat k).fab.link k).passSince = some beat ∧
    ((runnerTested b beat k p).failover beat k).passOf (.runner k) = some { p with
      start := some beat, temp := b.pw.temps.getD (if k < 8 then 8 else 9) 0 } := by
  constructor
  · have h := congrArg LinkSt.passSince ((Body.Driven.failover (runnerTested b beat k p) beat k).links k)
    refine Eq.trans h ?_
    unfold runnerTested
    rw [link_setLink_self]
  · unfold Body.passOf
    rw [failover_hl]
    exact passOf_setPass_self b (.runner k) _

/-- Lanes that were lost before add nothing to those that are lost. -/
theorem lost_or_bad (l bad : BitVec 8) : l ||| (bad &&& ~~~l) = l ||| bad := by
  ext i hi
  simp
  cases l[i] <;> simp

theorem runnerPass_ends (hp : s.body.passOf (.runner k) = some p) (hst : p.start.isSome = true) (bad : BitVec 8) :
    Makes (.runnerPassEnd k bad) s fun u => u.body.passOf (.runner k) = none ∧ u.body.fab.link k =
      { s.body.fab.link k with passSince := none, lost := (s.body.fab.link k).lost ||| bad, training := some s.alm.beat } := by
  refine makes_of_run (show _ = execRunnerPassEnd k bad s from rfl) ?_
  dsimp only
  rw [hp]
  dsimp only
  rw [if_neg (by cases h : p.start <;> simp_all), lost_or_bad]
  split
  · exact ⟨mget_mdel_self .., link_setLink_self ..⟩
  · exact ⟨mget_mdel_self .., link_setLink_self ..⟩

end

/-! ### Engines -/

theorem enqueue_engOut (d : Data) (n : Nat) (e : EngDesc) : (d.enqueue n e).engOut = d.engOut := rfl

theorem rehome_engOut (d : Data) (n : Nat) : (rehome d n).engOut = d.engOut := by
  unfold rehome
  dsimp only
  split
  · rfl
  · exact foldl_kept (fun d : Data => d.engOut) (fun d q => enqueue_engOut d _ q) _ _

section
variable {s : State} {e : EngineId} {p : Pass}

theorem enginePass_starts (hp : s.body.passOf (.engine e) = some p) (hst : p.start = none) (hh : s.body.data.halted = false)
    (hr : (s.body.data.engine (engNo e)).running = []) (hq : (s.body.data.engine (engNo e)).queue = []) :
    Makes (.enginePassStart e) s fun u => u.body.data = s.body.data ∧ ∃ q, u.body.passOf (.engine e) = some q ∧ q.start = some s.alm.beat := by
  refine makes_of_runB (show _ = execEnginePassStart e s from rfl) ?_
  dsimp only
  rw [hp]
  dsimp only
  rw [if_neg (by simp [hst, hh, hr, hq])]
  exact ⟨rfl, _, passOf_setPass_self _ (.engine e) _, rfl⟩

theorem enginePass_ends (hp : s.body.passOf (.engine e) = some p) (hst : p.start.isSome = true) (passed : Bool) :
    Makes (.enginePassEnd e passed) s fun u => u.body.passOf (.engine e) = none ∧
      u.body.data.engOut = if passed then s.body.data.engOut else sadd s.body.data.engOut (engNo e) := by
  refine makes_of_runB (show _ = execEnginePassEnd e passed s from rfl) ?_
  dsimp only
  rw [hp]
  dsimp only
  rw [if_neg (by cases h : p.start <;> simp_all)]
  cases passed with
  | true => exact ⟨mget_mdel_self .., rfl⟩
  | false => exact ⟨mget_mdel_self .., rehome_engOut ..⟩

end

/-! ### A core's verdicts -/

section
variable {s : State} {c : Nat} {p : Pass}

/-- What the verdict leaves of health is what is left when the core is free again. -/
theorem freed_hl (b : Body) (c : Nat) : (freeCore b c).hl = b.hl := (freeCore_kept b c).1

/-- The pass of a core that passed. -/
theorem endVerdict_passed (b : Body) (beat : Nat) (h : coreVerdict p = 0) :
    (freeCore (endVerdict b beat c p) c).passOf (.core c) = none ∧
    mget (freeCore (endVerdict b beat c p) c).hl.cals 1 =
      some { mgetD b.hl.cals 1 (Calendar.default 1) with passes := (mgetD b.hl.cals 1 (Calendar.default 1)).passes + 1 } ∧
    mget (freeCore (endVerdict b beat c p) c).hl.dues (unitKey (.core c)) = some (dueNext b beat (.core c) p 0) ∧
    mget (freeCore (endVerdict b beat c p) c).hl.lastPass c = some beat := by
  have hc := closePass_closed b beat (.core c) p 0 p.tags.toNat
  have hv := endVerdict_pass (c := c) (b := b) beat h
  unfold Body.passOf
  rw [freed_hl]
  refine ⟨?_, ?_, ?_, ?_⟩
  · have h := congrArg (fun h : Health => mget h.passes (unitKey (.core c))) hv
    exact h.trans hc.gone
  · have h := congrArg (fun h : Health => mget h.cals 1) hv
    exact h.trans hc.cal
  · have h := congrArg (fun h : Health => mget h.dues (unitKey (.core c))) hv
    exact h.trans hc.due
  · have h := congrArg (fun h : Health => mget h.lastPass c) hv
    exact h.trans (mget_mput_self ..)

/-- The pass of a core that failed, its suspect's step being below the last. -/
theorem endVerdict_failed (b : Body) (beat : Nat) (h : coreVerdict p = 1) (hs : (mgetD b.hl.suspects c Suspect.fresh).step < 6) :
    (freeCore (endVerdict b beat c p) c).passOf (.core c) = none ∧
    mget (freeCore (endVerdict b beat c p) c).hl.cals 1 =
      some { mgetD b.hl.cals 1 (Calendar.default 1) with fails := (mgetD b.hl.cals 1 (Calendar.default 1)).fails + 1 } ∧
    (∃ x, mget (freeCore (endVerdict b beat c p) c).hl.suspects c = some x ∧ x.step = (mgetD b.hl.suspects c Suspect.fresh).step + 1 ∧ x.state = 1 ∧
      x.units = (mgetD b.hl.suspects c Suspect.fresh).units ||| p.tags) ∧
    mget (freeCore (endVerdict b beat c p) c).hl.dues (unitKey (.core c)) = some beat := by
  have hc := closePass_closed b beat (.core c) p 1 p.tags.toNat
  obtain ⟨hv, hdue, hx⟩ := endVerdict_fail (c := c) (b := b) beat h hs
  unfold Body.passOf
  rw [freed_hl]
  refine ⟨?_, ?_, hx, hdue⟩
  · have h := congrArg (fun h : Health => mget h.passes (unitKey (.core c))) hv
    exact h.trans hc.gone
  · have h := congrArg (fun h : Health => mget h.cals 1) hv
    exact h.trans hc.cal

/-- The pass of a core that is inconclusive. -/
theorem endVerdict_open (b : Body) (beat : Nat) (h : coreVerdict p = 3) :
    (freeCore (endVerdict b beat c p) c).passOf (.core c) = none ∧
    mget (freeCore (endVerdict b beat c p) c).hl.dues (unitKey (.core c)) = some (dueNext b beat (.core c) p 3) := by
  have hc := closePass_closed b beat (.core c) p 3 p.tags.toNat
  have hv := endVerdict_none (c := c) (b := b) beat h.ge
  rw [h] at hv
  unfold Body.passOf
  rw [freed_hl]
  constructor
  · have h := congrArg (fun h : Health => mget h.passes (unitKey (.core c))) hv
    exact h.trans hc.gone
  · have h := congrArg (fun h : Health => mget h.dues (unitKey (.core c))) hv
    exact h.trans hc.due

theorem dueNext_of_none {b : Body} {u : PassUnit} (h : sweepOwed b.hl (unitKey u) p = none) (beat v : Nat) : dueNext b beat u p v =
    dueAfter (mgetD b.hl.cals (unitKind u) (Calendar.default (unitKind u))) v beat := by
  unfold dueNext
  rw [h]

theorem dueNext_of_some {b : Body} {u : PassUnit} {t : Nat} (h : sweepOwed b.hl (unitKey u) p = some t) (beat v : Nat) : dueNext b beat u p v =
    min t (dueAfter (mgetD b.hl.cals (unitKind u) (Calendar.default (unitKind u))) v beat) := by
  unfold dueNext
  rw [h]

end

theorem coreVerdict_cases (p : Pass) : (p.tags ≠ 0 → coreVerdict p = 1) ∧ (p.tags = 0 → p.unresolved = true → coreVerdict p = 2) ∧
    (p.tags = 0 → p.unresolved = false → coreVerdict p = if 1 < p.stretch then 3 else 0) := by
  unfold coreVerdict
  refine ⟨fun h => if_pos h, fun h hu => ?_, fun h hu => ?_⟩
  · rw [if_neg (not_not.2 h), if_pos hu]
  · rw [if_neg (not_not.2 h), hu, if_neg (by decide)]

/-! ### Slices that end their pass -/

section
variable {s : State} {die n : Nat} {p : Pass}

theorem sliceEnded_granted (hg : isGranted s.body.data (56 * die + n) = true) :
    mget (sliceEnded s die n p true).body.data.slices (56 * die + n) = some (.returning s.alm.beat) ∧
    (sliceEnded s die n p true).body.passOf (.slice die n) = none := by
  unfold sliceEnded
  dsimp only
  rw [if_pos rfl]
  refine ⟨?_, mget_mdel_self ..⟩
  show mget (if isGranted s.body.data (56 * die + n) then mput s.body.data.slices (56 * die + n) (SliceState.returning s.alm.beat) else _) _ = _
  rw [if_pos hg]
  exact mget_mput_self ..

theorem sliceEnded_free (hg : isGranted s.body.data (56 * die + n) = false) :
    mget (sliceEnded s die n p true).body.data.slices (56 * die + n) = none ∧
    (sliceEnded s die n p true).body.passOf (.slice die n) = none ∧ (sliceEnded s die n p true).body.data.mem = s.body.data.mem := by
  unfold sliceEnded
  dsimp only
  rw [if_pos rfl]
  refine ⟨?_, mget_mdel_self .., rfl⟩
  show mget (if isGranted s.body.data (56 * die + n) then mput s.body.data.slices (56 * die + n) (SliceState.returning s.alm.beat) else _) _ = _
  rw [hg]
  exact mget_mdel_self ..

theorem sliceEnded_failed (h : 8 < ((List.range 56).filter fun j => sliceUp s.body.data (56 * die + j)).length) (hn : n < 56) :
    mget (sliceEnded s die n p false).body.data.slices (56 * die + n) = some .out ∧
    56 * die + n ∈ (sliceEnded s die n p false).body.flash.slices ∧ (sliceEnded s die n p false).body.data.dieOut = s.body.data.dieOut := by
  have heq : sliceEnded s die n p false = sliceGone (s.setBody (closePass s.body s.alm.beat (.slice die n) p 1 32)) (56 * die + n) :=
    sliceRetire_alone (s := s.setBody (closePass s.body s.alm.beat (.slice die n) p 1 32)) hn h
  rw [heq]
  exact ⟨mget_mput_self .., mem_sadd.2 (.inl rfl), rfl⟩

end

/-- Settles O43, clause by clause: each command's body is a named function of the one before, and what it leaves is read off it. -/
theorem passes : Obligations.Passes := by
  refine ⟨fun s u hu hact hst hcold hw hex hen hd hp => ?deferral, fun s c q hact hst hcold hw hpair hne hex hen hc hq hd hp hp' => ?pair,
    fun s u hd hu => deferral_not_due (passDue_not hu hd), fun s c t w hp hw hr => ?window,
    fun s e p hp hst hd hf => engine_forced hp hst hd hf, fun s c p hp hst hal hd => ⟨fun hb hf => ?forced, fun hb ho => ?skipped⟩,
    fun s c p temp hp hst hal hr hacc => ?start, fun s c p t n fs res hp hrun hst hph hal => ?phase,
    fun s c p hp hst hph hal => ⟨fun hv => ?passed, fun hv hs => ?failed, fun hv ho => ?inconclusive⟩, coreVerdict_cases,
    fun s die n p => ?slice, fun s k p hp hk => ⟨fun hst hh hup ho => ?runnerStart, fun bad hst => runnerPass_ends hp hst bad⟩,
    fun s e p hp => ⟨fun hst hh hr hq => enginePass_starts hp hst hh hr hq, fun hst => enginePass_ends hp hst true, fun hst => ?engineFailed⟩⟩
  case deferral =>
    exact fun hs => ⟨_, deferral_begins hu (passDue_other hu hact hst hcold hex hen hd hp) hw hs,
      ⟨_, passOf_setPass_self _ u _, rfl, rfl, rfl, rfl⟩, rfl, rfl⟩
  case pair =>
    exact fun hs => ⟨_, pair_deferral_begins hpair (passDue_pair hpair hact hst hcold hex hen hd hp hp') hw hs,
      pairDeferred_left s.body s.alm.beat _ hne hc hq⟩
  case window =>
    refine (yieldWindow_expires hp hw hr).mono fun u hu => ?_
    rw [hu, core_setCorePass_self]
    refine ⟨rfl, fun n => (mget_groups_unyield s.body c n).symm, fun k hk => ?_⟩
    rw [core_setCorePass_ne _ hk, core_unyield_ne _ hk]
  case forced =>
    refine (core_forced hp hst hal hd hb hf).mono fun u hu => ?_
    obtain ⟨hhl, hpass, hother⟩ := parkCore_kept
      ((s.body.setPass (.core c) { p with forced := some s.alm.beat }).setCorePass c (.forced s.alm.beat)) c true
    rw [hu]
    refine ⟨?_, ?_, fun k hk => ?_⟩
    · rw [hpass, core_setCorePass_self]
    · unfold Body.passOf
      rw [hhl]
      exact passOf_setPass_self s.body (.core c) _
    · rw [hother k hk, core_setCorePass_ne _ hk]
      rfl
  case skipped =>
    refine (core_skipped hp hst hal hd hb).mono fun u hu => ?_
    have hc := closePass_closed (freeCore s.body c) s.alm.beat (.core c) p 5 0
    rw [hu]
    refine ⟨hc.gone, (freeCore_kept s.body c).2, ?_⟩
    rw [hc.due, dueNext_of_none (by rw [freed_hl]; exact ho)]
    rfl
  case start =>
    refine (corePass_starts hp hst hal hr temp).mono fun u hu => ?_
    rw [hu]
    exact takeCore_left hp hacc s.alm.beat temp
  case phase =>
    refine (corePhase_ends hp hrun hst hph hal res).mono fun u hu => ?_
    rw [hu]
    refine ⟨passOf_setPass_self s.body (.core c) _, fun t ht => ?_, ?_, rfl⟩
    · exact List.mem_append_right _ (List.mem_map_of_mem (f := packPost c) ht)
    · rw [core_setCorePass_self]
  case passed =>
    refine (corePass_ends hp hst hph hal).mono fun u hu => ?_
    obtain ⟨hgone, hcal, hdue, hlast⟩ := endVerdict_passed (c := c) s.body s.alm.beat hv
    rw [hu]
    refine ⟨hgone, (freeCore_kept _ c).2, hcal, fun ho => ?_, fun t ho => ?_, hlast⟩
    · exact hdue.trans (congrArg some (dueNext_of_none ho _ _))
    · exact hdue.trans (congrArg some (dueNext_of_some ho _ _))
  case failed =>
    refine (corePass_ends hp hst hph hal).mono fun u hu => ?_
    obtain ⟨hgone, hcal, hsus, hdue⟩ := endVerdict_failed (c := c) s.body s.alm.beat hv hs
    rw [hu]
    exact ⟨hgone, (freeCore_kept _ c).2, hcal, hsus, hdue⟩
  case inconclusive =>
    refine (corePass_ends hp hst hph hal).mono fun u hu => ?_
    obtain ⟨hgone, hdue⟩ := endVerdict_open (c := c) s.body s.alm.beat hv
    rw [hu]
    exact ⟨hgone, hdue.trans (congrArg some (dueNext_of_none ho _ _))⟩
  case slice =>
    intro k hp
    refine ⟨fun hst hh hk hsp hsc => slicePass_starts hp hst hh hk hsp hsc, fun t hst hk => ⟨fun hg => ?_, fun hg => ?_, fun h hn => ?_⟩⟩
    · exact (slicePass_ends hp hst hk true).mono fun u hu => hu ▸ sliceEnded_granted hg
    · exact (slicePass_ends hp hst hk true).mono fun u hu => hu ▸ sliceEnded_free hg
    · exact (slicePass_ends hp hst hk false).mono fun u hu => hu ▸ sliceEnded_failed h hn
  case runnerStart =>
    exact (runnerPass_starts hk hp hst hh hup ho).mono fun u hu => hu ▸ runnerTested_moved s.body s.alm.beat k p
  case engineFailed =>
    refine (enginePass_ends hp hst false).mono fun u hu => ⟨hu.1, ?_⟩
    rw [hu.2]
    exact mem_sadd.2 (.inl rfl)

end Sys2Proof.Machine
end

section
/-! The links (09 R263-R272): cells, packets that leave, retraining, frames and surveys. -/

namespace Sys2Proof.Machine

/-! ### Packets that leave or wait -/

theorem mayLeave_iff (l : LinkSt) (p : Packet) :
    l.mayLeave p = true ↔ l.credits.getD (vcOf p) 0 ≠ 0 ∧ ∀ q ∈ l.waiting, vcOf q ≠ vcOf p := by
  unfold LinkSt.mayLeave
  simp

/-- What a link has when packet `p` has left on it. -/
def LinkSt.left (l : LinkSt) (p : Packet) : LinkSt :=
  { l with credits := l.credits.modify (vcOf p) fun n => n - 1, txSeq := l.txSeq + 1, txBuf := l.txBuf ++ [(l.txSeq, .packet p)] }

theorem linkPacket_leaves {b : Body} {k : Nat} {p : Packet} (h : (b.fab.link k).mayLeave p = true) :
    (b.linkPacket k p).data = b.data ∧ (b.linkPacket k p).fab.link k = (b.fab.link k).left p ∧
    ∃ bs, (b.linkPacket k p).host.out = b.host.out ++ [.link k (b.fab.link k).txSeq (.packet p) bs] ∧
      (k < 16 → bs = headBytes p ++ (if p.masked then maskBytes p.mask else []) ++ p.data) := by
  have hl := link_setLink_self b k { b.fab.link k with credits := (b.fab.link k).credits.modify (vcOf p) fun n => n - 1 }
  unfold Body.linkPacket
  dsimp only
  rw [if_pos h]
  unfold Body.linkPut
  dsimp only
  rw [hl]
  refine ⟨rfl, link_setLink_self .., _, rfl, fun hk => ?_⟩
  unfold linkBytes
  rw [if_neg (Nat.not_le.2 hk)]
  exact (List.append_assoc ..).symm

theorem linkPacket_waits {b : Body} {k : Nat} {p : Packet} (h : (b.fab.link k).mayLeave p = false) :
    b.linkPacket k p = b.setLink k { b.fab.link k with waiting := (b.fab.link k).waiting ++ [p] } := by
  unfold Body.linkPacket
  dsimp only
  rw [if_neg (by rw [h]; decide)]

/-! ### Cells in order -/

/-- What a link has when a cell or parcel has come in order. -/
def LinkSt.took (l : LinkSt) (w : LinkWord) : LinkSt :=
  { l with rxSeq := l.rxSeq + 1, txBuf := ackBuf l.txBuf w.ack, credits := addCredits l.credits w.credits }

/-- The body in which a cell or parcel has come in order and is acknowledged. -/
def Body.linkTook (b : Body) (k : Nat) (w : LinkWord) : Body :=
  (b.setLink k ((b.fab.link k).took w)).emit (.ack k ((b.fab.link k).rxSeq + 1) (Config.creditGrant k ((b.fab.link k).rxSeq + 1).toNat))

theorem linkIn_eq (b : Body) (k : Nat) (w : LinkWord) :
    b.linkIn k w = (if w.replay then (b.linkTook k w).replayLink k else b.linkTook k w).pumpLink k := rfl

theorem linkTook_link (b : Body) (k : Nat) (w : LinkWord) : (b.linkTook k w).fab.link k = (b.fab.link k).took w := link_setLink_self ..

theorem linkOut_foldl (k : Nat) (l : List (BitVec 12 × LinkItem)) (b : Body) :
    l.foldl (fun (b : Body) x => b.linkOut k x) b =
      { b with host := { b.host with out := b.host.out ++ l.map fun x => .link k x.1 x.2 (linkBytes b k x.1 x.2) } } := by
  induction l generalizing b with
  | nil => simp
  | cons x l ih =>
    rw [List.foldl_cons, ih]
    simp [Body.linkOut, Body.emit, HostSt.emit, linkBytes, frameBytes]

/-- What a runner sends for an item depends on the item alone. -/
theorem linkBytes_runner {k : Nat} (hk : k < 16) (b c : Body) (seq : BitVec 12) (i : LinkItem) : linkBytes b k seq i = linkBytes c k seq i := by
  unfold linkBytes
  rw [if_neg (Nat.not_le.2 hk), if_neg (Nat.not_le.2 hk)]

theorem pumpLink_empty {b : Body} {k : Nat} (h : (b.fab.link k).waiting = []) : b.pumpLink k = b.setLink k { b.fab.link k with waiting := [] } := by
  unfold Body.pumpLink
  dsimp only
  rw [h]
  rfl

/-- What a cell in order leaves on a port on which nothing waits. -/
structure Taken (b b' : Body) (k : Nat) (w : LinkWord) (replayed : List Output) : Prop where
  link : b'.fab.link k = { (b.fab.link k).took w with replays := (b.fab.link k).replays + replayed.length }
  out : b'.host.out = b.host.out ++ [.ack k ((b.fab.link k).rxSeq + 1) (Config.creditGrant k ((b.fab.link k).rxSeq + 1).toNat)] ++ replayed
  others : ∀ j, j ≠ k → b'.fab.link j = b.fab.link j
  data : b'.data = b.data

theorem linkIn_quiet {b : Body} {k : Nat} {w : LinkWord} (hw : (b.fab.link k).waiting = []) (hr : w.replay = false) :
    Taken b (b.linkIn k w) k w [] := by
  have hl := linkTook_link b k w
  rw [linkIn_eq, hr, if_neg (by decide), pumpLink_empty (by rw [hl]; exact hw), hl]
  refine ⟨(link_setLink_self ..).trans ?_, (List.append_nil _).symm, fun j hj => (link_setLink_ne _ hj _).trans (link_setLink_ne _ hj _), rfl⟩
  unfold LinkSt.took
  rw [← hw]
  rfl

theorem linkIn_replayed {b : Body} {k : Nat} {w : LinkWord} (hk : k < 16) (hw : (b.fab.link k).waiting = []) (hr : w.replay = true) :
    Taken b (b.linkIn k w) k w ((ackBuf (b.fab.link k).txBuf w.ack).map fun x => .link k x.1 x.2 (linkBytes b k x.1 x.2)) := by
  have hl := linkTook_link b k w
  have hm := link_setLink_self (b.linkTook k w) k
    { (b.fab.link k).took w with replays := ((b.fab.link k).took w).replays + ((b.fab.link k).took w).txBuf.length }
  have hrep : (b.linkTook k w).replayLink k = _ := linkOut_foldl k _ _
  rw [hl] at hrep
  have hq : ((b.linkTook k w).replayLink k).fab.link k =
      { (b.fab.link k).took w with replays := ((b.fab.link k).took w).replays + ((b.fab.link k).took w).txBuf.length } := by
    rw [hrep]
    exact hm
  rw [linkIn_eq, hr, if_pos rfl, pumpLink_empty (by rw [hq]; exact hw), hq]
  refine ⟨(link_setLink_self ..).trans ?_, ?_, fun j hj => (link_setLink_ne _ hj _).trans ?_, ?_⟩
  · unfold LinkSt.took
    rw [List.length_map, ← hw]
  · show ((b.linkTook k w).replayLink k).host.out = _
    rw [hrep]
    refine congrArg (_ ++ ·) (List.map_congr_left fun x _ => ?_)
    rw [linkBytes_runner hk _ b]
  · rw [hrep]
    exact (link_setLink_ne _ hj _).trans (link_setLink_ne _ hj _)
  · show ((b.linkTook k w).replayLink k).data = _
    rw [hrep]
    rfl

/-- One packet waits: it leaves with the credits that come, or goes on waiting. -/
theorem linkIn_one {b : Body} {k : Nat} {w : LinkWord} {p : Packet} (hw : (b.fab.link k).waiting = [p]) (hr : w.replay = false) :
    (((b.fab.link k).took w).credits.getD (vcOf p) 0 ≠ 0 →
      (b.linkIn k w).fab.link k = ({ (b.fab.link k).took w with waiting := [] } : LinkSt).left p) ∧
    (((b.fab.link k).took w).credits.getD (vcOf p) 0 = 0 → (b.linkIn k w).fab.link k = (b.fab.link k).took w) := by
  have hl := linkTook_link b k w
  have hm := link_setLink_self (b.linkTook k w) k { (b.fab.link k).took w with waiting := [] }
  have hin : b.linkIn k w = ((b.linkTook k w).setLink k { (b.fab.link k).took w with waiting := [] }).linkPacket k p := by
    rw [linkIn_eq, hr, if_neg (by decide)]
    unfold Body.pumpLink
    dsimp only
    rw [hl, show ((b.fab.link k).took w).waiting = [p] from hw]
    rfl
  rw [hin]
  refine ⟨fun hc => ?_, fun hc => ?_⟩
  · obtain ⟨-, hlink, -⟩ := linkPacket_leaves (b := (b.linkTook k w).setLink k { (b.fab.link k).took w with waiting := [] }) (k := k) (p := p)
      ((mayLeave_iff _ _).2 (by rw [hm]; exact ⟨hc, by simp⟩))
    rw [hlink, hm]
  · rw [linkPacket_waits (Bool.eq_false_iff.2 fun h => ((mayLeave_iff _ _).1 h).1 (by rw [hm]; exact hc)), link_setLink_self, hm]
    show { (b.fab.link k).took w with waiting := [p] } = _
    rw [← hw]
    rfl

/-! ### Retraining -/

theorem tooMany_few {s : State} {k : Nat} (h : (s.body.fab.link k).replays ≤ 4096) : tooMany s k = s := if_neg fun hh => absurd hh.2 (Nat.not_lt.2 h)

theorem linkPacket_link_ne (b : Body) {k j : Nat} (h : k ≠ j) (p : Packet) : (b.linkPacket j p).fab.link k = b.fab.link k := by
  unfold Body.linkPacket
  dsimp only
  split
  · exact (link_setLink_ne _ h _).trans (link_setLink_ne _ h _)
  · exact link_setLink_ne _ h _

theorem emitOn_link_ne (b : Body) {k : Nat} {q : Option Nat} (h : q ≠ some k) (p : Packet) : (b.emitOn q p).fab.link k = b.fab.link k := by
  unfold Body.emitOn
  split
  · next j =>
    split
    · exact linkPacket_link_ne b (fun e => h (by rw [e])) p
    · rfl
  · rfl

/-- No packet is given a port that is not up. -/
theorem portFor_up {f : Fabric} {k : Nat} (h : f.portUp k = false) (parity : Bool) (c : Nat) : f.portFor parity c ≠ some k := by
  intro e
  unfold Fabric.portFor Fabric.choosePort at e
  dsimp only at e
  split at e
  · have hu := List.find?_some e
    rw [h] at hu
    exact absurd hu (by decide)
  · exact absurd e (by simp)

theorem foldl_emitOn_link {α : Type} {k : Nat} {q : α → Option Nat} (hq : ∀ x, q x ≠ some k) (p : α → Packet) (l : List α) (b : Body) :
    (l.foldl (fun (b : Body) x => b.emitOn (q x) (p x)) b).fab.link k = b.fab.link k :=
  foldl_kept (fun b : Body => b.fab.link k) (fun b x => emitOn_link_ne b (hq x) (p x)) l b

theorem leavePort_link {b : Body} {k : Nat} (h : b.fab.portUp k = false) (beat c : Nat) : (b.leavePort beat k c).fab.link k = b.fab.link k := by
  unfold Body.leavePort
  dsimp only
  exact foldl_emitOn_link (fun x : SentPkt => portFor_up h x.pkt.epoch c) (fun x => x.pkt) _ _

/-- A port that is down loses by its failover what waited there, and nothing else. -/
theorem failover_link {b : Body} {k : Nat} (h : b.fab.portUp k = false) (beat : Nat) :
    (b.failover beat k).fab.link k = { b.fab.link k with waiting := [] } := by
  have hs := link_setLink_self b k { b.fab.link k with waiting := [] }
  have hup : (b.setLink k { b.fab.link k with waiting := [] }).fab.portUp k = false := by
    unfold Fabric.portUp at h ⊢
    rw [hs]
    exact h
  have hfold (l : List Nat) (c : Body) (hc : c.fab.portUp k = false) : (l.foldl (fun (b : Body) i => b.leavePort beat k i) c).fab.link k = c.fab.link k := by
    induction l generalizing c with
    | nil => rfl
    | cons i l ih =>
      have hi := leavePort_link hc beat i
      have hui : (c.leavePort beat k i).fab.portUp k = false := by
        unfold Fabric.portUp at hc ⊢
        rw [hi]
        exact hc
      exact (ih _ hui).trans hi
  unfold Body.failover
  dsimp only
  split
  · exact (hfold _ _ hup).trans hs
  · exact (hfold _ _ hup).trans hs

section
variable {s : State} {k : Nat}

/-- A trained port that does not retrain begins to. -/
theorem startRetrain_eq (ht : (s.body.fab.link k).trained = true) (hn : (s.body.fab.link k).training = none) :
    startRetrain s k = s.setBody ((s.body.setLink k { s.body.fab.link k with training := some s.alm.beat }).failover s.alm.beat k) := by
  exact if_pos (by simp [ht, hn])

theorem portUp_training {b : Body} {t : Nat} (h : (b.fab.link k).training = some t) : b.fab.portUp k = false := by
  unfold Fabric.portUp
  dsimp only
  rw [h]
  simp

theorem startRetrain_link (ht : (s.body.fab.link k).trained = true) (hn : (s.body.fab.link k).training = none) :
    (startRetrain s k).body.fab.link k = { s.body.fab.link k with training := some s.alm.beat, waiting := [] } := by
  have hl := link_setLink_self s.body k { s.body.fab.link k with training := some s.alm.beat }
  rw [startRetrain_eq ht hn]
  exact (failover_link (portUp_training (by rw [hl])) s.alm.beat).trans (by rw [hl])

theorem startRetrain_others (ht : (s.body.fab.link k).trained = true) (hn : (s.body.fab.link k).training = none) {j : Nat} (hj : j ≠ k) :
    ((startRetrain s k).body.fab.link j).training = (s.body.fab.link j).training ∧
    (s.body.fab.conns = [] → (startRetrain s k).body.fab.link j = s.body.fab.link j) := by
  have hl := link_setLink_ne s.body hj { s.body.fab.link k with training := some s.alm.beat }
  rw [startRetrain_eq ht hn]
  constructor
  · have h := congrArg LinkSt.training ((Body.Driven.failover (s.body.setLink k { s.body.fab.link k with training := some s.alm.beat }) s.alm.beat k).links j)
    exact h.trans (congrArg LinkSt.training hl)
  · intro hc
    have h := congrArg (fun b : Body => b.fab.link j)
      (failover_no_conns (b := s.body.setLink k { s.body.fab.link k with training := some s.alm.beat }) hc s.alm.beat k)
    exact h.trans ((link_setLink_ne _ hj _).trans hl)

/-! ### Cells -/

/-- A cell that a runner gets while it carries cells. -/
theorem cellRx (hk : k < 16) (ht : (s.body.fab.link k).trained = true) (hn : (s.body.fab.link k).training = none) (seq : BitVec 12) (c : Cell)
    {u : State} (hu : (if c.crcOk && seq == (s.body.fab.link k).rxSeq then tooMany (s.setBody (s.body.linkIn k c.word)) k
      else tooMany (s.setBody (s.body.linkRefuse k)) k) = u) : Leaves (.runnerCellRx k seq c) s u := by
  refine leaves_of_run (show _ = execRunnerCellRx k seq c s from rfl) ?_
  dsimp only
  rw [ht, hn, decide_eq_false (Nat.not_le.2 hk)]
  exact hu

theorem cellRx_in (hk : k < 16) (ht : (s.body.fab.link k).trained = true) (hn : (s.body.fab.link k).training = none) {seq : BitVec 12} {c : Cell}
    (hc : c.crcOk = true) (hs : seq = (s.body.fab.link k).rxSeq) (hr : ((s.body.linkIn k c.word).fab.link k).replays ≤ 4096) :
    Leaves (.runnerCellRx k seq c) s (s.setBody (s.body.linkIn k c.word)) := by
  refine cellRx hk ht hn seq c ?_
  rw [if_pos (by simp [hc, hs])]
  exact tooMany_few hr

theorem cellRx_off (hk : k < 16) (ht : (s.body.fab.link k).trained = true) (hn : (s.body.fab.link k).training = none) {seq : BitVec 12} {c : Cell}
    (h : c.crcOk = false ∨ seq ≠ (s.body.fab.link k).rxSeq) : Leaves (.runnerCellRx k seq c) s (tooMany (s.setBody (s.body.linkRefuse k)) k) := by
  refine cellRx hk ht hn seq c ?_
  rw [if_neg (by rcases h with h | h <;> simp [h])]

theorem linkRefuse_link (b : Body) (k : Nat) : (b.linkRefuse k).fab.link k = { b.fab.link k with replays := (b.fab.link k).replays + 1 } :=
  link_setLink_self ..

/-- Too many replays: the runner retrains. -/
theorem tooMany_retrains {s : State} (hk : k < 16) (ht : (s.body.fab.link k).trained = true) (hn : (s.body.fab.link k).training = none)
    (h : 4096 < (s.body.fab.link k).replays) : ((tooMany s k).body.fab.link k).training = some s.alm.beat := by
  unfold tooMany
  rw [if_pos ⟨hk, h⟩, startRetrain_link ht hn]

theorem cellRx_ignored {seq : BitVec 12} {c : Cell} (h : 16 ≤ k ∨ (s.body.fab.link k).trained = false ∨ (s.body.fab.link k).training.isSome = true) :
    Leaves (.runnerCellRx k seq c) s s := by
  refine leaves_of_run (show _ = execRunnerCellRx k seq c s from rfl) ?_
  dsimp only
  rw [if_pos (by rcases h with h | h | h <;> simp [h])]

theorem lockLoss (hk : k < 18) : Leaves (.fecLockLoss k) s (startRetrain s k) :=
  leaves_of_run (show _ = execFecLockLoss k s from rfl) (if_pos hk)

theorem lockLoss_ignored (h : 18 ≤ k ∨ (s.body.fab.link k).trained = false) : Leaves (.fecLockLoss k) s s := by
  refine leaves_of_run (show _ = execFecLockLoss k s from rfl) ?_
  by_cases hk : k < 18
  · rw [if_pos hk]
    unfold startRetrain
    dsimp only
    rw [h.resolve_left (Nat.not_le.2 hk), if_neg (by simp)]
  · exact if_neg hk

/-! ### Training and frames -/

theorem trainedLanes {lanes : BitVec 8} (h : laneCount lanes = 8 ∨ (k < 16 ∧ (laneCount lanes = 4 ∨ laneCount lanes = 2))) :
    (laneCount lanes == 8 || (decide (k < 16) && (laneCount lanes == 4 || laneCount lanes == 2))) = true := by
  rcases h with h | ⟨hk, h | h⟩ <;> simp [*]

theorem link_trained {lanes : BitVec 8} (hk : k < 18) (ht : (s.body.fab.link k).trained = false) (hc : (s.body.fab.link k).cable = true)
    (h : laneCount lanes = 8 ∨ (k < 16 ∧ (laneCount lanes = 4 ∨ laneCount lanes = 2))) :
    Leaves (.linkTrainingComplete k lanes) s (sendSurvey (s.setLink k ((s.body.fab.link k).trainedOn lanes)) k) := by
  refine leaves_of_run (show _ = execLinkTrainingComplete k lanes s from rfl) ?_
  dsimp only
  rw [trainedLanes h, ht, hc, decide_eq_true hk]
  rfl

/-- The time within the beat at which an identity record leaves. -/
theorem survey_time (b n : Nat) : 1000 * b ≤ 1000 * b + n % 1000 ∧ 1000 * b + n % 1000 < 1000 * b + 1000 :=
  ⟨Nat.le_add_right .., Nat.add_lt_add_left (Nat.mod_lt _ (by decide)) _⟩

theorem sendSurvey_left (s : State) (k : Nat) :
    let r := surveyOf s.body k (1000 * s.alm.beat + Config.freeNat s.body.data.free % 1000) 0 0
    (sendSurvey s k).body.fab.link k = { s.body.fab.link k with
      surveyDue := true, txSeq := (s.body.fab.link k).txSeq + 1, txBuf := (s.body.fab.link k).txBuf ++ [((s.body.fab.link k).txSeq, .survey r)] } ∧
    (∃ bs, (sendSurvey s k).body.host.out = s.body.host.out ++ [.link k (s.body.fab.link k).txSeq (.survey r) bs] ∧ (k < 16 → bs = surveyBytes r)) ∧
    (sendSurvey s k).body.data = { s.body.data with free := s.body.data.free + 1 } := by
  have hl := link_setLink_self ({ s.body with data := { s.body.data with free := s.body.data.free + 1 } } : Body) k { s.body.fab.link k with surveyDue := true }
  unfold sendSurvey Body.linkPut
  dsimp only
  rw [hl]
  refine ⟨link_setLink_self .., ⟨_, rfl, fun hk => ?_⟩, rfl⟩
  unfold linkBytes
  rw [if_neg (Nat.not_le.2 hk)]
  rfl

end

section
variable {s : State} {k : Nat}

/-- A frame that a trained global link gets. -/
theorem frameRx (hk : 16 ≤ k) (hk' : k < 18) (ht : (s.body.fab.link k).trained = true) (f : GlFrame) {u : State}
    (hu : (if f.length < 64 ∨ 9216 < f.length then discard s k 6
      else if !f.fcsOk then discard s k 5
      else if f.vlan then discard s k 3
      else if f.etherType ≠ 0x88B5 then discard s k 1
      else if f.dst ≠ glAddr s.body.md.serial k then discard s k 2
      else if f.seq = (s.body.fab.link k).rxSeq then s.setBody (s.body.linkIn k f.word)
      else s.setBody (s.body.linkRefuse k)) = u) : Leaves (.glFrameRx k f) s u := by
  refine leaves_of_run (show _ = execGlFrameRx k f s from rfl) ?_
  dsimp only
  rw [if_neg (by simp [ht]; omega)]
  exact hu

theorem verdictOf_runner {b : Body} {r : SurveyRec} (hs : r.serial ≠ b.md.serial) (hn : r.nodeValid = false) (hk : k < 15) :
    verdictOf b k r = if (r.position % 16, r.port) = ((b.md.slotId % 16 + k + 1) % 16, 14 - k) then
      (if laneCount (b.fab.link k).lanes = 8 then .ok else .degraded) else .miscabled := by
  unfold verdictOf
  rw [if_neg (by simp [hs, hn]), if_pos (by omega : k < 16)]
  unfold expectedPeer
  rw [if_neg (by omega : ¬k = 15)]
  by_cases h : (r.position % 16, r.port) = ((b.md.slotId % 16 + k + 1) % 16, 14 - k)
  · rw [if_pos h, if_neg (not_not.2 h.symm)]
  · rw [if_neg h, if_pos (Ne.symm h)]

theorem verdictOf_ok {b : Body} {r : SurveyRec} (hs : r.serial ≠ b.md.serial) (hn : r.nodeValid = false) (hk : k < 15) :
    (verdictOf b k r = .ok ↔ r.position % 16 = (b.md.slotId % 16 + k + 1) % 16 ∧ r.port = 14 - k ∧ laneCount (b.fab.link k).lanes = 8) ∧
    (verdictOf b k r = .miscabled ↔ ¬(r.position % 16 = (b.md.slotId % 16 + k + 1) % 16 ∧ r.port = 14 - k)) := by
  rw [verdictOf_runner hs hn hk]
  by_cases h : (r.position % 16, r.port) = ((b.md.slotId % 16 + k + 1) % 16, 14 - k)
  · rw [if_pos h]
    obtain ⟨hpos, hport⟩ := Prod.mk.inj h
    by_cases h8 : laneCount (b.fab.link k).lanes = 8
    · simp [h8, hpos, hport]
    · simp [h8, hpos, hport]
  · rw [if_neg h]
    have hne : ¬(r.position % 16 = (b.md.slotId % 16 + k + 1) % 16 ∧ r.port = 14 - k) := fun hh => h (Prod.ext hh.1 hh.2)
    exact ⟨⟨fun e => absurd e (by decide), fun hh => absurd ⟨hh.1, hh.2.1⟩ hne⟩, ⟨fun _ => hne, fun _ => rfl⟩⟩

/-! ### Verdicts -/

/-- A link once a verdict is given. -/
def LinkSt.judged (l : LinkSt) (v : Verdict) : LinkSt := if l.verdict = v then l else { l with verdict := v, events := l.events + 1 }

/-- A verdict changes the port's verdict and its count of events; what follows moves connections. -/
theorem setVerdict_driven (s : State) (k : Nat) (v : Verdict) :
    (s.body.setLink k ((s.body.fab.link k).judged v)).Driven (setVerdict s k v).body ∨
      ((s.body.fab.link k).verdict = v ∧ setVerdict s k v = s) := by
  by_cases h : (s.body.fab.link k).verdict = v
  · refine .inr ⟨h, ?_⟩
    unfold setVerdict
    exact if_pos h
  · refine .inl ?_
    unfold setVerdict LinkSt.judged
    dsimp only
    rw [if_neg h, if_neg h]
    split
    · split
      · exact Body.Driven.post ..
      · exact (Body.Driven.post _ _ _ _).trans (Body.Driven.comeBack ..)
    · split
      · exact Body.Driven.post ..
      · exact (Body.Driven.post _ _ _ _).trans (Body.Driven.comeBack ..)
    · exact (Body.Driven.post _ _ _ _).trans (Body.Driven.failover ..)
    · exact (Body.Driven.post _ _ _ _).trans (Body.Driven.failover ..)

/-- What stays of the state and of its link when a verdict is given. -/
structure Judged (s u : State) (k : Nat) (v : Verdict) : Prop where
  link : ((s.body.fab.link k).judged v).sentBut (u.body.fab.link k)
  md : u.body.md = s.body.md
  alm : u.alm = s.alm
  posts : s.body.data.posts <+: u.body.data.posts

theorem setVerdict_alm (s : State) (k : Nat) (v : Verdict) : (setVerdict s k v).alm = s.alm := by
  unfold setVerdict
  dsimp only
  split
  · rfl
  · split
    · split <;> rfl
    · split <;> rfl
    · rfl
    · rfl

theorem setVerdict_judged (s : State) (k : Nat) (v : Verdict) : Judged s (setVerdict s k v) k v := by
  rcases setVerdict_driven s k v with h | ⟨hv, he⟩
  · have hl := h.links k
    rw [link_setLink_self] at hl
    exact ⟨hl, h.md, setVerdict_alm s k v, h.data.posts⟩
  · rw [he]
    refine ⟨?_, rfl, rfl, List.prefix_rfl⟩
    unfold LinkSt.judged
    rw [if_pos hv]
    rfl

theorem judged_self {l : LinkSt} {v : Verdict} (h : l.verdict = v) : l.judged v = l := if_pos h

theorem judged_ne {l : LinkSt} {v : Verdict} (h : l.verdict ≠ v) : l.judged v = { l with verdict := v, events := l.events + 1 } := if_neg h

theorem judged_verdict (l : LinkSt) (v : Verdict) : (l.judged v).verdict = v ∧ { l.judged v with verdict := l.verdict, events := l.events } = l := by
  unfold LinkSt.judged
  split
  · next h => exact ⟨h, rfl⟩
  · exact ⟨rfl, rfl⟩

/-! ### Retraining that ends -/

/-- The verdict of a port that carries packets, by the lanes that came up. -/
def lanesVerdict (l : LinkSt) (lanes : BitVec 8) : Verdict := if l.carries then (if laneCount lanes = 8 then .ok else .degraded) else l.verdict

/-- The records of a retrain that has ended. -/
def retrainPosted (s : State) (k t : Nat) (lanes : BitVec 8) (n : Nat) : State :=
  let l := s.body.fab.link k
  let s := s.post 0x0303 (7 + 256 * (0x80 + k)) [(k, 0), (t, 0), (s.alm.beat, 0), (laneCount l.lanes, 0), (n, 0)]
  let new := ~~~lanes &&& ~~~l.lost
  if new = 0 then s else s.post 0x0304 (7 + 256 * (0x80 + k)) [(k, 0), (new.toNat, 0)]

theorem retrainPosted_left (s : State) (k t : Nat) (lanes : BitVec 8) (n : Nat) :
    ⟨0x0303, 7 + 256 * (0x80 + k), [(k, 0), (t, 0), (s.alm.beat, 0), (laneCount (s.body.fab.link k).lanes, 0), (n, 0)], none⟩ ∈
      (retrainPosted s k t lanes n).body.data.posts ∧
    (retrainPosted s k t lanes n).body.fab = s.body.fab ∧ (retrainPosted s k t lanes n).alm = s.alm := by
  unfold retrainPosted
  dsimp only
  split
  · exact ⟨List.mem_append_right _ (List.mem_singleton_self _), rfl, rfl⟩
  · exact ⟨List.mem_append_left _ (List.mem_append_right _ (List.mem_singleton_self _)), rfl, rfl⟩

/-- A link on the lanes that came up. -/
def LinkSt.relaned (l : LinkSt) (lanes : BitVec 8) : LinkSt := { l with lost := l.lost ||| ~~~lanes, training := none, lanes := lanes }

/-- The state in which a port's retrain has ended with lanes that carry it, before its verdict. -/
def relaned (s : State) (k t : Nat) (lanes : BitVec 8) : State :=
  (retrainPosted s k t lanes (laneCount lanes)).setLink k ((s.body.fab.link k).relaned lanes)

/-- The same, its verdict given. -/
def retrained (s : State) (k t : Nat) (lanes : BitVec 8) : State :=
  if (s.body.fab.link k).carries then setVerdict (relaned s k t lanes) k (if laneCount lanes = 8 then .ok else .degraded) else relaned s k t lanes

theorem relaned_link (s : State) (k t : Nat) (lanes : BitVec 8) : (relaned s k t lanes).body.fab.link k = (s.body.fab.link k).relaned lanes :=
  link_setLink_self ..

theorem retrained_alm (s : State) (k t : Nat) (lanes : BitVec 8) : (retrained s k t lanes).alm = s.alm := by
  have hp := (retrainPosted_left s k t lanes (laneCount lanes)).2.2
  unfold retrained
  split
  · exact (setVerdict_alm ..).trans hp
  · exact hp

theorem retrain_done {t : Nat} {lanes : BitVec 8} (ht : (s.body.fab.link k).training = some t)
    (h : laneCount lanes = 8 ∨ (k < 16 ∧ (laneCount lanes = 4 ∨ laneCount lanes = 2))) : Makes (.runnerRetrainDone k lanes) s fun u =>
      u.body = (sendSurvey (retrained s k t lanes) k).body.comeBack s.alm.beat k := by
  refine makes_of_run (show _ = execRunnerRetrainDone k lanes s from rfl) ?_
  dsimp only
  rw [ht]
  dsimp only
  rw [if_pos h, if_pos h]
  have halm : (sendSurvey (retrained s k t lanes) k).alm = s.alm := retrained_alm s k t lanes
  have hbody : (sendSurvey (retrained s k t lanes) k).body.comeBack (sendSurvey (retrained s k t lanes) k).alm.beat k =
      (sendSurvey (retrained s k t lanes) k).body.comeBack s.alm.beat k := by rw [halm]
  exact hbody

/-- The link of a port whose retrain has ended, its verdict given anew. -/
theorem retrained_link (s : State) (k t : Nat) (lanes : BitVec 8) :
    (((s.body.fab.link k).relaned lanes).judged (lanesVerdict (s.body.fab.link k) lanes)).sentBut ((retrained s k t lanes).body.fab.link k) := by
  have hl := relaned_link s k t lanes
  unfold retrained lanesVerdict
  by_cases hc : (s.body.fab.link k).carries = true
  · have h := (setVerdict_judged (relaned s k t lanes) k (if laneCount lanes = 8 then .ok else .degraded)).link
    rw [hl] at h
    rw [if_pos hc, if_pos hc]
    exact h
  · rw [if_neg hc, if_neg hc, hl]
    rw [judged_self (show ((s.body.fab.link k).relaned lanes).verdict = (s.body.fab.link k).verdict from rfl)]
    rfl

theorem retrained_posts (s : State) (k t : Nat) (lanes : BitVec 8) :
    (retrainPosted s k t lanes (laneCount lanes)).body.data.posts <+: (retrained s k t lanes).body.data.posts := by
  unfold retrained
  split
  · exact (setVerdict_judged (relaned s k t lanes) k _).posts
  · exact List.prefix_rfl

/-- A verdict of a link that carries packets and goes on carrying them: its record. -/
theorem setVerdict_post {v : Verdict} (hc : (s.body.fab.link k).carries = true) (hv : v = .ok ∨ v = .degraded) (hne : (s.body.fab.link k).verdict ≠ v) :
    ⟨0x0301, 7 + 256 * (0x80 + k), [(k, 0), (laneCount (s.body.fab.link k).lanes, 0), ((s.body.fab.link k).peerNode, 0), ((s.body.fab.link k).peerSerial, 0)], none⟩ ∈
      (setVerdict s k v).body.data.posts := by
  unfold setVerdict
  dsimp only
  rw [if_neg hne, hc]
  rcases hv with rfl | rfl
  · exact List.mem_append_right _ (List.mem_singleton_self _)
  · exact List.mem_append_right _ (List.mem_singleton_self _)

theorem retrained_post {lanes : BitVec 8} (t : Nat) (hc : (s.body.fab.link k).carries = true) (hne : lanesVerdict (s.body.fab.link k) lanes ≠ (s.body.fab.link k).verdict) :
    ⟨0x0301, 7 + 256 * (0x80 + k), [(k, 0), (laneCount lanes, 0), ((s.body.fab.link k).peerNode, 0), ((s.body.fab.link k).peerSerial, 0)], none⟩ ∈
      (retrained s k t lanes).body.data.posts := by
  have hl := relaned_link s k t lanes
  have hv : (if laneCount lanes = 8 then Verdict.ok else .degraded) = .ok ∨ (if laneCount lanes = 8 then Verdict.ok else .degraded) = .degraded := by
    split
    · exact .inl rfl
    · exact .inr rfl
  unfold lanesVerdict at hne
  rw [if_pos hc] at hne
  have h := setVerdict_post (s := relaned s k t lanes) (k := k) (by rw [hl]; exact hc) hv (by rw [hl]; exact hne.symm)
  rw [hl] at h
  unfold retrained
  rw [if_pos hc]
  exact h

/-- The fields of a link that what leaves or waits on it keeps. -/
structure LinkSt.SameFields (l x : LinkSt) : Prop where
  training : x.training = l.training
  lanes : x.lanes = l.lanes
  lost : x.lost = l.lost
  verdict : x.verdict = l.verdict
  surveyDue : x.surveyDue = l.surveyDue
  trained : x.trained = l.trained
  rxSeq : x.rxSeq = l.rxSeq
  events : x.events = l.events
  delayNs : x.delayNs = l.delayNs
  peerNode : x.peerNode = l.peerNode
  peerPos : x.peerPos = l.peerPos
  peerPort : x.peerPort = l.peerPort
  peerSerial : x.peerSerial = l.peerSerial

theorem LinkSt.sentBut.fields {l x : LinkSt} (h : l.sentBut x) : l.SameFields x := by
  unfold LinkSt.sentBut at h
  constructor <;> rw [← h]

theorem judged_relaned (l : LinkSt) (lanes : BitVec 8) (v : Verdict) :
    ((l.relaned lanes).judged v).training = none ∧ ((l.relaned lanes).judged v).lanes = lanes ∧ ((l.relaned lanes).judged v).lost = l.lost ||| ~~~lanes ∧
    ((l.relaned lanes).judged v).trained = l.trained ∧ ((l.relaned lanes).judged v).rxSeq = l.rxSeq := by
  unfold LinkSt.judged
  split
  · exact ⟨rfl, rfl, rfl, rfl, rfl⟩
  · exact ⟨rfl, rfl, rfl, rfl, rfl⟩

/-- What a retrain that has ended with lanes that carry the link leaves. -/
theorem retrained_left {b : Body} {t : Nat} {lanes : BitVec 8} (hb : b = (sendSurvey (retrained s k t lanes) k).body.comeBack s.alm.beat k) :
    let l := s.body.fab.link k
    let v := lanesVerdict l lanes
    let x := b.fab.link k
    x.training = none ∧ x.lanes = lanes ∧ x.lost = l.lost ||| ~~~lanes ∧ x.verdict = v ∧ x.surveyDue = true ∧ x.trained = l.trained ∧
      x.rxSeq = l.rxSeq ∧ (∃ seq r bs, Output.link k seq (.survey r) bs ∈ b.host.out ∧ r.t2 = 0 ∧ r.t3mt2 = 0 ∧ r.lanes = laneCount lanes ∧
        1000 * s.alm.beat ≤ r.t1 ∧ r.t1 < 1000 * s.alm.beat + 1000) ∧
      ⟨0x0303, 7 + 256 * (0x80 + k), [(k, 0), (t, 0), (s.alm.beat, 0), (laneCount l.lanes, 0), (laneCount lanes, 0)], none⟩ ∈ b.data.posts ∧
      (l.carries = true → v ≠ l.verdict → x.events = l.events + 1 ∧
        ⟨0x0301, 7 + 256 * (0x80 + k), [(k, 0), (laneCount lanes, 0), (l.peerNode, 0), (l.peerSerial, 0)], none⟩ ∈ b.data.posts) := by
  intro l v x
  have hd := Body.Driven.comeBack (sendSurvey (retrained s k t lanes) k).body s.alm.beat k
  rw [← hb] at hd
  obtain ⟨hsl, ⟨bs, hout, -⟩, hsd⟩ := sendSurvey_left (retrained s k t lanes) k
  have hr := retrained_link s k t lanes
  have hx : ({ (l.relaned lanes).judged v with surveyDue := true } : LinkSt).sentBut x := by
    refine LinkSt.sentBut.trans ?_ (hd.links k)
    rw [hsl]
    have h := congrArg (fun l : LinkSt => { l with surveyDue := true }) hr
    exact h
  obtain ⟨hjv, hj⟩ := judged_verdict (l.relaned lanes) v
  have hposts : (retrained s k t lanes).body.data.posts <+: b.data.posts := by
    have h := hd.data.posts
    rw [hsd] at h
    exact h
  have hk := hx.fields
  obtain ⟨jt, jl, jo, jtr, jr⟩ := judged_relaned l lanes v
  have hlanes : laneCount ((retrained s k t lanes).body.fab.link k).lanes = laneCount lanes := congrArg laneCount (hr.fields.lanes.trans jl)
  have hbeat := retrained_alm s k t lanes
  have htime := survey_time s.alm.beat (Config.freeNat (retrained s k t lanes).body.data.free)
  rw [← hbeat] at htime
  refine ⟨hk.training.trans jt, hk.lanes.trans jl, hk.lost.trans jo, hk.verdict.trans hjv, hk.surveyDue, hk.trained.trans jtr, hk.rxSeq.trans jr,
    ⟨_, _, bs, hd.out.subset (hout ▸ List.mem_append_right _ (List.mem_singleton_self _)), rfl, rfl, hlanes, ?_, ?_⟩,
    hposts.subset ((retrained_posts s k t lanes).subset (retrainPosted_left s k t lanes _).1), fun hc hne => ⟨?_, hposts.subset (retrained_post t hc hne)⟩⟩
  · rw [← hbeat]
    exact htime.1
  · rw [← hbeat]
    exact htime.2
  · refine hk.events.trans (Eq.trans ?_ (rfl : ((l.relaned lanes).events + 1) = l.events + 1))
    show ((l.relaned lanes).judged v).events = _
    rw [judged_ne (show (l.relaned lanes).verdict ≠ v from Ne.symm hne)]

end

section
variable {s : State} {k : Nat}

/-- Too few lanes come up: the link goes down. -/
theorem retrain_failed {t : Nat} {lanes : BitVec 8} (ht : (s.body.fab.link k).training = some t) (h : laneCount lanes < 2) :
    Makes (.runnerRetrainDone k lanes) s fun u => (u.body.fab.link k).trained = false ∧ (u.body.fab.link k).verdict = .noPeer ∧
      (u.body.fab.link k).training = none ∧ (u.body.fab.link k).lost = (s.body.fab.link k).lost ||| ~~~lanes := by
  have hno : ¬(laneCount lanes = 8 ∨ (k < 16 ∧ (laneCount lanes = 4 ∨ laneCount lanes = 2))) := by omega
  refine makes_of_run (show _ = execRunnerRetrainDone k lanes s from rfl) ?_
  dsimp only
  split
  · next h => exact absurd (ht.symm.trans h) (by simp)
  next t' h =>
  rw [Option.some.inj (h.symm.trans ht), if_neg hno, if_neg hno]
  have hl := link_setLink_self (retrainPosted s k t lanes 0).body k { s.body.fab.link k with lost := (s.body.fab.link k).lost ||| ~~~lanes }
  have hd := (linkDown_driven ((retrainPosted s k t lanes 0).setLink k { s.body.fab.link k with lost := (s.body.fab.link k).lost ||| ~~~lanes }) k 1).links k
  rw [link_setLink_self] at hd
  have hf := hd.fields
  exact ⟨hf.trained, hf.verdict, hf.training, hf.lost.trans (congrArg LinkSt.lost hl)⟩

/-! ### Identity records -/

/-- A link that has heard its peer's identity record. -/
def LinkSt.heard (l : LinkSt) (k : Nat) (r : SurveyRec) (t1 t4 : Nat) : LinkSt :=
  let ans := r.t2 != 0 || r.t3mt2 != 0
  { l with
    peerNode := r.node
    peerPos := r.position
    peerPort := r.port
    peerSerial := r.serial
    surveyDue := l.surveyDue && !ans
    delayNs := if ans then ((t4 - t1) - r.t3mt2) / 2 + Config.linkLatency k else l.delayNs }

/-- The state after a record is heard and its verdict given. -/
def surveyed (s : State) (k : Nat) (r : SurveyRec) (t1 t4 : Nat) : State :=
  setVerdict (s.setLink k ((s.body.fab.link k).heard k r t1 t4)) k (verdictOf s.body k r)

/-- The answer to a record. -/
def surveyAnswered (s : State) (k t4 : Nat) : State :=
  let d := s.body.data
  let dt := Config.freeNat d.free % 2 ^ 32
  s.setBody ({ s.body with data := { d with free := d.free + 1 } }.linkPut k (.survey (surveyOf s.body k (t4 + dt) (t4 % 2 ^ 32) dt)))

theorem verdictOf_heard (b : Body) (k : Nat) (r : SurveyRec) (t1 t4 : Nat) :
    verdictOf (b.setLink k ((b.fab.link k).heard k r t1 t4)) k r = verdictOf b k r := by
  unfold verdictOf
  rw [link_setLink_self]
  rfl

theorem survey_heard (hk : k < 18) (ht : (s.body.fab.link k).trained = true) {r : SurveyRec} (hz : k < 16 ∨ r.zero = true) (t1 t4 : Nat) :
    Leaves (.surveyRecordRx k r t1 t4) s (if r.t2 != 0 || r.t3mt2 != 0 then surveyed s k r t1 t4 else surveyAnswered (surveyed s k r t1 t4) k t4) := by
  have hv : setVerdict (s.setLink k ((s.body.fab.link k).heard k r t1 t4)) k
      (verdictOf (s.setLink k ((s.body.fab.link k).heard k r t1 t4)).body k r) = surveyed s k r t1 t4 :=
    congrArg (setVerdict _ k) (verdictOf_heard s.body k r t1 t4)
  refine leaves_of_run (show _ = execSurveyRecordRx k r t1 t4 s from rfl) ?_
  dsimp only
  rw [if_neg (by simp [ht]; omega), if_neg (by rcases hz with h | h <;> simp [h])]
  rw [← hv]
  rfl

theorem survey_discarded (hk : 16 ≤ k) (hk' : k < 18) (ht : (s.body.fab.link k).trained = true) {r : SurveyRec} (hz : r.zero = false) (t1 t4 : Nat) :
    Leaves (.surveyRecordRx k r t1 t4) s (discard s k 4) := by
  refine leaves_of_run (show _ = execSurveyRecordRx k r t1 t4 s from rfl) ?_
  dsimp only
  rw [if_neg (by simp [ht]; omega), if_pos (by simp [hz, hk])]

/-- The link of a port that has been surveyed. -/
theorem surveyed_link (s : State) (k : Nat) (r : SurveyRec) (t1 t4 : Nat) :
    (((s.body.fab.link k).heard k r t1 t4).judged (verdictOf s.body k r)).sentBut ((surveyed s k r t1 t4).body.fab.link k) := by
  have hl : (s.setLink k ((s.body.fab.link k).heard k r t1 t4)).body.fab.link k = (s.body.fab.link k).heard k r t1 t4 := link_setLink_self ..
  have h := (setVerdict_judged (s.setLink k ((s.body.fab.link k).heard k r t1 t4)) k (verdictOf s.body k r)).link
  rw [hl] at h
  exact h

/-- The fields of a record that is heard. -/
theorem judged_heard (l : LinkSt) (k : Nat) (r : SurveyRec) (t1 t4 : Nat) (v : Verdict) :
    let x := (l.heard k r t1 t4).judged v
    x.verdict = v ∧ x.peerNode = r.node ∧ x.peerPos = r.position ∧ x.peerPort = r.port ∧ x.peerSerial = r.serial ∧
      (r.t2 ≠ 0 ∨ r.t3mt2 ≠ 0 → x.delayNs = ((t4 - t1) - r.t3mt2) / 2 + Config.linkLatency k ∧ x.surveyDue = false) ∧
      (r.t2 = 0 → r.t3mt2 = 0 → x.delayNs = l.delayNs ∧ x.surveyDue = l.surveyDue) := by
  have hans : (r.t2 ≠ 0 ∨ r.t3mt2 ≠ 0 → (l.heard k r t1 t4).delayNs = ((t4 - t1) - r.t3mt2) / 2 + Config.linkLatency k ∧
      (l.heard k r t1 t4).surveyDue = false) ∧
      (r.t2 = 0 → r.t3mt2 = 0 → (l.heard k r t1 t4).delayNs = l.delayNs ∧ (l.heard k r t1 t4).surveyDue = l.surveyDue) := by
    unfold LinkSt.heard
    refine ⟨fun h => ?_, fun h h' => by simp [h, h']⟩
    rcases h with h | h <;> simp [h]
  by_cases h : (l.heard k r t1 t4).verdict = v
  · rw [judged_self h]
    exact ⟨h, rfl, rfl, rfl, rfl, hans⟩
  · rw [judged_ne h]
    exact ⟨rfl, rfl, rfl, rfl, rfl, hans⟩

theorem surveyAnswered_left (s : State) (k t4 : Nat) : (s.body.fab.link k).sentBut ((surveyAnswered s k t4).body.fab.link k) ∧
    ∃ seq a bs, Output.link k seq (.survey a) bs ∈ (surveyAnswered s k t4).body.host.out ∧ a.t2 = t4 % 2 ^ 32 ∧ a.t1 = t4 + a.t3mt2 ∧ a.t3mt2 < 2 ^ 32 ∧
      a.serial = s.body.md.serial ∧ a.port = k := by
  refine ⟨(Body.Driven.linkPut ({ s.body with data := { s.body.data with free := s.body.data.free + 1 } } : Body) k _).links k, ?_⟩
  obtain ⟨seq, bs, h⟩ := linkPut_out ({ s.body with data := { s.body.data with free := s.body.data.free + 1 } } : Body) k
    (.survey (surveyOf s.body k (t4 + Config.freeNat s.body.data.free % 2 ^ 32) (t4 % 2 ^ 32) (Config.freeNat s.body.data.free % 2 ^ 32)))
  exact ⟨seq, _, bs, h, rfl, rfl, Nat.mod_lt _ (by decide), rfl, rfl⟩

end

/-- Settles O44: each command is one of the link layer's operations above, and what it leaves on its port is read off that. -/
theorem links : Obligations.Links := by
  refine ⟨fun s k seq c hk ht hn => ⟨fun hc hs hw hr => ?inOrder, fun p hc hs hw hrep hr => ?waiting, fun h hr => ?refused, fun h hr => ?retrain⟩,
    fun b k p => ⟨mayLeave_iff _ p, linkPacket_leaves, linkPacket_waits⟩, fun s k seq c h => cellRx_ignored h, fun s k hk ht hn => ?lockLoss,
    fun s k h => lockLoss_ignored h, fun s k t lanes => ?retrained, fun s k lanes hk ht hc h => ?trained, fun s k f hk hk' ht => ?frames,
    fun serial k => by rw [glAddr], fun s k n => ⟨link_setLink_self .., rfl⟩, fun s k r t1 t4 hk ht hz => ?survey,
    fun s k r t1 t4 hk hk' ht hz => survey_discarded hk hk' ht hz t1 t4, fun b k r hs hn hk => verdictOf_ok hs hn hk⟩
  case inOrder =>
    cases hrep : c.word.replay with
    | false =>
      have ht' := linkIn_quiet hw hrep
      refine fun hfin => ⟨_, cellRx_in hk ht hn hc hs (by rw [ht'.link]; simpa [hrep] using hr) hfin, ht'.link, ht'.out, ht'.others, ht'.data⟩
    | true =>
      have ht' := linkIn_replayed hk hw hrep
      have hlen : ((ackBuf (s.body.fab.link k).txBuf c.word.ack).map fun x => Output.link k x.1 x.2 (linkBytes s.body k x.1 x.2)).length =
          (ackBuf (s.body.fab.link k).txBuf c.word.ack).length := List.length_map _
      have hl := ht'.link
      rw [hlen] at hl
      exact fun hfin => ⟨_, cellRx_in hk ht hn hc hs (by rw [hl]; simpa [hrep] using hr) hfin, hl, ht'.out, ht'.others, ht'.data⟩
  case waiting =>
    obtain ⟨hgo, hstay⟩ := linkIn_one hw hrep
    refine fun hfin => ⟨_, cellRx_in hk ht hn hc hs ?_ hfin, fun h => ?_, fun h => ?_⟩
    · by_cases h : ((s.body.fab.link k).took c.word).credits.getD (vcOf p) 0 = 0
      · rw [hstay h]
        exact hr
      · rw [hgo h]
        exact hr
    · have hl := hgo h
      exact ⟨congrArg LinkSt.waiting hl, congrArg LinkSt.txSeq hl, congrArg LinkSt.txBuf hl⟩
    · have hl := hstay h
      exact ⟨(congrArg LinkSt.waiting hl).trans hw, congrArg LinkSt.txBuf hl⟩
  case refused =>
    have hfew : tooMany (s.setBody (s.body.linkRefuse k)) k = s.setBody (s.body.linkRefuse k) :=
      tooMany_few (by rw [show (s.setBody (s.body.linkRefuse k)).body = s.body.linkRefuse k from rfl, linkRefuse_link]; exact hr)
    have h' := cellRx_off hk ht hn h
    rw [hfew] at h'
    exact h'
  case retrain =>
    have hl := linkRefuse_link s.body k
    exact fun hfin => ⟨_, cellRx_off hk ht hn h hfin, tooMany_retrains (s := s.setBody (s.body.linkRefuse k)) hk ((congrArg LinkSt.trained hl).trans ht)
      ((congrArg LinkSt.training hl).trans hn) ((Nat.lt_succ_of_le hr).trans_eq (congrArg LinkSt.replays hl).symm)⟩
  case lockLoss => exact fun hfin => ⟨_, lockLoss hk hfin, startRetrain_link ht hn, fun j hj => startRetrain_others ht hn hj⟩
  case retrained =>
    intro l v ht
    exact ⟨fun h => (retrain_done ht h).mono fun u hu => retrained_left hu, fun h => retrain_failed ht h⟩
  case trained =>
    have hl : (s.setLink k ((s.body.fab.link k).trainedOn lanes)).body.fab.link k = (s.body.fab.link k).trainedOn lanes := link_setLink_self ..
    obtain ⟨hlink, ⟨bs, hout, hbs⟩, hdata⟩ := sendSurvey_left (s.setLink k ((s.body.fab.link k).trainedOn lanes)) k
    unfold surveyOf at hlink hout hbs
    rw [hl] at hlink hout hbs
    exact fun hfin => ⟨_, link_trained hk ht hc h hfin, _, bs, (survey_time ..).1, (survey_time ..).2, hlink, hout, hbs, hdata⟩
  case frames =>
    intro l long
    have hlong : ¬long ↔ f.length < 64 ∨ 9216 < f.length := by omega
    have hno (h : long) : ¬(f.length < 64 ∨ 9216 < f.length) := fun hh => hlong.2 hh h
    refine ⟨fun h => frameRx hk hk' ht f (if_pos (hlong.1 h)), fun h hf => frameRx hk hk' ht f ?_, fun h hf hv => frameRx hk hk' ht f ?_,
      fun h hf hv he => frameRx hk hk' ht f ?_, fun h hf hv he hd => frameRx hk hk' ht f ?_, fun h hf hv he hd hs hw hr => ?_,
      fun h hf hv he hd hs => frameRx hk hk' ht f ?_⟩
    · simp [hno h, hf]
    · simp [hno h, hf, hv]
    · simp [hno h, hf, hv, he]
    · simp [hno h, hf, hv, he, hd]
    · have ht' := linkIn_quiet hw hr
      exact fun hfin => ⟨_, frameRx hk hk' ht f (u := s.setBody (s.body.linkIn k f.word)) (by simp [hno h, hf, hv, he, hd, hs, l]) hfin,
        ht'.data, ht'.link, ht'.out.trans (List.append_nil _)⟩
    · simp [hno h, hf, hv, he, hd, hs, l]
      rfl
  case survey =>
    obtain ⟨hv, hnode, hpos, hport, hser, hans, hnone⟩ := judged_heard (s.body.fab.link k) k r t1 t4 (verdictOf s.body k r)
    have hl := surveyed_link s k r t1 t4
    have hrx := survey_heard hk ht hz t1 t4
    by_cases ha : r.t2 ≠ 0 ∨ r.t3mt2 ≠ 0
    · rw [if_pos (by simpa [bne_iff_ne] using ha)] at hrx
      have hf := hl.fields
      refine fun hfin => ⟨_, hrx hfin, hf.verdict.trans hv, hf.peerNode.trans hnode, hf.peerPos.trans hpos, hf.peerPort.trans hport,
        hf.peerSerial.trans hser, fun h => ⟨hf.delayNs.trans (hans h).1, hf.surveyDue.trans (hans h).2⟩, fun h2 h3 => ?_⟩
      exact absurd ha (by simp [h2, h3])
    · rw [if_neg (by simpa [bne_iff_ne] using ha)] at hrx
      obtain ⟨hsent, seq, a, bs, hout, h2, h1, hlt, hserial, hp⟩ := surveyAnswered_left (surveyed s k r t1 t4) k t4
      have hf := (hl.trans hsent).fields
      have hmd := (setVerdict_judged (s.setLink k ((s.body.fab.link k).heard k r t1 t4)) k (verdictOf s.body k r)).md
      exact fun hfin => ⟨_, hrx hfin, hf.verdict.trans hv, hf.peerNode.trans hnode, hf.peerPos.trans hpos, hf.peerPort.trans hport,
        hf.peerSerial.trans hser, fun h => absurd h ha, fun h2' h3' => ⟨hf.delayNs.trans (hnone h2' h3').1, hf.surveyDue.trans (hnone h2' h3').2,
          seq, a, bs, hout, h2, h1, hlt, hserial.trans (congrArg Module.serial hmd), hp⟩⟩

end Sys2Proof.Machine
end

section
/-! The fabric's transport (09 R268, R271-R281): packets that cross, arrive, are answered, acknowledged, sent again and given up. -/

namespace Sys2Proof.Machine

/-! ### What a packet that leaves keeps -/

/-- What a packet that leaves or waits on a port keeps: all but links and what goes out. -/
structure Body.Emits (b b' : Body) : Prop where
  data : b'.data = b.data
  log : b'.log = b.log
  conns : b'.fab.conns = b.fab.conns
  ops : b'.host.ops = b.host.ops

namespace Body.Emits

theorem refl (b : Body) : b.Emits b := ⟨rfl, rfl, rfl, rfl⟩

theorem trans {a b c : Body} (h : a.Emits b) (k : b.Emits c) : a.Emits c :=
  ⟨k.data.trans h.data, k.log.trans h.log, k.conns.trans h.conns, k.ops.trans h.ops⟩

theorem linkPacket (b : Body) (k : Nat) (p : Packet) : b.Emits (b.linkPacket k p) := by
  unfold Body.linkPacket
  dsimp only
  split
  · exact ⟨rfl, rfl, rfl, rfl⟩
  · exact ⟨rfl, rfl, rfl, rfl⟩

theorem emitOn (b : Body) (q : Option Nat) (p : Packet) : b.Emits (b.emitOn q p) := by
  unfold Body.emitOn
  split
  · split
    · exact linkPacket ..
    · exact refl b
  · exact refl b

theorem foldl {α : Type} {f : Body → α → Body} (h : ∀ (b : Body) x, b.Emits (f b x)) (l : List α) (b : Body) : b.Emits (l.foldl f b) := by
  induction l generalizing b with
  | nil => exact refl b
  | cons x l ih => exact (h b x).trans (ih _)

theorem sendTack (b : Body) (p : Packet) : b.Emits (b.sendTack p) := emitOn ..

theorem conn {b b' : Body} (h : b.Emits b') (k : Nat) : b'.fab.conn k = b.fab.conn k := by
  unfold Fabric.conn
  rw [h.conns]

end Body.Emits

/-- What sending on one connection keeps of the others. -/
structure Body.SendsOn (b b' : Body) (j : Nat) : Prop where
  data : b'.data = b.data
  log : b'.log = b.log
  conn : ∀ k, k ≠ j → b'.fab.conn k = b.fab.conn k
  ops : b'.host.ops = b.host.ops

namespace Body.SendsOn

theorem refl (b : Body) (j : Nat) : b.SendsOn b j := ⟨rfl, rfl, fun _ _ => rfl, rfl⟩

theorem trans {a b c : Body} {j : Nat} (h : a.SendsOn b j) (k : b.SendsOn c j) : a.SendsOn c j :=
  ⟨k.data.trans h.data, k.log.trans h.log, fun n hn => (k.conn n hn).trans (h.conn n hn), k.ops.trans h.ops⟩

theorem setConn (b : Body) (j : Nat) (c : Conn) : b.SendsOn { b with fab := b.fab.setConn j c } j :=
  ⟨rfl, rfl, fun _ hk => conn_setConn_ne b.fab c hk, rfl⟩

theorem of_emits {b b' : Body} (h : b.Emits b') (j : Nat) : b.SendsOn b' j := ⟨h.data, h.log, fun k _ => h.conn k, h.ops⟩

theorem inject (b : Body) (beat j : Nat) (p : Packet) : b.SendsOn (b.inject beat j p) j := by
  unfold Body.inject
  dsimp only
  exact (setConn b j _).trans (of_emits (Body.Emits.emitOn ..) j)

theorem foldl {α : Type} {j : Nat} {f : Body → α → Body} (h : ∀ (b : Body) x, b.SendsOn (f b x) j) (l : List α) (b : Body) : b.SendsOn (l.foldl f b) j := by
  induction l generalizing b with
  | nil => exact refl b j
  | cons x l ih => exact (h b x).trans (ih _)

theorem unhold (b : Body) (beat j : Nat) : b.SendsOn (b.unhold beat j) j := by
  unfold Body.unhold
  dsimp only
  split
  · exact (setConn b j _).trans (foldl (fun b p => inject b beat j p) _ _)
  · exact refl b j

end Body.SendsOn

theorem sibling_ne (k : Nat) : k ≠ sibling k := by
  unfold sibling
  split <;> omega

theorem unhold_of_free {b : Body} {k : Nat} (h : (b.fab.conn k).hold = false) (beat : Nat) : b.unhold beat k = b := by
  unfold Body.unhold
  dsimp only
  rw [h]
  rfl

/-! ### Packets that cross -/

section
variable {s : State} {k : Nat} {p : Packet} {c : Instr}

theorem rx_untaken (h : mayTake s.body k = false) : Leaves (.fabricPacketRx k p) s s ∧ Leaves (.fabricResponseRx k p) s s := by
  constructor
  · exact leaves_of_run (show _ = execFabricPacketRx k p s from rfl) (if_pos (by rw [h]; rfl))
  · exact leaves_of_run (show _ = execFabricResponseRx k p s from rfl) (if_pos (by rw [h]; rfl))

theorem rx_forwarded (h : mayTake s.body k = true) (hd : p.dst ≠ s.body.data.node) (hc : c = .fabricPacketRx k p ∨ c = .fabricResponseRx k p) :
    Leaves c s (forward s p) := by
  rcases hc with rfl | rfl
  · refine leaves_of_run (show _ = execFabricPacketRx k p s from rfl) ?_
    rw [if_neg (by rw [h]; decide), if_pos hd]
  · refine leaves_of_run (show _ = execFabricResponseRx k p s from rfl) ?_
    rw [if_neg (by rw [h]; decide), if_pos hd]

theorem block_of_mayTake {b : Body} (h : mayTake b k = true) : b.fab.block.isSome = true := by
  unfold mayTake at h
  simp only [Bool.and_eq_true] at h
  exact h.2

theorem emitOn_port {b : Body} (h : b.fab.block.isSome = true) (j : Nat) (p : Packet) : b.emitOn (some j) p = b.linkPacket j p := if_pos h

theorem forward_last (h : p.hops ≤ 1) : forward s p =
    s.setBody { s.body with log := s.body.log.tallyFor s.alm.beat 0x030C 0 p.src 1 [(p.src, 0), (p.dst, 0), (0, 100)] } := if_pos h

theorem forward_routed {j : Nat} (hb : s.body.fab.block.isSome = true) (h : 1 < p.hops) (ht : 8 < p.type)
    (hr : s.body.fab.choosePort (s.body.fab.route p.epoch p.dst) p.conn = some j) :
    forward s p = s.setBody (s.body.linkPacket j { p with hops := p.hops - 1 }) := by
  unfold forward
  dsimp only
  rw [if_neg (Nat.not_le.2 h), if_neg (Nat.not_le.2 ht), hr, emitOn_port hb]

theorem forward_direct {j : Nat} (hb : s.body.fab.block.isSome = true) (h : 1 < p.hops) (ht : p.type ≤ 8) (hr : directPort s.body p.dst = some j)
    (hf : p.fwd = false) (hu : s.body.fab.portUp j = true) :
    forward s p = s.setBody (s.body.linkPacket j { p with hops := p.hops - 1, fwd := true }) := by
  unfold forward
  dsimp only
  rw [if_neg (Nat.not_le.2 h), if_pos ht, hr]
  dsimp only
  rw [hf, hu, emitOn_port hb]
  rfl

/-! ### Packets that arrive -/

/-- A request or message at its destination. -/
theorem rx_here (h : mayTake s.body k = true) (hd : p.dst = s.body.data.node) (ht : isReqType p.type = true ∨ isMsgType p.type = true) {u : State}
    (hu : (if s.body.data.halted then s.setBody { s.body with fab := { s.body.fab with heldRx := s.body.fab.heldRx ++ [(k, p)] } }
      else if packetWaits s.body.data p then s else takePacket s k p) = u) : Leaves (.fabricPacketRx k p) s u := by
  refine leaves_of_run (show _ = execFabricPacketRx k p s from rfl) ?_
  rw [if_neg (by rw [h]; decide), if_neg (not_not.2 hd), if_neg (by rcases ht with ht | ht <;> simp [ht])]
  exact hu

theorem seqCase_other {c : Conn} {beat : Nat} {seq : BitVec 32} (h : seq ≠ c.rxSeq) (h0 : seq ≠ 0) :
    seqCase c beat seq = if (seq - c.rxSeq).toInt < 0 then .duplicate else .early := by
  unfold seqCase
  exact if_neg (by rintro (hh | ⟨hh, -⟩); exacts [h hh, h0 hh])

theorem seqCase_next {c : Conn} {beat : Nat} {seq : BitVec 32} (h : seq = c.rxSeq) : seqCase c beat seq = .accept := by
  unfold seqCase
  exact if_pos (.inl h)

/-- The body in which the next packet of a connection is accepted and acknowledged. -/
def Body.accepted (b : Body) (beat : Nat) (p : Packet) : Body :=
  let k := connKey p.src p.conn
  let c := b.fab.conn k
  ({ b with fab := b.fab.setConn k { c with rxSeq := p.seq + 1, rxZero := if p.seq = 0 then beat else c.rxZero } } : Body).sendTack p

theorem transport_next {f : State → State} (h : p.seq = (s.body.fab.conn (connKey p.src p.conn)).rxSeq) :
    transport s p f = f (s.setBody (s.body.accepted s.alm.beat p)) := by
  unfold transport
  dsimp only
  rw [seqCase_next h]
  rfl

/-- What the acceptance of a packet leaves. -/
theorem accepted_left (b : Body) (beat : Nat) (p : Packet) : (b.accepted beat p).data = b.data ∧ (b.accepted beat p).log = b.log ∧
    ((b.accepted beat p).fab.conn (connKey p.src p.conn)).rxSeq = p.seq + 1 ∧ (b.accepted beat p).host.ops = b.host.ops := by
  have h := Body.Emits.sendTack ({ b with fab := b.fab.setConn (connKey p.src p.conn) { b.fab.conn (connKey p.src p.conn) with
    rxSeq := p.seq + 1, rxZero := if p.seq = 0 then beat else (b.fab.conn (connKey p.src p.conn)).rxZero } } : Body) p
  exact ⟨h.data, h.log, (congrArg Conn.rxSeq ((h.conn _).trans (conn_setConn_self ..))), h.ops⟩

end

/-! ### What a packet does at its destination -/

section
variable {s : State} {port plot q z : Nat} {p : Packet}

theorem isReqType_of_msg {t : Nat} (h : isMsgType t = true) : isReqType t = false := by
  unfold isMsgType at h
  simp only [Bool.and_eq_true, decide_eq_true_eq] at h
  unfold isReqType
  simp
  omega

/-- A message for a plot that its sender is no member of is counted. -/
theorem apply_stranger (h : tagPlot s.body.data p = none) (hm : isMsgType p.type = true) : applyPacket s port p =
    s.setBody { s.body with log := s.body.log.tallyFor s.alm.beat 0x030B 0 p.src 1 [(p.src, 0), (p.tag, 0), (0, 100)] } := by
  simp only [applyPacket, h, refuseRemote, isReqType_of_msg hm, Bool.false_eq_true, if_false]

theorem apply_ring {h : Pigeon} (hty : p.type = 11) (ht : tagPlot s.body.data p = some plot) (hp : mget s.body.data.pigeons p.offset = some h)
    (hc : s.body.data.ctxPlot h.ctx = plot) : applyPacket s port p = s.setData (s.body.data.ringPh p.offset) := by
  simp only [applyPacket, ht, hty, hp, hc, if_true]
  rfl

theorem apply_load (hty : p.type = 1) (hl : p.len ≤ 128) (hpm : p.pm = false) (ht : tagPlot s.body.data p = some plot)
    (hq : remotePhys s.body.data plot p.offset = some q) (hz : remotePhys s.body.data plot (p.offset + 127) = some z) :
    applyPacket s port p = s.setData (remoteReq s.body.data plot q p (.load p.ro false 0 0 false) []) := by
  have hlen : p.offset + max 1 (max p.len 128) - 1 - 0 = p.offset + 127 := by omega
  simp only [applyPacket, ht, hty, hpm, hq, or_true, if_true, Bool.false_eq_true, if_false, hlen, hz]
  rfl

theorem apply_flag (hty : p.type = 10) (hpm : p.pm = false) (hd : p.data.length = 8) (ht : tagPlot s.body.data p = some plot)
    (hq : remotePhys s.body.data plot p.offset = some q) (hz : remotePhys s.body.data plot (p.offset + (max 1 (max p.len 1)) - 1) = some z) :
    applyPacket s port p = s.setData (sinkBytes s.body.data plot p.offset p.data) := by
  have hdata : p.data.take 8 = p.data := List.take_of_length_le hd.le
  simp only [applyPacket, ht, hty, hpm, hq, Bool.false_eq_true, if_false, Nat.sub_zero, Nat.reduceEqDiff, or_self, hz, hdata]

end

/-! ### Requests that go on belonging to groups -/

/-- Each request has the core and the origin of one before. -/
def Data.ReqsKept (d d' : Data) : Prop := ∀ q ∈ d'.reqs, ∃ q' ∈ d.reqs, q.rem = q'.rem ∧ q.core = q'.core

namespace Data.ReqsKept

theorem refl (d : Data) : d.ReqsKept d := fun q h => ⟨q, h, rfl, rfl⟩

theorem trans {a b c : Data} (h : a.ReqsKept b) (k : b.ReqsKept c) : a.ReqsKept c := fun q hq => by
  obtain ⟨q₁, hq₁, hr, hc⟩ := k q hq
  obtain ⟨q₂, hq₂, hr', hc'⟩ := h q₁ hq₁
  exact ⟨q₂, hq₂, hr.trans hr', hc.trans hc'⟩

theorem foldl {α : Type} {f : Data → α → Data} (h : ∀ (d : Data) x, d.ReqsKept (f d x)) (l : List α) (d : Data) : d.ReqsKept (l.foldl f d) := by
  induction l generalizing d with
  | nil => exact refl d
  | cons x l ih => exact (h d x).trans (ih _)

theorem endReq (d : Data) (id : Nat) (st : ReqStage) : d.ReqsKept (d.endReq id st) := fun q hq => by
  obtain ⟨x, hx, rfl⟩ := List.mem_map.1 hq
  refine ⟨x, hx, ?_⟩
  split <;> exact ⟨rfl, rfl⟩

theorem endFill (d : Data) (id : Nat) (st : ReqStage) : d.ReqsKept (d.endFill id st) := by
  unfold Data.endFill
  split
  · intro q hq
    obtain ⟨x, hx, rfl⟩ := List.mem_map.1 hq
    refine ⟨x, hx, ?_⟩
    split <;> exact ⟨rfl, rfl⟩
  · exact refl d

theorem engAnswer (d : Data) (id st : Nat) (l : List Byte) : d.ReqsKept (d.engAnswer id st l) := refl d

theorem lost_ (d : Data) (cls : FaultClass) (p : Packet) : d.ReqsKept (d.lost_ cls p) := by
  unfold Data.lost_
  split
  · exact refl d
  · exact trans (trans (endReq d p.reqId (.failed cls)) (endFill _ p.reqId (.failed cls))) (engAnswer _ p.reqId (engStatus cls) [])

end Data.ReqsKept

theorem endFill_idle (d : Data) (id : Nat) (st : ReqStage) : d.StaysIdle (d.endFill id st) := by
  unfold Data.endFill
  split
  · exact ⟨rfl, fun h => h⟩
  · exact .refl d

theorem lost_idle (d : Data) (cls : FaultClass) (p : Packet) : d.StaysIdle (d.lost_ cls p) := by
  unfold Data.lost_
  split
  · exact .refl d
  · exact ((Data.StaysIdle.endReq ..).trans (endFill_idle ..)).trans (Data.StaysIdle.engAnswer ..)

/-! ### Answers -/

theorem not_ofEngine {r : LineReq} (h : r.core < 672) : r.ofEngine = false := by
  unfold LineReq.ofEngine
  simp
  omega

/-- What is absorbed for engines leaves the requests of groups. -/
theorem mem_absorb {d : Data} {r : LineReq} (h : r ∈ d.reqs) (hc : r.core < 672) : r ∈ d.absorb.reqs := by
  have hf : r ∈ d.reqs.filter fun r => !(r.ofEngine && r.over) := List.mem_filter.2 ⟨h, by rw [not_ofEngine hc]; rfl⟩
  unfold Data.absorb
  rw [foldl_kept (fun d : Data => d.reqs)]
  · exact hf
  · intro d r
    split <;> rfl

section
variable {s : State} {k : Nat} {p : Packet} {r : LineReq}

/-- How the request that a response answers ends. -/
def rspStage (p : Packet) : ReqStage :=
  if p.status ≠ 0 then .failed (rspClass p.status)
  else match p.type with
    | 2 => .returned p.data []
    | 4 => .acked
    | _ => .returned [] ((List.range (p.data.length / 8)).map fun i => BitVec.ofNat 64 (field p.data (8 * i) 8))

theorem endFill_none {d : Data} (h : d.fills = []) (id : Nat) (st : ReqStage) : d.endFill id st = d := by
  unfold Data.endFill
  rw [h]
  rfl

/-- The body in which a response has ended its request, no fill being under way. -/
def Body.responded (b : Body) (p : Packet) : Body :=
  { b with
    data := (b.data.engAnswer p.reqId p.status p.data).endReq p.reqId (rspStage p)
    fab := { b.fab with conns := mmap b.fab.conns fun k (c : Conn) =>
      if k / 2 = p.src then { c with answers := c.answers.filter fun x => x.pkt.reqId != p.reqId } else c } }

theorem applyResponse_eq {b : Body} (h8 : p.type ≠ 8) (hf : b.data.fills = []) (beat : Nat) :
    applyResponse b beat p = pump (answerAll (b.responded p) beat) beat := by
  unfold applyResponse
  dsimp only
  rw [if_neg h8]
  have hfills : (b.data.engAnswer p.reqId p.status p.data).fills = [] := hf
  have hnone : (if p.type = 2 ∧ p.status = 0 then
      (b.data.engAnswer p.reqId p.status p.data).fills.find? fun f => f.remote.isSome && f.id % 2 ^ 32 == p.reqId else none) = none := by
    rw [hfills]
    exact ite_self _
  rw [hnone]
  dsimp only
  rw [endFill_none (by exact hfills)]
  rfl

/-- A response ends its request, and leaves memory. -/
theorem applyResponse_ends {b : Body} (h8 : p.type ≠ 8) (hf : b.data.fills = []) (ho : b.Ours) (hi : b.data.enginesIdle) (hr : r ∈ b.data.reqs)
    (hid : r.id < 2 ^ 32) (hid' : r.id = p.reqId) (hst : r.stage = .attached) (beat : Nat) :
    { r with stage := rspStage p } ∈ (applyResponse b beat p).data.reqs ∧ (applyResponse b beat p).data.mem = b.data.mem := by
  have hours : (b.responded p).Ours := ho.setReqs (d := (b.data.engAnswer p.reqId p.status p.data).endReq p.reqId (rspStage p))
    (Data.ReqsKept.endReq (b.data.engAnswer p.reqId p.status p.data) p.reqId (rspStage p))
  have hs : b.data.StaysIdle (b.responded p).data := (Data.StaysIdle.engAnswer ..).trans (Data.StaysIdle.endReq ..)
  rw [applyResponse_eq h8 hf, answerAll_ours hours, pump_idle (hs.idle hi)]
  refine ⟨mem_absorb (List.mem_map.2 ⟨r, hr, ?_⟩) (ho.1 r hr).2, (Data.StaysIdle.absorb _).mem.trans hs.mem⟩
  rw [if_pos ⟨by rw [Nat.mod_eq_of_lt hid, hid'], hst⟩]

theorem rx_response (h : mayTake s.body k = true) (hd : p.dst = s.body.data.node) (ht : isRspType p.type = true)
    (hq : p.seq = (s.body.fab.conn (connKey p.src p.conn)).rxSeq) : Leaves (.fabricResponseRx k p) s
      (s.setBody (applyResponse (s.body.accepted s.alm.beat p) s.alm.beat p)) := by
  refine leaves_of_run (show _ = execFabricResponseRx k p s from rfl) ?_
  rw [if_neg (by rw [h]; decide), if_neg (not_not.2 hd), if_neg (by rw [ht]; decide), transport_next hq]
  rfl

theorem response_ends (h : mayTake s.body k = true) (hd : p.dst = s.body.data.node) (ht : p.type = 2 ∨ p.type = 4 ∨ p.type = 6)
    (hq : p.seq = (s.body.fab.conn (connKey p.src p.conn)).rxSeq) (hr : r ∈ s.body.data.reqs) (hid : r.id < 2 ^ 32) (hid' : r.id = p.reqId)
    (hst : r.stage = .attached) (hf : s.body.data.fills = []) (hi : s.body.data.enginesIdle) (ho : OursOnly s) :
    Makes (.fabricResponseRx k p) s fun u => { r with stage := rspStage p } ∈ u.body.data.reqs ∧ u.body.data.mem = s.body.data.mem := by
  obtain ⟨hdata, -, -, hops⟩ := accepted_left s.body s.alm.beat p
  have hours : (s.body.accepted s.alm.beat p).Ours := ⟨by rw [hdata]; exact ho.1, hops.trans ho.2⟩
  have he := applyResponse_ends (b := s.body.accepted s.alm.beat p) (p := p) (r := r) (by omega) (by rw [hdata]; exact hf) hours (by rw [hdata]; exact hi)
    (by rw [hdata]; exact hr) hid hid' hst s.alm.beat
  refine fun hfin => ⟨_, rx_response h hd ?_ hq hfin, he.1, he.2.trans (congrArg Data.mem hdata)⟩
  rcases ht with ht | ht | ht <;> rw [ht] <;> rfl

end

theorem connKey_parts (n c : Nat) : connKey n (c % 2) / 2 = n ∧ connKey n (c % 2) % 2 = c % 2 := by
  unfold connKey
  omega

/-! ### Acknowledgements -/

section
variable {s : State} {n c : Nat}

/-- The connection after an acknowledgement. -/
def Conn.tacked (c : Conn) (ack : BitVec 32) : Conn :=
  { c with
    unacked := c.unacked.filter fun s => !seqCovered s.pkt.seq ack
    answers := c.answers ++ (c.unacked.filter fun s => seqCovered s.pkt.seq ack).filter fun s => isReqType s.pkt.type }

/-- The body in which an acknowledgement has ended what it covers, no hold ended yet. -/
def Body.tacked (b : Body) (k : Nat) (ack : BitVec 32) : Body :=
  { b with
    data := (((b.fab.conn k).unacked.filter fun s => seqCovered s.pkt.seq ack).filter fun s => isMsgType s.pkt.type).foldl
      (fun (d : Data) s => d.engAnswer s.pkt.reqId 0 []) b.data
    fab := b.fab.setConn k ((b.fab.conn k).tacked ack) }

theorem tack_eq (b : Body) (beat k : Nat) (ack : BitVec 32) :
    b.tack beat k ack = ((b.tacked k ack).unhold beat k).unhold beat (sibling k) := rfl

theorem tacked_conn (b : Body) (k : Nat) (ack : BitVec 32) : (b.tacked k ack).fab.conn k = (b.fab.conn k).tacked ack := conn_setConn_self ..

theorem tacked_idle (b : Body) (k : Nat) (ack : BitVec 32) : b.data.StaysIdle (b.tacked k ack).data :=
  Data.StaysIdle.foldl (fun d (s : SentPkt) => Data.StaysIdle.engAnswer d s.pkt.reqId 0 []) _ b.data

theorem tack_left {b : Body} {k : Nat} (hh : (b.fab.conn k).hold = false) (beat : Nat) (ack : BitVec 32) :
    (b.tack beat k ack).fab.conn k = (b.fab.conn k).tacked ack ∧ b.data.StaysIdle (b.tack beat k ack).data := by
  have hc := tacked_conn b k ack
  have hu := Body.SendsOn.unhold (b.tacked k ack) beat (sibling k)
  rw [tack_eq, unhold_of_free (b := b.tacked k ack) (by rw [hc]; exact hh), hu.data]
  exact ⟨(hu.conn k (sibling_ne k)).trans hc, tacked_idle b k ack⟩

theorem tack_idle {b : Body} {k : Nat} (hh : (b.fab.conn k).hold = false) (hi : b.data.enginesIdle) (beat : Nat) (ack : BitVec 32) :
    (pump (b.tack beat k ack) beat).fab.conn k = (b.fab.conn k).tacked ack ∧ (pump (b.tack beat k ack) beat).data.mem = b.data.mem := by
  obtain ⟨hc, hs⟩ := tack_left hh beat ack
  rw [pump_idle (hs.idle hi)]
  exact ⟨hc, (Data.StaysIdle.absorb _).mem.trans hs.mem⟩

/-! ### What is sent again -/

/-- The packets of a connection that have waited long enough to be sent again. -/
def resendDue (beat : Nat) (x : SentPkt) : Bool := decide (x.last + 20 ≤ beat)

/-- A sent packet, sent again where it has waited long enough. -/
def SentPkt.again (f : Fabric) (k beat : Nat) (y : SentPkt) : SentPkt :=
  if y.last + 20 ≤ beat then { y with last := beat, port := f.againBy k y } else y

/-- The connection whose packets that have waited long enough are sent again. -/
def Conn.resent (c : Conn) (f : Fabric) (k beat : Nat) : Conn :=
  { c with unacked := c.unacked.map fun (x : SentPkt) => if resendDue beat x then { x with last := beat, port := f.againBy k x } else x }

/-- What a resend timeout makes of the body. -/
def Body.resent (b : Body) (beat k : Nat) : Body :=
  ((b.fab.conn k).unacked.filter (resendDue beat)).foldl (fun (b' : Body) x => b'.emitOn (b.fab.againBy k x) x.pkt)
    { b with fab := b.fab.setConn k ((b.fab.conn k).resent b.fab k beat) }

theorem resend_eq (n c : Nat) (s : State) : execTransportResendTimeout n c s = s.runB fun beat b =>
    if (b.fab.conn (connKey n (c % 2))).unacked.filter (resendDue beat) = [] then b else b.resent beat (connKey n (c % 2)) := rfl

theorem resend_none (h : ∀ x ∈ (s.body.fab.conn (connKey n (c % 2))).unacked, s.alm.beat < x.last + 20) :
    Leaves (.transportResendTimeout n c) s s := by
  refine leaves_of_runB (resend_eq n c s) (if_pos ?_)
  rw [List.filter_eq_nil_iff]
  intro x hx
  unfold resendDue
  simpa using h x hx

theorem resent_left (b : Body) (beat k : Nat) :
    ((b.resent beat k).fab.conn k).unacked = (b.fab.conn k).unacked.map (SentPkt.again b.fab k beat) ∧ (b.resent beat k).data = b.data := by
  have he := Body.Emits.foldl (fun (b' : Body) (x : SentPkt) => Body.Emits.emitOn b' (b.fab.againBy k x) x.pkt)
    ((b.fab.conn k).unacked.filter (resendDue beat))
    { b with fab := b.fab.setConn k ((b.fab.conn k).resent b.fab k beat) }
  refine ⟨(congrArg Conn.unacked ((he.conn k).trans (conn_setConn_self ..))).trans ?_, he.data⟩
  refine List.map_congr_left fun x _ => ?_
  unfold SentPkt.again resendDue
  by_cases h : x.last + 20 ≤ beat
  · rw [if_pos h, if_pos (decide_eq_true h)]
  · rw [if_neg h, if_neg (by simpa using h)]

theorem resend_some {x : SentPkt} (hx : x ∈ (s.body.fab.conn (connKey n (c % 2))).unacked) (h : x.last + 20 ≤ s.alm.beat) :
    Makes (.transportResendTimeout n c) s fun u => u.body = s.body.resent s.alm.beat (connKey n (c % 2)) :=
  makes_of_runB (resend_eq n c s) (if_neg fun he => absurd (List.filter_eq_nil_iff.1 he x hx) (by unfold resendDue; simpa using h))

/-! ### Connections that are given up -/

/-- The body in which a connection is given up, the other of its node not yet released. -/
def Body.givenUp (b : Body) (beat k : Nat) : Body :=
  { b with
    data := (b.fab.lostPkts k beat).foldl (fun (d : Data) p => d.lost_ .fabricLost p) b.data
    fab := b.fab.setConn k { b.fab.conn k with
      answers := (b.fab.conn k).answers.takeWhile fun x => !answerDead b.fab k beat x, unacked := [], held := [], hold := false, txSeq := 0, moved := none }
    log := if b.fab.lostPkts k beat = [] then b.log
      else b.log.tallyFor beat 0x030A 0 (k / 2) (b.fab.lostPkts k beat).length [(k / 2, 0), (k % 2, 0), (0, 102)] }

theorem abandon_eq (b : Body) (beat k : Nat) : b.abandon beat k = (b.givenUp beat k).unhold beat (sibling k) := rfl

theorem abandoned (s : State) (n c : Nat) : exec (.transportAbandon n c) s = s.runB fun beat b =>
    if ((b.fab.conn (connKey n (c % 2))).answers.any fun x => answerDead b.fab (connKey n (c % 2)) beat x) ||
      (b.fab.conn (connKey n (c % 2))).unacked.any fun x => decide (x.first + 10000 ≤ beat) then
      pump (answerAll (b.abandon beat (connKey n (c % 2))) beat) beat
    else b := rfl

theorem abandon_none (ha : (s.body.fab.conn (connKey n (c % 2))).answers = [])
    (hu : ∀ x ∈ (s.body.fab.conn (connKey n (c % 2))).unacked, s.alm.beat < x.first + 10000) : Leaves (.transportAbandon n c) s s := by
  refine leaves_of_runB (abandoned s n c) (if_neg ?_)
  rw [ha]
  simpa using hu

theorem abandon_some {x : SentPkt} (hx : x ∈ (s.body.fab.conn (connKey n (c % 2))).unacked) (h : x.first + 10000 ≤ s.alm.beat) :
    Makes (.transportAbandon n c) s fun u => u.body = pump (answerAll (s.body.abandon s.alm.beat (connKey n (c % 2))) s.alm.beat) s.alm.beat := by
  refine makes_of_runB (abandoned s n c) (if_pos ?_)
  rw [Bool.or_eq_true]
  exact .inr (List.any_eq_true.2 ⟨x, hx, decide_eq_true h⟩)

/-- What a connection that is given up leaves, where no engine runs and every request is a group's. -/
theorem abandon_left {b : Body} (ho : b.Ours) (hi : b.data.enginesIdle) (beat k : Nat) :
    (pump (answerAll (b.abandon beat k) beat) beat).fab.conn k = (b.givenUp beat k).fab.conn k ∧
    (pump (answerAll (b.abandon beat k) beat) beat).data.mem = b.data.mem ∧
    (pump (answerAll (b.abandon beat k) beat) beat).log = (b.givenUp beat k).log := by
  have hu := Body.SendsOn.unhold (b.givenUp beat k) beat (sibling k)
  have hs : b.data.StaysIdle (b.givenUp beat k).data := Data.StaysIdle.foldl (fun d p => lost_idle d .fabricLost p) _ _
  have hkept : b.data.ReqsKept (b.givenUp beat k).data := Data.ReqsKept.foldl (fun d p => Data.ReqsKept.lost_ d .fabricLost p) _ _
  have hours : ((b.givenUp beat k).unhold beat (sibling k)).Ours := by
    refine ⟨fun q hq => ?_, hu.ops.trans ho.2⟩
    rw [hu.data] at hq
    obtain ⟨q', hq', hr, hc⟩ := hkept q hq
    obtain ⟨hr', hc'⟩ := ho.1 q' hq'
    exact ⟨hr.trans hr', hc ▸ hc'⟩
  have hidle : ((b.givenUp beat k).unhold beat (sibling k)).data.enginesIdle := by
    rw [hu.data]
    exact hs.idle hi
  rw [abandon_eq, answerAll_ours hours, pump_idle hidle]
  refine ⟨hu.conn k (sibling_ne k), (Data.StaysIdle.absorb _).mem.trans ?_, hu.log⟩
  rw [hu.data]
  exact hs.mem

theorem mem_lostPkts {f : Fabric} {k beat : Nat} {p : Packet}
    (h : (∃ x, (x ∈ (f.conn k).unacked ∨ x ∈ (f.conn k).answers ∧ answerDead f k beat x = true) ∧ x.pkt = p) ∨ p ∈ (f.conn k).held) :
    p ∈ f.lostPkts k beat := by
  unfold Fabric.lostPkts
  dsimp only
  rcases h with ⟨x, hx | ⟨hx, hd⟩, rfl⟩ | h
  · exact List.mem_append_left _ (List.mem_map_of_mem (List.mem_append_right _ hx))
  · refine List.mem_append_left _ (List.mem_map_of_mem (List.mem_append_left _ ?_))
    rw [← List.takeWhile_append_dropWhile (p := fun x => !answerDead f k beat x) (l := (f.conn k).answers)] at hx
    refine (List.mem_append.1 hx).resolve_left fun ht => ?_
    have hp := List.mem_takeWhile_imp ht
    rw [hd] at hp
    exact absurd hp (by decide)
  · exact List.mem_append_right _ h

end

section
variable {s : State} {k plot q z : Nat} {p : Packet}

/-- A request or message that is next is accepted, acknowledged and acted on. -/
theorem rx_next (h : mayTake s.body k = true) (hd : p.dst = s.body.data.node) (ht : isReqType p.type = true ∨ isMsgType p.type = true)
    (hh : s.body.data.halted = false) (hw : packetWaits s.body.data p = false) (hq : p.seq = (s.body.fab.conn (connKey p.src p.conn)).rxSeq) :
    Leaves (.fabricPacketRx k p) s (applyPacket (s.setBody (s.body.accepted s.alm.beat p)) k p) := by
  refine rx_here h hd ht ?_
  rw [hh, if_neg (by decide), hw, if_neg (by decide)]
  exact transport_next hq

/-- One that is not next is acknowledged again when it was seen before, and else ignored. -/
theorem rx_other (h : mayTake s.body k = true) (hd : p.dst = s.body.data.node) (ht : isReqType p.type = true ∨ isMsgType p.type = true)
    (hh : s.body.data.halted = false) (hw : packetWaits s.body.data p = false) (hq : p.seq ≠ (s.body.fab.conn (connKey p.src p.conn)).rxSeq)
    (h0 : p.seq ≠ 0) : Leaves (.fabricPacketRx k p) s
      (if (p.seq - (s.body.fab.conn (connKey p.src p.conn)).rxSeq).toInt < 0 then s.setBody (s.body.sendTack p) else s) := by
  refine rx_here h hd ht ?_
  rw [hh, if_neg (by decide), hw, if_neg (by decide)]
  unfold takePacket transport
  dsimp only
  rw [seqCase_other hq h0]
  by_cases hlt : (p.seq - (s.body.fab.conn (connKey p.src p.conn)).rxSeq).toInt < 0
  · rw [if_pos hlt, if_pos hlt]
  · rw [if_neg hlt, if_neg hlt]

/-- What a packet that is next does, by its type. -/
theorem applied (s : State) (k : Nat) (p : Packet) (hq : p.seq = (s.body.fab.conn (connKey p.src p.conn)).rxSeq) :
    let c := s.body.fab.conn (connKey p.src p.conn)
    let u := applyPacket (s.setBody (s.body.accepted s.alm.beat p)) k p
    (tagPlot s.body.data p = none → isMsgType p.type = true → u.body.data = s.body.data ∧
        u.body.log = s.body.log.tallyFor s.alm.beat 0x030B 0 p.src 1 [(p.src, 0), (p.tag, 0), (0, 100)] ∧ (u.body.fab.conn (connKey p.src p.conn)).rxSeq = c.rxSeq + 1) ∧
      (∀ plot h, p.type = 11 → tagPlot s.body.data p = some plot → mget s.body.data.pigeons p.offset = some h → s.body.data.ctxPlot h.ctx = plot →
        u.body.data = s.body.data.ringPh p.offset ∧ (u.body.fab.conn (connKey p.src p.conn)).rxSeq = c.rxSeq + 1) ∧
      (∀ plot q z, p.type = 1 → p.len ≤ 128 → p.pm = false → tagPlot s.body.data p = some plot → remotePhys s.body.data plot p.offset = some q →
        remotePhys s.body.data plot (p.offset + 127) = some z → ∃ r, u.body.data.reqs = s.body.data.reqs ++ [r] ∧
          r.rem = some { node := p.src, agent := p.agent, reqId := p.reqId, conn := p.conn, tag := p.tag } ∧ r.plot = plot ∧
          r.tgt = .local (q / 128 * 128) ∧ r.stage = .waiting ∧ u.body.data.mem = s.body.data.mem) ∧
      (∀ plot q z, p.type = 10 → p.pm = false → p.len ≤ 8 → p.data.length = 8 → tagPlot s.body.data p = some plot →
        remotePhys s.body.data plot p.offset = some q → remotePhys s.body.data plot (p.offset + (max 1 (max p.len 1)) - 1) = some z →
          u.body.data = sinkBytes s.body.data plot p.offset p.data) := by
  obtain ⟨hdata, hlog, hseq, -⟩ := accepted_left s.body s.alm.beat p
  obtain ⟨t, ht⟩ : ∃ t, t = s.setBody (s.body.accepted s.alm.beat p) := ⟨_, rfl⟩
  rw [← ht]
  have hd : t.body.data = s.body.data := ht ▸ hdata
  have hl : t.body.log = s.body.log := ht ▸ hlog
  have hb : t.alm.beat = s.alm.beat := by rw [ht]; rfl
  have hr : (t.body.fab.conn (connKey p.src p.conn)).rxSeq = (s.body.fab.conn (connKey p.src p.conn)).rxSeq + 1 := by
    rw [ht, ← hq]
    exact hseq
  rw [← hd, ← hl, ← hb]
  refine ⟨fun hn hm => ?_, fun plot h hty htag hp hc => ?_, fun plot q z hty hlen hpm htag hq hz => ?_,
    fun plot q z hty hpm hlen hdl htag hq hz => ?_⟩
  · rw [apply_stranger hn hm]
    exact ⟨rfl, rfl, hr⟩
  · rw [apply_ring hty htag hp hc]
    exact ⟨rfl, hr⟩
  · rw [apply_load hty hlen hpm htag hq hz]
    exact ⟨_, rfl, rfl, rfl, rfl, rfl, rfl⟩
  · rw [apply_flag hty hpm hdl htag hq hz]
    rfl

end

/-- Settles O45: packets through `forward`, `transport` and `applyPacket`; what ends or gives up a connection through the body it
leaves, in which no engine has anything to do. -/
theorem fabricTransport : Obligations.Transport := by
  refine ⟨fun s k p h => rx_untaken h, fun s k p c h hd hc => ⟨fun hh => ?last, fun j hh ht hr => ?routed, fun j hh ht hr hf hu => ?direct⟩,
    fun s k p h hd ht => ⟨fun hh => rx_here h hd ht (if_pos hh), fun hh hw => rx_here h hd ht ?waits, fun hh hw hq h0 => ?other,
      fun hh hw hq hfin => ⟨_, rx_next h hd ht hh hw hq hfin, applied s k p hq⟩⟩,
    fun s k p r data h hd hty hst hdat hq hr hid hid' hs hf hi ho => ?answered, fun s k p r h hd hty hst hq hr hid hid' hs hf hi ho => ?failed,
    fun s n c seq => ?acknowledged, fun s n c => ⟨resend_none, fun x hx hl => (resend_some hx hl).mono fun u hu => hu ▸ resent_left ..⟩,
    fun s n c => ⟨abandon_none, fun x hx hl hi ho => ?abandoned⟩, fun f k beat p h => mem_lostPkts h, fun f e cls h1 h2 => if_neg (by simp [h1, h2])⟩
  case last => exact forward_last hh ▸ rx_forwarded h hd hc
  case routed => exact forward_routed (block_of_mayTake h) hh ht hr ▸ rx_forwarded h hd hc
  case direct => exact forward_direct (block_of_mayTake h) hh ht hr hf hu ▸ rx_forwarded h hd hc
  case waits => rw [hh, if_neg (by decide), if_pos hw]
  case other =>
    have hrx := rx_other h hd ht hh hw hq h0
    refine ⟨fun hlt => ?_, fun hge => ?_⟩
    · rw [if_pos hlt] at hrx
      exact hrx
    · rw [if_neg (not_lt.2 hge)] at hrx
      exact hrx
  case answered =>
    have hstage : rspStage p = .returned data [] := by
      unfold rspStage
      rw [if_neg (not_not.2 hst), hty, hdat] <;> rfl
    exact hstage ▸ response_ends h hd (.inl hty) hq hr hid hid' hs hf hi ho
  case failed =>
    have hstage : rspStage p = .failed .dataLost := by
      unfold rspStage
      rw [if_pos (by rw [hst]; decide), hst]
      rfl
    exact (hstage ▸ response_ends h hd hty hq hr hid hid' hs hf hi ho).mono fun u hu => hu.1
  case acknowledged =>
    intro k hh hi
    obtain ⟨hconn, hmem⟩ := tack_idle hh hi s.alm.beat (BitVec.ofNat 32 seq)
    refine makes_of_runB (show _ = execTackRx n c seq s from rfl) ⟨fun x => ?_, fun x hx hcov hreq => ?_, hmem, ?_⟩
    · show x ∈ ((pump (s.body.tack s.alm.beat k (BitVec.ofNat 32 seq)) s.alm.beat).fab.conn k).unacked ↔ _
      rw [hconn]
      exact List.mem_filter.trans (and_congr_right fun _ => by simp)
    · show x ∈ ((pump (s.body.tack s.alm.beat k (BitVec.ofNat 32 seq)) s.alm.beat).fab.conn k).answers
      rw [hconn]
      exact List.mem_append_right _ (List.mem_filter.2 ⟨List.mem_filter.2 ⟨hx, hcov⟩, hreq⟩)
    · have htx := congrArg Conn.txSeq hconn
      exact htx
  case abandoned =>
    refine (abandon_some hx hl).mono fun u hu => ?_
    obtain ⟨hconn, hmem, hlog⟩ := abandon_left ho hi s.alm.beat (connKey n (c % 2))
    obtain ⟨hn, hc⟩ := connKey_parts n c
    have hgiven := hconn.trans (conn_setConn_self ..)
    have hne : s.body.fab.lostPkts (connKey n (c % 2)) s.alm.beat ≠ [] := List.ne_nil_of_mem (mem_lostPkts (.inl ⟨x, .inl hx, rfl⟩))
    rw [hu]
    refine ⟨congrArg Conn.unacked hgiven, congrArg Conn.held hgiven, congrArg Conn.txSeq hgiven, hmem, hlog.trans ?_⟩
    unfold Body.givenUp
    dsimp only
    rw [if_neg hne, hn, hc]

end Sys2Proof.Machine
end
